-- ==== Sys2Proof/Word.lean ====
section
/-!
DEFINITION. The words of the machine and their plainest arithmetic (R4, R9, R73).
-/

namespace Sys2Proof

/-- A byte of memory (R4). -/
abbrev Byte := BitVec 8

/-- A 32-bit word: an instruction word, a scalar register, one lane of a vector register. -/
abbrev Word := BitVec 32

/-- A 64-bit doubleword: an address, a register pair, a control register. -/
abbrev DWord := BitVec 64

/-- 128 bits: a segment register, an accumulator entry, a 16-byte access. -/
abbrev QWord := BitVec 128

/-- One bit for each of the 96 lanes of a group (R9). Bit `l` stands for lane `l`. -/
abbrev LaneMask := BitVec 96

/-- The value of one vector register: one word for each lane (R9, R147). -/
abbrev LaneWords := Vector Word 96

/-- Number of a vector register, v0 to v127 (R73). -/
abbrev VReg := BitVec 7

/-- Number of a scalar register, s0 to s63 (R73). -/
abbrev SReg := BitVec 6

/-- Number of a predicate register, p0 to p7 (R73). -/
abbrev PReg := BitVec 3

/-- Number of a channel, 0 to 63 (R78). -/
abbrev Chan := BitVec 6

/-- The pair of words `lo`, `hi` read as one doubleword, the lower-numbered register below. -/
def pair (lo hi : Word) : DWord := hi ++ lo

/-- Bits 31:0 of a doubleword. -/
def DWord.lo (x : DWord) : Word := x.extractLsb' 0 32

/-- Bits 63:32 of a doubleword. -/
def DWord.hi (x : DWord) : Word := x.extractLsb' 32 32

/-- The lanes of a group in ascending order. -/
def lanes : List Nat := List.range 96

/-- The lane mask whose bit `l` is `f l`. -/
def LaneMask.ofFn (f : Nat → Bool) : LaneMask :=
  BitVec.ofNat 96 (lanes.foldr (fun l n => 2 * n + (f l).toNat) 0)

/-- The vector whose lane `l` is `f l`. -/
def LaneWords.ofFn (f : Nat → Word) : LaneWords := Vector.ofFn fun i : Fin 96 => f i.val

/-- Lane `l` of a vector. A lane number past 95 names no lane and reads 0. -/
def LaneWords.lane (v : LaneWords) (l : Nat) : Word := v.toArray.getD l 0

/-- The lanes named by a mask, in ascending order. -/
def LaneMask.list (m : LaneMask) : List Nat := lanes.filter fun l => m.getLsbD l

end Sys2Proof
end

