-- ==== Sys2Proof/Syntax.lean ====
section
/-!
DEFINITION. The instructions and events of the machine: every row of spec/opcode_table.json is one constructor
of `Instr`. Operand kinds follow R73 to R79 and the class chapters.
-/

namespace Sys2Proof

/-- A source operand of format S3 (R77): a scalar register, or a channel peeked or popped. -/
inductive SSrc where
  | reg (r : SReg)
  | peek (c : Chan)
  | pop (c : Chan)
deriving DecidableEq, Repr

/-- A destination operand of format S3 (R77): a scalar register, or a channel that receives a push. -/
inductive SDst where
  | reg (r : SReg)
  | chan (c : Chan)
deriving DecidableEq, Repr

/-- Condition codes of VCMP (R155). -/
inductive IntCond where
  | eq | ne | lt | le | gt | ge
deriving DecidableEq, Repr

/-- Type codes of VCMP (R155). -/
inductive IntType where
  | i32 | n32 | i64 | n64
deriving DecidableEq, Repr

/-- Condition codes of VFCMP (R179). -/
inductive FloatCond where
  | eq | ne | lt | le | gt | ge | un | ord
deriving DecidableEq, Repr

/-- Type codes of VFCMP (R179). -/
inductive FloatType where
  | f32 | f64 | bf16lo | bf16hi
deriving DecidableEq, Repr

/-- The sub-group widths W of XLANE (R157). -/
inductive SubWidth where
  | w96 | w32 | w16 | w8 | w4 | w2
deriving DecidableEq, Repr

/-- The operations OP of VSCAN and VRED (R157). -/
inductive LaneOp where
  | addI32 | minI32 | maxI32 | minN32 | maxN32 | andB32 | orB32 | xorB32
deriving DecidableEq, Repr

/-- The format codes of R184. Code 0xF is reserved: a word that holds it meets cause 0x07 (R87). -/
inductive Fmt where
  | i8 | e4m3 | e5m2 | e3m2 | e2m3 | e2m1 | d2p8 | bf16 | f16 | f32 | f64 | i16 | i32 | i64 | sc12 | reserved
deriving DecidableEq, Repr

/-- Rounding modes of format CV (R74). -/
inductive Rnd where
  | rne | rtz | rdn | rup | rna | rsr
deriving DecidableEq, Repr

/-- Widths of LDG, LDS and LDC (R215). -/
inductive LoadWidth where
  | n8 | i8 | n16 | i16 | b32 | b64 | b128
deriving DecidableEq, Repr

/-- Widths of STG, STS and STC (R215). -/
inductive StoreWidth where
  | b8 | b16 | b32 | b64 | b128
deriving DecidableEq, Repr

/-- Address forms of R215. `prv` names the lane stacks (space p), in LDG and STG only. -/
inductive OffForm where
  | zx | sx | x64 | prv
deriving DecidableEq, Repr

/-- Scopes (R226). -/
inductive Scope where
  | grp | blk | clu | pkg | sys | fab
deriving DecidableEq, Repr

/-- Fence semantics (R242). -/
inductive Sem where
  | acq | rel | ar
deriving DecidableEq, Repr

/-- Atomic operations (R228). RED admits all but the exchanges and compare-and-swaps (R232). -/
inductive AtomFn where
  | addB32 | addB64 | minI32 | minI64 | maxI32 | maxI64 | minN32 | minN64 | maxN32 | maxN64
  | andB32 | andB64 | orB32 | orB64 | xorB32 | xorB64 | exchB32 | exchB64 | casB32 | casB64 | addF32
deriving DecidableEq, Repr

/-- Lattice cell types (R264). -/
inductive LatType where
  | maxN32 | maxN64 | maxI32 | minN32 | orB32 | orB64 | maxF32 | andB32 | cnt8x32
deriving DecidableEq, Repr

/-- Widths of lld and lldge (R278). -/
inductive LatWidth where
  | b32 | b64 | cnt
deriving DecidableEq, Repr

/-- Directions of COPY (R294). -/
inductive CopyDir where
  | gs | sg | gg | cs | sc | gf | fg
deriving DecidableEq, Repr

/-- Source forms of ACCWR (R333). -/
inductive AccForm where
  | f32 | f64 | b128
deriving DecidableEq, Repr

/-- Segment registers named by SEGLD and SEGRD (R359). -/
inductive Seg where
  | g | s | c | a | p
deriving DecidableEq, Repr

/-- Where an uncorrectable error lies (R439): a byte of memory, a block of a compressed tenant page, a scratchpad, a vector
register, a word in an instruction cache, an accumulator entry, a tag, the control state of a core, of a near-tier die or of the far tier (and whether its
retry has failed), one mirror of a table or both, the MAC or counter tree of a frame of class 0b10 (R392), a checkpoint of a context, a unit of a persistent region. -/
inductive ErrorSite where
  | memory (pa : Nat)
  | packed (space page block : Nat)
  | scratchpad (core off : Nat)
  | vector (core slot reg : Nat)
  | instructions (core pa : Nat)
  | accumulator (core entry : Nat)
  | tag (core entry : Nat)
  | coreControl (core : Nat)
  | nearControl (die : Nat)
  | farControl (again : Bool)
  | mirror (both : Bool)
  | mac (frame : Nat)
  | checkpoint (context : Nat)
  | flash (name : DWord) (unit : Nat)
deriving DecidableEq, Repr

/-- The cause codes of the illegal-instruction fault, R87's table 0x01 to 0x0B in its order. -/
inductive Cause where
  | reservedMajor | nopBits | reservedCode | nonzeroBits | forbiddenChain | registerRange | formatCode
  | unboundChannel | specialRegister | sysAtU | branchTarget
deriving DecidableEq, Repr

/-- The number of a cause (R87). -/
def Cause.code : Cause → Nat
  | .reservedMajor => 1 | .nopBits => 2 | .reservedCode => 3 | .nonzeroBits => 4 | .forbiddenChain => 5
  | .registerRange => 6 | .formatCode => 7 | .unboundChannel => 8 | .specialRegister => 9 | .sysAtU => 10
  | .branchTarget => 11

/-- An operand of an act of the security core, with whether its two cores agree on the act (R27). -/
structure Voted (α : Type) where
  value : α
  agree : Bool
deriving DecidableEq, Repr

/-- The packet a fetch is for: the one a split stands at, or one so many packets ahead of it (R259). -/
structure FetchPlace where
  split : Nat
  ahead : Nat
deriving DecidableEq, Repr

/-- A part of a chunk of a copy: which units move, and of a unit that is read, which bytes (R255, R293). -/
structure ChunkPart where
  units : BitVec 32
  bytes : BitVec 32
deriving DecidableEq, Repr

/-- An extent as the device offers it: tenant memory, or the pool frames from `pool` on (R412, R428). -/
structure Offer where
  base : Nat
  pool : Option Nat
deriving DecidableEq, Repr

/-- What a service core does with a fetch reply: the frame firmware prefers and the time it takes (R398, R401). -/
structure Service where
  choice : Nat
  micros : Nat
deriving DecidableEq, Repr

/-- One constructor for each row of spec/opcode_table.json: the 262 instruction words of 32 bits, then the
123 events, which carry what comes from outside or what the spec leaves to the device. Words with operands stand first,
then words without, then events (see `SysWord`). -/
inductive Instr where
  /-- ADD (R97). -/
  | add (d : SDst) (a b : SSrc)
  /-- SUB (R97). -/
  | sub (d : SDst) (a b : SSrc)
  /-- AND (R97). -/
  | and (d : SDst) (a b : SSrc)
  /-- OR (R97). -/
  | or (d : SDst) (a b : SSrc)
  /-- XOR (R97). -/
  | xor (d : SDst) (a b : SSrc)
  /-- SHL (R97). -/
  | shl (d : SDst) (a b : SSrc)
  /-- SHR_N (R97). -/
  | shrN (d : SDst) (a b : SSrc)
  /-- SHR_I (R97). -/
  | shrI (d : SDst) (a b : SSrc)
  /-- MIN_I (R97). -/
  | minI (d : SDst) (a b : SSrc)
  /-- MAX_I (R97). -/
  | maxI (d : SDst) (a b : SSrc)
  /-- MIN_N (R97). -/
  | minN (d : SDst) (a b : SSrc)
  /-- MAX_N (R97). -/
  | maxN (d : SDst) (a b : SSrc)
  /-- MUL (R97). -/
  | mul (d : SDst) (a b : SSrc)
  /-- MULH_I (R97). -/
  | mulhI (d : SDst) (a b : SSrc)
  /-- MULH_N (R97). -/
  | mulhN (d : SDst) (a b : SSrc)
  /-- CMP_EQ (R97). -/
  | cmpEq (d : SDst) (a b : SSrc)
  /-- CMP_NE (R97). -/
  | cmpNe (d : SDst) (a b : SSrc)
  /-- CMP_LT_I (R97). -/
  | cmpLtI (d : SDst) (a b : SSrc)
  /-- CMP_LT_N (R97). -/
  | cmpLtN (d : SDst) (a b : SSrc)
  /-- ADD64 (R98). -/
  | add64 (d a b : SReg)
  /-- SUB64 (R98). -/
  | sub64 (d a b : SReg)
  /-- SHL64 (R98). -/
  | shl64 (d a b : SReg)
  /-- SHR64_N (R98). -/
  | shr64N (d a b : SReg)
  /-- MOVI (R99). -/
  | movi (d : SDst) (imm : BitVec 16)
  /-- MOVH (R99). -/
  | movh (d : SReg) (imm : BitVec 16)
  /-- ADDI (R99). -/
  | addi (d : SReg) (imm : BitVec 16)
  /-- ANDI (R99). -/
  | andi (d : SReg) (imm : BitVec 16)
  /-- ORI (R99). -/
  | ori (d : SReg) (imm : BitVec 16)
  /-- XORI (R99). -/
  | xori (d : SReg) (imm : BitVec 16)
  /-- CMPI_EQ (R99). -/
  | cmpiEq (d : SReg) (imm : BitVec 16)
  /-- CMPI_LT_I (R99). -/
  | cmpiLtI (d : SReg) (imm : BitVec 16)
  /-- SLD_32 (R100). -/
  | sld32 (d base : SReg) (imm : BitVec 11)
  /-- SLD_64 (R100). -/
  | sld64 (d base : SReg) (imm : BitVec 11)
  /-- SLD_K (R101). -/
  | sldK (d base : SReg) (imm : BitVec 11)
  /-- SST (R100). -/
  | sst (src base : SReg) (imm : BitVec 11)
  /-- SRD (R102). -/
  | srd (d : SReg) (special : BitVec 10)
  /-- SWR (R102). -/
  | swr (a : SReg) (special : BitVec 10)
  /-- BRA (R103). -/
  | bra (off : BitVec 16)
  /-- BZ (R103). -/
  | bz (s : SReg) (off : BitVec 16)
  /-- BNZ (R103). -/
  | bnz (s : SReg) (off : BitVec 16)
  /-- BANY (R103). -/
  | bany (p : PReg) (off : BitVec 16)
  /-- BALL (R103). -/
  | ball (p : PReg) (off : BitVec 16)
  /-- BNONE (R103). -/
  | bnone (p : PReg) (off : BitVec 16)
  /-- BDIV (R104). -/
  | bdiv (p : PReg) (off : BitVec 16)
  /-- CALL (R108). -/
  | call (target : BitVec 20)
  /-- JMPR (R108). -/
  | jmpr (a : SReg)
  /-- MFROMP (R107). -/
  | mfromp (d : PReg)
  /-- MTOP (R107). -/
  | mtop (a : PReg)
  /-- WAIT (R109). -/
  | wait (ld st cp tm : BitVec 6)
  /-- TRAP (R354). -/
  | trap (n : BitVec 8)
  /-- DETACH (R134). -/
  | detach (d : PReg)
  /-- REGROUP (R135). -/
  | regroup (d : PReg) (partner : SReg) (first : VReg) (more : BitVec 5)
  /-- LAUNCH (R136). -/
  | launch (d base queue : SReg)
  /-- HOPS (R137). -/
  | hops (d a b : SReg)
  /-- BAR_ARRIVE (R142). -/
  | barArrive (bar : BitVec 4) (d : SReg)
  /-- BAR_WAIT (R142). -/
  | barWait (bar : BitVec 4) (a : SReg)
  /-- BAR_SYNC (R142). -/
  | barSync (bar : BitVec 4)
  /-- BAR_TRY (R142). -/
  | barTry (bar : BitVec 4) (a : SReg) (d : PReg)
  /-- VADD_I32 (R152). -/
  | vaddI32 (d a b : VReg)
  /-- VSUB_I32 (R152). -/
  | vsubI32 (d a b : VReg)
  /-- VMUL_I32 (R152). -/
  | vmulI32 (d a b : VReg)
  /-- VMULH_I32 (R152). -/
  | vmulhI32 (d a b : VReg)
  /-- VMULH_N32 (R152). -/
  | vmulhN32 (d a b : VReg)
  /-- VMIN_I32 (R152). -/
  | vminI32 (d a b : VReg)
  /-- VMAX_I32 (R152). -/
  | vmaxI32 (d a b : VReg)
  /-- VMIN_N32 (R152). -/
  | vminN32 (d a b : VReg)
  /-- VMAX_N32 (R152). -/
  | vmaxN32 (d a b : VReg)
  /-- VAND_B32 (R152). -/
  | vandB32 (d a b : VReg)
  /-- VOR_B32 (R152). -/
  | vorB32 (d a b : VReg)
  /-- VXOR_B32 (R152). -/
  | vxorB32 (d a b : VReg)
  /-- VSHL_B32 (R152). -/
  | vshlB32 (d a b : VReg)
  /-- VSHR_N32 (R152). -/
  | vshrN32 (d a b : VReg)
  /-- VSHR_I32 (R152). -/
  | vshrI32 (d a b : VReg)
  /-- VABSD_I32 (R152). -/
  | vabsdI32 (d a b : VReg)
  /-- VADDS_I32 (R152). -/
  | vaddsI32 (d a b : VReg)
  /-- VSUBS_I32 (R152). -/
  | vsubsI32 (d a b : VReg)
  /-- VADDS_N32 (R152). -/
  | vaddsN32 (d a b : VReg)
  /-- VSUBS_N32 (R152). -/
  | vsubsN32 (d a b : VReg)
  /-- VBFE_N32 (R152). -/
  | vbfeN32 (d a b : VReg)
  /-- VBFE_I32 (R152). -/
  | vbfeI32 (d a b : VReg)
  /-- VBFI_B32 (R152). -/
  | vbfiB32 (d a b : VReg)
  /-- VPOPC_B32 (R152). -/
  | vpopcB32 (d a : VReg)
  /-- VCLZ_B32 (R152). -/
  | vclzB32 (d a : VReg)
  /-- VBREV_B32 (R152). -/
  | vbrevB32 (d a : VReg)
  /-- VADD_I64 (R152). -/
  | vaddI64 (d a b : VReg)
  /-- VSUB_I64 (R152). -/
  | vsubI64 (d a b : VReg)
  /-- VSHL_B64 (R152). -/
  | vshlB64 (d a b : VReg)
  /-- VSHR_N64 (R152). -/
  | vshrN64 (d a b : VReg)
  /-- VSHR_I64 (R152). -/
  | vshrI64 (d a b : VReg)
  /-- VADD_I32_VI (R153). -/
  | vaddI32Vi (d a : VReg) (imm : BitVec 9)
  /-- VAND_B32_VI (R153). -/
  | vandB32Vi (d a : VReg) (imm : BitVec 9)
  /-- VSHL_B32_VI (R153). -/
  | vshlB32Vi (d a : VReg) (imm : BitVec 5)
  /-- VSHR_N32_VI (R153). -/
  | vshrN32Vi (d a : VReg) (imm : BitVec 5)
  /-- VADD_I32_VS (R154). -/
  | vaddI32Vs (d a : VReg) (s : SReg)
  /-- VSUB_I32_VS (R154). -/
  | vsubI32Vs (d a : VReg) (s : SReg)
  /-- VMUL_I32_VS (R154). -/
  | vmulI32Vs (d a : VReg) (s : SReg)
  /-- VMULH_I32_VS (R154). -/
  | vmulhI32Vs (d a : VReg) (s : SReg)
  /-- VMULH_N32_VS (R154). -/
  | vmulhN32Vs (d a : VReg) (s : SReg)
  /-- VMIN_I32_VS (R154). -/
  | vminI32Vs (d a : VReg) (s : SReg)
  /-- VMAX_I32_VS (R154). -/
  | vmaxI32Vs (d a : VReg) (s : SReg)
  /-- VMIN_N32_VS (R154). -/
  | vminN32Vs (d a : VReg) (s : SReg)
  /-- VMAX_N32_VS (R154). -/
  | vmaxN32Vs (d a : VReg) (s : SReg)
  /-- VAND_B32_VS (R154). -/
  | vandB32Vs (d a : VReg) (s : SReg)
  /-- VOR_B32_VS (R154). -/
  | vorB32Vs (d a : VReg) (s : SReg)
  /-- VXOR_B32_VS (R154). -/
  | vxorB32Vs (d a : VReg) (s : SReg)
  /-- VSHL_B32_VS (R154). -/
  | vshlB32Vs (d a : VReg) (s : SReg)
  /-- VSHR_N32_VS (R154). -/
  | vshrN32Vs (d a : VReg) (s : SReg)
  /-- VSHR_I32_VS (R154). -/
  | vshrI32Vs (d a : VReg) (s : SReg)
  /-- VABSD_I32_VS (R154). -/
  | vabsdI32Vs (d a : VReg) (s : SReg)
  /-- VADDS_I32_VS (R154). -/
  | vaddsI32Vs (d a : VReg) (s : SReg)
  /-- VSUBS_I32_VS (R154). -/
  | vsubsI32Vs (d a : VReg) (s : SReg)
  /-- VADDS_N32_VS (R154). -/
  | vaddsN32Vs (d a : VReg) (s : SReg)
  /-- VSUBS_N32_VS (R154). -/
  | vsubsN32Vs (d a : VReg) (s : SReg)
  /-- VBFE_N32_VS (R154). -/
  | vbfeN32Vs (d a : VReg) (s : SReg)
  /-- VBFE_I32_VS (R154). -/
  | vbfeI32Vs (d a : VReg) (s : SReg)
  /-- VBFI_B32_VS (R154). -/
  | vbfiB32Vs (d a : VReg) (s : SReg)
  /-- VADD_I64_VS (R154). -/
  | vaddI64Vs (d a : VReg) (s : SReg)
  /-- VSUB_I64_VS (R154). -/
  | vsubI64Vs (d a : VReg) (s : SReg)
  /-- VSHL_B64_VS (R154). -/
  | vshlB64Vs (d a : VReg) (s : SReg)
  /-- VSHR_N64_VS (R154). -/
  | vshrN64Vs (d a : VReg) (s : SReg)
  /-- VSHR_I64_VS (R154). -/
  | vshrI64Vs (d a : VReg) (s : SReg)
  /-- VBCAST_B32 (R154). -/
  | vbcastB32 (d : VReg) (s : SReg)
  /-- VCMP (R155). -/
  | vcmp (d : PReg) (a b : VReg) (cc : IntCond) (ty : IntType)
  /-- PAND (R156). -/
  | pand (d a b : PReg)
  /-- POR (R156). -/
  | por (d a b : PReg)
  /-- PXOR (R156). -/
  | pxor (d a b : PReg)
  /-- PNOT (R156). -/
  | pnot (d a : PReg)
  /-- PMOV (R156). -/
  | pmov (d a : PReg)
  /-- VFROMP (R156). -/
  | vfromp (d : VReg) (a : PReg)
  /-- VTOP (R156). -/
  | vtop (d : PReg) (a : VReg)
  /-- SHFL_IDX (R158). -/
  | shflIdx (d a : VReg) (p : PReg) (w : SubWidth)
  /-- SHFL_UP (R158). -/
  | shflUp (d a : VReg) (p : PReg) (w : SubWidth)
  /-- SHFL_DOWN (R158). -/
  | shflDown (d a : VReg) (p : PReg) (w : SubWidth)
  /-- SHFL_XOR (R158). -/
  | shflXor (d a : VReg) (p : PReg) (w : SubWidth)
  /-- VOTE_ANY (R159). -/
  | voteAny (d : SReg) (a : PReg)
  /-- VOTE_ALL (R159). -/
  | voteAll (d : SReg) (a : PReg)
  /-- BALLOT (R159). -/
  | ballot (d : SReg) (a : PReg)
  /-- VSCAN_INCL (R160). -/
  | vscanIncl (d a : VReg) (op : LaneOp) (w : SubWidth)
  /-- VSCAN_EXCL (R160). -/
  | vscanExcl (d a : VReg) (op : LaneOp) (w : SubWidth)
  /-- VRED (R160). -/
  | vred (d : SReg) (a : VReg) (op : LaneOp)
  /-- VFADD_F32 (R172). -/
  | vfaddF32 (d a b : VReg)
  /-- VFSUB_F32 (R172). -/
  | vfsubF32 (d a b : VReg)
  /-- VFMUL_F32 (R172). -/
  | vfmulF32 (d a b : VReg)
  /-- VFFMA_F32 (R172). -/
  | vffmaF32 (d a b : VReg)
  /-- VFFNMA_F32 (R172). -/
  | vffnmaF32 (d a b : VReg)
  /-- VFMIN_F32 (R173). -/
  | vfminF32 (d a b : VReg)
  /-- VFMAX_F32 (R173). -/
  | vfmaxF32 (d a b : VReg)
  /-- VFABS_F32 (R173). -/
  | vfabsF32 (d a : VReg)
  /-- VFNEG_F32 (R173). -/
  | vfnegF32 (d a : VReg)
  /-- VFCOPYSIGN_F32 (R173). -/
  | vfcopysignF32 (d a b : VReg)
  /-- VFRINT_F32 (R172). -/
  | vfrintF32 (d a : VReg)
  /-- VFADD_F64 (R172). -/
  | vfaddF64 (d a b : VReg)
  /-- VFSUB_F64 (R172). -/
  | vfsubF64 (d a b : VReg)
  /-- VFMUL_F64 (R172). -/
  | vfmulF64 (d a b : VReg)
  /-- VFFMA_F64 (R172). -/
  | vffmaF64 (d a b : VReg)
  /-- VFFNMA_F64 (R172). -/
  | vffnmaF64 (d a b : VReg)
  /-- VFMIN_F64 (R173). -/
  | vfminF64 (d a b : VReg)
  /-- VFMAX_F64 (R173). -/
  | vfmaxF64 (d a b : VReg)
  /-- VFABS_F64 (R173). -/
  | vfabsF64 (d a : VReg)
  /-- VFNEG_F64 (R173). -/
  | vfnegF64 (d a : VReg)
  /-- VFCOPYSIGN_F64 (R173). -/
  | vfcopysignF64 (d a b : VReg)
  /-- VFRINT_F64 (R172). -/
  | vfrintF64 (d a : VReg)
  /-- VFDIV_F32 (R174). -/
  | vfdivF32 (d a b : VReg)
  /-- VFSQRT_F32 (R174). -/
  | vfsqrtF32 (d a : VReg)
  /-- VFRCP_F32 (R176). -/
  | vfrcpF32 (d a : VReg)
  /-- VFRSQ_F32 (R176). -/
  | vfrsqF32 (d a : VReg)
  /-- VFEXP2_F32 (R176). -/
  | vfexp2F32 (d a : VReg)
  /-- VFLOG2_F32 (R176). -/
  | vflog2F32 (d a : VReg)
  /-- VFSIN_F32 (R176). -/
  | vfsinF32 (d a : VReg)
  /-- VFCOS_F32 (R176). -/
  | vfcosF32 (d a : VReg)
  /-- VFTANH_F32 (R176). -/
  | vftanhF32 (d a : VReg)
  /-- VFDIV_F64 (R174). -/
  | vfdivF64 (d a b : VReg)
  /-- VFSQRT_F64 (R174). -/
  | vfsqrtF64 (d a : VReg)
  /-- VFRCP_F64 (R176). -/
  | vfrcpF64 (d a : VReg)
  /-- VFRSQ_F64 (R176). -/
  | vfrsqF64 (d a : VReg)
  /-- VFADD_BF16 (R178). -/
  | vfaddBf16 (d a b : VReg)
  /-- VFSUB_BF16 (R178). -/
  | vfsubBf16 (d a b : VReg)
  /-- VFMUL_BF16 (R178). -/
  | vfmulBf16 (d a b : VReg)
  /-- VFFMA_BF16 (R178). -/
  | vffmaBf16 (d a b : VReg)
  /-- VFFNMA_BF16 (R178). -/
  | vffnmaBf16 (d a b : VReg)
  /-- VFMIN_BF16 (R178). -/
  | vfminBf16 (d a b : VReg)
  /-- VFMAX_BF16 (R178). -/
  | vfmaxBf16 (d a b : VReg)
  /-- VFABS_BF16 (R178). -/
  | vfabsBf16 (d a : VReg)
  /-- VFNEG_BF16 (R178). -/
  | vfnegBf16 (d a : VReg)
  /-- VFCMP (R180). -/
  | vfcmp (d : PReg) (a b : VReg) (cc : FloatCond) (ty : FloatType)
  /-- CVTS (R198). -/
  | cvts (d a : VReg) (dst src : Fmt) (rnd : Rnd)
  /-- CVTI (R198). -/
  | cvti (d a : VReg) (dst src : Fmt) (rnd : Rnd)
  /-- PACK4 (R201). -/
  | pack4 (d a : VReg)
  /-- UNPACK4 (R201). -/
  | unpack4 (d a : VReg) (sx : Bool)
  /-- PACK6 (R201). -/
  | pack6 (d a : VReg)
  /-- UNPACK6 (R201). -/
  | unpack6 (d a : VReg) (sx : Bool)
  /-- PACK8 (R201). -/
  | pack8 (d a : VReg)
  /-- UNPACK8 (R201). -/
  | unpack8 (d a : VReg) (sx : Bool)
  /-- BSCALE (R203). -/
  | bscale (d a : VReg) (fmt : Fmt)
  /-- SCAPPLY_MUL (R204). -/
  | scapplyMul (d a b : VReg)
  /-- SCAPPLY_DIV (R204). -/
  | scapplyDiv (d a b : VReg)
  /-- COMPRESS (R205). -/
  | compress (d a : VReg) (fmt : Fmt)
  /-- TIDSET_IMM (R206). -/
  | tidsetImm (imm : BitVec 8)
  /-- TIDSET_REG (R206). -/
  | tidsetReg (a : SReg)
  /-- LDG (R224). -/
  | ldg (x o : VReg) (base : SReg) (w : LoadWidth) (form : OffForm)
  /-- STG (R224). -/
  | stg (x o : VReg) (base : SReg) (w : StoreWidth) (form : OffForm)
  /-- LDS (R224). -/
  | lds (x o : VReg) (base : SReg) (w : LoadWidth) (form : OffForm)
  /-- STS (R224). -/
  | sts (x o : VReg) (base : SReg) (w : StoreWidth) (form : OffForm)
  /-- LDC (R224). -/
  | ldc (x o : VReg) (base : SReg) (w : LoadWidth) (form : OffForm)
  /-- STC (R224). -/
  | stc (x o : VReg) (base : SReg) (w : StoreWidth) (form : OffForm)
  /-- LDA (R227). -/
  | lda (x o : VReg) (base : SReg) (wide : Bool) (scope : Scope)
  /-- STL (R227). -/
  | stl (x o : VReg) (base : SReg) (wide : Bool) (scope : Scope)
  /-- ATOM (R229). -/
  | atom (x o : VReg) (base : SReg) (fn : AtomFn)
  /-- ATOMA (R229). -/
  | atoma (x o : VReg) (base : SReg) (fn : AtomFn)
  /-- ATOMS (R229). -/
  | atoms (x o : VReg) (base : SReg) (fn : AtomFn)
  /-- RED (R232). -/
  | red (x o : VReg) (base : SReg) (fn : AtomFn)
  /-- TAGL (R239). -/
  | tagl (d a : SReg) (p : PReg)
  /-- TAGS (R239). -/
  | tags (slot key : SReg)
  /-- TAGI (R239). -/
  | tagi (slot : SReg)
  /-- FENCE (R243). -/
  | fence (sem : Sem) (scope : Scope)
  /-- PUBLISH (R245). -/
  | publish (base : SReg)
  /-- FLUSHH (R246). -/
  | flushh (base len : SReg)
  /-- LJOIN (R277). -/
  | ljoin (x o : VReg) (base : SReg) (rel : Bool) (ty : LatType)
  /-- LLD (R279). -/
  | lld (x o : VReg) (base : SReg) (w : LatWidth)
  /-- LLD_ACQ (R279). -/
  | lldAcq (x o : VReg) (base : SReg) (w : LatWidth)
  /-- LLDGE (R280). -/
  | lldge (x o : VReg) (base : SReg) (w : LatWidth)
  /-- LTRY (R281). -/
  | ltry (x o : VReg) (base : SReg) (p : PReg)
  /-- LSTA (R283). -/
  | lsta (x o : VReg) (base : SReg) (ty : LatType)
  /-- LINC (R285). -/
  | linc (o : VReg) (base : SReg)
  /-- LSYNC (R286). -/
  | lsync (base : SReg)
  /-- TCOPY (R303). -/
  | tcopy (block : SReg) (id : BitVec 4) (bm : BitVec 5) (ch : Chan)
  /-- COPY (R297). -/
  | copy (block : SReg) (dir : CopyDir) (bm : BitVec 5) (setBits : Bool) (ch : Chan)
  /-- TRYW (R308). -/
  | tryw (bm : BitVec 5) (mask : SReg) (p : PReg) (k : BitVec 4)
  /-- BMTEST (R308). -/
  | bmtest (bm : BitVec 5) (mask : SReg) (p : PReg)
  /-- BMCLR (R308). -/
  | bmclr (bm : BitVec 5) (mask : SReg)
  /-- RPUSH (R310). -/
  | rpush (ch : Chan) (a : SSrc)
  /-- RPOP (R310). -/
  | rpop (d : SReg) (ch : Chan) (pop : Bool)
  /-- RFREE (R310). -/
  | rfree (d : SReg) (ch : Chan) (count : SReg)
  /-- RSTAT (R315). -/
  | rstat (d : SReg) (ch : Chan)
  /-- MMA (R323). -/
  | mma (r : VReg) (afmt bfmt : Fmt)
  /-- MMAS (R323). -/
  | mmas (r : VReg) (afmt bfmt : Fmt)
  /-- ACCALLOC (R334). -/
  | accalloc (p : PReg) (d count : SReg)
  /-- ACCFREE (R335). -/
  | accfree (first count : SReg)
  /-- ACCZ (R336). -/
  | accz (first count : SReg)
  /-- ACCRD_SAT (R337). -/
  | accrdSat (d o : VReg) (fmt : Fmt) (rnd : Rnd)
  /-- ACCRD_INF (R337). -/
  | accrdInf (d o : VReg) (fmt : Fmt) (rnd : Rnd)
  /-- ACCWR (R336). -/
  | accwr (x o : VReg) (form : AccForm)
  /-- WPIN (R338). -/
  | wpin (p : PReg) (a : SReg) (fmt : Fmt) (sparse : Bool)
  /-- WUNPIN (R338). -/
  | wunpin (a : SReg) (fmt : Fmt) (sparse : Bool)
  /-- SEGLD (R361). -/
  | segld (seg : Seg) (r : SReg)
  /-- SEGRD (R361). -/
  | segrd (seg : Seg) (r : SReg)
  /-- CSRR (R360). -/
  | csrr (d : SReg) (csr : BitVec 12)
  /-- CSRW (R360). -/
  | csrw (a : SReg) (csr : BitVec 12)
  /-- TLBINV (R362). -/
  | tlbinv (base count : SReg)
  /-- IDLE (R363). -/
  | idle (k : BitVec 4)
  /-- NOP (R61). -/
  | nop
  /-- RET (R108). -/
  | ret
  /-- YIELD (R111). -/
  | yield
  /-- EXIT (R112). -/
  | exit
  /-- BRK (R354). -/
  | brk
  /-- ATTACH (R133). -/
  | attach
  /-- IFENCE (R244). -/
  | ifence
  /-- PERSIST (R298). -/
  | persist
  /-- OPFENCE (R339). -/
  | opfence
  /-- RFT (R355). -/
  | rft
  /-- RFT_KILL (R355). -/
  | rftKill
  /-- TLBINV_ALL (R362). -/
  | tlbinvAll
  /-- TVEC_WRITE (R349). -/
  | tvecWrite (context : Nat) (value : DWord)
  /-- EPC_WRITE (R349). -/
  | epcWrite (core slot : Nat) (value : DWord)
  /-- REDUCTION_WINDOW_WRITE (R348). -/
  | reductionWindowWrite (core context window word : Nat) (value : DWord)
  /-- DEBUG_GO_RELEASE (R375). -/
  | debugGoRelease (core slot : Nat)
  /-- DEBUG_GO_STEP (R375). -/
  | debugGoStep (core slot : Nat) (split : Option Nat)
  /-- PACKET_FETCH (R65, R259). -/
  | packetFetch (core slot : Nat) (place : FetchPlace)
  /-- SPLIT_STARVATION (R113). -/
  | splitStarvation (core slot split : Nat)
  /-- BACKWARD_BRANCH_YIELD (R114). -/
  | backwardBranchYield (core slot split : Nat)
  /-- LOAD_COMPLETION (R84). -/
  | loadCompletion (core slot id : Nat) (lanes : LaneMask) (replies : List (Nat × QWord))
  /-- STORE_COMPLETION (R84). -/
  | storeCompletion (core slot id : Nat) (lanes : LaneMask) (replies : List (Nat × QWord))
  /-- TM_COMPLETION (R84). -/
  | tmCompletion (core slot id array : Nat)
  /-- RECOVERABLE_FAULT_DELIVERY (R358). -/
  | recoverableFaultDelivery (core slot split : Nat)
  /-- GROUP_SLOT_RELEASE (R112). -/
  | groupSlotRelease (core slot : Nat)
  /-- LAUNCH_HEADER_CHECK (R119). -/
  | launchHeaderCheck (partition queue : Nat)
  /-- DEPENDENCE_READ (R123). -/
  | dependenceRead (partition queue : Nat) (reply : DWord)
  /-- DEPENDENCE_RECHECK_TIMER (R123). -/
  | dependenceRecheckTimer (partition queue : Nat) (reply : DWord)
  /-- BLOCK_RESIDENCY (R125). -/
  | blockResidency (partition queue core slot0 stack : Nat)
  /-- BLOCK_END (R126). -/
  | blockEnd (block : Nat)
  /-- STAGE_GROWTH (R129). -/
  | stageGrowth (block stage : Nat)
  /-- STAGE_SHRINK (R130). -/
  | stageShrink (block stage : Nat)
  /-- SHRINK_POP (R311). -/
  | shrinkPop (core slot split : Nat)
  /-- EVENT_BACKLOG_DRAIN (R357). -/
  | eventBacklogDrain (context : Nat)
  /-- FAULT_QUEUE_HELD_POST (R400). -/
  | faultQueueHeldPost (die : Nat)
  /-- FAULT_SERVICE_ENTRY (R401). -/
  | faultServiceEntry (core die seq : Nat) (choice : Voted Nat) (micros : Nat)
  /-- REDUCTION_LINE_DELIVERY (R235). -/
  | reductionLineDelivery (context window line : Nat) (elements : List Byte)
  /-- LAP_BEGIN (R270). -/
  | lapBegin (context region die : Nat)
  /-- LATTICE_EXCHANGE (R272). -/
  | latticeExchange (context region a b : Nat)
  /-- FABRIC_SNAPSHOT_ARRIVAL (R274). -/
  | fabricSnapshotArrival (context region device vdie : Nat) (runs : List (Nat × List Byte))
  /-- LTRY_EXPIRY (R281). -/
  | ltryExpiry (core slot id : Nat)
  /-- COPY_TRANSFER_START (R292). -/
  | copyTransferStart (core : Nat)
  /-- COPY_CHUNK_DONE (R297). -/
  | copyChunkDone (core id chunk : Nat) (part : ChunkPart)
  /-- COPY_COMPLETION (R293). -/
  | copyCompletion (core id : Nat)
  /-- COPY_PUSH_GRANT (R310). -/
  | copyPushGrant (core id : Nat)
  /-- PERSIST_DURABLE (R298). -/
  | persistDurable (core slot id : Nat)
  /-- TRYW_EXPIRY (R308). -/
  | trywExpiry (core slot split : Nat)
  /-- MATRIX_PASS_GRANT (R325). -/
  | matrixPassGrant (cluster array : Nat)
  /-- MATRIX_OPERATION_COMPLETE (R328). -/
  | matrixOperationComplete (cluster entry : Nat)
  /-- PREEMPTION_REQUEST (R365). -/
  | preemptionRequest (block bound method : Nat)
  /-- DRAIN_TO_SAVE (R366). -/
  | drainToSave (block : Nat)
  /-- BLOCK_RESTORE (R370). -/
  | blockRestore (context seq core slot0 : Nat) (intact : Bool)
  /-- HOT_SPARE_TAKEOVER (R371). -/
  | hotSpareTakeover (core : Nat)
  /-- HOT_SPARE_RESUME (R371). -/
  | hotSpareResume (core : Nat)
  /-- STEP_END (R375). -/
  | stepEnd (core slot : Nat)
  /-- IDLE_EXPIRY (R363). -/
  | idleExpiry (core slot split : Nat)
  /-- TLB_MISS (R382). -/
  | tlbMiss (core context page out : Nat)
  /-- TLB_FILL (R384). -/
  | tlbFill (die context page out dieOut : Nat)
  /-- FRAME_RECORD_CHANGE (R391). -/
  | frameRecordChange (frame : Nat) (record : DWord) (agree : Bool)
  /-- PARTITION_TABLE_WRITE (R387). -/
  | partitionTableWrite (partition : Nat) (entry : QWord) (agree : Bool)
  /-- ROSTER_TABLE_WRITE (R23). -/
  | rosterTableWrite (context : Nat) (devices : List Nat) (agree : Bool)
  /-- PACER_ENTRY_WRITE (R397). -/
  | pacerEntryWrite (core tenant : Nat) (value : DWord)
  /-- REGION_DESCRIPTOR_WRITE (R267). -/
  | regionDescriptorWrite (context region : Nat) (value : QWord)
  /-- CODE_IMAGE_MEASURE (R393). -/
  | codeImageMeasure (context : Nat) (frames : List Nat) (len : Voted Nat)
  /-- ATTESTATION_REQUEST (R394). -/
  | attestationRequest (context : Nat) (nonce : Voted (BitVec 256))
  /-- SERVICE_CORE_TAKEOVER (R396). -/
  | serviceCoreTakeover (core : Nat)
  /-- PACER_WINDOW (R398). -/
  | pacerWindow (core : Nat)
  /-- PACER_BUDGET_EXHAUSTED (R398). -/
  | pacerBudgetExhausted (core tenant : Nat)
  /-- CHECKPOINT_TIMER (R404). -/
  | checkpointTimer (context : Nat)
  /-- CHECKPOINT_COMMIT (R404). -/
  | checkpointCommit (context mapOff imgOff : Nat)
  /-- HOST_CALL_REPLAY (R403). -/
  | hostCallReplay (core space ring micros die seq : Nat)
  /-- HOST_CALL_REJECT (R403). -/
  | hostCallReject (core space ring micros die seq : Nat)
  /-- HOST_CALL_KILL (R403). -/
  | hostCallKill (core space ring micros context cls sub : Nat)
  /-- HOST_CALL_MOVE (R403). -/
  | hostCallMove (core space ring micros context page dest : Nat)
  /-- HOST_CALL_COMPRESSION_HINT (R403). -/
  | hostCallCompressionHint (core space ring micros page : Nat)
  /-- HOST_CALL_CHECKPOINT (R403). -/
  | hostCallCheckpoint (core space ring micros context : Nat)
  /-- HOST_CALL_PREEMPT (R403). -/
  | hostCallPreempt (core space ring micros block bound method : Nat)
  /-- HOST_READ (R417). -/
  | hostRead (space addr : Nat)
  /-- HOST_WRITE (R416). -/
  | hostWrite (space addr : Nat) (bytes : List Byte) (choice : Nat)
  /-- COMMAND_SLOT_ACCEPT (R422). -/
  | commandSlotAccept (space : Nat)
  /-- AFTER_RELEASE (R422). -/
  | afterRelease (space : Nat)
  /-- LAUNCH_COMMAND (R425). -/
  | launchCommand (space : Nat)
  /-- HOST_COPY (R425). -/
  | hostCopy (space : Nat) (seq : Word) (lines : List Nat) (choice : Nat)
  /-- HOST_COPY_COMPLETE (R425). -/
  | hostCopyComplete (space : Nat) (seq : Word)
  /-- MAP_PROPOSAL (R390). -/
  | mapProposal (space : Voted Nat)
  /-- WAIT_VALUE (R425). -/
  | waitValue (space : Nat)
  /-- WAIT_VALUE_SATISFIED (R425). -/
  | waitValueSatisfied (space : Nat) (seq : Word) (reply : DWord)
  /-- WAIT_VALUE_TIMEOUT (R425). -/
  | waitValueTimeout (space : Nat) (seq : Word)
  /-- PUBLISH_REQUEST (R425). -/
  | publishRequest (space : Nat) (seq : Word)
  /-- CONTEXT_CREATE (R425). -/
  | contextCreate (space context : Nat) (dies : Voted (List Nat))
  /-- CONTEXT_DESTROY (R425). -/
  | contextDestroy (space : Nat)
  /-- CONTEXT_PREEMPT (R425). -/
  | contextPreempt (space : Nat)
  /-- CONTEXT_RESUME (R425). -/
  | contextResume (space : Nat)
  /-- SET_CHECKPOINT_INTERVAL (R425). -/
  | setCheckpointInterval (space : Nat)
  /-- SET_FRAME_ALLOWANCE (R425). -/
  | setFrameAllowance (space : Nat)
  /-- REGISTER_RESERVATION (R425). -/
  | registerReservation (space : Nat)
  /-- REGISTER_CALL_RING (R426). -/
  | registerCallRing (space : Nat)
  /-- DEBUG_CLAIM (R377). -/
  | debugClaim (space : Nat)
  /-- DEBUG_RELEASE (R377). -/
  | debugRelease (space : Nat)
  /-- DEBUG_READ (R425). -/
  | debugRead (space : Nat)
  /-- DEBUG_WRITE (R425). -/
  | debugWrite (space : Nat)
  /-- CHECKPOINT_NOW (R425). -/
  | checkpointNow (space : Nat)
  /-- PERSISTENT_REGION_CREATE (R429). -/
  | persistentRegionCreate (space : Nat) (full : Bool)
  /-- PERSISTENT_REGION_ATTACH (R429). -/
  | persistentRegionAttach (space : Nat)
  /-- PERSISTENT_REGION_DETACH (R429). -/
  | persistentRegionDetach (space : Nat)
  /-- PERSISTENT_REGION_DESTROY (R429). -/
  | persistentRegionDestroy (space : Nat)
  /-- FRONT_END_RESUME (R425). -/
  | frontEndResume (space : Nat)
  /-- EVACK_WRITE (R427). -/
  | evackWrite (space : Nat) (value : Word)
  /-- TENANT_PAGE_MOVE_START (R418). -/
  | tenantPageMoveStart (space page : Nat) (compress : Bool) (choice : Nat)
  /-- TENANT_PAGE_MOVE_COMMIT (R418). -/
  | tenantPageMoveCommit (space page loc : Nat) (sectors : List Nat)
  /-- EXTENT_ADD (R412). -/
  | extentAdd (space : Nat) (offer : Offer)
  /-- EXTENT_RELEASE (R412). -/
  | extentRelease (space base : Nat)
  /-- LINK_DOWN (R408). -/
  | linkDown (port : Nat)
  /-- LINK_RETRAIN (R408). -/
  | linkRetrain (port : Nat)
  /-- PACKAGE_FAILURE (R430), of one of the nine packages of a parity group of a far-tier die. -/
  | packageFailure (die half package : Nat)
  /-- PARITY_REBUILD_DONE (R430). -/
  | parityRebuildDone (package : Nat)
  /-- COMPUTE_RESET (R435); `altered` are contexts of whose checkpoint an encrypted item has been altered. -/
  | computeReset (altered : List Nat)
  /-- NEAR_TIER_WATCHDOG (R434); `altered` as for COMPUTE_RESET. -/
  | nearTierWatchdog (die : Nat) (altered : List Nat)
  /-- COMPUTE_DOMAIN_UP (R436). -/
  | computeDomainUp
  /-- MODULE_RESET (R434). -/
  | moduleReset (kept : List (Nat × Nat))
  /-- POWER_UP (R436); `altered` as for COMPUTE_RESET. -/
  | powerUp (altered : List Nat)
  /-- CORRECTED_ERROR (R438). -/
  | correctedError (core : Option Nat) (frame package : Nat)
  /-- FRAME_ERROR_THRESHOLD (R438). -/
  | frameErrorThreshold (frame dest : Nat)
  /-- PATROL_SCRUB (R438). -/
  | patrolScrub (line : Nat)
  /-- UNCORRECTABLE_ERROR (R439); `altered` as for COMPUTE_RESET, where the error resets the compute domain. -/
  | uncorrectableError (site : ErrorSite) (altered : List Nat)
  /-- POWER_SAMPLE (R442). -/
  | powerSample (watts : Nat)
  /-- POWER_LIMIT_LOG (R442). -/
  | powerLimitLog
  /-- POWER_CAP_SET (R442). -/
  | powerCapSet (watts : Nat)
  /-- POWER_LOSS (R298). -/
  | powerLoss (kept : List (Nat × Nat))
  /-- TIER_MIGRATION_START (R261). -/
  | tierMigrationStart (context page dest : Nat)
  /-- MIGRATION_SWITCH_COMMIT (R261). -/
  | migrationSwitchCommit (id : Nat)
  /-- PEER_FABRIC_REQUEST (R219). -/
  | peerFabricRequest (context device frame off n : Nat) (op : Option AtomFn) (write : Bool) (data : QWord)
  /-- TLBINV_COMPLETION (R362). -/
  | tlbinvCompletion (core slot split : Nat)
  /-- HOST_FILE_FETCH_REPLY (R401). -/
  | hostFileFetchReply (die seq : Nat) (service : Voted Service) (data : List Byte)
  /-- EXTENT_ACCEPT (R412). -/
  | extentAccept (space base : Nat)
deriving DecidableEq, Repr

/-- The SYS words with operands: they stand past the 244 constructors with fields that compiled Lean can build. A word that
is read becomes one of these or an `Instr` (`Reading`), so that the machine can be run. -/
inductive SysWord where
  | segld (seg : Seg) (r : SReg)
  | segrd (seg : Seg) (r : SReg)
  | csrr (d : SReg) (csr : BitVec 12)
  | csrw (a : SReg) (csr : BitVec 12)
  | tlbinv (base count : SReg)
  | idle (k : BitVec 4)
deriving DecidableEq, Repr

/-- The instruction that a SYS word is. -/
noncomputable def SysWord.instr : SysWord → Instr
  | .segld seg r => .segld seg r
  | .segrd seg r => .segrd seg r
  | .csrr d csr => .csrr d csr
  | .csrw a csr => .csrw a csr
  | .tlbinv base count => .tlbinv base count
  | .idle k => .idle k

/-- What a word of a packet reads as. -/
inductive Reading where
  | plain (i : Instr)
  | sys (w : SysWord)
deriving DecidableEq, Repr

/-- The instruction that a word reads as. -/
noncomputable def Reading.instr : Reading → Instr
  | .plain i => i
  | .sys w => w.instr

end Sys2Proof
end

