-- ==== Sys2Proof/WellFormed.lean ====
section
/-!
DEFINITION. What a single instruction word must meet beyond its bit layout: the checks of R87 with causes 0x03 to
0x09 that need nothing but the word (R73, R75, R78, R197 and the limits each entry sets).
-/

namespace Sys2Proof

/-- Exchange and compare-and-swap operations, which RED does not have (R232). -/
def AtomFn.exchanges : AtomFn → Bool
  | .exchB32 | .exchB64 | .casB32 | .casB64 => true
  | _ => false

/-- 64-bit operations of R228. -/
def AtomFn.wide : AtomFn → Bool
  | .addB64 | .minI64 | .maxI64 | .minN64 | .maxN64 | .andB64 | .orB64 | .xorB64 | .exchB64 | .casB64 => true
  | _ => false

/-- Compare-and-swap operations of R228. -/
def AtomFn.swaps : AtomFn → Bool
  | .casB32 | .casB64 => true
  | _ => false

/-- Registers that a load of a width writes (R215). -/
def LoadWidth.regs : LoadWidth → Nat
  | .b64 => 2
  | .b128 => 4
  | _ => 1

/-- Bytes of a load or scalar width (R215). -/
def LoadWidth.bytes : LoadWidth → Nat
  | .n8 | .i8 => 1
  | .n16 | .i16 => 2
  | .b32 => 4
  | .b64 => 8
  | .b128 => 16

/-- Bytes of a store width (R215). -/
def StoreWidth.bytes : StoreWidth → Nat
  | .b8 => 1
  | .b16 => 2
  | .b32 => 4
  | .b64 => 8
  | .b128 => 16

/-- Registers that a store of a width reads (R215). -/
def StoreWidth.regs : StoreWidth → Nat
  | .b64 => 2
  | .b128 => 4
  | _ => 1

/-- Cells of 8 bytes (R264). -/
def LatType.wide : LatType → Bool
  | .maxN64 | .orB64 => true
  | _ => false

/-- Formats that occupy a pair of registers (R191). -/
def Fmt.wide : Fmt → Bool
  | .f64 | .i64 => true
  | _ => false

/-- Integer formats (R184). -/
def Fmt.isInt : Fmt → Bool
  | .i8 | .i16 | .i32 | .i64 => true
  | _ => false

/-- Formats that convert to and from integers (R197). -/
def Fmt.pairsWithInt : Fmt → Bool
  | .bf16 | .f16 | .f32 | .f64 => true
  | f => f.isInt

/-- Destinations that CVTI does not have (R197). -/
def Fmt.noInfForm : Fmt → Bool
  | .i8 | .i16 | .i32 | .i64 | .e3m2 | .e2m3 | .e2m1 | .d2p8 | .sc12 => true
  | _ => false

/-- The rows of R197: codes that make a conversion word illegal with cause 0x07, code 0xF among them (R75). -/
def badConversion (inf : Bool) (dst src : Fmt) : Bool :=
  dst == .reserved || src == .reserved || dst == src ||
  (dst == .sc12 && src != .f32) || (src == .sc12 && dst != .f32) ||
  (src.isInt && !dst.pairsWithInt) || (dst.isInt && !src.pairsWithInt) || (inf && dst.noInfForm)

/-- Formats that BSCALE scales for, codes 0x0 to 0x5 (R202). -/
def Fmt.isScaled : Fmt → Bool
  | .i8 | .e4m3 | .e5m2 | .e3m2 | .e2m3 | .e2m1 => true
  | _ => false

/-- Weight formats of the dense engine (R318). -/
def Fmt.isWeight : Fmt → Bool
  | .e4m3 | .e5m2 | .i8 | .e3m2 | .e2m3 | .e2m1 | .d2p8 | .bf16 | .f16 | .f32 | .f64 => true
  | _ => false

/-- Weight formats of the sparse engine (R318, R319). -/
def Fmt.isSparseWeight : Fmt → Bool
  | .e4m3 | .e5m2 | .i8 => true
  | _ => false

/-- The pairs of A format and B format that R319 allows. -/
def matrixPair (afmt bfmt : Fmt) : Bool :=
  match bfmt with
  | .e4m3 | .e5m2 => afmt == .e4m3 || afmt == .e5m2
  | .e3m2 | .e2m3 | .e2m1 => afmt == .e4m3 || afmt == .e5m2 || afmt == .e3m2 || afmt == .e2m3 || afmt == .e2m1
  | .d2p8 => afmt == .i8 || afmt == .e4m3
  | .i8 => afmt == .i8
  | .bf16 => afmt == .bf16
  | .f16 => afmt == .f16
  | .f32 => afmt == .f32
  | .f64 => afmt == .f64
  | _ => false

/-- Special registers of R92. -/
def specialAssigned (n : BitVec 10) : Bool :=
  n.toNat ≤ 6 || (8 ≤ n.toNat && n.toNat ≤ 12) || (0x100 ≤ n.toNat && n.toNat ≤ 0x102)

/-- Special registers that SWR may write (R92). -/
def specialWritable (n : BitVec 10) : Bool := n.toNat == 8 || n.toNat == 9

/-- Control registers of R348. -/
def csrAssigned (n : BitVec 12) : Bool :=
  n.toNat ≤ 5 || (8 ≤ n.toNat && n.toNat ≤ 0x15) || (0x20 ≤ n.toNat && n.toNat ≤ 0x25) ||
  (0x40 ≤ n.toNat && n.toNat ≤ 0x7F) || (0x80 ≤ n.toNat && n.toNat ≤ 0x9F)

/-- Control registers that CSRW may write (R348). -/
def csrWritable (n : BitVec 12) : Bool :=
  n.toNat == 0 || n.toNat == 2 || (0x0E ≤ n.toNat && n.toNat ≤ 0x11) || (0x20 ≤ n.toNat && n.toNat ≤ 0x24) ||
  (0x40 ≤ n.toNat && n.toNat ≤ 0x7F)

/-- A register number that cannot begin a pair (R73). -/
def oddReg (r : BitVec n) : Bool := r.getLsbD 0

/-- The sources name one channel twice and one of them pops it (R78). -/
def channelTwice : SSrc → SSrc → Bool
  | .pop c, .pop d => c == d
  | .pop c, .peek d => c == d
  | .peek c, .pop d => c == d
  | _, _ => false

/-- The cause of the first violated check, the checks being given in ascending order of cause (R87). -/
def firstCause : List (Bool × Cause) → Option Cause
  | [] => none
  | (true, c) :: _ => some c
  | (false, _) :: rest => firstCause rest

/-- Parity and range of a plain load (R215). -/
def badLoad (x o : VReg) (b : SReg) (w : LoadWidth) (f : OffForm) : Bool :=
  oddReg b || (f == .x64 && oddReg o) ||
  (match w with
    | .b64 => oddReg x
    | .b128 => x.extractLsb' 0 2 != 0
    | _ => false)

/-- Parity and range of a plain store (R215). -/
def badStore (x o : VReg) (b : SReg) (w : StoreWidth) (f : OffForm) : Bool :=
  oddReg b || (f == .x64 && oddReg o) ||
  (match w with
    | .b64 => oddReg x
    | .b128 => x.extractLsb' 0 2 != 0
    | _ => false)

/-- Parity and range of an atomic (R228): the operand, and for compare-and-swap the register or pair after it. -/
def badAtomic (x : VReg) (b : SReg) (fn : AtomFn) : Bool :=
  oddReg b || (fn.wide && oddReg x) || (fn == .casB64 && 124 < x.toNat) || (fn == .casB32 && 126 < x.toNat)

/-- Rounding by a random word reads the register after the source (R75). -/
def badRandom (a : VReg) (src : Fmt) (r : Rnd) : Bool :=
  r == .rsr && (if src.wide then 125 < a.toNat else 126 < a.toNat)

/-- Parity and range of a conversion (R75, R196). -/
def badConvertRegs (d a : VReg) (dst src : Fmt) (r : Rnd) : Bool :=
  (dst.wide && oddReg d) || (src.wide && oddReg a) || badRandom a src r

/-- `staticCause` of the words of `SysWord` (R87). -/
def SysWord.cause : SysWord → Option Cause
  | .segld _ r | .segrd _ r => firstCause [(r.extractLsb' 0 2 != 0, .registerRange)]
  | .csrr d n => firstCause [(oddReg d, .registerRange), (!csrAssigned n, .specialRegister)]
  | .csrw a n => firstCause [(oddReg a, .registerRange), (!csrWritable n, .specialRegister)]
  | .tlbinv b _ => firstCause [(oddReg b, .registerRange)]
  | .idle _ => none

/-- The violation of R87 with causes 0x03 to 0x09 that a word carries in itself, the lowest if several; none for an
instruction that is well formed. Events are no words and carry none. -/
def staticCause (i : Instr) : Option Cause :=
  match i with
  | .add _ a b | .sub _ a b | .and _ a b | .or _ a b | .xor _ a b | .shl _ a b | .shrN _ a b | .shrI _ a b
  | .minI _ a b | .maxI _ a b | .minN _ a b | .maxN _ a b | .mul _ a b | .mulhI _ a b | .mulhN _ a b
  | .cmpEq _ a b | .cmpNe _ a b | .cmpLtI _ a b | .cmpLtN _ a b =>
      firstCause [(channelTwice a b, .forbiddenChain)]
  | .add64 d a b | .sub64 d a b => firstCause [(oddReg d || oddReg a || oddReg b, .registerRange)]
  | .shl64 d a _ | .shr64N d a _ => firstCause [(oddReg d || oddReg a, .registerRange)]
  | .sld32 _ b _ | .sldK _ b _ | .sst _ b _ => firstCause [(oddReg b, .registerRange)]
  | .sld64 d b _ => firstCause [(oddReg d || oddReg b, .registerRange)]
  | .srd d n => firstCause [(n.toNat == 6 && oddReg d, .registerRange), (!specialAssigned n, .specialRegister)]
  | .swr _ n => firstCause [(!specialWritable n, .specialRegister)]
  | .regroup _ _ v n => firstCause [(127 < v.toNat + n.toNat, .registerRange)]
  | .launch _ b _ => firstCause [(oddReg b, .registerRange)]
  | .vaddI64 d a b | .vsubI64 d a b => firstCause [(oddReg d || oddReg a || oddReg b, .registerRange)]
  | .vshlB64 d a _ | .vshrN64 d a _ | .vshrI64 d a _ => firstCause [(oddReg d || oddReg a, .registerRange)]
  | .vaddI64Vs d a s | .vsubI64Vs d a s => firstCause [(oddReg d || oddReg a || oddReg s, .registerRange)]
  | .vshlB64Vs d a _ | .vshrN64Vs d a _ | .vshrI64Vs d a _ =>
      firstCause [(oddReg d || oddReg a, .registerRange)]
  | .vcmp _ a b _ ty => firstCause [((ty == .i64 || ty == .n64) && (oddReg a || oddReg b), .registerRange)]
  | .vfcmp _ a b _ ty => firstCause [(ty == .f64 && (oddReg a || oddReg b), .registerRange)]
  | .shflIdx d a _ _ | .shflUp d a _ _ | .shflDown d a _ _ | .shflXor d a _ _ =>
      firstCause [(d.toNat == a.toNat + 1, .forbiddenChain), (126 < a.toNat, .registerRange)]
  | .ballot d _ => firstCause [(58 < d.toNat, .registerRange)]
  | .vfaddF64 d a b | .vfsubF64 d a b | .vfmulF64 d a b | .vffmaF64 d a b | .vffnmaF64 d a b | .vfminF64 d a b
  | .vfmaxF64 d a b | .vfcopysignF64 d a b | .vfdivF64 d a b =>
      firstCause [(oddReg d || oddReg a || oddReg b, .registerRange)]
  | .vfabsF64 d a | .vfnegF64 d a | .vfrintF64 d a | .vfsqrtF64 d a | .vfrcpF64 d a | .vfrsqF64 d a =>
      firstCause [(oddReg d || oddReg a, .registerRange)]
  | .cvts d a f s r => firstCause [(badConvertRegs d a f s r, .registerRange), (badConversion false f s, .formatCode)]
  | .cvti d a f s r => firstCause [(badConvertRegs d a f s r, .registerRange), (badConversion true f s, .formatCode)]
  | .pack4 _ a | .pack6 _ a => firstCause [(124 < a.toNat, .registerRange)]
  | .pack8 _ a => firstCause [(120 < a.toNat, .registerRange)]
  | .unpack4 d _ _ | .unpack6 d _ _ => firstCause [(124 < d.toNat, .registerRange)]
  | .unpack8 d _ _ => firstCause [(120 < d.toNat, .registerRange)]
  | .bscale _ _ f => firstCause [(!f.isScaled, .formatCode)]
  | .compress _ _ f => firstCause [(!f.isSparseWeight, .formatCode)]
  | .ldg x o b w f => firstCause [(badLoad x o b w f, .registerRange)]
  | .stg x o b w f => firstCause [(badStore x o b w f, .registerRange)]
  | .lds x o b w f | .ldc x o b w f => firstCause [(f == .prv, .reservedCode), (badLoad x o b w f, .registerRange)]
  | .sts x o b w f | .stc x o b w f => firstCause [(f == .prv, .reservedCode), (badStore x o b w f, .registerRange)]
  | .lda x _ b wide _ | .stl x _ b wide _ => firstCause [(oddReg b || (wide && oddReg x), .registerRange)]
  | .atom x _ b fn | .atoma x _ b fn | .atoms x _ b fn => firstCause [(badAtomic x b fn, .registerRange)]
  | .red x _ b fn => firstCause [(fn.exchanges, .reservedCode), (badAtomic x b fn, .registerRange)]
  | .publish b => firstCause [(oddReg b, .registerRange)]
  | .flushh b _ => firstCause [(oddReg b, .registerRange)]
  | .ljoin x _ b _ ty => firstCause [(oddReg b || (ty.wide && oddReg x), .registerRange)]
  | .lld x _ b w | .lldAcq x _ b w | .lldge x _ b w =>
      firstCause [(oddReg b || (w == .b64 && oddReg x), .registerRange)]
  | .ltry x _ b _ => firstCause [(oddReg b || oddReg x, .registerRange)]
  | .lsta x _ b ty =>
      firstCause [(ty == .cnt8x32, .reservedCode), (oddReg b || (ty.wide && oddReg x), .registerRange)]
  | .linc _ b => firstCause [(oddReg b, .registerRange)]
  | .lsync b => firstCause [(oddReg b, .registerRange)]
  | .tcopy a _ _ _ => firstCause [(a.extractLsb' 0 2 != 0 || 47 < a.toNat, .registerRange)]
  | .copy a _ _ _ _ => firstCause [(oddReg a || 53 < a.toNat, .registerRange)]
  | .tryw _ a _ _ | .bmtest _ a _ | .bmclr _ a => firstCause [(oddReg a, .registerRange)]
  | .rpush _ (.peek _) => some .nonzeroBits
  | .mma r fa fb => firstCause [(125 < r.toNat, .registerRange), (!fb.isWeight || !matrixPair fa fb, .formatCode)]
  | .mmas r fa fb =>
      firstCause [(125 < r.toNat, .registerRange), (!fb.isSparseWeight || !matrixPair fa fb, .formatCode)]
  | .accrdSat d o f _ =>
      firstCause [((f.wide && oddReg d) || 125 < o.toNat, .registerRange), (f == .reserved, .formatCode)]
  | .accrdInf d o f _ =>
      firstCause [((f.wide && oddReg d) || 125 < o.toNat, .registerRange),
        (f == .reserved || f.noInfForm, .formatCode)]
  | .accwr x _ f => firstCause [(match f with
      | .f32 => false
      | .f64 => oddReg x
      | .b128 => x.extractLsb' 0 2 != 0, .registerRange)]
  | .wpin _ _ f s | .wunpin _ f s =>
      firstCause [(if s then !f.isSparseWeight else !f.isWeight, .formatCode)]
  | .segld sg r => SysWord.cause (.segld sg r)
  | .segrd sg r => SysWord.cause (.segrd sg r)
  | .csrr d n => SysWord.cause (.csrr d n)
  | .csrw a n => SysWord.cause (.csrw a n)
  | .tlbinv b n => SysWord.cause (.tlbinv b n)
  | _ => none

/-- A well-formed instruction: a word that passes every check it can be put to alone. -/
def WellFormed (i : Instr) : Prop := staticCause i = none

end Sys2Proof
end

