-- ==== Sys2Proof/Decode.lean ====
section
/-!
DEFINITION. Instruction words to instructions and back (R61, R73 to R80 and the encoding table of each class
chapter). Decoding is total: a word that is no instruction answers the cause of R87, the lowest among causes 0x01 to
0x04. The further checks of a decoded word, causes 0x05 to 0x09, are `staticCause` of WellFormed.
-/

namespace Sys2Proof

/-- The instruction when its must-be-zero bits are zero, else cause 0x04 (R73, R87). -/
def zeroIf (b : Bool) (i : β) : Except Cause β := if b then .ok i else .error .nonzeroBits

/-- The instruction that a field names, or cause 0x03 for a reserved code, or cause 0x04 (R87). -/
def withField (f : Option α) (zero : Bool) (k : α → β) : Except Cause β :=
  match f with
  | some x => zeroIf zero (k x)
  | none => .error .reservedCode

def IntCond.ofNat? : Nat → Option IntCond
  | 0 => some .eq | 1 => some .ne | 2 => some .lt | 3 => some .le | 4 => some .gt | 5 => some .ge | _ => none

def IntCond.code : IntCond → Nat
  | .eq => 0 | .ne => 1 | .lt => 2 | .le => 3 | .gt => 4 | .ge => 5

def IntType.ofNat? : Nat → Option IntType
  | 0 => some .i32 | 1 => some .n32 | 2 => some .i64 | 3 => some .n64 | _ => none

def IntType.code : IntType → Nat
  | .i32 => 0 | .n32 => 1 | .i64 => 2 | .n64 => 3

def FloatCond.ofNat? : Nat → Option FloatCond
  | 0 => some .eq | 1 => some .ne | 2 => some .lt | 3 => some .le | 4 => some .gt | 5 => some .ge
  | 6 => some .un | 7 => some .ord | _ => none

def FloatCond.code : FloatCond → Nat
  | .eq => 0 | .ne => 1 | .lt => 2 | .le => 3 | .gt => 4 | .ge => 5 | .un => 6 | .ord => 7

def FloatType.ofNat? : Nat → Option FloatType
  | 0 => some .f32 | 1 => some .f64 | 2 => some .bf16lo | 3 => some .bf16hi | _ => none

def FloatType.code : FloatType → Nat
  | .f32 => 0 | .f64 => 1 | .bf16lo => 2 | .bf16hi => 3

def SubWidth.ofNat? : Nat → Option SubWidth
  | 0 => some .w96 | 1 => some .w32 | 2 => some .w16 | 3 => some .w8 | 4 => some .w4 | 5 => some .w2 | _ => none

def SubWidth.code : SubWidth → Nat
  | .w96 => 0 | .w32 => 1 | .w16 => 2 | .w8 => 3 | .w4 => 4 | .w2 => 5

def LaneOp.ofCode : Nat → LaneOp
  | 0 => .addI32 | 1 => .minI32 | 2 => .maxI32 | 3 => .minN32 | 4 => .maxN32 | 5 => .andB32 | 6 => .orB32
  | _ => .xorB32

def LaneOp.code : LaneOp → Nat
  | .addI32 => 0 | .minI32 => 1 | .maxI32 => 2 | .minN32 => 3 | .maxN32 => 4 | .andB32 => 5 | .orB32 => 6
  | .xorB32 => 7

/-- The format of a 4-bit format code (R184). -/
def Fmt.ofCode : Nat → Fmt
  | 0 => .i8 | 1 => .e4m3 | 2 => .e5m2 | 3 => .e3m2 | 4 => .e2m3 | 5 => .e2m1 | 6 => .d2p8 | 7 => .bf16
  | 8 => .f16 | 9 => .f32 | 10 => .f64 | 11 => .i16 | 12 => .i32 | 13 => .i64 | 14 => .sc12 | _ => .reserved

def Fmt.code : Fmt → Nat
  | .i8 => 0 | .e4m3 => 1 | .e5m2 => 2 | .e3m2 => 3 | .e2m3 => 4 | .e2m1 => 5 | .d2p8 => 6 | .bf16 => 7
  | .f16 => 8 | .f32 => 9 | .f64 => 10 | .i16 => 11 | .i32 => 12 | .i64 => 13 | .sc12 => 14 | .reserved => 15

def Rnd.ofNat? : Nat → Option Rnd
  | 0 => some .rne | 1 => some .rtz | 2 => some .rdn | 3 => some .rup | 4 => some .rna | 5 => some .rsr | _ => none

def Rnd.code : Rnd → Nat
  | .rne => 0 | .rtz => 1 | .rdn => 2 | .rup => 3 | .rna => 4 | .rsr => 5

def LoadWidth.ofNat? : Nat → Option LoadWidth
  | 0 => some .n8 | 1 => some .i8 | 2 => some .n16 | 3 => some .i16 | 4 => some .b32 | 5 => some .b64
  | 6 => some .b128 | _ => none

def LoadWidth.code : LoadWidth → Nat
  | .n8 => 0 | .i8 => 1 | .n16 => 2 | .i16 => 3 | .b32 => 4 | .b64 => 5 | .b128 => 6

def StoreWidth.ofNat? : Nat → Option StoreWidth
  | 0 => some .b8 | 2 => some .b16 | 4 => some .b32 | 5 => some .b64 | 6 => some .b128 | _ => none

def StoreWidth.code : StoreWidth → Nat
  | .b8 => 0 | .b16 => 2 | .b32 => 4 | .b64 => 5 | .b128 => 6

/-- The address form of code AF; `prv` only where the major admits the stacks of space p (R215). -/
def OffForm.ofNat? (stack? : Bool) : Nat → Option OffForm
  | 0 => some .zx | 1 => some .sx | 2 => some .x64 | 3 => if stack? then some .prv else none | _ => none

def OffForm.code : OffForm → Nat
  | .zx => 0 | .sx => 1 | .x64 => 2 | .prv => 3

def Scope.ofNat? : Nat → Option Scope
  | 0 => some .grp | 1 => some .blk | 2 => some .clu | 3 => some .pkg | 4 => some .sys | 5 => some .fab | _ => none

def Scope.code : Scope → Nat
  | .grp => 0 | .blk => 1 | .clu => 2 | .pkg => 3 | .sys => 4 | .fab => 5

def Sem.ofNat? : Nat → Option Sem
  | 1 => some .acq | 2 => some .rel | 3 => some .ar | _ => none

def Sem.code : Sem → Nat
  | .acq => 1 | .rel => 2 | .ar => 3

/-- The operation of a code of R228. -/
def AtomFn.ofNat? : Nat → Option AtomFn
  | 0 => some .addB32 | 1 => some .addB64 | 2 => some .minI32 | 3 => some .minI64 | 4 => some .maxI32
  | 5 => some .maxI64 | 6 => some .minN32 | 7 => some .minN64 | 8 => some .maxN32 | 9 => some .maxN64
  | 10 => some .andB32 | 11 => some .andB64 | 12 => some .orB32 | 13 => some .orB64 | 14 => some .xorB32
  | 15 => some .xorB64 | 16 => some .exchB32 | 17 => some .exchB64 | 18 => some .casB32 | 19 => some .casB64
  | 20 => some .addF32 | _ => none

def AtomFn.code : AtomFn → Nat
  | .addB32 => 0 | .addB64 => 1 | .minI32 => 2 | .minI64 => 3 | .maxI32 => 4 | .maxI64 => 5 | .minN32 => 6
  | .minN64 => 7 | .maxN32 => 8 | .maxN64 => 9 | .andB32 => 10 | .andB64 => 11 | .orB32 => 12 | .orB64 => 13
  | .xorB32 => 14 | .xorB64 => 15 | .exchB32 => 16 | .exchB64 => 17 | .casB32 => 18 | .casB64 => 19 | .addF32 => 20

/-- The operation of a code that RED admits (R232). -/
def AtomFn.ofRed? (n : Nat) : Option AtomFn := (AtomFn.ofNat? n).filter fun f => !f.exchanges

def LatType.ofNat? : Nat → Option LatType
  | 0 => some .maxN32 | 1 => some .maxN64 | 2 => some .maxI32 | 3 => some .minN32 | 4 => some .orB32
  | 5 => some .orB64 | 6 => some .maxF32 | 7 => some .andB32 | 8 => some .cnt8x32 | _ => none

def LatType.code : LatType → Nat
  | .maxN32 => 0 | .maxN64 => 1 | .maxI32 => 2 | .minN32 => 3 | .orB32 => 4 | .orB64 => 5 | .maxF32 => 6
  | .andB32 => 7 | .cnt8x32 => 8

def LatWidth.ofNat? : Nat → Option LatWidth
  | 0 => some .b32 | 1 => some .b64 | 2 => some .cnt | _ => none

def LatWidth.code : LatWidth → Nat
  | .b32 => 0 | .b64 => 1 | .cnt => 2

def CopyDir.ofNat? : Nat → Option CopyDir
  | 0 => some .gs | 1 => some .sg | 2 => some .gg | 3 => some .cs | 4 => some .sc | 5 => some .gf | 6 => some .fg
  | _ => none

def CopyDir.code : CopyDir → Nat
  | .gs => 0 | .sg => 1 | .gg => 2 | .cs => 3 | .sc => 4 | .gf => 5 | .fg => 6

def AccForm.ofNat? : Nat → Option AccForm
  | 0 => some .f32 | 1 => some .f64 | 2 => some .b128 | _ => none

def AccForm.code : AccForm → Nat
  | .f32 => 0 | .f64 => 1 | .b128 => 2

def Seg.ofNat? : Nat → Option Seg
  | 0 => some .g | 1 => some .s | 2 => some .c | 3 => some .a | 4 => some .p | _ => none

def Seg.code : Seg → Nat
  | .g => 0 | .s => 1 | .c => 2 | .a => 3 | .p => 4

/-- The source named by fields K, P and register of format S3; K = 0 with P = 1 is no source (R77). -/
def SSrc.ofFields? (k p : Bool) (r : BitVec 6) : Option SSrc :=
  match k, p with
  | false, false => some (.reg r)
  | false, true => none
  | true, false => some (.peek r)
  | true, true => some (.pop r)

/-- Fields K, P and register of a source (R77). -/
def SSrc.fields : SSrc → Bool × Bool × BitVec 6
  | .reg r => (false, false, r)
  | .peek c => (true, false, c)
  | .pop c => (true, true, c)

/-- The destination named by field K and its register (R77). -/
def SDst.ofFields (k : Bool) (r : BitVec 6) : SDst := if k then .chan r else .reg r

/-- Fields K and register of a destination (R77). -/
def SDst.fields : SDst → Bool × BitVec 6
  | .reg r => (false, r)
  | .chan c => (true, c)

/-- The word with both channel sources read, or cause 0x04 (R77). -/
def withSources (a b : Option SSrc) (k : SSrc → SSrc → Instr) : Except Cause Instr :=
  match a, b with
  | some a, some b => .ok (k a b)
  | _, _ => .error .nonzeroBits

/-- Functions of major VInt0 (R151, R152). -/
def decodeVInt0 (w : Word) : Except Cause Instr :=
  let d := w.extractLsb' 18 7
  let a := w.extractLsb' 11 7
  let b := w.extractLsb' 4 7
  match (w.extractLsb' 0 4).toNat with
  | 0 => .ok (.vaddI32 d a b)
  | 1 => .ok (.vsubI32 d a b)
  | 2 => .ok (.vmulI32 d a b)
  | 3 => .ok (.vmulhI32 d a b)
  | 4 => .ok (.vmulhN32 d a b)
  | 5 => .ok (.vminI32 d a b)
  | 6 => .ok (.vmaxI32 d a b)
  | 7 => .ok (.vminN32 d a b)
  | 8 => .ok (.vmaxN32 d a b)
  | 9 => .ok (.vandB32 d a b)
  | 10 => .ok (.vorB32 d a b)
  | 11 => .ok (.vxorB32 d a b)
  | 12 => .ok (.vshlB32 d a b)
  | 13 => .ok (.vshrN32 d a b)
  | 14 => .ok (.vshrI32 d a b)
  | 15 => .ok (.vabsdI32 d a b)
  | _ => .error .reservedCode

/-- Functions of major VInt1 (R151, R152). -/
def decodeVInt1 (w : Word) : Except Cause Instr :=
  let d := w.extractLsb' 18 7
  let a := w.extractLsb' 11 7
  let b := w.extractLsb' 4 7
  match (w.extractLsb' 0 4).toNat with
  | 0 => .ok (.vaddsI32 d a b)
  | 1 => .ok (.vsubsI32 d a b)
  | 2 => .ok (.vaddsN32 d a b)
  | 3 => .ok (.vsubsN32 d a b)
  | 4 => .ok (.vbfeN32 d a b)
  | 5 => .ok (.vbfeI32 d a b)
  | 6 => .ok (.vbfiB32 d a b)
  | 7 => zeroIf (b = 0) (.vpopcB32 d a)
  | 8 => zeroIf (b = 0) (.vclzB32 d a)
  | 9 => zeroIf (b = 0) (.vbrevB32 d a)
  | 10 => .ok (.vaddI64 d a b)
  | 11 => .ok (.vsubI64 d a b)
  | 12 => .ok (.vshlB64 d a b)
  | 13 => .ok (.vshrN64 d a b)
  | 14 => .ok (.vshrI64 d a b)
  | _ => .error .reservedCode

/-- Functions of major F32A (R170, R171). -/
def decodeF32A (w : Word) : Except Cause Instr :=
  let d := w.extractLsb' 18 7
  let a := w.extractLsb' 11 7
  let b := w.extractLsb' 4 7
  match (w.extractLsb' 0 4).toNat with
  | 0 => .ok (.vfaddF32 d a b)
  | 1 => .ok (.vfsubF32 d a b)
  | 2 => .ok (.vfmulF32 d a b)
  | 3 => .ok (.vffmaF32 d a b)
  | 4 => .ok (.vffnmaF32 d a b)
  | 5 => .ok (.vfminF32 d a b)
  | 6 => .ok (.vfmaxF32 d a b)
  | 7 => zeroIf (b = 0) (.vfabsF32 d a)
  | 8 => zeroIf (b = 0) (.vfnegF32 d a)
  | 9 => .ok (.vfcopysignF32 d a b)
  | 10 => zeroIf (b = 0) (.vfrintF32 d a)
  | _ => .error .reservedCode

/-- Functions of major F32B (R170, R171). -/
def decodeF32B (w : Word) : Except Cause Instr :=
  let d := w.extractLsb' 18 7
  let a := w.extractLsb' 11 7
  let b := w.extractLsb' 4 7
  match (w.extractLsb' 0 4).toNat with
  | 0 => .ok (.vfdivF32 d a b)
  | 1 => zeroIf (b = 0) (.vfsqrtF32 d a)
  | 2 => zeroIf (b = 0) (.vfrcpF32 d a)
  | 3 => zeroIf (b = 0) (.vfrsqF32 d a)
  | 4 => zeroIf (b = 0) (.vfexp2F32 d a)
  | 5 => zeroIf (b = 0) (.vflog2F32 d a)
  | 6 => zeroIf (b = 0) (.vfsinF32 d a)
  | 7 => zeroIf (b = 0) (.vfcosF32 d a)
  | 8 => zeroIf (b = 0) (.vftanhF32 d a)
  | _ => .error .reservedCode

/-- Functions of major F64A (R170, R171). -/
def decodeF64A (w : Word) : Except Cause Instr :=
  let d := w.extractLsb' 18 7
  let a := w.extractLsb' 11 7
  let b := w.extractLsb' 4 7
  match (w.extractLsb' 0 4).toNat with
  | 0 => .ok (.vfaddF64 d a b)
  | 1 => .ok (.vfsubF64 d a b)
  | 2 => .ok (.vfmulF64 d a b)
  | 3 => .ok (.vffmaF64 d a b)
  | 4 => .ok (.vffnmaF64 d a b)
  | 5 => .ok (.vfminF64 d a b)
  | 6 => .ok (.vfmaxF64 d a b)
  | 7 => zeroIf (b = 0) (.vfabsF64 d a)
  | 8 => zeroIf (b = 0) (.vfnegF64 d a)
  | 9 => .ok (.vfcopysignF64 d a b)
  | 10 => zeroIf (b = 0) (.vfrintF64 d a)
  | _ => .error .reservedCode

/-- Functions of major F64B (R170, R171). -/
def decodeF64B (w : Word) : Except Cause Instr :=
  let d := w.extractLsb' 18 7
  let a := w.extractLsb' 11 7
  let b := w.extractLsb' 4 7
  match (w.extractLsb' 0 4).toNat with
  | 0 => .ok (.vfdivF64 d a b)
  | 1 => zeroIf (b = 0) (.vfsqrtF64 d a)
  | 2 => zeroIf (b = 0) (.vfrcpF64 d a)
  | 3 => zeroIf (b = 0) (.vfrsqF64 d a)
  | _ => .error .reservedCode

/-- Functions of major BF2 (R170, R171). -/
def decodeBF2 (w : Word) : Except Cause Instr :=
  let d := w.extractLsb' 18 7
  let a := w.extractLsb' 11 7
  let b := w.extractLsb' 4 7
  match (w.extractLsb' 0 4).toNat with
  | 0 => .ok (.vfaddBf16 d a b)
  | 1 => .ok (.vfsubBf16 d a b)
  | 2 => .ok (.vfmulBf16 d a b)
  | 3 => .ok (.vffmaBf16 d a b)
  | 4 => .ok (.vffnmaBf16 d a b)
  | 5 => .ok (.vfminBf16 d a b)
  | 6 => .ok (.vfmaxBf16 d a b)
  | 7 => zeroIf (b = 0) (.vfabsBf16 d a)
  | 8 => zeroIf (b = 0) (.vfnegBf16 d a)
  | _ => .error .reservedCode

/-- Functions of major VSCAL (R154). -/
def decodeVScal (w : Word) : Except Cause Instr :=
  let d := w.extractLsb' 18 7
  let a := w.extractLsb' 11 7
  let s := w.extractLsb' 5 6
  match (w.extractLsb' 0 5).toNat with
  | 0 => .ok (.vaddI32Vs d a s)
  | 1 => .ok (.vsubI32Vs d a s)
  | 2 => .ok (.vmulI32Vs d a s)
  | 3 => .ok (.vmulhI32Vs d a s)
  | 4 => .ok (.vmulhN32Vs d a s)
  | 5 => .ok (.vminI32Vs d a s)
  | 6 => .ok (.vmaxI32Vs d a s)
  | 7 => .ok (.vminN32Vs d a s)
  | 8 => .ok (.vmaxN32Vs d a s)
  | 9 => .ok (.vandB32Vs d a s)
  | 10 => .ok (.vorB32Vs d a s)
  | 11 => .ok (.vxorB32Vs d a s)
  | 12 => .ok (.vshlB32Vs d a s)
  | 13 => .ok (.vshrN32Vs d a s)
  | 14 => .ok (.vshrI32Vs d a s)
  | 15 => .ok (.vabsdI32Vs d a s)
  | 16 => .ok (.vaddsI32Vs d a s)
  | 17 => .ok (.vsubsI32Vs d a s)
  | 18 => .ok (.vaddsN32Vs d a s)
  | 19 => .ok (.vsubsN32Vs d a s)
  | 20 => .ok (.vbfeN32Vs d a s)
  | 21 => .ok (.vbfeI32Vs d a s)
  | 22 => .ok (.vbfiB32Vs d a s)
  | 26 => .ok (.vaddI64Vs d a s)
  | 27 => .ok (.vsubI64Vs d a s)
  | 28 => .ok (.vshlB64Vs d a s)
  | 29 => .ok (.vshrN64Vs d a s)
  | 30 => .ok (.vshrI64Vs d a s)
  | 31 => zeroIf (a = 0) (.vbcastB32 d s)
  | _ => .error .reservedCode

/-- Majors SALU0 to SALU4, RELAY left out: format S3, functions of R80 (R96). -/
def decodeSalu (major : Nat) (w : Word) : Except Cause Instr :=
  let d := SDst.ofFields (w.getLsbD 24) (w.extractLsb' 18 6)
  let a := SSrc.ofFields? (w.getLsbD 17) (w.getLsbD 16) (w.extractLsb' 10 6)
  let b := SSrc.ofFields? (w.getLsbD 9) (w.getLsbD 8) (w.extractLsb' 2 6)
  match major, (w.extractLsb' 0 2).toNat with
  | 1, 0 => withSources a b (.add d) | 1, 1 => withSources a b (.sub d)
  | 1, 2 => withSources a b (.and d) | 1, 3 => withSources a b (.or d)
  | 2, 0 => withSources a b (.xor d) | 2, 1 => withSources a b (.shl d)
  | 2, 2 => withSources a b (.shrN d) | 2, 3 => withSources a b (.shrI d)
  | 3, 0 => withSources a b (.minI d) | 3, 1 => withSources a b (.maxI d)
  | 3, 2 => withSources a b (.minN d) | 3, 3 => withSources a b (.maxN d)
  | 4, 0 => withSources a b (.mul d) | 4, 1 => withSources a b (.mulhI d)
  | 4, 2 => withSources a b (.mulhN d) | 4, 3 => withSources a b (.cmpEq d)
  | 5, 0 => withSources a b (.cmpNe d) | 5, 1 => withSources a b (.cmpLtI d)
  | 5, 2 => withSources a b (.cmpLtN d)
  | _, _ => .error .reservedCode

/-- Major SALU64: format S3 with every K and P zero (R98). -/
def decodeSalu64 (w : Word) : Except Cause Instr :=
  let d := w.extractLsb' 18 6
  let a := w.extractLsb' 10 6
  let b := w.extractLsb' 2 6
  let z := w.extractLsb' 24 1 = 0 ∧ w.extractLsb' 16 2 = 0 ∧ w.extractLsb' 8 2 = 0
  match (w.extractLsb' 0 2).toNat with
  | 0 => zeroIf z (.add64 d a b)
  | 1 => zeroIf z (.sub64 d a b)
  | 2 => zeroIf z (.shl64 d a b)
  | _ => zeroIf z (.shr64N d a b)

/-- Majors SIMM0 and SIMM1: format SI; KD = 1 only with movi (R77, R99). -/
def decodeSimm (major : Nat) (w : Word) : Except Cause Instr :=
  let d := w.extractLsb' 18 6
  let i := w.extractLsb' 0 16
  let z := !w.getLsbD 24
  match major, (w.extractLsb' 16 2).toNat with
  | 7, 0 => .ok (.movi (SDst.ofFields (w.getLsbD 24) d) i)
  | 7, 1 => zeroIf z (.movh d i)
  | 7, 2 => zeroIf z (.addi d i)
  | 7, _ => zeroIf z (.andi d i)
  | _, 0 => zeroIf z (.ori d i)
  | _, 1 => zeroIf z (.xori d i)
  | _, 2 => zeroIf z (.cmpiEq d i)
  | _, _ => zeroIf z (.cmpiLtI d i)

/-- Major SMEM: format SM (R100). -/
def decodeSmem (w : Word) : Except Cause Instr :=
  let d := w.extractLsb' 19 6
  let b := w.extractLsb' 13 6
  let i := w.extractLsb' 0 11
  match (w.extractLsb' 11 2).toNat with
  | 0 => .ok (.sld32 d b i)
  | 1 => .ok (.sld64 d b i)
  | 2 => .ok (.sldK d b i)
  | _ => .ok (.sst d b i)

/-- Major SPEC: format SP (R77, R102). -/
def decodeSpec (w : Word) : Except Cause Instr :=
  let r := w.extractLsb' 19 6
  let s := w.extractLsb' 8 10
  let z := w.extractLsb' 0 8 = 0
  if w.getLsbD 18 then zeroIf z (.swr r s) else zeroIf z (.srd r s)

/-- Major BRANCH: format B (R79, R103). -/
def decodeBranch (w : Word) : Except Cause Instr :=
  let s := w.extractLsb' 16 6
  let p := w.extractLsb' 16 3
  let z := w.extractLsb' 19 3 = 0
  let o := w.extractLsb' 0 16
  match (w.extractLsb' 22 3).toNat with
  | 0 => zeroIf (s = 0) (.bra o)
  | 1 => .ok (.bz s o)
  | 2 => .ok (.bnz s o)
  | 3 => zeroIf z (.bany p o)
  | 4 => zeroIf z (.ball p o)
  | 5 => zeroIf z (.bnone p o)
  | 6 => zeroIf z (.bdiv p o)
  | _ => .error .reservedCode

/-- Majors CALLJ (R108), MASK (R107), WAIT (R79, R109) and CTRL (R110). -/
def decodeControl (major : Nat) (w : Word) : Except Cause Instr :=
  let body := w.extractLsb' 0 21
  match major, (w.extractLsb' 21 4).toNat with
  | 0x0C, 0 => zeroIf (w.extractLsb' 20 1 = 0) (.call (w.extractLsb' 0 20))
  | 0x0C, 1 => zeroIf (body = 0) .ret
  | 0x0C, 2 => zeroIf (w.extractLsb' 0 15 = 0) (.jmpr (w.extractLsb' 15 6))
  | 0x0D, 0 => zeroIf (w.extractLsb' 0 18 = 0) (.mfromp (w.extractLsb' 18 3))
  | 0x0D, 1 => zeroIf (w.extractLsb' 0 18 = 0) (.mtop (w.extractLsb' 18 3))
  | 0x0F, 0 => zeroIf (body = 0) .yield
  | 0x0F, 1 => zeroIf (body = 0) .exit
  | 0x0F, 2 => zeroIf (w.extractLsb' 8 13 = 0) (.trap (w.extractLsb' 0 8))
  | 0x0F, 3 => zeroIf (body = 0) .brk
  | _, _ => .error .reservedCode

def decodeWait (w : Word) : Except Cause Instr :=
  zeroIf (w.extractLsb' 0 1 = 0)
    (.wait (w.extractLsb' 19 6) (w.extractLsb' 13 6) (w.extractLsb' 7 6) (w.extractLsb' 1 6))

/-- Majors BLOCK (R131) and BAR (R141). -/
def decodeBlock (major : Nat) (w : Word) : Except Cause Instr :=
  let body := w.extractLsb' 0 21
  match major, (w.extractLsb' 21 4).toNat with
  | 0x10, 0 => zeroIf (body = 0) .attach
  | 0x10, 1 => zeroIf (w.extractLsb' 0 18 = 0) (.detach (w.extractLsb' 18 3))
  | 0x10, 2 => .ok (.regroup (w.extractLsb' 18 3) (w.extractLsb' 12 6) (w.extractLsb' 5 7) (w.extractLsb' 0 5))
  | 0x10, 3 => zeroIf (w.extractLsb' 0 3 = 0)
      (.launch (w.extractLsb' 15 6) (w.extractLsb' 9 6) (w.extractLsb' 3 6))
  | 0x10, 4 => zeroIf (w.extractLsb' 0 3 = 0)
      (.hops (w.extractLsb' 15 6) (w.extractLsb' 9 6) (w.extractLsb' 3 6))
  | 0x11, 0 => zeroIf (w.extractLsb' 0 11 = 0) (.barArrive (w.extractLsb' 17 4) (w.extractLsb' 11 6))
  | 0x11, 1 => zeroIf (w.extractLsb' 0 11 = 0) (.barWait (w.extractLsb' 17 4) (w.extractLsb' 11 6))
  | 0x11, 2 => zeroIf (w.extractLsb' 0 17 = 0) (.barSync (w.extractLsb' 17 4))
  | 0x11, 3 => zeroIf (w.extractLsb' 0 8 = 0)
      (.barTry (w.extractLsb' 17 4) (w.extractLsb' 11 6) (w.extractLsb' 8 3))
  | _, _ => .error .reservedCode

/-- Major VIMM: format VI (R153). -/
def decodeVImm (w : Word) : Except Cause Instr :=
  let d := w.extractLsb' 18 7
  let a := w.extractLsb' 11 7
  let z := w.extractLsb' 5 4 = 0
  match (w.extractLsb' 9 2).toNat with
  | 0 => .ok (.vaddI32Vi d a (w.extractLsb' 0 9))
  | 1 => .ok (.vandB32Vi d a (w.extractLsb' 0 9))
  | 2 => zeroIf z (.vshlB32Vi d a (w.extractLsb' 0 5))
  | _ => zeroIf z (.vshrN32Vi d a (w.extractLsb' 0 5))

/-- Majors VCMP (R155) and FCMP (R179): format VC. The spec names no cause for a reserved CC or TY: 0x03 (entry 90). -/
def decodeVCmp (w : Word) : Except Cause Instr :=
  match IntCond.ofNat? (w.extractLsb' 4 4).toNat, IntType.ofNat? (w.extractLsb' 0 4).toNat with
  | some cc, some ty => .ok (.vcmp (w.extractLsb' 22 3) (w.extractLsb' 15 7) (w.extractLsb' 8 7) cc ty)
  | _, _ => .error .reservedCode

def decodeFCmp (w : Word) : Except Cause Instr :=
  match FloatCond.ofNat? (w.extractLsb' 4 4).toNat, FloatType.ofNat? (w.extractLsb' 0 4).toNat with
  | some cc, some ty => .ok (.vfcmp (w.extractLsb' 22 3) (w.extractLsb' 15 7) (w.extractLsb' 8 7) cc ty)
  | _, _ => .error .reservedCode

/-- Major PRED (R156). -/
def decodePred (w : Word) : Except Cause Instr :=
  let d := w.extractLsb' 18 3
  let a := w.extractLsb' 15 3
  let b := w.extractLsb' 12 3
  let z := w.extractLsb' 0 12 = 0
  match (w.extractLsb' 21 4).toNat with
  | 0 => zeroIf z (.pand d a b)
  | 1 => zeroIf z (.por d a b)
  | 2 => zeroIf z (.pxor d a b)
  | 3 => zeroIf (w.extractLsb' 0 15 = 0) (.pnot d a)
  | 4 => zeroIf (w.extractLsb' 0 15 = 0) (.pmov d a)
  | 5 => zeroIf (w.extractLsb' 0 11 = 0) (.vfromp (w.extractLsb' 14 7) (w.extractLsb' 11 3))
  | 6 => zeroIf (w.extractLsb' 0 11 = 0) (.vtop d (w.extractLsb' 11 7))
  | _ => .error .reservedCode

/-- Major XLANE (R157). The spec names no cause for the reserved W codes 0b110 and 0b111: 0x03 (entry 90). -/
def decodeXLane (w : Word) : Except Cause Instr :=
  let d := w.extractLsb' 14 7
  let a := w.extractLsb' 7 7
  let p := w.extractLsb' 4 3
  let sub := SubWidth.ofNat? (w.extractLsb' 1 3).toNat
  let z := w.extractLsb' 0 1 = 0
  let sd := w.extractLsb' 15 6
  let q := w.extractLsb' 12 3
  let zq := w.extractLsb' 0 12 = 0
  let op := LaneOp.ofCode (w.extractLsb' 4 3).toNat
  match (w.extractLsb' 21 4).toNat with
  | 0 => withField sub z (.shflIdx d a p)
  | 1 => withField sub z (.shflUp d a p)
  | 2 => withField sub z (.shflDown d a p)
  | 3 => withField sub z (.shflXor d a p)
  | 4 => zeroIf zq (.voteAny sd q)
  | 5 => zeroIf zq (.voteAll sd q)
  | 6 => zeroIf zq (.ballot sd q)
  | 7 => withField sub z (.vscanIncl d a op)
  | 8 => withField sub z (.vscanExcl d a op)
  | 9 => zeroIf (w.extractLsb' 0 5 = 0)
      (.vred sd (w.extractLsb' 8 7) (LaneOp.ofCode (w.extractLsb' 5 3).toNat))
  | _ => .error .reservedCode

/-- Majors CVTS and CVTI: format CV (R74, R196). -/
def decodeConvert (inf : Bool) (w : Word) : Except Cause Instr :=
  let d := w.extractLsb' 18 7
  let a := w.extractLsb' 11 7
  let f := Fmt.ofCode (w.extractLsb' 7 4).toNat
  let s := Fmt.ofCode (w.extractLsb' 3 4).toNat
  let r := Rnd.ofNat? (w.extractLsb' 0 3).toNat
  if inf then withField r true (.cvti d a f s) else withField r true (.cvts d a f s)

/-- Majors PACK (R200) and SCALE (R202). -/
def decodePack (major : Nat) (w : Word) : Except Cause Instr :=
  let d := w.extractLsb' 14 7
  let a := w.extractLsb' 7 7
  let sx := w.getLsbD 6
  let zp := w.extractLsb' 0 7 = 0
  let zu := w.extractLsb' 0 6 = 0
  let f := Fmt.ofCode (w.extractLsb' 3 4).toNat
  let zf := w.extractLsb' 0 3 = 0
  match major, (w.extractLsb' 21 4).toNat with
  | 0x21, 0 => zeroIf zp (.pack4 d a)
  | 0x21, 1 => zeroIf zu (.unpack4 d a sx)
  | 0x21, 2 => zeroIf zp (.pack6 d a)
  | 0x21, 3 => zeroIf zu (.unpack6 d a sx)
  | 0x21, 4 => zeroIf zp (.pack8 d a)
  | 0x21, 5 => zeroIf zu (.unpack8 d a sx)
  | 0x22, 0 => zeroIf zf (.bscale d a f)
  | 0x22, 1 => .ok (.scapplyMul d a (w.extractLsb' 0 7))
  | 0x22, 2 => .ok (.scapplyDiv d a (w.extractLsb' 0 7))
  | 0x22, 3 => zeroIf zf (.compress d a f)
  | 0x22, 4 =>
      if w.getLsbD 20 then zeroIf (w.extractLsb' 0 12 = 0) (.tidsetImm (w.extractLsb' 12 8))
      else zeroIf (w.extractLsb' 0 14 = 0) (.tidsetReg (w.extractLsb' 14 6))
  | _, _ => .error .reservedCode

/-- The plain memory majors LDG, STG, LDS, STS, LDC and STC: format M (R215, R223). -/
def decodeMemory (major : Nat) (w : Word) : Except Cause Instr :=
  let x := w.extractLsb' 18 7
  let o := w.extractLsb' 11 7
  let b := w.extractLsb' 5 6
  let lw := LoadWidth.ofNat? (w.extractLsb' 2 3).toNat
  let sw := StoreWidth.ofNat? (w.extractLsb' 2 3).toNat
  let form := OffForm.ofNat? (major = 0x23 ∨ major = 0x24) (w.extractLsb' 0 2).toNat
  match major, lw, sw, form with
  | 0x23, some n, _, some f => .ok (.ldg x o b n f)
  | 0x24, _, some n, some f => .ok (.stg x o b n f)
  | 0x25, some n, _, some f => .ok (.lds x o b n f)
  | 0x26, _, some n, some f => .ok (.sts x o b n f)
  | 0x27, some n, _, some f => .ok (.ldc x o b n f)
  | 0x28, _, some n, some f => .ok (.stc x o b n f)
  | _, _, _, _ => .error .reservedCode

/-- Majors LDA and STL (R226), the atomics (R228) and RED (R232): format M. -/
def decodeAtomic (major : Nat) (w : Word) : Except Cause Instr :=
  let x := w.extractLsb' 18 7
  let o := w.extractLsb' 11 7
  let b := w.extractLsb' 5 6
  let wide := w.getLsbD 3
  let scope := if w.getLsbD 4 then none else Scope.ofNat? (w.extractLsb' 0 3).toNat
  let fn := AtomFn.ofNat? (w.extractLsb' 0 5).toNat
  match major with
  | 0x29 => withField scope true (.lda x o b wide)
  | 0x2A => withField scope true (.stl x o b wide)
  | 0x2B => withField fn true (.atom x o b)
  | 0x2C => withField fn true (.atoma x o b)
  | 0x2D => withField fn true (.atoms x o b)
  | _ => withField (AtomFn.ofRed? (w.extractLsb' 0 5).toNat) true (.red x o b)

/-- Majors TAG (R238) and ORDER (R242). -/
def decodeOrder (major : Nat) (w : Word) : Except Cause Instr :=
  match major, (w.extractLsb' 21 4).toNat with
  | 0x2F, 0 => zeroIf (w.extractLsb' 0 6 = 0)
      (.tagl (w.extractLsb' 15 6) (w.extractLsb' 9 6) (w.extractLsb' 6 3))
  | 0x2F, 1 => zeroIf (w.extractLsb' 0 9 = 0) (.tags (w.extractLsb' 15 6) (w.extractLsb' 9 6))
  | 0x2F, 2 => zeroIf (w.extractLsb' 0 15 = 0) (.tagi (w.extractLsb' 15 6))
  | 0x30, 0 =>
      match Sem.ofNat? (w.extractLsb' 19 2).toNat, Scope.ofNat? (w.extractLsb' 16 3).toNat with
      | some sem, some sc => zeroIf (w.extractLsb' 0 16 = 0) (.fence sem sc)
      | _, _ => .error .reservedCode
  | 0x30, 1 => zeroIf (w.extractLsb' 0 21 = 0) .ifence
  | 0x30, 2 => zeroIf (w.extractLsb' 0 15 = 0) (.publish (w.extractLsb' 15 6))
  | 0x30, 3 => zeroIf (w.extractLsb' 0 9 = 0) (.flushh (w.extractLsb' 15 6) (w.extractLsb' 9 6))
  | _, _ => .error .reservedCode

/-- Majors LJOIN (R276), LLOAD (R278) and LMISC (R282): format M. -/
def decodeLattice (major : Nat) (w : Word) : Except Cause Instr :=
  let x := w.extractLsb' 18 7
  let o := w.extractLsb' 11 7
  let b := w.extractLsb' 5 6
  let ty := LatType.ofNat? (w.extractLsb' 0 4).toNat
  let lw := LatWidth.ofNat? (w.extractLsb' 0 3).toNat
  match major with
  | 0x31 => withField ty true (.ljoin x o b (w.getLsbD 4))
  | 0x32 =>
      match (w.extractLsb' 3 2).toNat with
      | 0 => withField lw true (.lld x o b)
      | 1 => withField lw true (.lldAcq x o b)
      | 2 => withField lw true (.lldge x o b)
      | _ => .ok (.ltry x o b (w.extractLsb' 0 3))
  | _ =>
      if w.getLsbD 4 then
        match (w.extractLsb' 0 4).toNat with
        | 0 => zeroIf (x = 0) (.linc o b)
        | 1 => zeroIf (x = 0 ∧ o = 0) (.lsync b)
        | _ => .error .reservedCode
      else withField (ty.filter (· ≠ .cnt8x32)) true (.lsta x o b)

/-- Majors TCOPY (R301), COPY (R294) and BITMAP (R307). -/
def decodeCopy (major : Nat) (w : Word) : Except Cause Instr :=
  let a := w.extractLsb' 15 6
  match major, (w.extractLsb' 21 4).toNat with
  | 0x34, 0 => .ok (.tcopy a (w.extractLsb' 11 4) (w.extractLsb' 6 5) (w.extractLsb' 0 6))
  | 0x35, 0 => withField (CopyDir.ofNat? (w.extractLsb' 12 3).toNat) true fun dir =>
      .copy a dir (w.extractLsb' 7 5) (w.getLsbD 6) (w.extractLsb' 0 6)
  | 0x35, 1 => zeroIf (w.extractLsb' 0 21 = 0) .persist
  | 0x36, 0 => zeroIf (w.extractLsb' 0 3 = 0)
      (.tryw (w.extractLsb' 16 5) (w.extractLsb' 10 6) (w.extractLsb' 7 3) (w.extractLsb' 3 4))
  | 0x36, 1 => zeroIf (w.extractLsb' 0 7 = 0)
      (.bmtest (w.extractLsb' 16 5) (w.extractLsb' 10 6) (w.extractLsb' 7 3))
  | 0x36, 2 => zeroIf (w.extractLsb' 0 10 = 0) (.bmclr (w.extractLsb' 16 5) (w.extractLsb' 10 6))
  | _, _ => .error .reservedCode

/-- Major RELAY: format S3 with the fields of R314's rows. -/
def decodeRelay (w : Word) : Except Cause Instr :=
  let kd := w.getLsbD 24
  let d := w.extractLsb' 18 6
  let ka := w.getLsbD 17
  let pa := w.getLsbD 16
  let a := w.extractLsb' 10 6
  let b := w.extractLsb' 2 6
  let kb := w.extractLsb' 8 2
  match (w.extractLsb' 0 2).toNat with
  | 0 =>
      if kd && (ka == pa) && kb = 0 && b = 0 then .ok (.rpush d (if ka then .pop a else .reg a))
      else .error .nonzeroBits
  | 1 => zeroIf (!kd && ka && kb = 0 && b = 0) (.rpop d a pa)
  | 2 => zeroIf (!kd && ka && !pa && kb = 0) (.rfree d a b)
  | _ => zeroIf (!kd && ka && !pa && kb = 0 && b = 0) (.rstat d a)

/-- Majors MMA and MMAS (R322). -/
def decodeMatrix (sparse : Bool) (w : Word) : Except Cause Instr :=
  let r := w.extractLsb' 14 7
  let fa := Fmt.ofCode (w.extractLsb' 10 4).toNat
  let fb := Fmt.ofCode (w.extractLsb' 6 4).toNat
  let z := w.extractLsb' 0 6 = 0
  if (w.extractLsb' 21 4).toNat = 0 then zeroIf z (if sparse then .mmas r fa fb else .mma r fa fb)
  else .error .reservedCode

/-- Major ACC (R333). -/
def decodeAcc (w : Word) : Except Cause Instr :=
  let d := w.extractLsb' 14 7
  let o := w.extractLsb' 7 7
  let f := Fmt.ofCode (w.extractLsb' 3 4).toNat
  let r := Rnd.ofNat? (w.extractLsb' 0 3).toNat
  let pin := Fmt.ofCode (w.extractLsb' 8 4).toNat
  match (w.extractLsb' 21 4).toNat with
  | 0 => zeroIf (w.extractLsb' 0 6 = 0)
      (.accalloc (w.extractLsb' 18 3) (w.extractLsb' 12 6) (w.extractLsb' 6 6))
  | 1 => zeroIf (w.extractLsb' 0 9 = 0) (.accfree (w.extractLsb' 15 6) (w.extractLsb' 9 6))
  | 2 => zeroIf (w.extractLsb' 0 9 = 0) (.accz (w.extractLsb' 15 6) (w.extractLsb' 9 6))
  | 3 => withField r true (.accrdSat d o f)
  | 4 => withField r true (.accrdInf d o f)
  | 5 => withField (AccForm.ofNat? (w.extractLsb' 5 2).toNat) (w.extractLsb' 0 5 = 0) (.accwr d o)
  | 6 => zeroIf (w.extractLsb' 0 7 = 0) (.wpin (w.extractLsb' 18 3) (w.extractLsb' 12 6) pin (w.getLsbD 7))
  | 7 => zeroIf (w.extractLsb' 18 3 = 0 ∧ w.extractLsb' 0 7 = 0) (.wunpin (w.extractLsb' 12 6) pin (w.getLsbD 7))
  | 8 => zeroIf (w.extractLsb' 0 21 = 0) .opfence
  | _ => .error .reservedCode

/-- Major SYS (R359). -/
def decodeSys (w : Word) : Except Cause Reading :=
  let seg := Seg.ofNat? (w.extractLsb' 18 3).toNat
  let sr := w.extractLsb' 12 6
  let zs := w.extractLsb' 0 12 = 0
  match (w.extractLsb' 21 4).toNat with
  | 0 => zeroIf (w.extractLsb' 0 20 = 0) (.plain (if w.getLsbD 20 then .rftKill else .rft))
  | 1 => withField seg zs fun sg => .sys (.segld sg sr)
  | 2 => withField seg zs fun sg => .sys (.segrd sg sr)
  | 3 => zeroIf (w.extractLsb' 0 3 = 0) (.sys (.csrr (w.extractLsb' 15 6) (w.extractLsb' 3 12)))
  | 4 => zeroIf (w.extractLsb' 0 3 = 0) (.sys (.csrw (w.extractLsb' 15 6) (w.extractLsb' 3 12)))
  | 5 =>
      if w.getLsbD 8 then
        zeroIf (w.extractLsb' 0 8 = 0 ∧ w.extractLsb' 9 12 = 0) (.plain .tlbinvAll)
      else zeroIf (w.extractLsb' 0 8 = 0) (.sys (.tlbinv (w.extractLsb' 15 6) (w.extractLsb' 9 6)))
  | 6 => zeroIf (w.extractLsb' 0 17 = 0) (.sys (.idle (w.extractLsb' 17 4)))
  | _ => .error .reservedCode

/-- The instruction of a word of any major but SYS (R80), the chain bit aside. -/
def decodePlain (w : Word) : Except Cause Instr :=
  match (w.extractLsb' 25 6).toNat with
  | 0x00 => if w = 0 then .ok .nop else .error .nopBits
  | 0x01 => decodeSalu 1 w
  | 0x02 => decodeSalu 2 w
  | 0x03 => decodeSalu 3 w
  | 0x04 => decodeSalu 4 w
  | 0x05 => decodeSalu 5 w
  | 0x06 => decodeSalu64 w
  | 0x07 => decodeSimm 7 w
  | 0x08 => decodeSimm 8 w
  | 0x09 => decodeSmem w
  | 0x0A => decodeSpec w
  | 0x0B => decodeBranch w
  | 0x0C => decodeControl 0x0C w
  | 0x0D => decodeControl 0x0D w
  | 0x0E => decodeWait w
  | 0x0F => decodeControl 0x0F w
  | 0x10 => decodeBlock 0x10 w
  | 0x11 => decodeBlock 0x11 w
  | 0x12 => decodeVInt0 w
  | 0x13 => decodeVInt1 w
  | 0x14 => decodeVImm w
  | 0x15 => decodeVScal w
  | 0x16 => decodeVCmp w
  | 0x17 => decodePred w
  | 0x18 => decodeXLane w
  | 0x19 => decodeF32A w
  | 0x1A => decodeF32B w
  | 0x1B => decodeF64A w
  | 0x1C => decodeF64B w
  | 0x1D => decodeBF2 w
  | 0x1E => decodeFCmp w
  | 0x1F => decodeConvert false w
  | 0x20 => decodeConvert true w
  | 0x21 => decodePack 0x21 w
  | 0x22 => decodePack 0x22 w
  | 0x23 => decodeMemory 0x23 w
  | 0x24 => decodeMemory 0x24 w
  | 0x25 => decodeMemory 0x25 w
  | 0x26 => decodeMemory 0x26 w
  | 0x27 => decodeMemory 0x27 w
  | 0x28 => decodeMemory 0x28 w
  | 0x29 => decodeAtomic 0x29 w
  | 0x2A => decodeAtomic 0x2A w
  | 0x2B => decodeAtomic 0x2B w
  | 0x2C => decodeAtomic 0x2C w
  | 0x2D => decodeAtomic 0x2D w
  | 0x2E => decodeAtomic 0x2E w
  | 0x2F => decodeOrder 0x2F w
  | 0x30 => decodeOrder 0x30 w
  | 0x31 => decodeLattice 0x31 w
  | 0x32 => decodeLattice 0x32 w
  | 0x33 => decodeLattice 0x33 w
  | 0x34 => decodeCopy 0x34 w
  | 0x35 => decodeCopy 0x35 w
  | 0x36 => decodeCopy 0x36 w
  | 0x37 => decodeRelay w
  | 0x38 => decodeMatrix false w
  | 0x39 => decodeMatrix true w
  | 0x3A => decodeAcc w
  | _ => .error .reservedMajor

/-- What a word reads as, by its major opcode (R80), the chain bit aside. -/
def decodeReading (w : Word) : Except Cause Reading :=
  if (w.extractLsb' 25 6).toNat = 0x3B then decodeSys w else (decodePlain w).map .plain

/-- The instruction of a word (R80). -/
noncomputable def decode (w : Word) : Except Cause Instr := (decodeReading w).map Reading.instr

/-- The chain bit C of a word (R61). -/
def chainBit (w : Word) : Bool := w.getLsbD 31

/-- The word whose four bytes, lowest address first, are given (R62, R4). -/
def wordOfBytes (b0 b1 b2 b3 : Byte) : Word := b3 ++ b2 ++ b1 ++ b0

/-- The four bytes of a word, lowest address first (R62, R4). -/
def bytesOfWord (w : Word) : List Byte :=
  [w.extractLsb' 0 8, w.extractLsb' 8 8, w.extractLsb' 16 8, w.extractLsb' 24 8]

/-- The instruction at the head of a byte sequence and the bytes after it. -/
noncomputable def decodeBytes : List Byte → Option (Except Cause Instr × List Byte)
  | b0 :: b1 :: b2 :: b3 :: rest => some (decode (wordOfBytes b0 b1 b2 b3), rest)
  | _ => none

/-- The instruction the decoder reads from an instruction whose bits are `w`, numbered as spec/opcode_table.json numbers
them. Every instruction word has 32 bits; bits from `nbits` up are zero. An event row has no bits and no word. -/
noncomputable def decodeTableWord (nbits w : Nat) : Option Instr :=
  if nbits = 0 then none
  else
    match decodeBytes (bytesOfWord (BitVec.ofNat 32 (w % 2 ^ nbits))) with
    | some (.ok i, _) => some i
    | _ => none

/-! ## The encoder -/

/-- Chain bit and major above the body of 25 bits (R61). -/
def wordOf (c : Bool) (major : BitVec 6) (body : BitVec n) : Word := BitVec.ofBool c ++ major ++ body.setWidth 25

/-- Format V3 (R74). -/
def v3 (c : Bool) (major : BitVec 6) (d a b : VReg) (fn : BitVec 4) : Word := wordOf c major (d ++ a ++ b ++ fn)

/-- Format VS (R74). -/
def vs (c : Bool) (major : BitVec 6) (d a : VReg) (s : SReg) (fn : BitVec 5) : Word :=
  wordOf c major (d ++ a ++ s ++ fn)

/-- Format S3 (R77). -/
def s3 (c : Bool) (major : BitVec 6) (d : SDst) (a b : SSrc) (fn : BitVec 2) : Word :=
  wordOf c major (BitVec.ofBool d.fields.1 ++ d.fields.2 ++ BitVec.ofBool a.fields.1 ++ BitVec.ofBool a.fields.2.1 ++
    a.fields.2.2 ++ BitVec.ofBool b.fields.1 ++ BitVec.ofBool b.fields.2.1 ++ b.fields.2.2 ++ fn)

/-- Format SI (R77). -/
def si (c : Bool) (major : BitVec 6) (d : SDst) (fn : BitVec 2) (imm : BitVec 16) : Word :=
  wordOf c major (BitVec.ofBool d.fields.1 ++ d.fields.2 ++ fn ++ imm)

/-- Format SM (R77). -/
def sm (c : Bool) (major : BitVec 6) (d b : SReg) (fn : BitVec 2) (imm : BitVec 11) : Word :=
  wordOf c major (d ++ b ++ fn ++ imm)

/-- Format M (R76). -/
def fm (c : Bool) (major : BitVec 6) (x o : VReg) (b : SReg) (fn : BitVec n) : Word :=
  wordOf c major (x ++ o ++ b ++ fn.setWidth 5)

/-- Format X (R79): the function above an operand body of 21 bits. -/
def fx (c : Bool) (major : BitVec 6) (fn : BitVec 4) (body : BitVec n) : Word :=
  wordOf c major (fn ++ body.setWidth 21)

/-- Format CV (R74). -/
def cv (c : Bool) (major : BitVec 6) (d a : VReg) (f s : Fmt) (r : Rnd) : Word :=
  wordOf c major (d ++ a ++ BitVec.ofNat 4 f.code ++ BitVec.ofNat 4 s.code ++ BitVec.ofNat 3 r.code)

/-- The word of a well-formed instruction, chain bit `c` (R61, R74 to R79 and the class chapters). Events have no
word, and the all-zero NOP has no chain bit. -/
def encode (c : Bool) (i : Instr) : Option Word :=
  match i with
  | .nop => if c then none else some 0
  | .add d a b => some (s3 c 0x01 d a b 0)
  | .sub d a b => some (s3 c 0x01 d a b 1)
  | .and d a b => some (s3 c 0x01 d a b 2)
  | .or d a b => some (s3 c 0x01 d a b 3)
  | .xor d a b => some (s3 c 0x02 d a b 0)
  | .shl d a b => some (s3 c 0x02 d a b 1)
  | .shrN d a b => some (s3 c 0x02 d a b 2)
  | .shrI d a b => some (s3 c 0x02 d a b 3)
  | .minI d a b => some (s3 c 0x03 d a b 0)
  | .maxI d a b => some (s3 c 0x03 d a b 1)
  | .minN d a b => some (s3 c 0x03 d a b 2)
  | .maxN d a b => some (s3 c 0x03 d a b 3)
  | .mul d a b => some (s3 c 0x04 d a b 0)
  | .mulhI d a b => some (s3 c 0x04 d a b 1)
  | .mulhN d a b => some (s3 c 0x04 d a b 2)
  | .cmpEq d a b => some (s3 c 0x04 d a b 3)
  | .cmpNe d a b => some (s3 c 0x05 d a b 0)
  | .cmpLtI d a b => some (s3 c 0x05 d a b 1)
  | .cmpLtN d a b => some (s3 c 0x05 d a b 2)
  | .add64 d a b => some (s3 c 0x06 (.reg d) (.reg a) (.reg b) 0)
  | .sub64 d a b => some (s3 c 0x06 (.reg d) (.reg a) (.reg b) 1)
  | .shl64 d a b => some (s3 c 0x06 (.reg d) (.reg a) (.reg b) 2)
  | .shr64N d a b => some (s3 c 0x06 (.reg d) (.reg a) (.reg b) 3)
  | .movi d imm => some (si c 0x07 d 0 imm)
  | .movh d imm => some (si c 0x07 (.reg d) 1 imm)
  | .addi d imm => some (si c 0x07 (.reg d) 2 imm)
  | .andi d imm => some (si c 0x07 (.reg d) 3 imm)
  | .ori d imm => some (si c 0x08 (.reg d) 0 imm)
  | .xori d imm => some (si c 0x08 (.reg d) 1 imm)
  | .cmpiEq d imm => some (si c 0x08 (.reg d) 2 imm)
  | .cmpiLtI d imm => some (si c 0x08 (.reg d) 3 imm)
  | .sld32 d base imm => some (sm c 0x09 d base 0 imm)
  | .sld64 d base imm => some (sm c 0x09 d base 1 imm)
  | .sldK d base imm => some (sm c 0x09 d base 2 imm)
  | .sst src base imm => some (sm c 0x09 src base 3 imm)
  | .vaddI32 d a b => some (v3 c 0x12 d a b 0)
  | .vsubI32 d a b => some (v3 c 0x12 d a b 1)
  | .vmulI32 d a b => some (v3 c 0x12 d a b 2)
  | .vmulhI32 d a b => some (v3 c 0x12 d a b 3)
  | .vmulhN32 d a b => some (v3 c 0x12 d a b 4)
  | .vminI32 d a b => some (v3 c 0x12 d a b 5)
  | .vmaxI32 d a b => some (v3 c 0x12 d a b 6)
  | .vminN32 d a b => some (v3 c 0x12 d a b 7)
  | .vmaxN32 d a b => some (v3 c 0x12 d a b 8)
  | .vandB32 d a b => some (v3 c 0x12 d a b 9)
  | .vorB32 d a b => some (v3 c 0x12 d a b 10)
  | .vxorB32 d a b => some (v3 c 0x12 d a b 11)
  | .vshlB32 d a b => some (v3 c 0x12 d a b 12)
  | .vshrN32 d a b => some (v3 c 0x12 d a b 13)
  | .vshrI32 d a b => some (v3 c 0x12 d a b 14)
  | .vabsdI32 d a b => some (v3 c 0x12 d a b 15)
  | .vaddsI32 d a b => some (v3 c 0x13 d a b 0)
  | .vsubsI32 d a b => some (v3 c 0x13 d a b 1)
  | .vaddsN32 d a b => some (v3 c 0x13 d a b 2)
  | .vsubsN32 d a b => some (v3 c 0x13 d a b 3)
  | .vbfeN32 d a b => some (v3 c 0x13 d a b 4)
  | .vbfeI32 d a b => some (v3 c 0x13 d a b 5)
  | .vbfiB32 d a b => some (v3 c 0x13 d a b 6)
  | .vpopcB32 d a => some (v3 c 0x13 d a 0 7)
  | .vclzB32 d a => some (v3 c 0x13 d a 0 8)
  | .vbrevB32 d a => some (v3 c 0x13 d a 0 9)
  | .vaddI64 d a b => some (v3 c 0x13 d a b 10)
  | .vsubI64 d a b => some (v3 c 0x13 d a b 11)
  | .vshlB64 d a b => some (v3 c 0x13 d a b 12)
  | .vshrN64 d a b => some (v3 c 0x13 d a b 13)
  | .vshrI64 d a b => some (v3 c 0x13 d a b 14)
  | .vaddI32Vs d a s => some (vs c 0x15 d a s 0)
  | .vsubI32Vs d a s => some (vs c 0x15 d a s 1)
  | .vmulI32Vs d a s => some (vs c 0x15 d a s 2)
  | .vmulhI32Vs d a s => some (vs c 0x15 d a s 3)
  | .vmulhN32Vs d a s => some (vs c 0x15 d a s 4)
  | .vminI32Vs d a s => some (vs c 0x15 d a s 5)
  | .vmaxI32Vs d a s => some (vs c 0x15 d a s 6)
  | .vminN32Vs d a s => some (vs c 0x15 d a s 7)
  | .vmaxN32Vs d a s => some (vs c 0x15 d a s 8)
  | .vandB32Vs d a s => some (vs c 0x15 d a s 9)
  | .vorB32Vs d a s => some (vs c 0x15 d a s 10)
  | .vxorB32Vs d a s => some (vs c 0x15 d a s 11)
  | .vshlB32Vs d a s => some (vs c 0x15 d a s 12)
  | .vshrN32Vs d a s => some (vs c 0x15 d a s 13)
  | .vshrI32Vs d a s => some (vs c 0x15 d a s 14)
  | .vabsdI32Vs d a s => some (vs c 0x15 d a s 15)
  | .vaddsI32Vs d a s => some (vs c 0x15 d a s 16)
  | .vsubsI32Vs d a s => some (vs c 0x15 d a s 17)
  | .vaddsN32Vs d a s => some (vs c 0x15 d a s 18)
  | .vsubsN32Vs d a s => some (vs c 0x15 d a s 19)
  | .vbfeN32Vs d a s => some (vs c 0x15 d a s 20)
  | .vbfeI32Vs d a s => some (vs c 0x15 d a s 21)
  | .vbfiB32Vs d a s => some (vs c 0x15 d a s 22)
  | .vaddI64Vs d a s => some (vs c 0x15 d a s 26)
  | .vsubI64Vs d a s => some (vs c 0x15 d a s 27)
  | .vshlB64Vs d a s => some (vs c 0x15 d a s 28)
  | .vshrN64Vs d a s => some (vs c 0x15 d a s 29)
  | .vshrI64Vs d a s => some (vs c 0x15 d a s 30)
  | .vbcastB32 d s => some (vs c 0x15 d 0 s 31)
  | .vfaddF32 d a b => some (v3 c 0x19 d a b 0)
  | .vfsubF32 d a b => some (v3 c 0x19 d a b 1)
  | .vfmulF32 d a b => some (v3 c 0x19 d a b 2)
  | .vffmaF32 d a b => some (v3 c 0x19 d a b 3)
  | .vffnmaF32 d a b => some (v3 c 0x19 d a b 4)
  | .vfminF32 d a b => some (v3 c 0x19 d a b 5)
  | .vfmaxF32 d a b => some (v3 c 0x19 d a b 6)
  | .vfabsF32 d a => some (v3 c 0x19 d a 0 7)
  | .vfnegF32 d a => some (v3 c 0x19 d a 0 8)
  | .vfcopysignF32 d a b => some (v3 c 0x19 d a b 9)
  | .vfrintF32 d a => some (v3 c 0x19 d a 0 10)
  | .vfaddF64 d a b => some (v3 c 0x1B d a b 0)
  | .vfsubF64 d a b => some (v3 c 0x1B d a b 1)
  | .vfmulF64 d a b => some (v3 c 0x1B d a b 2)
  | .vffmaF64 d a b => some (v3 c 0x1B d a b 3)
  | .vffnmaF64 d a b => some (v3 c 0x1B d a b 4)
  | .vfminF64 d a b => some (v3 c 0x1B d a b 5)
  | .vfmaxF64 d a b => some (v3 c 0x1B d a b 6)
  | .vfabsF64 d a => some (v3 c 0x1B d a 0 7)
  | .vfnegF64 d a => some (v3 c 0x1B d a 0 8)
  | .vfcopysignF64 d a b => some (v3 c 0x1B d a b 9)
  | .vfrintF64 d a => some (v3 c 0x1B d a 0 10)
  | .vfdivF32 d a b => some (v3 c 0x1A d a b 0)
  | .vfsqrtF32 d a => some (v3 c 0x1A d a 0 1)
  | .vfrcpF32 d a => some (v3 c 0x1A d a 0 2)
  | .vfrsqF32 d a => some (v3 c 0x1A d a 0 3)
  | .vfexp2F32 d a => some (v3 c 0x1A d a 0 4)
  | .vflog2F32 d a => some (v3 c 0x1A d a 0 5)
  | .vfsinF32 d a => some (v3 c 0x1A d a 0 6)
  | .vfcosF32 d a => some (v3 c 0x1A d a 0 7)
  | .vftanhF32 d a => some (v3 c 0x1A d a 0 8)
  | .vfdivF64 d a b => some (v3 c 0x1C d a b 0)
  | .vfsqrtF64 d a => some (v3 c 0x1C d a 0 1)
  | .vfrcpF64 d a => some (v3 c 0x1C d a 0 2)
  | .vfrsqF64 d a => some (v3 c 0x1C d a 0 3)
  | .vfaddBf16 d a b => some (v3 c 0x1D d a b 0)
  | .vfsubBf16 d a b => some (v3 c 0x1D d a b 1)
  | .vfmulBf16 d a b => some (v3 c 0x1D d a b 2)
  | .vffmaBf16 d a b => some (v3 c 0x1D d a b 3)
  | .vffnmaBf16 d a b => some (v3 c 0x1D d a b 4)
  | .vfminBf16 d a b => some (v3 c 0x1D d a b 5)
  | .vfmaxBf16 d a b => some (v3 c 0x1D d a b 6)
  | .vfabsBf16 d a => some (v3 c 0x1D d a 0 7)
  | .vfnegBf16 d a => some (v3 c 0x1D d a 0 8)
  | .srd d s => some (wordOf c 0x0A (d ++ (0 : BitVec 1) ++ s ++ (0 : BitVec 8)))
  | .swr a s => some (wordOf c 0x0A (a ++ (1 : BitVec 1) ++ s ++ (0 : BitVec 8)))
  | .bra o => some (wordOf c 0x0B ((0 : BitVec 3) ++ (0 : BitVec 6) ++ o))
  | .bz s o => some (wordOf c 0x0B ((1 : BitVec 3) ++ s ++ o))
  | .bnz s o => some (wordOf c 0x0B ((2 : BitVec 3) ++ s ++ o))
  | .bany p o => some (wordOf c 0x0B ((3 : BitVec 3) ++ (0 : BitVec 3) ++ p ++ o))
  | .ball p o => some (wordOf c 0x0B ((4 : BitVec 3) ++ (0 : BitVec 3) ++ p ++ o))
  | .bnone p o => some (wordOf c 0x0B ((5 : BitVec 3) ++ (0 : BitVec 3) ++ p ++ o))
  | .bdiv p o => some (wordOf c 0x0B ((6 : BitVec 3) ++ (0 : BitVec 3) ++ p ++ o))
  | .call t => some (fx c 0x0C 0 ((0 : BitVec 1) ++ t))
  | .ret => some (fx c 0x0C 1 (0 : BitVec 21))
  | .jmpr a => some (fx c 0x0C 2 (a ++ (0 : BitVec 15)))
  | .mfromp d => some (fx c 0x0D 0 (d ++ (0 : BitVec 18)))
  | .mtop a => some (fx c 0x0D 1 (a ++ (0 : BitVec 18)))
  | .wait ld st cp tm => some (wordOf c 0x0E (ld ++ st ++ cp ++ tm ++ (0 : BitVec 1)))
  | .yield => some (fx c 0x0F 0 (0 : BitVec 21))
  | .exit => some (fx c 0x0F 1 (0 : BitVec 21))
  | .trap n => some (fx c 0x0F 2 ((0 : BitVec 13) ++ n))
  | .brk => some (fx c 0x0F 3 (0 : BitVec 21))
  | .attach => some (fx c 0x10 0 (0 : BitVec 21))
  | .detach d => some (fx c 0x10 1 (d ++ (0 : BitVec 18)))
  | .regroup d a v n => some (fx c 0x10 2 (d ++ a ++ v ++ n))
  | .launch d b q => some (fx c 0x10 3 (d ++ b ++ q ++ (0 : BitVec 3)))
  | .hops d a b => some (fx c 0x10 4 (d ++ a ++ b ++ (0 : BitVec 3)))
  | .barArrive b d => some (fx c 0x11 0 (b ++ d ++ (0 : BitVec 11)))
  | .barWait b a => some (fx c 0x11 1 (b ++ a ++ (0 : BitVec 11)))
  | .barSync b => some (fx c 0x11 2 (b ++ (0 : BitVec 17)))
  | .barTry b a p => some (fx c 0x11 3 (b ++ a ++ p ++ (0 : BitVec 8)))
  | .vaddI32Vi d a i => some (wordOf c 0x14 (d ++ a ++ (0 : BitVec 2) ++ i))
  | .vandB32Vi d a i => some (wordOf c 0x14 (d ++ a ++ (1 : BitVec 2) ++ i))
  | .vshlB32Vi d a i => some (wordOf c 0x14 (d ++ a ++ (2 : BitVec 2) ++ (0 : BitVec 4) ++ i))
  | .vshrN32Vi d a i => some (wordOf c 0x14 (d ++ a ++ (3 : BitVec 2) ++ (0 : BitVec 4) ++ i))
  | .vcmp p a b cc ty =>
      some (wordOf c 0x16 (p ++ a ++ b ++ BitVec.ofNat 4 cc.code ++ BitVec.ofNat 4 ty.code))
  | .vfcmp p a b cc ty =>
      some (wordOf c 0x1E (p ++ a ++ b ++ BitVec.ofNat 4 cc.code ++ BitVec.ofNat 4 ty.code))
  | .pand d a b => some (fx c 0x17 0 (d ++ a ++ b ++ (0 : BitVec 12)))
  | .por d a b => some (fx c 0x17 1 (d ++ a ++ b ++ (0 : BitVec 12)))
  | .pxor d a b => some (fx c 0x17 2 (d ++ a ++ b ++ (0 : BitVec 12)))
  | .pnot d a => some (fx c 0x17 3 (d ++ a ++ (0 : BitVec 15)))
  | .pmov d a => some (fx c 0x17 4 (d ++ a ++ (0 : BitVec 15)))
  | .vfromp d a => some (fx c 0x17 5 (d ++ a ++ (0 : BitVec 11)))
  | .vtop d a => some (fx c 0x17 6 (d ++ a ++ (0 : BitVec 11)))
  | .shflIdx d a p w => some (fx c 0x18 0 (d ++ a ++ p ++ BitVec.ofNat 3 w.code ++ (0 : BitVec 1)))
  | .shflUp d a p w => some (fx c 0x18 1 (d ++ a ++ p ++ BitVec.ofNat 3 w.code ++ (0 : BitVec 1)))
  | .shflDown d a p w => some (fx c 0x18 2 (d ++ a ++ p ++ BitVec.ofNat 3 w.code ++ (0 : BitVec 1)))
  | .shflXor d a p w => some (fx c 0x18 3 (d ++ a ++ p ++ BitVec.ofNat 3 w.code ++ (0 : BitVec 1)))
  | .voteAny d p => some (fx c 0x18 4 (d ++ p ++ (0 : BitVec 12)))
  | .voteAll d p => some (fx c 0x18 5 (d ++ p ++ (0 : BitVec 12)))
  | .ballot d p => some (fx c 0x18 6 (d ++ p ++ (0 : BitVec 12)))
  | .vscanIncl d a op w =>
      some (fx c 0x18 7 (d ++ a ++ BitVec.ofNat 3 op.code ++ BitVec.ofNat 3 w.code ++ (0 : BitVec 1)))
  | .vscanExcl d a op w =>
      some (fx c 0x18 8 (d ++ a ++ BitVec.ofNat 3 op.code ++ BitVec.ofNat 3 w.code ++ (0 : BitVec 1)))
  | .vred d a op => some (fx c 0x18 9 (d ++ a ++ BitVec.ofNat 3 op.code ++ (0 : BitVec 5)))
  | .cvts d a f s r => some (cv c 0x1F d a f s r)
  | .cvti d a f s r => some (cv c 0x20 d a f s r)
  | .pack4 d a => some (fx c 0x21 0 (d ++ a ++ (0 : BitVec 7)))
  | .unpack4 d a sx => some (fx c 0x21 1 (d ++ a ++ BitVec.ofBool sx ++ (0 : BitVec 6)))
  | .pack6 d a => some (fx c 0x21 2 (d ++ a ++ (0 : BitVec 7)))
  | .unpack6 d a sx => some (fx c 0x21 3 (d ++ a ++ BitVec.ofBool sx ++ (0 : BitVec 6)))
  | .pack8 d a => some (fx c 0x21 4 (d ++ a ++ (0 : BitVec 7)))
  | .unpack8 d a sx => some (fx c 0x21 5 (d ++ a ++ BitVec.ofBool sx ++ (0 : BitVec 6)))
  | .bscale d a f => some (fx c 0x22 0 (d ++ a ++ BitVec.ofNat 4 f.code ++ (0 : BitVec 3)))
  | .scapplyMul d a b => some (fx c 0x22 1 (d ++ a ++ b))
  | .scapplyDiv d a b => some (fx c 0x22 2 (d ++ a ++ b))
  | .compress d a f => some (fx c 0x22 3 (d ++ a ++ BitVec.ofNat 4 f.code ++ (0 : BitVec 3)))
  | .tidsetImm i => some (fx c 0x22 4 ((1 : BitVec 1) ++ i ++ (0 : BitVec 12)))
  | .tidsetReg a => some (fx c 0x22 4 ((0 : BitVec 1) ++ a ++ (0 : BitVec 14)))
  | .ldg x o b n f => some (fm c 0x23 x o b (BitVec.ofNat 3 n.code ++ BitVec.ofNat 2 f.code))
  | .stg x o b n f => some (fm c 0x24 x o b (BitVec.ofNat 3 n.code ++ BitVec.ofNat 2 f.code))
  | .lds x o b n f => some (fm c 0x25 x o b (BitVec.ofNat 3 n.code ++ BitVec.ofNat 2 f.code))
  | .sts x o b n f => some (fm c 0x26 x o b (BitVec.ofNat 3 n.code ++ BitVec.ofNat 2 f.code))
  | .ldc x o b n f => some (fm c 0x27 x o b (BitVec.ofNat 3 n.code ++ BitVec.ofNat 2 f.code))
  | .stc x o b n f => some (fm c 0x28 x o b (BitVec.ofNat 3 n.code ++ BitVec.ofNat 2 f.code))
  | .lda x o b wide sc => some (fm c 0x29 x o b ((0 : BitVec 1) ++ BitVec.ofBool wide ++ BitVec.ofNat 3 sc.code))
  | .stl x o b wide sc => some (fm c 0x2A x o b ((0 : BitVec 1) ++ BitVec.ofBool wide ++ BitVec.ofNat 3 sc.code))
  | .atom x o b fn => some (fm c 0x2B x o b (BitVec.ofNat 5 fn.code))
  | .atoma x o b fn => some (fm c 0x2C x o b (BitVec.ofNat 5 fn.code))
  | .atoms x o b fn => some (fm c 0x2D x o b (BitVec.ofNat 5 fn.code))
  | .red x o b fn => some (fm c 0x2E x o b (BitVec.ofNat 5 fn.code))
  | .tagl d a p => some (fx c 0x2F 0 (d ++ a ++ p ++ (0 : BitVec 6)))
  | .tags a b => some (fx c 0x2F 1 (a ++ b ++ (0 : BitVec 9)))
  | .tagi a => some (fx c 0x2F 2 (a ++ (0 : BitVec 15)))
  | .fence sem sc => some (fx c 0x30 0 (BitVec.ofNat 2 sem.code ++ BitVec.ofNat 3 sc.code ++ (0 : BitVec 16)))
  | .ifence => some (fx c 0x30 1 (0 : BitVec 21))
  | .publish b => some (fx c 0x30 2 (b ++ (0 : BitVec 15)))
  | .flushh b a => some (fx c 0x30 3 (b ++ a ++ (0 : BitVec 9)))
  | .ljoin x o b rel ty => some (fm c 0x31 x o b (BitVec.ofBool rel ++ BitVec.ofNat 4 ty.code))
  | .lld x o b n => some (fm c 0x32 x o b ((0 : BitVec 2) ++ BitVec.ofNat 3 n.code))
  | .lldAcq x o b n => some (fm c 0x32 x o b ((1 : BitVec 2) ++ BitVec.ofNat 3 n.code))
  | .lldge x o b n => some (fm c 0x32 x o b ((2 : BitVec 2) ++ BitVec.ofNat 3 n.code))
  | .ltry x o b p => some (fm c 0x32 x o b ((3 : BitVec 2) ++ p))
  | .lsta x o b ty => some (fm c 0x33 x o b ((0 : BitVec 1) ++ BitVec.ofNat 4 ty.code))
  | .linc o b => some (fm c 0x33 0 o b (0x10 : BitVec 5))
  | .lsync b => some (fm c 0x33 0 0 b (0x11 : BitVec 5))
  | .tcopy a i m h => some (fx c 0x34 0 (a ++ i ++ m ++ h))
  | .copy a dir m e h =>
      some (fx c 0x35 0 (a ++ BitVec.ofNat 3 dir.code ++ m ++ BitVec.ofBool e ++ h))
  | .persist => some (fx c 0x35 1 (0 : BitVec 21))
  | .tryw m a p k => some (fx c 0x36 0 (m ++ a ++ p ++ k ++ (0 : BitVec 3)))
  | .bmtest m a p => some (fx c 0x36 1 (m ++ a ++ p ++ (0 : BitVec 7)))
  | .bmclr m a => some (fx c 0x36 2 (m ++ a ++ (0 : BitVec 10)))
  | .rpush h a => some (s3 c 0x37 (.chan h) a (.reg 0) 0)
  | .rpop d h pop => some (s3 c 0x37 (.reg d) (if pop then .pop h else .peek h) (.reg 0) 1)
  | .rfree d h n => some (s3 c 0x37 (.reg d) (.peek h) (.reg n) 2)
  | .rstat d h => some (s3 c 0x37 (.reg d) (.peek h) (.reg 0) 3)
  | .mma r fa fb => some (fx c 0x38 0 (r ++ BitVec.ofNat 4 fa.code ++ BitVec.ofNat 4 fb.code ++ (0 : BitVec 6)))
  | .mmas r fa fb => some (fx c 0x39 0 (r ++ BitVec.ofNat 4 fa.code ++ BitVec.ofNat 4 fb.code ++ (0 : BitVec 6)))
  | .accalloc p d a => some (fx c 0x3A 0 (p ++ d ++ a ++ (0 : BitVec 6)))
  | .accfree a b => some (fx c 0x3A 1 (a ++ b ++ (0 : BitVec 9)))
  | .accz a b => some (fx c 0x3A 2 (a ++ b ++ (0 : BitVec 9)))
  | .accrdSat d o f r => some (fx c 0x3A 3 (d ++ o ++ BitVec.ofNat 4 f.code ++ BitVec.ofNat 3 r.code))
  | .accrdInf d o f r => some (fx c 0x3A 4 (d ++ o ++ BitVec.ofNat 4 f.code ++ BitVec.ofNat 3 r.code))
  | .accwr x o f => some (fx c 0x3A 5 (x ++ o ++ BitVec.ofNat 2 f.code ++ (0 : BitVec 5)))
  | .wpin p a f s => some (fx c 0x3A 6 (p ++ a ++ BitVec.ofNat 4 f.code ++ BitVec.ofBool s ++ (0 : BitVec 7)))
  | .wunpin a f s =>
      some (fx c 0x3A 7 ((0 : BitVec 3) ++ a ++ BitVec.ofNat 4 f.code ++ BitVec.ofBool s ++ (0 : BitVec 7)))
  | .opfence => some (fx c 0x3A 8 (0 : BitVec 21))
  | .rft => some (fx c 0x3B 0 (0 : BitVec 21))
  | .rftKill => some (fx c 0x3B 0 ((1 : BitVec 1) ++ (0 : BitVec 20)))
  | .segld sg r => some (fx c 0x3B 1 (BitVec.ofNat 3 sg.code ++ r ++ (0 : BitVec 12)))
  | .segrd sg r => some (fx c 0x3B 2 (BitVec.ofNat 3 sg.code ++ r ++ (0 : BitVec 12)))
  | .csrr d n => some (fx c 0x3B 3 (d ++ n ++ (0 : BitVec 3)))
  | .csrw a n => some (fx c 0x3B 4 (a ++ n ++ (0 : BitVec 3)))
  | .tlbinv b a => some (fx c 0x3B 5 (b ++ a ++ (0 : BitVec 9)))
  | .tlbinvAll => some (fx c 0x3B 5 (0x100 : BitVec 21))
  | .idle k => some (fx c 0x3B 6 (k ++ (0 : BitVec 17)))
  | .tvecWrite _ _ => none
  | .epcWrite _ _ _ => none
  | .reductionWindowWrite _ _ _ _ _ => none
  | .debugGoRelease _ _ => none
  | .debugGoStep _ _ _ => none
  | .packetFetch _ _ _ => none
  | .splitStarvation _ _ _ => none
  | .backwardBranchYield _ _ _ => none
  | .loadCompletion _ _ _ _ _ => none
  | .storeCompletion _ _ _ _ _ => none
  | .tmCompletion _ _ _ _ => none
  | .recoverableFaultDelivery _ _ _ => none
  | .groupSlotRelease _ _ => none
  | .launchHeaderCheck _ _ => none
  | .dependenceRead _ _ _ => none
  | .dependenceRecheckTimer _ _ _ => none
  | .blockResidency _ _ _ _ _ => none
  | .blockEnd _ => none
  | .stageGrowth _ _ => none
  | .stageShrink _ _ => none
  | .shrinkPop _ _ _ => none
  | .eventBacklogDrain _ => none
  | .faultQueueHeldPost _ => none
  | .faultServiceEntry _ _ _ _ _ => none
  | .reductionLineDelivery _ _ _ _ => none
  | .lapBegin _ _ _ => none
  | .latticeExchange _ _ _ _ => none
  | .fabricSnapshotArrival _ _ _ _ _ => none
  | .ltryExpiry _ _ _ => none
  | .copyTransferStart _ => none
  | .copyChunkDone _ _ _ _ => none
  | .copyCompletion _ _ => none
  | .copyPushGrant _ _ => none
  | .persistDurable _ _ _ => none
  | .trywExpiry _ _ _ => none
  | .matrixPassGrant _ _ => none
  | .matrixOperationComplete _ _ => none
  | .preemptionRequest _ _ _ => none
  | .drainToSave _ => none
  | .blockRestore _ _ _ _ _ => none
  | .hotSpareTakeover _ => none
  | .hotSpareResume _ => none
  | .stepEnd _ _ => none
  | .idleExpiry _ _ _ => none
  | .tlbMiss _ _ _ _ => none
  | .tlbFill _ _ _ _ _ => none
  | .frameRecordChange _ _ _ => none
  | .partitionTableWrite _ _ _ => none
  | .rosterTableWrite _ _ _ => none
  | .pacerEntryWrite _ _ _ => none
  | .regionDescriptorWrite _ _ _ => none
  | .codeImageMeasure _ _ _ => none
  | .attestationRequest _ _ => none
  | .serviceCoreTakeover _ => none
  | .pacerWindow _ => none
  | .pacerBudgetExhausted _ _ => none
  | .checkpointTimer _ => none
  | .checkpointCommit _ _ _ => none
  | .hostCallReplay _ _ _ _ _ _ => none
  | .hostCallReject _ _ _ _ _ _ => none
  | .hostCallKill _ _ _ _ _ _ _ => none
  | .hostCallMove _ _ _ _ _ _ _ => none
  | .hostCallCompressionHint _ _ _ _ _ => none
  | .hostCallCheckpoint _ _ _ _ _ => none
  | .hostCallPreempt _ _ _ _ _ _ _ => none
  | .hostRead _ _ => none
  | .hostWrite _ _ _ _ => none
  | .commandSlotAccept _ => none
  | .afterRelease _ => none
  | .launchCommand _ => none
  | .hostCopy _ _ _ _ => none
  | .hostCopyComplete _ _ => none
  | .mapProposal _ => none
  | .waitValue _ => none
  | .waitValueSatisfied _ _ _ => none
  | .waitValueTimeout _ _ => none
  | .publishRequest _ _ => none
  | .contextCreate _ _ _ => none
  | .contextDestroy _ => none
  | .contextPreempt _ => none
  | .contextResume _ => none
  | .setCheckpointInterval _ => none
  | .setFrameAllowance _ => none
  | .registerReservation _ => none
  | .registerCallRing _ => none
  | .debugClaim _ => none
  | .debugRelease _ => none
  | .debugRead _ => none
  | .debugWrite _ => none
  | .checkpointNow _ => none
  | .persistentRegionCreate _ _ => none
  | .persistentRegionAttach _ => none
  | .persistentRegionDetach _ => none
  | .persistentRegionDestroy _ => none
  | .frontEndResume _ => none
  | .evackWrite _ _ => none
  | .tenantPageMoveStart _ _ _ _ => none
  | .tenantPageMoveCommit _ _ _ _ => none
  | .extentAdd _ _ => none
  | .extentRelease _ _ => none
  | .linkDown _ => none
  | .linkRetrain _ => none
  | .packageFailure _ _ _ => none
  | .parityRebuildDone _ => none
  | .computeReset _ => none
  | .nearTierWatchdog _ _ => none
  | .computeDomainUp => none
  | .moduleReset _ => none
  | .powerUp _ => none
  | .correctedError _ _ _ => none
  | .frameErrorThreshold _ _ => none
  | .patrolScrub _ => none
  | .uncorrectableError _ _ => none
  | .powerSample _ => none
  | .powerLimitLog => none
  | .powerCapSet _ => none
  | .powerLoss _ => none
  | .tierMigrationStart _ _ _ => none
  | .migrationSwitchCommit _ => none
  | .peerFabricRequest _ _ _ _ _ _ _ _ => none
  | .tlbinvCompletion _ _ _ => none
  | .hostFileFetchReply _ _ _ _ => none
  | .extentAccept _ _ => none

end Sys2Proof
end

