-- ==== Sys2Proof/Config.lean ====
section
/-!
DEFINITION. What the spec leaves open: constants without a body. Nothing can be proved of their values, so whatever is
proved holds for every value. Each is named in the assumption log.
-/

namespace Sys2Proof.Config

/-- The undefined value (R3) number `key` that the word at `tick` meets or leaves. -/
opaque undefined (tick key : Nat) : Word

/-- What lane `lane` of vector register `reg` holds in member `member` of block `block` before it is first written (R133
gives vector registers no value at ATTACH). -/
opaque unsetVector (block member reg lane : Nat) : Word

/-- Whether the fetch at `tick` takes the word that the instruction cache holds for an address (true) or reads the word
anew (R14, R259). -/
opaque staleFetch (tick key : Nat) : Bool

/-- Whether the constant-form load performed at `tick` takes the word that the constant cache holds (R101). -/
opaque staleConst (tick key : Nat) : Bool

/-- The bits that approximate function `fn` delivers for an operand of `width` bits, where they meet the bound of R176
(R169, R175). -/
opaque approximate (fn : Nat) (width operand : DWord) : DWord

/-- What a core's clock count stands at when the module's clock stands at 0: cores share no time base (R17, R94). -/
opaque clockStart (core : Nat) : Nat

/-- Which of the two parity groups of its far-tier die holds a far-tier frame (R19, R430). -/
opaque parityGroup (frame : Nat) : Nat

/-- Section `key` of a save image's body, whose layout VERSION leaves to the device (R368). -/
opaque imageSection (tick key : Nat) : List Byte

/-- What AES-256-GCM makes of bytes under the image key of a context: the ciphertext and the tag, from the domain and the number
of the IV and the associated data (R369, R405). -/
opaque sealed (context domain number : Nat) (associated plain : List Byte) : List Byte × List Byte

/-- The measurement of a code image chained onto the one before it: a SHA-384 digest (R393). -/
opaque measure (before : BitVec 384) (image : List Byte) : BitVec 384

/-- The digest of the service-core firmware (R394). -/
opaque firmwareDigest : BitVec 384

/-- The SHA-384 digest of a partition entry and a roster (R394). -/
opaque tablesDigest (entry : QWord) (roster : List Nat) : BitVec 384

/-- The ECDSA P-384 signature over a report's bytes under the security core's key, r then s (R394). -/
opaque signature (report : List Byte) : BitVec 768

end Sys2Proof.Config
end

