-- ==== Sys2Proof/Machine/Table.lean ====
section
/-!
DEFINITION. Two collections of plain data the state is made of: tables by number, kept in ascending order of key, and
byte memories in one canonical form (R4, R249).
-/

namespace Sys2Proof.Machine

/-- A table: pairs of a number and a value, in strictly ascending order of number. -/
abbrev Table (α : Type) := List (Nat × α)

/-- The value listed under `k`. -/
def Table.at? : Table α → Nat → Option α
  | [], _ => none
  | (j, v) :: rest, k => if j = k then some v else Table.at? rest k

/-- The value listed under `k`, or `d` when none is. -/
def Table.get (t : Table α) (k : Nat) (d : α) : α := (t.at? k).getD d

/-- The table with `v` under `k`. -/
def Table.set : Table α → Nat → α → Table α
  | [], k, v => [(k, v)]
  | (j, w) :: rest, k, v =>
      if k < j then (k, v) :: (j, w) :: rest
      else if j = k then (k, v) :: rest
      else (j, w) :: Table.set rest k v

/-- The table without `k`. -/
def Table.erase : Table α → Nat → Table α
  | [], _ => []
  | (j, w) :: rest, k => if j = k then Table.erase rest k else (j, w) :: Table.erase rest k

/-- The values of a table in ascending order of key. -/
def Table.values (t : Table α) : List α := t.map Prod.snd

/-- The keys of a table in ascending order. -/
def Table.keys (t : Table α) : List Nat := t.map Prod.fst

/-- Every value changed by `f`, the keys kept. -/
def Table.mapVal (t : Table α) (f : Nat → α → β) : Table β := t.map fun e => (e.1, f e.1 e.2)

/-- A byte memory: the bytes that differ from zero, in strictly ascending order of address. An unlisted address reads 0:
frames, tenant memory, scratchpad slots and flash regions are zero-filled before use (R125, R391, R429, R435, R436). -/
abbrev Memory := List Host.Cell

/-- What an address reads as when nothing is listed for it. -/
def Memory.unlisted : Byte := 0

/-- The canonical form: addresses strictly rising from above `low`, no listed byte equal to an unlisted one. -/
def Memory.wfFrom : Nat → Memory → Bool
  | _, [] => true
  | low, (a, b) :: rest => low ≤ a && b != Memory.unlisted && Memory.wfFrom (a + 1) rest

/-- The canonical form of a memory. -/
def Memory.wf (m : Memory) : Bool := Memory.wfFrom 0 m

/-- The byte at an address. -/
def Memory.byte : Memory → Nat → Byte
  | [], _ => Memory.unlisted
  | (j, b) :: rest, a => if j = a then b else Memory.byte rest a

/-- The memory without a listed byte at `a`. -/
def Memory.drop : Memory → Nat → Memory
  | [], _ => []
  | (j, b) :: rest, a => if j = a then Memory.drop rest a else (j, b) :: Memory.drop rest a

/-- The memory with byte `v`, other than the unlisted byte, at `a`. -/
def Memory.insert : Memory → Nat → Byte → Memory
  | [], a, v => [(a, v)]
  | (j, b) :: rest, a, v =>
      if a < j then (a, v) :: (j, b) :: rest
      else if j = a then (a, v) :: rest
      else (j, b) :: Memory.insert rest a v

/-- The memory with byte `v` at `a`. -/
def Memory.setByte (m : Memory) (a : Nat) (v : Byte) : Memory :=
  if v = Memory.unlisted then m.drop a else m.insert a v

/-- The `n` bytes from `a`, lowest address first. -/
def Memory.bytes (m : Memory) (a : Nat) : Nat → List Byte
  | 0 => []
  | n + 1 => m.byte a :: Memory.bytes m (a + 1) n

/-- The memory with the given bytes from `a` upward. -/
def Memory.setBytes (m : Memory) (a : Nat) : List Byte → Memory
  | [] => m
  | v :: rest => Memory.setBytes (m.setByte a v) (a + 1) rest

/-- The memory with every byte from `a` to `a + n - 1` zero. -/
def Memory.clear (m : Memory) (a n : Nat) : Memory := m.filter fun c => !(a ≤ c.1 && c.1 < a + n)

/-- The listed bytes from `a` to `a + n - 1`, renumbered to begin at `b`. -/
def Memory.slice (m : Memory) (a n b : Nat) : Memory :=
  (m.filter fun c => a ≤ c.1 && c.1 < a + n).map fun c => (c.1 - a + b, c.2)

/-- The number whose bytes, lowest first, are given (R4). -/
def ofBytes : List Byte → Nat
  | [] => 0
  | b :: rest => b.toNat + 256 * ofBytes rest

/-- The `n` low bytes of a number, lowest first (R4). -/
def toBytes : Nat → Nat → List Byte
  | 0, _ => []
  | n + 1, x => BitVec.ofNat 8 x :: toBytes n (x / 256)

/-- The `n` bytes from `a` as a little-endian number (R4). -/
def Memory.read (m : Memory) (a n : Nat) : Nat := ofBytes (m.bytes a n)

/-- The memory with the `n` low bytes of `x` at `a`, little-endian (R4). -/
def Memory.write (m : Memory) (a n x : Nat) : Memory := m.setBytes a (toBytes n x)

end Sys2Proof.Machine
end

