-- ==== Sys2Proof/Machine/Float.lean ====
section
/-!
DEFINITION. Number formats, rounding and floating-point arithmetic (R58, R163 to R180, R184 to R194). Values are exact
(a sign, a natural number and a power of two) until they are rounded, once.
-/

namespace Sys2Proof.Machine

/-- The five sticky flags as bits of fps (R93). -/
abbrev Flags := BitVec 5

def flagNX : Flags := 1
def flagUF : Flags := 2
def flagOF : Flags := 4
def flagDZ : Flags := 8
def flagNV : Flags := 16

/-- The rounding mode fpc.RM names (R93). -/
def rndOf (rm : BitVec 3) : Rnd :=
  match rm.toNat with
  | 1 => .rtz | 2 => .rdn | 3 => .rup | 4 => .rna | _ => .rne

/-! ## Exact values -/

/-- The number (−1)^neg × man × 2^exp; zero has man 0 and keeps its sign. `sticky` adds to the magnitude something above
0 and below 2^exp. -/
structure Dy where
  neg : Bool
  man : Nat
  exp : Int
  sticky : Bool
deriving DecidableEq, Repr

/-- A number, an infinity or a NaN. -/
inductive FVal where
  | nan (signalling : Bool)
  | inf (neg : Bool)
  | num (d : Dy)
deriving DecidableEq, Repr

/-- A natural number. -/
def Dy.ofNat (n : Nat) : Dy := { neg := false, man := n, exp := 0, sticky := false }

/-- A power of two. -/
def Dy.pow2 (e : Int) : Dy := { neg := false, man := 1, exp := e, sticky := false }

def Dy.abs (x : Dy) : Dy := { x with neg := false }
def Dy.negate (x : Dy) : Dy := { x with neg := !x.neg }

/-- The magnitude as a multiple of 2^e, for `e` not above the value's exponent. -/
def Dy.units (x : Dy) (e : Int) : Nat := x.man * 2 ^ (x.exp - e).toNat

/-- The signed multiple of 2^e. -/
def Dy.signedUnits (x : Dy) (e : Int) : Int := if x.neg then -(x.units e : Int) else x.units e

/-- The magnitudes are in the given order: x < y. -/
def Dy.magLt (x y : Dy) : Bool :=
  let e := min x.exp y.exp
  x.units e < y.units e || (x.units e == y.units e && !x.sticky && y.sticky)

/-- x < y as real numbers. -/
def Dy.lt (x y : Dy) : Bool :=
  let e := min x.exp y.exp
  x.signedUnits e < y.signedUnits e

/-- x = y as real numbers, whatever the sign of zero. -/
def Dy.same (x y : Dy) : Bool :=
  let e := min x.exp y.exp
  x.signedUnits e == y.signedUnits e && x.sticky == y.sticky

/-- Floor of the binary logarithm of a nonzero magnitude. -/
def Dy.top (x : Dy) : Int := x.exp + x.man.log2

/-- The exact product. -/
def Dy.mul (x y : Dy) : Dy := { neg := x.neg != y.neg, man := x.man * y.man, exp := x.exp + y.exp, sticky := false }

/-- The exact sum. A zero sum of operands of opposite sign has the sign `negZero`; two zeros of one sign keep it (R172). -/
def Dy.add (negZero : Bool) (x y : Dy) : Dy :=
  let e := min x.exp y.exp
  let t := x.signedUnits e + y.signedUnits e
  let zeroSign := if x.man == 0 && y.man == 0 && x.neg == y.neg then x.neg else negZero
  { neg := if t == 0 then zeroSign else t < 0, man := t.natAbs, exp := e, sticky := false }

/-- The quotient of two nonzero numbers, with 64 bits to spare and the rest in `sticky`. -/
def Dy.div (x y : Dy) : Dy :=
  let k := 128 + y.man.log2
  { neg := x.neg != y.neg, man := x.man * 2 ^ k / y.man, exp := x.exp - y.exp - k,
    sticky := x.man * 2 ^ k % y.man != 0 }

/-- The integer square root, from `k` binary digits down. -/
def isqrt : Nat → Nat → Nat → Nat
  | 0, r, _ => r
  | k + 1, r, n => if (r + 2 ^ k) * (r + 2 ^ k) ≤ n then isqrt k (r + 2 ^ k) n else isqrt k r n

/-- The number with an even exponent. -/
def Dy.even (x : Dy) : Dy := if x.exp % 2 = 0 then x else { x with man := 2 * x.man, exp := x.exp - 1 }

/-- The square root of a positive number, with 128 bits to spare. -/
def Dy.sqrt (x : Dy) : Dy :=
  let y := x.even
  let n := y.man * 2 ^ 256
  let r := isqrt 320 0 n
  { neg := false, man := r, exp := y.exp / 2 - 128, sticky := r * r != n }

/-! ## Binary formats (R163, R185, R188) -/

/-- What the top exponent field of a format means. -/
inductive NanForm where
  | ieee | e4m3 | none | scale
deriving DecidableEq, Repr

/-- A binary floating format: widths of fraction and exponent, bias, special encodings, and whether it has a sign. -/
structure Bin where
  frac : Nat
  ebits : Nat
  bias : Int
  special : NanForm
  signed : Bool
deriving DecidableEq, Repr

def Bin.e4m3 : Bin := ⟨3, 4, 7, .e4m3, true⟩
def Bin.e5m2 : Bin := ⟨2, 5, 15, .ieee, true⟩
def Bin.e3m2 : Bin := ⟨2, 3, 3, .none, true⟩
def Bin.e2m3 : Bin := ⟨3, 2, 1, .none, true⟩
def Bin.e2m1 : Bin := ⟨1, 2, 1, .none, true⟩
def Bin.bf16 : Bin := ⟨7, 8, 127, .ieee, true⟩
def Bin.f16 : Bin := ⟨10, 5, 15, .ieee, true⟩
def Bin.f32 : Bin := ⟨23, 8, 127, .ieee, true⟩
def Bin.f64 : Bin := ⟨52, 11, 1023, .ieee, true⟩
def Bin.sc12 : Bin := ⟨4, 8, 127, .scale, false⟩
/-- IEEE 754 binary128, the format of an accumulator entry (R329). -/
def Bin.f128 : Bin := ⟨112, 15, 16383, .ieee, true⟩

/-- The exponent of the smallest normal number (R164, R193). -/
def Bin.emin (f : Bin) : Int := 1 - f.bias

def Bin.topField (f : Bin) : Nat := 2 ^ f.ebits - 1
def Bin.signAt (f : Bin) : Nat := f.ebits + f.frac

/-- The sign bit of a word, none in a format without one. -/
def Bin.sign (f : Bin) (x : Nat) : Bool := f.signed && x.testBit f.signAt

/-- The value of an encoding (R185, R186, R188). -/
def Bin.decode (f : Bin) (x : Nat) : FVal :=
  let e := x / 2 ^ f.frac % 2 ^ f.ebits
  let m := x % 2 ^ f.frac
  let s := f.sign x
  if e = f.topField && f.special = .ieee then
    if m = 0 then .inf s else .nan (!m.testBit (f.frac - 1))
  else if e = f.topField && f.special = .scale then .nan false
  else if e = f.topField && f.special = .e4m3 && m = 7 then .nan false
  else if e = 0 then .num { neg := s, man := m, exp := f.emin - f.frac, sticky := false }
  else .num { neg := s, man := 2 ^ f.frac + m, exp := e - f.bias - f.frac, sticky := false }

/-- The largest finite value. -/
def Bin.largest (f : Bin) : Dy :=
  let full := 2 ^ (f.frac + 1) - 1
  match f.special with
  | .ieee | .scale => { neg := false, man := full, exp := f.topField - 1 - f.bias - f.frac, sticky := false }
  | .e4m3 => { neg := false, man := full - 1, exp := f.topField - f.bias - f.frac, sticky := false }
  | .none => { neg := false, man := full, exp := f.topField - f.bias - f.frac, sticky := false }

/-- A sign with the magnitude bits of an encoding. -/
def Bin.withSign (f : Bin) (s : Bool) (x : Nat) : Nat := if s && f.signed then 2 ^ f.signAt + x else x

/-- The canonical NaN (R163, R185, R188); +0 where the format has none. -/
def Bin.nan (f : Bin) : Nat :=
  match f.special with
  | .ieee => f.topField * 2 ^ f.frac + 2 ^ (f.frac - 1)
  | .e4m3 => 0x7F
  | .scale => 0xFF0
  | .none => 0

def Bin.inf (f : Bin) (s : Bool) : Nat := f.withSign s (f.topField * 2 ^ f.frac)

/-- The encoding of a number that the format represents. -/
def Bin.encode (f : Bin) (d : Dy) : Nat :=
  if d.man = 0 then f.withSign d.neg 0
  else if d.top < f.emin then
    f.withSign d.neg (d.man * 2 ^ (d.exp - (f.emin - f.frac)).toNat / 2 ^ (f.emin - f.frac - d.exp).toNat)
  else
    let e := (d.top + f.bias).toNat
    let m := d.man * 2 ^ (f.frac + 1) / 2 ^ (d.man.log2 + 1) % 2 ^ f.frac
    f.withSign d.neg (e * 2 ^ f.frac + m)

/-! ## Rounding (R58, R194) -/

/-- The neighbours of a magnitude in a value set: lo × 2^exp and hi × 2^exp, with the magnitude at lo + (hi − lo) ×
(rem / den), or above that and below the next multiple where `sticky`. `tieUp` says where a tie goes under RNE. -/
structure Bracket where
  lo : Nat
  hi : Nat
  exp : Int
  rem : Nat
  den : Nat
  sticky : Bool
  tieUp : Bool
deriving DecidableEq, Repr

/-- The neighbours of a magnitude among the multiples of 2^q. -/
def bracketAt (x : Dy) (q : Int) : Bracket :=
  let n := x.man * 2 ^ (x.exp - q).toNat
  let den := 2 ^ (q - x.exp).toNat
  let lo := n / den
  { lo, hi := lo + 1, exp := q, rem := n % den, den, sticky := x.sticky, tieUp := lo % 2 == 1 }

def Bracket.exact (b : Bracket) : Bool := b.rem == 0 && !b.sticky

/-- Whether a mode takes the upper neighbour. -/
def Bracket.up (b : Bracket) (m : Rnd) (neg : Bool) (random : Word) : Bool :=
  if b.exact then false
  else
    match m with
    | .rne => b.den < 2 * b.rem || (2 * b.rem == b.den && (b.sticky || b.tieUp))
    | .rtz => false
    | .rdn => neg
    | .rup => !neg
    | .rna => b.den ≤ 2 * b.rem
    | .rsr => 2 ^ 32 ≤ b.rem * 2 ^ 32 / b.den + random.toNat

/-- The neighbour a mode takes, with the sign of the value. -/
def Bracket.pick (b : Bracket) (m : Rnd) (neg : Bool) (random : Word) : Dy :=
  { neg, man := if b.up m neg random then b.hi else b.lo, exp := b.exp, sticky := false }

/-- The exponent of one unit in the last place at a magnitude (R58, R175). -/
def Bin.quantum (f : Bin) (x : Dy) : Int := max (x.top - f.frac) (f.emin - f.frac)

/-- Round and StochRound to a binary format: its precision and subnormal range, no upper exponent bound (R58, R194). -/
def Bin.round (f : Bin) (m : Rnd) (random : Word) (x : Dy) : Dy :=
  if x.man = 0 && !x.sticky then x else (bracketAt x (f.quantum x)).pick m x.neg random

/-- Tiny: rounded to the precision with no exponent bound, the magnitude is below 2^emin (R164, R193). -/
def Bin.tiny (f : Bin) (m : Rnd) (random : Word) (x : Dy) : Bool :=
  ((bracketAt x (x.top - f.frac)).pick m x.neg random).magLt (Dy.pow2 f.emin)

/-- Over: what an overflow delivers (R164). -/
def Bin.over (f : Bin) (m : Rnd) (neg : Bool) : Nat :=
  let toInf := match m with
    | .rtz => false
    | .rdn => neg
    | .rup => !neg
    | _ => true
  if toInf then f.inf neg else f.withSign neg (f.encode f.largest)

/-- Deliver (R164). -/
def Bin.deliver (f : Bin) (m : Rnd) (x : FVal) : Nat × Flags :=
  match x with
  | .nan _ => (f.nan, 0)
  | .inf s => (f.inf s, 0)
  | .num d =>
      if d.man = 0 && !d.sticky then (f.withSign d.neg 0, 0)
      else
        let y := f.round m 0 d
        if f.largest.magLt y then (f.over m d.neg, flagOF ||| flagNX)
        else if y.same d then (f.encode y, 0)
        else if f.tiny m 0 d then (f.encode y, flagNX ||| flagUF)
        else (f.encode y, flagNX)

/-! ## Arithmetic on values (R165, R172, R174) -/

/-- What an operation gives before it is rounded, with the flags it has raised. -/
abbrev Raised := FVal × Flags

def invalid : Raised := (.nan false, flagNV)

/-- Some operand is a signalling NaN (R165). -/
def FVal.signals : FVal → Bool
  | .nan s => s
  | _ => false

def FVal.isNan : FVal → Bool
  | .nan _ => true
  | _ => false

def FVal.negate : FVal → FVal
  | .nan s => .nan s
  | .inf s => .inf !s
  | .num d => .num d.negate

/-- The sum of two values that are no NaNs. -/
def FVal.sum (negZero : Bool) : FVal → FVal → Raised
  | .inf s, .inf t => if s = t then (.inf s, 0) else invalid
  | .inf s, _ => (.inf s, 0)
  | _, .inf t => (.inf t, 0)
  | .num x, .num y => (.num (x.add negZero y), 0)
  | _, _ => (.nan false, 0)

/-- The product of two values that are no NaNs. -/
def FVal.product : FVal → FVal → Raised
  | .inf s, .inf t => (.inf (s != t), 0)
  | .inf s, .num y => if y.man = 0 then invalid else (.inf (s != y.neg), 0)
  | .num x, .inf t => if x.man = 0 then invalid else (.inf (x.neg != t), 0)
  | .num x, .num y => (.num (x.mul y), 0)
  | _, _ => (.nan false, 0)

/-- The first three rules of R165: a signalling NaN raises NV, any NaN gives a NaN. -/
def nanRule (ops : List FVal) (f : Unit → Raised) : Raised :=
  if ops.any FVal.signals then invalid
  else if ops.any FVal.isNan then (.nan false, 0)
  else f ()

/-- The sum of R172. -/
def fAdd (m : Rnd) (a b : FVal) : Raised := nanRule [a, b] fun _ => a.sum (m == .rdn) b

/-- The product of R172. -/
def fMul (a b : FVal) : Raised := nanRule [a, b] fun _ => a.product b

/-- The fused sum: zero times infinity is invalid whatever the addend is (R165). `neg` negates the product. -/
def fFma (m : Rnd) (neg : Bool) (a b d : FVal) : Raised :=
  if [a, b, d].any FVal.signals then invalid
  else if a.isNan || b.isNan then (.nan false, 0)
  else
    let p := a.product b
    if p.2 != 0 then invalid
    else if d.isNan then (.nan false, 0)
    else (if neg then p.1.negate else p.1).sum (m == .rdn) d

/-- The quotient of R174. -/
def fDiv (a b : FVal) : Raised := nanRule [a, b] fun _ =>
  match a, b with
  | .inf _, .inf _ => invalid
  | .inf s, .num y => (.inf (s != y.neg), 0)
  | .num x, .inf t => (.num { neg := x.neg != t, man := 0, exp := 0, sticky := false }, 0)
  | .num x, .num y =>
      if y.man = 0 then if x.man = 0 then invalid else (.inf (x.neg != y.neg), flagDZ)
      else if x.man = 0 then (.num { x with neg := x.neg != y.neg }, 0)
      else (.num (x.div y), 0)
  | _, _ => (.nan false, 0)

/-- The square root of R174. -/
def fSqrt (a : FVal) : Raised := nanRule [a] fun _ =>
  match a with
  | .inf s => if s then invalid else (.inf false, 0)
  | .num x => if x.man = 0 then (.num x, 0) else if x.neg then invalid else (.num x.sqrt, 0)
  | _ => (.nan false, 0)

/-- A value rounded to an integer by a mode (R172). -/
def Dy.toIntegral (m : Rnd) (x : Dy) : Dy :=
  if 0 ≤ x.exp || x.man = 0 then x else (bracketAt x 0).pick m x.neg 0

/-- The operations of R172 and R174 from encodings to an encoding and flags. -/
def Bin.finish (f : Bin) (m : Rnd) (r : Raised) : Nat × Flags :=
  let y := f.deliver m r.1
  (y.1, r.2 ||| y.2)

def Bin.addOp (f : Bin) (m : Rnd) (a b : Nat) : Nat × Flags := f.finish m (fAdd m (f.decode a) (f.decode b))
def Bin.subOp (f : Bin) (m : Rnd) (a b : Nat) : Nat × Flags := f.finish m (fAdd m (f.decode a) (f.decode b).negate)
def Bin.mulOp (f : Bin) (m : Rnd) (a b : Nat) : Nat × Flags := f.finish m (fMul (f.decode a) (f.decode b))
def Bin.fmaOp (f : Bin) (m : Rnd) (neg : Bool) (a b d : Nat) : Nat × Flags :=
  f.finish m (fFma m neg (f.decode a) (f.decode b) (f.decode d))
def Bin.divOp (f : Bin) (m : Rnd) (a b : Nat) : Nat × Flags := f.finish m (fDiv (f.decode a) (f.decode b))
def Bin.sqrtOp (f : Bin) (m : Rnd) (a : Nat) : Nat × Flags := f.finish m (fSqrt (f.decode a))

/-- vfrint: NX when the result differs, no other flag (R172). -/
def Bin.rintOp (f : Bin) (m : Rnd) (a : Nat) : Nat × Flags :=
  match f.decode a with
  | .nan s => (f.nan, if s then flagNV else 0)
  | .inf s => (f.inf s, 0)
  | .num x =>
      let y := x.toIntegral m
      (f.encode y, if y.same x then 0 else flagNX)

/-! ## Minimum, maximum, sign, compare (R173, R180) -/

/-- a is less than b, with −0 below +0 and infinities in their places; neither is a NaN (R173). -/
def FVal.below : FVal → FVal → Bool
  | .inf s, .inf t => s && !t
  | .inf s, _ => s
  | _, .inf t => !t
  | .num x, .num y => x.lt y || (x.man == 0 && y.man == 0 && x.neg && !y.neg)
  | _, _ => false

/-- a = b with −0 = +0; neither is a NaN (R180). -/
def FVal.equals : FVal → FVal → Bool
  | .inf s, .inf t => s == t
  | .num x, .num y => x.same y
  | _, _ => false

/-- minimumNumber (`most` false) and maximumNumber (`most` true), unrounded (R173). -/
def Bin.pickOp (f : Bin) (most : Bool) (a b : Nat) : Nat × Flags :=
  let x := f.decode a
  let y := f.decode b
  let nv : Flags := if x.signals || y.signals then flagNV else 0
  if x.isNan && y.isNan then (f.nan, nv)
  else if x.isNan then (b, nv)
  else if y.isNan then (a, nv)
  else if (if most then x.below y else y.below x) then (b, nv) else (a, nv)

def Bin.absOp (f : Bin) (a : Nat) : Nat := a % 2 ^ f.signAt
def Bin.negOp (f : Bin) (a : Nat) : Nat := f.withSign (!f.sign a) (a % 2 ^ f.signAt)
def Bin.copysignOp (f : Bin) (a b : Nat) : Nat := f.withSign (f.sign b) (a % 2 ^ f.signAt)

/-- The compare of R180 and whether it raises NV. -/
def Bin.compare (f : Bin) (cc : FloatCond) (a b : Nat) : Bool × Flags :=
  let x := f.decode a
  let y := f.decode b
  let nan := x.isNan || y.isNan
  let sig := x.signals || y.signals
  let lt := !x.equals y && x.below y
  let gt := !x.equals y && y.below x
  match cc with
  | .eq => (!nan && x.equals y, if sig then flagNV else 0)
  | .ne => (nan || !x.equals y, if sig then flagNV else 0)
  | .lt => (!nan && lt, if nan then flagNV else 0)
  | .le => (!nan && (lt || x.equals y), if nan then flagNV else 0)
  | .gt => (!nan && gt, if nan then flagNV else 0)
  | .ge => (!nan && (gt || x.equals y), if nan then flagNV else 0)
  | .un => (nan, if sig then flagNV else 0)
  | .ord => (!nan, if sig then flagNV else 0)

/-! ## Approximate functions (R175 to R177) -/

/-- Fixed point with 320 fraction bits. -/
def fxOne : Nat := 2 ^ 320

/-- ln 2 × 2^320, cut. -/
def fxLn2 : Nat :=
  1480553391661173448385607439722553250922680800745876974795605978609098082859138712941075737848984

/-- π / 2 × 2^320, cut. -/
def fxHalfPi : Nat :=
  3355200590106084457577920487110001620402097044713574475363553212175856609335902690049750194457019

/-- The series of e^x − 1 in fixed point: `left` more terms, the next being number `k`. -/
def expSeries : Nat → Nat → Nat → Nat → Nat
  | 0, _, _, _ => 0
  | left + 1, k, x, term =>
      let t := term * x / (fxOne * k)
      t + expSeries left (k + 1) x t

def fxExpm1 (x : Nat) : Nat := expSeries 80 1 x fxOne

/-- The sum of every second term of x^k / k! with alternating signs, from term `k` on: sine (k = 1) and cosine. -/
def trigSeries : Nat → Nat → Int → Int → Int
  | 0, _, _, _ => 0
  | left + 1, k, x2, term => term + trigSeries left (k + 2) x2 (-(term * x2) / (fxOne * ((k + 1) * (k + 2))))

def fxSin (x : Int) : Int := trigSeries 40 1 (x * x / fxOne) x
def fxCos (x : Int) : Int := trigSeries 40 0 (x * x / fxOne) fxOne

/-- The fractional bits of log2 of a fixed-point number in [1, 2), by repeated squaring. -/
def logBits : Nat → Nat → Nat → Nat
  | 0, _, acc => acc
  | left + 1, m, acc =>
      let sq := m * m / fxOne
      if 2 * fxOne ≤ sq then logBits left (sq / 2) (2 * acc + 1) else logBits left sq (2 * acc)

/-- e^x − 1 doubled in its argument: from e to e × (e + 2). -/
def expDouble : Nat → Nat → Nat
  | 0, e => e
  | n + 1, e => expDouble n (e * (e + 2 * fxOne) / fxOne)

/-- A number in fixed point. -/
def Dy.fixed (x : Dy) : Int := x.signedUnits (min x.exp (-320)) / (2 ^ (-320 - min x.exp (-320)).toNat : Nat)

/-- A fixed-point number as a value. -/
def Dy.ofFixed (x : Int) : Dy := { neg := x < 0, man := x.natAbs, exp := -320, sticky := false }

/-- The approximate functions of R176. -/
inductive Approx where
  | rcp | rsq | exp2 | log2 | sin | cos | tanh
deriving DecidableEq, Repr

def Approx.code : Approx → Nat
  | .rcp => 0 | .rsq => 1 | .exp2 => 2 | .log2 => 3 | .sin => 4 | .cos => 5 | .tanh => 6

/-- The exact value of a function at an operand that R176 does not list as special, to some 200 bits. -/
def Approx.exact (fn : Approx) (x : Dy) : Dy :=
  match fn with
  | .rcp => { Dy.div (Dy.ofNat 1) x with sticky := false }
  | .rsq =>
      let y := x.even
      { neg := false, man := isqrt 260 0 (2 ^ 512 / y.man), exp := -(y.exp / 2) - 256, sticky := false }
  | .exp2 =>
      let n := x.fixed / fxOne
      let f := (x.fixed % fxOne).toNat
      { neg := false, man := fxOne + fxExpm1 (f * fxLn2 / fxOne), exp := n - 320, sticky := false }
  | .log2 =>
      let m := x.man * fxOne / 2 ^ x.man.log2
      let t : Int := x.top * (2 ^ 128 : Nat) + logBits 128 m 0
      { neg := t < 0, man := t.natAbs, exp := -128, sticky := false }
  | .sin | .cos =>
      let a := x.fixed
      let k := (2 * a + fxHalfPi) / (2 * fxHalfPi)
      let r := a - k * fxHalfPi
      match ((if fn = .cos then k + 1 else k) % 4).toNat with
      | 0 => Dy.ofFixed (fxSin r)
      | 1 => Dy.ofFixed (fxCos r)
      | 2 => Dy.ofFixed (-(fxSin r))
      | _ => Dy.ofFixed (-(fxCos r))
  | .tanh =>
      let e := expDouble 5 (fxExpm1 (x.abs.fixed.toNat / 16))
      { Dy.div (Dy.ofFixed e) (Dy.ofFixed (e + 2 * fxOne)) with neg := x.neg, sticky := false }

/-- The bound of R176 at an exact value. -/
def Approx.bound (fn : Approx) (f : Bin) (a x : Dy) : Dy :=
  let ulp := Dy.pow2 (f.quantum x)
  let two := Dy.pow2 (f.quantum x + 1)
  match fn with
  | .rcp | .rsq => ulp
  | .exp2 | .tanh => two
  | .log2 => if (Dy.pow2 1).magLt a || a.magLt (Dy.pow2 (-1)) then two else Dy.pow2 (-22)
  | .sin | .cos => if two.magLt (Dy.pow2 (-24)) then Dy.pow2 (-24) else two

/-- An encoding lies within a bound of an exact value. -/
def Bin.within (f : Bin) (y : Nat) (x bound : Dy) : Bool :=
  match f.decode y with
  | .num d => !bound.magLt (d.add false x.negate)
  | _ => false

/-- The result at an operand that is not special: an uninterpreted function of the operand where that meets the bound, the
rounded exact value where it does not. An exact value above every finite one has no bound: the uninterpreted function
stands. -/
def Approx.near (fn : Approx) (f : Bin) (bits : Nat) (a : Dy) : Nat :=
  let x := fn.exact a
  let y := (Config.approximate fn.code (BitVec.ofNat 64 (f.signAt + 1)) (BitVec.ofNat 64 bits)).toNat % 2 ^ (f.signAt + 1)
  if f.largest.magLt x then y
  else if f.within y x (fn.bound f a x) then y
  else f.encode (f.round .rne 0 x)

/-- NX, and UF for a result below 2^−126 in magnitude (R177). -/
def Bin.inexact (f : Bin) (y : Nat) : Nat × Flags :=
  match f.decode y with
  | .num d => (y, if d.magLt (Dy.pow2 (-126)) then flagNX ||| flagUF else flagNX)
  | _ => (y, flagNX)

/-- An integer exponent of a number that is an exact power of two. -/
def Dy.log2Exact (x : Dy) : Option Int := if 2 ^ x.man.log2 = x.man then some x.top else none

/-- A number that is an integer. -/
def Dy.integer (x : Dy) : Option Int :=
  let y := x.toIntegral .rtz
  if y.same x then some (y.signedUnits (min y.exp 0) / (2 ^ (-(min y.exp 0)).toNat : Nat)) else none

/-- An approximate function: R165's NaN rules, the special operands of R176 with their flags, else a value within the
bound with the flags of R177. The hyperbolic tangent of an infinity is taken as exact, without NX, though R176's line for 9.5 and above would
give it NX (DEDUCED, entry 5). -/
def Bin.approxOp (f : Bin) (fn : Approx) (bits : Nat) : Nat × Flags :=
  match f.decode bits with
  | .nan s => (f.nan, if s then flagNV else 0)
  | .inf s =>
      match fn with
      | .rcp => (f.withSign s 0, 0)
      | .rsq | .log2 => if s then (f.nan, flagNV) else if fn = .rsq then (0, 0) else (f.inf false, 0)
      | .exp2 => (if s then 0 else f.inf false, 0)
      | .sin | .cos => (f.nan, flagNV)
      | .tanh => (f.encode { Dy.ofNat 1 with neg := s }, 0)
  | .num x =>
      let near := f.inexact (fn.near f bits x)
      match fn with
      | .rcp =>
          if x.man = 0 then (f.inf x.neg, flagDZ)
          else
            match x.log2Exact with
            | some k =>
                let y : Dy := { neg := x.neg, man := 1, exp := -k, sticky := false }
                if f.largest.magLt y || y.magLt (Dy.pow2 (f.emin - f.frac)) then near else (f.encode y, 0)
            | none => near
      | .rsq =>
          if x.man = 0 then (f.inf x.neg, flagDZ)
          else if x.neg then (f.nan, flagNV)
          else
            match x.log2Exact with
            | some k => if k % 2 = 0 then (f.encode (Dy.pow2 (-(k / 2))), 0) else near
            | none => near
      | .exp2 =>
          if !x.lt (Dy.ofNat 128) then (f.inf false, flagOF ||| flagNX)
          else if !(Dy.ofNat 150).negate.lt x then (0, flagUF ||| flagNX)
          else
            match x.integer with
            | some k => (f.encode (Dy.pow2 k), 0)
            | none => near
      | .log2 =>
          if x.man = 0 then (f.inf true, flagDZ)
          else if x.neg then (f.nan, flagNV)
          else
            match x.log2Exact with
            | some k => (f.encode { neg := k < 0, man := k.natAbs, exp := 0, sticky := false }, 0)
            | none => near
      | .sin | .cos =>
          if x.man = 0 then (if fn = .sin then bits else f.encode (Dy.ofNat 1), 0)
          else if (Dy.pow2 20).magLt x.abs then
            let y := (Config.approximate fn.code (BitVec.ofNat 64 (f.signAt + 1)) (BitVec.ofNat 64 bits)).toNat %
              2 ^ (f.signAt + 1)
            match f.decode y with
            | .num d => if (Dy.ofNat 1).magLt d.abs then f.inexact 0 else f.inexact y
            | _ => f.inexact 0
          else near
      | .tanh =>
          if x.man = 0 then (bits, 0)
          else if !x.abs.magLt { neg := false, man := 19, exp := -1, sticky := false } then
            (f.encode { Dy.ofNat 1 with neg := x.neg }, flagNX)
          else if x.abs.magLt (Dy.pow2 f.emin) then f.inexact bits
          else near

/-! ## Conversion (R184 to R194) -/

end Sys2Proof.Machine

namespace Sys2Proof

open Machine

/-- The binary floating format of a code. -/
def Fmt.bin : Fmt → Option Bin
  | .e4m3 => some .e4m3 | .e5m2 => some .e5m2 | .e3m2 => some .e3m2 | .e2m3 => some .e2m3 | .e2m1 => some .e2m1
  | .bf16 => some .bf16 | .f16 => some .f16 | .f32 => some .f32 | .f64 => some .f64 | .sc12 => some .sc12
  | _ => none

/-- Width in bits (R184); SC12 stands in a container of 16. -/
def Fmt.bits : Fmt → Nat
  | .i8 | .e4m3 | .e5m2 | .d2p8 => 8
  | .e3m2 | .e2m3 => 6
  | .e2m1 => 4
  | .bf16 | .f16 | .i16 | .sc12 => 16
  | .f32 | .i32 => 32
  | .f64 | .i64 => 64
  | .reserved => 0

end Sys2Proof

namespace Sys2Proof.Machine

/-- An integer as a value. -/
def Dy.ofInt (n : Int) : Dy := { neg := n < 0, man := n.natAbs, exp := 0, sticky := false }

/-- A term of a D2P8 byte in 64ths (R189). -/
def d2Term (t : Nat) : Int :=
  let c := t % 8
  let v : Int := if c = 0 then 0 else (2 ^ (7 - c) : Nat)
  if 8 ≤ t then -v else v

/-- A D2P8 byte in 64ths (R189). -/
def d2Value (b : Nat) : Int := d2Term (b / 16 % 16) + d2Term (b % 16)

/-- The magnitudes of D2P8 in 64ths, ascending: zero and the 39 of R189. -/
def d2Magnitudes : List Nat :=
  (List.range 129).filter fun n => (List.range 256).any fun b => d2Value b == n

/-- How far an encoding is from canonical, least first: the tests of R190 in their order as digits of one number. -/
def d2Rank (b : Nat) : Nat :=
  let h := b / 16
  let l := b % 16
  let nonzero := (if h % 8 = 0 then 0 else 1) + (if l % 8 = 0 then 0 else 1)
  let order := if (d2Term h).natAbs < (d2Term l).natAbs then 1 else 0
  let sameSign := if nonzero = 2 && (h / 8 != l / 8) then 1 else 0
  let zeroSign := (if h % 8 = 0 && h / 8 = 1 then 1 else 0) + (if l % 8 = 0 && l / 8 = 1 then 1 else 0)
  nonzero * 64 + order * 32 + sameSign * 16 + zeroSign

/-- The canonical encoding of a value in 64ths (R190). -/
def d2Encode (v : Int) : Nat :=
  ((List.range 256).filter fun b => d2Value b == v).foldl
    (fun best b => if best = 256 || d2Rank b < d2Rank best then b else best) 256

/-- The neighbours of a magnitude of at most 2 in D2P8 (R194): RNE ties go to the smaller. -/
def d2Bracket (x : Dy) : Bracket :=
  let e := min x.exp (-6)
  let n := x.units e
  let unit := 2 ^ (-6 - e).toNat
  let lo := (d2Magnitudes.filter fun v => v * unit ≤ n).foldl max 0
  let hi := (d2Magnitudes.filter fun v => n < v * unit).foldl min 129
  { lo, hi, exp := -6, rem := n - lo * unit, den := (hi - lo) * unit, sticky := false, tieUp := false }

end Sys2Proof.Machine

namespace Sys2Proof

open Machine

/-- The value of `bits` in a format, from a register or pair (R185 to R191): bits above the format's width are ignored,
but for bits 15:12 of an SC12 container (R188). -/
def Fmt.decode (f : Fmt) (bits : Nat) : FVal :=
  match f with
  | .i8 => .num (Dy.ofInt (BitVec.ofNat 8 bits).toInt)
  | .i16 => .num (Dy.ofInt (BitVec.ofNat 16 bits).toInt)
  | .i32 => .num (Dy.ofInt (BitVec.ofNat 32 bits).toInt)
  | .i64 => .num (Dy.ofInt (BitVec.ofNat 64 bits).toInt)
  | .d2p8 => .num { neg := d2Value (bits % 256) < 0, man := (d2Value (bits % 256)).natAbs, exp := -6, sticky := false }
  | .sc12 => if bits / 4096 % 16 != 0 then .nan false else Bin.sc12.decode (bits % 4096)
  | _ =>
      match f.bin with
      | some b => b.decode (bits % 2 ^ f.bits)
      | none => .num (Dy.ofNat 0)

/-- A result as a register or pair holds it: i8 and i16 sign-extended to 32 bits, every other narrow format zero above its
width (R191). -/
def Fmt.extend (f : Fmt) (bits : Nat) : Nat :=
  match f with
  | .i8 => ((BitVec.ofNat 8 bits).signExtend 32).toNat
  | .i16 => ((BitVec.ofNat 16 bits).signExtend 32).toNat
  | _ => bits

/-- Two's complement of an integer value in a format's width. -/
def Fmt.encodeInt (f : Fmt) (n : Int) : Nat := (BitVec.ofInt f.bits n).toNat

end Sys2Proof

namespace Sys2Proof.Machine

/-- The four statistics of a tensor identifier (R208). -/
inductive Stat where
  | sat | inf | ftz | nan
deriving DecidableEq, Repr

def Stat.code : Stat → Nat
  | .sat => 0 | .inf => 1 | .ftz => 2 | .nan => 3

/-- What a conversion delivers: bits of the format's width, flags, and the counter it increments. -/
structure Converted where
  bits : Nat
  flags : Flags
  stat : Option Stat
deriving DecidableEq, Repr

/-- Convert to a binary floating format (R193). -/
def Bin.convert (f : Bin) (inf : Bool) (m : Rnd) (random : Word) (x : FVal) : Converted :=
  let overflow := fun (neg : Bool) (flags : Flags) =>
    if inf then
      { bits := if f.special = .e4m3 then f.withSign neg 0x7F else f.inf neg, flags, stat := some .inf : Converted }
    else { bits := f.withSign neg (f.encode f.largest), flags, stat := some .sat }
  match x with
  | .nan s => { bits := f.nan, flags := if s || f.special = .none then flagNV else 0, stat := some .nan }
  | .inf s =>
      if f.special = .ieee then { bits := f.inf s, flags := 0, stat := none } else overflow s flagNV
  | .num d =>
      let d := if f.signed then d else d.abs
      if d.man = 0 then { bits := f.withSign d.neg 0, flags := 0, stat := none }
      else
        let y := f.round m random d
        if f.largest.magLt y then overflow y.neg (flagOF ||| flagNX)
        else
          let stat := if y.man = 0 then some Stat.ftz else none
          if y.same d then { bits := f.encode y, flags := 0, stat }
          else { bits := f.encode y, flags := if f.tiny m random d then flagNX ||| flagUF else flagNX, stat }

end Sys2Proof.Machine

namespace Sys2Proof

open Machine

/-- Convert to an integer format (R193): the form is sat. -/
def Fmt.convertInt (f : Fmt) (m : Rnd) (random : Word) (x : FVal) : Converted :=
  let top : Int := (2 ^ (f.bits - 1) : Nat) - 1
  let sat := fun (neg : Bool) =>
    { bits := f.encodeInt (if neg then -top - 1 else top), flags := flagNV, stat := some .sat : Converted }
  match x with
  | .nan _ => { bits := 0, flags := flagNV, stat := some .nan }
  | .inf s => sat s
  | .num d =>
      if d.man = 0 then { bits := 0, flags := 0, stat := none }
      else
        let y := if 0 ≤ d.exp then d else (bracketAt d 0).pick m d.neg random
        let n := y.signedUnits 0
        if n < -top - 1 || top < n then sat y.neg
        else
          { bits := f.encodeInt n, flags := if y.same d then 0 else flagNX,
            stat := if n = 0 then some .ftz else none }

end Sys2Proof

namespace Sys2Proof.Machine

/-- Convert to D2P8 (R193, R194): a magnitude above 2 counts as beyond the largest finite value. -/
def d2Convert (m : Rnd) (random : Word) (x : FVal) : Converted :=
  let sat := fun (neg : Bool) (flags : Flags) =>
    { bits := if neg then 0x99 else 0x11, flags, stat := some .sat : Converted }
  match x with
  | .nan _ => { bits := 0, flags := flagNV, stat := some .nan }
  | .inf s => sat s flagNV
  | .num d =>
      if d.man = 0 then { bits := 0, flags := 0, stat := none }
      else if (Dy.pow2 1).magLt d then sat d.neg (flagOF ||| flagNX)
      else
        let y := (d2Bracket d).pick m d.neg random
        { bits := d2Encode (y.signedUnits (-6)), flags := if y.same d then 0 else flagNX,
          stat := if y.man = 0 then some .ftz else none }

end Sys2Proof.Machine

namespace Sys2Proof

open Machine

/-- Convert of R193. -/
def Fmt.convert (f : Fmt) (inf : Bool) (m : Rnd) (random : Word) (x : FVal) : Converted :=
  match f with
  | .i8 | .i16 | .i32 | .i64 => f.convertInt m random x
  | .d2p8 => d2Convert m random x
  | _ =>
      match f.bin with
      | some b => b.convert inf m random x
      | none => { bits := 0, flags := 0, stat := none }

end Sys2Proof
end

