-- ==== Sys2Proof/Machine/State.lean ====
section
/-!
DEFINITION. The state of the module as plain data, and the state right after reset. Every piece names the rule that
gives it. Cores are numbered 64 × die + logical core number within the die (R92), group slots 16 × core + slot, virtual
and physical dies 0 to 3. A number that names a thing the spec leaves unnumbered (a block, a launch, an outstanding
operation) comes from one counter, `nextId`, which belongs to the model.
-/

namespace Sys2Proof.Machine

/-! ## Levels, faults, phases -/

/-- Privilege level of a group (R346). -/
inductive Level where
  | u | s
deriving DecidableEq, Repr

/-- The classes of R350. -/
inductive FaultClass where
  | illegalInstruction | segmentBounds | copyBounds | misalignment | permission | latticeType | splitOverflow
  | debugTrap | trap | notPresent | nonMonotone | memoryError | containment | outOfMemory | doubleFault | imageRejected
  | completionFailed
deriving DecidableEq, Repr

/-- The number of a class (R350). -/
def FaultClass.code : FaultClass → Nat
  | .illegalInstruction => 0x01 | .segmentBounds => 0x02 | .copyBounds => 0x03 | .misalignment => 0x04
  | .permission => 0x05 | .latticeType => 0x06 | .splitOverflow => 0x07 | .debugTrap => 0x08 | .trap => 0x10
  | .notPresent => 0x20 | .nonMonotone => 0x30 | .memoryError => 0x40 | .containment => 0x41 | .outOfMemory => 0x42
  | .doubleFault => 0x43 | .imageRejected => 0x44 | .completionFailed => 0x45

/-- Life of a group slot (R112, R125, R132 to R134). `ended` is a group that has ended and still holds counted
operations; `leaving` is one that has ended and stays a member until its slices' copies have started (R134). -/
inductive GroupPhase where
  | free | spawned | attached | detached | ended | leaving
deriving DecidableEq, Repr

/-- Where a byte of an access lives (R18, R211, R216, R219, R268): a frame of the module, a scratchpad, a peer
device's aperture page, or a reduction window of the context with the HOME and GROUP it had at issue (R360). -/
inductive Place where
  | mem (pa : Nat)
  | spad (core off : Nat)
  | peer (device page off : Nat)
  | window (number off home group : Nat)
deriving DecidableEq, Repr

/-! ## Outstanding operations -/

/-- One lane's access of an outstanding word, its operands read at issue (R85). `data` holds the store data or the
operand; for compare-and-swap bits 63:0 compare and bits 127:64 swap, for LTRY bits 63:0 the threshold and bits 67:64 the
type of its page. `dead` marks an access that is dropped on the way: it changes nothing (R385). -/
structure Access where
  lane : Nat
  place : Place
  va : Nat
  n : Nat
  data : QWord
  dead : Bool
deriving DecidableEq, Repr

/-- The key under which an array latches a B tile (R324). -/
structure BKey where
  core : Nat
  off : Nat
  fmt : Fmt
  sparse : Bool
deriving DecidableEq, Repr

/-- What an outstanding operation does when it is performed, with the operands it read at issue (R84, R85). -/
inductive OpAct where
  | load (w : LoadWidth) (x : VReg)
  | scalarLoad (n : Nat) (d : SReg)
  | constLoad (d : SReg)
  | store
  | atom (fn : AtomFn) (x : VReg)
  | red (fn : AtomFn)
  | join (ty : LatType)
  | latRead (w : LatWidth) (x : VReg)
  | latTry (wide : Bool) (x : VReg) (p : PReg)
  | asserting (ty : LatType)
  | increment
  | copy (request : Nat)
  | persist (units : List (Nat × Nat))
  | matrix (entries : List Nat)
  | accz (first count : Nat)
  | accwr (writes : List (Nat × QWord))
  | accrd (inf : Bool) (d : VReg) (fmt : Fmt) (rnd : Rnd) (tensor : BitVec 8) (reads : List (Nat × Nat × Word × Word))
  | wpin (p : PReg) (key : BKey)
  | wunpin (key : BKey)
  | opfence
deriving DecidableEq, Repr

/-- One entry of an outstanding-operation counter (R83, R84). `after` names the operations that must be performed before
any part of this one (R252, R253), `behind` the single accesses before which one of this operation may not be performed: its
lane, the other operation and its lane (R253 case 1). `accesses` are the parts not yet performed, `results` the values read so far by
lane, `spoiled` the lanes of its registers written since issue, whose value at count-off is undefined (R85), `failed` the lanes of an
LSTA that failed with the value each met (R283), `finished` says that the operation is complete and waits to be counted
off in order. -/
structure Pending where
  id : Nat
  act : OpAct
  accesses : List Access
  after : List Nat
  behind : List (Nat × Nat × Nat)
  results : Table QWord
  failed : List (Access × QWord)
  spoiled : Table LaneMask
  spoiledPreds : Table LaneMask
  mask : LaneMask
  issued : Nat
  finished : Bool
deriving DecidableEq, Repr

/-- The record of a non-monotone store (R284). -/
structure NonMonotone where
  addr : DWord
  lane : Nat
  stored : DWord
  current : DWord
  failed : LaneMask
deriving DecidableEq, Repr

/-! ## Splits and groups -/

/-- The three words of a fetched packet (R62). -/
structure Packet where
  w0 : Word
  w1 : Word
  w2 : Word
deriving DecidableEq, Repr

/-- A barrier of a block (R139). -/
structure Barrier where
  members : Nat
  expected : Nat
  arrived : Nat
  phase : Word
deriving DecidableEq, Repr

/-- A group's flags for one barrier (R139). -/
structure BarFlags where
  member : Bool
  counted : Bool
  arrived : Bool
  pending : Bool
deriving DecidableEq, Repr

/-- What a split remembers of a word that holds it (R72, R135, R286, R308, R363): since when, the block's changes at that time
(none once a debug stop has ended an IDLE), a REGROUP's terms, the lap an LSYNC waits for, the units an ACCALLOC waits for, the
channels it would pop (false) or push (true) (R312), and the version word of a waiting PUBLISH (R247). -/
structure Hold where
  since : Nat
  changes : Option Nat
  regroup : Option (Nat × VReg × Nat)
  lap : Option Nat
  accUnits : Option Nat
  chans : List (Nat × Bool)
  publish : Option Nat
deriving DecidableEq, Repr

/-- The arrival that a BAR.SYNC has made while it was held: its token and the resume point of its issue group (R142). -/
structure Arrival where
  pc : BitVec 20
  word : Nat
  handler : Bool
  token : Word
deriving DecidableEq, Repr

/-- A split of a group (R64, R89, R104, R113, R347). `issuedAt` is the clock of its latest issue (R114), `yielded` and `giveWay` say
that it yields under R111 and under R114, `waits` counts the consecutive clocks of its core on which it was ready and another split
issued (R113, R115), `suspended` says that an issue group of it that met a missing page has not issued yet (R105), `drop` holds the
pages (first and count; none: all) of a TLBINV that has issued and whose drop is not complete (R362). -/
structure Split where
  mask : LaneMask
  pc : BitVec 20
  word : Nat
  handler : Bool
  record : Option (BitVec 20 × Bool × LaneMask)
  age : Nat
  back : Nat
  issuedAt : Nat
  yielded : Bool
  giveWay : Bool
  waits : Nat
  starved : Bool
  frozen : Bool
  suspended : Bool
  missing : List Nat
  rejected : List Nat
  packet : Option Packet
  hold : Option Hold
  arrivals : List Arrival
  drop : Option (Option (Nat × Nat))
  passBreak : Bool
deriving DecidableEq, Repr

/-- The control and status registers that each group has (R348, R349), beside the level and tstat.PEND, which follows from
the fault held (R358). -/
structure GroupCsr where
  lost : Bool
  epc : DWord
  ecause : DWord
  eaddr : DWord
  elane : DWord
  earg : Vector DWord 6
  ssave : Vector DWord 4
deriving DecidableEq, Repr

/-- The five segment registers, LIMIT above BASE (R212). -/
structure Segments where
  g : QWord
  s : QWord
  c : QWord
  a : QWord
  p : QWord
deriving DecidableEq, Repr

/-- A debug stop (R372, R375): why, which split, the split that steps when one does with the packet it steps from (index, handler
code), and whether it has issued the last issue group of that packet. -/
structure Stop where
  why : Nat
  split : Nat
  step : Option Nat
  packet : Option (BitVec 20 × Bool)
  ended : Bool
deriving DecidableEq, Repr

/-- A group (R9, R89, R92, R93, R147, R148). `outside` counts the vector registers that it holds beside what its block has reserved
(R125, R129). Registers not listed hold zero, but for vector registers, which hold an
undefined value until they are first written. -/
structure Group where
  phase : GroupPhase
  block : Nat
  stage : BitVec 2
  member : Nat
  s : Table Word
  v : Table LaneWords
  p : Table LaneMask
  wid : Vector DWord 96
  fpc : BitVec 3
  fps : BitVec 5
  shrink : Bool
  tensor : BitVec 8
  outside : Nat
  level : Level
  splits : Table Split
deriving DecidableEq, Repr

/-- What a load still to issue has read already: a load is never ordered after an earlier read by control dependence alone (R253). The
value is of `n` bytes at a place, for a cnt8x32 cell its Sum; `dirty` numbers the registers on which the address of that load must not
depend, as `Reg.number` does. -/
structure EarlyRead where
  place : Place
  va : Nat
  n : Nat
  value : QWord
  dirty : List Nat
deriving DecidableEq, Repr

/-- The rest of a group: what stands beside its registers (R83, R139, R213, R253, R348, R358, R372). `before` is the group as
it stood before a rendezvous that its held REGROUP has made, which the words of that issue group still read (R67, R135). -/
structure GroupSys where
  csr : GroupCsr
  seg : Segments
  segAttach : Segments
  ld : List Pending
  st : List Pending
  cp : List Pending
  tm : List Pending
  pendingFault : Option NonMonotone
  bars : Table BarFlags
  acqAfter : List Nat
  relAfter : List Nat
  stop : Option Stop
  attachAge : Nat
  before : Option Group
  early : List EarlyRead
deriving DecidableEq, Repr

/-! ## Blocks, launches -/

/-- A stage descriptor (R118). -/
structure Stage where
  entry : BitVec 20
  min : Nat
  max : Nat
  vregs : Nat
  barmask : BitVec 16
deriving DecidableEq, Repr

/-- A launch header (R117). -/
structure Header where
  stages : List Stage
  blklvl : Nat
  restart : Bool
  stats : Bool
  prio : Nat
  latbound : Nat
  widths : List Nat
  place : List Nat
  blocks : Nat
  code : Nat
  param : Nat
  scratch : Nat
  acc : Nat
  relays : Nat
  barriers : Nat
  priv : Nat
  statva : Nat
  afterva : Nat
  afterv : Nat
  doneva : Nat
  donev : Nat
  relaytab : Nat
deriving DecidableEq, Repr

/-- A relay descriptor (R309). -/
structure RelayDesc where
  cap : Nat
  prod : Nat
  cons : Nat
  strict : Bool
  autofree : Bool
  ring : Nat
deriving DecidableEq, Repr

/-- A relay of a resident block (R310): the batons in the ring, `held`, and where the head stands; ALLOW is the rest of
CAP. `spoiled` lists ring entries that a store has overwritten, whose baton is undefined. `fullSince` and `emptySince`
are the clocks from which it has held half its capacity, or nothing (R129, R130), `copyAt` the clock and the request of the latest
push of a copy (R312). -/
structure Relay where
  desc : RelayDesc
  head : Nat
  filled : Nat
  held : Nat
  spoiled : List Nat
  fullSince : Option Nat
  emptySince : Option Nat
  copyAt : Option (Nat × Nat)
deriving DecidableEq, Repr

/-- Allowance of a relay: FILLED + ALLOW + HELD = CAP (R310). -/
def Relay.allow (r : Relay) : Nat := r.desc.cap - r.filled - r.held

/-- A collective copy that has not started (R303): the fields its first slice recorded, and the slices posted. -/
structure Gather where
  request : Nat
  fields : List Word
  record : List DWord
  bm : BitVec 5
  ch : Chan
  rows : List (Nat × Nat)
  slices : List (Nat × Nat)
deriving DecidableEq, Repr

/-- A resident block (R125, R139, R208, R232, R306, R309, R332, R366, R368). `setAt` holds, for a bitmap, the latest clock on which
bits of it were set, and those bits (R306), `reserved` the group slots reserved for it (R125). -/
structure Block where
  launch : Nat
  number : Nat
  core : Nat
  context : Nat
  partition : Nat
  header : Header
  headerAddr : Nat
  slot0 : Nat
  reserved : List Nat
  barriers : Table Barrier
  relays : Table Relay
  bitmaps : Table DWord
  setAt : Table (Nat × DWord)
  gathers : Table Gather
  units : Table Nat
  stackBase : Nat
  stats : Table Word
  dirty : BitVec 192
  wroteOut : Bool
  since : Nat
  growFrom : Table Nat
  shrinkFrom : Table Nat
  drain : Option Nat
  changes : Nat
deriving DecidableEq, Repr

/-- Progress of a launch in its queue (R119, R123, R124). -/
inductive LaunchPhase where
  | queued | waiting | ready | completing
deriving DecidableEq, Repr

/-- A launch (R119, R122 to R126, R209). `bindings` holds, for a placement entry and a set of blocks, the cluster or
die it is bound to and the blocks of the set that have not ended. -/
structure Launch where
  headerAddr : Nat
  context : Nat
  partition : Nat
  queue : Nat
  phase : LaunchPhase
  header : Header
  relays : List RelayDesc
  next : Nat
  requeued : List Nat
  ended : Nat
  runTime : Nat
  stats : Table Word
  order : Option Nat
  bindings : List (Nat × Nat × Nat × Nat)
  command : Option (Nat × Nat)
  lastDie : Nat
  recheckAt : Nat
  missing : List Nat
deriving DecidableEq, Repr

/-! ## Cores and clusters -/

/-- A TLB entry: a leaf held for one context (R382). `level` is 0, 1 or 2. -/
structure TlbEntry where
  context : Nat
  va : Nat
  level : Nat
  leaf : DWord
deriving DecidableEq, Repr

/-- One side of a copy, resolved at issue (R295): a virtual address range, a scratchpad range, or flash. -/
inductive Side where
  | global (va : Nat)
  | pad (core off : Nat)
  | flash (off : Nat)
deriving DecidableEq, Repr

/-- What a started tensor copy writes (R300 to R305). -/
structure TensorCopy where
  base : Nat
  fmt : Fmt
  dims : List Nat
  rank : Nat
  fill : Word
  strides : List Nat
  origin : List Int
  rowElems : Nat
  rowBytes : Nat
  rows : List Nat
  tileRows : Nat
deriving DecidableEq, Repr

/-- A request of the copy engine (R292, R293, R297, R305). `left` are the units of 16 bytes not yet written, `entries` the
group slot and counter entry of each issuer; `after` the operations that come before its first read; `pushSince` the clock
from which its push waits for allowance; `accepted` numbers requests in order of acceptance; `read` and `held` are the bytes
that the reads of units have seen (R255), which the copy is still to write. -/
structure CopyRequest where
  id : Nat
  block : Nat
  context : Nat
  source : Side
  dest : Side
  len : Nat
  tensor : Option TensorCopy
  bm : Option Nat
  ch : Chan
  baton : Word
  entries : List (Nat × Nat)
  after : List Nat
  ready : Bool
  started : Bool
  pushSince : Option Nat
  left : List Nat
  accepted : Nat
  read : Table (BitVec 32)
  held : Memory
deriving DecidableEq, Repr

/-- Per-core state beside its groups (R14, R92, R237, R292, R348, R371, R373, R374, R382). `corrected` lists the clocks of the
errors its arrays have corrected (R438), `turnAt` is the clock of its latest issue (R66). -/
structure CoreState where
  tags : Table Word
  icache : Table Word
  kcache : Table Word
  tlb : List TlbEntry
  copies : List CopyRequest
  bkpt : Vector DWord 4
  dctl : DWord
  dstat : DWord
  lastIssued : Option (Nat × Nat)
  turnAt : Option Nat
  paused : Bool
  corrected : List Nat
  launches : List Nat
deriving DecidableEq, Repr

/-- An entry of a cluster's reservation table (R324). `running` names the array that serves it; `spoiled` says that a
range of it was written meanwhile, `finished` that the operation is complete and only its operand ranges are still kept,
until a WAIT covers it; `grant` numbers its pass, `later` counts the tm operations its group has issued since (R83, R255).
-/
structure MatrixEntry where
  id : Nat
  core : Nat
  slot : Nat
  octet : Nat
  block : Nat
  context : Nat
  prio : Nat
  key : BKey
  aCore : Nat
  aOff : Nat
  afmt : Fmt
  acc : Nat
  posted : Nat
  after : List Nat
  running : Option Nat
  grant : Nat
  spoiled : Bool
  finished : Bool
  later : Nat
deriving DecidableEq, Repr

/-- A systolic array (R318, R325, R326, R338). -/
structure ArrayState where
  key : Option BKey
  stale : Bool
  pins : List Nat
  busy : List Nat
  lastUse : Nat
deriving DecidableEq, Repr

/-- The matrix engine of a cluster (R324, R325). -/
structure Cluster where
  entries : List MatrixEntry
  arrays : Table ArrayState
  grants : Nat
deriving DecidableEq, Repr

/-! ## Dies: translation and faults -/

/-- Who waits for a missing page (R352, R399, R123); a host command is one whose copy or wait meets it (R425). -/
inductive Waiter where
  | split (group split : Nat)
  | launch (id : Nat)
  | command (space : Nat) (seq : Word)
deriving DecidableEq, Repr

/-- A fault-queue entry (R399) with its wake list (R400) and the mode in which its service began (R30). -/
structure FaultEntry where
  vpage : Nat
  kind : BitVec 5
  part : Nat
  context : Nat
  vdie : Nat
  core : Nat
  slot : Nat
  count : Nat
  seq : Nat
  wake : List Waiter
  forwarded : Bool
  assisted : Bool
deriving DecidableEq, Repr

/-- A walk in progress and the splits that joined it (R382). -/
structure MissEntry where
  context : Nat
  vpage : Nat
  waiters : List Nat
deriving DecidableEq, Repr

/-- A near-tier die beside its cores (R371, R382, R399, R400). -/
structure Die where
  tlb : List TlbEntry
  misses : List MissEntry
  faults : List FaultEntry
  held : List FaultEntry
  faultSeq : Nat
  spareUsed : Bool
deriving DecidableEq, Repr

/-! ## Contexts -/

/-- A reservation of the fault service (R401, R425 subcode 0x07): a range and leaf bits 17:2. -/
structure Reservation where
  va : Nat
  len : Nat
  attrs : BitVec 16
deriving DecidableEq, Repr

/-- A lattice region's laps on one die (R270, R271, R274, R286). `pending` are the virtual dies it still has to exchange
with in this lap, `begun` the clock at which the lap began, `inLap` whether it is running, `ends` the laps that have ended. -/
structure LapState where
  number : Nat
  begun : Nat
  inLap : Bool
  pending : List Nat
  ends : Nat
deriving DecidableEq, Repr

/-- The image of a saved block in its context's save area (R368), as data, with its coded bytes. `pads` is the block's
scratchpad from its first slot on, `accs` the entries of its accumulator segment, `afterLaps` the laps that must have ended on
a die for each region before the block may be restored there (R289), `saved` that it has not been restored since, `queued` that
it waits for its restore (R425). -/
structure Image where
  launch : Nat
  number : Nat
  seq : Nat
  sealed : Bool
  drained : Bool
  miss : Bool
  block : Block
  groups : List (Nat × Group × GroupSys)
  copies : List CopyRequest
  accs : Table QWord
  tags : Table Word
  pads : Memory
  header : List Byte
  coded : List Byte
  tag : List Byte
  die : Nat
  afterLaps : Table Nat
  saved : Bool
  queued : Bool
deriving DecidableEq, Repr

/-- A call ring or context event queue in the coherent window (R426). `head` counts the entries that the module has
produced, `tail` those it has consumed; the other word is the host's and stands in the window. -/
structure Ring where
  base : Nat
  logSize : Nat
  fromHost : Bool
  purpose : Nat
  head : Word
  tail : Word
deriving DecidableEq, Repr

/-- An event record of a context (R356). -/
structure EventRecord where
  kind : Nat
  cls : Nat
  sub : Nat
  context : Nat
  loc : Nat
  vdie : Nat
  core : Nat
  slot : Nat
  split : Nat
  addr : DWord
  lane : Nat
deriving DecidableEq, Repr

/-- A context (R21, R23, R233, R267, R348, R368, R377, R378, R389, R393, R401, R404, R425). -/
structure Context where
  partition : Nat
  space : Nat
  prot : Bool
  dbg : Bool
  tbase : Nat
  vdies : List Nat
  roster : List Nat
  tvec : DWord
  pmiss : DWord
  windows : Table (BitVec 256)
  regions : Table QWord
  laps : Table LapState
  dbgHeld : Bool
deriving DecidableEq, Repr

/-- What firmware and the security core keep for a context. `tables` are the frames that hold its translation
tables, `measured` the code images by their frames and length. -/
structure ContextFirm where
  allowance : Nat
  reservations : List Reservation
  ring : Nat
  backlog : List EventRecord
  latest : List (Nat × Nat × Nat)
  images : List Image
  ckint : Nat
  ckAt : Nat
  ckNumber : Nat
  written : List Nat
  tables : List Nat
  measured : List (List Nat × Nat)
  digest : BitVec 384
deriving DecidableEq, Repr

/-! ## Ownership, partitions, module -/

/-- States of a frame (R383). -/
inductive FrameState where
  | free | owned | zeroing | quarantined
deriving DecidableEq, Repr

/-- A frame ownership record (R383). -/
structure FrameRecord where
  owner : BitVec 16
  part : BitVec 4
  pclass : BitVec 2
  scok : Bool
  code : Bool
  lat : Bool
  ltype : BitVec 4
  host : Bool
  state : FrameState
  key : BitVec 32
deriving DecidableEq, Repr

/-- A partition table entry (R387). -/
structure Partition where
  gran : BitVec 16
  valid : Bool
  prot : Bool
  checked : Bool
  sealed : Bool
  mode : BitVec 6
  farshare : BitVec 16
deriving DecidableEq, Repr

/-- A page in a checkpoint (R405): its address, the frame and the record it had at the cut, its flash location, its item word and its
content; of a sealed context also the encrypted content with its tag. `now` is the frame that the page has moved to since. -/
structure SavedPage where
  vpage : Nat
  frame : Nat
  now : Nat
  flash : Nat
  item : Nat
  record : FrameRecord
  data : Memory
  coded : List Byte
  tag : List Byte
deriving DecidableEq, Repr

/-- A checkpoint on module flash (R404, R405): the context and what firmware keeps for it as they stood at the cut, the leaves of
its tables by address and level, its pages, launches, queues and images. `coded` and `tag` are the encrypted page map of a sealed
context. `command` names the command that waits for it, `bad` says that its flash is damaged (R439). -/
structure Checkpoint where
  seq : Nat
  hostTriggered : Bool
  sealed : Bool
  context : Context
  firm : ContextFirm
  leaves : List (Nat × Nat × DWord)
  pages : List SavedPage
  launches : List (Nat × Launch)
  queues : Table (List Nat)
  images : List Image
  manifest : List Byte
  coded : List Byte
  tag : List Byte
  complete : Bool
  command : Option (Nat × Word)
  bad : Bool
deriving DecidableEq, Repr

/-- What the frames of a range of physical addresses are (R10, R19, R22). -/
inductive FrameKind where
  | near (die stack : Nat)
  | far (die : Nat)
  | window (space : Nat)
  | command (space : Nat)
deriving DecidableEq, Repr

/-- A range of frames of the module: the first frame number and how many (R19). -/
structure FrameRange where
  first : Nat
  count : Nat
  kind : FrameKind
deriving DecidableEq, Repr

/-- A page moving between frames of the near or far tier, with its number of frames; a move that the host names is reported
(R261, R403). -/
structure TierMove where
  id : Nat
  context : Nat
  vpage : Nat
  source : Nat
  dest : Nat
  frames : Nat
  host : Bool
deriving DecidableEq, Repr

/-! ## Hosts -/

/-- Forms of a tenant page (R411). -/
inductive PageForm where
  | plain | compressed | zero | poisoned
deriving DecidableEq, Repr

/-- A tenant map entry (R411); V follows from the extents. `sectors` numbers the 4 KiB sectors of a compressed page, 16 to a far-tier
frame, as its sector list has them: NSECT is their count minus 1. `packed` is what the blocks of a compressed page decode to, `bad`
the blocks that fail to decode, `badLines` the lines that were poisoned when it was compressed, and `lost` says that a parity group
took the page (R415, R430, R439). -/
structure TenantPage where
  form : PageForm
  moving : Bool
  shared : Bool
  loc : Nat
  sectors : List Nat
  packed : Memory
  bad : List Nat
  badLines : List Nat
  lost : Bool
deriving DecidableEq, Repr

/-- A move of a tenant page (R418): to a frame, or to compressed form. `remark` lists 4 KiB blocks written since the move
began, to be compressed again. -/
structure TenantMove where
  page : Nat
  compress : Bool
  dest : Nat
  remark : List Nat
deriving DecidableEq, Repr

/-- An event of a tenant space (R427). -/
structure HostEvent where
  kind : Nat
  cause : Nat
  addr : Nat
  len : Nat
  time : Nat
deriving DecidableEq, Repr

/-- How far an accepted command is: `released` is one whose AFTER is complete (R422). -/
inductive CommandPhase where
  | accepted | released | started | done
deriving DecidableEq, Repr

/-- An accepted command (R421, R422, R424, R425): its sequence, the slot's 256 bytes and how far it is; `copied` are the lines
of a host copy that have been performed, or the blocks that a pre-emption still drains, `inReset` that it was accepted during a
compute reset (R431). -/
structure Command where
  seq : Word
  slot : List Byte
  phase : CommandPhase
  status : Nat
  result : Nat
  startedAt : Nat
  copied : List Nat
  inReset : Bool
deriving DecidableEq, Repr

/-- A tenant space (R409 to R428). Its windows' bytes stand in memory; `buffer` holds written lines of compressed pages
(R414), by line number; `pools` gives the first pool frame of an extent of the shared pool (R428). -/
structure Space where
  port : Nat
  linkUp : Bool
  extents : List (Nat × Nat)
  offers : List (Nat × Nat)
  pools : Table Nat
  asked : List (Nat × Nat)
  pages : Table TenantPage
  mapBase : Nat
  buffer : Table (List Byte)
  moves : List TenantMove
  next : Word
  done : Word
  halt : Bool
  evlost : Word
  commands : List Command
  events : Word
  backlog : List HostEvent
  rings : Table Ring
deriving DecidableEq, Repr

/-- What a host receives (R415 to R417, R424). -/
inductive HostMessage where
  | data (space addr : Nat) (bytes : List Byte)
  | poison (space addr : Nat)
  | written (space addr : Nat)
  | interrupt (space : Nat) (seq : Word)
  | backInvalidate (space addr : Nat)
  | ringEntry (space ring : Nat) (bytes : List Byte)
  | askRelease (space first len : Nat)
deriving DecidableEq, Repr

/-- What leaves over the fabric (R219, R234, R274). -/
inductive FabricMessage where
  | read (device page off n id : Nat)
  | write (device page off n : Nat) (data : QWord)
  | atomic (fn : AtomFn) (device page off n : Nat) (data : QWord)
  | contribution (device group off op : Nat) (elements : List Byte)
  | snapshot (device tag vdie : Nat) (bytes : Memory)
  | answer (device page off n : Nat) (data : QWord)
deriving DecidableEq, Repr

/-- A unit of 4,096 bytes of a persistent region as a copy has left it, not yet durable (R298). -/
structure LateUnit where
  copy : Nat
  unit : Nat
  data : Memory
deriving DecidableEq, Repr

/-- A persistent region on module flash (R298, R429). `data` is durable; `late` holds units written since, in order, `bad` the units
that cannot be read (R439). -/
structure FlashRegion where
  name : DWord
  size : Nat
  context : Option Nat
  measure : Option (BitVec 384)
  data : Memory
  late : List LateUnit
  bad : List Nat
deriving DecidableEq, Repr

/-- A host-file fetch outstanding (R401). -/
structure Fetch where
  server : Nat
  die : Nat
  seq : Nat
  space : Nat
  ring : Nat
deriving DecidableEq, Repr

/-- An entry of the module error log (R441). -/
structure LogEntry where
  type : Nat
  die : Nat
  unit : Nat
  context : Nat
  addr : DWord
  time : Nat
  count : Nat
deriving DecidableEq, Repr

/-- Power and reset state of the module (R434, R435, R436, R442). -/
structure Power where
  moduleUp : Bool
  computeUp : Bool
  cap : Nat
  gated : Nat
  gatedSince : Option Nat
  logged : Bool
  upSince : Nat
  resetting : Bool
deriving DecidableEq, Repr

/-- Everything of the module beside its cores, contexts and memories: tables, hosts, flash, fabric, logs, power. `frameErrors`
lists the clocks of a frame's corrected errors, `counts` the corrected errors of stacks (0 to 15) and packages (from 16) (R438),
`imageSeqs` counts the images of each context and never goes back (R368), `ended` are records of contexts that have ended, each with
its space and ring (R357), `toResume` the contexts to resume, with the records that wait for their queues, once the compute domain is
up (R435, R436), `votes` what the security cores' next joint writes and key operations find: agreement or not (R27; entry 95). -/
structure Module where
  partitions : Table Partition
  frames : Table FrameRecord
  addrMap : List FrameRange
  frameSets : Table (List Nat)
  poisoned : List Nat
  tierMoves : List TierMove
  frameErrors : Table (List Nat)
  counts : Table Nat
  spaces : Table Space
  hostOut : List HostMessage
  flash : List FlashRegion
  fetches : List Fetch
  checkpoints : Table (List Checkpoint)
  pacers : Table DWord
  budgets : Table Nat
  turns : Table Nat
  serviceDown : List Nat
  errorLog : List LogEntry
  reports : List (List Byte)
  fabricOut : List FabricMessage
  packages : Table (List Nat)
  imageSeqs : Table Nat
  ended : List (Nat × Nat × EventRecord)
  toResume : List (Nat × Checkpoint × List EventRecord)
  power : Power
  votes : List Bool
deriving DecidableEq, Repr

/-! ## The machine -/

/-- Which split of which group issues (R113). -/
structure Cursor where
  core : Nat
  slot : Nat
  split : Nat
deriving DecidableEq, Repr

/-- A read that a load still to issue of a group makes now: `n` bytes at a global address, or at an offset of the scratchpad of core `pad`
(R253). -/
structure EarlyPick where
  core : Nat
  slot : Nat
  pad : Option Nat
  addr : Nat
  n : Nat
deriving DecidableEq, Repr

/-- One turn to come, as data: how many clocks pass first, which core may issue, and the event that happens instead if
one does. Events come from outside the module or stand for a choice the spec leaves to the device. `votes` says whether the security
cores agree on each write and key operation of the turn, one after another (R27), `early` names what loads still to issue read before the
turn (R253). -/
structure Turn where
  clocks : Nat
  core : Nat
  event : Option Instr
  votes : List Bool := []
  early : List EarlyPick := []
deriving DecidableEq, Repr

/-- What the latest word did (R59, R71, R72, R356). -/
inductive Last where
  | done | trapped | suspended | held | killed | idle
deriving DecidableEq, Repr

/-- What the words of an open chain read (R67): the group, its block and the context as they stood before the chain, with
the flags and the transfer the chain has made so far. -/
structure Snap where
  group : Group
  sys : GroupSys
  block : Block
  context : Context
  flags : BitVec 5
  moved : Bool
deriving DecidableEq, Repr

/-- The module. `dispatched` counts launches that have dispatched (R334), `served` holds the queue served last for each
priority of a partition (R124). -/
structure State where
  cur : Cursor
  schedule : List Turn
  now : Nat
  tick : Nat
  last : Last
  snap : Option Snap
  nextId : Nat
  groups : Table Group
  sys : Table GroupSys
  blocks : Table Block
  launches : Table Launch
  queues : Table (List Nat)
  dispatched : Nat
  served : Table Nat
  cores : Table CoreState
  clusters : Table Cluster
  dies : Table Die
  contexts : Table Context
  firm : Table ContextFirm
  mem : Memory
  spad : Memory
  acc : Table QWord
  hw : Module
deriving DecidableEq, Repr

/-! ## Outcomes -/

/-- Why the machine stops with a fault. -/
inductive Fault where
  /-- Raised by `step` when the module has no power and the turn at hand brings no POWER_UP (R432, R434). Safe: nothing
  runs in a module without power. -/
  | unpowered
deriving DecidableEq, Repr

/-- Why a step has no meaning. -/
inductive Refusal where
  /-- Raised by `exec` for an instruction whose meaning is not written. Safe: nothing can be proved of it. -/
  | notModelled (mnemonic : String)
deriving DecidableEq, Repr

/-! ## Reset -/

/-- A split that does not live. -/
def Split.none : Split :=
  { mask := 0, pc := 0, word := 0, handler := false, record := Option.none, age := 0, back := 0, issuedAt := 0, yielded := false,
    giveWay := false, waits := 0, starved := false, frozen := false, suspended := false, missing := [], rejected := [],
    packet := Option.none, hold := Option.none, arrivals := [], drop := Option.none, passBreak := false }

/-- The registers of a free group slot, and of a group just spawned before its ATTACH (R90, R93, R133). -/
def Group.free : Group :=
  { phase := .free, block := 0, stage := 0, member := 0, s := [], v := [], p := [], wid := Vector.replicate 96 0,
    fpc := 0, fps := 0, shrink := false, tensor := 0, outside := 0, level := .u, splits := [] }

/-- CSRs at ATTACH (R348, R349). The spec gives elane no reset value: 0x7F, "no lane" (DESIGN CHOICE, entry 6). -/
def GroupCsr.reset : GroupCsr :=
  { lost := false, epc := 0, ecause := 0, eaddr := 0, elane := 0x7F,
    earg := Vector.replicate 6 0, ssave := Vector.replicate 4 0 }

def Segments.none : Segments := { g := 0, s := 0, c := 0, a := 0, p := 0 }

def GroupSys.free : GroupSys :=
  { csr := GroupCsr.reset, seg := Segments.none, segAttach := Segments.none, ld := [], st := [], cp := [], tm := [],
    pendingFault := none, bars := [], acqAfter := [], relAfter := [], stop := none, attachAge := 0,
    before := none, early := [] }

def Stage.none : Stage := { entry := 0, min := 0, max := 0, vregs := 0, barmask := 0 }

def Header.none : Header :=
  { stages := [], blklvl := 0, restart := false, stats := false, prio := 0, latbound := 0, widths := [], place := [],
    blocks := 0, code := 0, param := 0, scratch := 0, acc := 0, relays := 0, barriers := 0, priv := 0, statva := 0,
    afterva := 0, afterv := 0, doneva := 0, donev := 0, relaytab := 0 }

/-- The relay of an unbound channel: no capacity. -/
def Relay.unbound : Relay :=
  { desc := { cap := 0, prod := 0, cons := 0, strict := false, autofree := false, ring := 0 }, head := 0, filled := 0,
    held := 0, spoiled := [], fullSince := Option.none, emptySince := Option.none, copyAt := Option.none }

def Block.none : Block :=
  { launch := 0, number := 0, core := 0, context := 0, partition := 0, header := Header.none, headerAddr := 0,
    slot0 := 0, reserved := [], barriers := [], relays := [], bitmaps := [], setAt := [], gathers := [], units := [], stackBase := 0, stats := [],
    dirty := 0, wroteOut := false, since := 0, growFrom := [], shrinkFrom := [], drain := Option.none, changes := 0 }

def Launch.none : Launch :=
  { headerAddr := 0, context := 0, partition := 0, queue := 0, phase := .queued, header := Header.none, relays := [],
    next := 0, requeued := [], ended := 0, runTime := 0, stats := [], order := Option.none, bindings := [],
    command := Option.none, lastDie := 0, recheckAt := 0, missing := [] }

/-- A core at reset: caches and TLB empty, tags invalid, debug registers as R373 and R374 give them (dctl.SELSTOP 1). -/
def CoreState.reset : CoreState :=
  { tags := [], icache := [], kcache := [], tlb := [], copies := [], bkpt := Vector.replicate 4 0,
    dctl := 0x40, dstat := 0, lastIssued := none, turnAt := none, paused := false, corrected := [], launches := [] }

def ArrayState.reset : ArrayState := { key := none, stale := false, pins := [], busy := [], lastUse := 0 }

def Cluster.reset : Cluster := { entries := [], arrays := [], grants := 0 }

def Die.reset : Die := { tlb := [], misses := [], faults := [], held := [], faultSeq := 0, spareUsed := false }

/-- No context. pmiss has no reset value in the spec: 0 (DESIGN CHOICE, entry 6). -/
def Context.none : Context :=
  { partition := 0, space := 0, prot := false, dbg := false, tbase := 0, vdies := [],
    roster := [], tvec := 0, pmiss := 0, windows := [], regions := [], laps := [],
    dbgHeld := false }

def ContextFirm.none : ContextFirm :=
  { allowance := 0, reservations := [], ring := 0, backlog := [], latest := [], images := [], ckint := 0,
    ckAt := 0, ckNumber := 0, written := [], tables := [], measured := [], digest := 0 }

/-- A free frame: every field of its record zero (R383). -/
def FrameRecord.free : FrameRecord :=
  { owner := 0, part := 0, pclass := 0, scok := false, code := false, lat := false, ltype := 0, host := false,
    state := .free, key := 0 }

/-- A partition that does not exist: every field zero (R387). -/
def Partition.none : Partition :=
  { gran := 0, valid := false, prot := false, checked := false, sealed := false, mode := 0, farshare := 0 }

/-- A tenant page that holds no frame: FORM zero (R411). -/
def TenantPage.absent : TenantPage :=
  { form := .zero, moving := false, shared := false, loc := 0, sectors := [], packed := [], bad := [], badLines := [], lost := false }

/-- 4 GiB, the boot extent of every tenant space (R412, R436). -/
def bootExtent : Nat := 0x100000000

/-- A tenant space as power-up presents it: the boot extent, both windows, NEXT 1 (R412, R423, R436). Space `n` is bound to
port `n mod 4` (DESIGN CHOICE, entry 8). -/
def Space.boot (n : Nat) : Space :=
  { port := n % 4, linkUp := true, extents := [(0, bootExtent)], offers := [], pools := [], asked := [], pages := [],
    mapBase := 0, buffer := [], moves := [], next := 1, done := 0, halt := false, evlost := 0, commands := [],
    events := 0, backlog := [], rings := [] }

/-- Frames of 64 KiB in one HBM4E stack of 48 GiB (R19). -/
def stackFrames : Nat := 0xC0000

/-- The module's physical address map (DESIGN CHOICE, entry 7): the 16 stacks in order of die, then the 2 TiB of the far
tier, its lower half on far-tier die 0, then the coherent windows (four frames each) and the command windows (sixteen
frames each) of the eight tenant spaces. -/
def addressMap : List FrameRange :=
  (List.range 16).map (fun k => { first := k * stackFrames, count := stackFrames, kind := .near (k / 4) (k % 4) }) ++
  [{ first := 0xC00000, count := 0x1000000, kind := .far 0 },
   { first := 0x1C00000, count := 0x1000000, kind := .far 1 }] ++
  (List.range 8).map (fun k => { first := 0x2C00000 + 4 * k, count := 4, kind := .window k }) ++
  (List.range 8).map (fun k => { first := 0x2C00100 + 16 * k, count := 16, kind := .command k })

/-- The power controller after power-up: the cap at 3,600 W, nothing gated (R442). -/
def Power.reset : Power :=
  { moduleUp := true, computeUp := true, cap := 3600, gated := 0, gatedSince := none, logged := false, upSince := 0,
    resetting := false }

def Module.reset : Module :=
  { partitions := [], frames := [], addrMap := addressMap, frameSets := [], poisoned := [], tierMoves := [],
    frameErrors := [], counts := [], spaces := (List.range 8).map fun n => (n, Space.boot n), hostOut := [], flash := [],
    fetches := [], checkpoints := [], pacers := [], budgets := [], turns := [], serviceDown := [], errorLog := [], reports := [],
    fabricOut := [], packages := [], imageSeqs := [], ended := [], toResume := [], power := Power.reset, votes := [] }

/-- Memory right after reset: zero, but for NEXT = 1 in the front-end status of each coherent window (R423, R433). -/
def Memory.reset : Memory := (List.range 8).map fun n => (65536 * (0x2C00000 + 4 * n) + 0x10000, 1)

/-- The machine right after reset: power-up has run to its end with no checkpoint to resume (R436). No context exists, no
launch is queued, no block is resident; scratchpads and accumulators are zero. -/
def State.reset : State :=
  { cur := { core := 0, slot := 0, split := 0 }, schedule := [], now := 0, tick := 0, last := .idle, snap := none,
    nextId := 1, groups := [], sys := [], blocks := [], launches := [], queues := [], dispatched := 0, served := [], cores := [],
    clusters := [], dies := [], contexts := [], firm := [], mem := Memory.reset, spad := [], acc := [], hw := Module.reset }

end Sys2Proof.Machine
end

