-- ==== Sys2Proof/Machine/Geometry.lean ====
section
/-!
DEFINITION. Shapes: element widths and packing (R192, R299), matrix tiles (R318, R321), the accumulator unit map (R332),
scratchpad slots (R125).
-/

namespace Sys2Proof

open Machine

/-- Width of an element in memory (R192, R299): SC12 stands in 16 bits. -/
def Fmt.element (f : Fmt) : Nat := f.bits

/-- Rows K of a B tile, in elements of an A row (R318). -/
def Fmt.tileK (f : Fmt) (sparse : Bool) : Nat :=
  match f with
  | .e4m3 | .e5m2 | .i8 => if sparse then 192 else 96
  | .e3m2 | .e2m3 | .e2m1 | .d2p8 => 192
  | .bf16 | .f16 => 48
  | .f32 => 12
  | .f64 => 16
  | _ => 0

/-- Columns N of a B tile (R318). -/
def Fmt.tileN : Fmt → Nat
  | .f64 => 32
  | _ => 128

/-- B formats with scales (R318). -/
def Fmt.scaledB : Fmt → Bool
  | .e4m3 | .e5m2 | .i8 | .e3m2 | .e2m3 | .e2m1 | .d2p8 => true
  | _ => false

/-- A formats with scales (R321). -/
def Fmt.scaledA : Fmt → Bool
  | .e4m3 | .e5m2 | .e3m2 | .e2m3 | .e2m1 | .i8 => true
  | _ => false

/-- Bytes of an A tile of 8 rows for a B format: rows, then scales (R321). -/
def tileBytesA (afmt bfmt : Fmt) (sparse : Bool) : Nat :=
  let k := bfmt.tileK sparse
  8 * (k * afmt.element / 8) + (if afmt.scaledA then 2 * (8 * (k / 32)) else 0)

/-- Bytes of a B tile: rows (or values and metadata), then scales (R321). -/
def tileBytesB (bfmt : Fmt) (sparse : Bool) : Nat :=
  let k := bfmt.tileK sparse
  let n := bfmt.tileN
  if sparse then 15360 + 2 * (6 * 128)
  else k * (n * bfmt.element / 8) + (if bfmt.scaledB then 2 * (k / 32 * n) else 0)

/-- Element `n` of a packed run of elements (R192): from the byte that holds its first bit. -/
def elementBits (f : Fmt) (bytes : List Byte) (n : Nat) : Nat :=
  let w := f.element
  ofBytes ((bytes.drop (w * n / 8)).take 9) / 2 ^ (w * n % 8) % 2 ^ w

end Sys2Proof

namespace Sys2Proof.Machine

/-! ## Slots, units -/

/-- Bytes of one scratchpad slot (R125). -/
def slotBytes : Nat := 16384

/-- Slots that a block holds (R125). -/
def Block.slots (b : Block) : Nat := b.header.scratch / slotBytes

/-- A scratchpad byte of core `c` lies in a slot of the block. -/
def Block.holdsPad (b : Block) (c off : Nat) : Bool :=
  b.core == c && b.slot0 * slotBytes ≤ off && off < (b.slot0 + b.slots) * slotBytes

/-- The unit that holds segment entry `x` of a block, if its slot is not empty (R332). -/
def Block.unitOf (b : Block) (x : Nat) : Option Nat := b.units.at? (x / 1024)

/-- The key of segment entry `x` in the accumulator store (R332). -/
def Block.accKey (b : Block) (x : Nat) : Option Nat :=
  (b.unitOf x).map fun u => 32768 * b.core + 1024 * u + x % 1024

/-- The key of a scratchpad byte: 4 MiB for each core. -/
def padKey (core off : Nat) : Nat := 4194304 * core + off

end Sys2Proof.Machine
end

