-- ==== Sys2Proof/Machine/Registers.lean ====
section
/-!
DEFINITION. The named operations of the state: who issues, what a word reads (R67) and writes (R85, R89, R91, R146), how
a word ends (R63, R64, R71, R72), event records (R357), frames cleared and given back (R391).
-/

namespace Sys2Proof.Machine

/-- What one step answers. -/
abbrev Result := Host.Outcome State Fault Refusal

namespace State

/-! ## Who issues -/

/-- Number of a core's group slot in the tables of groups. -/
def groupKey (core slot : Nat) : Nat := 16 * core + slot

/-- The issuing group's number. -/
def gkey (s : State) : Nat := groupKey s.cur.core s.cur.slot

/-- Near-tier die of a core (R12). -/
def dieOf (core : Nat) : Nat := core / 64

/-- Cluster of a core (R92). -/
def clusterOf (core : Nat) : Nat := core / 4

def groupAt (s : State) (k : Nat) : Group := s.groups.get k Group.free
def sysAt (s : State) (k : Nat) : GroupSys := s.sys.get k GroupSys.free
def blockAt (s : State) (id : Nat) : Block := s.blocks.get id Block.none
def launchAt (s : State) (id : Nat) : Launch := s.launches.get id Launch.none
def coreAt (s : State) (c : Nat) : CoreState := s.cores.get c CoreState.reset
def clusterAt (s : State) (c : Nat) : Cluster := s.clusters.get c Cluster.reset
def dieAt (s : State) (d : Nat) : Die := s.dies.get d Die.reset
def contextAt (s : State) (c : Nat) : Context := s.contexts.get c Context.none
def firmAt (s : State) (c : Nat) : ContextFirm := s.firm.get c ContextFirm.none
def frameAt (s : State) (f : Nat) : FrameRecord := s.hw.frames.get f FrameRecord.free
def partitionAt (s : State) (p : Nat) : Partition := s.hw.partitions.get p Partition.none
def spaceAt (s : State) (n : Nat) : Space := s.hw.spaces.get n (Space.boot n)

/-- The issuing group, its block, context, core and split as they stand now. -/
def group (s : State) : Group := s.groupAt s.gkey
def gsys (s : State) : GroupSys := s.sysAt s.gkey
def block (s : State) : Block := s.blockAt s.group.block
def context (s : State) : Context := s.contextAt s.block.context
def core (s : State) : CoreState := s.coreAt s.cur.core

/-- The group as the words of the issue group read it: as it stood before an open chain (R67). -/
def vgroup (s : State) : Group :=
  match s.snap with
  | some k => k.group
  | none => s.group

def vsys (s : State) : GroupSys :=
  match s.snap with
  | some k => k.sys
  | none => s.gsys

def vblock (s : State) : Block :=
  match s.snap with
  | some k => k.block
  | none => s.block

def vcontext (s : State) : Context :=
  match s.snap with
  | some k => k.context
  | none => s.context

end State

/-- Split `n` of a group. -/
def Group.splitAt (g : Group) (n : Nat) : Split := g.splits.get n Split.none

/-- Lanes in no split's mask and no deferred record (R91). -/
def Group.taken (g : Group) : LaneMask :=
  g.splits.foldl (fun m e => m ||| e.2.mask ||| (match e.2.record with | some r => r.2.2 | none => 0)) 0

def Group.dormant (g : Group) : LaneMask := ~~~ g.taken

namespace State

/-- The issuing split as it stands now, and as the words of the issue group read it. -/
def split (s : State) : Split := s.group.splitAt s.cur.split
def vsplit (s : State) : Split := s.vgroup.splitAt s.cur.split

/-- The active lanes of the word at hand (R67, R91). -/
def active (s : State) : LaneMask := s.vsplit.mask

/-! ## Updates -/

def setGroupAt (s : State) (k : Nat) (g : Group) : State := { s with groups := s.groups.set k g }
def setSysAt (s : State) (k : Nat) (g : GroupSys) : State := { s with sys := s.sys.set k g }
def setBlockAt (s : State) (id : Nat) (b : Block) : State := { s with blocks := s.blocks.set id b }
def setLaunchAt (s : State) (id : Nat) (l : Launch) : State := { s with launches := s.launches.set id l }
def setCoreAt (s : State) (c : Nat) (k : CoreState) : State := { s with cores := s.cores.set c k }
def setClusterAt (s : State) (c : Nat) (k : Cluster) : State := { s with clusters := s.clusters.set c k }
def setDieAt (s : State) (d : Nat) (k : Die) : State := { s with dies := s.dies.set d k }
def setContextAt (s : State) (c : Nat) (k : Context) : State := { s with contexts := s.contexts.set c k }
def setFirmAt (s : State) (c : Nat) (k : ContextFirm) : State := { s with firm := s.firm.set c k }
def setHw (s : State) (h : Module) : State := { s with hw := h }
def setFrameAt (s : State) (f : Nat) (r : FrameRecord) : State :=
  s.setHw { s.hw with frames := s.hw.frames.set f r }
def setSpaceAt (s : State) (n : Nat) (x : Space) : State := s.setHw { s.hw with spaces := s.hw.spaces.set n x }
def setMem (s : State) (m : Memory) : State := { s with mem := m }
def setSpad (s : State) (m : Memory) : State := { s with spad := m }
def setLast (s : State) (l : Last) : State := { s with last := l }
def setGroup (s : State) (g : Group) : State := s.setGroupAt s.gkey g
def setSys (s : State) (g : GroupSys) : State := s.setSysAt s.gkey g
def setBlock (s : State) (b : Block) : State := s.setBlockAt s.group.block b
def setSplit (s : State) (x : Split) : State :=
  s.setGroup { s.group with splits := s.group.splits.set s.cur.split x }

/-- A name not used before. -/
def freshId (s : State) : Nat := s.nextId
def bumpId (s : State) : State := { s with nextId := s.nextId + 1 }

end State

/-! ## Destinations not yet counted off (R85) -/

/-- The registers from `r` that a pair or a single value occupies. -/
def regRange (r n : Nat) : List Nat := (List.range n).map (r + ·)

/-- Vector registers that an outstanding operation will write. -/
def OpAct.vdests : OpAct → List Nat
  | .load w x => regRange x.toNat w.regs
  | .atom fn x => regRange x.toNat (if fn.wide then 2 else 1)
  | .latRead w x => regRange x.toNat (if w == .b64 then 2 else 1)
  | .latTry wide x _ => regRange x.toNat (if wide then 2 else 1)
  | .accrd _ d fmt _ _ _ => regRange d.toNat (if fmt.wide then 2 else 1)
  | _ => []

/-- Scalar registers that an outstanding operation will write; am0 to am2 are never written (R100). -/
def OpAct.sdests : OpAct → List Nat
  | .scalarLoad n d => (regRange d.toNat (n / 4)).filter (· < 61)
  | .constLoad d => (regRange d.toNat 1).filter (· < 61)
  | _ => []

/-- Predicates that an outstanding operation will write. -/
def OpAct.pdests : OpAct → List Nat
  | .latTry _ _ p => [p.toNat]
  | .wpin p _ => [p.toNat]
  | _ => []

/-- Operations outstanding whose destinations are not interlocked. -/
def GroupSys.loads (g : GroupSys) : List Pending := g.ld ++ g.tm

/-- Lanes of vector register `r` that an operation will write (R85, R146, R224). -/
def Pending.vlanes (p : Pending) (r : Nat) : LaneMask := if p.act.vdests.contains r then p.mask else 0

/-- Lanes of predicate `r` that an operation will write: all of them for WPIN (R85, R281, R338). -/
def Pending.planes (p : Pending) (r : Nat) : LaneMask :=
  if p.act.pdests.contains r then
    match p.act with
    | .wpin _ _ => BitVec.allOnes 96
    | _ => p.mask
  else 0

/-- Lanes of a vector register, or of a predicate, whose value a load has still to bring. -/
def GroupSys.busyV (g : GroupSys) (r : Nat) : LaneMask := g.loads.foldl (fun m p => m ||| p.vlanes r) 0
def GroupSys.busyS (g : GroupSys) (r : Nat) : Bool := g.loads.any fun p => p.act.sdests.contains r
def GroupSys.busyP (g : GroupSys) (r : Nat) : LaneMask := g.loads.foldl (fun m p => m ||| p.planes r) 0

/-- Lanes `m` marked under number `r`. -/
def markLanes (t : Table LaneMask) (r : Nat) (m : LaneMask) : Table LaneMask := if m = 0 then t else t.set r (t.get r 0 ||| m)

/-- A write of lanes of vector register `r` before its load counts off leaves them undefined at count-off (R85). -/
def Pending.spoilV (r : Nat) (m : LaneMask) (p : Pending) : Pending :=
  { p with spoiled := markLanes p.spoiled r (m &&& p.vlanes r) }

def Pending.spoilS (r : Nat) (p : Pending) : Pending :=
  if p.act.sdests.contains r then { p with spoiled := markLanes p.spoiled r (BitVec.allOnes 96) } else p

def Pending.spoilP (r : Nat) (m : LaneMask) (p : Pending) : Pending :=
  { p with spoiledPreds := markLanes p.spoiledPreds r (m &&& p.planes r) }

namespace State

def spoilV (s : State) (r : Nat) (m : LaneMask) : State :=
  if s.gsys.busyV r &&& m = 0 then s
  else s.setSys { s.gsys with ld := s.gsys.ld.map (Pending.spoilV r m), tm := s.gsys.tm.map (Pending.spoilV r m) }

def spoilS (s : State) (r : Nat) : State :=
  if s.gsys.busyS r then s.setSys { s.gsys with ld := s.gsys.ld.map (Pending.spoilS r) } else s

def spoilP (s : State) (r : Nat) (m : LaneMask) : State :=
  if s.gsys.busyP r &&& m = 0 then s
  else s.setSys { s.gsys with ld := s.gsys.ld.map (Pending.spoilP r m), tm := s.gsys.tm.map (Pending.spoilP r m) }

/-! ## Reading registers -/

/-- Scalar register `r` (R89): s61 to s63 read the active mask of the issuing split. -/
def readS (s : State) (r : SReg) : Word :=
  if r.toNat < 61 then
    if s.vsys.busyS r.toNat then Config.undefined s.tick r.toNat else s.vgroup.s.get r.toNat 0
  else s.active.extractLsb' (32 * (r.toNat - 61)) 32

/-- The pair that begins at scalar register `r` (R73, R98). -/
def readPair (s : State) (r : SReg) : DWord := pair (s.readS r) (s.readS (r + 1))

/-- Vector register `r` of a group: what was last written, or an undefined value (R3, R133). -/
def vectorOf (g : Group) (r : Nat) : LaneWords :=
  match g.v.at? r with
  | some v => v
  | none => LaneWords.ofFn fun l => Config.unsetVector g.block g.member r l

/-- Lane `l` of vector register `r` (R85, R147). -/
def readV (s : State) (r : VReg) (l : Nat) : Word :=
  if (s.vsys.busyV r.toNat).getLsbD l then Config.undefined s.tick (64 + 96 * r.toNat + l) else (vectorOf s.vgroup r.toNat).lane l

/-- Lane `l` of the pair that begins at vector register `r` (R73). -/
def readVPair (s : State) (r : VReg) (l : Nat) : DWord := pair (s.readV r l) (s.readV (r + 1) l)

/-- Lane `l` of the four registers that begin at `r`, bits 31:0 in the first (R215). -/
def readVQuad (s : State) (r : VReg) (l : Nat) : QWord := s.readVPair (r + 2) l ++ s.readVPair r l

/-- Predicate `p`, one bit for each lane; p7 reads as 1 (R148). -/
def readP (s : State) (p : PReg) : LaneMask :=
  if p = 7 then BitVec.allOnes 96
  else
    let busy := s.vsys.busyP p.toNat
    let bits := s.vgroup.p.get p.toNat 0
    if busy = 0 then bits
    else LaneMask.ofFn fun l =>
      if busy.getLsbD l then (Config.undefined s.tick (16384 + 96 * p.toNat + l)).getLsbD 0 else bits.getLsbD l

/-! ## Writing registers -/

/-- The issuing split's mask becomes `m`, as far as R91 lets it: only dormant lanes and lanes it already has are set; a
lane it gives up becomes dormant. -/
def setMask (s : State) (m : LaneMask) : State :=
  let g := s.group
  s.setGroup { g with splits := g.splits.mapVal fun n x =>
    if n = s.cur.split then { x with mask := m &&& (g.dormant ||| x.mask) } else x }

/-- Word `k` of a mask replaced. -/
def maskWord (m : LaneMask) (k : Nat) (w : Word) : LaneMask :=
  LaneMask.ofFn fun l => if l / 32 = k then w.getLsbD (l % 32) else m.getLsbD l

/-- Write scalar register `r` (R89): s61 to s63 change the issuing split's mask under R91. -/
def writeS (s : State) (r : SReg) (w : Word) : State :=
  if r.toNat < 61 then
    (s.spoilS r.toNat).setGroup { s.group with s := s.group.s.set r.toNat w }
  else s.setMask (maskWord s.split.mask (r.toNat - 61) w)

/-- Write the pair that begins at scalar register `r` (R73). -/
def writePair (s : State) (r : SReg) (x : DWord) : State := (s.writeS r x.lo).writeS (r + 1) x.hi

/-- Write vector register `r` in the lanes of `m`; every other lane keeps its value (R146). -/
def writeLanes (s : State) (m : LaneMask) (r : VReg) (f : Nat → Word) : State :=
  let new := LaneWords.ofFn fun l => if m.getLsbD l then f l else (vectorOf s.group r.toNat).lane l
  (s.spoilV r.toNat m).setGroup { s.group with v := s.group.v.set r.toNat new }

/-- Write vector register `r` in the active lanes (R146). -/
def writeV (s : State) (r : VReg) (f : Nat → Word) : State := s.writeLanes s.active r f

/-- Write the pair that begins at `r` in the active lanes. -/
def writeVPair (s : State) (r : VReg) (f : Nat → DWord) : State :=
  (s.writeV r fun l => (f l).lo).writeV (r + 1) fun l => (f l).hi

/-- Write predicate `p` in the lanes of `m`; a write to p7 is discarded (R148). -/
def writePLanes (s : State) (m : LaneMask) (p : PReg) (f : Nat → Bool) : State :=
  if p = 7 then s
  else
    let new := LaneMask.ofFn fun l => if m.getLsbD l then f l else (s.group.p.get p.toNat 0).getLsbD l
    (s.spoilP p.toNat m).setGroup { s.group with p := s.group.p.set p.toNat new }

/-- Write predicate `p` in the active lanes (R148). -/
def writeP (s : State) (p : PReg) (f : Nat → Bool) : State := s.writePLanes s.active p f

/-- Write one truth value to all 96 lanes of predicate `p`. -/
def writePAll (s : State) (p : PReg) (b : Bool) : State := s.writePLanes (BitVec.allOnes 96) p fun _ => b

/-- Raise sticky flags (R93). In a chain they are also kept apart, to be ORed into what an SWR of the chain writes. -/
def raiseFlags (s : State) (f : BitVec 5) : State :=
  let s := s.setGroup { s.group with fps := s.group.fps ||| f }
  match s.snap with
  | some k => { s with snap := some { k with flags := k.flags ||| f } }
  | none => s

/-! ## How a word ends -/

/-- The split after an issue group of it has issued: nothing holds it any more (R72, R113). Its count of backward transfers
begins anew when it did not issue on the clock before (R114); an arrival of this code's BAR.SYNC is spent (R142). -/
def issued (now : Nat) (x : Split) : Split :=
  { x with issuedAt := now, hold := none, rejected := [], waits := 0, yielded := false, giveWay := false, starved := false,
           suspended := false, arrivals := x.arrivals.filter (·.handler != x.handler), passBreak := false,
           back := if x.issuedAt + 1 = now then x.back else 0 }

/-- The resume point after word `w` of a packet: the next word, or word 0 of the next packet (R63, R64). -/
def nextWord (x : Split) (w : Nat) : Split :=
  if w < 2 then { x with word := w + 1 } else { x with pc := x.pc + 1, word := 0, packet := none }

/-- A word that has taken effect. Outside a chain the split moves to the next word; in a chain the resume point stays until
the chain closes (R64, R66). -/
def done (s : State) : State :=
  let s := { s with tick := s.tick + 1, last := .done }
  match s.snap with
  | some _ => s
  | none => s.setSplit (issued s.now (nextWord s.split s.split.word))

/-- A count of taken backward transfers after one to `target` on clock `now` (R114). -/
def backCount (now : Nat) (x : Split) (target : BitVec 20) : Nat :=
  if target.toNat ≤ x.pc.toNat then (issued now x).back + 1 else 0

/-- A taken transfer to word 0 of packet `target`, which ends its word (R63, R103, R114). -/
def transfer (s : State) (target : BitVec 20) : State :=
  let x := s.split
  let s := s.setSplit
    { issued s.now x with pc := target, word := 0, packet := none, back := backCount s.now x target }
  let s := { s with tick := s.tick + 1, last := .done }
  match s.snap with
  | some k => { s with snap := some { k with moved := true } }
  | none => s

/-- A control word that moves the split to the next packet, whatever words follow it (R63, R70). -/
def nextPacket (s : State) : State :=
  let x := s.split
  let s := s.setSplit { issued s.now x with pc := x.pc + 1, word := 0, packet := none }
  let s := { s with tick := s.tick + 1, last := .done }
  match s.snap with
  | some k => { s with snap := some { k with moved := true } }
  | none => s

/-- A blocking word that cannot proceed: no effect but what the split remembers of it (R72). -/
def held (s : State) (h : Hold) : State :=
  { s.setSplit { s.split with hold := some h } with last := .held }

/-- The hold of a split, or a new one that begins now. -/
def holdOf (s : State) : Hold :=
  s.split.hold.getD
    { since := s.now, changes := some s.block.changes, regroup := none, lap := none, accUnits := none, chans := [],
      publish := none }

/-- A word that is not ready for a reason other than a blocking word: a counter at its limit, no free entry (R83, R113). -/
def stalled (s : State) : State := { s with last := .held }

/-! ## Event records (R356, R357, R427) -/

/-- Microseconds since power-up on the model's clock of 2.5 GHz (R6, R441). -/
def micros (s : State) : Nat := (s.now - s.hw.power.upSince) / 2500

/-- Physical address of a byte of a space's coherent window (R410, R419). -/
def windowBase (space : Nat) : Nat := 65536 * (0x2C00000 + 4 * space)

/-- Physical address of a byte of a space's command window (R410, R421). -/
def commandBase (space : Nat) : Nat := 65536 * (0x2C00100 + 16 * space)

/-- A new entry of the module error log, the oldest overwritten when 4,096 stand (R441). -/
def logError (s : State) (e : LogEntry) : State :=
  let log := s.hw.errorLog ++ [e]
  s.setHw { s.hw with errorLog := if 4096 < log.length then log.drop 1 else log }

/-- A write or key operation on which the two security cores do not agree: refused and logged (R27, R441). -/
def disagree (s : State) : State :=
  s.logError { type := 8, die := 0xFF, unit := 0, context := 0, addr := 0, time := s.micros, count := 0 }

/-- The security cores agree on their next joint act, as the turn has it. -/
def agreed (s : State) : Bool := s.hw.votes.headD true

/-- One joint act of the security cores is over. -/
def voted (s : State) : State := s.setHw { s.hw with votes := s.hw.votes.drop 1 }

/-- A write of the ownership table, or a key operation, that the security cores do both (R27): where they disagree it has no effect but
the log (entry 95). -/
def decided (s : State) (act : State → State) : State := if s.agreed then act s.voted else s.voted.disagree

/-- The 32 bytes of an event record (R356). -/
def recordBytes (r : EventRecord) : List Byte :=
  toBytes 1 r.kind ++ toBytes 1 r.cls ++ toBytes 1 r.sub ++ toBytes 1 0 ++ toBytes 4 r.context ++ toBytes 4 r.loc ++
  toBytes 1 r.vdie ++ toBytes 1 r.core ++ toBytes 1 r.slot ++ toBytes 1 r.split ++ toBytes 8 r.addr.toNat ++
  toBytes 1 r.lane ++ toBytes 7 0

/-- Bytes that the module writes inside one line of a coherent window: the host's copy of the line is back-invalidated first
(R420). -/
def windowPut (s : State) (space off : Nat) (bytes : List Byte) : State :=
  let s := s.setHw { s.hw with hostOut := s.hw.hostOut ++ [.backInvalidate space (off / 64 * 64)] }
  s.setMem (s.mem.setBytes (windowBase space + off) bytes)

/-- A 32-bit word of a coherent window. -/
def windowWord (s : State) (space off : Nat) : Word := BitVec.ofNat 32 (s.mem.read (windowBase space + off) 4)

/-- A ring of 2^k entries toward the host has room for one more (R426). -/
def ringHasRoom (s : State) (space : Nat) (g : Ring) : Bool :=
  (g.head + 1 - s.windowWord space (g.base + 32)).toNat ≤ 2 ^ g.logSize

/-- Produce one entry of 60 bytes in a ring of a space: the entry with its stamp, then HEAD (R426). -/
def ringPut (s : State) (space ring : Nat) (g : Ring) (entry : List Byte) : State :=
  let h := g.head + 1
  let off := g.base + 64 + 64 * (g.head.toNat % 2 ^ g.logSize)
  let s := s.windowPut space off (entry ++ List.replicate (60 - entry.length) 0 ++ toBytes 4 h.toNat)
  let s := s.windowPut space g.base (toBytes 4 h.toNat)
  let x := s.spaceAt space
  s.setSpaceAt space { x with rings := x.rings.set ring { g with head := h } }

/-- The log entry of a context event that its queue could not take (R357, R441). -/
def eventLog (s : State) (r : EventRecord) : LogEntry :=
  { type := 0x09, die := 0xFF, unit := 0, context := r.context, addr := r.addr, time := s.micros,
    count := r.kind + 256 * r.cls + 65536 * r.sub }

/-- A function of R29, numbered in table order, is in host-assisted mode in a partition (R387). -/
def assisted (s : State) (partition n : Nat) : Bool := (s.partitionAt partition).mode.getLsbD n

/-- Post a record to the event queue of context `c`: into its ring, or the backlog of 256 while the ring is full or not
registered again, or the module error log (R357). -/
def postEvent (s : State) (c : Nat) (r : EventRecord) : State :=
  let f := s.firmAt c
  let space := (s.contextAt c).space
  if f.ring = 0 then s.logError (s.eventLog r)
  else
    match (s.spaceAt space).rings.at? f.ring with
    | some g =>
        if f.backlog.isEmpty && s.ringHasRoom space g then s.ringPut space f.ring g (recordBytes r)
        else if f.backlog.length < 256 then s.setFirmAt c { f with backlog := f.backlog ++ [r] }
        else s.logError (s.eventLog r)
    | none =>
        if f.backlog.length < 256 then s.setFirmAt c { f with backlog := f.backlog ++ [r] }
        else s.logError (s.eventLog r)

/-- The virtual die number of a physical die in a context, 0xFF when it has none (R21, R123). -/
def vdieOf (x : Context) (die : Nat) : Nat := (x.vdies.findIdx? (· == die)).getD 0xFF

/-- A record that names the issuing split's resume point (R356). -/
def eventHere (s : State) (kind cls sub : Nat) (addr : DWord) (lane : Nat) : EventRecord :=
  let x := s.split
  { kind, cls, sub, context := s.block.context,
    loc := x.pc.toNat + 2 ^ 20 * x.word + 2 ^ 22 * s.cur.split + (if x.handler then 2 ^ 31 else 0),
    vdie := vdieOf s.context (dieOf s.cur.core), core := s.cur.core % 64, slot := s.cur.slot, split := s.cur.split,
    addr, lane }

/-- A record of a context that names no place: an event that no word of a group raises. The spec does not say what its place fields and
LANE hold: zero (DESIGN CHOICE, entry 56). -/
def eventOf (context kind cls sub : Nat) (addr : DWord) : EventRecord :=
  { kind, cls, sub, context, loc := 0, vdie := 0, core := 0, slot := 0, split := 0, addr, lane := 0 }

/-! ## What belongs to a context, and frames given back (R356, R391) -/

/-- Group slots whose group belongs to context `c`. -/
def groupsOf (s : State) (c : Nat) : List Nat :=
  (s.groups.filter fun e => e.2.phase != .free && (s.blockAt e.2.block).context == c).map Prod.fst

/-- Frames recorded as owned by context `c`. -/
def framesOf (s : State) (c : Nat) : List Nat :=
  (s.hw.frames.filter fun e => e.2.owner.toNat == c && e.2.state == .owned).map Prod.fst

/-- A core whose caches hold no word of a frame. -/
def CoreState.forget (f : Nat) (k : CoreState) : CoreState :=
  { k with icache := k.icache.filter fun e => e.1 / 65536 ≠ f, kcache := k.kcache.filter fun e => e.1 / 65536 ≠ f }

/-- No core's instruction or constant cache holds a word of a frame: another page stands in it from now on (R259, R261). -/
def forgetFrame (s : State) (f : Nat) : State := { s with cores := s.cores.mapVal fun _ k => CoreState.forget f k }

/-- A frame zero-filled, poisoned lines of it with the rest (R391). -/
def zeroFrame (s : State) (f : Nat) : State :=
  ((s.forgetFrame f).setMem (s.mem.clear (65536 * f) 65536)).setHw { s.hw with poisoned := s.hw.poisoned.filter fun l => l / 1024 ≠ f }

/-- Frames given back: zero-filled, then free (R356, R391), each as far as the security cores agree (R27). -/
def freeFrames (s : State) (fs : List Nat) : State :=
  fs.foldl (fun s f => s.decided fun s => (s.zeroFrame f).setFrameAt f FrameRecord.free) s

/-- A core without the copies and TLB entries of context `c`. -/
def CoreState.without (k : CoreState) (c : Nat) : CoreState :=
  { k with copies := k.copies.filter (·.context != c), tlb := k.tlb.filter (·.context != c) }

/-- A cluster without the entries that `gone` names and the pins of blocks; no array runs or queues an entry that is gone
(R341). -/
def Cluster.dropped (k : Cluster) (gone : MatrixEntry → Bool) (blocks : List Nat) : Cluster :=
  let left := k.entries.filter fun e => !gone e
  { k with entries := left
           arrays := k.arrays.mapVal fun _ a =>
             { a with pins := a.pins.filter fun b => !blocks.contains b
                      busy := a.busy.filter fun i => left.any (·.id == i) } }

def Cluster.without (k : Cluster) (c : Nat) (blocks : List Nat) : Cluster := Cluster.dropped k (·.context == c) blocks

def Die.without (k : Die) (c : Nat) : Die :=
  { k with tlb := k.tlb.filter (·.context != c), misses := k.misses.filter (·.context != c),
           faults := k.faults.filter (·.context != c), held := k.held.filter (·.context != c) }

end State

end Sys2Proof.Machine
end

