-- ==== Sys2Proof/Machine/Translate.lean ====
section
/-!
DEFINITION. Translation of virtual addresses, the checks of the frame ownership table, and the fault queues of the dies
(R378 to R385, R389, R399, R400).
-/

namespace Sys2Proof.Machine

/-! ## Translation entries (R379) -/

def leafV (e : DWord) : Bool := e.getLsbD 0
def leafLeaf (e : DWord) : Bool := e.getLsbD 1
def leafR (e : DWord) : Bool := e.getLsbD 2
def leafW (e : DWord) : Bool := e.getLsbD 3
def leafX (e : DWord) : Bool := e.getLsbD 4
def leafPclass (e : DWord) : BitVec 2 := e.extractLsb' 5 2
def leafSc (e : DWord) : Bool := e.getLsbD 7
def leafTier (e : DWord) : BitVec 2 := e.extractLsb' 8 2
def leafHfb (e : DWord) : Bool := e.getLsbD 10
def leafLat (e : DWord) : Bool := e.getLsbD 11
def leafLtype (e : DWord) : BitVec 4 := e.extractLsb' 12 4
def leafLscope (e : DWord) : Bool := e.getLsbD 16
def leafScope (e : DWord) : Bool := e.getLsbD 16
def leafPeer (e : DWord) : Bool := e.getLsbD 17

/-- ADDR of an entry, 40 bits (R379). -/
def leafAddr (e : DWord) : Nat := (e.extractLsb' 20 40).toNat

/-- Device number and aperture page of a peer leaf (R379). -/
def leafDevice (e : DWord) : Nat := (e.extractLsb' 20 16).toNat
def leafAperture (e : DWord) : Nat := (e.extractLsb' 36 24).toNat

/-- Bits of a virtual address below a leaf of a level (R378). -/
def pageBits : Nat → Nat
  | 0 => 16
  | 1 => 21
  | _ => 30

/-- Index of a virtual address in the table of a level (R378). -/
def tableIndex (va level : Nat) : Nat :=
  match level with
  | 3 => va / 2 ^ 45 % 32768
  | 2 => va / 2 ^ 30 % 32768
  | 1 => va / 2 ^ 21 % 512
  | _ => va / 2 ^ 16 % 32

/-- A present entry at a level is malformed (R380, R381). -/
def malformed (e : DWord) (level : Nat) : Bool :=
  (level == 3 && leafLeaf e) || (level == 0 && !leafLeaf e) ||
  (leafLeaf e &&
    (leafPclass e == 3 || leafTier e == 3 || (leafLat e && level != 0) || (leafPeer e && leafX e) ||
     (!leafPeer e && !leafLat e && level == 1 && leafAddr e % 32 != 0) ||
     (!leafPeer e && !leafLat e && level == 2 && leafAddr e % 16384 != 0)))

/-- How a walk ends (R380). -/
inductive Walk where
  | absent
  | malformed
  | leaf (entry : DWord) (level : Nat)
deriving DecidableEq, Repr

/-- The walk from a table at a level down; `fuel` is one more than the level (R378, R380). -/
def walkFrom (m : Memory) (va : Nat) : Nat → Nat → Walk
  | 0, _ => .malformed
  | level + 1, table =>
      let e : DWord := BitVec.ofNat 64 (m.read (table + 8 * tableIndex va level) 8)
      if !leafV e then .absent
      else if malformed e level then .malformed
      else if leafLeaf e then .leaf e level
      else walkFrom m va level (256 * leafAddr e)

/-- The walk of a virtual address from the root (R378). -/
def walk (m : Memory) (tbase va : Nat) : Walk := walkFrom m va 4 tbase

/-- The addresses of the table entries that a walk reads (R378). -/
def pathFrom (m : Memory) (va : Nat) : Nat → Nat → List Nat
  | 0, _ => []
  | level + 1, table =>
      let a := table + 8 * tableIndex va level
      let e : DWord := BitVec.ofNat 64 (m.read a 8)
      a :: if leafV e && !malformed e level && !leafLeaf e then pathFrom m va level (256 * leafAddr e) else []

/-- A TLB entry covers a virtual address of a context (R382). -/
def TlbEntry.covers (t : TlbEntry) (context va : Nat) : Bool :=
  t.context == context && t.va / 2 ^ pageBits t.level == va / 2 ^ pageBits t.level

namespace State

/-- The translation of an address for a core of a context: the core's TLB, the die's TLB, else a walk of the tables as they
stand (R260, R380, R382). -/
def translate (s : State) (core context va : Nat) : Walk :=
  match ((s.coreAt core).tlb ++ (s.dieAt (dieOf core)).tlb).find? fun t => t.covers context va with
  | some t => .leaf t.leaf t.level
  | none => walk s.mem (s.contextAt context).tbase va

/-- A core's request for an address is held up: no TLB has its page, and a walk for the page is outstanding on the die, or the die's
table of 64 misses is full (R382). -/
def missHeld (s : State) (core context va : Nat) : Bool :=
  let k := s.dieAt (dieOf core)
  !(((s.coreAt core).tlb ++ k.tlb).any fun t => t.covers context va) &&
    ((k.misses.any fun m => m.context == context && m.vpage == va / 65536) || 64 ≤ k.misses.length)

end State

/-! ## Frames (R383 to R385) -/

/-- The frame a plain leaf maps an address to (R378, R379). -/
def leafFrame (e : DWord) (level va : Nat) : Nat := leafAddr e + va % 2 ^ pageBits level / 65536

/-- A record lets a context of a partition use its frame: owner and state (R384). -/
def FrameRecord.usable (r : FrameRecord) (context partition : Nat) : Bool :=
  (r.owner.toNat == context || (r.owner == 0xFFFE && r.part.toNat == partition)) && r.state == .owned

/-- The fill checks of R384: owner, state, class, lattice, shared-clear, measured code. -/
def fillOk (x : Context) (context : Nat) (e : DWord) (r : FrameRecord) : Bool :=
  r.usable context x.partition && leafPclass e == r.pclass && leafLat e == r.lat &&
  leafLtype e == r.ltype && (!leafSc e || (r.scok && r.pclass == 0)) &&
  (!x.prot || ((!leafW e || !r.code) && (!leafX e || r.code)))

namespace State

/-- Frame on a die of a lattice frame set (R268, R379). -/
def setFrame (s : State) (set die : Nat) : Nat := (s.hw.frameSets.get set []).getD die 0

/-- The frame that a leaf maps an address to for a core of a die (R268, R378). -/
def frameOf (s : State) (die : Nat) (e : DWord) (level va : Nat) : Nat :=
  if leafLat e then s.setFrame (leafAddr e) die else leafFrame e level va

/-- The physical address of a virtual address under a leaf. -/
def physical (s : State) (die : Nat) (e : DWord) (level va : Nat) : Nat :=
  65536 * s.frameOf die e level va + va % 65536

/-- A frame number names a frame of the module, and what it is (R19, R383). -/
def frameKind (s : State) (f : Nat) : Option FrameKind :=
  (s.hw.addrMap.find? fun r => r.first ≤ f && f < r.first + r.count).map FrameRange.kind

/-- Die and unit of a frame in the error log: the stack of a near-tier die, or a package of a far-tier die; which package holds a
frame the spec does not say, so that it is a free value (R19, R441). -/
def frameSite (s : State) (f : Nat) : Nat × Nat :=
  match s.frameKind f with
  | some (.near die stack) => (die, stack)
  | some (.far die) => (4 + die, 18 * die + (Config.undefined s.tick (2 ^ 49 + f)).toNat % 18)
  | _ => (0xFF, 0)

end State

/-- A partition that exists holds granule `g` (R22, R387). -/
def Partition.holds (p : Partition) (g : Nat) : Bool := p.valid && p.gran.getLsbD g

namespace State

/-- A protected context is sealed as the entry of its partition says (R389). -/
def sealedOf (s : State) (c : Nat) : Bool := 
  (s.contextAt c).prot && (s.partitionAt (s.contextAt c).partition).valid && (s.partitionAt (s.contextAt c).partition).sealed

/-- The mappings of a context are checked as the entry of its partition says (R387, R390). -/
def checkedOf (s : State) (c : Nat) : Bool :=
  (s.partitionAt (s.contextAt c).partition).valid && (s.partitionAt (s.contextAt c).partition).checked

end State

/-! ## Lattice regions (R267, R268) -/

def regionBase (q : QWord) : Nat := (q.extractLsb' 0 60).toNat
def regionType (q : QWord) : BitVec 4 := q.extractLsb' 60 4
def regionPages (q : QWord) : Nat := (q.extractLsb' 64 16).toNat
def regionRoster (q : QWord) : Bool := q.getLsbD 80
def regionSched (q : QWord) : BitVec 2 := q.extractLsb' 81 2
def regionV (q : QWord) : Bool := q.getLsbD 83
def regionLap (q : QWord) : Nat := (q.extractLsb' 84 16).toNat
def regionTag (q : QWord) : Nat := (q.extractLsb' 100 16).toNat

/-- The number of the region in force that covers an address (R268). -/
def Context.regionAt (x : Context) (va : Nat) : Option Nat :=
  (x.regions.find? fun e =>
    regionV e.2 && regionBase e.2 ≤ va && va < regionBase e.2 + 65536 * regionPages e.2).map Prod.fst

/-- The lattice type of a leaf code (R264, R379). -/
def latTypeOf (c : BitVec 4) : Option LatType :=
  match c.toNat with
  | 0 => some .maxN32 | 1 => some .maxN64 | 2 => some .maxI32 | 3 => some .minN32 | 4 => some .orB32
  | 5 => some .orB64 | 6 => some .maxF32 | 7 => some .andB32 | 8 => some .cnt8x32 | _ => none

/-! ## Access checks (R218, R381, R389) -/

/-- What an access asks of a leaf (R381). -/
inductive AccessKind where
  | read | write | atomic | fetch
deriving DecidableEq, Repr

def AccessKind.granted (k : AccessKind) (e : DWord) : Bool :=
  match k with
  | .read => leafR e
  | .write => leafW e
  | .atomic => leafR e && leafW e
  | .fetch => leafX e

/-- How the check of one address from translation on comes out (R218). `page` gives the leaf of an address that passed. -/
inductive PageCheck where
  | absent
  | fails (cls : FaultClass)
  | page (entry : DWord) (level : Nat)
deriving DecidableEq, Repr

namespace State

/-- A lattice page is usable: a region in force covers it (R268). -/
def usableLat (s : State) (context : Nat) (e : DWord) (va : Nat) : Bool :=
  !leafLat e || ((s.contextAt context).regionAt va).isSome

/-- Device contexts only read a part of a coherent window (R419). -/
def windowReadOnly (s : State) (pa : Nat) : Bool :=
  match s.frameKind (pa / 65536) with
  | some (.window n) => pa - windowBase n < 0x11040
  | _ => false

/-- The fill check of a frame for a leaf (R384). A coherent window has no record: contexts bound to its space map it in clear
(R419; entry 18). -/
def fillPasses (s : State) (x : Context) (context : Nat) (e : DWord) (f : Nat) : Bool :=
  match s.frameKind f with
  | some (.window n) => n == x.space && leafPclass e == 0 && !leafLat e && !(x.prot && leafX e)
  | some (.command _) => false
  | _ => fillOk x context e (s.frameAt f)

/-- A memory controller lets a context use a frame (R385). -/
def frameUsable (s : State) (context f : Nat) : Bool :=
  match s.frameKind f with
  | some (.window n) => n == (s.contextAt context).space
  | some (.command _) => false
  | _ => (s.frameAt f).usable context (s.contextAt context).partition

/-- A poisoned line of a context's quarantined frame: the access goes on and meets the error (R440). -/
def meetsError (s : State) (context f pa : Nat) : Bool :=
  (s.frameAt f).owner.toNat == context && (s.frameAt f).state == .quarantined && s.hw.poisoned.contains (pa / 64)

/-- Translation and permission of one address for a context on a core (R218, R381, R384, R389, R402, R419). -/
def checkPage (s : State) (core context : Nat) (rejected : List Nat) (va : Nat) (k : AccessKind) : PageCheck :=
  let x := s.contextAt context
  if rejected.contains (va / 65536) then .fails .permission
  else
    match s.translate core context va with
    | .absent => .absent
    | .malformed => .fails .permission
    | .leaf e level =>
        if !k.granted e || (x.prot && leafPclass e == 0 && !leafSc e) then .fails .permission
        else if leafPeer e then .page e level
        else
          let f := s.frameOf (dieOf core) e level va
          if !s.fillPasses x context e f && !s.meetsError context f (65536 * f + va % 65536) then .fails .permission
          else if (k == .write || k == .atomic) && s.windowReadOnly (65536 * f + va % 65536) then .fails .permission
          else .page e level

/-! ## Fault queues (R399, R400) -/

/-- A request for a missing page, as its fault-queue entry will hold it (R399). -/
def faultEntry (vpage : Nat) (kind : BitVec 5) (part context vdie core slot : Nat) (w : Waiter) : FaultEntry :=
  { vpage, kind, part, context, vdie, core, slot, count := 1, seq := 0, wake := [w], forwarded := false, assisted := false }

/-- The entry merged with another request for its page: COUNT rises, holding at the top, KIND is ORed (R399, R400). -/
def mergeFault (e r : FaultEntry) : FaultEntry :=
  { e with count := min (e.count + r.count) 0xFFFFFFFF, kind := e.kind ||| r.kind, wake := e.wake ++ r.wake }

/-- Post a request at a die: merged into the entry that already stands for its page, else a new entry with the next SEQ,
else held while all 512 entries stand (R399, R400). A fault begins when its request is posted, under the mode that its partition has
then (R30; entry 82). -/
def postFault (s : State) (die : Nat) (r : FaultEntry) : State :=
  let k := s.dieAt die
  let r := { r with assisted := s.assisted r.part 0 }
  if k.faults.any fun e => e.context == r.context && e.vpage == r.vpage then
    s.setDieAt die
      { k with faults := k.faults.map fun e =>
          if e.context == r.context && e.vpage == r.vpage then mergeFault e r else e }
  else if k.faults.length < 512 then
    s.setDieAt die { k with faults := k.faults ++ [{ r with seq := k.faultSeq }], faultSeq := k.faultSeq + 1 }
  else s.setDieAt die { k with held := k.held ++ [r] }

/-- Distinct elements, the first of each kept. -/
def distinct : List Nat → List Nat
  | [] => []
  | a :: rest => a :: (distinct rest).filter (· ≠ a)

/-- The KIND bits that a list of requests has for a page (R399). -/
def kindsOf (l : List (Nat × BitVec 5)) (vpage : Nat) : BitVec 5 :=
  (l.filter fun e => e.1 == vpage).foldl (fun k e => k ||| e.2) 0

/-- A suspending fault of the word at hand: each missing page is posted once, the split waits for all of them, and the
issue group will be replayed whole (R218, R352, R402); until it has issued the split merges with none (R105). `slot` is the
GSLOT of the entries (R399). -/
def suspendFor (s : State) (l : List (Nat × BitVec 5)) (slot : Nat) : State :=
  let pages := distinct (l.map Prod.fst)
  let x := s.context
  let die := dieOf s.cur.core
  let post := fun (s : State) (v : Nat) =>
    s.postFault die (faultEntry v (kindsOf l v) s.block.partition s.block.context (vdieOf x die) (s.cur.core % 64) slot
      (.split s.gkey s.cur.split))
  let s := pages.foldl post s
  { s.setSplit { s.split with missing := pages, rejected := [], suspended := true, hold := none } with
    last := .suspended, tick := s.tick + 1 }

/-- A suspending fault whose requests are all of one kind. -/
def suspend (s : State) (vpages : List Nat) (kind : BitVec 5) : State :=
  s.suspendFor (vpages.map fun v => (v, kind)) s.cur.slot

end State

/-! ## A whole word's checks (R59, R218) -/

/-- How one lane's checks come out, in the order of R218: a precise fault of a class at an address, a missing page with
its fault-queue kind, a walk to wait for (R382), or a pass. -/
inductive LaneCheck where
  | fails (cls : FaultClass) (addr : DWord)
  | absent (vpages : List Nat)
  | busy
  | passes
deriving DecidableEq, Repr

/-- How a word's checks come out (R218): the precise fault of the lowest lane that has one; else the missing pages; else
it is performed. -/
inductive WordCheck where
  | fails (cls : FaultClass) (addr : DWord) (lane : Nat)
  | absent (vpages : List Nat)
  | passes
deriving DecidableEq, Repr

/-- The outcome for a whole word from its lanes' outcomes in ascending lane order (R218). -/
def wordCheck : List (Nat × LaneCheck) → WordCheck
  | [] => .passes
  | (l, c) :: rest =>
      match c, wordCheck rest with
      | .fails cls a, _ => .fails cls a l
      | _, .fails cls a m => .fails cls a m
      | .absent ps, .absent qs => .absent (ps ++ qs)
      | .absent ps, .passes => .absent ps
      | .busy, w => w
      | .passes, w => w

end Sys2Proof.Machine
end

