-- ==== Sys2Proof/Machine/Store.lean ====
section
/-!
DEFINITION. Writing a byte of a scratchpad, of memory or of the accumulator store, with what a write brings about: dirty
slots (R368), ring entries overwritten (R310), stale latches (R326), operands of outstanding matrix operations (R255),
back-invalidation (R420), frames written (R404).
-/

namespace Sys2Proof.Machine

/-- Two ranges share a byte. -/
def overlaps (a n b m : Nat) : Bool := a < b + m && b < a + n

/-- `n` bytes of an undefined value (R3). -/
def freeBytes (tick key : Nat) : Nat → List Byte
  | 0 => []
  | n + 1 => (Config.undefined tick key).extractLsb' 0 8 :: freeBytes tick (key + 1) n

/-- 128 bits of an undefined value. -/
def freeQuad (tick key : Nat) : QWord :=
  pair (Config.undefined tick (key + 2)) (Config.undefined tick (key + 3)) ++
    pair (Config.undefined tick key) (Config.undefined tick (key + 1))

/-- An operand range of a matrix operation holds a byte of a scratchpad range. -/
def MatrixEntry.reads (e : MatrixEntry) (core off n : Nat) : Bool :=
  (e.aCore == core && overlaps e.aOff (tileBytesA e.afmt e.key.fmt e.key.sparse) off n) ||
  (e.key.core == core && overlaps e.key.off (tileBytesB e.key.fmt e.key.sparse) off n)

/-- An entry is touched by a write that was issued after it (R255). -/
def MatrixEntry.hitBy (e : MatrixEntry) (core off n by_ : Nat) : Bool := e.id < by_ && e.reads core off n

/-- Entries of the accumulator segment that a matrix operation adds into (R323). -/
def MatrixEntry.entries (e : MatrixEntry) : List Nat := (List.range (8 * e.key.fmt.tileN)).map (e.acc + ·)

/-- A latched B range holds a byte of a scratchpad range (R326). -/
def ArrayState.latches (a : ArrayState) (core off n : Nat) : Bool :=
  match a.key with
  | some k => k.core == core && overlaps k.off (tileBytesB k.fmt k.sparse) off n
  | none => false

/-- Ring entries of a relay of a block that a scratchpad range touches (R310). -/
def ringEntries (b : Block) (r : Relay) (off n : Nat) : List Nat :=
  (List.range r.desc.cap).filter fun i => overlaps (b.slot0 * slotBytes + r.desc.ring + 4 * i) 4 off n

/-- A block after a write of `n` bytes at `off` of its core's scratchpad: slots dirty, ring entries overwritten. -/
def Block.wrote (b : Block) (off n : Nat) (push : Bool) : Block :=
  let slots := (List.range b.slots).filter fun k => overlaps ((b.slot0 + k) * slotBytes) slotBytes off n
  { b with
    dirty := slots.foldl (fun d k => d ||| BitVec.ofNat 192 (2 ^ k)) b.dirty
    relays := if push then b.relays else
      b.relays.mapVal fun _ r => { r with spoiled := ringEntries b r off n ++ r.spoiled } }

namespace State

/-- The resident block that holds a scratchpad byte. -/
def padOwner (s : State) (core off : Nat) : Option Nat :=
  (s.blocks.find? fun e => e.2.holdsPad core off).map Prod.fst

def setAcc (s : State) (k : Nat) (v : QWord) : State :=
  { s with acc := if v = 0 then s.acc.erase k else s.acc.set k v }

/-- The accumulator entry with a key. -/
def accAt (s : State) (k : Nat) : QWord := s.acc.get k 0

/-- Segment entries of a block given undefined values (R255). -/
def spoilAcc (s : State) (block : Nat) (entries : List Nat) : State :=
  let b := s.blockAt block
  entries.foldl (fun s x =>
    match b.accKey x with
    | some k => s.setAcc k (freeQuad s.tick (2 ^ 32 + 4 * k))
    | none => s) s

/-- The cluster that holds a core, with every entry that reads a range marked, and latches of the range stale. -/
def spoilCluster (k : Cluster) (core off n by_ : Nat) : Cluster :=
  { k with
    entries := k.entries.map fun e => if e.hitBy core off n by_ then { e with spoiled := true } else e
    arrays := k.arrays.mapVal fun _ a => if a.latches core off n then { a with stale := true } else a }

/-- Bytes written at an offset of a core's scratchpad by an operation with name `by_`. A write into the range of a matrix
operation issued before it leaves undefined bytes and undefined results (R255). -/
def padWrite (s : State) (core off : Nat) (bytes : List Byte) (push : Bool) (by_ : Nat) : State :=
  let n := bytes.length
  let c := s.clusterAt (clusterOf core)
  let hit := c.entries.filter fun e => e.hitBy core off n by_
  let data := if hit.isEmpty then bytes else freeBytes s.tick (2 ^ 40 + padKey core off) n
  let s := s.setSpad (s.spad.setBytes (padKey core off) data)
  let s := if s.clusters.at? (clusterOf core) = none then s
    else s.setClusterAt (clusterOf core) (spoilCluster c core off n by_)
  let s := (hit.filter (·.finished)).foldl (fun s e => s.spoilAcc e.block e.entries) s
  match s.padOwner core off with
  | some id => s.setBlockAt id ((s.blockAt id).wrote off n push)
  | none => s

/-- A frame counted among those a context has written since its last complete checkpoint (R404). -/
def noteFrame (s : State) (context frame : Nat) : State :=
  match s.firm.at? context with
  | some f => if f.written.contains frame then s else s.setFirmAt context { f with written := f.written ++ [frame] }
  | none => s

/-- The host copy of a coherent-window line is back-invalidated before a device write (R420). -/
def backInvalidate (s : State) (pa : Nat) : State :=
  match s.frameKind (pa / 65536) with
  | some (.window n) =>
      s.setHw { s.hw with hostOut := s.hw.hostOut ++ [.backInvalidate n ((pa - windowBase n) / 64 * 64)] }
  | _ => s

/-- Bytes of one aligned access written to memory at a physical address for a context (R249). -/
def memWrite (s : State) (context pa : Nat) (bytes : List Byte) : State :=
  let s := (s.backInvalidate pa).noteFrame context (pa / 65536)
  s.setMem (s.mem.setBytes pa bytes)

/-- A 64-byte line of memory is poisoned (R415, R439). -/
def poisonedAt (s : State) (pa n : Nat) : Bool :=
  s.hw.poisoned.any fun line => overlaps (64 * line) 64 pa n

end State

end Sys2Proof.Machine
end

