-- ==== Sys2Proof/Machine/Effects.lean ====
section
/-!
DEFINITION. One access and its effect at its place (R219, R225, R229, R230, R232, R234, R249, R251, R264 to R266, R277 to R285), what
stops it (R219, R385, R439), and the accesses of engines. An access is performed whole, at one instant.
-/

namespace Sys2Proof

/-! ## Lattice types (R264 to R266) -/

/-- Bytes of a cell (R264). -/
def LatType.bytes (t : LatType) : Nat :=
  match t with
  | .maxN64 | .orB64 => 8
  | .cnt8x32 => 32
  | _ => 4

/-- The load width of a type (R264). -/
def LatType.width (t : LatType) : LatWidth :=
  match t with
  | .maxN64 | .orB64 => .b64
  | .cnt8x32 => .cnt
  | _ => .b32

/-- A NaN of f32 (R265). -/
def isNan32 (x : Nat) : Bool := 0x7F800000 < x % 0x80000000

/-- The place of an f32 in the order of R265, NaNs apart. -/
def rank32 (x : Nat) : Int := if x < 0x80000000 then x else -(x % 0x80000000 : Nat) - 1

/-- The signed value of 32 bits. -/
def signed32 (x : Nat) : Int := (BitVec.ofNat 32 x).toInt

/-- Join of two values of a type; for cnt8x32, of two slots (R264 to R266). -/
def LatType.join (t : LatType) (a b : Nat) : Nat :=
  match t with
  | .maxN32 | .maxN64 | .cnt8x32 => max a b
  | .maxI32 => if signed32 a < signed32 b then b else a
  | .minN32 => min a b
  | .orB32 | .orB64 => a ||| b
  | .andB32 => a &&& b
  | .maxF32 => if isNan32 a || isNan32 b then 0x7FC00000 else if rank32 a < rank32 b then b else a

/-- `a` is at least `t` (R264, R265); for cnt8x32, of sums. -/
def LatType.atLeast (ty : LatType) (a t : Nat) : Bool :=
  match ty with
  | .maxN32 | .maxN64 | .cnt8x32 => t ≤ a
  | .maxI32 => signed32 t ≤ signed32 a
  | .minN32 => a ≤ t
  | .orB32 | .orB64 => (a ||| t) == a
  | .andB32 => (a &&& t) == a
  | .maxF32 => isNan32 a || (!isNan32 t && rank32 t ≤ rank32 a)

/-- Sum of a cnt8x32 cell from its bytes (R266). -/
def latSum (bytes : List Byte) : Nat :=
  min 0xFFFFFFFF (((List.range 8).map fun k => Machine.ofBytes ((bytes.drop (4 * k)).take 4)).foldl (· + ·) 0)

/-! ## Atomic operations (R228 to R230, R234) -/

/-- Bytes of an atomic operation. -/
def AtomFn.bytes (f : AtomFn) : Nat := if f.wide then 8 else 4

/-- The value an atomic operation leaves (R229, R230). For compare-and-swap, `x` holds the compare value in bits 63:0 and
the swap value above. -/
def AtomFn.apply (f : AtomFn) (old : Nat) (x : QWord) : Nat :=
  let n := 2 ^ (8 * f.bytes)
  let v := x.toNat % n
  let w := x.toNat / 2 ^ 64 % n
  let sgn := fun (y : Nat) => (y : Int) - if n / 2 ≤ y then n else 0
  match f with
  | .addB32 | .addB64 => (old + v) % n
  | .minI32 | .minI64 => if sgn v < sgn old then v else old
  | .maxI32 | .maxI64 => if sgn old < sgn v then v else old
  | .minN32 | .minN64 => min old v
  | .maxN32 | .maxN64 => max old v
  | .andB32 | .andB64 => old &&& v
  | .orB32 | .orB64 => old ||| v
  | .xorB32 | .xorB64 => old ^^^ v
  | .exchB32 | .exchB64 => v
  | .casB32 | .casB64 => if old = v then w else old
  | .addF32 => (Machine.Bin.f32.addOp .rne old v).1

/-- The identity of an operation (R234). -/
def AtomFn.identity (f : AtomFn) : Nat :=
  let n := 2 ^ (8 * f.bytes)
  match f with
  | .addF32 => 0x80000000
  | .minI32 | .minI64 => n / 2 - 1
  | .maxI32 | .maxI64 => n / 2
  | .minN32 | .minN64 | .andB32 | .andB64 => n - 1
  | _ => 0

/-- A loaded value as the registers of its width hold it (R215). -/
def LoadWidth.widen (w : LoadWidth) (x : QWord) : QWord :=
  match w with
  | .n8 => (x.setWidth 8).setWidth 128
  | .i8 => ((x.setWidth 8).signExtend 32).setWidth 128
  | .n16 => (x.setWidth 16).setWidth 128
  | .i16 => ((x.setWidth 16).signExtend 32).setWidth 128
  | .b32 => (x.setWidth 32).setWidth 128
  | .b64 => (x.setWidth 64).setWidth 128
  | .b128 => x

end Sys2Proof

namespace Sys2Proof.Machine

/-! ## One access -/

/-- Clusters and dies apart, the group slot a number names (R125). -/
def coreOfKey (gk : Nat) : Nat := gk / 16

/-- Every outstanding operation of a group. -/
def GroupSys.all (g : GroupSys) : List Pending := g.ld ++ g.st ++ g.cp ++ g.tm

/-- Two accesses touch a common byte of the module. -/
def Place.meets (p : Place) (n : Nat) (q : Place) (m : Nat) : Bool :=
  match p, q with
  | .mem a, .mem b => overlaps a n b m
  | .spad c a, .spad d b => c == d && overlaps a n b m
  | .peer d g a, .peer e h b => d == e && g == h && overlaps a n b m
  | .window k a _ _, .window j b _ _ => k == j && overlaps a n b m
  | _, _ => false

/-- The lattice type of the page that a lane of LTRY reads (R281). -/
def tryType (a : Access) : LatType := (latTypeOf (a.data.extractLsb' 64 4)).getD .maxN32

/-- The threshold of a lane of LTRY (R281). -/
def tryThreshold (a : Access) : Nat := (a.data.extractLsb' 0 64).toNat

/-- An operation writes the places of its accesses. -/
def OpAct.writes : OpAct → Bool
  | .store | .atom _ _ | .red _ | .join _ | .asserting _ | .increment => true
  | _ => false

namespace State

/-- What an access reads at its place; `reply` is what a peer's home answers (R219). -/
def readPlace (s : State) (a : Access) (reply : QWord) : QWord :=
  if a.dead then freeQuad s.tick (2 ^ 36 + 16 * a.lane)
  else
    match a.place with
    | .mem pa => BitVec.ofNat 128 (s.mem.read pa a.n)
    | .spad c off => BitVec.ofNat 128 (s.spad.read (padKey c off) a.n)
    | .peer _ _ _ => reply
    | .window _ _ _ _ => 0

/-- Write the low bytes of a value at the place of an access of an operation. -/
def writePlace (s : State) (context : Nat) (p : Pending) (a : Access) (x : Nat) : State :=
  if a.dead then s
  else
    match a.place with
    | .mem pa => s.memWrite context pa (toBytes a.n x)
    | .spad c off => s.padWrite c off (toBytes a.n x) false p.id
    | .peer d g off => s.setHw { s.hw with fabricOut := s.hw.fabricOut ++ [.write d g off a.n (BitVec.ofNat 128 x)] }
    | .window _ _ _ _ => s

/-- What leaves over the fabric for a peer's read or atomic (R219). -/
def askPeer (s : State) (m : FabricMessage) : State := s.setHw { s.hw with fabricOut := s.hw.fabricOut ++ [m] }

/-- The sum of a cnt8x32 cell, or the value of a cell of another type, that a lattice read finds (R279). -/
def cellValue (s : State) (cnt : Bool) (a : Access) : QWord :=
  match a.place with
  | .mem pa => if cnt then BitVec.ofNat 128 (latSum (s.mem.bytes pa 32)) else s.readPlace a 0
  | _ => s.readPlace a 0

/-- A word of the scalar constant cache, or memory: either may be what ConstRead returns where they differ (R101). A peer's page is
read at its home (R219). -/
def constRead (s : State) (core id : Nat) (a : Access) (reply : QWord) : QWord × State :=
  match a.place with
  | .mem pa =>
      let k := s.coreAt core
      let now := s.readPlace a 0
      let held := (k.kcache.at? pa).getD (now.setWidth 32)
      if held = now.setWidth 32 then (now, s.setCoreAt core { k with kcache := k.kcache.set pa held })
      else if Config.staleConst s.tick pa then (held.setWidth 128, s)
      else (now, s.setCoreAt core { k with kcache := k.kcache.set pa (now.setWidth 32) })
  | .peer d g off => (s.readPlace a reply, s.askPeer (.read d g off a.n id))
  | _ => (s.readPlace a reply, s)

/-- What a load of a group has read early at the place of its access (R253). -/
def earlyAt (s : State) (gk : Nat) (a : Access) : Option QWord :=
  ((s.sysAt gk).early.find? fun e => e.place == a.place && e.n == a.n).map EarlyRead.value

/-- Early reads of a group gone that touch an access: a read after it returns nothing older (R253 case 1). -/
def dropEarly (s : State) (gk : Nat) (a : Access) : State :=
  let g := s.sysAt gk
  if g.early.isEmpty then s else s.setSysAt gk { g with early := g.early.filter fun e => !e.place.meets e.n a.place a.n }

/-- What a read of a group returns at its place, whose value now is `now`: what it has read early, if it has (R253). -/
def readEarly (s : State) (gk : Nat) (a : Access) (now : QWord) : QWord := if a.dead then now else (s.earlyAt gk a).getD now

/-- One access of an operation of a group is performed, at one instant (R249, R251), a read perhaps at an earlier one (R253). An LSTA
writes its value as it stands, a NaN that is not canonical too (DEDUCED, entry 99). -/
def performAccess (s : State) (gk context : Nat) (p : Pending) (a : Access) (reply : QWord) : State × Pending :=
  let rest := { p with accesses := p.accesses.filter (·.lane ≠ a.lane) }
  let give := fun (v : QWord) => { rest with results := rest.results.set a.lane v }
  let old := s.readPlace a reply
  match p.act with
  | .load _ _ | .scalarLoad _ _ =>
      match a.place with
      | .peer d g off => (s.askPeer (.read d g off a.n p.id), give old)
      | _ => (s.dropEarly gk a, give (s.readEarly gk a old))
  | .constLoad _ =>
      let r := s.constRead (coreOfKey gk) p.id a reply
      (r.2, give r.1)
  | .store => (s.writePlace context p a a.data.toNat, rest)
  | .atom fn _ =>
      match a.place with
      | .peer d g off => (s.askPeer (.atomic fn d g off a.n a.data), give old)
      | _ =>
          let new := fn.apply old.toNat a.data
          if fn.swaps && old.toNat != a.data.toNat % 2 ^ (8 * fn.bytes) then (s, give old)
          else (s.writePlace context p a new, give old)
  | .red fn =>
      match a.place with
      | .peer d g off => (s.askPeer (.atomic fn d g off a.n a.data), rest)
      | _ => (s.writePlace context p a (fn.apply old.toNat a.data), rest)
  | .join ty => (s.writePlace context p a (ty.join old.toNat a.data.toNat), rest)
  | .latRead w _ => (s.dropEarly gk a, give (s.readEarly gk a (s.cellValue (w == .cnt) a)))
  | .latTry _ _ _ => (s, give (s.cellValue (tryType a == .cnt8x32) a))
  | .asserting ty =>
      if ty.atLeast a.data.toNat old.toNat then (s.writePlace context p a a.data.toNat, rest)
      else (s, { rest with failed := rest.failed ++ [(a, old)] })
  | .increment => (s.writePlace context p a (min 0xFFFFFFFF (old.toNat + 1)), rest)
  | _ => (s, rest)

/-! ## Reduction windows (R233 to R236) -/

/-- Fields of a reduction window register. -/
def winBase (w : BitVec 256) : Nat := (w.extractLsb' 0 60).toNat
def winV (w : BitVec 256) : Bool := w.getLsbD 60
def winSelf (w : BitVec 256) : Bool := w.getLsbD 61
def winSize (w : BitVec 256) : Nat := (w.extractLsb' 64 40).toNat
def winOp (w : BitVec 256) : Nat := (w.extractLsb' 104 5).toNat
def winContrib (w : BitVec 256) : Nat := (w.extractLsb' 112 16).toNat
def winHome (w : BitVec 256) : Nat := (w.extractLsb' 128 16).toNat
def winGroup (w : BitVec 256) : Nat := (w.extractLsb' 144 32).toNat
def winDone (w : BitVec 256) : Nat := (w.extractLsb' 192 60).toNat

/-- Lines of windows that an operation's accesses touch: the window, its HOME and GROUP at issue, and the line. -/
def windowLines (l : List Access) : List (Nat × Nat × Nat × Nat) :=
  l.foldl (fun acc a =>
    match a.place with
    | .window k off home group =>
        if acc.contains (k, home, group, off / 128) then acc else acc ++ [(k, home, group, off / 128)]
    | _ => acc) []

/-- The element at an offset of a contribution: the lanes that write it, combined in ascending position (R234). The first lane's value is
combined with the identity, so that a NaN of one lane alone leaves as the canonical one: the spec does not say (DESIGN CHOICE, entry
98). -/
def contributed (fn : AtomFn) (l : List Access) (k off : Nat) : Nat :=
  (l.filter fun a => match a.place with
    | .window j o _ _ => j == k && o == off
    | _ => false).foldl (fun v a => fn.apply v a.data) fn.identity

/-- The 128 bytes of a contribution for a line (R234). -/
def contribution (fn : AtomFn) (l : List Access) (k line : Nat) : List Byte :=
  ((List.range (128 / fn.bytes)).map fun j => toBytes fn.bytes (contributed fn l k (128 * line + fn.bytes * j))).flatten

/-- The window accesses of a RED: one contribution for each line, with HOME and GROUP as they stood at issue and the operation
that the window named then (R234, R360). -/
def performWindow (s : State) (p : Pending) : State × Pending :=
  match p.act with
  | .red fn =>
      let l := p.accesses
      let send := fun (s : State) (e : Nat × Nat × Nat × Nat) =>
        s.askPeer (.contribution e.2.1 e.2.2.1 (128 * e.2.2.2) fn.code (contribution fn l e.1 e.2.2.2))
      ((windowLines l).foldl send s, { p with accesses := l.filter fun a => match a.place with
        | .window _ _ _ _ => false
        | _ => true })
  | _ => (s, p)

/-! ## Errors met on the way (R219, R236, R385, R439) -/

/-- An entry of a context's own tables that a walk to an address reads and that fails (R389, R439). -/
def badEntry (s : State) (context va : Nat) : Option Nat :=
  if s.hw.poisoned.isEmpty then none
  else (pathFrom s.mem va 4 (s.contextAt context).tbase).find? fun a =>
    s.poisonedAt a 8 && (s.frameAt (a / 65536)).owner.toNat == context

/-- Some TLB holds the page of an address (R382). -/
def heldByTlb (s : State) (context va : Nat) : Bool :=
  (s.cores.any fun e => e.2.tlb.any fun t => t.covers context va) || s.dies.any fun e => e.2.tlb.any fun t => t.covers context va

/-- What stops an access: a line that fails, a frame the memory controller refuses, or a device off the roster. -/
inductive Hazard where
  | memory (pa : Nat)
  | containment (va : Nat)
deriving DecidableEq, Repr

def hazardOf (s : State) (context : Nat) (reads : Bool) (a : Access) : Option Hazard :=
  let x := s.contextAt context
  match a.place with
  | .mem pa =>
      if !a.dead && ((reads && s.poisonedAt pa a.n) || !s.frameUsable context (pa / 65536)) then some (.memory pa)
      else if a.dead || s.heldByTlb context a.va then none
      else (s.badEntry context a.va).map .memory
  | .peer d _ _ => if x.roster.contains d then none else some (.containment a.va)
  | .window _ _ home _ => if x.roster.contains home then none else some (.containment a.va)
  | .spad _ _ => none

/-! ## Places of addresses (R219, R268, R378) -/

/-- The place that a leaf maps an address to for a core (R219, R268, R378). -/
def placeFor (s : State) (core : Nat) (e : DWord) (level va : Nat) : Place :=
  if leafPeer e then .peer (leafDevice e) (leafAperture e + va % 2 ^ pageBits level / 65536) (va % 65536)
  else .mem (s.physical (dieOf core) e level va)

/-! ## Accesses of engines and of the launch dispatcher -/

/-- The place of an address. -/
def placeAt (s : State) (core context a : Nat) (k : AccessKind) : Place :=
  match s.checkPage core context [] a k with
  | .page e level => s.placeFor core e level a
  | _ => .mem 0

/-- What stops one access of `n` bytes of an engine. -/
def engineHazard (s : State) (core context a n : Nat) (k : AccessKind) : Option Hazard :=
  s.hazardOf context (k == .read)
    { lane := 0, place := s.placeAt core context a k, va := a, n, data := 0, dead := false }

/-- `n` bytes within a page; what a peer device holds is not the module's to know. -/
def engineRead (s : State) (core context a n : Nat) : List Byte :=
  match s.placeAt core context a .read with
  | .mem pa => s.mem.bytes pa n
  | _ => freeBytes s.tick (2 ^ 43 + a) n

/-- The message that asks a peer device for bytes (R219). -/
def engineAsk (s : State) (core context a n id : Nat) : State :=
  match s.placeAt core context a .read with
  | .peer d g off => s.askPeer (.read d g off n id)
  | _ => s

end State

end Sys2Proof.Machine
end

