-- ==== Sys2Proof/Machine/CopyUnits.lean ====
section
/-!
DEFINITION. The units that a copy moves: tiles (R300, R302, R305), what a unit reads and writes (R255, R293), module flash as copies
leave it (R298).
-/

namespace Sys2Proof.Machine

/-! ## Tiles (R300, R302, R305) -/

/-- Coordinate `i` of the elements of a row of the tile, `i` from 1 (R302). -/
def TensorCopy.coord (t : TensorCopy) (row i : Nat) : Int := t.origin.getD i 0 + if i = 1 then row else 0

/-- Dimensions 1 to 4 of a row lie inside the tensor (R300). -/
def TensorCopy.rowInside (t : TensorCopy) (row : Nat) : Bool :=
  [1, 2, 3, 4].all fun i =>
    if i < t.rank then 0 ≤ t.coord row i && t.coord row i < (t.dims.getD i 0 : Nat) else t.coord row i == 0

/-- Address of a row's element 0 (R300). -/
def TensorCopy.rowBase (t : TensorCopy) (row : Nat) : Nat :=
  t.base + ([1, 2, 3, 4].map fun i => if i < t.rank then (t.coord row i).toNat * t.strides.getD (i - 1) 0 else 0).foldl (· + ·) 0

/-- Column of element `j` of a row (R302). -/
def TensorCopy.column (t : TensorCopy) (j : Nat) : Int := t.origin.getD 0 0 + j

/-- Element `j` of a row lies inside the tensor (R300). -/
def TensorCopy.inside (t : TensorCopy) (row j : Nat) : Bool :=
  t.rowInside row && 0 ≤ t.column j && t.column j < (t.dims.getD 0 0 : Nat)

/-- The fill value of an element (R300). -/
def TensorCopy.filled (t : TensorCopy) : Nat :=
  let w := t.fmt.element
  if w ≤ 32 then t.fill.toNat / 2 ^ (32 - w) else t.fill.toNat * 2 ^ 32

/-- The words of four bytes that the rows of a tile take. -/
def TensorCopy.words (t : TensorCopy) : List Nat :=
  (t.rows.map fun row => (List.range (t.rowBytes / 4)).map (row * (t.rowBytes / 4) + ·)).flatten

/-- The units of 16 bytes that the rows of a tile take bytes of (R293). -/
def TensorCopy.units (t : TensorCopy) : List Nat := State.distinct (t.words.map (· / 4))

/-! ## Units of a request (R293, R300, R302, R305) -/

/-- Address and length of the bytes that hold element `c` of a row of a tensor. -/
def TensorCopy.elementRange (t : TensorCopy) (row : Nat) (c : Nat) : Nat × Nat :=
  let w := t.fmt.element
  (t.rowBase row + w * c / 8, (w * c % 8 + w + 7) / 8)

/-- Elements that word `k` of a tile takes bits of, as row and number. -/
def TensorCopy.wordElements (t : TensorCopy) (k : Nat) : Nat × List Nat :=
  let w := t.fmt.element
  let row := k / (t.rowBytes / 4)
  let bit := 32 * (k % (t.rowBytes / 4))
  (row, ((List.range ((bit + 31) / w - bit / w + 1)).map (bit / w + ·)).filter (· < t.rowElems))

/-- The words of unit `u` that lie in rows of the row set. -/
def TensorCopy.unitWords (t : TensorCopy) (u : Nat) : List Nat :=
  ((List.range 4).map (4 * u + ·)).filter t.words.contains

/-- Addresses of the bytes that unit `u` of a tile reads, each once. -/
def TensorCopy.unitSources (t : TensorCopy) (u : Nat) : List Nat :=
  State.distinct (((t.unitWords u).map fun k =>
    let e := t.wordElements k
    ((e.2.filter fun j => t.inside e.1 j).map fun j =>
      let r := t.elementRange e.1 (t.column j).toNat
      (List.range r.2).map (r.1 + ·)).flatten).flatten)

/-- Element `j` of a row of a tile from the bytes read: inside the tensor what they hold, outside the fill value (R300). -/
def TensorCopy.element (t : TensorCopy) (seen : Nat → Byte) (row j : Nat) : Nat :=
  if t.inside row j then
    let c := (t.column j).toNat
    let r := t.elementRange row c
    ofBytes ((List.range r.2).map fun i => seen (r.1 + i)) / 2 ^ (t.fmt.element * c % 8) % 2 ^ t.fmt.element
  else t.filled

/-- Word `k` of a tile: packed elements, then zero (R302). -/
def TensorCopy.word (t : TensorCopy) (seen : Nat → Byte) (k : Nat) : Nat :=
  let w := t.fmt.element
  let e := t.wordElements k
  let bit := 32 * (k % (t.rowBytes / 4))
  let base := bit / w * w
  (e.2.map fun j => t.element seen e.1 j * 2 ^ (w * j - base)).foldl (· + ·) 0 / 2 ^ (bit - base) % 2 ^ 32

/-- Units in a chunk of 512 bytes (R297). -/
def chunkUnits : Nat := 32

/-- How many bytes the read of a unit takes. -/
def CopyRequest.sources (r : CopyRequest) (u : Nat) : Nat :=
  match r.tensor with
  | none => 16
  | some t => (t.unitSources u).length

/-- The access that reads a unit is done: all its bytes have been seen. -/
def CopyRequest.isRead (r : CopyRequest) (u : Nat) : Bool := r.read.get u 0 == BitVec.ofNat 32 (2 ^ r.sources u - 1)

/-- Bytes of a unit that an event sees: those of a mask that have not been seen. -/
def CopyRequest.unseen (r : CopyRequest) (u : Nat) (bytes : BitVec 32) : List Nat :=
  (List.range (r.sources u)).filter fun i => bytes.getLsbD i && !(r.read.get u 0).getLsbD i

/-- What the read of a unit saw as byte `i`. -/
def CopyRequest.seen (r : CopyRequest) (u i : Nat) : Byte := r.held.byte (32 * u + i)

/-- What the read of a unit saw at an address of the tensor. -/
def CopyRequest.seenAt (r : CopyRequest) (t : TensorCopy) (u a : Nat) : Byte := r.seen u ((t.unitSources u).idxOf a)

/-- The global bytes of a unit's read. -/
def CopyRequest.reads (r : CopyRequest) (u : Nat) : List (Nat × Nat) :=
  match r.tensor, r.source with
  | some t, _ => (t.unitSources u).map fun a => (a, 1)
  | none, .global a => [(a + 16 * u, 16)]
  | none, _ => []

/-- The global addresses of a unit's write. -/
def CopyRequest.writes (r : CopyRequest) (u : Nat) : List Nat :=
  match r.dest with
  | .global a => [a + 16 * u]
  | _ => []

/-- A copy that has units to move and an address of global memory that fulfils a condition. -/
def CopyRequest.touches (r : CopyRequest) (inside : Nat → Bool) : Bool :=
  r.ready && r.left.any fun u => (r.reads u).any (fun a => inside a.1) || (r.writes u).any inside

/-! ## Module flash (R298) -/

/-- What a unit of 4,096 bytes holds now, durable or not. -/
def FlashRegion.unit (r : FlashRegion) (u : Nat) : Memory :=
  match (r.late.filter (·.unit == u)).getLast? with
  | some l => l.data
  | none => r.data.slice (4096 * u) 4096 0

/-- Bytes at an offset within a unit. -/
def FlashRegion.bytes (r : FlashRegion) (off n : Nat) : List Byte := (r.unit (off / 4096)).bytes (off % 4096) n

/-- A storage write by a copy: the unit's content is not durable yet. A copy's writes of a unit come together, whatever another
writes there meanwhile. -/
def FlashRegion.put (r : FlashRegion) (copy off : Nat) (bytes : List Byte) : FlashRegion :=
  let u := off / 4096
  let own := fun (l : LateUnit) => l.unit == u && l.copy == copy
  let late := if r.late.any own then r.late else r.late ++ [{ copy, unit := u, data := r.unit u }]
  { r with late := late.map fun l => if own l then { l with data := l.data.setBytes (off % 4096) bytes } else l }

namespace State

/-- The region of module flash attached to a context (R295, R429). -/
def flashOf (s : State) (c : Nat) : Option FlashRegion := s.hw.flash.find? fun r => r.context == some c

/-- A unit of a copy comes from a unit of flash that cannot be read (R439). -/
def flashBad (s : State) (r : CopyRequest) (u : Nat) : Bool :=
  match r.source, s.flashOf r.context with
  | .flash a, some f => f.bad.contains ((a + 16 * u) / 4096)
  | _, _ => false

/-- The flash region of a context replaced. -/
def setFlashOf (s : State) (c : Nat) (r : FlashRegion) : State :=
  s.setHw { s.hw with flash := s.hw.flash.map fun q => if q.context == some c then r else q }

/-! ## Reading and writing a unit (R255, R293) -/

/-- Every page of a list of addresses still grants what the copy asks and is no lattice page (R269). -/
def pagesPass (s : State) (core context : Nat) (l : List Nat) (k : AccessKind) : Bool :=
  l.all fun a => match s.checkPage core context [] a k with
    | .page e _ => !leafLat e
    | _ => false

/-- Bytes written within a page. -/
def engineWrite (s : State) (core context a : Nat) (bytes : List Byte) : State :=
  match s.placeAt core context a .write with
  | .mem pa => s.memWrite context pa bytes
  | .peer d g off => s.askPeer (.write d g off bytes.length (BitVec.ofNat 128 (ofBytes bytes)))
  | _ => s

/-- Bytes that a copy also reads: its own source range (R293). -/
def inSource (r : CopyRequest) (off : Nat) : Bool :=
  match r.source, r.dest with
  | .global a, .global b => a ≤ b + off && b + off < a + r.len
  | .pad c a, .pad d b => c == d && a ≤ b + off && b + off < a + r.len
  | .flash a, .flash b => a ≤ b + off && b + off < a + r.len
  | _, _ => false

/-- Bytes of a copy written at an offset of its destination. -/
def destWrite (s : State) (core : Nat) (r : CopyRequest) (off : Nat) (bytes : List Byte) : State :=
  match r.dest with
  | .global a => s.engineWrite core r.context (a + off) bytes
  | .pad c a => s.padWrite c (a + off) bytes false s.nextId
  | .flash a =>
      match s.flashOf r.context with
      | some f => s.setFlashOf r.context (f.put r.id (a + off) bytes)
      | none => s

/-- Byte `i` of a unit at the source, as it stands. -/
def sourceByte (s : State) (core : Nat) (r : CopyRequest) (u i : Nat) : Byte :=
  let one := fun (l : List Byte) => l.headD 0
  match r.tensor, r.source with
  | some t, _ => one (s.engineRead core r.context ((t.unitSources u).getD i 0) 1)
  | none, .global a => one (s.engineRead core r.context (a + 16 * u + i) 1)
  | none, .pad c a => s.spad.byte (padKey c (a + 16 * u + i))
  | none, .flash a => match s.flashOf r.context with
    | some f => one (f.bytes (a + 16 * u + i) 1)
    | none => 0

/-- A unit's read sees some of its bytes: a write made after the copy's issue is seen in each byte or not (R255). -/
def readUnit (s : State) (core : Nat) (r : CopyRequest) (bytes : BitVec 32) (u : Nat) : CopyRequest :=
  (r.unseen u bytes).foldl (fun q i =>
    { q with
      read := q.read.set u (q.read.get u 0 ||| BitVec.ofNat 32 (2 ^ i))
      held := q.held.setByte (32 * u + i) (s.sourceByte core r u i) }) r

/-- What a unit's first bytes ask of peer devices (R219). -/
def askUnit (s : State) (core : Nat) (r : CopyRequest) (bytes : BitVec 32) (u : Nat) : State :=
  if r.read.get u 0 == 0 && !(r.unseen u bytes).isEmpty then
    (r.reads u).foldl (fun s a => s.engineAsk core r.context a.1 a.2 r.id) s
  else s

/-- A unit that has been read is written: 16 bytes of a plain copy, the words of a tile's rows. Bytes that the copy also reads are
undefined (R293). -/
def writeUnit (s : State) (core : Nat) (r : CopyRequest) (u : Nat) : State :=
  match r.tensor with
  | none => s.destWrite core r (16 * u) ((List.range 16).map fun i =>
      if inSource r (16 * u + i) then (Config.undefined s.tick (2 ^ 44 + 16 * u + i)).extractLsb' 0 8 else r.seen u i)
  | some t => (t.unitWords u).foldl (fun s k => s.destWrite core r (4 * k) (toBytes 4 (t.word (r.seenAt t u) k))) s

end State

end Sys2Proof.Machine
end

