-- ==== Sys2Proof/Machine/Ops.lean ====
section
/-!
DEFINITION. What ends or diverts the run of a group: the end of a context (R356), taking an exception (R353), returning from one
(R355), the stop for a debugger (R372).
-/

namespace Sys2Proof.Machine

namespace State

/-! ## Frames and stopped cores (R374, R391) -/

end State

/-- A leaf of a level at an address maps one of `n` pages from a page on. -/
def TlbEntry.maps (t : TlbEntry) (first n : Nat) : Bool :=
  let size := 2 ^ pageBits t.level / 65536
  0 < n && overlaps (t.va / 65536 / size * size) size first n

/-- An entry is dropped: of the context, and of one of the named pages or of any (R362). -/
def TlbEntry.named (t : TlbEntry) (context : Nat) (pages : Option (Nat × Nat)) : Bool :=
  t.context == context && match pages with
    | some (first, n) => t.maps first n
    | none => true

namespace State

/-- A group's early reads gone whose address lies in one of the named pages, or in any (R253, R362). -/
def GroupSys.unread (g : GroupSys) (pages : Option (Nat × Nat)) : GroupSys :=
  { g with early := g.early.filter fun e => match pages with
      | some (first, n) => !(first ≤ e.va / 65536 && e.va / 65536 < first + n)
      | none => false }

/-- Entries dropped from every core and die TLB (R362), and what groups have read early through them (R253). -/
def dropEntries (s : State) (context : Nat) (pages : Option (Nat × Nat)) : State :=
  let keep := fun (l : List TlbEntry) => l.filter fun t => !t.named context pages
  { s with
    sys := s.sys.mapVal fun gk g => if (s.blockAt (s.groupAt gk).block).context = context then GroupSys.unread g pages else g
    cores := s.cores.mapVal fun _ k => { k with tlb := keep k.tlb }
    dies := s.dies.mapVal fun _ k => { k with tlb := keep k.tlb } }

/-- A frame is withdrawn from its owner: TLB entries of the owner dropped, and those of every context for a pool frame (R391,
R428). -/
def dropOwner (s : State) (f : Nat) : State :=
  let r := s.frameAt f
  if r.owner = 0xFFFE then s.contexts.foldl (fun s e => s.dropEntries e.1 none) s else s.dropEntries r.owner.toNat none

/-- A frame quarantined, after the same drop (R391). -/
def quarantine (s : State) (f : Nat) : State := (s.dropOwner f).setFrameAt f { s.frameAt f with state := .quarantined }

/-- Some group of a core is stopped and not stepping. -/
def someStopped (s : State) (core : Nat) : Bool :=
  s.sys.any fun e => e.1 / 16 == core && match e.2.stop with
    | some t => t.step == none
    | none => false

/-- dstat.STOPPED follows the groups of the core (R374). -/
def markStopped (s : State) (core : Nat) : State :=
  let k := s.coreAt core
  let d := k.dstat &&& ~~~ (0x100 : DWord)
  s.setCoreAt core { k with dstat := if s.someStopped core then d ||| 0x100 else d }

/-! ## The end of a context (R356) -/

end State

/-- An operation of which some lanes are performed and others are not. -/
def Pending.begun (p : Pending) : Bool :=
  !p.finished && !p.accesses.isEmpty && p.accesses.length < (LaneMask.list p.mask).length

/-- A copy of which some units are written and others are not. -/
def CopyRequest.begun (r : CopyRequest) : Bool :=
  r.started && !r.left.isEmpty && r.left.length < (match r.tensor with
    | none => r.len / 16
    | some t => t.units.length)

namespace State

/-- What is left of an operation is performed; an access that meets an error or is refused is dropped (R356). -/
def wholeOp (s : State) (gk c : Nat) (p : Pending) : State :=
  let q := { p with accesses := p.accesses.filter fun a => (s.hazardOf c false a).isNone }
  let r := s.performWindow q
  (r.2.accesses.foldl (fun r a => r.1.performAccess gk c r.2 a 0) r).1

/-- What is left of a copy is performed, as far as its pages allow it and no error is met (R356). -/
def wholeCopy (s : State) (core : Nat) (r : CopyRequest) : State :=
  let fine := fun (s : State) (u : Nat) =>
    !s.flashBad r u && s.pagesPass core r.context ((r.reads u).map Prod.fst) .read && s.pagesPass core r.context (r.writes u) .write &&
      ((r.reads u).all fun a => (s.engineHazard core r.context a.1 a.2 .read).isNone) &&
      (r.writes u).all fun a => (s.engineHazard core r.context a 16 .write).isNone
  r.left.foldl (fun s u =>
    if fine s u then
      let q := s.readUnit core r (BitVec.allOnes 32) u
      (s.askUnit core r (BitVec.allOnes 32) u).writeUnit core q u
    else s) s

/-- Counted operations of a context that have begun are performed, each as a whole (R356). -/
def wholeWork (s : State) (c : Nat) : State :=
  let s := (s.groupsOf c).foldl (fun s gk =>
    ((s.sysAt gk).all.filter Pending.begun).foldl (fun s p => s.wholeOp gk c p) s) s
  (s.cores.map fun e => (e.2.copies.filter fun r => r.context == c && r.begun).map fun r => (e.1, r)).flatten.foldl
    (fun s e => s.wholeCopy e.1 e.2) s

/-- Everything of context `c` stops: its groups, blocks, launches (without completion joins), outstanding operations,
copies, matrix operations, misses, fault entries and checkpoints; its frames and those of its tables are zero-filled and free, and a
core that loses its stopped groups is no longer marked stopped (R374). Counted
operations still outstanding are performed where they have begun and discarded where not, each as a whole (R356). -/
def removeContext (s : State) (c : Nat) : State :=
  let s := s.wholeWork c
  let gs := s.groupsOf c
  let stopped := distinct ((gs.filter fun gk => (s.sysAt gk).stop.isSome).map (· / 16))
  let bs := (s.blocks.filter fun e => e.2.context == c).map Prod.fst
  let ls := (s.launches.filter fun e => e.2.context == c).map Prod.fst
  let fs := s.framesOf c ++ (s.firmAt c).tables
  let s := { s with
    groups := s.groups.filter fun e => !gs.contains e.1
    sys := s.sys.filter fun e => !gs.contains e.1
    blocks := s.blocks.filter fun e => !bs.contains e.1
    launches := s.launches.filter fun e => !ls.contains e.1
    queues := s.queues.mapVal fun _ q => q.filter fun l => !ls.contains l
    cores := s.cores.mapVal fun _ k => CoreState.without k c
    clusters := s.clusters.mapVal fun _ k => Cluster.without k c bs
    dies := s.dies.mapVal fun _ k => Die.without k c
    contexts := s.contexts.erase c
    firm := s.firm.erase c
    snap := none }
  let s := s.setHw { s.hw with
    flash := s.hw.flash.map fun r => if r.context == some c then { r with context := none } else r
    tierMoves := s.hw.tierMoves.filter (·.context != c)
    checkpoints := s.hw.checkpoints.erase c }
  (stopped.foldl markStopped s).freeFrames fs

/-- Records of a context that wait for its ring are kept when it ends (R357). -/
def keepRecords (s : State) (c : Nat) : State :=
  let f := s.firmAt c
  s.setHw { s.hw with ended := s.hw.ended ++ f.backlog.map fun r => ((s.contextAt c).space, f.ring, r) }

/-- Kill(class, sub) for context `c` with its record (R356, R357). -/
def killWith (s : State) (c : Nat) (r : EventRecord) : State :=
  { ((s.postEvent c r).keepRecords c).removeContext c with last := .killed, tick := s.tick + 1 }

/-! ## Taking an exception (R353) -/

/-- A lane number for elane: 0x7F when no lane is named (R348). -/
def laneCode (lane : Option Nat) : Nat := lane.getD 0x7F

/-- The epc of a trap of split `n` at packet `pc`, word `w` (R349). -/
def epcOf (n pc w : Nat) : DWord := BitVec.ofNat 64 (pc + 2 ^ 21 * w + 2 ^ 23 * n)

/-- Trap entry of the issuing split: CSRs, level S, handler packet 0, every other split frozen (R353). `pc` and `w` are the
resume point saved in epc. -/
def trapEntry (s : State) (cls : FaultClass) (sub : Nat) (addr : DWord) (lane : Option Nat) (pc w : Nat)
    (earg : Vector DWord 6) : State :=
  let g := s.group
  let x := s.split
  let csr := { s.gsys.csr with
    epc := epcOf s.cur.split pc w
    ecause := BitVec.ofNat 64 (cls.code + 256 * sub)
    eaddr := addr
    elane := BitVec.ofNat 64 (laneCode lane)
    earg := earg }
  let frozen := g.splits.mapVal fun n y => if n = s.cur.split then y else { y with frozen := true }
  let mine := { issued s.now x with
    pc := 0, word := 0, handler := true, packet := none, back := 0, arrivals := x.arrivals }
  let s := s.setSys { s.gsys with csr := csr, before := none }
  { s.setGroup { g with level := .s, splits := frozen.set s.cur.split mine } with
    last := .trapped, tick := s.tick + 1 }

/-- tvec.V and tvec.BASE (R349). -/
def tvecValid (t : DWord) : Bool := t.getLsbD 63
def tvecBase (t : DWord) : Nat := (t.extractLsb' 0 60).toNat

/-- A precise fault delivered to the S handler, or the kill that R353 puts in its place: a fault at S is a double fault, and
without a handler the context ends. -/
def deliver (s : State) (cls : FaultClass) (sub : Nat) (addr : DWord) (lane : Option Nat) (pc w : Nat)
    (earg : Vector DWord 6) : State :=
  if s.vgroup.level = .s then
    s.killWith s.block.context
      (s.eventHere 0x01 FaultClass.doubleFault.code cls.code addr (laneCode lane))
  else if !tvecValid s.vcontext.tvec then
    s.killWith s.block.context (s.eventHere 0x01 cls.code sub addr (laneCode lane))
  else s.trapEntry cls sub addr lane pc w earg

/-- A precise fault of the word at hand: no effect of its issue group stands, and the resume point is the issue group's
first word (R59, R71, R353). -/
def fault (s : State) (cls : FaultClass) (addr : DWord) (lane : Option Nat) : State :=
  s.deliver cls 0 addr lane s.split.pc.toNat s.split.word (Vector.replicate 6 0)

/-- The illegal-instruction fault with its cause (R87): the resume point is word 0 of the packet. -/
def illegal (s : State) (c : Cause) : State :=
  s.deliver .illegalInstruction c.code 0 none s.split.pc.toNat 0 (Vector.replicate 6 0)

/-- The illegal-instruction fault that a word raises at issue, at its issue group's first word (R108, R355). -/
def illegalHere (s : State) (c : Cause) : State :=
  s.deliver .illegalInstruction c.code 0 none s.split.pc.toNat s.split.word (Vector.replicate 6 0)

/-! ## Returning from one (R355) -/

/-- The packet index, word index of an epc (R349). -/
def epcPc (e : DWord) : Nat := (e.extractLsb' 0 21).toNat
def epcWord (e : DWord) : Nat := (e.extractLsb' 21 2).toNat

/-- Return from trap: level U, the issuing split resumes at epc, every frozen split is unfrozen, LOST is cleared. A pending
fault stays pending and is delivered before the next issue group (R355, R358). -/
def trapReturn (s : State) : State :=
  let g := s.group
  let csr := s.gsys.csr
  let epc := s.vsys.csr.epc
  let thawed := g.splits.mapVal fun _ y => { y with frozen := false }
  let mine := { issued s.now s.split with
    pc := BitVec.ofNat 20 (epcPc epc)
    word := epcWord epc
    handler := false
    packet := none
    back := 0
    frozen := false }
  let s := s.setSys { s.gsys with csr := { csr with lost := false } }
  let s := { s.setGroup { g with level := .u, splits := thawed.set s.cur.split mine } with
    last := .done, tick := s.tick + 1 }
  match s.snap with
  | some k => { s with snap := some { k with moved := true } }
  | none => s

/-! ## Stops for the debugger (R372) -/

/-- dstat after a stop (R374): GSLOT, SPLIT, WHY and STOPPED. -/
def dstatOf (slot split why : Nat) : DWord := BitVec.ofNat 64 (slot + 16 * split + 64 * why + 256)

/-- A debug stop of the issuing group with cflags.DBG = 1: the group is stopped, dstat is set, an event is posted (R372). A split
that stopped at a breakpoint passes it at its next issue (R373). -/
def debugStop (s : State) (why : Nat) : State :=
  let s := s.setSys { s.gsys with stop := some { why, split := s.cur.split, step := none, packet := none, ended := false } }
  let s := if why = 2 then s.setSplit { s.split with passBreak := true } else s
  let k := s.core
  let s := s.setCoreAt s.cur.core { k with dstat := dstatOf s.cur.slot s.cur.split why }
  { s.postEvent s.block.context (s.eventHere 0x02 FaultClass.debugTrap.code why 0 0x7F) with
    last := .trapped, tick := s.tick + 1 }

end State

end Sys2Proof.Machine
end

