-- ==== Sys2Proof/Machine/Perform.lean ====
section
/-!
DEFINITION. Performing the accesses of counted operations and counting them off (R83 to R85, R219, R224, R225, R229, R230,
R232, R234, R249 to R253, R264 to R266, R277 to R285, R439).
-/

namespace Sys2Proof.Machine

namespace State

/-! ## Errors met on the way (R219, R236, R385, R439) -/

/-- A request that returns no value is dropped where the memory controller refuses its frame (R385); one to a line that has failed in a
quarantined frame of the context meets the error (R440). -/
def dropRefused (s : State) (context : Nat) (act : OpAct) (a : Access) : Access :=
  match act, a.place with
  | .store, .mem pa | .red _, .mem pa | .join _, .mem pa | .increment, .mem pa =>
      if s.frameUsable context (pa / 65536) || s.meetsError context (pa / 65536) pa then a else { a with dead := true }
  | _, _ => a

/-- A context ends with an uncorrectable error at an address of R440, which is logged (R439 to R441). -/
def errorKill (s : State) (context addr : Nat) : State :=
  let at_ := s.frameSite (addr / 65536)
  let s := s.logError { type := 2, die := at_.1, unit := at_.2, context, addr := BitVec.ofNat 64 addr, time := s.micros, count := 0 }
  s.killWith context (eventOf context 0x01 FaultClass.memoryError.code 0 (BitVec.ofNat 64 addr))

/-- A frame of a context quarantined, as far as the security cores agree (R27, R391, R439). -/
def quarantineOf (s : State) (context f : Nat) : State :=
  if (s.frameAt f).owner.toNat == context then s.decided fun s => s.quarantine f else s

/-- A frame in which a context has met an uncorrectable error is quarantined, and the error logged (R439, R441). -/
def foundBad (s : State) (context pa : Nat) : State :=
  let f := pa / 65536
  let s := s.quarantineOf context f
  let at_ := s.frameSite f
  s.logError { type := 2, die := at_.1, unit := at_.2, context, addr := BitVec.ofNat 64 (65536 * f), time := s.micros, count := 0 }

/-- An uncorrectable error met in a frame by a core or engine of a context: the frame is quarantined, logged, and the
context is killed (R439 to R441). -/
def memoryKill (s : State) (context pa : Nat) : State :=
  let f := pa / 65536
  (s.quarantineOf context f).errorKill context (65536 * f)

/-- A dropped access to a device that is not on the roster (R219). -/
def containmentKill (s : State) (context va : Nat) : State :=
  s.killWith context (eventOf context 0x01 FaultClass.containment.code 0 (BitVec.ofNat 64 va))

def hazardKill (s : State) (context : Nat) : Hazard → State
  | .memory pa => s.memoryKill context pa
  | .containment va => s.containmentKill context va

end State

/-! ## Counters (R83) -/

/-- The four counters. -/
inductive Counter where
  | ld | st | cp | tm
deriving DecidableEq, Repr

def GroupSys.list (g : GroupSys) : Counter → List Pending
  | .ld => g.ld
  | .st => g.st
  | .cp => g.cp
  | .tm => g.tm

def GroupSys.setList (g : GroupSys) (c : Counter) (l : List Pending) : GroupSys :=
  match c with
  | .ld => { g with ld := l }
  | .st => { g with st := l }
  | .cp => { g with cp := l }
  | .tm => { g with tm := l }

/-- An LTRY. -/
def Pending.tries (p : Pending) : Bool :=
  match p.act with
  | .latTry _ _ _ => true
  | _ => false

/-- The outstanding operation with a name. -/
def findOp (l : List Pending) (id : Nat) : Option Pending := l.find? (·.id == id)

def replaceOp (l : List Pending) (p : Pending) : List Pending := l.map fun q => if q.id == p.id then p else q

/-- The operations that must be performed first have been (R252, R253). -/
def GroupSys.freeOf (g : GroupSys) (p : Pending) : Bool :=
  p.after.all fun i => g.all.all fun q => q.id != i || q.finished

/-- No access of the chosen lanes waits for an earlier access to one of its bytes (R253 case 1). -/
def GroupSys.freeLanes (g : GroupSys) (p : Pending) (lanes : LaneMask) : Bool :=
  p.behind.all fun e =>
    !(lanes.getLsbD e.1 && p.accesses.any (·.lane == e.1)) ||
    g.all.all fun q => q.id != e.2.1 || q.finished || q.accesses.all (·.lane != e.2.2)

/-! ## Destinations at count-off (R84, R85) -/

/-- Nothing holds up an LTRY but its thresholds: it is performed whole (R281). -/
def GroupSys.tryFree (g : GroupSys) (p : Pending) : Bool :=
  !p.finished && g.freeOf p && g.freeLanes p (BitVec.allOnes 96)

/-- Write vector register `r` of a group in the lanes of `m`. -/
def Group.putV (g : Group) (m : LaneMask) (r : Nat) (f : Nat → Word) : Group :=
  { g with v := g.v.set r (LaneWords.ofFn fun l => if m.getLsbD l then f l else (State.vectorOf g r).lane l) }

/-- Write scalar register `r` of a group; s61 to s63 are no destinations of a load (R100). -/
def Group.putS (g : Group) (r : Nat) (w : Word) : Group := if r < 61 then { g with s := g.s.set r w } else g

/-- Write predicate `p` of a group in the lanes of `m` (R148). -/
def Group.putP (g : Group) (m : LaneMask) (p : Nat) (f : Nat → Bool) : Group :=
  if p = 7 then g
  else { g with p := g.p.set p (LaneMask.ofFn fun l => if m.getLsbD l then f l else (g.p.get p 0).getLsbD l) }

/-- Word `k` of 128 bits. -/
def quadWord (x : QWord) (k : Nat) : Word := x.extractLsb' (32 * k) 32

/-- The group after an operation's values reach its vector registers: `n` registers from `x`; a lane written since the issue holds an
undefined value (R85). -/
def Group.land (g : Group) (tick : Nat) (p : Pending) (x n : Nat) (value : QWord → QWord) : Group :=
  (List.range n).foldl (fun g k =>
    let bad := p.spoiled.get (x + k) 0
    g.putV p.mask (x + k) fun l =>
      if bad.getLsbD l then Config.undefined tick (2 ^ 20 + 128 * (x + k) + l)
      else quadWord (value (p.results.get l 0)) k) g

/-- A scalar destination reached (R85, R100). -/
def Group.landS (g : Group) (tick : Nat) (p : Pending) (r : Nat) (w : Word) : Group :=
  g.putS r (if p.spoiled.at? r != none then Config.undefined tick (2 ^ 21 + r) else w)

/-- A predicate destination reached. -/
def Group.landP (g : Group) (tick : Nat) (p : Pending) (m : LaneMask) (r : Nat) (f : Nat → Bool) : Group :=
  let bad := p.spoiledPreds.get r 0
  g.putP m r fun l =>
    if bad.getLsbD l then (Config.undefined tick (2 ^ 22 + 128 * r + l)).getLsbD 0 else f l

/-- The group after an operation has been counted off: its destinations hold their values (R84). -/
def Group.finish (g : Group) (tick : Nat) (p : Pending) : Group :=
  match p.act with
  | .load w x => g.land tick p x.toNat w.regs w.widen
  | .atom fn x => g.land tick p x.toNat (if fn.wide then 2 else 1) id
  | .latRead w x => g.land tick p x.toNat (if w == .b64 then 2 else 1) id
  | .scalarLoad n d =>
      let v := p.results.get 0 0
      let g := g.landS tick p d.toNat (quadWord v 0)
      if n = 8 then g.landS tick p (d.toNat + 1) (quadWord v 1) else g
  | .constLoad d => g.landS tick p d.toNat (quadWord (p.results.get 0 0) 0)
  | .latTry wide x pd =>
      let g := g.land tick p x.toNat 1 id
      let g := if wide then
          let q := { p with mask := LaneMask.ofFn fun l => p.mask.getLsbD l && (p.results.get (192 + l) 0).getLsbD 0 }
          g.land tick { q with results := p.results.mapVal fun _ v => v >>> 32, spoiled := p.spoiled } (x.toNat + 1) 1 id
        else g
      g.landP tick p p.mask pd.toNat fun l => (p.results.get (96 + l) 0).getLsbD 0
  | .accrd _ d fmt _ _ _ => g.land tick p d.toNat (if fmt.wide then 2 else 1) id
  | .wpin pd _ => g.landP tick p (BitVec.allOnes 96) pd.toNat fun _ => (p.results.get 0 0).getLsbD 0
  | _ => g

/-- The record of an LSTA with failed lanes: the lowest of them (R283, R284). -/
def Pending.record (p : Pending) : Option NonMonotone :=
  match p.failed.find? fun e => p.failed.all fun f => e.1.lane ≤ f.1.lane with
  | none => none
  | some (a, old) =>
      some { addr := BitVec.ofNat 64 a.va, lane := a.lane, stored := a.data.setWidth 64, current := old.setWidth 64,
             failed := LaneMask.ofFn fun l => p.failed.any fun e => e.1.lane == l }

namespace State

/-- A recoverable fault that no handler takes is posted as an event (R358). -/
def unclaimed (s : State) (gk : Nat) (r : NonMonotone) : State :=
  let g := s.groupAt gk
  let b := s.blockAt g.block
  s.postEvent b.context
    { kind := 0x04, cls := FaultClass.nonMonotone.code, sub := 0, context := b.context, loc := 0,
      vdie := vdieOf (s.contextAt b.context) (dieOf (coreOfKey gk)), core := coreOfKey gk % 64, slot := gk % 16, split := 0,
      addr := r.addr, lane := r.lane }

/-- A non-monotone store reaches its group: held until delivered, lost when one is held already, an event when the group
has ended (R358). -/
def raiseNonMonotone (s : State) (gk : Nat) (r : NonMonotone) : State :=
  let g := s.sysAt gk
  if (s.groupAt gk).phase = .ended || (s.groupAt gk).phase = .leaving then s.unclaimed gk r
  else if g.pendingFault = none then s.setSysAt gk { g with pendingFault := some r }
  else s.setSysAt gk { g with csr := { g.csr with lost := true } }

/-- The oldest operation of a counter is counted off if it is complete (R83, R84). -/
def countOne (s : State) (gk : Nat) (c : Counter) : State :=
  let g := s.sysAt gk
  match g.list c with
  | [] => s
  | p :: rest =>
      if p.finished then
        let s := s.setSysAt gk (g.setList c rest)
        let s := s.setGroupAt gk ((s.groupAt gk).finish s.tick p)
        match p.record with
        | some r => s.raiseNonMonotone gk r
        | none => s
      else s

/-- Operations are counted off in issue order, as long as the oldest is complete (R83). -/
def countOff (s : State) (gk : Nat) (c : Counter) : State :=
  (List.range (s.sysAt gk |>.list c).length).foldl (fun s _ => s.countOne gk c) s

/-! ## Performing operations -/

/-- An access outside the chosen lanes that must come first: a lower lane of the same word on a common byte (R225, R229). -/
def outOfOrder (p : Pending) (lanes : LaneMask) : Bool :=
  p.act.writes && p.accesses.any fun a =>
    lanes.getLsbD a.lane && p.accesses.any fun b =>
      !lanes.getLsbD b.lane && b.lane < a.lane && a.place.meets a.n b.place b.n

/-- Perform the accesses of one operation in the chosen lanes, in ascending position (R225, R229); contributions of a RED
leave together (R234). An access that is stopped ends the context. -/
def performLanes (s : State) (gk : Nat) (c : Counter) (p : Pending) (lanes : LaneMask) (replies : Table QWord) :
    State :=
  let context := (s.blockAt (s.groupAt gk).block).context
  let chosen := p.accesses.filter fun a => lanes.getLsbD a.lane || match a.place with
    | .window _ _ _ _ => true
    | _ => false
  let reads := match p.act with
    | .store => false
    | _ => true
  let chosen := chosen.map (s.dropRefused context p.act)
  match chosen.findSome? (s.hazardOf context reads) with
  | some h => s.hazardKill context h
  | none =>
      let w := s.performWindow p
      let one := fun (e : State × Pending) (a : Access) =>
        e.1.performAccess gk context e.2 a (replies.get a.lane (freeQuad s.tick (2 ^ 37 + 16 * a.lane)))
      let r := (chosen.filter fun a => w.2.accesses.any (·.lane == a.lane)).foldl one w
      let q := if r.2.accesses.isEmpty then { r.2 with finished := true } else r.2
      let g := r.1.sysAt gk
      (r.1.setSysAt gk (g.setList c (replaceOp (g.list c) q))).countOff gk c

/-- A load or store completes in part: the accesses of the chosen lanes are performed (R84). Not enabled where an earlier
access must come first. -/
def completeLanes (s : State) (gk : Nat) (c : Counter) (id : Nat) (lanes : LaneMask) (replies : Table QWord) : State :=
  let g := s.sysAt gk
  match findOp (g.list c) id with
  | none => s
  | some p =>
      if p.finished || !g.freeOf p || !g.freeLanes p lanes || outOfOrder p lanes then s
      else s.performLanes gk c p lanes replies

/-- What a lane of LTRY reads now: the cell, or the Sum of a cnt8x32 cell (R281). -/
def tryValue (s : State) (a : Access) : QWord := s.cellValue (tryType a == .cnt8x32) a

/-- A lane of LTRY stands at its threshold (R281). -/
def tryHolds (s : State) (a : Access) : Bool := (tryType a).atLeast (s.tryValue a).toNat (tryThreshold a)

/-- An LTRY stands at its threshold in every lane (R281). -/
def trySatisfied (s : State) (p : Pending) : Bool := p.accesses.all s.tryHolds

/-- An LTRY completes with the values its lanes read now (R281): the value under the lane, the predicate under 96 + lane, and
whether the type is of 64 bits under 192 + lane. -/
def finishTry (s : State) (gk : Nat) (p : Pending) : State :=
  let context := (s.blockAt (s.groupAt gk).block).context
  match p.accesses.findSome? (s.hazardOf context true) with
  | some h => s.hazardKill context h
  | none =>
      let put := fun (t : Table QWord) (a : Access) =>
        ((t.set a.lane (s.tryValue a)).set (96 + a.lane) (if s.tryHolds a then 1 else 0)).set (192 + a.lane)
          (if (tryType a).wide then 1 else 0)
      let q := { p with results := p.accesses.foldl put p.results, accesses := [], finished := true }
      let g := s.sysAt gk
      (s.setSysAt gk { g with ld := replaceOp g.ld q }).countOff gk .ld

/-- A load completes (R84): an LTRY once every lane is satisfied. -/
def completeLoad (s : State) (gk id : Nat) (lanes : LaneMask) (replies : Table QWord) : State :=
  match findOp (s.sysAt gk).ld id with
  | none => s
  | some p =>
      match p.act with
      | .latTry _ _ _ =>
          if (s.sysAt gk).tryFree p && s.trySatisfied p then s.finishTry gk p else s
      | _ => s.completeLanes gk .ld id lanes replies

/-- Operations of a group that have accesses to perform before a release, oldest first. An LTRY is none of them: it goes on looking until
it completes, and no word but those of R72 blocks (R72, R281; entry 47). -/
def GroupSys.waiting (g : GroupSys) : List (Counter × Nat) :=
  ((g.ld.filter fun p => !p.finished && !p.tries).map fun p => (Counter.ld, p.id)) ++
  ((g.st.filter fun p => !p.finished).map fun p => (Counter.st, p.id))

/-- One operation performed whole, if nothing holds it up. -/
def performWhole (s : State) (gk : Nat) (c : Counter) (id : Nat) : State :=
  match findOp ((s.sysAt gk).list c) id with
  | none => s
  | some _ =>
      match c with
      | .ld => s.completeLoad gk id (BitVec.allOnes 96) []
      | c => s.completeLanes gk c id (BitVec.allOnes 96) []

/-- Every access of a group outstanding in ld and st is performed now, the oldest operation first; an LTRY stays. What a peer's home
answers here is a free value (R219). This is what a release needs (R252). -/
def performAll (s : State) (gk : Nat) : State :=
  let order := (GroupSys.waiting (s.sysAt gk)).foldl (fun (t : Table Counter) e => t.set e.2 e.1) []
  order.foldl (fun s e => s.performWhole gk e.2 e.1) s

/-- A release of the issuing group, and what the word does after it (R252). The word is not ready while an earlier access
cannot be performed. -/
def afterRelease (s : State) (f : State → State) : State :=
  if GroupSys.waiting s.gsys = [] then f s
  else
    let t := { s with last := .idle }.performAll s.gkey
    if t.last = .killed then t else if GroupSys.waiting t.gsys = [] then f t else t.stalled

end State

end Sys2Proof.Machine
end

