-- ==== Sys2Proof/Machine/Info.lean ====
section
/-!
DEFINITION. What an instruction word names and writes, and the class it issues in: what the packet check of R87 and the
chain rules of R67 to R70 ask about a word.
-/

namespace Sys2Proof

open Machine

/-- Pipe classes of R68. -/
inductive Pipe where
  | none | s | v | x | m | e
deriving DecidableEq, Repr

/-- A register a word writes (R69). -/
inductive Reg where
  | v (n : Nat)
  | s (n : Nat)
  | p (n : Nat)
  | special (n : Nat)
deriving DecidableEq, Repr

def IntType.regs : IntType → Nat
  | .i64 | .n64 => 2
  | _ => 1

def FloatType.regs : FloatType → Nat
  | .f64 => 2
  | _ => 1

def Fmt.regs (f : Fmt) : Nat := if f.wide then 2 else 1

/-- The random register read after the source (R75). -/
def Rnd.regs : Rnd → Nat
  | .rsr => 1
  | _ => 0

def OffForm.regs : OffForm → Nat
  | .x64 => 2
  | _ => 1

/-- Registers from VX on that an atomic reads (R228). -/
def AtomFn.regs (f : AtomFn) : Nat := (if f.wide then 2 else 1) * (if f.swaps then 2 else 1)

def LatWidth.regs : LatWidth → Nat
  | .b64 => 2
  | _ => 1

def AccForm.regs : AccForm → Nat
  | .f32 => 1
  | .f64 => 2
  | .b128 => 4

/-- `n` vector registers from `r`. -/
def regsV (r : VReg) (n : Nat) : List Reg := (List.range n).map fun k => .v (r.toNat + k)

/-- `n` scalar registers from `r`. -/
def regsS (r : SReg) (n : Nat) : List Reg := (List.range n).map fun k => .s (r.toNat + k)

/-- A predicate. p7 counts like any other, though a write to it is discarded (R69, R148). -/
def regP (r : PReg) : List Reg := [.p r.toNat]

/-- am0 to am2. -/
def regsMask : List Reg := [.s 61, .s 62, .s 63]

/-- The register of a source of format S3. -/
def regE : SSrc → List Reg
  | .reg r => regsS r 1
  | _ => []

/-- Registers counted through, for the marks of `EarlyRead`. -/
def Reg.number : Reg → Nat
  | .s n => n
  | .v n => 64 + n
  | .p n => 192 + n
  | .special n => 200 + n

/-- The register of a destination of format S3. -/
def regD : SDst → List Reg
  | .reg r => regsS r 1
  | .chan _ => []

def dstChan : SDst → List Nat
  | .chan c => [c.toNat]
  | .reg _ => []

def srcChan : SSrc → List Nat
  | .reg _ => []
  | .peek c | .pop c => [c.toNat]

def srcPop : SSrc → List Nat
  | .pop c => [c.toNat]
  | _ => []

/-- The pipe class of each instruction (R80); events use none. -/
def Instr.pipe : Instr → Pipe
  | .add _ _ _ | .sub _ _ _ | .and _ _ _ | .or _ _ _ | .xor _ _ _ | .shl _ _ _ | .shrN _ _ _ | .shrI _ _ _
  | .minI _ _ _ | .maxI _ _ _ | .minN _ _ _ | .maxN _ _ _ | .mul _ _ _ | .mulhI _ _ _ | .mulhN _ _ _
  | .cmpEq _ _ _ | .cmpNe _ _ _ | .cmpLtI _ _ _ | .cmpLtN _ _ _ | .add64 _ _ _ | .sub64 _ _ _ | .shl64 _ _ _
  | .shr64N _ _ _ | .movi _ _ | .movh _ _ | .addi _ _ | .andi _ _ | .ori _ _ | .xori _ _ | .cmpiEq _ _
  | .cmpiLtI _ _ | .srd _ _ | .swr _ _ | .bra _ | .bz _ _ | .bnz _ _ | .bany _ _ | .ball _ _ | .bnone _ _
  | .bdiv _ _ | .call _ | .ret | .jmpr _ | .mfromp _ | .mtop _ | .wait _ _ _ _ | .yield | .exit | .trap _ | .brk
  | .rft | .rftKill | .segld _ _ | .segrd _ _ | .csrr _ _ | .csrw _ _ | .tlbinv _ _ | .tlbinvAll | .idle _ => .s
  | .vaddI32 _ _ _ | .vsubI32 _ _ _ | .vmulI32 _ _ _ | .vmulhI32 _ _ _ | .vmulhN32 _ _ _ | .vminI32 _ _ _
  | .vmaxI32 _ _ _ | .vminN32 _ _ _ | .vmaxN32 _ _ _ | .vandB32 _ _ _ | .vorB32 _ _ _ | .vxorB32 _ _ _
  | .vshlB32 _ _ _ | .vshrN32 _ _ _ | .vshrI32 _ _ _ | .vabsdI32 _ _ _ | .vaddsI32 _ _ _ | .vsubsI32 _ _ _
  | .vaddsN32 _ _ _ | .vsubsN32 _ _ _ | .vbfeN32 _ _ _ | .vbfeI32 _ _ _ | .vbfiB32 _ _ _ | .vpopcB32 _ _
  | .vclzB32 _ _ | .vbrevB32 _ _ | .vaddI64 _ _ _ | .vsubI64 _ _ _ | .vshlB64 _ _ _ | .vshrN64 _ _ _
  | .vshrI64 _ _ _ | .vaddI32Vi _ _ _ | .vandB32Vi _ _ _ | .vshlB32Vi _ _ _ | .vshrN32Vi _ _ _
  | .vaddI32Vs _ _ _ | .vsubI32Vs _ _ _ | .vmulI32Vs _ _ _ | .vmulhI32Vs _ _ _ | .vmulhN32Vs _ _ _
  | .vminI32Vs _ _ _ | .vmaxI32Vs _ _ _ | .vminN32Vs _ _ _ | .vmaxN32Vs _ _ _ | .vandB32Vs _ _ _
  | .vorB32Vs _ _ _ | .vxorB32Vs _ _ _ | .vshlB32Vs _ _ _ | .vshrN32Vs _ _ _ | .vshrI32Vs _ _ _
  | .vabsdI32Vs _ _ _ | .vaddsI32Vs _ _ _ | .vsubsI32Vs _ _ _ | .vaddsN32Vs _ _ _ | .vsubsN32Vs _ _ _
  | .vbfeN32Vs _ _ _ | .vbfeI32Vs _ _ _ | .vbfiB32Vs _ _ _ | .vaddI64Vs _ _ _ | .vsubI64Vs _ _ _
  | .vshlB64Vs _ _ _ | .vshrN64Vs _ _ _ | .vshrI64Vs _ _ _ | .vbcastB32 _ _ | .vcmp _ _ _ _ _ | .pand _ _ _
  | .por _ _ _ | .pxor _ _ _ | .pnot _ _ | .pmov _ _ | .vfromp _ _ | .vtop _ _ | .vfaddF32 _ _ _
  | .vfsubF32 _ _ _ | .vfmulF32 _ _ _ | .vffmaF32 _ _ _ | .vffnmaF32 _ _ _ | .vfminF32 _ _ _ | .vfmaxF32 _ _ _
  | .vfabsF32 _ _ | .vfnegF32 _ _ | .vfcopysignF32 _ _ _ | .vfrintF32 _ _ | .vfaddF64 _ _ _ | .vfsubF64 _ _ _
  | .vfmulF64 _ _ _ | .vffmaF64 _ _ _ | .vffnmaF64 _ _ _ | .vfminF64 _ _ _ | .vfmaxF64 _ _ _ | .vfabsF64 _ _
  | .vfnegF64 _ _ | .vfcopysignF64 _ _ _ | .vfrintF64 _ _ | .vfaddBf16 _ _ _ | .vfsubBf16 _ _ _
  | .vfmulBf16 _ _ _ | .vffmaBf16 _ _ _ | .vffnmaBf16 _ _ _ | .vfminBf16 _ _ _ | .vfmaxBf16 _ _ _
  | .vfabsBf16 _ _ | .vfnegBf16 _ _ | .vfcmp _ _ _ _ _ | .cvts _ _ _ _ _ | .cvti _ _ _ _ _ => .v
  | .shflIdx _ _ _ _ | .shflUp _ _ _ _ | .shflDown _ _ _ _ | .shflXor _ _ _ _ | .voteAny _ _ | .voteAll _ _
  | .ballot _ _ | .vscanIncl _ _ _ _ | .vscanExcl _ _ _ _ | .vred _ _ _ | .vfdivF32 _ _ _ | .vfsqrtF32 _ _
  | .vfrcpF32 _ _ | .vfrsqF32 _ _ | .vfexp2F32 _ _ | .vflog2F32 _ _ | .vfsinF32 _ _ | .vfcosF32 _ _
  | .vftanhF32 _ _ | .vfdivF64 _ _ _ | .vfsqrtF64 _ _ | .vfrcpF64 _ _ | .vfrsqF64 _ _ | .pack4 _ _
  | .unpack4 _ _ _ | .pack6 _ _ | .unpack6 _ _ _ | .pack8 _ _ | .unpack8 _ _ _ | .bscale _ _ _
  | .scapplyMul _ _ _ | .scapplyDiv _ _ _ | .compress _ _ _ | .tidsetImm _ | .tidsetReg _ => .x
  | .sld32 _ _ _ | .sld64 _ _ _ | .sldK _ _ _ | .sst _ _ _ | .ldg _ _ _ _ _ | .stg _ _ _ _ _ | .lds _ _ _ _ _
  | .sts _ _ _ _ _ | .ldc _ _ _ _ _ | .stc _ _ _ _ _ | .lda _ _ _ _ _ | .stl _ _ _ _ _ | .atom _ _ _ _
  | .atoma _ _ _ _ | .atoms _ _ _ _ | .red _ _ _ _ | .tagl _ _ _ | .tags _ _ | .tagi _ | .fence _ _ | .ifence
  | .publish _ | .flushh _ _ | .ljoin _ _ _ _ _ | .lld _ _ _ _ | .lldAcq _ _ _ _ | .lldge _ _ _ _
  | .ltry _ _ _ _ | .lsta _ _ _ _ | .linc _ _ | .lsync _ => .m
  | .attach | .detach _ | .regroup _ _ _ _ | .launch _ _ _ | .hops _ _ _ | .barArrive _ _ | .barWait _ _
  | .barSync _ | .barTry _ _ _ | .tcopy _ _ _ _ | .copy _ _ _ _ _ | .persist | .tryw _ _ _ _ | .bmtest _ _ _
  | .bmclr _ _ | .rpush _ _ | .rpop _ _ _ | .rfree _ _ _ | .rstat _ _ | .mma _ _ _ | .mmas _ _ _
  | .accalloc _ _ _ | .accfree _ _ | .accz _ _ | .accrdSat _ _ _ _ | .accrdInf _ _ _ _ | .accwr _ _ _
  | .wpin _ _ _ _ | .wunpin _ _ _ | .opfence => .e
  | _ => .none

/-- The vector registers an instruction names, as first registers and counts, those read implicitly among them (R147). REGROUP names its
first register; the end of its range is measured against both groups' windows when they meet (R135; entry 37). -/
def Instr.vspans : Instr → List (VReg × Nat)
  | .vaddI32 d a b | .vsubI32 d a b | .vmulI32 d a b | .vmulhI32 d a b | .vmulhN32 d a b | .vminI32 d a b
  | .vmaxI32 d a b | .vminN32 d a b | .vmaxN32 d a b | .vandB32 d a b | .vorB32 d a b | .vxorB32 d a b
  | .vshlB32 d a b | .vshrN32 d a b | .vshrI32 d a b | .vabsdI32 d a b | .vaddsI32 d a b | .vsubsI32 d a b
  | .vaddsN32 d a b | .vsubsN32 d a b | .vbfeN32 d a b | .vbfeI32 d a b | .vbfiB32 d a b | .vfaddF32 d a b
  | .vfsubF32 d a b | .vfmulF32 d a b | .vffmaF32 d a b | .vffnmaF32 d a b | .vfminF32 d a b | .vfmaxF32 d a b
  | .vfcopysignF32 d a b | .vfdivF32 d a b | .vfaddBf16 d a b | .vfsubBf16 d a b | .vfmulBf16 d a b
  | .vffmaBf16 d a b | .vffnmaBf16 d a b | .vfminBf16 d a b | .vfmaxBf16 d a b | .scapplyMul d a b
  | .scapplyDiv d a b => [(d, 1), (a, 1), (b, 1)]
  | .vpopcB32 d a | .vclzB32 d a | .vbrevB32 d a | .vfabsF32 d a | .vfnegF32 d a | .vfrintF32 d a
  | .vfsqrtF32 d a | .vfrcpF32 d a | .vfrsqF32 d a | .vfexp2F32 d a | .vflog2F32 d a | .vfsinF32 d a
  | .vfcosF32 d a | .vftanhF32 d a | .vfabsBf16 d a | .vfnegBf16 d a => [(d, 1), (a, 1)]
  | .vaddI64 d a b | .vsubI64 d a b | .vfaddF64 d a b | .vfsubF64 d a b | .vfmulF64 d a b | .vffmaF64 d a b
  | .vffnmaF64 d a b | .vfminF64 d a b | .vfmaxF64 d a b | .vfcopysignF64 d a b | .vfdivF64 d a b =>
      [(d, 2), (a, 2), (b, 2)]
  | .vshlB64 d a b | .vshrN64 d a b | .vshrI64 d a b => [(d, 2), (a, 2), (b, 1)]
  | .vaddI32Vi d a _ | .vandB32Vi d a _ => [(d, 1), (a, 1)]
  | .vshlB32Vi d a _ | .vshrN32Vi d a _ => [(d, 1), (a, 1)]
  | .vaddI32Vs d a _ | .vsubI32Vs d a _ | .vmulI32Vs d a _ | .vmulhI32Vs d a _ | .vmulhN32Vs d a _
  | .vminI32Vs d a _ | .vmaxI32Vs d a _ | .vminN32Vs d a _ | .vmaxN32Vs d a _ | .vandB32Vs d a _
  | .vorB32Vs d a _ | .vxorB32Vs d a _ | .vshlB32Vs d a _ | .vshrN32Vs d a _ | .vshrI32Vs d a _
  | .vabsdI32Vs d a _ | .vaddsI32Vs d a _ | .vsubsI32Vs d a _ | .vaddsN32Vs d a _ | .vsubsN32Vs d a _
  | .vbfeN32Vs d a _ | .vbfeI32Vs d a _ | .vbfiB32Vs d a _ => [(d, 1), (a, 1)]
  | .vaddI64Vs d a _ | .vsubI64Vs d a _ | .vshlB64Vs d a _ | .vshrN64Vs d a _ | .vshrI64Vs d a _ =>
      [(d, 2), (a, 2)]
  | .vbcastB32 d _ => [(d, 1)]
  | .vcmp _ a b _ ty => [(a, ty.regs), (b, ty.regs)]
  | .vfromp d _ => [(d, 1)]
  | .vtop _ a => [(a, 1)]
  | .shflIdx d a _ _ | .shflUp d a _ _ | .shflDown d a _ _ | .shflXor d a _ _ => [(d, 1), (a, 2)]
  | .vscanIncl d a _ _ | .vscanExcl d a _ _ => [(d, 1), (a, 1)]
  | .vred _ a _ => [(a, 1)]
  | .vfabsF64 d a | .vfnegF64 d a | .vfrintF64 d a | .vfsqrtF64 d a | .vfrcpF64 d a | .vfrsqF64 d a =>
      [(d, 2), (a, 2)]
  | .vfcmp _ a b _ ty => [(a, ty.regs), (b, ty.regs)]
  | .cvts d a dst src rnd | .cvti d a dst src rnd => [(d, dst.regs), (a, src.regs + rnd.regs)]
  | .pack4 d a | .pack6 d a => [(d, 1), (a, 4)]
  | .unpack4 d a _ | .unpack6 d a _ => [(d, 4), (a, 1)]
  | .pack8 d a => [(d, 1), (a, 8)]
  | .unpack8 d a _ => [(d, 8), (a, 1)]
  | .bscale d a _ | .compress d a _ => [(d, 1), (a, 1)]
  | .ldg x o _ w form | .lds x o _ w form | .ldc x o _ w form => [(x, w.regs), (o, form.regs)]
  | .stg x o _ w form | .sts x o _ w form | .stc x o _ w form => [(x, w.regs), (o, form.regs)]
  | .lda x o _ wide _ | .stl x o _ wide _ => [(x, if wide then 2 else 1), (o, 1)]
  | .atom x o _ fn | .atoma x o _ fn | .atoms x o _ fn | .red x o _ fn => [(x, fn.regs), (o, 1)]
  | .ljoin x o _ _ ty => [(x, if ty.wide then 2 else 1), (o, 1)]
  | .lld x o _ w | .lldAcq x o _ w | .lldge x o _ w => [(x, w.regs), (o, 1)]
  | .ltry x o _ _ => [(x, 2), (o, 1)]
  | .lsta x o _ ty => [(x, if ty.wide then 2 else 1), (o, 1)]
  | .linc o _ => [(o, 1)]
  | .mma r _ _ | .mmas r _ _ => [(r, 3)]
  | .regroup _ _ first _ => [(first, 1)]
  | .accrdSat d o fmt _ | .accrdInf d o fmt _ => [(d, fmt.regs), (o, 3)]
  | .accwr x o form => [(x, form.regs), (o, 1)]
  | .srd d special => if 0x100 ≤ special.toNat then [(d.setWidth 7, 1)] else []
  | _ => []

/-- The registers an instruction writes, explicitly or not (R69). -/
def Instr.dests : Instr → List Reg
  | .add d _ _ | .sub d _ _ | .and d _ _ | .or d _ _ | .xor d _ _ | .shl d _ _ | .shrN d _ _ | .shrI d _ _
  | .minI d _ _ | .maxI d _ _ | .minN d _ _ | .maxN d _ _ | .mul d _ _ | .mulhI d _ _ | .mulhN d _ _
  | .cmpEq d _ _ | .cmpNe d _ _ | .cmpLtI d _ _ | .cmpLtN d _ _ => regD d
  | .add64 d _ _ | .sub64 d _ _ | .shl64 d _ _ | .shr64N d _ _ => regsS d 2
  | .movi d _ => regD d
  | .movh d _ | .addi d _ | .andi d _ | .ori d _ | .xori d _ | .cmpiEq d _ | .cmpiLtI d _ => regsS d 1
  | .sld32 d _ _ | .sldK d _ _ => regsS d 1
  | .sld64 d _ _ => regsS d 2
  | .srd d special =>
      if 0x100 ≤ special.toNat then regsV (d.setWidth 7) 1 else regsS d (if special.toNat = 6 then 2 else 1)
  | .swr _ special => [.special special.toNat]
  | .bdiv _ _ => regsMask
  | .call _ => regsS 59 1
  | .mfromp d | .detach d => regP d
  | .mtop _ => regsMask
  | .regroup d _ first more => regsV first (more.toNat + 1) ++ regP d ++ regsMask
  | .launch d _ _ => regsS d 1
  | .hops d _ _ => regsS d 1
  | .barArrive _ d => regsS d 1
  | .barTry _ _ d => regP d
  | .vaddI32 d _ _ | .vsubI32 d _ _ | .vmulI32 d _ _ | .vmulhI32 d _ _ | .vmulhN32 d _ _ | .vminI32 d _ _
  | .vmaxI32 d _ _ | .vminN32 d _ _ | .vmaxN32 d _ _ | .vandB32 d _ _ | .vorB32 d _ _ | .vxorB32 d _ _
  | .vshlB32 d _ _ | .vshrN32 d _ _ | .vshrI32 d _ _ | .vabsdI32 d _ _ | .vaddsI32 d _ _ | .vsubsI32 d _ _
  | .vaddsN32 d _ _ | .vsubsN32 d _ _ | .vbfeN32 d _ _ | .vbfeI32 d _ _ | .vbfiB32 d _ _ | .vfaddF32 d _ _
  | .vfsubF32 d _ _ | .vfmulF32 d _ _ | .vffmaF32 d _ _ | .vffnmaF32 d _ _ | .vfminF32 d _ _ | .vfmaxF32 d _ _
  | .vfcopysignF32 d _ _ | .vfdivF32 d _ _ | .vfaddBf16 d _ _ | .vfsubBf16 d _ _ | .vfmulBf16 d _ _
  | .vffmaBf16 d _ _ | .vffnmaBf16 d _ _ | .vfminBf16 d _ _ | .vfmaxBf16 d _ _ | .scapplyMul d _ _
  | .scapplyDiv d _ _ => regsV d 1
  | .vpopcB32 d _ | .vclzB32 d _ | .vbrevB32 d _ | .vfabsF32 d _ | .vfnegF32 d _ | .vfrintF32 d _
  | .vfsqrtF32 d _ | .vfrcpF32 d _ | .vfrsqF32 d _ | .vfexp2F32 d _ | .vflog2F32 d _ | .vfsinF32 d _
  | .vfcosF32 d _ | .vftanhF32 d _ | .vfabsBf16 d _ | .vfnegBf16 d _ | .pack4 d _ | .pack6 d _ | .pack8 d _ =>
      regsV d 1
  | .vaddI64 d _ _ | .vsubI64 d _ _ | .vshlB64 d _ _ | .vshrN64 d _ _ | .vshrI64 d _ _ | .vfaddF64 d _ _
  | .vfsubF64 d _ _ | .vfmulF64 d _ _ | .vffmaF64 d _ _ | .vffnmaF64 d _ _ | .vfminF64 d _ _ | .vfmaxF64 d _ _
  | .vfcopysignF64 d _ _ | .vfdivF64 d _ _ => regsV d 2
  | .vaddI32Vi d _ _ | .vandB32Vi d _ _ => regsV d 1
  | .vshlB32Vi d _ _ | .vshrN32Vi d _ _ => regsV d 1
  | .vaddI32Vs d _ _ | .vsubI32Vs d _ _ | .vmulI32Vs d _ _ | .vmulhI32Vs d _ _ | .vmulhN32Vs d _ _
  | .vminI32Vs d _ _ | .vmaxI32Vs d _ _ | .vminN32Vs d _ _ | .vmaxN32Vs d _ _ | .vandB32Vs d _ _
  | .vorB32Vs d _ _ | .vxorB32Vs d _ _ | .vshlB32Vs d _ _ | .vshrN32Vs d _ _ | .vshrI32Vs d _ _
  | .vabsdI32Vs d _ _ | .vaddsI32Vs d _ _ | .vsubsI32Vs d _ _ | .vaddsN32Vs d _ _ | .vsubsN32Vs d _ _
  | .vbfeN32Vs d _ _ | .vbfeI32Vs d _ _ | .vbfiB32Vs d _ _ => regsV d 1
  | .vaddI64Vs d _ _ | .vsubI64Vs d _ _ | .vshlB64Vs d _ _ | .vshrN64Vs d _ _ | .vshrI64Vs d _ _ => regsV d 2
  | .vbcastB32 d _ => regsV d 1
  | .vcmp d _ _ _ _ => regP d
  | .pand d _ _ | .por d _ _ | .pxor d _ _ => regP d
  | .pnot d _ | .pmov d _ => regP d
  | .vfromp d _ => regsV d 1
  | .vtop d _ => regP d
  | .shflIdx d _ p _ | .shflUp d _ p _ | .shflDown d _ p _ | .shflXor d _ p _ => regsV d 1 ++ regP p
  | .voteAny d _ | .voteAll d _ => regsS d 1
  | .ballot d _ => regsS d 3
  | .vscanIncl d _ _ _ | .vscanExcl d _ _ _ => regsV d 1
  | .vred d _ _ => regsS d 1
  | .vfabsF64 d _ | .vfnegF64 d _ | .vfrintF64 d _ | .vfsqrtF64 d _ | .vfrcpF64 d _ | .vfrsqF64 d _ => regsV d 2
  | .vfcmp d _ _ _ _ => regP d
  | .cvts d _ dst _ _ | .cvti d _ dst _ _ => regsV d dst.regs
  | .unpack4 d _ _ | .unpack6 d _ _ => regsV d 4
  | .unpack8 d _ _ => regsV d 8
  | .bscale d _ _ | .compress d _ _ => regsV d 1
  | .tidsetImm _ => [.special 11]
  | .tidsetReg _ => [.special 11]
  | .ldg x _ _ w _ | .lds x _ _ w _ | .ldc x _ _ w _ => regsV x w.regs
  | .lda x _ _ wide _ => regsV x (if wide then 2 else 1)
  | .atom x _ _ fn | .atoma x _ _ fn | .atoms x _ _ fn => regsV x (if fn.wide then 2 else 1)
  | .tagl d _ p => regsS d 1 ++ regP p
  | .lld x _ _ w | .lldAcq x _ _ w | .lldge x _ _ w => regsV x w.regs
  | .ltry x _ _ p => regsV x 2 ++ regP p
  | .tryw _ _ p _ => regP p
  | .bmtest _ _ p => regP p
  | .rpop d _ _ => regsS d 1
  | .rfree d _ _ => regsS d 1
  | .rstat d _ => regsS d 1
  | .accalloc p d _ => regsS d 1 ++ regP p
  | .accrdSat d _ fmt _ | .accrdInf d _ fmt _ => regsV d fmt.regs
  | .wpin p _ _ _ => regP p
  | .segrd _ r => regsS r 4
  | .csrr d _ => regsS d 2
  | _ => []

/-- The channels an instruction names in operands with K = 1 (R78). -/
def Instr.chans : Instr → List Nat
  | .add d a b | .sub d a b | .and d a b | .or d a b | .xor d a b | .shl d a b | .shrN d a b | .shrI d a b
  | .minI d a b | .maxI d a b | .minN d a b | .maxN d a b | .mul d a b | .mulhI d a b | .mulhN d a b
  | .cmpEq d a b | .cmpNe d a b | .cmpLtI d a b | .cmpLtN d a b => dstChan d ++ srcChan a ++ srcChan b
  | .movi d _ => dstChan d
  | .rpush c a => c.toNat :: srcChan a
  | .rpop _ c _ | .rfree _ c _ | .rstat _ c => [c.toNat]
  | .tcopy _ _ _ c | .copy _ _ _ _ c => if c.toNat = 63 then [] else [c.toNat]
  | _ => []

/-- The channels an instruction pushes to by itself (R69). -/
def Instr.pushes : Instr → List Nat
  | .add d _ _ | .sub d _ _ | .and d _ _ | .or d _ _ | .xor d _ _ | .shl d _ _ | .shrN d _ _ | .shrI d _ _
  | .minI d _ _ | .maxI d _ _ | .minN d _ _ | .maxN d _ _ | .mul d _ _ | .mulhI d _ _ | .mulhN d _ _
  | .cmpEq d _ _ | .cmpNe d _ _ | .cmpLtI d _ _ | .cmpLtN d _ _ => dstChan d
  | .movi d _ => dstChan d
  | .rpush c _ => [c.toNat]
  | _ => []

/-- The channels an instruction pops (R69). -/
def Instr.pops : Instr → List Nat
  | .add _ a b | .sub _ a b | .and _ a b | .or _ a b | .xor _ a b | .shl _ a b | .shrN _ a b | .shrI _ a b
  | .minI _ a b | .maxI _ a b | .minN _ a b | .maxN _ a b | .mul _ a b | .mulhI _ a b | .mulhN _ a b
  | .cmpEq _ a b | .cmpNe _ a b | .cmpLtI _ a b | .cmpLtN _ a b => srcPop a ++ srcPop b
  | .rpush _ a => srcPop a
  | .rpop _ c pop => if pop then [c.toNat] else []
  | _ => []

/-- The counter an instruction counts in (R80, R333). -/
def Instr.counted : Instr → Option Counter
  | .sld32 _ _ _ | .sld64 _ _ _ | .sldK _ _ _ | .ldg _ _ _ _ _ | .lds _ _ _ _ _ | .ldc _ _ _ _ _
  | .lda _ _ _ _ _ | .atom _ _ _ _ | .atoma _ _ _ _ | .atoms _ _ _ _ | .lld _ _ _ _ | .lldAcq _ _ _ _
  | .lldge _ _ _ _ | .ltry _ _ _ _ => some .ld
  | .sst _ _ _ | .stg _ _ _ _ _ | .sts _ _ _ _ _ | .stc _ _ _ _ _ | .stl _ _ _ _ _ | .red _ _ _ _
  | .ljoin _ _ _ _ _ | .lsta _ _ _ _ | .linc _ _ => some .st
  | .tcopy _ _ _ _ | .copy _ _ _ _ _ | .persist => some .cp
  | .mma _ _ _ | .mmas _ _ _ | .accz _ _ | .accrdSat _ _ _ _ | .accrdInf _ _ _ _ | .accwr _ _ _ | .wpin _ _ _ _
  | .wunpin _ _ _ | .opfence => some .tm
  | _ => none

/-- The target of a branch in packet `pc`, before it is checked (R79). -/
def Instr.target (pc : Nat) : Instr → Option Int
  | .bra off | .bz _ off | .bnz _ off | .bany _ off | .ball _ off | .bnone _ off | .bdiv _ off => some (pc + off.toInt)
  | _ => none

/-- A control transfer, which R70 binds to the last issue group of its packet, RFT among them (R355). -/
def Instr.control : Instr → Bool
  | .bra _ | .bz _ _ | .bnz _ _ | .bany _ _ | .ball _ _ | .bnone _ _ | .bdiv _ _ | .call _ | .ret | .jmpr _
  | .yield | .exit | .trap _ | .brk | .rft | .rftKill => true
  | _ => false

/-- A word that never advances to the next packet (R63). -/
def Instr.leaves : Instr → Bool
  | .bra _ | .call _ | .ret | .jmpr _ | .exit | .trap _ | .brk | .rft | .rftKill => true
  | _ => false

/-- A word of the SYS major (R81). -/
def Instr.isSys : Instr → Bool
  | .rft | .rftKill | .segld _ _ | .segrd _ _ | .csrr _ _ | .csrw _ _ | .tlbinv _ _ | .tlbinvAll | .idle _ => true
  | _ => false

/-- Scalar registers and predicates from which a word computes a register (R253): those of the words that `quiet` lists. -/
def Instr.scalarReads : Instr → List Reg
  | .add _ a b | .sub _ a b | .and _ a b | .or _ a b | .xor _ a b | .shl _ a b | .shrN _ a b | .shrI _ a b
  | .minI _ a b | .maxI _ a b | .minN _ a b | .maxN _ a b | .mul _ a b | .mulhI _ a b | .mulhN _ a b
  | .cmpEq _ a b | .cmpNe _ a b | .cmpLtI _ a b | .cmpLtN _ a b => regE a ++ regE b
  | .add64 _ a b | .sub64 _ a b => regsS a 2 ++ regsS b 2
  | .shl64 _ a b | .shr64N _ a b => regsS a 2 ++ regsS b 1
  | .movh d _ | .addi d _ | .andi d _ | .ori d _ | .xori d _ | .cmpiEq d _ | .cmpiLtI d _ => regsS d 1
  | .swr a _ | .tidsetReg a => regsS a 1
  | .bdiv p _ | .mtop p | .vfromp _ p | .pnot _ p | .pmov _ p | .voteAny _ p | .voteAll _ p | .ballot _ p => regP p
  | .pand _ a b | .por _ a b | .pxor _ a b => regP a ++ regP b
  | .mfromp _ => regsMask
  | .vaddI32Vs _ _ s | .vsubI32Vs _ _ s | .vmulI32Vs _ _ s | .vmulhI32Vs _ _ s | .vmulhN32Vs _ _ s
  | .vminI32Vs _ _ s | .vmaxI32Vs _ _ s | .vminN32Vs _ _ s | .vmaxN32Vs _ _ s | .vandB32Vs _ _ s
  | .vorB32Vs _ _ s | .vxorB32Vs _ _ s | .vshlB32Vs _ _ s | .vshrN32Vs _ _ s | .vshrI32Vs _ _ s
  | .vabsdI32Vs _ _ s | .vaddsI32Vs _ _ s | .vsubsI32Vs _ _ s | .vaddsN32Vs _ _ s | .vsubsN32Vs _ _ s
  | .vbfeN32Vs _ _ s | .vbfeI32Vs _ _ s | .vbfiB32Vs _ _ s | .vshlB64Vs _ _ s | .vshrN64Vs _ _ s
  | .vshrI64Vs _ _ s | .vbcastB32 _ s => regsS s 1
  | .vaddI64Vs _ _ s | .vsubI64Vs _ _ s => regsS s 2
  | _ => []

/-- Registers from which a load has its address; none for other words. -/
def Instr.addressReads : Instr → List Reg
  | .ldg _ o base _ form | .lds _ o base _ form | .ldc _ o base _ form => regsV o form.regs ++ regsS base 2
  | .lld _ o base _ => regsV o 1 ++ regsS base 2
  | .sld32 _ base _ | .sld64 _ base _ | .sldK _ base _ => regsS base 2
  | _ => []

/-- Words that a relaxed load after them need not follow (R253): loads and stores that are relaxed, words that compute registers, branches,
and a WAIT that counts no engine's operation off. Of the others some are acquires, fences or copies. -/
def Instr.quiet (i : Instr) : Bool :=
  (i.chans.isEmpty && (i.pipe == .s || i.pipe == .v || i.pipe == .x) && match i with
    | .wait _ _ cp tm => cp = 63 && tm = 63
    | .exit | .trap _ | .brk | .rft | .rftKill => false
    | i => !i.isSys) ||
  match i with
  | .sld32 _ _ _ | .sld64 _ _ _ | .sldK _ _ _ | .sst _ _ _ | .ldg _ _ _ _ _ | .stg _ _ _ _ _ | .lds _ _ _ _ _
  | .sts _ _ _ _ _ | .ldc _ _ _ _ _ | .stc _ _ _ _ _ | .lld _ _ _ _ | .nop => true
  | _ => false

/-- What a group that has detached may still issue: S-class words, WAIT and CTRL words, all of class S (R132), and NOP. -/
def Pipe.plain (p : Pipe) : Bool :=
  match p with
  | .s | .none => true
  | _ => false

/-- The number of vector registers a group needs for the registers an instruction names (R147). -/
def Instr.vneed (i : Instr) : Nat := i.vspans.foldl (fun n e => max n (e.1.toNat + e.2)) 0

/-- The words of one class that a chain admits (R68). -/
def Pipe.limit : Pipe → Nat
  | .none => 3
  | .v => 2
  | _ => 1

/-- What the checks of a word ask about it: its class, registers, channels and counter (R68, R69, R78, R83), its target (R79),
whether it transfers control (R63, R70), is a SYS word (R81), the vector registers it needs (R147), its own cause (R87), and
whether it is ATTACH, or may come before one (R132). -/
structure Facts where
  pipe : Pipe
  dests : List Reg
  chans : List Nat
  pushes : List Nat
  pops : List Nat
  counted : Option Counter
  target : Nat → Option Int
  control : Bool
  leaves : Bool
  isSys : Bool
  vneed : Nat
  cause : Option Cause
  attaches : Bool
  early : Bool

def Instr.facts (i : Instr) : Facts :=
  { pipe := i.pipe, dests := i.dests, chans := i.chans, pushes := i.pushes, pops := i.pops, counted := i.counted,
    target := fun pc => i.target pc, control := i.control, leaves := i.leaves, isSys := i.isSys, vneed := i.vneed,
    cause := staticCause i, attaches := i == .attach, early := i == .attach || i == .nop }

def SysWord.dests : SysWord → List Reg
  | .segrd _ r => regsS r 4
  | .csrr d _ => regsS d 2
  | _ => []

def SysWord.facts (w : SysWord) : Facts :=
  { pipe := .s, dests := w.dests, chans := [], pushes := [], pops := [], counted := none, target := fun _ => none,
    control := false, leaves := false, isSys := true, vneed := 0, cause := w.cause, attaches := false, early := false }

def Reading.facts : Reading → Facts
  | .plain i => i.facts
  | .sys w => w.facts

end Sys2Proof
end

