-- ==== Sys2Proof/Machine/Operands.lean ====
section
/-!
DEFINITION. Operand forms: the scalar-or-channel operands of format S3 (R77, R78), with the relay operations behind them
(R309 to R313), the lane offsets of format M (R215), and lane arithmetic shared by the vector majors (R151 to R154); the words of an
issue group (R66).
-/

namespace Sys2Proof

/-! ## Operands of format S3 (R77, R78) -/

/-- The channel an operand takes from. -/
def SSrc.chan : SSrc → Option Nat
  | .reg _ => none
  | .peek c | .pop c => some c.toNat

/-- The channel an operand pops. -/
def SSrc.popped : SSrc → Option Nat
  | .pop c => some c.toNat
  | _ => none

end Sys2Proof

namespace Sys2Proof.Machine

/-! ## The words of an issue group (R66) -/

/-- The three words of a packet. -/
def Packet.words (p : Packet) : List Word := [p.w0, p.w1, p.w2]

def Packet.word (p : Packet) (n : Nat) : Word := p.words.getD n 0

/-- What a word of a packet reads as; none where it is no instruction. -/
def Packet.reading (p : Packet) (n : Nat) : Option Reading :=
  match decodeReading (p.word n) with
  | .ok r => some r
  | .error _ => none

/-- The first word of the issue group that word `n` stands in (R66). -/
def Packet.chainStart (p : Packet) (n : Nat) : Nat :=
  if n = 0 then 0
  else if !chainBit (p.word (n - 1)) then n
  else if n = 1 then 0
  else if chainBit p.w0 then 0 else 1

/-- The last word of the issue group that word `n` stands in (R66). -/
def Packet.chainEnd (p : Packet) (n : Nat) : Nat :=
  if 2 ≤ n || !chainBit (p.word n) then n
  else if n = 1 then 2
  else if chainBit p.w1 then 2 else 1

/-- Every word of the issue group that word `n` stands in, as it reads (R66). -/
def Packet.issueGroup (p : Packet) (n : Nat) : List Reading :=
  ((List.range (p.chainEnd n + 1)).drop (p.chainStart n)).filterMap p.reading

/-! ## Relays (R309 to R313) -/

/-- The clock since which a relay is at least half full, or empty, kept up after a change (R129, R130). -/
def Relay.marked (r : Relay) (now : Nat) : Relay :=
  { r with
    fullSince := if (r.desc.cap + 1) / 2 ≤ r.filled then some (r.fullSince.getD now) else none
    emptySince := if r.filled = 0 then some (r.emptySince.getD now) else none }

/-- The relay after a pop (R310). -/
def Relay.popped (r : Relay) : Relay :=
  { r with head := (r.head + 1) % r.desc.cap, filled := r.filled - 1,
           held := if r.desc.autofree then r.held else r.held + 1,
           spoiled := r.spoiled.filter (· ≠ r.head) }

/-- The relay after a push (R310). -/
def Relay.pushed (r : Relay) : Relay :=
  { r with filled := r.filled + 1, spoiled := r.spoiled.filter (· ≠ (r.head + r.filled) % r.desc.cap) }

namespace State

/-- The relay a channel is bound to, as the words of the issue group see it (R67, R78). -/
def vrelay (s : State) (c : Nat) : Relay := s.vblock.relays.get c Relay.unbound

/-- The relay as it stands now. -/
def relayNow (s : State) (c : Nat) : Relay := s.block.relays.get c (s.vrelay c)

/-- The issuing group's stage may push to (`push`) or take from a relay (R309, R310). -/
def relayOpen (s : State) (c : Nat) (push : Bool) : Bool :=
  let r := s.vrelay c
  !r.desc.strict || s.vgroup.stage.toNat == (if push then r.desc.prod else r.desc.cons)

/-- Offset in the core's scratchpad of ring entry `i` of a relay of a block (R310). -/
def ringOffset (b : Block) (r : Relay) (i : Nat) : Nat := b.slot0 * slotBytes + r.desc.ring + 4 * (i % r.desc.cap)

/-- A store of the issuing group to a ring entry of its block is still to be performed: it comes before a pop of that entry (R253,
R310). -/
def ownStore (s : State) (off : Nat) : Bool :=
  s.gsys.st.any fun p => !p.finished && p.act.writes && p.accesses.any fun a => a.place.meets a.n (.spad s.block.core off) 4

/-- The baton at the head of a relay; an entry that a store has overwritten holds an undefined value (R310). -/
def headBaton (s : State) (c : Nat) : Word :=
  let r := s.vrelay c
  if r.spoiled.contains r.head || s.ownStore (ringOffset s.block r r.head) then Config.undefined s.tick (2 ^ 23 + c)
  else BitVec.ofNat 32 (s.spad.read (padKey s.block.core (ringOffset s.block r r.head)) 4)

/-- Splits of a block, but for one, that began to wait for a relay before `since`, or with it in a group slot below `bound`;
splits that cannot issue at all stand aside (R312). -/
def splitsWaiting (s : State) (id c : Nat) (push : Bool) (since bound : Nat) (me : Option (Nat × Nat)) : Bool :=
  s.groups.any fun e =>
    e.2.block == id && e.2.phase == .attached && (s.sysAt e.1).stop == none &&
    e.2.splits.any fun x =>
      me != some (e.1, x.1) && !x.2.frozen && x.2.missing.isEmpty &&
      match x.2.hold with
      | some h => h.chans.contains (c, push) && (h.since < since || (h.since == since && e.1 < bound))
      | none => false

/-- Copies of a block whose push to a relay began to wait before `since` (R312). -/
def copiesWaiting (s : State) (id c since : Nat) : Bool :=
  (s.coreAt (s.blockAt id).core).copies.any fun r =>
    r.block == id && r.ch.toNat == c && match r.pushSince with
      | some t => t < since
      | none => false

/-- Somebody waits for the relay before the issuing split (R312). -/
def earlierWaiter (s : State) (c : Nat) (push : Bool) (since : Nat) : Bool :=
  s.splitsWaiting s.group.block c push since s.gkey (some (s.gkey, s.cur.split)) ||
  (push && s.copiesWaiting s.group.block c since)

/-- When the issuing split began to wait. -/
def waitingSince (s : State) : Nat := s.holdOf.since

/-- A pop or peek can take a baton now (R310, R312). -/
def hasBaton (s : State) (c : Nat) : Bool :=
  1 ≤ (s.vrelay c).filled && !s.earlierWaiter c false s.waitingSince

/-- A pop or peek that has blocked proceeds with the shrink baton (R311). -/
def shrinkDue (s : State) (c : Nat) : Bool :=
  (s.vrelay c).filled == 0 && s.vgroup.shrink && s.vsplit.hold != none

/-- A copy has pushed to a relay on the clock at hand: a group's push, which comes before a copy's on one clock, comes on a later
one (R312). -/
def copyPushed (s : State) (c : Nat) : Bool :=
  match (s.vrelay c).copyAt with
  | some e => e.1 == s.now
  | none => false

/-- What the RFREE words of the issue group at hand return to a relay: frees come before the pushes of their clock (R312). -/
def chainFreed (s : State) (c : Nat) : Nat :=
  match s.vsplit.packet with
  | none => 0
  | some p =>
      min (s.vrelay c).held (((p.issueGroup s.vsplit.word).map fun i => match i with
        | .plain (.rfree _ ch n) => if ch.toNat = c then (s.readS n).toNat else 0
        | _ => 0).foldl (· + ·) 0)

/-- A push finds allowance, counting what a free of its issue group and a pop of the same word return (R78, R310, R312). A pop by
another word of its chain is not counted (DESIGN CHOICE, entry 39). -/
def hasRoom (s : State) (c : Nat) (popped : Bool) : Bool :=
  let r := s.vrelay c
  1 ≤ r.allow + s.chainFreed c + (if popped && r.desc.autofree then 1 else 0) && !s.copyPushed c && !s.earlierWaiter c true s.waitingSince

/-- A relay of the issuing group's block replaced; the block has changed (R363). -/
def setRelay (s : State) (c : Nat) (r : Relay) : State :=
  s.setBlock { s.block with relays := s.block.relays.set c r, changes := s.block.changes + 1 }

/-- A pop's effect on its relay. -/
def popRelay (s : State) (c : Nat) : State := s.setRelay c (Relay.marked (s.relayNow c).popped s.now)

/-- A relay of a block. -/
def relayOf (s : State) (id c : Nat) : Relay := (s.blockAt id).relays.get c Relay.unbound

/-- A baton enters the ring of a relay of a block (R310). -/
def pushBaton (s : State) (id c : Nat) (x : Word) : State :=
  let b := s.blockAt id
  let r := s.relayOf id c
  let s := s.padWrite b.core (ringOffset b r (r.head + r.filled)) (toBytes 4 x.toNat) true s.nextId
  let b := s.blockAt id
  s.setBlockAt id { b with relays := b.relays.set c (Relay.marked r.pushed s.now), changes := b.changes + 1 }

/-- A group's push (R310, R313). -/
def pushRelay (s : State) (c : Nat) (x : Word) : State := s.pushBaton s.group.block c x

/-- The stage may use the operand's relay (R310). -/
def srcOpen (s : State) (x : SSrc) : Bool :=
  match x.chan with
  | some c => s.relayOpen c false
  | none => true

/-- The operand can be read now (R72, R311). -/
def srcReady (s : State) (x : SSrc) : Bool :=
  match x.chan with
  | some c => s.hasBaton c || s.shrinkDue c
  | none => true

/-- The operand's value (R97). -/
def srcValue (s : State) (x : SSrc) : Word :=
  match x with
  | .reg r => s.readS r
  | .peek c | .pop c => if s.shrinkDue c.toNat then 0xFFFFFFFF else s.headBaton c.toNat

/-- What reading the operand does: a pop takes the baton, the shrink baton leaves the relay as it is (R310, R311). -/
def srcTake (s : State) (x : SSrc) : State :=
  match x with
  | .pop c => if s.shrinkDue c.toNat then s else s.popRelay c.toNat
  | _ => s

def dstOpen (s : State) (d : SDst) : Bool :=
  match d with
  | .chan c => s.relayOpen c.toNat true
  | .reg _ => true

/-- The result can be delivered now (R72): `popped` are the channels the word pops. -/
def dstReady (s : State) (d : SDst) (popped : List (Option Nat)) : Bool :=
  match d with
  | .chan c => s.hasRoom c.toNat (popped.contains (some c.toNat))
  | .reg _ => true

/-- The channels on which a word with sources that it cannot read now waits (R312). -/
def emptyChans (s : State) (srcs : List SSrc) : List (Nat × Bool) :=
  (srcs.filter fun x => !s.srcReady x).filterMap fun x => x.chan.map fun c => (c, false)

/-- A word that waits for relays, those of `chans` (pop false, push true), is held (R72). A REGROUP of its issue group has not been
reached then (R135). -/
def heldFor (s : State) (chans : List (Nat × Bool)) : State :=
  s.held { s.holdOf with chans, regroup := s.holdOf.regroup.filter (2 ^ 32 ≤ ·.1) }

/-- The result of a scalar word: into a register, or pushed (R97, R310). -/
def deliverTo (s : State) (d : SDst) (x : Word) : State :=
  match d with
  | .reg r => (s.writeS r x).done
  | .chan c => (s.pushRelay c.toNat x).done

/-- A word of sources `srcs` and destination `d` whose result is `f` of their values: permission of its stage, then, for a push, the
group's earlier accesses (R313), then its pops, then its push (R72, R97, R310). The baton 0xFFFF_FFFF is not pushed. -/
def scalarWord (s : State) (d : SDst) (srcs : List SSrc) (f : List Word → Word) : State :=
  if !(srcs.all s.srcOpen && s.dstOpen d) then s.fault .permission 0 none
  else if !srcs.all s.srcReady then s.heldFor (s.emptyChans srcs)
  else
    let x := f (srcs.map s.srcValue)
    match d with
    | .chan c =>
        if x = 0xFFFFFFFF then s.fault .permission 0 none
        else if !s.dstReady d (srcs.map SSrc.popped) then s.heldFor [(c.toNat, true)]
        else s.afterRelease fun s => (srcs.foldl srcTake s).deliverTo d x
    | .reg _ => (srcs.foldl srcTake s).deliverTo d x

/-- A word of two sources (R97). -/
def scalar2 (s : State) (d : SDst) (a b : SSrc) (f : Word → Word → Word) : State :=
  s.scalarWord d [a, b] fun l => f (l.getD 0 0) (l.getD 1 0)

end State

/-! ## Scalar operations (R97, R98) -/

/-- A truth value as a register holds it. -/
def boolWord (b : Bool) : Word := if b then 1 else 0

/-- The shift count c = Bits(b, 5, 0) of R97. -/
def count6 (b : Word) : Nat := (b.extractLsb' 0 6).toNat

/-- The count of a 64-bit shift: bits 6:0 (R98, R152). -/
def count7 (b : Word) : Nat := (b.extractLsb' 0 7).toNat

/-- The high half of a signed product. -/
def mulhI (a b : Word) : Word := ((a.signExtend 64) * (b.signExtend 64)).extractLsb' 32 32

/-- The high half of an unsigned product. -/
def mulhN (a b : Word) : Word := ((a.setWidth 64) * (b.setWidth 64)).extractLsb' 32 32

def minI (a b : Word) : Word := if a.slt b then a else b
def maxI (a b : Word) : Word := if a.slt b then b else a
def minN (a b : Word) : Word := if a < b then a else b
def maxN (a b : Word) : Word := if a < b then b else a

/-! ## Lane offsets and addresses (R215, R216) -/

namespace State

/-- The offset of a lane under an address form (R215). -/
def laneOffset (s : State) (f : OffForm) (o : VReg) (l : Nat) : Int :=
  match f with
  | .zx | .prv => (s.readV o l).toNat
  | .sx => (s.readV o l).toInt
  | .x64 => (s.readVPair o l).toNat

/-- ea of a lane: the base pair read as unsigned plus the offset, exact (R216). -/
def laneAddress (s : State) (base : SReg) (f : OffForm) (o : VReg) (l : Nat) : Int :=
  (s.readPair base).toNat + s.laneOffset f o l

end State

end Sys2Proof.Machine
end

