-- ==== Sys2Proof/Machine/Issue.lean ====
section
/-!
DEFINITION. What stops a word before it has any effect: the illegal-instruction conditions a word meets by itself (R87), the
uses that R132 forbids, and a full counter (R83). Every instruction word's meaning is `issue` of its effect.
-/

namespace Sys2Proof.Machine

/-- The lower of two causes (R87). -/
def lowerCause : Option Cause → Option Cause → Option Cause
  | some a, some b => some (if a.code ≤ b.code then a else b)
  | some a, none => some a
  | none, b => b

/-- Vector registers of a group: 16 × (VREGS + 1) of its stage (R118, R147). -/
def vectorWindow (b : Block) (g : Group) : Nat := 16 * ((b.header.stages.getD g.stage.toNat Stage.none).vregs + 1)

namespace State

/-- A word names a vector register beyond the group's window (R147). -/
def beyondWindow (s : State) (f : Facts) : Bool := vectorWindow s.vblock s.vgroup < f.vneed

/-- A word names a channel that no relay is bound to (R78). -/
def unbound (s : State) (f : Facts) : Bool := f.chans.any fun c => s.vblock.header.relays ≤ c

/-- A branch whose target lies outside the program counter's range (R79). -/
def farTarget (s : State) (f : Facts) : Bool :=
  match f.target s.vsplit.pc.toNat with
  | some t => t < 0 || 2 ^ 20 ≤ t
  | none => false

/-- The illegal-instruction cause of a word by itself: 0x0A for a SYS word at U, else the lowest it meets (R81, R87). -/
def causeOf (s : State) (f : Facts) : Option Cause :=
  if f.isSys && s.vgroup.level = .u then some .sysAtU
  else
    [(s.beyondWindow f, Cause.registerRange), (s.unbound f, .unboundChannel), (s.farTarget f, .branchTarget)].foldl
      (fun c e => if e.1 then lowerCause c (some e.2) else c) f.cause

/-- What R132 lets a group issue: a spawned group only ATTACH, a detached one only S-class words, WAIT and CTRL words, and no
ATTACH by a group that is attached. A group at S runs its handler. -/
def mayIssue (s : State) (f : Facts) : Bool :=
  match s.vgroup.phase with
  | .spawned => f.early || s.vgroup.level = .s
  | .detached => f.pipe.plain
  | _ => !f.attaches

/-- A counted word would raise its counter to 64 (R83): it waits until the counter has fallen to 62. -/
def counterFull (s : State) (f : Facts) : Bool :=
  match f.counted with
  | some c => 62 < (s.vsys.list c).length
  | none => false

/-- Another split of the group waits at a PUBLISH or a TLBINV: M and E words that follow do not issue (R247, R362). -/
def orderHeld (s : State) (f : Facts) : Bool :=
  (f.pipe == .m || f.pipe == .e) && s.vgroup.splits.any fun e =>
    e.1 != s.cur.split && ((e.2.hold.bind Hold.publish).isSome || e.2.drop.isSome)

/-- What a word becomes that does not come to its effect: an illegal-instruction fault, a permission fault, a stall. -/
def stopped (s : State) (f : Facts) : Option State :=
  match s.causeOf f with
  | some c => some (s.illegal c)
  | none =>
      if !s.mayIssue f then some (s.fault .permission 0 none)
      else if s.counterFull f || s.orderHeld f then some s.stalled
      else none

/-- The meaning of a word with the given facts and effect. -/
def issueWord (s : State) (f : Facts) (effect : State → State) : Result := .next ((s.stopped f).getD (effect s))

/-- The meaning of an instruction with the given effect. -/
def issue (s : State) (i : Instr) (effect : State → State) : Result := s.issueWord i.facts effect

/-- The meaning of one of the words of `SysWord` with the given effect. -/
def issueSys (s : State) (w : SysWord) (effect : State → State) : Result := s.issueWord w.facts effect

end State

end Sys2Proof.Machine
end

