-- ==== Sys2Proof/Machine/Membership.lean ====
section
/-!
DEFINITION. Membership of groups in their block: barriers (R139, R140), leaving a block (R134), the end of a group (R112), the
posting of a launch (R136).
-/

namespace Sys2Proof.Machine

/-! ## Barriers (R139) -/

def BarFlags.none : BarFlags := { member := false, counted := false, arrived := false, pending := false }

def GroupSys.bar (g : GroupSys) (k : Nat) : BarFlags := g.bars.get k BarFlags.none

def Block.barrier (b : Block) (k : Nat) : Barrier :=
  b.barriers.get k { members := 0, expected := 0, arrived := 0, phase := 0 }

/-- Number of barriers of a block: none where no stage names one (R117). -/
def Block.barrierCount (b : Block) : Nat :=
  if b.header.stages.any fun x => x.barmask != 0 then b.header.barriers + 1 else 0

/-- Stage descriptor of a group. -/
def Block.stageOf (b : Block) (g : Group) : Stage := b.header.stages.getD g.stage.toNat Stage.none

/-- The barriers that a stage's groups are members of (R118). -/
def Stage.bars (x : Stage) : List Nat := (List.range 16).filter fun k => x.barmask.getLsbD k

/-- Done(x) of R142: the phase with token `x` is complete. -/
def phaseDone (phase x : Word) : Bool := 1 ≤ (phase - x).toNat && (phase - x).toNat ≤ 2 ^ 31

namespace State

/-- Group slots of a block that hold a group which has not ended without trace. -/
def groupsIn (s : State) (id : Nat) : List Nat :=
  (s.groups.filter fun e => e.2.phase != .free && e.2.block == id).map Prod.fst

/-- Members of barrier `k` of a block. -/
def barMembers (s : State) (id k : Nat) : List Nat := (s.groupsIn id).filter fun gk => ((s.sysAt gk).bar k).member

def setBar (s : State) (gk k : Nat) (f : BarFlags) : State :=
  let g := s.sysAt gk
  s.setSysAt gk { g with bars := g.bars.set k f }

/-- A barrier of a block replaced; the block has changed (R363). -/
def setBarrier (s : State) (id k : Nat) (x : Barrier) : State :=
  let b := s.blockAt id
  s.setBlockAt id { b with barriers := b.barriers.set k x, changes := b.changes + 1 }

/-- Complete(k) of R139, where it is due. -/
def completePhase (s : State) (id k : Nat) : State :=
  let x := (s.blockAt id).barrier k
  if x.arrived = x.expected && 0 < x.arrived then
    let ms := s.barMembers id k
    let n := (ms.filter fun gk => ((s.sysAt gk).bar k).pending).length
    let s := ms.foldl (fun s gk =>
      s.setBar gk k { member := true, counted := true, arrived := ((s.sysAt gk).bar k).pending, pending := false }) s
    s.setBarrier id k { x with expected := x.members, arrived := n, phase := x.phase + 1 }
  else s

/-- The completion check that follows every change: a phase, and the next one if pending arrivals fill it (R139). -/
def checkBarrier (s : State) (id k : Nat) : State := (s.completePhase id k).completePhase id k

/-- MemberJoin(k) (R139). -/
def memberJoin (s : State) (gk k : Nat) : State :=
  let id := (s.groupAt gk).block
  let x := (s.blockAt id).barrier k
  let idle : Bool := x.arrived == 0
  let s := s.setBar gk k { member := true, counted := idle, arrived := false, pending := false }
  (s.setBarrier id k
    { x with members := x.members + 1, expected := x.expected + (if idle then 1 else 0) }).checkBarrier id k

/-- MemberLeave(k) (R139). -/
def memberLeave (s : State) (gk k : Nat) : State :=
  let id := (s.groupAt gk).block
  let x := (s.blockAt id).barrier k
  let f := (s.sysAt gk).bar k
  if f.member then
    let s := s.setBar gk k BarFlags.none
    (s.setBarrier id k
      { x with members := x.members - 1
               expected := x.expected - (if f.counted && !f.arrived then 1 else 0) }).checkBarrier id k
  else s

/-- Arrive(k) (R139). -/
def arrive (s : State) (gk k : Nat) : State :=
  let id := (s.groupAt gk).block
  let x := (s.blockAt id).barrier k
  let f := (s.sysAt gk).bar k
  if f.counted && !f.arrived then
    ((s.setBar gk k { f with arrived := true }).setBarrier id k { x with arrived := x.arrived + 1 }).checkBarrier id k
  else s.setBar gk k { f with pending := true }

/-- The phase in which an arrival of the group counts (R142). -/
def arrivalToken (s : State) (gk k : Nat) : Word :=
  let f := (s.sysAt gk).bar k
  ((s.blockAt (s.groupAt gk).block).barrier k).phase + (if f.counted && !f.arrived then 0 else 1)

/-! ## Leaving a block (R112, R134, R135) -/

/-- What a held REGROUP remembers in place of its partner once that partner has left, once the rendezvous has moved the donor's lanes,
and once it has moved none. -/
def partnerGone : Nat := 2 ^ 32
def partnerMet : Nat := 2 ^ 33
def partnerFailed : Nat := 2 ^ 34

/-- A REGROUP held for a member index that is given up completes false (R134). -/
def Split.partnerLeft (x : Split) (member : Nat) : Split :=
  match x.hold with
  | some h =>
      { x with hold := some { h with regroup := h.regroup.map fun r => if r.1 = member then (partnerGone, r.2) else r } }
  | none => x

/-- A slice of the group is posted to a collective copy that has not started (R134, R303). -/
def slicePosted (s : State) (gk : Nat) : Bool :=
  (s.blockAt (s.groupAt gk).block).gathers.any fun e => e.2.slices.any (·.1 == gk)

/-- MemberLeave for every barrier of the stage, and the member index freed (R134). -/
def leaveBlock (s : State) (gk : Nat) : State :=
  let g := s.groupAt gk
  let s := ((s.blockAt g.block).stageOf g).bars.foldl (fun s k => s.memberLeave gk k) s
  (s.groupsIn g.block).foldl (fun s k =>
    let h := s.groupAt k
    s.setGroupAt k { h with splits := h.splits.mapVal fun _ x => Split.partnerLeft x g.member }) s

/-- The groups of a block that hold a member index. -/
def holdsMember (g : Group) : Bool := g.phase == .attached || g.phase == .leaving

/-- The lowest member index not held in a block (R133). -/
def freeMember (s : State) (id : Nat) : Nat :=
  let held := ((s.groupsIn id).filter fun k => holdsMember (s.groupAt k)).map fun k => (s.groupAt k).member
  ((List.range (held.length + 1)).find? fun m => !held.contains m).getD held.length

/-- Groups that have ended leave their block once no slice of theirs waits (R134). -/
def leaveEnded (s : State) (id : Nat) : State :=
  (s.groupsIn id).foldl (fun s k =>
    if (s.groupAt k).phase = .leaving && !s.slicePosted k then
      let s := s.leaveBlock k
      s.setGroupAt k { s.groupAt k with phase := .ended }
    else s) s

/-- The end of a group (R112): it leaves its block as R134 says, its loads are discarded, a recoverable fault it still holds is
posted (R358). An ATOM that has not been performed counts as such a load: its write is dropped with it (entry 89). -/
def endGroup (s : State) (gk : Nat) : State :=
  let g := s.groupAt gk
  let s :=
    if g.phase = .attached then
      if s.slicePosted gk then s.setGroupAt gk { g with phase := .leaving }
      else
        let s := s.leaveBlock gk
        s.setGroupAt gk { s.groupAt gk with phase := .ended }
    else s.setGroupAt gk { g with phase := .ended }
  let y := s.sysAt gk
  let s := s.setSysAt gk { y with ld := [], pendingFault := none }
  match y.pendingFault with
  | some r => s.unclaimed gk r
  | none => s

/-! ## Posting a launch (R123, R136) -/

/-- Number of a launch queue in the table of queues. -/
def queueKey (partition queue : Nat) : Nat := 16 * partition + queue

/-- A launch header posted to a queue of a partition by a context; `command` names the host command that waits for it. -/
def postLaunch (s : State) (context partition queue header : Nat) (command : Option (Nat × Nat)) : State :=
  let k := queueKey partition queue
  let id := s.freshId
  let l := { Launch.none with headerAddr := header, context := context, partition := partition, queue := queue,
                              command := command }
  let s := (s.setLaunchAt id l).bumpId
  { s with queues := s.queues.set k (s.queues.get k [] ++ [id]) }

end State

end Sys2Proof.Machine
end

