-- ==== Sys2Proof/Machine/Control.lean ====
section
/-!
DEFINITION. Control: branches and divisions (R103, R104, R106), masks (R107), calls (R108), WAIT (R109), YIELD, EXIT, TRAP, BRK
(R110 to R112, R354).
-/

namespace Sys2Proof.Machine

namespace State

/-! ## Branches (R79, R103) -/

/-- The target of a branch of the issuing split (R79). -/
def branchTarget (s : State) (off : BitVec 16) : BitVec 20 := s.vsplit.pc + off.signExtend 20

/-- A uniform branch: the whole split moves to the target, or to the next packet (R103). -/
def branchIf (s : State) (taken : Bool) (off : BitVec 16) : State :=
  if taken then s.transfer (s.branchTarget off) else s.nextPacket

/-! ## Divisions (R104, R347) -/

/-- The lowest split number that is free (R347). -/
def freeSplit (t : Table Split) : Nat := ((List.range 4).find? fun n => t.at? n == none).getD 4

/-- A split created by BDIV: resident now, with an empty record (R104, R113). -/
def bornSplit (now : Nat) (x : Split) (target : BitVec 20) (m : LaneMask) : Split :=
  { Split.none with mask := m, pc := target, handler := x.handler, age := now, issuedAt := now }

/-- BDIV's cases (R104). -/
def divide (s : State) (taken : LaneMask) (target : BitVec 20) : State :=
  let a := s.active
  let stay := a &&& ~~~ taken
  if taken = 0 then s.nextPacket
  else if stay = 0 then s.transfer target
  else if s.vgroup.splits.length < 4 then
    let s := s.nextPacket
    let g := s.group
    let x := s.split
    let new := bornSplit s.now x target taken
    s.setGroup { g with splits := (g.splits.set s.cur.split { x with mask := stay }).set (freeSplit g.splits) new }
  else if s.vsplit.record = none then
    let s := s.nextPacket
    let x := s.split
    s.setSplit { x with mask := stay, record := some (target, x.handler, taken) }
  else s.fault .splitOverflow 0 none

/-! ## The end of a split (R106, R112) -/

/-- The issuing split ends, or goes on with the lanes of its record; with its last split the group ends (R106, R112). -/
def exitSplit (s : State) : State :=
  let g := s.group
  let x := s.split
  let s :=
    match x.record with
    | some (t, h, m) =>
        s.setSplit { issued s.now x with
          mask := m, record := none, pc := t, handler := h, word := 0, packet := none, back := 0 }
    | none =>
        let t := g.splits.erase s.cur.split
        let s := s.setGroup { g with splits := t }
        if t = [] then s.endGroup s.gkey else s
  let s := { s with tick := s.tick + 1, last := .done }
  match s.snap with
  | some k => { s with snap := some { k with moved := true } }
  | none => s

/-! ## WAIT (R83, R84, R109, R255) -/

/-- Matrix operations of a group whose operand ranges a WAIT down to `n` releases (R255). -/
def releaseMatrix (s : State) (gk n : Nat) : State :=
  let c := clusterOf (coreOfKey gk)
  let k := s.clusterAt c
  if k.entries = [] then s
  else
    s.setClusterAt c { k with entries := k.entries.filter fun e =>
      !(e.finished && groupKey e.core e.slot == gk && n ≤ e.later) }

/-- Every counter is at most its field (R109). -/
def waitOver (s : State) (ld st cp tm : Nat) : Bool :=
  let g := s.vsys
  g.ld.length ≤ ld && g.st.length ≤ st && g.cp.length ≤ cp && g.tm.length ≤ tm

end State

open State

/-- BRA: always (R103). -/
def execBra (off : BitVec 16) (s : State) : Result := s.issue (.bra off) fun s => s.branchIf true off

/-- BZ: taken when the register is 0 (R103). -/
def execBz (sr : SReg) (off : BitVec 16) (s : State) : Result := s.issue (.bz sr off) fun s => s.branchIf (s.readS sr == 0) off

/-- BNZ: taken when the register is not 0 (R103). -/
def execBnz (sr : SReg) (off : BitVec 16) (s : State) : Result := s.issue (.bnz sr off) fun s => s.branchIf (s.readS sr != 0) off

/-- BANY: taken when some active lane has the predicate (R103). -/
def execBany (p : PReg) (off : BitVec 16) (s : State) : Result := s.issue (.bany p off) fun s => s.branchIf (s.active &&& s.readP p != 0) off

/-- BALL: taken when every active lane has the predicate (R103). -/
def execBall (p : PReg) (off : BitVec 16) (s : State) : Result := s.issue (.ball p off) fun s => s.branchIf (s.active &&& ~~~ s.readP p == 0) off

/-- BNONE: taken when no active lane has the predicate (R103). -/
def execBnone (p : PReg) (off : BitVec 16) (s : State) : Result := s.issue (.bnone p off) fun s => s.branchIf (s.active &&& s.readP p == 0) off

/-- BDIV (R104). -/
def execBdiv (p : PReg) (off : BitVec 16) (s : State) : Result :=
  s.issue (.bdiv p off) fun s => s.divide (s.active &&& s.readP p) (s.branchTarget off)

/-! ## Calls (R108) -/

/-- CALL: lk takes the next packet's index, the split moves (R108). -/
def execCall (target : BitVec 20) (s : State) : Result :=
  s.issue (.call target) fun s => (s.writeS 59 (BitVec.ofNat 32 (s.vsplit.pc.toNat + 1))).transfer target

/-- A jump to an index held in a register; an index past the range is illegal (R108). -/
def State.jumpTo (s : State) (t : Word) : State :=
  if 2 ^ 20 ≤ t.toNat then s.illegalHere .branchTarget else s.transfer (t.setWidth 20)

/-- RET: to lk (R108). -/
def execRet (s : State) : Result := s.issue .ret fun s => s.jumpTo (s.readS 59)

/-- JMPR (R108). -/
def execJmpr (a : SReg) (s : State) : Result := s.issue (.jmpr a) fun s => s.jumpTo (s.readS a)

/-! ## Masks (R107) -/

/-- MFROMP: the active mask into all 96 lanes of a predicate (R107). -/
def execMfromp (d : PReg) (s : State) : Result :=
  s.issue (.mfromp d) fun s => (s.writePLanes (BitVec.allOnes 96) d fun l => s.active.getLsbD l).done

/-- MTOP: the mask from a predicate, under R91 (R107). -/
def execMtop (a : PReg) (s : State) : Result := s.issue (.mtop a) fun s => (s.setMask (s.readP a)).done

/-! ## WAIT (R109) -/

/-- WAIT: the split stalls until all four counters are low enough; it then acquires what the engines wrote (R84, R109, R255). -/
def execWait (ld st cp tm : BitVec 6) (s : State) : Result :=
  s.issue (.wait ld st cp tm) fun s =>
    if s.waitOver ld.toNat st.toNat cp.toNat tm.toNat then (s.releaseMatrix s.gkey tm.toNat).done else s.stalled

/-! ## CTRL (R110 to R112, R354) -/

/-- YIELD: to the next packet, standing back at the next issue decision, the backward-branch count reset (R111). -/
def execYield (s : State) : Result :=
  s.issue .yield fun s =>
    let s := s.nextPacket
    s.setSplit { s.split with yielded := true, back := 0 }

/-- EXIT (R112). -/
def execExit (s : State) : Result := s.issue .exit State.exitSplit

/-- TRAP n: the resume point is the next packet (R353, R354). -/
def execTrap (n : BitVec 8) (s : State) : Result :=
  s.issue (.trap n) fun s =>
    s.deliver .trap n.toNat 0 none (s.split.pc.toNat + 1) 0 (Vector.replicate 6 0)

/-- BRK: a debug stop where the debugger may stop groups, else the debug fault with SUB 1 (R350, R354, R372). -/
def execBrk (s : State) : Result :=
  s.issue .brk fun s =>
    if s.vcontext.dbg then s.debugStop 1
    else s.deliver .debugTrap 1 0 none s.split.pc.toNat s.split.word (Vector.replicate 6 0)

end Sys2Proof.Machine
end

