-- ==== Sys2Proof/Machine/Access.lean ====
section
/-!
DEFINITION. What the memory words share: spaces and addresses (R211 to R217), a whole word's checks (R218, R220, R234, R275), and
the entry of a counted access with what must be performed before it (R241, R250 to R253).
-/

namespace Sys2Proof.Machine

/-! ## Segments (R211, R212) -/

/-- The spaces of format M (R211). -/
inductive MemSpace where
  | g | s | c | p
deriving DecidableEq, Repr

def segBase (q : QWord) : Nat := (q.extractLsb' 0 64).toNat
def segLimit (q : QWord) : Nat := (q.extractLsb' 64 64).toNat

/-- How the checks of one lane come out, with the place and the address of its access. -/
structure LaneGo where
  check : LaneCheck
  place : Place
  va : Nat
deriving DecidableEq, Repr

/-- A lane that fails a precise check at an address. -/
def LaneGo.fails (cls : FaultClass) (ea : Int) : LaneGo :=
  { check := .fails cls (BitVec.ofInt 64 ea), place := .mem 0, va := 0 }

/-- A lane whose page is not present. -/
def LaneGo.absent (vpage : Nat) : LaneGo := { check := .absent [vpage], place := .mem 0, va := 0 }

/-- A lane whose translation a walk holds up (R382). -/
def LaneGo.busy : LaneGo := { check := .busy, place := .mem 0, va := 0 }

def LaneGo.goes (place : Place) (va : Nat) : LaneGo := { check := .passes, place, va }

namespace State

/-- The place that a leaf maps an address to for the issuing core. -/
def placeOf (s : State) (e : DWord) (level va : Nat) : Place := s.placeFor s.cur.core e level va

/-! ## A whole word's checks (R218, R220, R234, R275) -/

/-- A page is a usable lattice page: its leaf says so and a region in force covers it (R268). -/
def latticePage (s : State) (e : DWord) (va : Nat) : Bool := leafLat e && (s.vcontext.regionAt va).isSome

/-- What an access asks of a page's lattice type, by the page's leaf and the address (R220, R268, R275). -/
abbrev LatRule := DWord → Nat → Bool

/-- A plain read: a lattice page must be usable (R220, R268). -/
def readRule (s : State) : LatRule := fun e va => !leafLat e || s.latticePage e va

/-- A plain write or atomic: no lattice page (R220). -/
def writeRule : LatRule := fun e _ => !leafLat e

/-- One global address from translation on: presence, permission, lattice type (R218). -/
def pageLane (s : State) (va : Nat) (k : AccessKind) (rule : LatRule) : LaneGo :=
  if s.missHeld s.cur.core s.block.context va then .busy
  else
    match s.checkPage s.cur.core s.block.context s.split.rejected va k with
    | .absent => .absent (va / 65536)
    | .fails cls => .fails cls va
    | .page e level => if rule e va then .goes (s.placeOf e level va) va else .fails .latticeType va

/-- The checks of one global address in the order of R218. -/
def globalLane (s : State) (ea : Int) (n align : Nat) (k : AccessKind) (rule : LatRule) : LaneGo :=
  if ea < 0 || (2 : Int) ^ 60 < ea + n then .fails .segmentBounds ea
  else if ea % align ≠ 0 then .fails .misalignment ea
  else s.pageLane ea.toNat k rule

/-- The checks of one private address: `l` is the lane, `ea` its offset in the lane's stack (R216, R217). -/
def privateLane (s : State) (l : Nat) (ea : Int) (n : Nat) (k : AccessKind) (rule : LatRule) : LaneGo :=
  let q := s.vsys.seg.p
  let va := (segBase q : Int) + l * segLimit q + ea
  if ea < 0 || (segLimit q : Int) < ea + n then .fails .segmentBounds ea
  else if va % n ≠ 0 then .fails .misalignment va
  else s.pageLane va.toNat k rule

/-- The checks of one scratchpad address (R216, R217). -/
def scratchLane (s : State) (ea : Int) (n : Nat) : LaneGo :=
  let q := s.vsys.seg.s
  if ea < 0 || (segLimit q : Int) < ea + n then .fails .segmentBounds ea
  else if ea % n ≠ 0 then .fails .misalignment ea
  else .goes (.spad s.cur.core (segBase q + ea.toNat)) ea.toNat

/-- A block of a context holds the scratchpad byte of a core (R216). -/
def slotHeld (s : State) (context core off : Nat) : Bool :=
  s.blocks.any fun e => e.2.context == context && e.2.holdsPad core off

/-- The checks of one address of the cluster window (R216, R217). -/
def clusterLane (s : State) (ea : Int) (n : Nat) : LaneGo :=
  if ea < 0 || (2 : Int) ^ 24 < ea + n || 3 * 2 ^ 20 < ea % 2 ^ 22 + n then .fails .segmentBounds ea
  else if ea % n ≠ 0 then .fails .misalignment ea
  else
    let peer := 4 * clusterOf s.cur.core + ea.toNat / 2 ^ 22
    let off := ea.toNat % 2 ^ 22
    if s.slotHeld s.block.context peer off then .goes (.spad peer off) ea.toNat
    else .fails .permission ea

/-- The checks of a lane of a word of format M (R216 to R218). -/
def laneGo (s : State) (sp : MemSpace) (base : SReg) (f : OffForm) (o : VReg) (n : Nat) (k : AccessKind) (rule : LatRule)
    (l : Nat) : LaneGo :=
  let ea := s.laneAddress base f o l
  match sp with
  | .g => s.globalLane ea n n k rule
  | .p => s.privateLane l ea n k rule
  | .s => s.scratchLane ea n
  | .c => s.clusterLane ea n

/-! ## A word as a whole (R218) -/

/-- A word of the active lanes: the lowest lane's precise fault, else the missing pages, else its effect (R218). While a walk holds
up a lane the split is not ready (R382). -/
def laneWord (s : State) (kind : BitVec 5) (go : Nat → LaneGo) (effect : State → State) : State :=
  if (LaneMask.list s.active).any fun l => (go l).check == .busy then s.stalled
  else match wordCheck ((LaneMask.list s.active).map fun l => (l, (go l).check)) with
  | .fails cls addr l => s.fault cls addr (some l)
  | .absent pages => s.suspend pages kind
  | .passes => effect s

/-- A word that acts once for the group, at one address (R100, R353). -/
def groupWord (s : State) (kind : BitVec 5) (go : LaneGo) (effect : State → State) : State :=
  match go.check with
  | .fails cls addr => s.fault cls addr none
  | .absent pages => s.suspend pages kind
  | .busy => s.stalled
  | .passes => effect s

/-- The accesses of a word that passed its checks. -/
def accessesOf (s : State) (n : Nat) (go : Nat → LaneGo) (data : Nat → QWord) : List Access :=
  (LaneMask.list s.active).map fun l =>
    { lane := l, place := (go l).place, va := (go l).va, n, data := data l, dead := false }

/-! ## Counted accesses (R83, R241, R250 to R253) -/

/-- A place outside the block's own scratchpad slots: global memory, a window, another block's slot (R366). -/
def outside (s : State) (p : Place) : Bool :=
  match p with
  | .spad c off => !s.block.holdsPad c off
  | _ => true

/-- Operations that have accesses still to perform. -/
def openOps (g : GroupSys) : List Pending := (g.ld ++ g.st).filter fun p => !p.finished

/-- Operations that have accesses still to perform and that come before what the group issues now: no LTRY, for an access issued before
its completion is not ordered after its read (R281; entry 47). -/
def earlierOps (g : GroupSys) : List Pending := (openOps g).filter fun p => !p.tries

/-- The outstanding accesses that touch a byte of one of the given accesses: its lane, the operation and its lane (R253 case 1). -/
def touching (g : GroupSys) (l : List Access) : List (Nat × Nat × Nat) :=
  (l.map fun b => ((earlierOps g).map fun p =>
    (p.accesses.filter fun a => a.place.meets a.n b.place b.n).map fun a => (b.lane, p.id, a.lane)).flatten).flatten

/-- What must be performed before any access of a new operation: what an acquire orders before it (case 5); for a release
everything, for a write also what a release fence covers (case 6) (R253). -/
def mustPrecede (g : GroupSys) (writes release : Bool) : List Nat :=
  let all := (earlierOps g).map Pending.id
  if release then all else all.filter fun i => g.acqAfter.contains i || (writes && g.relAfter.contains i)

/-- A counted access word takes effect: its counter rises by one, with what it does when performed (R83, R85). `acquire` and
`release` say what orders it makes (R252). -/
def post (s : State) (c : Counter) (act : OpAct) (accs : List Access) (acquire release : Bool) : State :=
  let id := s.freshId
  let g := s.gsys
  let kept := (openOps g).map Pending.id
  let p : Pending :=
    { id, act, accesses := accs, after := mustPrecede g act.writes release, behind := touching g accs, results := [], failed := [],
      spoiled := [], spoiledPreds := [], mask := s.active, issued := s.now, finished := false }
  let acq := g.acqAfter.filter kept.contains
  let g := (g.setList c (g.list c ++ [p]))
  let s := (s.setSys { g with
    acqAfter := if acquire then acq ++ [id] else acq, relAfter := g.relAfter.filter kept.contains }).bumpId
  if act.writes && accs.any fun a => s.outside a.place then s.setBlock { s.block with wroteOut := true } else s

/-- A word of the active lanes that posts one access of `n` bytes for each (R218, R224). -/
def accessWord (s : State) (c : Counter) (kind : BitVec 5) (act : OpAct) (n : Nat) (go : Nat → LaneGo) (data : Nat → QWord)
    (acquire release : Bool) : State :=
  s.laneWord kind go fun s => (s.post c act (s.accessesOf n go data) acquire release).done

end State

end Sys2Proof.Machine
end

