-- ==== Sys2Proof/Machine/Matrix.lean ====
section
/-!
DEFINITION. Matrix and accumulator words: operand tiles (R320, R321), MMA and MMAS (R322 to R324), accumulation (R328, R329,
R331), the accumulator store (R332 to R337), pins (R338), the operand fence (R339).
-/

namespace Sys2Proof.Machine

namespace State

/-! ## Operand addresses (R320) -/

/-- Core and offset that an operand address word names. -/
def operandLoc (s : State) (oa : Word) : Nat × Nat :=
  if oa.getLsbD 31 then (4 * clusterOf s.cur.core + (oa.toNat / 2 ^ 22) % 4, oa.toNat % 2 ^ 22)
  else (s.cur.core, segBase s.vsys.seg.s + oa.toNat)

/-- The range of `n` bytes breaks its bounds. -/
def operandPast (s : State) (oa : Word) (n : Nat) : Bool :=
  if oa.getLsbD 31 then (oa.toNat / 2 ^ 24) % 128 ≠ 0 || 3 * 2 ^ 20 < oa.toNat % 2 ^ 22 + n
  else segLimit s.vsys.seg.s < oa.toNat + n

/-- The location is no multiple of 64. -/
def operandOdd (s : State) (oa : Word) : Bool := (s.operandLoc oa).2 % 64 ≠ 0

/-- A slot of the range is not held by the context. -/
def operandDenied (s : State) (oa : Word) (n : Nat) : Bool :=
  let l := s.operandLoc oa
  oa.getLsbD 31 && (List.range ((l.2 + n - 1) / slotBytes - l.2 / slotBytes + 1)).any fun k =>
    !s.slotHeld s.block.context l.1 ((l.2 / slotBytes + k) * slotBytes)

/-! ## Entries of the accumulator segment (R323, R332, R336) -/

/-- Segment entry that an offset in seg.a names. -/
def accEntry (s : State) (e : Nat) : Nat := segBase s.vsys.seg.a + e

/-- `n` entries from an offset run past seg.a.LIMIT. -/
def accPast (s : State) (e n : Nat) : Bool := segLimit s.vsys.seg.a < e + n

/-- One of `n` entries from an offset lies in an empty slot. -/
def accEmpty (s : State) (e n : Nat) : Bool :=
  let x := s.accEntry e
  (List.range ((x + n - 1) / 1024 - x / 1024 + 1)).any fun k => (s.vblock.units.at? (x / 1024 + k)).isNone

/-! ## The tm counter (R83, R331) -/

end State

/-- Ranges (first, count) of segment entries that an operation in tm touches, matrix operations apart. -/
def OpAct.accRanges : OpAct → List (Nat × Nat)
  | .accz first count => [(first, count)]
  | .accwr writes => writes.map fun w => (w.1, 1)
  | .accrd _ _ _ _ _ reads => reads.map fun r => (r.2.1, 1)
  | _ => []

/-- Two lists of ranges meet. -/
def rangesMeet (l k : List (Nat × Nat)) : Bool := l.any fun a => k.any fun b => overlaps a.1 a.2 b.1 b.2

/-- The entries of a matrix operation as a range. -/
def MatrixEntry.range (e : MatrixEntry) : Nat × Nat := (e.acc, 8 * e.key.fmt.tileN)

namespace State

/-- Reservation-table entries of the issuing core's cluster. -/
def matrixEntries (s : State) (core : Nat) : List MatrixEntry := (s.clusterAt (clusterOf core)).entries

/-- Matrix operations of a group that are not complete, among ids. -/
def liveEntries (s : State) (core : Nat) (ids : List Nat) : List MatrixEntry :=
  (s.matrixEntries core).filter fun e => ids.contains e.id && !e.finished

/-- Operations of the issuing group in tm that are not complete and touch a range of entries (R331). -/
def tmTouching (s : State) (l : List (Nat × Nat)) (matrix : Bool) : List Nat :=
  (s.gsys.tm.filter fun p => !p.finished && (rangesMeet p.act.accRanges l || (matrix && match p.act with
    | .matrix ids => (s.liveEntries s.cur.core ids).any fun e => rangesMeet [e.range] l
    | _ => false))).map Pending.id

/-- A tm entry of the issuing group (R83): the matrix operations of the group see one more operation issued after them. -/
def postTm (s : State) (act : OpAct) (after : List Nat) (finished : Bool) : State :=
  let id := s.freshId
  let g := s.gsys
  let p : Pending :=
    { id, act, accesses := [], after, behind := [], results := [], failed := [], spoiled := [], spoiledPreds := [], mask := s.active,
      issued := s.now, finished }
  let s := (s.setSys { g with tm := g.tm ++ [p] }).bumpId
  let c := clusterOf s.cur.core
  let k := s.clusterAt c
  if k.entries = [] then s
  else
    let count := fun (e : MatrixEntry) => if groupKey e.core e.slot == s.gkey then { e with later := e.later + 1 } else e
    s.setClusterAt c { k with entries := k.entries.map count }

/-! ## MMA and MMAS (R323, R324) -/

/-- The octets that have an active lane, each with its lowest one (R323). -/
def octets (s : State) : List (Nat × Nat) :=
  (List.range 12).filterMap fun o =>
    ((LaneMask.list s.active).find? fun l => l / 8 = o).map fun l => (o, l)

/-- The three operands of an octet. -/
def octetOperands (s : State) (r : VReg) (l : Nat) : Word × Word × Word :=
  (s.readV r l, s.readV (r + 1) l, s.readV (r + 2) l)

/-- The first check of an octet that fails, with the failing operand (R323). -/
def octetCheck (s : State) (x : Word × Word × Word) (afmt bfmt : Fmt) (sparse : Bool) : Option (FaultClass × Word) :=
  let na := tileBytesA afmt bfmt sparse
  let nb := tileBytesB bfmt sparse
  let n := bfmt.tileN
  let e := x.2.2.toNat
  ([(s.operandPast x.1 na, FaultClass.segmentBounds, x.1), (s.operandPast x.2.1 nb, .segmentBounds, x.2.1),
    (s.accPast e (8 * n), .segmentBounds, x.2.2),
    (s.operandOdd x.1, .misalignment, x.1), (s.operandOdd x.2.1, .misalignment, x.2.1), (e % n ≠ 0, .misalignment, x.2.2),
    (s.operandDenied x.1 na, .permission, x.1), (s.operandDenied x.2.1 nb, .permission, x.2.1),
    (s.accEmpty e (8 * n), .permission, x.2.2)].find? Prod.fst).map Prod.snd

/-- The first failing octet with its lane (R323). -/
def octetsFail (s : State) (r : VReg) (afmt bfmt : Fmt) (sparse : Bool) : Option (FaultClass × Word × Nat) :=
  s.octets.findSome? fun o => (s.octetCheck (s.octetOperands r o.2) afmt bfmt sparse).map fun f => (f.1, f.2, o.2)

/-- The table has free entries for `n` operations of a core (R324). -/
def tableRoom (s : State) (n : Nat) : Bool :=
  let l := (s.matrixEntries s.cur.core).filter fun e => !e.finished
  l.length + n ≤ 64 && (l.filter (·.core == s.cur.core)).length + n ≤ 48

/-- OPFENCEs of the issuing group that are not complete (R331). -/
def openFences (s : State) : List Nat := (s.gsys.tm.filter fun p => !p.finished && p.act == .opfence).map Pending.id

/-- Matrix operations of the issuing group that are not complete and write a range of entries (R331). -/
def earlierEntries (s : State) (range : Nat × Nat) : List Nat :=
  ((s.matrixEntries s.cur.core).filter fun e =>
    e.core == s.cur.core && e.slot == s.cur.slot && !e.finished && rangesMeet [e.range] [range]).map MatrixEntry.id

/-- The reservation-table entry of an octet: it comes after the group's open fences and its earlier operations on the same accumulator
entries (R324, R331). -/
def octetEntry (s : State) (r : VReg) (afmt bfmt : Fmt) (sparse : Bool) (id octet lane : Nat) : MatrixEntry :=
  let x := s.octetOperands r lane
  let a := s.operandLoc x.1
  let b := s.operandLoc x.2.1
  let acc := s.accEntry x.2.2.toNat
  { id, core := s.cur.core, slot := s.cur.slot, octet, block := s.group.block, context := s.block.context,
    prio := s.block.header.prio, key := { core := b.1, off := b.2, fmt := bfmt, sparse }, aCore := a.1, aOff := a.2, afmt, acc,
    posted := s.now + 2, running := none, grant := 0
    after := s.openFences ++ s.tmTouching [(acc, 8 * bfmt.tileN)] false ++ s.earlierEntries (acc, 8 * bfmt.tileN)
    spoiled := false, finished := false, later := 0 }

/-- The operations of a word that has passed its checks, posted to the reservation table (R323, R324). -/
def postMatrix (s : State) (r : VReg) (afmt bfmt : Fmt) (sparse : Bool) : State :=
  let l := s.octets
  let first := s.freshId + 1
  let new := l.zipIdx.map fun e => s.octetEntry r afmt bfmt sparse (first + e.2) e.1.1 e.1.2
  let s := s.postTm (.matrix (new.map MatrixEntry.id)) [] false
  let s := { s with nextId := s.nextId + l.length }
  let c := clusterOf s.cur.core
  let k := s.clusterAt c
  s.setClusterAt c { k with entries := k.entries ++ new }

/-- MMA and MMAS (R323). -/
def matrixWord (s : State) (r : VReg) (afmt bfmt : Fmt) (sparse : Bool) : State :=
  match s.octetsFail r afmt bfmt sparse with
  | some (cls, x, l) => s.fault cls (x.setWidth 64) (some l)
  | none => if s.tableRoom s.octets.length then (s.postMatrix r afmt bfmt sparse).done else s.stalled

/-! ## Accumulation (R321, R328, R329) -/

/-- Element `k` of packed elements of a format from an offset of a scratchpad. -/
def padElement (s : State) (core off : Nat) (f : Fmt) (k : Nat) : FVal :=
  let w := f.element
  f.decode (s.spad.read (padKey core (off + w * k / 8)) 9 / 2 ^ (w * k % 8) % 2 ^ w)

/-- A scale: two bytes (R188, R321). -/
def padScale (s : State) (core off : Nat) : FVal := Fmt.sc12.decode (s.spad.read (padKey core off) 2)

/-- K of an operation, and its blocks of 32 (R318, R321). -/
def entryK (e : MatrixEntry) : Nat := e.key.fmt.tileK e.key.sparse
def entryBlocks (e : MatrixEntry) : Nat := entryK e / 32

/-- Element A[r][k] (R321). -/
def elementA (s : State) (e : MatrixEntry) (r k : Nat) : FVal :=
  s.padElement e.aCore (e.aOff + r * (entryK e * e.afmt.element / 8)) e.afmt k

/-- Scale SA[r][j] (R321). -/
def scaleA (s : State) (e : MatrixEntry) (r j : Nat) : FVal :=
  s.padScale e.aCore (e.aOff + 8 * (entryK e * e.afmt.element / 8) + 2 * (r * entryBlocks e + j))

/-- The nibble of a group of four rows in a column (R205, R321). -/
def nibble (s : State) (e : MatrixEntry) (g n : Nat) : Nat :=
  s.spad.read (padKey e.key.core (e.key.off + 12288 + 64 * g + n / 2)) 1 / 16 ^ (n % 2) % 16

/-- A column of an MMAS tile has a nibble that names no pair (R321). -/
def badColumn (s : State) (e : MatrixEntry) (n : Nat) : Bool :=
  e.key.sparse && (List.range 48).any fun g => s.nibble e g n / 4 ≤ s.nibble e g n % 4

/-- Element B[k][n] (R321). -/
def elementB (s : State) (e : MatrixEntry) (k n : Nat) : FVal :=
  if e.key.sparse then
    let g := k / 4
    let x := s.nibble e g n
    if k % 4 = x % 4 then s.padElement e.key.core (e.key.off + 2 * g * 128) e.key.fmt n
    else if k % 4 = x / 4 then s.padElement e.key.core (e.key.off + (2 * g + 1) * 128) e.key.fmt n
    else .num (Dy.ofNat 0)
  else s.padElement e.key.core (e.key.off + k * (e.key.fmt.tileN * e.key.fmt.element / 8)) e.key.fmt n

/-- Scale SB[j][n] (R321). -/
def scaleB (s : State) (e : MatrixEntry) (j n : Nat) : FVal :=
  let rows := if e.key.sparse then 15360 else entryK e * (e.key.fmt.tileN * e.key.fmt.element / 8)
  s.padScale e.key.core (e.key.off + rows + 2 * (j * e.key.fmt.tileN + n))

end State

/-- The exact sum of exact products; a finite zero is +0 (R329). -/
def blockSum (l : List FVal) : FVal :=
  match l.foldl (fun a b => (nanRule [a, b] fun _ => a.sum false b).1) (.num (Dy.ofNat 0)) with
  | .num d => if d.man = 0 then .num (Dy.ofNat 0) else .num d
  | x => x

/-- A product of exact values without flags (R329). -/
def exactMul (a b : FVal) : FVal := (fMul a b).1

/-- Add128: binary128 addition rounded once (R329). -/
def add128 (q : Nat) (t : FVal) : Nat := (Bin.f128.finish .rne (fAdd .rne (Bin.f128.decode q) t)).1

namespace State

/-- The value of C[r][n] after an operation, from `q` before it (R328). -/
def accumulate (s : State) (e : MatrixEntry) (r n q : Nat) : Nat :=
  if e.key.fmt.scaledB then
    (List.range (entryBlocks e)).foldl (fun q j =>
      let sum := blockSum ((List.range 32).map fun i => exactMul (s.elementA e r (32 * j + i)) (s.elementB e (32 * j + i) n))
      add128 q (exactMul (exactMul sum (s.scaleA e r j)) (s.scaleB e j n))) q
  else (List.range (entryK e)).foldl (fun q k => add128 q (exactMul (s.elementA e r k) (s.elementB e k n))) q

/-- Segment entry `x` of a block. -/
def accOf (s : State) (block x : Nat) : QWord :=
  match (s.blockAt block).accKey x with
  | some k => s.accAt k
  | none => 0

def setAccOf (s : State) (block x : Nat) (v : QWord) : State :=
  match (s.blockAt block).accKey x with
  | some k => s.setAcc k v
  | none => s

/-- Outstanding stores, issued before a matrix operation, to bytes of its operands: a group, the operation in ld or st, the access. No
OPFENCE or acquire has performed them (R255). -/
def openStores (s : State) (e : MatrixEntry) : List (Nat × Pending × Access) :=
  let onOperand := fun (a : Access) =>
    a.place.meets a.n (.spad e.aCore e.aOff) (tileBytesA e.afmt e.key.fmt e.key.sparse) ||
    a.place.meets a.n (.spad e.key.core e.key.off) (tileBytesB e.key.fmt e.key.sparse)
  (s.sys.map fun y => ((openOps y.2).filter fun p => p.act.writes && p.id < e.id).map fun p =>
    (p.accesses.filter onOperand).map fun a => (y.1, p, a)).flatten.flatten

/-- The scratchpads with some of the bytes of one such store written: a free bit says which. -/
def mixStore (s : State) (context : Nat) (x : Nat × Pending × Access) : State :=
  match x.2.2.place with
  | .spad c off =>
      let new := (s.performAccess x.1 context x.2.1 x.2.2 0).1.spad
      s.setSpad ((List.range x.2.2.n).foldl (fun m i =>
        let k := padKey c (off + i)
        if (Config.undefined s.tick (2 ^ 43 + 2048 * x.2.1.id + 16 * x.2.2.lane + i)).getLsbD 0 then m.setByte k (new.byte k) else m) s.spad)
  | _ => s

/-- The operands that a matrix operation reads: each byte to which a store issued before it is still outstanding may be old or new
(R255). -/
def operandsRead (s : State) (e : MatrixEntry) : State := (s.openStores e).foldl (fun v x => v.mixStore e.context x) s

/-- The results of an operation added into its entries (R328); undefined where its operands were written meanwhile, and in a
column with bad metadata (R255, R321). -/
def accumulateAll (s : State) (e : MatrixEntry) : State :=
  let cols := e.key.fmt.tileN
  if e.spoiled then s.spoilAcc e.block e.entries
  else
    let v := s.operandsRead e
    let value := fun (i : Nat) =>
      if v.badColumn e (i % cols) then freeQuad s.tick (2 ^ 33 + 4 * (e.acc + i))
      else BitVec.ofNat 128 (v.accumulate e (i / cols) (i % cols) (s.accOf e.block (e.acc + i)).toNat)
    ((List.range (8 * cols)).map fun i => (e.acc + i, value i)).foldl (fun t w => t.setAccOf e.block w.1 w.2) s

/-- An accumulator word's write of one entry: undefined where a matrix operation issued before it still claims the entry
(R255, R331). -/
def accWrite (s : State) (core : Nat) (p : Pending) (block x : Nat) (v : QWord) : State :=
  let hit := (s.matrixEntries core).filter fun e => e.block == block && e.id < p.id && overlaps e.acc (8 * e.key.fmt.tileN) x 1
  if hit.isEmpty then s.setAccOf block x v
  else
    let c := clusterOf core
    let k := s.clusterAt c
    let mark := fun (e : MatrixEntry) => if hit.any (·.id == e.id) then { e with spoiled := true } else e
    let s := s.setClusterAt c { k with entries := k.entries.map mark }
    let s := (hit.filter (·.finished)).foldl (fun s e => s.spoilAcc e.block e.entries) s
    s.setAccOf block x (freeQuad s.tick (2 ^ 34 + 4 * x))

/-! ## ACCALLOC and ACCFREE (R334, R335) -/

/-- The first slot of the lowest run of `n` empty slots in a unit map (R334). -/
def emptyRun (b : Block) (n : Nat) : Option Nat :=
  (List.range (b.header.acc + 1 - n)).find? fun k => (List.range n).all fun i => (b.units.at? (k + i)).isNone

/-- Units of a core that no block holds. -/
def freeUnits (s : State) (core : Nat) : List Nat :=
  let held := ((s.blocks.filter fun e => e.2.core == core).map fun e => Table.values e.2.units).flatten
  (List.range 32).filter fun u => !held.contains u

/-- Block `a` is older than block `b` (R334). -/
def olderBlock (s : State) (a b : Block) : Bool :=
  let o := fun (x : Block) => (s.launchAt x.launch).order.getD 0
  o a < o b || (o a == o b && a.number < b.number)

/-- A split of a block waits in ACCALLOC. -/
def waitsForUnits (s : State) (id : Nat) : Bool :=
  s.groups.any fun e => e.2.block == id && e.2.splits.any fun x => match x.2.hold with
    | some h => h.accUnits != none
    | none => false

/-- The other blocks of the issuing core. -/
def otherBlocks (s : State) : List (Nat × Block) :=
  s.blocks.filter fun e => e.1 != s.group.block && e.2.core == s.cur.core

/-- ACCALLOC fails: 0xFFFF_FFFF and false (R334). -/
def noUnits (s : State) (p : PReg) (d : SReg) : State := ((s.writeS d 0xFFFFFFFF).writePAll p false).done

/-- Units zeroed and put into the slots from `k` on (R334). -/
def giveUnits (s : State) (k : Nat) (units : List Nat) : State :=
  let key := fun (u : Nat) => 32 * s.cur.core + u
  let s := { s with acc := s.acc.filter fun e => !(units.any fun u => e.1 / 1024 == key u) }
  let b := s.block
  s.setBlock { b with units := units.zipIdx.foldl (fun t e => t.set (k + e.2) e.1) b.units }

/-- ACCALLOC's cases (R334). -/
def allocate (s : State) (p : PReg) (d : SReg) (n : Nat) : State :=
  if n = 0 || 32 < n then s.fault .permission 0 none
  else
    match emptyRun s.block n with
    | none => s.noUnits p d
    | some k =>
        let free := s.freeUnits s.cur.core
        let others := s.otherBlocks
        if n ≤ free.length && !others.any fun e => s.olderBlock e.2 s.block && s.waitsForUnits e.1 then
          (((s.giveUnits k (free.take n)).writeS d (BitVec.ofNat 32 (1024 * k))).writePAll p true).done
        else if s.block.units.isEmpty || others.all fun e => e.2.units.isEmpty || s.olderBlock s.block e.2 then
          s.held { s.holdOf with accUnits := some n }
        else s.noUnits p d

/-- An outstanding tm operation of a block touches a range of entries (R335). -/
def blockTouches (s : State) (id : Nat) (l : List (Nat × Nat)) : Bool :=
  (s.groups.filter fun e => e.2.block == id).any fun e =>
    (s.sysAt e.1).tm.any fun p => !p.finished && (rangesMeet p.act.accRanges l || match p.act with
      | .matrix ids => (s.liveEntries (coreOfKey e.1) ids).any fun m => rangesMeet [m.range] l
      | _ => false)

/-- ACCFREE (R335). -/
def release (s : State) (first : Word) (n : Nat) : State :=
  let x := s.accEntry first.toNat
  if first.toNat % 1024 ≠ 0 then s.fault .misalignment (first.setWidth 64) none
  else if n = 0 || 32 < n || (List.range n).any (fun i => (s.vblock.units.at? (x / 1024 + i)).isNone) then
    s.fault .permission (first.setWidth 64) none
  else if s.blockTouches s.group.block [(x, 1024 * n)] then s.stalled
  else
    let b := s.block
    (s.setBlock { b with units := b.units.filter fun e => !(x / 1024 ≤ e.1 && e.1 < x / 1024 + n) }).done

/-! ## ACCZ, ACCWR, ACCRD (R336, R337) -/

/-- The check of one entry that a lane names (R336). -/
def accLane (s : State) (x : Word) : LaneGo :=
  if s.accPast x.toNat 1 then .fails .segmentBounds x.toNat
  else if s.accEmpty x.toNat 1 then .fails .permission x.toNat
  else .goes (.window 0 0 0 0) 0

/-- ACCZ (R336). -/
def zeroWord (s : State) (first : Word) (n : Nat) : State :=
  if n ≠ 0 && s.accPast first.toNat n then s.fault .segmentBounds (first.setWidth 64) none
  else if n ≠ 0 && s.accEmpty first.toNat n then s.fault .permission (first.setWidth 64) none
  else
    let x := s.accEntry first.toNat
    (s.postTm (.accz x n) (s.tmTouching [(x, n)] false) false).done

/-- The binary128 value that ACCWR writes (R336). -/
def accValue (s : State) (form : AccForm) (x : VReg) (l : Nat) : QWord :=
  match form with
  | .f32 => BitVec.ofNat 128 (Bin.f128.deliver .rne (Bin.f32.decode (s.readV x l).toNat)).1
  | .f64 => BitVec.ofNat 128 (Bin.f128.deliver .rne (Bin.f64.decode (s.readVPair x l).toNat)).1
  | .b128 => s.readVQuad x l

/-- ACCWR (R336). -/
def writeWord (s : State) (x o : VReg) (form : AccForm) : State :=
  s.laneWord 0 (fun l => s.accLane (s.readV o l)) fun s =>
    let w := (LaneMask.list s.active).map fun l => (s.accEntry (s.readV o l).toNat, s.accValue form x l)
    (s.postTm (.accwr w) (s.tmTouching (w.map fun e => (e.1, 1)) false) false).done

/-- ACCRD (R337). -/
def readWord (s : State) (inf : Bool) (d o : VReg) (fmt : Fmt) (rnd : Rnd) : State :=
  s.laneWord 0 (fun l => s.accLane (s.readV o l)) fun s =>
    let r := (LaneMask.list s.active).map fun l =>
      (l, s.accEntry (s.readV o l).toNat, s.readV (o + 1) l, s.readV (o + 2) l)
    (s.postTm (.accrd inf d fmt rnd s.vgroup.tensor r) (s.tmTouching (r.map fun e => (e.2.1, 1)) true) false).done

/-- The value x of R337 with its flags. -/
def readoutValue (q s : FVal) : Raised :=
  if q.isNan || s.isNan then (.nan q.signals, 0)
  else q.product s

/-- What ACCRD reads of an entry: undefined where an outstanding matrix operation of another group will write it (R331). -/
def accRead (s : State) (gk block x : Nat) : QWord :=
  if (s.matrixEntries (coreOfKey gk)).any fun e =>
      e.block == block && !e.finished && groupKey e.core e.slot != gk && overlaps e.acc (8 * e.key.fmt.tileN) x 1 then
    freeQuad s.tick (2 ^ 35 + 4 * x)
  else s.accOf block x

/-- One lane of ACCRD (R337): what it delivers, and the flags of the product. -/
def readoutLane (s : State) (gk block : Nat) (inf : Bool) (fmt : Fmt) (rnd : Rnd) (r : Nat × Nat × Word × Word) :
    Converted × Flags :=
  let v := readoutValue (Bin.f128.decode (s.accRead gk block r.2.1).toNat) (Fmt.sc12.decode (r.2.2.1.toNat % 65536))
  (fmt.convert inf rnd r.2.2.2 v.1, v.2)

/-- A counter of a block rises by one (R208). -/
def blockStat (s : State) (id : Nat) (tensor : BitVec 8) (c : Option Stat) : State :=
  match c with
  | none => s
  | some c =>
      let k := 4 * tensor.toNat + c.code
      let b := s.blockAt id
      s.setBlockAt id { b with stats := b.stats.set k (BitVec.ofNat 32 (min 0xFFFFFFFF ((b.stats.get k 0).toNat + 1))) }

/-- An ACCRD reads its entries: results, flags and counters (R195, R208, R337). -/
def performRead (s : State) (gk : Nat) (p : Pending) (inf : Bool) (fmt : Fmt) (rnd : Rnd) (tensor : BitVec 8)
    (reads : List (Nat × Nat × Word × Word)) : State × Pending :=
  let block := (s.groupAt gk).block
  let out := reads.map fun r => (r.1, s.readoutLane gk block inf fmt rnd r)
  let t := out.foldl (fun t e => t.blockStat block tensor e.2.1.stat) s
  let g := t.groupAt gk
  let flags := out.foldl (fun f e => f ||| e.2.1.flags ||| e.2.2) (0 : Flags)
  (t.setGroupAt gk { g with fps := g.fps ||| flags },
    { p with results := out.foldl (fun t e => t.set e.1 (BitVec.ofNat 128 (fmt.extend e.2.1.bits))) p.results })

/-! ## Pins (R338) -/

/-- Arrays of a cluster that are pinned. -/
def pinnedArrays (k : Cluster) : List Nat := (k.arrays.filter fun e => !e.2.pins.isEmpty).map Prod.fst

/-- The array that holds a B key (R325). -/
def arrayOf (k : Cluster) (key : BKey) : Option Nat := (k.arrays.find? fun e => e.2.key == some key).map Prod.fst

def Cluster.array (k : Cluster) (a : Nat) : ArrayState := k.arrays.get a ArrayState.reset

def Cluster.setArray (k : Cluster) (a : Nat) (x : ArrayState) : Cluster := { k with arrays := k.arrays.set a x }

/-- An array may take a new key: idle, not pinned, and least recently used among such (R325). -/
def mayTake (k : Cluster) (a : Nat) : Bool :=
  let open_ := (List.range 4).filter fun i => (Cluster.array k i).busy.isEmpty && (Cluster.array k i).pins.isEmpty
  open_.contains a && open_.all fun i => (Cluster.array k a).lastUse ≤ (Cluster.array k i).lastUse

/-- A pin added for a block. -/
def pinned (x : ArrayState) (block : Nat) : ArrayState := { x with pins := distinct (x.pins ++ [block]) }

/-- WPIN's effect: the cluster and the predicate; none while no array can take the key (R338). The spec says only 'an array': as for a
pass (R325) it is the least recently used of those idle and not pinned, and the word waits until there is one (DESIGN CHOICE, entry
100). -/
def pinKey (k : Cluster) (key : BKey) (block a : Nat) : Option (Cluster × Bool) :=
  match arrayOf k key with
  | some i =>
      if !(Cluster.array k i).pins.isEmpty || (pinnedArrays k).length < 3 then
        some (Cluster.setArray k i (pinned (Cluster.array k i) block), true)
      else some (k, false)
  | none =>
      if 3 ≤ (pinnedArrays k).length then some (k, false)
      else if mayTake k a then
        some (Cluster.setArray k a (pinned { Cluster.array k a with key := some key, stale := false } block), true)
      else none

/-- The key that WPIN or WUNPIN names (R338). -/
def namedKey (s : State) (oa : Word) (fmt : Fmt) (sparse : Bool) : BKey :=
  let l := s.operandLoc oa
  { core := l.1, off := l.2, fmt, sparse }

/-- Pins and unpins of a key that the group has issued and that are not complete: they take effect in issue order (R71, R338). -/
def pinsOf (s : State) (key : BKey) : List Nat :=
  (s.gsys.tm.filter fun p => !p.finished && match p.act with
    | .wpin _ k | .wunpin k => k == key
    | _ => false).map Pending.id

/-- WPIN: the checks of R320 on the whole tile, then an entry in tm (R338). -/
def pinWord (s : State) (p : PReg) (oa : Word) (fmt : Fmt) (sparse : Bool) : State :=
  let n := tileBytesB fmt sparse
  if s.operandPast oa n then s.fault .segmentBounds (oa.setWidth 64) none
  else if s.operandOdd oa then s.fault .misalignment (oa.setWidth 64) none
  else if s.operandDenied oa n then s.fault .permission (oa.setWidth 64) none
  else (s.postTm (.wpin p (s.namedKey oa fmt sparse)) (s.pinsOf (s.namedKey oa fmt sparse)) false).done

/-! ## OPFENCE (R339) -/

/-- Stores of the issuing group to a scratchpad that are not performed. -/
def padStores (s : State) : List Nat :=
  ((openOps s.gsys).filter fun p => p.act.writes && p.accesses.any fun a => match a.place with
    | .spad _ _ => true
    | _ => false).map Pending.id

/-! ## Completion in tm (R84, R340) -/

/-- A tm entry is complete: it is marked, and counted off in order. -/
def finishTm (s : State) (gk : Nat) (p : Pending) : State :=
  let g := s.sysAt gk
  (s.setSysAt gk { g with tm := replaceOp g.tm { p with finished := true } }).countOff gk .tm

/-- An operation in tm other than one with matrix operations still to come completes, when what must come before has (R331,
R336 to R339). `a` is the array that a WPIN takes. -/
def completeTm (s : State) (gk id a : Nat) : State :=
  let g := s.sysAt gk
  match findOp g.tm id with
  | none => s
  | some p =>
      let block := (s.groupAt gk).block
      let core := coreOfKey gk
      let c := clusterOf core
      if p.finished || !g.freeOf p then s
      else
        match p.act with
        | .matrix ids =>
            if (s.liveEntries core ids).isEmpty then s.finishTm gk p else s
        | .accz first n =>
            (((List.range n).map (first + ·)).foldl (fun s x => s.accWrite core p block x 0) s).finishTm gk p
        | .accwr w => (w.foldl (fun s e => s.accWrite core p block e.1 e.2) s).finishTm gk p
        | .accrd inf _ fmt rnd tensor reads =>
            let r := s.performRead gk p inf fmt rnd tensor reads
            r.1.finishTm gk r.2
        | .wpin _ key =>
            match pinKey (s.clusterAt c) key block a with
            | some r => (s.setClusterAt c r.1).finishTm gk { p with results := [(0, if r.2 then 1 else 0)] }
            | none => s
        | .wunpin key =>
            let k := s.clusterAt c
            match arrayOf k key with
            | some i =>
                let x := Cluster.array k i
                (s.setClusterAt c (Cluster.setArray k i { x with pins := x.pins.filter (· ≠ block) })).finishTm gk p
            | none => s.finishTm gk p
        | .opfence => s.finishTm gk p
        | _ => s

end State

open State

/-- MMA (R323). -/
def execMma (r : VReg) (afmt bfmt : Fmt) (s : State) : Result :=
  s.issue (.mma r afmt bfmt) fun s => s.matrixWord r afmt bfmt false

/-- MMAS: B in the 2:4 sparse layout (R318, R323). -/
def execMmas (r : VReg) (afmt bfmt : Fmt) (s : State) : Result :=
  s.issue (.mmas r afmt bfmt) fun s => s.matrixWord r afmt bfmt true

/-- ACCALLOC (R334). -/
def execAccalloc (p : PReg) (d count : SReg) (s : State) : Result :=
  s.issue (.accalloc p d count) fun s => s.allocate p d (s.readS count).toNat

/-- ACCFREE (R335). -/
def execAccfree (first count : SReg) (s : State) : Result :=
  s.issue (.accfree first count) fun s => s.release (s.readS first) (s.readS count).toNat

/-- ACCZ (R336). -/
def execAccz (first count : SReg) (s : State) : Result :=
  s.issue (.accz first count) fun s => s.zeroWord (s.readS first) (s.readS count).toNat

/-- ACCRD_SAT (R337). -/
def execAccrdSat (d o : VReg) (fmt : Fmt) (rnd : Rnd) (s : State) : Result :=
  s.issue (.accrdSat d o fmt rnd) fun s => s.readWord false d o fmt rnd

/-- ACCRD_INF (R337). -/
def execAccrdInf (d o : VReg) (fmt : Fmt) (rnd : Rnd) (s : State) : Result :=
  s.issue (.accrdInf d o fmt rnd) fun s => s.readWord true d o fmt rnd

/-- ACCWR (R336). -/
def execAccwr (x o : VReg) (form : AccForm) (s : State) : Result :=
  s.issue (.accwr x o form) fun s => s.writeWord x o form

/-- WPIN (R338). -/
def execWpin (p : PReg) (a : SReg) (fmt : Fmt) (sparse : Bool) (s : State) : Result :=
  s.issue (.wpin p a fmt sparse) fun s => s.pinWord p (s.readS a) fmt sparse

/-- WUNPIN (R338). -/
def execWunpin (a : SReg) (fmt : Fmt) (sparse : Bool) (s : State) : Result :=
  s.issue (.wunpin a fmt sparse) fun s =>
    let key := s.namedKey (s.readS a) fmt sparse
    (s.postTm (.wunpin key) (s.pinsOf key) false).done

/-- OPFENCE (R339). -/
def execOpfence (s : State) : Result := s.issue .opfence fun s => (s.postTm .opfence s.padStores false).done

end Sys2Proof.Machine
end

