-- ==== Sys2Proof/Machine/Relays.lean ====
section
/-!
DEFINITION. Completion bitmaps (R306 to R308, R344) and relay words (R309 to R315).
-/

namespace Sys2Proof.Machine

namespace State

/-! ## Completion bitmaps (R306, R308) -/

/-- Every bit of a mask is set in a bitmap of the block (R308). -/
def bitsSet (s : State) (bm : Nat) (mask : DWord) : Bool := s.vblock.bitmaps.get bm 0 &&& mask == mask

/-- Bits of a bitmap set on the clock at hand, which a BMCLR on the same clock comes before (R306). -/
def bitsSetNow (s : State) (b : Block) (bm : Nat) : DWord :=
  let e := b.setAt.get bm (0, 0)
  if e.1 = s.now then e.2 else 0

/-- BMCLR's update of a bitmap, which comes before the bits set on its clock; the block has changed (R306, R308, R363). -/
def clearBits (s : State) (bm : Nat) (mask : DWord) : State :=
  let b := s.block
  s.setBlock { b with
    bitmaps := b.bitmaps.set bm (b.bitmaps.get bm 0 &&& ~~~ (mask &&& ~~~ s.bitsSetNow b bm)), changes := b.changes + 1 }

/-- The clocks for which a TRYW holds at most (R308). -/
def trywBound (k : BitVec 4) : Nat := 256 * 2 ^ k.toNat

/-- A hold of a bounded word has lasted for its bound. -/
def boundPassed (s : State) (n : Nat) : Bool := s.holdOf.since + n ≤ s.now

end State

open State

/-- TRYW: a blocking word with a bound (R308). -/
def execTryw (bm : BitVec 5) (mask : SReg) (p : PReg) (k : BitVec 4) (s : State) : Result :=
  s.issue (.tryw bm mask p k) fun s =>
    let ok := s.bitsSet bm.toNat (s.readPair mask)
    if ok || s.boundPassed (trywBound k) then (s.writePAll p ok).done else s.held s.holdOf

/-- BMTEST (R308). -/
def execBmtest (bm : BitVec 5) (mask : SReg) (p : PReg) (s : State) : Result :=
  s.issue (.bmtest bm mask p) fun s => (s.writePAll p (s.bitsSet bm.toNat (s.readPair mask))).done

/-- BMCLR (R308). -/
def execBmclr (bm : BitVec 5) (mask : SReg) (s : State) : Result :=
  s.issue (.bmclr bm mask) fun s => (s.clearBits bm.toNat (s.readPair mask)).done

/-! ## Relay words (R310 to R315) -/

/-- RPUSH: of a register, or of a popped baton (R310, R314). -/
def execRpush (ch : Chan) (a : SSrc) (s : State) : Result :=
  s.issue (.rpush ch a) fun s => s.scalarWord (.chan ch) [a] fun l => l.getD 0 0

/-- RPOP: a pop or a peek (R310, R311). -/
def execRpop (d : SReg) (ch : Chan) (pop : Bool) (s : State) : Result :=
  s.issue (.rpop d ch pop) fun s => s.scalarWord (.reg d) [if pop then .pop ch else .peek ch] fun l => l.getD 0 0

/-- RFREE: a release at block scope, then allowance returns (R310, R313). -/
def execRfree (d : SReg) (ch : Chan) (count : SReg) (s : State) : Result :=
  s.issue (.rfree d ch count) fun s =>
    if !s.relayOpen ch.toNat false then s.fault .permission 0 none
    else s.afterRelease fun s =>
      let k := min (s.readS count).toNat (s.vrelay ch.toNat).held
      let r := s.relayNow ch.toNat
      ((s.setRelay ch.toNat { r with held := r.held - k }).writeS d (BitVec.ofNat 32 k)).done

/-- The word that RSTAT returns (R315). -/
def Relay.status (r : Relay) : Word :=
  BitVec.ofNat 32 (r.filled + 2 ^ 8 * r.allow + 2 ^ 16 * r.held + 2 ^ 24 * r.desc.cap)

/-- RSTAT: open to every group of the block (R310, R315). -/
def execRstat (d : SReg) (ch : Chan) (s : State) : Result :=
  s.issue (.rstat d ch) fun s => (s.writeS d (s.vrelay ch.toNat).status).done

end Sys2Proof.Machine
end

