-- ==== Sys2Proof/Machine/Fetch.lean ====
section
/-!
DEFINITION. Fetching a packet (R62 to R65, R259, R346) and checking it whole before a word of it issues (R63, R68 to R70,
R81, R87).
-/

namespace Sys2Proof.Machine

/-! ## The packet check -/

/-- What the checks ask about a word of a packet. -/
def Packet.facts (p : Packet) (n : Nat) : Option Facts := (p.reading n).map Reading.facts

/-- Every word from `n` to the end of the packet is NOP. -/
def Packet.nopsFrom (p : Packet) (n : Nat) : Bool := (p.words.drop n).all (· == 0)

/-- Two lists share an element. -/
def meets [DecidableEq α] (a b : List α) : Bool := a.any fun x => b.contains x

/-- Word `n` breaks a rule of its chain against the words before it (R68, R69). -/
def Packet.badChain (p : Packet) (n : Nat) : Bool :=
  match p.facts n with
  | none => false
  | some i =>
      let before := ((List.range n).drop (p.chainStart n)).filterMap p.facts
      (i.pipe.limit ≤ (before.filter fun j => j.pipe == i.pipe).length) ||
      before.any fun j => meets j.dests i.dests || meets j.pushes i.pushes || meets j.pops i.pops

/-- A control transfer outside the last issue group, or followed by a word other than NOP (R70). -/
def Packet.badControl (p : Packet) (n : Nat) : Bool :=
  match p.facts n with
  | some i => i.control && !p.nopsFrom (p.chainEnd n + 1)
  | none => false

/-- The packet at the last index may advance sequentially (R63). -/
def Packet.runsOff (p : Packet) (pc : Nat) : Bool :=
  pc == 2 ^ 20 - 1 && !((List.range 3).filterMap p.facts).any Facts.leaves

namespace State

/-- The causes that word `n` of a packet meets, in no order, with 0x0A before all (R87). -/
def wordCause (s : State) (p : Packet) (n : Nat) : Option Cause :=
  let w := p.word n
  if (w.extractLsb' 25 6).toNat = 0x3B && s.vgroup.level = .u then some .sysAtU
  else
    let own := match decodeReading w with
      | .ok r => s.causeOf r.facts
      | .error c => some c
    [(n == 2 && chainBit w, Cause.forbiddenChain), (p.badChain n, .forbiddenChain), (p.badControl n, .forbiddenChain),
      (n == 2 && p.runsOff s.vsplit.pc.toNat, .branchTarget)].foldl
      (fun c e => if e.1 then lowerCause c (some e.2) else c) own

/-- The cause of the first offending word of a packet (R87). -/
def packetCause (s : State) (p : Packet) : Option Cause := (List.range 3).findSome? (s.wordCause p)

/-! ## Fetch -/

/-- The code base of the issuing split: TVEC.BASE for handler code, else CODE (R62, R346). -/
def codeBase (s : State) (x : Split) : Nat := if x.handler then tvecBase s.context.tvec else s.block.header.code

/-- Byte address of the packet a split fetches (R62). -/
def packetAddress (s : State) (x : Split) : Nat := s.codeBase x + 12 * x.pc.toNat

/-- A word fetched at a physical address: what the instruction cache holds for it, or the word anew, where they differ
(R14, R259). -/
def fetchWord (s : State) (pa : Nat) : Word × State :=
  let k := s.core
  let now := BitVec.ofNat 32 (s.mem.read pa 4)
  let held := (k.icache.at? pa).getD now
  if held = now || !Config.staleFetch s.tick pa then
    (now, s.setCoreAt s.cur.core { k with icache := k.icache.set pa now })
  else (held, s)

/-- How a fetch comes out. -/
inductive Fetched where
  | packet (p : Packet) (s : State)
  | stopped (s : State)

/-- The physical address of a fetched byte under the leaf its page check gave. -/
def fetchPlace (s : State) (va : Nat) : PageCheck → Nat
  | .page e level => s.physical (dieOf s.cur.core) e level va
  | _ => 0

/-- Fetch the packet of the issuing split (R62, R65): the checks of both pages, a lattice page among them (R268), then three words.
A precise fault has the packet's address, on whichever page it arises (R353; entry 42). -/
def fetchPacket (s : State) : Fetched :=
  let x := s.split
  let va := s.packetAddress x
  let at_ := BitVec.ofNat 64 va
  let check := s.checkPage s.cur.core s.block.context x.rejected
  let lo := check va .fetch
  let hi := check (va + 11) .fetch
  let checks := [(va, lo), (va + 11, hi)]
  if s.codeBase x % 64 ≠ 0 then .stopped (s.fault .misalignment at_ none)
  else if 2 ^ 60 < va + 12 then .stopped (s.fault .segmentBounds at_ none)
  else if checks.any fun e => s.missHeld s.cur.core s.block.context e.1 then .stopped s.stalled
  else
    match checks.findSome? fun e => match e.2 with
      | .fails cls => some cls
      | .page leaf _ => if s.usableLat s.block.context leaf e.1 then none else some .latticeType
      | _ => none with
    | some cls => .stopped (s.fault cls at_ none)
    | none =>
        match checks.filterMap fun e => if e.2 = .absent then some (e.1 / 65536) else none with
        | p :: rest => .stopped (s.suspend (p :: rest) 4)
        | [] =>
            let places := [va, va + 4, va + 8].map fun a => s.fetchPlace a (if a / 65536 = va / 65536 then lo else hi)
            match places.find? fun pa =>
              s.poisonedAt pa 4 || !s.frameUsable s.block.context (pa / 65536) with
            | some pa => .stopped (s.memoryKill s.block.context pa)
            | none =>
                let f0 := s.fetchWord (places.getD 0 0)
                let f1 := f0.2.fetchWord (places.getD 1 0)
                let f2 := f1.2.fetchWord (places.getD 2 0)
                .packet { w0 := f0.1, w1 := f1.1, w2 := f2.1 } f2.2

/-- The packet at hand: fetched before, or fetched and checked now (R65, R87). -/
def packetAt (s : State) : Fetched :=
  match s.split.packet with
  | some p => .packet p s
  | none =>
      match s.fetchPacket with
      | .stopped t => .stopped t
      | .packet p t =>
          match t.packetCause p with
          | some c => .stopped (t.illegal c)
          | none => .packet p (t.setSplit { t.split with packet := some p })

end State

end Sys2Proof.Machine
end

