-- ==== Sys2Proof/Machine/Splits.lean ====
section
/-!
DEFINITION. Splits between issue groups: deferred records and merges (R105), yields (R114), the arbiter's order (R113),
recoverable faults (R358), the end of a debugger's step (R375).
-/

namespace Sys2Proof.Machine

/-! ## Records and merges (R105) -/

/-- A split whose deferred record names its own resume point takes the record's lanes; a suspended split does not, nor one whose
replayed issue group has not issued yet. -/
def Split.applyRecord (x : Split) : Split :=
  match x.record with
  | some (t, h, m) =>
      if t = x.pc && h == x.handler && x.word == 0 && !x.suspended then { x with mask := x.mask ||| m, record := .none }
      else x
  | .none => x

/-- The record of a merged split; none where two records name different targets (R105). -/
def mergedRecord (a b : Split) : Option (Option (BitVec 20 × Bool × LaneMask)) :=
  match a.record, b.record with
  | none, r => some r
  | r, none => some r
  | some (t, h, m), some (u, i, n) => if t = u && h == i then some (some (t, h, m ||| n)) else none

/-- Who issues in a stopped group: none where the group is not stopped, else the split that steps, if one does (R372, R375). -/
def GroupSys.stepper (y : GroupSys) : Option (Option Nat) := y.stop.map fun t => if t.ended then none else t.step

/-- Split `n` is frozen: by a trap, or by a stop of its group in which it does not step (R105, R353, R372, R375). -/
def Split.still (step : Option (Option Nat)) (n : Nat) (x : Split) : Bool :=
  x.frozen || match step with
    | some k => k != some n
    | none => false

/-- Resume points are equal and no split waits for a replay (R105). -/
def Split.matches (a b : Split) : Bool :=
  a.pc == b.pc && a.word == b.word && a.handler == b.handler && !a.suspended && !b.suspended

/-- The pages of a drop that covers two drops: every page where both are under way (R362, R382). -/
def mergedDrop (a b : Option (Option (Nat × Nat))) : Option (Option (Nat × Nat)) :=
  match a, b with
  | some _, some _ => some .none
  | .none, d => d
  | d, .none => d

/-- The split two merge into: the union of masks, the older age, no backward branches counted (R105). The spec says no more of the
merged split: it yields where both did, its wait for an issue begins anew, and it keeps what the lower split remembers of a held
word, else what the other does (DESIGN CHOICE, entry 80). -/
def Split.merge (a b : Split) (r : Option (BitVec 20 × Bool × LaneMask)) : Split :=
  { a with mask := a.mask ||| b.mask, record := r, age := min a.age b.age, back := 0,
           issuedAt := max a.issuedAt b.issuedAt, yielded := a.yielded && b.yielded, giveWay := a.giveWay && b.giveWay,
           waits := 0, starved := a.starved || b.starved, frozen := a.frozen || b.frozen,
           hold := match a.hold with | some h => some h | .none => b.hold,
           arrivals := if a.arrivals.isEmpty then b.arrivals else a.arrivals, drop := mergedDrop a.drop b.drop,
           passBreak := a.passBreak || b.passBreak }

/-- Splits `i` and `j` of a group merged into the lower number, if they may (R105, R347). -/
def mergePair (step : Option (Option Nat)) (t : Table Split) (e : Nat × Nat) : Table Split :=
  match t.at? e.1, t.at? e.2 with
  | some a, some b =>
      if a.matches b && a.still step e.1 == b.still step e.2 then
        match mergedRecord a b with
        | some r => (t.set e.1 (a.merge b r)).erase e.2
        | none => t
      else t
  | _, _ => t

/-- Every pair of split numbers, in the order in which the model merges them; the spec gives none (DESIGN CHOICE, entry 80). -/
def splitPairs : List (Nat × Nat) := [(0, 1), (0, 2), (0, 3), (1, 2), (1, 3), (2, 3)]

/-- The splits of a group after records are applied and splits merged (R105). -/
def mergeSplits (step : Option (Option Nat)) (t : Table Split) : Table Split :=
  splitPairs.foldl (mergePair step) (t.mapVal fun _ x => x.applyRecord)

/-- The split that split `n` has merged into: the lower number with its resume point. -/
def mergedNumber (before after : Table Split) (n : Nat) : Nat :=
  match after.at? n, before.at? n with
  | some _, _ => n
  | none, some x => ((after.find? fun e => e.2.matches x).map Prod.fst).getD n
  | none, none => n

namespace State

/-- Group slots of a core that hold a group (R125). -/
def groupsOn (s : State) (core : Nat) : List Nat :=
  (s.groups.filter fun e => e.1 / 16 == core && e.2.phase != .free).map Prod.fst

/-- R105 for one group: nothing changes where no record applies and no splits merge. The split a stop names is named by its new
number (R375). -/
def mergeGroup (s : State) (gk : Nat) : State :=
  let g := s.groupAt gk
  let y := s.sysAt gk
  let t := mergeSplits y.stepper g.splits
  if t = g.splits then s
  else
    let k := s.coreAt (coreOfKey gk)
    let last := k.lastIssued.map fun e =>
      if groupKey (coreOfKey gk) e.1 = gk then (e.1, mergedNumber g.splits t e.2) else e
    let s := (s.setGroupAt gk { g with splits := t }).setCoreAt (coreOfKey gk) { k with lastIssued := last }
    match y.stop with
    | some x => s.setSysAt gk { y with stop := some { x with split := mergedNumber g.splits t x.split } }
    | none => s

/-- R105 for every group of a core, at an issue decision. -/
def mergeCore (s : State) (core : Nat) : State := (s.groupsOn core).foldl mergeGroup s

/-! ## Yields (R111, R113, R114) -/

/-- A split whose backward transfers have reached 256 yields under rule 2 of R113, and its count resets (R114). -/
def backYield (s : State) : State :=
  let x := s.split
  if 256 ≤ x.back then s.setSplit { x with back := 0, giveWay := true } else s

/-! ## Recoverable faults (R358) -/

/-- The six words of a non-monotone-store record (R284, R358). -/
def recordArgs (r : NonMonotone) : Vector DWord 6 :=
  #v[r.addr, BitVec.ofNat 64 r.lane, r.stored, r.current, r.failed.extractLsb' 0 64, r.failed.extractLsb' 64 32 |>.setWidth 64]

/-- A group that holds a recoverable fault and has no handler at U posts it as an event, and goes on (R358). -/
def posted (s : State) (r : NonMonotone) : State :=
  { (s.setSys { s.gsys with pendingFault := none }).unclaimed s.gkey r with tick := s.tick + 1 }

/-- The recoverable fault a group holds is taken by the split about to issue, at U; without a handler it is posted as an
event and the group continues (R358). -/
def takeRecoverable (s : State) (r : NonMonotone) : State :=
  let x := s.split
  if tvecValid s.context.tvec then
    (s.setSys { s.gsys with pendingFault := none }).trapEntry .nonMonotone 0 r.addr (some r.lane) x.pc.toNat x.word (recordArgs r)
  else s.posted r

/-- The recoverable fault that the issuing group takes at this boundary (R358). A REGROUP that has met its partner issues with it
first (R135). -/
def recoverableDue (s : State) : Option NonMonotone :=
  if s.group.level = .u && s.gsys.before.isNone then s.gsys.pendingFault else none

/-! ## The arbiter (R113) -/

/-- A split that may issue: not frozen, not suspended, not at a TLBINV whose drop is under way, its group live and not stopped, or
stepping this split. -/
def eligible (s : State) (gk n : Nat) (x : Split) : Bool :=
  let g := s.groupAt gk
  (g.phase == .spawned || g.phase == .attached || g.phase == .detached) && x.missing.isEmpty && x.drop.isNone &&
  !x.still (s.sysAt gk).stepper n

/-- Splits of a core that may issue: slot, number and split. -/
def candidates (s : State) (core : Nat) : List (Nat × Nat × Split) :=
  ((s.groupsOn core).map fun gk =>
    ((s.groupAt gk).splits.filter fun e => s.eligible gk e.1 e.2).map fun e => (gk % 16, e.1, e.2)).flatten

/-- A split is the only one of its core that may issue: no choice of the arbiter stands against it (R113). -/
def soleChoice (s : State) (core slot n : Nat) : Bool := (s.candidates core).all fun e => e.1 == slot && e.2.1 == n

/-- The older of two splits goes first; of one age, the lower group slot, then the lower split number (R113). -/
def olderThan (a b : Nat × Nat × Split) : Bool :=
  a.2.2.age < b.2.2.age || (a.2.2.age == b.2.2.age && (a.1 < b.1 || (a.1 == b.1 && a.2.1 < b.2.1)))

def insertByAge (a : Nat × Nat × Split) : List (Nat × Nat × Split) → List (Nat × Nat × Split)
  | [] => [a]
  | b :: rest => if olderThan a b then a :: b :: rest else b :: insertByAge a rest

def byAge (l : List (Nat × Nat × Split)) : List (Nat × Nat × Split) := l.foldr insertByAge []

/-- A split on a clock on which it does not issue: one that was ready has waited one clock more; its yields are spent (R111, R113).
For one that was not ready the bound begins again (R115). -/
def passedOver (ready : Bool) (x : Split) : Split :=
  { x with yielded := false, giveWay := false, waits := if ready then x.waits + 1 else 0, starved := ready && x.starved }

/-- Ready without issuing for 4,096 consecutive clocks of its core (R113 rule 1, R115). -/
def starving (x : Split) : Bool := x.starved || 4096 ≤ x.waits

/-- The splits of a core in the order in which the arbiter prefers them (R113): one that has yielded under R111 stands behind every
other, one that yields under R114 is not preferred for having issued last. -/
def arbiterOrder (s : State) (core : Nat) : List (Nat × Nat × Split) :=
  let l := byAge (s.candidates core)
  let starved := l.filter fun e => starving e.2.2
  let rest := l.filter fun e => !starving e.2.2
  let isLast := fun (e : Nat × Nat × Split) => (s.coreAt core).lastIssued == some (e.1, e.2.1) &&
    s.now ≤ e.2.2.issuedAt + 1 && !e.2.2.yielded && !e.2.2.giveWay
  let yields := fun (e : Nat × Nat × Split) => e.2.2.yielded
  starved ++ rest.filter isLast ++ (rest.filter fun e => !isLast e && !yields e) ++ rest.filter yields

/-! ## Debugger (R372 to R375) -/

/-- A breakpoint register armed at an address (R373). -/
def armedAt (b : DWord) (va : Nat) : Bool := b.getLsbD 63 && (b.extractLsb' 0 60).toNat == va

/-- The issuing split is about to issue word 0 of an armed packet, and not for the first time after a release (R373). -/
def atBreakpoint (s : State) : Bool :=
  let x := s.split
  s.context.dbg && x.word == 0 && !x.passBreak &&
  s.core.bkpt.toList.any fun b => armedAt b (s.packetAddress x)

/-- The end of a step: splits merge, frozen ones included, and the group is stopped with WHY 3 (R375). -/
def stepEnd (s : State) : State :=
  let before := s.group.splits
  let s := s.mergeGroup s.gkey
  let s := { s with cur := { s.cur with split := mergedNumber before s.group.splits s.cur.split } }
  { s.debugStop 3 with tick := s.tick }

/-- The stepping split has left the packet that it stepped from, or begins it again (R375). -/
def stepDone (s : State) : Bool :=
  let x := s.split
  match s.gsys.stop with
  | some st => st.step == some s.cur.split && s.last != .held && s.last != .suspended &&
      (x.word == 0 || st.packet != some (x.pc, x.handler))
  | none => false

/-- A step whose packet has been issued is over; its end is still to come (R375). -/
def stepOver (s : State) : State :=
  if s.stepDone then
    s.setSys { s.gsys with stop := s.gsys.stop.map fun t => { t with ended := true } }
  else s

/-! ## After an issue group -/

/-- NOPs at the end of a packet take no clock: the split stands at the next packet (R66). -/
def skipNops (s : State) : State :=
  let x := s.split
  match x.packet with
  | some p => if x.word ≠ 0 && p.nopsFrom x.word then s.setSplit { x with pc := x.pc + 1, word := 0, packet := none } else s
  | none => s

/-- What follows an issue group of a split that has not been held: NOPs skipped, a yield, the end of a step in sight; the
core remembers who issued and when (R66, R113, R114, R375). -/
def afterIssue (s : State) (core slot n : Nat) : State :=
  let s := if s.last = .killed then s else s.skipNops.backYield.stepOver
  s.setCoreAt core { s.coreAt core with lastIssued := some (slot, n), turnAt := some s.now }

end State

end Sys2Proof.Machine
end

