-- ==== Sys2Proof/Machine/Copies.lean ====
section
/-!
DEFINITION. Copy words: COPY and PERSIST (R292 to R298), the tensor layout record and TCOPY (R299 to R305, R343).
-/

namespace Sys2Proof

/-- The spaces of a copy (R295). -/
inductive CopySpace where
  | g | s | c | f
deriving DecidableEq, Repr

/-- Source space of a direction (R294). -/
def CopyDir.source : CopyDir → CopySpace
  | .gs | .gg | .gf => .g
  | .sg | .sc => .s
  | .cs => .c
  | .fg => .f

/-- Destination space of a direction (R294). -/
def CopyDir.dest : CopyDir → CopySpace
  | .gs | .cs => .s
  | .sg | .gg | .fg => .g
  | .sc => .c
  | .gf => .f

end Sys2Proof

namespace Sys2Proof.Machine

/-- One address in each page that a range touches: its first byte there. -/
def pageFirsts (a n : Nat) : List Nat :=
  if n = 0 then [] else
    ((List.range ((a + n - 1) / 65536 - a / 65536 + 1)).map fun k => if k = 0 then a else (a / 65536 + k) * 65536)

/-- One offset in each slot of scratchpad that a range touches: its first byte there. -/
def slotFirsts (a n : Nat) : List Nat :=
  if n = 0 then [] else
    (List.range ((a + n - 1) / slotBytes - a / slotBytes + 1)).map fun k => if k = 0 then a else (a / slotBytes + k) * slotBytes

/-- How the checks of a copy come out (R296, R304): a precise fault at an address, missing pages with what is asked of them,
a walk to wait for (R382), or a pass. -/
inductive CopyCheck where
  | fails (cls : FaultClass) (addr : Nat)
  | absent (pages : List (Nat × BitVec 5))
  | busy
  | passes
deriving DecidableEq, Repr

/-- The first check that does not pass decides. -/
def firstCheck : List CopyCheck → CopyCheck
  | [] => .passes
  | .passes :: rest => firstCheck rest
  | c :: _ => c

/-- A condition that fails with a class at an address. -/
def failIf (bad : Bool) (cls : FaultClass) (addr : Nat) : CopyCheck := if bad then .fails cls addr else .passes

/-- The 32,768 bytes that a bitmap covers end past bitmap 31 (R296, R304). -/
def pastBitmaps (bm : BitVec 5) (n : Nat) : Bool := 32 < bm.toNat + (n + 32767) / 32768

namespace State

/-! ## Ranges (R295, R296) -/

/-- Pages that addresses ask for and do not find; while a walk holds up one of them the split is not ready (R296, R382). -/
def presence (s : State) (l : List Nat) (missing : List (Nat × BitVec 5)) : CopyCheck :=
  if l.any fun a => s.missHeld s.cur.core s.block.context a then .busy else if missing = [] then .passes else .absent missing

/-- The pages that addresses ask for and do not find, with a kind. -/
def missingOf (s : State) (l : List Nat) (k : AccessKind) (kind : BitVec 5) : List (Nat × BitVec 5) :=
  (l.filter fun a => s.checkPage s.cur.core s.block.context s.split.rejected a k == .absent).map fun a =>
    (a / 65536, kind)

/-- The first of the addresses whose page lacks what is asked of it. -/
def deniedOf (s : State) (l : List Nat) (k : AccessKind) : Option Nat :=
  l.find? fun a => match s.checkPage s.cur.core s.block.context s.split.rejected a k with
    | .fails _ => true
    | _ => false

/-- The first of the addresses whose page is a lattice page (R269). -/
def latticeOf (s : State) (l : List Nat) (k : AccessKind) : Option Nat :=
  l.find? fun a => match s.checkPage s.cur.core s.block.context s.split.rejected a k with
    | .page e _ => leafLat e
    | _ => false

/-- PSIZE of a context (R295, R348). -/
def psize (s : State) (c : Nat) : Nat := ((s.flashOf c).map FlashRegion.size).getD 0

/-- A range runs past its space (R296 rows 2 and 3). -/
def pastSpace (s : State) (sp : CopySpace) (a n : Nat) : Bool :=
  match sp with
  | .g => 2 ^ 60 < a + n
  | .s => segLimit s.vsys.seg.s < a + n
  | .c => 2 ^ 24 < a + n || 3 * 2 ^ 20 < a % 2 ^ 22 + n
  | .f => s.psize s.block.context < a + n

/-- One side of a copy as a place (R295). -/
def sideOf (s : State) (sp : CopySpace) (a : Nat) : Side :=
  match sp with
  | .g => .global a
  | .s => .pad s.cur.core (segBase s.vsys.seg.s + a)
  | .c => .pad (4 * clusterOf s.cur.core + a / 2 ^ 22) (a % 2 ^ 22)
  | .f => .flash a

/-- The first offset of a cluster range in a slot that the context does not hold (R216). -/
def slotDenied (s : State) (sp : CopySpace) (a n : Nat) : Option Nat :=
  if sp = .c then
    (slotFirsts a n).find? fun x => !s.slotHeld s.block.context (4 * clusterOf s.cur.core + x / 2 ^ 22) (x % 2 ^ 22)
  else none

/-- Global pages of a side. -/
def sidePages (sp : CopySpace) (a n : Nat) : List Nat := if sp = .g then pageFirsts a n else []

/-- R296 row 7: the channel is a strict relay of another stage, or the baton is the shrink value. -/
def batonCheck (s : State) (ch : Chan) (baton : Word) : CopyCheck :=
  failIf (ch ≠ 63 && (!s.relayOpen ch.toNat true || baton == 0xFFFFFFFF)) .permission 0

/-- The checks of COPY in the order of R296. -/
def copyCheck (s : State) (dir : CopyDir) (src dst n : Nat) (bm : Option (BitVec 5)) (ch : Chan) (baton : Word) : CopyCheck :=
  let fine := fun (sp : CopySpace) => if sp = .f then 4096 else 16
  let reads := sidePages dir.source src n
  let writes := sidePages dir.dest dst n
  firstCheck [
    failIf (src % fine dir.source ≠ 0) .misalignment src,
    failIf (dst % fine dir.dest ≠ 0) .misalignment dst,
    failIf (n % max (fine dir.source) (fine dir.dest) ≠ 0) .misalignment 0,
    failIf (s.pastSpace dir.source src n) .segmentBounds src,
    failIf (s.pastSpace dir.dest dst n) .copyBounds dst,
    failIf (match bm with | some b => pastBitmaps b n | none => false) .copyBounds 0,
    s.presence (reads ++ writes) (s.missingOf reads .read 9 ++ s.missingOf writes .write 10),
    match s.deniedOf reads .read <|> s.slotDenied dir.source src n <|> s.deniedOf writes .write <|> s.slotDenied dir.dest dst n with
      | some a => .fails .permission a
      | none => .passes,
    match s.latticeOf reads .read <|> s.latticeOf writes .write with
      | some a => .fails .latticeType a
      | none => .passes,
    s.batonCheck ch baton]

/-- A word of the copy engine whose checks came out so (R59, R218, R296, R304). -/
def copyWord (s : State) (c : CopyCheck) (effect : State → State) : State :=
  match c with
  | .fails cls addr => s.fault cls (BitVec.ofNat 64 addr) none
  | .absent pages => s.suspendFor pages 0xFF
  | .busy => s.stalled
  | .passes => effect s

/-! ## The queue (R292, R293) -/

/-- A cp entry of the issuing group (R83). -/
def postCopy (s : State) (act : OpAct) : State :=
  let g := s.gsys
  let p : Pending :=
    { id := s.freshId, act, accesses := [], after := [], behind := [], results := [], failed := [], spoiled := [], spoiledPreds := [],
      mask := s.active, issued := s.now, finished := false }
  (s.setSys { g with cp := g.cp ++ [p] }).bumpId

/-- A request put at the end of the issuing core's queue. -/
def enqueue (s : State) (r : CopyRequest) : State :=
  let k := s.core
  s.setCoreAt s.cur.core { k with copies := k.copies ++ [r] }

/-- The request of an accepted COPY, whose name is that of the cp entry it counts (R295, R297). -/
def copyRequest (s : State) (dir : CopyDir) (src dst n : Nat) (bm : Option Nat) (ch : Chan) (baton : Word) : CopyRequest :=
  { id := s.freshId, block := s.group.block, context := s.block.context, source := s.sideOf dir.source src,
    dest := s.sideOf dir.dest dst, len := n, tensor := none, bm, ch, baton, entries := [(s.gkey, s.freshId)],
    after := (openOps s.gsys).map Pending.id, ready := true, started := false, pushSince := none,
    left := List.range (n / 16), accepted := s.freshId, read := [], held := [] }

/-- Some of the `n` bytes of a side lie outside the block's own state (R317, R366). -/
def sideOutside (s : State) (n : Nat) : Side → Bool
  | .global _ => true
  | .pad c off => (slotFirsts off n).any fun a => !s.block.holdsPad c a
  | .flash _ => true

/-- COPY takes effect (R292, R297). -/
def acceptCopy (s : State) (r : CopyRequest) : State :=
  let s := (s.enqueue r).postCopy (.copy r.id)
  (if s.sideOutside r.len r.dest then s.setBlock { s.block with wroteOut := true } else s).done

/-- A word that needs an entry of the core's queue stalls while all 32 are taken (R292). -/
def whenQueued (s : State) (effect : State → State) : State :=
  if 32 ≤ s.core.copies.length then s.stalled else effect s

/-- Storage writes of a context whose copy has completed (R298). -/
def storedUnits (s : State) (c : Nat) : List (Nat × Nat) :=
  match s.flashOf c with
  | some r =>
      (r.late.filter fun u => !s.cores.any fun e => e.2.copies.any fun q => q.id == u.copy).map fun u => (u.copy, u.unit)
  | none => []

/-! ## TCOPY (R299 to R305) -/

/-- The twelve registers of a slice's block (R302). -/
def sliceBlock (s : State) (a : SReg) : List Word := (List.range 12).map fun k => s.readS (a + BitVec.ofNat 6 k)

end State

/-- Register `k` of a block of words. -/
def regOf (l : List Word) (k : Nat) : Word := l.getD k 0

/-- The recorded fields of a slice: every register but SL (R303). -/
def sliceFields (l : List Word) : List Word := l.take 9 ++ l.drop 10

/-- REC (R302). -/
def recOf (l : List Word) : Nat := (pair (regOf l 0) (regOf l 1)).toNat

/-- The origin (R302). -/
def originOf (l : List Word) : List Int := (List.range 5).map fun k => (regOf l (3 + k)).toInt

/-- E0 and E1 (R302). -/
def rowElemsOf (l : List Word) : Nat := (regOf l 8).toNat % 65536
def tileRowsOf (l : List Word) : Nat := (regOf l 8).toNat / 65536

/-- FIRST and NROWS (R302). -/
def firstRowOf (l : List Word) : Nat := (regOf l 9).toNat % 65536
def rowCountOf (l : List Word) : Nat := (regOf l 9).toNat / 65536

/-- NSL and B (R302). -/
def slicesOf (l : List Word) : Nat := (regOf l 10).toNat % 64
def setsBits (l : List Word) : Bool := (regOf l 10).getLsbD 8

/-- Word `k` of a layout record (R299). -/
def recWord (l : List DWord) (k : Nat) : DWord := l.getD k 0

/-- The format codes of R184. -/
def fmtOfCode (c : Nat) : Fmt :=
  [Fmt.i8, .e4m3, .e5m2, .e3m2, .e2m3, .e2m1, .d2p8, .bf16, .f16, .f32, .f64, .i16, .i32, .i64, .sc12].getD c .reserved

/-- FMT and RANK of a record (R299). -/
def recFmt (l : List DWord) : Fmt := fmtOfCode ((recWord l 0).extractLsb' 60 4).toNat
def recRank (l : List DWord) : Nat := ((recWord l 3).extractLsb' 24 3).toNat

/-- Bytes of a packed row, RB (R302). -/
def rowBytesOf (f : Fmt) (elems : Nat) : Nat := 4 * ((elems * f.element + 31) / 32)

/-- The tile that a block of registers and a record describe (R299, R302). -/
def tensorOf (l : List Word) (r : List DWord) (rows : List Nat) : TensorCopy :=
  { base := ((recWord r 0).extractLsb' 0 60).toNat
    fmt := recFmt r
    dims := [(recWord r 1).lo.toNat, (recWord r 1).hi.toNat, (recWord r 2).lo.toNat, (recWord r 2).hi.toNat,
             ((recWord r 3).extractLsb' 0 24).toNat]
    rank := recRank r
    fill := (recWord r 3).hi
    strides := (List.range 4).map fun k => ((recWord r (4 + k)).extractLsb' 0 40).toNat
    origin := originOf l
    rowElems := rowElemsOf l
    rowBytes := rowBytesOf (recFmt r) (rowElemsOf l)
    rows
    tileRows := tileRowsOf l }

/-- The bytes of a row that elements inside the tensor take, as a range (R304 row 9). -/
def TensorCopy.rowRange (t : TensorCopy) (row : Nat) : Option (Nat × Nat) :=
  let o := t.origin.getD 0 0
  let lo := max 0 o
  let hi := min (o + t.rowElems) (t.dims.getD 0 0 : Nat)
  if t.rowInside row && lo < hi then
    let w := t.fmt.element
    let first := t.rowBase row + w * lo.toNat / 8
    some (first, t.rowBase row + (w * hi.toNat - 1) / 8 + 1 - first)
  else none

/-- One address in each source page of the row set (R304 row 9). -/
def TensorCopy.pages (t : TensorCopy) : List Nat :=
  (t.rows.map fun row => match t.rowRange row with
    | some (a, n) => pageFirsts a n
    | none => []).flatten

/-- The rows of row ranges, each once (R303). -/
def rowSet (l : List (Nat × Nat)) : List Nat :=
  State.distinct ((l.map fun e => (List.range e.2).map (e.1 + ·)).flatten)

namespace State

/-- Row 1 of R304, and the end of the address space, which the table leaves out (entry 15). -/
def recordCheck (s : State) (a : Nat) (first : Bool) : CopyCheck :=
  firstCheck (failIf (a % 64 ≠ 0) .misalignment a ::
    if first then [
      failIf (2 ^ 60 < a + 64) .segmentBounds a,
      s.presence [a] (s.missingOf [a] .read 9),
      failIf (s.deniedOf [a] .read).isSome .permission a,
      failIf (s.latticeOf [a] .read).isSome .latticeType a]
    else [])

/-- The record at an address as the engine reads it: eight doublewords; what a peer holds is undefined here. -/
def readRecord (s : State) (a : Nat) : List DWord :=
  match s.checkPage s.cur.core s.block.context s.split.rejected a .read with
  | .page e level =>
      match s.placeOf e level a with
      | .mem pa => (List.range 8).map fun k => BitVec.ofNat 64 (s.mem.read (pa + 8 * k) 8)
      | _ => (List.range 8).map fun k =>
          pair (Config.undefined s.tick (2 ^ 41 + 2 * k)) (Config.undefined s.tick (2 ^ 41 + 2 * k + 1))
  | _ => []

/-- Rows 5 and 6 of R304 for a first slice. -/
def tileCheck (s : State) (l : List Word) (r : List DWord) (bm : BitVec 5) : CopyCheck :=
  let dst := (regOf l 2).toNat
  let f := recFmt r
  let w := f.element
  let bytes := tileRowsOf l * rowBytesOf f (rowElemsOf l)
  let step := if w = 6 then 4 else if w = 4 then 2 else 1
  firstCheck [
    failIf (dst % 4 ≠ 0) .misalignment dst,
    failIf ((originOf l).getD 0 0 % step ≠ 0 || rowElemsOf l % step ≠ 0) .misalignment 0,
    failIf (f == .reserved || recRank r = 0 || 5 < recRank r || slicesOf l = 0 || (regOf l 10).toNat / 512 ≠ 0 ||
      ((regOf l 10).extractLsb' 6 2).toNat ≠ 0 || rowElemsOf l = 0 || tileRowsOf l = 0) .copyBounds 0,
    failIf (segLimit s.vsys.seg.s < dst + bytes) .copyBounds dst,
    failIf (setsBits l && pastBitmaps bm bytes) .copyBounds 0]

/-- Rows 8 to 12 of R304. -/
def sliceCheck (s : State) (l : List Word) (t : TensorCopy) (final : Bool) (ch : Chan) : CopyCheck :=
  let pages := t.pages
  firstCheck (failIf (tileRowsOf l < firstRowOf l + rowCountOf l) .copyBounds 0 ::
    (if final then [
      s.presence (pages.filter (· < 2 ^ 60)) (s.missingOf (pages.filter (· < 2 ^ 60)) .read 9),
      match (pages.find? fun a => 2 ^ 60 ≤ a || (s.deniedOf [a] .read).isSome) with
        | some a => .fails .permission a
        | none => .passes,
      match s.latticeOf pages .read with
        | some a => .fails .latticeType a
        | none => .passes]
    else []) ++ [s.batonCheck ch (regOf l 11)])

/-- A collective copy as its slices so far describe it. -/
def gatherTensor (l : List Word) (g : Gather) : TensorCopy := tensorOf l g.record (rowSet g.rows)

/-- The request of a collective copy, replaced in the queue; a started one stands last, in order of acceptance (R292). -/
def renewRequest (s : State) (r : CopyRequest) : State :=
  let k := s.core
  let rest := k.copies.filter (·.id != r.id)
  s.setCoreAt s.cur.core { k with
    copies := if r.ready then rest ++ [r] else k.copies.map fun q => if q.id == r.id then r else q }

/-- A slice takes effect: it joins its copy, and the final slice starts it; groups that have ended and waited for the start
leave their block (R134, R303, R305). -/
def acceptSlice (s : State) (l : List Word) (id : Nat) (g : Gather) (r : CopyRequest) : State :=
  let n := s.freshId
  let s := s.postCopy (.copy r.id)
  let g := { g with slices := g.slices ++ [(s.gkey, n)] }
  let r := { r with entries := r.entries ++ [(s.gkey, n)], after := r.after ++ (openOps s.gsys).map Pending.id }
  let b := s.block
  if g.slices.length = slicesOf l then
    let t := gatherTensor l g
    let s := s.setBlock { b with gathers := b.gathers.erase id }
    let s := s.renewRequest { r with tensor := some t, len := t.tileRows * t.rowBytes, ready := true, left := t.units, accepted := n }
    (s.leaveEnded s.group.block).done
  else
    let s := s.setBlock { b with gathers := b.gathers.set id g }
    (s.renewRequest r).done

/-- A later slice (R303, R304). -/
def laterSlice (s : State) (l : List Word) (id : Nat) (bm : BitVec 5) (ch : Chan) (g : Gather) : State :=
  let h := { g with rows := g.rows ++ [(firstRowOf l, rowCountOf l)] }
  let same := g.fields == sliceFields l && g.bm == bm && g.ch == ch
  let final := g.slices.length + 1 = slicesOf l
  match firstCheck [s.recordCheck (recOf l) false, failIf (!same) .permission 0, s.sliceCheck l (gatherTensor l h) final ch] with
  | .passes =>
      match s.core.copies.find? (·.id == g.request) with
      | some r => s.acceptSlice l id h r
      | none => s.stalled
  | c => s.copyWord c fun s => s

/-- A first slice whose record has been read (R303, R304). -/
def firstSlice (s : State) (l : List Word) (id : Nat) (bm : BitVec 5) (ch : Chan) (rec_ : List DWord) : State :=
  let g : Gather :=
    { request := s.freshId, fields := sliceFields l, record := rec_, bm, ch, rows := [(firstRowOf l, rowCountOf l)],
      slices := [] }
  let t := gatherTensor l g
  s.copyWord (firstCheck [s.tileCheck l rec_ bm, s.sliceCheck l t (slicesOf l = 1) ch]) fun s =>
    let r : CopyRequest :=
      { id := s.freshId, block := s.group.block, context := s.block.context, source := .global 0,
        dest := .pad s.cur.core (segBase s.vsys.seg.s + (regOf l 2).toNat), len := 0, tensor := none,
        bm := if setsBits l then some bm.toNat else none, ch, baton := regOf l 11, entries := [], after := [],
        ready := false, started := false, pushSince := none, left := [], accepted := s.freshId, read := [], held := [] }
    (s.enqueue r).bumpId.acceptSlice l id g r

/-- TCOPY (R292, R303, R304). The record is read after the group's earlier accesses have been performed (R255): at its home where
its page is a peer's, a read that the port guard may drop (R219, R385). -/
def sliceWord (s : State) (l : List Word) (id : Nat) (bm : BitVec 5) (ch : Chan) : State :=
  match s.vblock.gathers.at? id with
  | some g => s.laterSlice l id bm ch g
  | none =>
      s.whenQueued fun s =>
        s.copyWord (s.recordCheck (recOf l) true) fun s =>
          s.afterRelease fun t =>
            match t.engineHazard t.cur.core t.block.context (recOf l) 64 .read with
            | some h => t.hazardKill t.block.context h
            | none =>
                (t.engineAsk t.cur.core t.block.context (recOf l) 64 t.freshId).firstSlice l id bm ch (t.readRecord (recOf l))

end State

open State

/-- COPY (R292, R294 to R297). -/
def execCopy (block : SReg) (dir : CopyDir) (bm : BitVec 5) (setBits : Bool) (ch : Chan) (s : State) : Result :=
  s.issue (.copy block dir bm setBits ch) fun s =>
    let src := (s.readPair block).toNat
    let dst := (s.readPair (block + 2)).toNat
    let n := (s.readS (block + 4)).toNat
    let baton := s.readS (block + 5)
    let bits := if setBits then some bm else none
    s.whenQueued fun s =>
      s.copyWord (s.copyCheck dir src dst n bits ch baton) fun s =>
        s.acceptCopy (s.copyRequest dir src dst n (bits.map BitVec.toNat) ch baton)

/-- PERSIST (R298). -/
def execPersist (s : State) : Result :=
  s.issue .persist fun s => (s.postCopy (.persist (s.storedUnits s.block.context))).done

/-- TCOPY (R301 to R305). -/
def execTcopy (block : SReg) (id : BitVec 4) (bm : BitVec 5) (ch : Chan) (s : State) : Result :=
  s.issue (.tcopy block id bm ch) fun s => s.sliceWord (s.sliceBlock block) id.toNat bm ch

end Sys2Proof.Machine
end

