-- ==== Sys2Proof/Machine/System.lean ====
section
/-!
DEFINITION. System words: RFT (R355), CSRR and CSRW (R233, R348, R349, R360, R373 to R377), SEGLD and SEGRD (R361), TLBINV
(R260, R362), IDLE (R363).
-/

namespace Sys2Proof.Machine

/-! ## Reading registers (R348, R349) -/

/-- tstat (R349). -/
def tstatOf (g : Group) (y : GroupSys) : DWord :=
  BitVec.ofNat 64 ((if g.level = .s then 1 else 0) + (if y.pendingFault.isSome then 2 else 0) + (if y.csr.lost then 4 else 0))

namespace State

/-- cflags (R348, R389). -/
def cflagsOf (s : State) (c : Nat) : DWord := BitVec.ofNat 64 ((s.contextAt c).dbg.toNat + 2 * (s.sealedOf c).toNat)

/-- Groups may reach the core registers: no debugger is there, or it has released them (R348, R377). -/
def coreOpen (x : Context) : Bool := !x.dbg || !x.dbgHeld

/-- A core register (R373, R374). GO is never read. -/
def coreCsr (k : CoreState) (n : Nat) : DWord :=
  if n < 0x24 then k.bkpt.toArray.getD (n - 0x20) 0 else if n = 0x24 then k.dctl else k.dstat

/-- The value of a control and status register for the issuing group (R348). -/
def csrValue (s : State) (n : Nat) : DWord :=
  let y := s.vsys
  let x := s.vcontext
  if n = 0x00 then x.tvec
  else if n = 0x01 then tstatOf s.vgroup y
  else if n = 0x02 then y.csr.epc
  else if n = 0x03 then y.csr.ecause
  else if n = 0x04 then y.csr.eaddr
  else if n = 0x05 then y.csr.elane
  else if 0x08 ≤ n && n ≤ 0x0D then y.csr.earg.toArray.getD (n - 0x08) 0
  else if 0x0E ≤ n && n ≤ 0x11 then y.csr.ssave.toArray.getD (n - 0x0E) 0
  else if n = 0x12 then BitVec.ofNat 64 (s.psize s.block.context)
  else if n = 0x13 then BitVec.ofNat 64 s.block.context
  else if n = 0x14 then s.cflagsOf s.block.context
  else if n = 0x15 then x.pmiss
  else if 0x20 ≤ n && n ≤ 0x25 then if coreOpen x then coreCsr s.core n else 0
  else if 0x40 ≤ n && n ≤ 0x7F then (x.windows.get ((n - 0x40) / 4) 0).extractLsb' (64 * (n % 4)) 64
  else if 0x80 ≤ n && n ≤ 0x9F then (x.regions.get ((n - 0x80) / 2) 0).extractLsb' (64 * (n % 2)) 64
  else 0

/-! ## Writing registers (R233, R349, R360) -/

/-- What a write to tvec stores (R349). -/
def tvecStored (v : DWord) : DWord :=
  let base := v.extractLsb' 0 60
  if v.getLsbD 63 && base.toNat % 64 = 0 then base.setWidth 64 ||| 0x8000000000000000 else base.setWidth 64

/-- What a write to epc stores: SPLIT stays (R349). -/
def epcStored (old v : DWord) : DWord :=
  let w := (v.extractLsb' 21 2).toNat
  epcOf ((old.extractLsb' 23 2).toNat) 0 (if w = 3 then 0 else w) ||| (v.extractLsb' 0 21).setWidth 64

/-- What a write to a breakpoint stores (R373). -/
def bkptStored (v : DWord) : DWord := v &&& 0x8FFFFFFFFFFFFFFF

/-- What a write to dctl stores (R374). -/
def dctlStored (v : DWord) : DWord := v &&& 0xFF

/-- The reserved bits of a reduction window read as zero (R233). -/
def windowBits (w : BitVec 256) : BitVec 256 :=
  w &&& (BitVec.ofNat 256 (2 ^ 62 - 1) ||| BitVec.ofNat 256 ((2 ^ 45 - 1) * 2 ^ 64) |||
    BitVec.ofNat 256 ((2 ^ 64 - 1) * 2 ^ 112) ||| BitVec.ofNat 256 ((2 ^ 60 - 1) * 2 ^ 192))

/-- The home's range is wholly mapped writable in the context (R233). -/
def mappedWritable (s : State) (core context a n : Nat) : Bool :=
  (pageFirsts a n).all fun va => match s.checkPage core context [] va .write with
    | .page _ _ => true
    | _ => false

/-- A window register's fields keep the rules of R233. -/
def windowFine (s : State) (core context : Nat) (w : BitVec 256) : Bool :=
  winBase w % 128 = 0 && winSize w % 128 = 0 && winBase w + winSize w ≤ 2 ^ 60 && (winOp w ≤ 15 || winOp w = 20) &&
  2 ≤ winContrib w && (!winSelf w || s.mappedWritable core context (winBase w) (winSize w))

/-- A word of a reduction window written: V is stored as 0 where a check fails (R233, R348). -/
def writeWindow (s : State) (core context n i : Nat) (v : DWord) : State :=
  let x := s.contextAt context
  let w := x.windows.get n 0
  let mask := BitVec.ofNat 256 ((2 ^ 64 - 1) * 2 ^ (64 * i))
  let w := windowBits ((w &&& ~~~ mask) ||| (v.setWidth 256 <<< (64 * i)))
  let w := if s.windowFine core context w then w else w &&& ~~~ (BitVec.ofNat 256 (2 ^ 60))
  s.setContextAt context { x with windows := x.windows.set n w }

/-- tvec of a context written (R349). -/
def writeTvec (s : State) (context : Nat) (v : DWord) : State :=
  s.setContextAt context { s.contextAt context with tvec := tvecStored v }

/-- epc of a group written (R349). -/
def writeEpc (s : State) (gk : Nat) (v : DWord) : State :=
  let y := s.sysAt gk
  s.setSysAt gk { y with csr := { y.csr with epc := epcStored y.csr.epc v } }

/-- ssave of a group written (R348). -/
def writeSsave (s : State) (gk k : Nat) (v : DWord) : State :=
  let y := s.sysAt gk
  s.setSysAt gk { y with csr := { y.csr with ssave := y.csr.ssave.setIfInBounds k v } }

/-! ## The debugger's releases (R374 to R376) -/

/-- A split of a released group: an IDLE is over (R363). -/
def wakened (x : Split) : Split := { x with hold := x.hold.map fun h => { h with changes := none } }

/-- GO with STEP 0: the whole group is released (R375). -/
def goRelease (s : State) (core slot : Nat) : State :=
  let gk := groupKey core slot
  let y := s.sysAt gk
  match y.stop with
  | some t =>
      let g := s.groupAt gk
      let s := s.setGroupAt gk { g with splits := g.splits.mapVal fun _ x => wakened x }
      (s.setSysAt gk { y with stop := none }).markStopped core
  | none => s

/-- A stop in which a split, or the one that stopped, has been told to step from its packet (R375). -/
def Stop.stepping (t : Stop) (g : Group) (split : Option Nat) : Stop :=
  let n := split.getD t.split
  let x := g.splitAt n
  { t with step := some n, packet := some (x.pc, x.handler), ended := false }

/-- A step is asked of a group that has been saved: it takes effect after the restore (R376). -/
def stepSaved (s : State) (gk : Nat) (split : Option Nat) : State :=
  let ask := fun (e : Nat × Group × GroupSys) =>
    if e.1 = gk then (e.1, e.2.1, { e.2.2 with stop := e.2.2.stop.map fun t => Stop.stepping t e.2.1 split }) else e
  { s with firm := s.firm.mapVal fun _ f =>
    { f with images := f.images.map fun i => if i.saved then { i with groups := i.groups.map ask } else i } }

/-- GO with STEP 1: one split of a stopped group may issue its packet (R375); `split` is none for the one that stopped. -/
def goStep (s : State) (core slot : Nat) (split : Option Nat) : State :=
  let gk := groupKey core slot
  let y := s.sysAt gk
  let g := s.groupAt gk
  match y.stop with
  | some t =>
      let n := split.getD t.split
      if g.splits.at? n = none then s
      else
        let s := s.setGroupAt gk { g with splits := g.splits.mapVal fun m x => if m = n then wakened x else x }
        (s.setSysAt gk { y with stop := some (Stop.stepping t g split) }).markStopped core
  | none => if g.phase = .free then s.stepSaved gk split else s

/-- A write to dctl, with what its GO does (R374, R375). -/
def writeDctl (s : State) (core : Nat) (v : DWord) : State :=
  let s := s.setCoreAt core { s.coreAt core with dctl := dctlStored v }
  let slot := (v.extractLsb' 0 4).toNat
  if !v.getLsbD 8 then s
  else if v.getLsbD 7 then s.goStep core slot (if v.getLsbD 6 then none else some (v.extractLsb' 4 2).toNat)
  else s.goRelease core slot

/-- A write to a core register (R373, R374). -/
def writeCore (s : State) (core n : Nat) (v : DWord) : State :=
  let k := s.coreAt core
  if n < 0x24 then s.setCoreAt core { k with bkpt := k.bkpt.setIfInBounds (n - 0x20) (bkptStored v) }
  else if n = 0x24 then s.writeDctl core v
  else s

/-- CSRW's effect (R348, R360). -/
def writeCsr (s : State) (n : Nat) (v : DWord) : State :=
  let c := s.block.context
  if n = 0x00 then s.writeTvec c v
  else if n = 0x02 then s.writeEpc s.gkey v
  else if 0x0E ≤ n && n ≤ 0x11 then s.writeSsave s.gkey (n - 0x0E) v
  else if 0x20 ≤ n && n ≤ 0x25 then if coreOpen s.vcontext then s.writeCore s.cur.core n v else s
  else if 0x40 ≤ n && n ≤ 0x7F then s.writeWindow s.cur.core c ((n - 0x40) / 4) (n % 4) v
  else s

/-! ## RFT (R355) -/

/-- A live split other than the issuer is not frozen (R355). -/
def otherRuns (s : State) : Bool := s.vgroup.splits.any fun e => e.1 != s.cur.split && !e.2.frozen

/-- RFT.KILL's record: the cause that the handler took (R355, R356). -/
def killByHandler (s : State) : State :=
  let c := s.vsys.csr
  s.killWith s.block.context
    (s.eventHere 0x01 (c.ecause.extractLsb' 0 8).toNat (c.ecause.extractLsb' 8 8).toNat c.eaddr
      (c.elane.extractLsb' 0 7).toNat)

/-- RFT's cases in their order (R355). -/
def returnFromTrap (s : State) (kill : Bool) : State :=
  if 2 ^ 20 ≤ epcPc s.vsys.csr.epc then s.illegalHere .branchTarget
  else if kill then s.killByHandler
  else if s.otherRuns then s.illegalHere .forbiddenChain
  else s.trapReturn

/-! ## Segments (R361) -/

/-- A segment register of a group. -/
def segOf (x : Segments) : Seg → QWord
  | .g => x.g | .s => x.s | .c => x.c | .a => x.a | .p => x.p

def segPut (x : Segments) (q : QWord) : Seg → Segments
  | .g => { x with g := q } | .s => { x with s := q } | .c => { x with c := q } | .a => { x with a := q }
  | .p => { x with p := q }

/-- A range inside another. -/
def segInside (q outer : QWord) : Bool :=
  segBase outer ≤ segBase q && segBase q + segLimit q ≤ segBase outer + segLimit outer

/-- The values that SEGLD accepts (R361). -/
def segAccepts (attach : Segments) (seg : Seg) (q : QWord) : Bool :=
  match seg with
  | .g => q == attach.g
  | .c => q == attach.c
  | .s => segInside q attach.s && segBase q % 4 = 0
  | .a => segInside q attach.a && segBase q % 1024 = 0 && segLimit q % 1024 = 0
  | .p => segBase q % 16 = 0 && segLimit q % 16 = 0 && segBase q + 96 * segLimit q ≤ 2 ^ 60

/-! ## TLBINV (R260, R362) -/

end State

namespace State

/-- An access of a context that may have used one of the entries is still to be performed, by a group or by a copy whose pages were
translated at its issue: one within 1 GiB, the size of the largest page, of a named page (R260, R296). -/
def usesEntries (s : State) (context : Nat) (pages : Option (Nat × Nat)) : Bool :=
  let named := fun (va : Nat) => match pages with
    | some (first, n) => 0 < n && first / 16384 ≤ va / 2 ^ 30 && va / 2 ^ 30 ≤ (first + n - 1) / 16384
    | none => true
  (s.groups.any fun e => (s.blockAt e.2.block).context == context &&
    (openOps (s.sysAt e.1)).any fun p => p.accesses.any fun a => match a.place with
      | .spad _ _ => false
      | _ => named a.va) ||
  s.cores.any fun e => e.2.copies.any fun r => r.context == context && r.touches named

/-- TLBINV issues; its split issues no more until the drop is complete (R247, R362). A count of 0 drops nothing. -/
def invalidate (s : State) (pages : Option (Nat × Nat)) : State :=
  match pages with
  | some (_, 0) => s.done
  | _ => s.done.setSplit { s.done.split with drop := some pages }

/-- The drop that a split's TLBINV has begun is complete: the entries are gone, the split goes on (R260, R362). -/
def endDrop (s : State) (gk n : Nat) : State :=
  let g := s.groupAt gk
  match (g.splitAt n).drop with
  | some pages =>
      (s.dropEntries (s.blockAt g.block).context pages).setGroupAt gk
        { g with splits := g.splits.set n { g.splitAt n with drop := none } }
  | none => s

/-- The drop of a TLBINV completes once every access that may have used the old entries has been performed (R260, R362). -/
def completeDrop (s : State) (gk n : Nat) : State :=
  let g := s.groupAt gk
  match (g.splitAt n).drop with
  | some pages => if s.usesEntries (s.blockAt g.block).context pages then s else s.endDrop gk n
  | none => s

/-! ## IDLE (R363) -/

/-- An IDLE ends: its bound has passed, a recoverable fault is posted, a request arrives or the block changes (R363). A fault that is
pending when IDLE issues ends it at once: the spec does not say whether only a later one does (DESIGN CHOICE, entry 103). -/
def idleOver (s : State) (k : BitVec 4) : Bool :=
  s.holdOf.since + 256 * 2 ^ k.toNat ≤ s.now || s.gsys.pendingFault.isSome || s.holdOf.changes != some s.block.changes

end State

open State

/-- RFT (R355). -/
def execRft (s : State) : Result := s.issue .rft fun s => s.returnFromTrap false

/-- RFT_KILL (R355). -/
def execRftKill (s : State) : Result := s.issue .rftKill fun s => s.returnFromTrap true

/-- SEGLD (R361). -/
def execSegld (seg : Seg) (r : SReg) (s : State) : Result :=
  s.issueSys (.segld seg r) fun s =>
    let q : QWord := s.readPair (r + 2) ++ s.readPair r
    let y := s.gsys
    if segAccepts y.segAttach seg q then (s.setSys { y with seg := segPut y.seg q seg }).done
    else s.fault .permission 0 none

/-- SEGRD (R361). -/
def execSegrd (seg : Seg) (r : SReg) (s : State) : Result :=
  s.issueSys (.segrd seg r) fun s =>
    let q := segOf s.vsys.seg seg
    ((s.writePair r (q.extractLsb' 0 64)).writePair (r + 2) (q.extractLsb' 64 64)).done

/-- CSRR (R348, R360). -/
def execCsrr (d : SReg) (csr : BitVec 12) (s : State) : Result :=
  s.issueSys (.csrr d csr) fun s => (s.writePair d (s.csrValue csr.toNat)).done

/-- CSRW (R348, R360). -/
def execCsrw (a : SReg) (csr : BitVec 12) (s : State) : Result :=
  s.issueSys (.csrw a csr) fun s => (s.writeCsr csr.toNat (s.readPair a)).done

/-- TLBINV: the pages from the one that holds an address on (R362). -/
def execTlbinv (base count : SReg) (s : State) : Result :=
  s.issueSys (.tlbinv base count) fun s =>
    s.invalidate (some ((s.readPair base).toNat / 65536, (s.readS count).toNat))

/-- TLBINV_ALL (R362). -/
def execTlbinvAll (s : State) : Result := s.issue .tlbinvAll fun s => s.invalidate none

/-- IDLE (R363). -/
def execIdle (k : BitVec 4) (s : State) : Result :=
  s.issueSys (.idle k) fun s => if s.idleOver k then s.done else s.held s.holdOf

end Sys2Proof.Machine
end

