-- ==== Sys2Proof/Machine/CoreEvents.lean ====
section
/-!
DEFINITION. Events of one core: writes of its registers (R348, R349), the debugger's releases (R375), fetches (R65), the
arbiter's marks (R113, R114), completion of counted operations (R84), recoverable faults (R358), the ends of held words
(R308, R311, R362, R363) and of an LTRY (R281), the hot spare (R371).
-/

namespace Sys2Proof.Machine

/-- The state that a result goes on with. -/
def stateOf (s : State) : Result → State
  | .next t => t
  | _ => s

namespace State

/-- An event: its effect where it can happen, else nothing. Who issues stays as it was, and the words that follow meet new
undefined values (R3). -/
def event (s : State) (enabled : Bool) (effect : State → State) : Result :=
  .next (if enabled then
    let t := effect s
    { t with cur := s.cur, tick := t.tick + 1 }
  else s)

/-- The state in which a split of a core acts. -/
def onSplit (s : State) (core slot n : Nat) : State := { s with cur := { core, slot, split := n } }

/-- A split that may issue now (R113, R371). -/
def mayAct (s : State) (core slot n : Nat) : Bool :=
  let gk := groupKey core slot
  !(s.coreAt core).paused &&
  match (s.groupAt gk).splits.at? n with
  | some x => s.eligible gk n x
  | none => false

/-! ## Fetch (R65, R373) -/

/-- The issuing split fetches its packet, unless it meets a breakpoint. A step whose split faults is over (R375). -/
def fetchNow (s : State) : State :=
  if s.atBreakpoint then s.debugStop 2
  else match s.packetAt with
    | .stopped t => if t.last = .trapped then t.stepOver else t
    | .packet _ t => t

/-- The instruction cache of a core takes in a packet ahead of the issuing split: a later fetch may find these words there, whatever has
been written since (R14, R259; entry 33). -/
def fetchAhead (s : State) (ahead : Nat) : State :=
  match (s.setSplit { s.split with pc := s.split.pc + BitVec.ofNat 20 ahead }).fetchPacket with
  | .packet _ t => { s with cores := t.cores }
  | .stopped _ => s

/-! ## Held words (R72) -/

/-- The words of the issue group at which the issuing split stands. -/
def heldWords (s : State) : List Reading :=
  match s.split.packet with
  | some p => ((List.range (p.chainEnd s.split.word + 1)).drop s.split.word).filterMap p.reading
  | none => []

/-- The issuing split is to be chosen first when it is ready (R113). -/
def chosenFirst (s : State) : State := s.setSplit { s.split with starved := true }

/-- The splits of a core but for one have not been ready on a clock (R113, R115). -/
def othersIdle (s : State) (core slot n : Nat) : State :=
  (s.groupsOn core).foldl (fun s gk =>
    let g := s.groupAt gk
    s.setGroupAt gk { g with splits := g.splits.mapVal fun m x => if gk % 16 = slot && m = n then x else passedOver false x }) s

/-- A held word whose wait is over issues; one that shares its issue group with others issues at its core's next clock. -/
def runHeld (s : State) : State :=
  let run := fun (r : Result) =>
    let t := stateOf s r
    if t.last = .held then s
    else (t.afterIssue s.cur.core s.cur.slot s.cur.split).othersIdle s.cur.core s.cur.slot s.cur.split
  match s.heldWords with
  | [.plain (.rpop d c p)] => run (execRpop d c p s)
  | [.plain (.tryw bm m p k)] => run (execTryw bm m p k s)
  | [.sys (.idle k)] => run (execIdle k s)
  | _ => s

/-- The issuing split is held by a pop of an empty relay, and its group's shrink flag is set (R311). -/
def shrinkHeld (s : State) : Bool :=
  s.group.shrink && match s.split.hold with
  | some h => h.chans.any fun e => !e.2 && (s.relayNow e.1).filled == 0
  | none => false

/-- The issuing split is held, and a word of its issue group has a bound that has passed. -/
def boundOver (s : State) (bound : Reading → Option Nat) : Bool :=
  match s.split.hold with
  | some h => s.heldWords.any fun i => match bound i with
    | some n => h.since + n ≤ s.now
    | none => false
  | none => false

/-- The issuing split may go on, with no recoverable fault to take first. -/
def free (s : State) : Bool := s.mayAct s.cur.core s.cur.slot s.cur.split && s.recoverableDue == none

/-- The core has not issued on this clock (R66). -/
def clockLeft (s : State) : Bool := s.core.turnAt != some s.now

/-- An event in which the held word of a split goes on, on a clock on which no other split of the core may issue: otherwise the arbiter
chooses (R113). -/
def heldEvent (s : State) (core slot n : Nat) (due : State → Bool) : Result :=
  s.event ((s.onSplit core slot n).free && (s.onSplit core slot n).clockLeft && s.soleChoice core slot n && due (s.onSplit core slot n)) fun s =>
    (s.onSplit core slot n).runHeld

end State

/-- The bound of a TRYW (R308). -/
def trywOf : Reading → Option Nat
  | .plain (.tryw _ _ _ k) => some (State.trywBound k)
  | _ => none

/-- The bound of an IDLE (R363). -/
def idleOf : Reading → Option Nat
  | .sys (.idle k) => some (256 * 2 ^ k.toNat)
  | _ => none

namespace State

/-- A word that issues at once whatever stands in the machine: no word of R72, no access, and no WAIT whose bounds are not met (R113). -/
def issuesAtOnce (s : State) (i : Reading) : Bool :=
  let f := i.facts
  f.chans.isEmpty && f.pipe != .m && f.pipe != .e && match i with
    | .plain (.wait ld st cp tm) => s.waitOver ld.toNat st.toNat cp.toNat tm.toNat
    | .sys (.idle _) => false
    | _ => true

/-- The issuing split is about to issue: its packet is fetched, and no word of its issue group can wait. -/
def aboutToIssue (s : State) : Bool := s.split.packet.isSome && s.heldWords.all s.issuesAtOnce

/-! ## The hot spare (R371) -/

/-- Contexts with a block on a core. -/
def contextsOn (s : State) (core : Nat) : List Nat :=
  distinct ((s.blocks.filter fun e => e.2.core == core).map fun e => e.2.context)

/-- The record of a takeover for a context (R356, R371). -/
def takeoverRecord (s : State) (core code context : Nat) : EventRecord :=
  { kind := 0x05, cls := code, sub := 0, context, loc := 0, vdie := vdieOf (s.contextAt context) (dieOf core),
    core := core % 64, slot := 0, split := 0, addr := 0, lane := 0 }

/-- A record for every context with a block on a core. -/
def tellContexts (s : State) (core code : Nat) : State :=
  (s.contextsOn core).foldl (fun s c => s.postEvent c (s.takeoverRecord core code c)) s

/-- The log entry of a spare used, or of none left (R371, R441). -/
def spareLog (s : State) (core : Nat) : State :=
  s.logError { type := 5, die := dieOf core, unit := core % 64, context := 0, addr := 0, time := s.micros, count := 0 }

/-- The core's arrays have corrected 64 errors within one second (R438). -/
def pastThreshold (s : State) (core : Nat) : Bool :=
  64 ≤ ((s.coreAt core).corrected.filter fun t => s.now ≤ t + 2500000000).length

/-- The die's one spare core takes the core's number, and the core pauses; a die whose spare is in use leaves the core in
service (R371). -/
def takeover (s : State) (core : Nat) : State :=
  let d := dieOf core
  let k := s.dieAt d
  if k.spareUsed then
    (s.tellContexts core 0x02).spareLog core
  else
    let s := (s.setDieAt d { k with spareUsed := true }).spareLog core
    let s := s.setCoreAt core { s.coreAt core with paused := true, corrected := [] }
    s.tellContexts core 0x01

/-- No recovery is left undone: the copy of the core's state has ended, and its groups issue again (R371). -/
def resumeCore (s : State) (core : Nat) : State := s.setCoreAt core { s.coreAt core with paused := false }

end State

open State

/-! ## Registers -/

/-- TVEC_WRITE: a write to the tvec of a context (R349). -/
def execTvecWrite (context : Nat) (value : DWord) (s : State) : Result :=
  s.event (s.contexts.at? context).isSome fun s => s.writeTvec context value

/-- EPC_WRITE: a write to the epc of a group (R349). -/
def execEpcWrite (core slot : Nat) (value : DWord) (s : State) : Result :=
  s.event ((s.groupAt (groupKey core slot)).phase != .free) fun s => s.writeEpc (groupKey core slot) value

/-- REDUCTION_WINDOW_WRITE: a write to one word of a window register, from a core (R233, R348). -/
def execReductionWindowWrite (core context window word : Nat) (value : DWord) (s : State) : Result :=
  s.event ((s.contexts.at? context).isSome && window < 16 && word < 4) fun s => s.writeWindow core context window word value

/-- DEBUG_GO_RELEASE (R375). -/
def execDebugGoRelease (core slot : Nat) (s : State) : Result :=
  s.event ((s.sysAt (groupKey core slot)).stop.isSome) fun s => s.goRelease core slot

/-- DEBUG_GO_STEP: one split of a stopped group, or the one that stopped (R375, R376). -/
def execDebugGoStep (core slot : Nat) (split : Option Nat) (s : State) : Result :=
  s.event true fun s => s.goStep core slot split

/-! ## Splits -/

/-- PACKET_FETCH, of the packet at hand or of one ahead (R65, R87, R259, R373). -/
def execPacketFetch (core slot : Nat) (place : FetchPlace) (s : State) : Result :=
  let here := place.ahead % 2 ^ 20 = 0
  s.event ((s.onSplit core slot place.split).free && (!here || (s.onSplit core slot place.split).split.packet == none)) fun s =>
    if here then (s.onSplit core slot place.split).fetchNow else (s.onSplit core slot place.split).fetchAhead place.ahead

/-- SPLIT_STARVATION (R113). -/
def execSplitStarvation (core slot split : Nat) (s : State) : Result :=
  s.event (s.mayAct core slot split && starving (s.onSplit core slot split).split) fun s =>
    (s.onSplit core slot split).chosenFirst

/-- BACKWARD_BRANCH_YIELD (R114). -/
def execBackwardBranchYield (core slot split : Nat) (s : State) : Result :=
  s.event (256 ≤ (s.onSplit core slot split).split.back) fun s => (s.onSplit core slot split).backYield

/-- The issuing split takes a recoverable fault: the clock's issue, where it enters the handler (R66, R358, R375). -/
def State.takeNow (s : State) (r : NonMonotone) : State :=
  let t := s.takeRecoverable r
  if tvecValid s.context.tvec then (t.afterIssue s.cur.core s.cur.slot s.cur.split).othersIdle s.cur.core s.cur.slot s.cur.split else t

/-- RECOVERABLE_FAULT_DELIVERY: at the boundary before the next issue group of a split that is about to issue, where no other split of
the core may issue: otherwise the arbiter's choice takes it (R358). -/
def execRecoverableFaultDelivery (core slot split : Nat) (s : State) : Result :=
  s.event (s.mayAct core slot split && (s.onSplit core slot split).clockLeft && s.soleChoice core slot split &&
      (s.onSplit core slot split).aboutToIssue) fun s =>
    match (s.onSplit core slot split).recoverableDue with
    | some r => (s.onSplit core slot split).takeNow r
    | none => s

/-- SHRINK_POP (R311). -/
def execShrinkPop (core slot split : Nat) (s : State) : Result := s.heldEvent core slot split shrinkHeld

/-- TRYW_EXPIRY (R308). -/
def execTrywExpiry (core slot split : Nat) (s : State) : Result :=
  s.heldEvent core slot split fun s => s.boundOver trywOf

/-- IDLE_EXPIRY (R363). -/
def execIdleExpiry (core slot split : Nat) (s : State) : Result :=
  s.heldEvent core slot split fun s => s.boundOver idleOf

/-- TLBINV_COMPLETION (R260, R362). -/
def execTlbinvCompletion (core slot split : Nat) (s : State) : Result :=
  s.event true fun s => s.completeDrop (groupKey core slot) split

/-- STEP_END (R375). -/
def execStepEnd (core slot : Nat) (s : State) : Result :=
  match (s.sysAt (groupKey core slot)).stop with
  | some t =>
      s.event (t.ended && t.step.isSome) fun s => (s.onSplit core slot (t.step.getD t.split)).stepEnd
  | none => s.event false id

/-! ## Counted operations -/

/-- LOAD_COMPLETION: lanes of an operation in ld, with what peer devices answer (R84, R219). -/
def execLoadCompletion (core slot id : Nat) (lanes : LaneMask) (replies : List (Nat × QWord)) (s : State) : Result :=
  s.event true fun s => s.completeLoad (groupKey core slot) id lanes replies

/-- STORE_COMPLETION: lanes of an operation in st (R84). -/
def execStoreCompletion (core slot id : Nat) (lanes : LaneMask) (replies : List (Nat × QWord)) (s : State) : Result :=
  s.event true fun s => s.completeLanes (groupKey core slot) .st id lanes replies

/-- TM_COMPLETION: an operation in tm; `array` is the one that a WPIN takes (R84, R338). -/
def execTmCompletion (core slot id array : Nat) (s : State) : Result :=
  s.event true fun s => s.completeTm (groupKey core slot) id array

/-- LTRY_EXPIRY: 1,024 clocks after its issue (R281). -/
def execLtryExpiry (core slot id : Nat) (s : State) : Result :=
  s.event true fun s =>
    match findOp (s.sysAt (groupKey core slot)).ld id with
    | some p =>
        match p.act with
        | .latTry _ _ _ =>
            if p.issued + 1024 ≤ s.now && (s.sysAt (groupKey core slot)).tryFree p then
              s.finishTry (groupKey core slot) p
            else s
        | _ => s
    | none => s

/-! ## The spare core -/

/-- HOT_SPARE_TAKEOVER: a core has crossed its threshold of corrected errors (R371). -/
def execHotSpareTakeover (core : Nat) (s : State) : Result :=
  s.event (!(s.coreAt core).paused && s.pastThreshold core) fun s => s.takeover core

/-- HOT_SPARE_RESUME (R371). -/
def execHotSpareResume (core : Nat) (s : State) : Result :=
  s.event (s.coreAt core).paused fun s => s.resumeCore core

end Sys2Proof.Machine
end

