-- ==== Sys2Proof/Machine/Blocks.lean ====
section
/-!
DEFINITION. Block instructions: ATTACH, DETACH, REGROUP, LAUNCH, HOPS (R131 to R137) and the barrier words (R141 to R143).
-/

namespace Sys2Proof.Machine

/-- A segment register (R212). -/
def segment (base limit : Nat) : QWord := BitVec.ofNat 128 (limit * 2 ^ 64 + base)

/-- Width LW of the lane part of a work identifier (R120). -/
def Header.laneBits (h : Header) : Nat := (h.widths.take h.blklvl).foldl (· + ·) 0

/-- The segment registers that ATTACH gives a member of a block (R213). The accumulator segment begins at entry 0 of the
block's own unit map (R332). -/
def Block.segments (b : Block) (member : Nat) : Segments :=
  let stack := 16 * b.header.priv
  { g := segment 0 (2 ^ 60)
    s := segment (slotBytes * b.slot0) b.header.scratch
    c := segment 0 (2 ^ 24)
    a := segment 0 (1024 * b.header.acc)
    p := segment (b.stackBase + member * (96 * stack)) stack }

/-- The work identifiers of a member (R120, R133). -/
def Block.wids (b : Block) (member : Nat) : Vector DWord 96 :=
  Vector.ofFn fun q : Fin 96 => BitVec.ofNat 64 (b.number * 2 ^ b.header.laneBits + member * 96 + q.val)

namespace State

/-- The group has one live split, with an empty record (R132). -/
def alone (s : State) : Bool := s.vgroup.splits.length == 1 && s.vsplit.record == none

/-- ATTACH's effect (R133): the group's one split is split 0 from then on (R347); member index, segments, identifiers, registers as R90
and R93 give them, and one MemberJoin for every barrier of the stage. -/
def attach (s : State) : State :=
  let g := s.group
  let b := s.block
  let m := s.freeMember g.block
  let seg := b.segments m
  let y := s.gsys
  let x := { s.split with mask := BitVec.allOnes 96, record := none, age := s.now }
  let s := s.setGroup { g with
    phase := .attached, member := m, s := [], p := [], wid := b.wids m, fpc := 0, fps := 0, shrink := false, tensor := 0,
    splits := [(0, x)] }
  let s := { s with cur := { s.cur with split := 0 } }.setSys { y with
    csr := { y.csr with ssave := Vector.replicate 4 0 }, seg := seg, segAttach := seg, ld := [], st := [], cp := [],
    tm := [], attachAge := s.now }
  (b.stageOf g).bars.foldl (fun s k => s.memberJoin s.gkey k) s

/-! ## REGROUP (R135) -/

/-- The slot of the member of the issuing group's block with an index. -/
def memberSlot (s : State) (m : Nat) : Option Nat :=
  (s.groupsIn s.group.block).find? fun k => (s.groupAt k).phase == .attached && (s.groupAt k).member == m

/-- What a REGROUP holds a group for (R135). -/
def regroupHeld (s : State) (gk : Nat) : Option (Nat × VReg × Nat) :=
  ((s.groupAt gk).splits.findSome? fun e => e.2.hold).bind Hold.regroup

/-- A held REGROUP given its outcome, which it takes when it issues. -/
def setRegroup (s : State) (gk outcome : Nat) : State :=
  let g := s.groupAt gk
  s.setGroupAt gk { g with splits := g.splits.mapVal fun _ x =>
    match x.hold with
    | some h => { x with hold := some { h with regroup := h.regroup.map fun r => (outcome, r.2) } }
    | none => x }

/-- Lane `l` of vector register `r` of a group: undefined while a load into it is outstanding (R85). -/
def laneOf (s : State) (gk : Nat) (g : Group) (r l : Nat) : Word :=
  if ((s.sysAt gk).busyV r).getLsbD l then Config.undefined s.tick (2 ^ 24 + 96 * r + l) else (vectorOf g r).lane l

/-- The receiver after a rendezvous: positions `to` take over lanes of the donor `e`, held in slot `from_` (R135). -/
def received (s : State) (g e : Group) (from_ : Nat) (moves : List (Nat × Nat)) (first n window : Nat) : Group :=
  let lane := fun (q : Nat) => (moves.find? fun m => m.1 = q).map Prod.snd
  let regs := (List.range window).foldl (fun (t : Table LaneWords) r =>
    t.set r (LaneWords.ofFn fun q =>
      match lane q with
      | some d => if first ≤ r && r < first + n then s.laneOf from_ e r d else Config.undefined s.tick (2 ^ 25 + 96 * r + q)
      | none => (vectorOf g r).lane q)) g.v
  let m := LaneMask.ofFn fun q => (lane q).isSome
  { g with
    v := regs
    wid := Vector.ofFn fun q : Fin 96 => match lane q.val with
      | some d => e.wid.toArray.getD d 0
      | none => g.wid[q]
    p := g.p.mapVal fun _ b => b &&& ~~~ m
    splits := g.splits.mapVal fun _ x => { x with mask := x.mask ||| m } }

/-- Loads of a group into lanes of registers that a rendezvous has written leave them undefined (R85). -/
def spoilGroup (s : State) (gk first n : Nat) (m : LaneMask) : State :=
  let y := s.sysAt gk
  let touch := fun (p : Pending) =>
    (List.range 7).foldl (fun p k => Pending.spoilP k m p) ((regRange first n).foldl (fun p r => Pending.spoilV r m p) p)
  s.setSysAt gk { y with ld := y.ld.map touch, tm := y.tm.map touch }

/-- Both groups stand at their REGROUPs: the donor's active lanes move to the receiver's dormant positions; `k` is the
partner, which is held, issues on the same clock and takes its own outcome then (R67, R135). -/
def rendezvous (s : State) (k first n : Nat) (d : PReg) : State :=
  let mine := s.gkey
  let own := s.vgroup
  let other := s.groupAt k
  let receiving : Bool := own.member < other.member
  let donor := if receiving then other else own
  let receiver := if receiving then own else other
  let mask := fun (g : Group) => g.splits.foldl (fun m e => m ||| e.2.mask) (0 : LaneMask)
  let ds := LaneMask.list (mask donor)
  let fs := LaneMask.list receiver.dormant
  if fs.length < ds.length then ((s.setRegroup k partnerFailed).writePAll d false).done
  else
    let moves := fs.zip ds
    let dk := if receiving then k else mine
    let rk := if receiving then mine else k
    let y := s.sysAt k
    let s := s.setSysAt k { y with before := some other }
    let r := s.groupAt rk
    let new := s.received r donor dk moves first n (vectorWindow s.vblock r)
    let s := (s.setGroupAt rk new).spoilGroup rk 0 (vectorWindow s.vblock r) (LaneMask.ofFn fun q => moves.any (·.1 == q))
    let g := s.groupAt dk
    let s := s.setGroupAt dk { g with splits := g.splits.mapVal fun _ x => { x with mask := 0 } }
    ((s.setRegroup k partnerMet).writePAll d true).done

/-- REGROUP's cases (R135). -/
def regroup (s : State) (d : PReg) (partner : Nat) (first : VReg) (n : Nat) : State :=
  let outcome := (s.holdOf.regroup.map Prod.fst).getD partner
  if outcome = partnerMet then ((s.setSys { s.gsys with before := none }).writePAll d true).done
  else if outcome = partnerGone || outcome = partnerFailed then (s.writePAll d false).done
  else
    match s.memberSlot partner with
    | none => (s.writePAll d false).done
    | some k =>
        if k = s.gkey then (s.writePAll d false).done
        else
          match s.regroupHeld k with
          | some (m, v, count) =>
              if m ≠ s.vgroup.member then s.held { s.holdOf with regroup := some (partner, first, n) }
              else if v ≠ first || count ≠ n || vectorWindow s.vblock s.vgroup < first.toNat + n ||
                  vectorWindow s.vblock (s.groupAt k) < first.toNat + n then
                ((s.setRegroup k partnerFailed).writePAll d false).done
              else s.rendezvous k first.toNat n d
          | none => s.held { s.holdOf with regroup := some (partner, first, n) }

end State

open State

/-- ATTACH (R132, R133). -/
def execAttach (s : State) : Result :=
  s.issue .attach fun s => if s.alone then s.attach.done else s.fault .permission 0 none

/-- DETACH: refused while a slice of the group waits for its copy (R134). -/
def execDetach (d : PReg) (s : State) : Result :=
  s.issue (.detach d) fun s =>
    if !s.alone then s.fault .permission 0 none
    else if s.slicePosted s.gkey then (s.writePAll d false).done
    else
      let s := s.leaveBlock s.gkey
      ((s.setGroup { s.group with phase := .detached }).writePAll d true).done

/-- REGROUP (R135). -/
def execRegroup (d : PReg) (partner : SReg) (first : VReg) (more : BitVec 5) (s : State) : Result :=
  s.issue (.regroup d partner first more) fun s =>
    if s.alone then s.regroup d (s.readS partner).toNat first (more.toNat + 1) else s.fault .permission 0 none

/-- LAUNCH: a release at package scope, then the header is posted to a queue of the context's partition (R136). -/
def execLaunch (d base queue : SReg) (s : State) : Result :=
  s.issue (.launch d base queue) fun s =>
    let header := (s.readPair base).toNat
    let q := (s.readS queue).toNat
    let part := s.vcontext.partition
    if header % 128 ≠ 0 then s.fault .misalignment (s.readPair base) none
    else if 16 ≤ q then (s.writeS d 2).done
    else if 64 ≤ (s.queues.get (queueKey part q) []).length then (s.writeS d 1).done
    else s.afterRelease fun s =>
      let s := s.setBlock { s.block with wroteOut := true }
      ((s.postLaunch s.block.context part q header none).writeS d 0).done

/-- Hops between two near-tier dies of the ring (R10). -/
def dieHops (a b : Nat) : Nat :=
  match (a + 4 - b) % 4 with
  | 0 => 0
  | 2 => 2
  | _ => 1

/-- HOPS between two virtual dies of a context (R21, R137). -/
def hopsOf (x : Context) (a b : Nat) : Word :=
  match x.vdies[a]?, x.vdies[b]? with
  | some p, some q => BitVec.ofNat 32 (dieHops p q)
  | _, _ => 0xFFFFFFFF

/-- HOPS (R137). -/
def execHops (d a b : SReg) (s : State) : Result :=
  s.issue (.hops d a b) fun s => (s.writeS d (hopsOf s.vcontext (s.readS a).toNat (s.readS b).toNat)).done

/-! ## Barrier words (R142, R143) -/

/-- The token of the arrival that the split has made for the issue group at which it stands (R142). -/
def Split.arrivalHere (x : Split) : Option Word :=
  (x.arrivals.find? fun a => a.pc == x.pc && a.word == x.word && a.handler == x.handler).map Arrival.token

/-- The split after an arrival for its issue group. -/
def Split.arrived (x : Split) (token : Word) : Split :=
  { x with arrivals := { pc := x.pc, word := x.word, handler := x.handler, token } :: x.arrivals.filter (·.handler != x.handler) }

namespace State

/-- The phase with a token is complete. -/
def barDone (s : State) (k : Nat) (token : Word) : Bool := phaseDone (s.vblock.barrier k).phase token

/-- The issuing group may arrive at a barrier (R142). -/
def mayArrive (s : State) (k : Nat) : Bool :=
  k < s.vblock.barrierCount && (s.vblock.stageOf s.vgroup).barmask.getLsbD k

/-- The arrival of a BAR.SYNC of the issuing split and its token, which the split remembers (R142). -/
def syncArrive (s : State) (k : Nat) : State × Word :=
  let token := s.arrivalToken s.gkey k
  let s := s.arrive s.gkey k
  (s.setSplit (s.split.arrived token), token)

end State

/-- BAR.ARRIVE: a release at block scope, then the arrival; the token is the phase it counts in (R142, R143). -/
def execBarArrive (bar : BitVec 4) (d : SReg) (s : State) : Result :=
  s.issue (.barArrive bar d) fun s =>
    if s.mayArrive bar.toNat then
      s.afterRelease fun s =>
        let token := s.arrivalToken s.gkey bar.toNat
        ((s.arrive s.gkey bar.toNat).writeS d token).done
    else s.fault .permission 0 none

/-- BAR.WAIT: held until the phase of the token is complete (R142). -/
def execBarWait (bar : BitVec 4) (a : SReg) (s : State) : Result :=
  s.issue (.barWait bar a) fun s =>
    if s.vblock.barrierCount ≤ bar.toNat then s.fault .permission 0 none
    else if s.barDone bar.toNat (s.readS a) then s.done
    else s.held s.holdOf

/-- BAR.SYNC: one arrival, made while it is held, then held until that phase is complete (R142). -/
def execBarSync (bar : BitVec 4) (s : State) : Result :=
  s.issue (.barSync bar) fun s =>
    match s.split.arrivalHere with
    | some t => if s.barDone bar.toNat t then s.done else s.held s.holdOf
    | none =>
        if s.mayArrive bar.toNat then
          s.afterRelease fun s =>
            let t := s.syncArrive bar.toNat
            if phaseDone (t.1.block.barrier bar.toNat).phase t.2 then t.1.done else t.1.held t.1.holdOf
        else s.fault .permission 0 none

/-- BAR.TRY (R142). -/
def execBarTry (bar : BitVec 4) (a : SReg) (d : PReg) (s : State) : Result :=
  s.issue (.barTry bar a d) fun s =>
    if s.vblock.barrierCount ≤ bar.toNat then s.fault .permission 0 none
    else (s.writePAll d (s.barDone bar.toNat (s.readS a))).done

end Sys2Proof.Machine
end

