-- ==== Sys2Proof/Machine/Tenant.lean ====
section
/-!
DEFINITION. Tenant spaces: their pages (R410, R411), what a host reads and writes (R413 to R420), the event ring (R427), frames
taken and given back, and the completion records of commands (R421 to R424).
-/

namespace Sys2Proof.Machine

/-! ## The layout of a tenant space (R410, R419) -/

def tenantPages : Nat := 2 ^ 42 - 0x140000
def tenantCommands : Nat := 2 ^ 42 - 0x100000
def tenantEnd : Nat := 2 ^ 42

/-- What a tenant address is. -/
inductive TenantPart where
  | pages | window (off : Nat) | commands (off : Nat) | outside
deriving DecidableEq, Repr

def tenantPart (a : Nat) : TenantPart :=
  if a < tenantPages then .pages
  else if a < tenantCommands then .window (a - tenantPages)
  else if a < tenantEnd then .commands (a - tenantCommands)
  else .outside

/-- The address lies in an accepted extent (R412). -/
def Space.holds (x : Space) (a : Nat) : Bool := x.extents.any fun e => e.1 ≤ a && a < e.1 + e.2

def Space.page (x : Space) (n : Nat) : TenantPage := x.pages.get n TenantPage.absent

def Space.setPage (x : Space) (n : Nat) (p : TenantPage) : Space := { x with pages := x.pages.set n p }

/-- The move of a page that is in progress. -/
def Space.moveOf (x : Space) (n : Nat) : Option TenantMove := x.moves.find? (·.page == n)

namespace State

/-! ## The event ring (R427) -/

/-- The bytes of an event with its number. -/
def eventBytes (e : HostEvent) (no : Word) : List Byte :=
  toBytes 1 e.kind ++ toBytes 1 e.cause ++ toBytes 2 0 ++ toBytes 4 no.toNat ++ toBytes 8 e.addr ++ toBytes 8 e.len ++
    toBytes 8 e.time

/-- The next event may be written: at most 120 beyond EVACK. -/
def eventRoom (s : State) (space : Nat) : Bool :=
  ((s.spaceAt space).events + 1 - s.windowWord space 0x11000).toNat ≤ 120

/-- An event written to its record. -/
def writeEvent (s : State) (space : Nat) (e : HostEvent) : State :=
  let x := s.spaceAt space
  let no := x.events + 1
  (s.windowPut space (0x10100 + 32 * ((no - 1).toNat % 120)) (eventBytes e no)).setSpaceAt space { x with events := no }

/-- Front-end status as the window shows it (R423). -/
def statusBytes (x : Space) : List Byte :=
  toBytes 4 x.next.toNat ++ toBytes 4 x.done.toNat ++ toBytes 4 x.halt.toNat ++ toBytes 4 x.evlost.toNat

def showStatus (s : State) (space : Nat) : State := s.windowPut space 0x10000 (statusBytes (s.spaceAt space))

/-- An event of a space: into its ring, the backlog of 4,096, or lost and counted (R427). -/
def tellHost (s : State) (space kind cause addr len : Nat) : State :=
  let x := s.spaceAt space
  let e : HostEvent := { kind, cause, addr, len, time := s.micros }
  if x.backlog.isEmpty && s.eventRoom space then s.writeEvent space e
  else if x.backlog.length < 4096 then s.setSpaceAt space { x with backlog := x.backlog ++ [e] }
  else
    (s.setSpaceAt space { x with evlost := if x.evlost = 0xFFFFFFFF then x.evlost else x.evlost + 1 }).showStatus space

/-- Backlogged events written while the ring has room (R427). -/
def drainEvents (s : State) (space : Nat) : State :=
  (s.spaceAt space).backlog.foldl (fun s _ =>
    let x := s.spaceAt space
    match x.backlog with
    | e :: rest => if s.eventRoom space then (s.setSpaceAt space { x with backlog := rest }).writeEvent space e else s
    | [] => s) s

/-- An event for every tenant space. -/
def tellAllHosts (s : State) (kind : Nat) : State :=
  s.hw.spaces.foldl (fun s e => s.tellHost e.1 kind 0 0 0) s

/-! ## Far-tier frames (R383, R391, R413) -/

/-- Number of far-tier frames (R19). -/
def farFrames : Nat := 0x2000000

def isFar (s : State) (f : Nat) : Bool :=
  match s.frameKind f with
  | some (.far _) => true
  | _ => false

/-- The parity group that holds a far-tier frame: one of the two of its die (R19; entry 94). -/
def groupOf (s : State) (f : Nat) : Option Nat :=
  match s.frameKind f with
  | some (.far d) => some (2 * d + Config.parityGroup f % 2)
  | _ => none

/-- A parity group of which two packages have failed is lost (R430). -/
def lostGroup (s : State) (group : Nat) : Bool := 2 ≤ (s.hw.packages.get group []).length

/-- A far-tier frame is lost with its parity group: what is read there is poison (R415, R430). -/
def lostFrame (s : State) (f : Nat) : Bool := (s.groupOf f).any s.lostGroup

/-- A frame is free: its record says so, no move has claimed it, and it is not lost with its parity group. -/
def isFree (s : State) (f : Nat) : Bool := (s.frameAt f).state == .free && !s.lostFrame f

/-- Frames of a parity group: eight data packages of 64 GiB (R19). -/
def groupFrames : Nat := 0x800000

/-- Far-tier frames that are not free; every frame of a lost parity group is none. -/
def farUsed (s : State) : Nat :=
  (s.hw.frames.filter fun e => s.isFar e.1 && e.2.state != .free && !s.lostFrame e.1).length +
    groupFrames * ((List.range 4).filter s.lostGroup).length

/-- The first free frame from `f` on, among `n`. -/
def freeFrom (s : State) (f n : Nat) : Option Nat := ((List.range n).find? fun k => s.isFree (f + k)).map (f + ·)

/-- A free far-tier frame: the one the device chose, else the lowest. -/
def pickFar (s : State) (choice : Nat) : Option Nat :=
  if s.isFar choice && s.isFree choice then some choice
  else if s.farUsed < farFrames then s.freeFrom 0xC00000 (s.farUsed + 1)
  else none

/-- The record of a frame of a tenant space: firmware's, in clear (R383; entry 16). -/
def hostFrame : FrameRecord := { FrameRecord.free with owner := 0xFFFF, host := true, state := .owned }

/-- A frame zero-filled and recorded for a tenant space (R391). -/
def takeHostFrame (s : State) (f : Nat) : State := (s.zeroFrame f).setFrameAt f hostFrame

/-- A far-tier frame taken for a tenant space, if there is one and the security cores agree on its record (R27). -/
def takeFar (s : State) (choice : Nat) : Option Nat × State :=
  match s.pickFar choice with
  | some f => if s.agreed then (some f, s.voted.takeHostFrame f) else (none, s.voted.disagree)
  | none => (none, s)

/-- Frames in which the sectors of compressed pages lie (R411). -/
def sectorFrames (s : State) : List Nat :=
  distinct ((s.hw.spaces.map fun e => (e.2.pages.map fun p => p.2.sectors.map (· / 16)).flatten).flatten)

/-- Frames of sectors that hold no sector any more are given back. -/
def freeSectors (s : State) (old : List Nat) : State :=
  s.freeFrames ((distinct (old.map (· / 16))).filter fun f => !s.sectorFrames.contains f)

/-! ## Reading (R415, R417) -/

/-- What a host reads: bytes, or poison with the cause of its event (R415, R427). -/
inductive HostRead where
  | bytes (l : List Byte)
  | poison (cause : Nat)
deriving DecidableEq, Repr

/-- A line of the module's memory as a host reads it: poisoned where memory fails (R415, R437). -/
def memoryLine (s : State) (pa : Nat) : HostRead := if s.poisonedAt pa 64 then .poison 3 else .bytes (s.mem.bytes pa 64)

/-- A line of a tenant page: written lines of a compressed page stand in the buffer (R414, R415). -/
def pageLine (s : State) (x : Space) (a : Nat) : HostRead :=
  let p := x.page (a / 65536)
  let off := a % 65536
  match p.form with
  | .zero => .bytes (List.replicate 64 0)
  | .poisoned => .poison (if p.lost then 5 else 2)
  | .plain => s.memoryLine (65536 * p.loc + off)
  | .compressed =>
      match x.buffer.at? (a / 64) with
      | some l => .bytes l
      | none =>
          if p.bad.contains (off / 4096) then .poison 4
          else if p.badLines.contains (off / 64) then .poison 3
          else .bytes (p.packed.bytes off 64)

/-- The 64-byte line of a tenant space that begins at `a` (R410, R415, R419). -/
def tenantLine (s : State) (space a : Nat) : HostRead :=
  let x := s.spaceAt space
  match tenantPart a with
  | .pages => if x.holds a then s.pageLine x a else .poison 1
  | .window off => s.memoryLine (windowBase space + off)
  | .commands off => s.memoryLine (commandBase space + off)
  | .outside => .poison 1

/-- A message to the hosts. -/
def sendHost (s : State) (m : HostMessage) : State := s.setHw { s.hw with hostOut := s.hw.hostOut ++ [m] }

/-- A host's read of a line (R415, R417). -/
def hostRead (s : State) (space a : Nat) : State :=
  match s.tenantLine space a with
  | .bytes l => s.sendHost (.data space a l)
  | .poison c => (s.sendHost (.poison space a)).tellHost space 0x01 c a 64

/-- Tenant pages in a frame. -/
def tenantsOf (s : State) (f : Nat) : List (Nat × Nat) :=
  (s.hw.spaces.map fun e => (e.2.pages.filter fun p => p.2.form == .plain && p.2.loc == f).map fun p => (e.1, p.1)).flatten

/-! ## Writing (R413, R414, R416, R418, R419) -/

/-- Free far-tier frames have fallen below 1/256 of the far tier (R413). -/
def farLow (s : State) : Bool := farFrames - s.farUsed < farFrames / 256

/-- A host is asked to release its last dynamic extent (R412, R413). -/
def askRelease (s : State) (space : Nat) : State :=
  let x := s.spaceAt space
  match (x.extents.filter fun e => e.1 ≠ 0 && !x.asked.contains e).getLast? with
  | some e =>
      let s := (s.setSpaceAt space { x with asked := x.asked ++ [e] }).sendHost (.askRelease space e.1 e.2)
      s.tellHost space 0x04 0 e.1 e.2
  | none => s

/-- Hosts are asked for extents where frames run low (R413). -/
def askWhenLow (s : State) : State :=
  if s.farLow then s.hw.spaces.foldl (fun s e => s.askRelease e.1) s else s

/-- A page that no frame could be found for (R413), or on whose frame the security cores disagree (entry 95). -/
def exhaust (s : State) (space n : Nat) : State :=
  let x := s.spaceAt space
  let old := (x.page n).sectors
  let x := { x.setPage n { x.page n with form := .poisoned, moving := false, sectors := [], packed := [], bad := [], badLines := [] } with
    moves := x.moves.filter (·.page != n) }
  ((s.setSpaceAt space x).freeSectors old).tellHost space 0x02 0 (65536 * n) 65536

/-- A zero page gets a frame (R413). -/
def fillPage (s : State) (space n choice : Nat) : State :=
  match s.takeFar choice with
  | (some f, s) =>
      let x := s.spaceAt space
      (s.setSpaceAt space (x.setPage n { x.page n with form := .plain, loc := f })).askWhenLow
  | (none, s) => s.exhaust space n

/-- A page that moves to a plain frame. -/
def moveInto (x : Space) (n f : Nat) : Space :=
  { x.setPage n { x.page n with moving := true } with
    moves := x.moves.filter (·.page != n) ++ [{ page := n, compress := false, dest := f, remark := [] }] }

/-- A compressed page begins to move to a plain frame, which a write to it needs (R413, R414, R418). -/
def startDecompress (s : State) (space n choice : Nat) : State :=
  match s.takeFar choice with
  | (some f, s) => (s.setSpaceAt space (moveInto (s.spaceAt space) n f)).askWhenLow
  | (none, s) => s.exhaust space n

/-- The 64 bytes of a line that a write has changed in part. -/
def patched (old : List Byte) (off : Nat) (bytes : List Byte) : List Byte :=
  old.take off ++ bytes ++ old.drop (off + bytes.length)

/-- A write into the buffer of a compressed page (R414); one to a line that reads as poison is discarded (R415). -/
def bufferLine (s : State) (space a : Nat) (bytes : List Byte) : State :=
  let x := s.spaceAt space
  match s.pageLine x (a / 64 * 64) with
  | .bytes l => s.setSpaceAt space { x with buffer := x.buffer.set (a / 64) (patched l (a % 64) bytes) }
  | .poison _ => s

/-- A write into a plain page: the move of the page sees it too (R418); one to a line that reads as poison is discarded (R415). -/
def plainWrite (s : State) (space a : Nat) (bytes : List Byte) : State :=
  let x := s.spaceAt space
  let n := a / 65536
  let pa := 65536 * (x.page n).loc + a % 65536
  if s.poisonedAt pa bytes.length then s
  else
    let s := s.setMem (s.mem.setBytes pa bytes)
    match x.moveOf n with
    | some m =>
        if m.compress then
          let mark := fun (k : TenantMove) =>
            if k.page = n && !k.remark.contains (a % 65536 / 4096) then { k with remark := k.remark ++ [a % 65536 / 4096] } else k
          s.setSpaceAt space { x with moves := x.moves.map mark }
        else s.setMem (s.mem.setBytes (65536 * m.dest + a % 65536) bytes)
    | none => s

/-- A write into a tenant page by its form; one outside every extent or to a poisoned page is discarded (R413 to R415). -/
def pageWrite (s : State) (space a : Nat) (bytes : List Byte) (choice : Nat) : State :=
  let n := a / 65536
  let x := s.spaceAt space
  if !x.holds a then s
  else
    match (x.page n).form with
    | .poisoned => s
    | .plain => s.plainWrite space a bytes
    | .zero =>
        let s := s.fillPage space n choice
        if ((s.spaceAt space).page n).form = .plain then s.plainWrite space a bytes else s
    | .compressed =>
        let s := if (x.moveOf n).any fun m => !m.compress then s else s.startDecompress space n choice
        if ((s.spaceAt space).page n).form = .compressed then s.bufferLine space a bytes else s

/-- The bytes of the coherent window that a host may write (R419, R427). -/
def hostWindow (off : Nat) : Bool := (0x11000 ≤ off && off < 0x11004) || (0x11040 ≤ off && off < 0x40000)

/-- A write into the coherent window: bytes of other parts are ignored, as is one to a line that reads as poison; a write of EVACK makes
room for events (R415, R419, R427). -/
def windowWrite (s : State) (space off : Nat) (bytes : List Byte) : State :=
  if s.poisonedAt (windowBase space + off) bytes.length then s
  else
    let put := fun (m : Memory) (e : Byte × Nat) => if hostWindow (off + e.2) then m.setByte (windowBase space + off + e.2) e.1 else m
    (s.setMem (bytes.zipIdx.foldl put s.mem)).drainEvents space

/-- A write of bytes within one line of a tenant space (R410, R416). -/
def tenantWrite (s : State) (space a : Nat) (bytes : List Byte) (choice : Nat) : State :=
  match tenantPart a with
  | .pages => s.pageWrite space a bytes choice
  | .window off => s.windowWrite space off bytes
  | .commands off =>
      let pa := commandBase space + off
      if s.poisonedAt pa bytes.length then s else s.setMem (s.mem.setBytes pa bytes)
  | .outside => s

/-- A host's write (R416). -/
def hostWrite (s : State) (space a : Nat) (bytes : List Byte) (choice : Nat) : State :=
  (s.tenantWrite space a bytes choice).sendHost (.written space a)

/-! ## Commands (R421 to R424) -/

end State

/-- `n` bytes of a slot from an offset, as a number. -/
def Command.field (c : Command) (off n : Nat) : Nat := ofBytes ((c.slot.drop off).take n)

def Command.kind (c : Command) : Nat := c.field 0 1
def Command.irq (c : Command) : Bool := c.field 1 1 % 2 = 1
def Command.av (c : Command) : Bool := c.field 1 1 / 2 % 2 = 1
def Command.context (c : Command) : Nat := c.field 2 2
def Command.after (c : Command) : Word := BitVec.ofNat 32 (c.field 4 4)
def Command.sub (c : Command) : Nat := c.field 16 1
def Command.a0 (c : Command) : Nat := c.field 24 8
def Command.a1 (c : Command) : Nat := c.field 32 8
def Command.a2 (c : Command) : Nat := c.field 40 8
def Command.a3 (c : Command) : Nat := c.field 48 8

/-- Offset in the window of the completion record of a sequence (R424). -/
def recordOff (seq : Word) : Nat := 16 * (seq.toNat % 4096)

/-- The latest sequence up to which every accepted command is final (R423). -/
def doneUpTo : Word → List Command → Word
  | d, [] => d
  | d, c :: rest => if c.phase = .done then doneUpTo c.seq rest else d

namespace State

/-- The accepted command with a sequence. -/
def commandAt (s : State) (space : Nat) (seq : Word) : Option Command := (s.spaceAt space).commands.find? (·.seq == seq)

/-- A command in its present state. -/
def setCommand (s : State) (space : Nat) (c : Command) : State :=
  let x := s.spaceAt space
  s.setSpaceAt space { x with commands := x.commands.map fun d => if d.seq == c.seq then c else d }

/-- A command completes: its record takes the final status, and an interrupt is raised where it asks for one (R421, R424). -/
def finishCommand (s : State) (space : Nat) (seq : Word) (status result : Nat) : State :=
  match s.commandAt space seq with
  | none => s
  | some c =>
      if c.phase = .done then s
      else
        let s := s.setCommand space { c with phase := .done, status, result }
        let x := s.spaceAt space
        let s := s.setSpaceAt space { x with done := doneUpTo x.done x.commands }
        let s := s.windowPut space (recordOff seq + 4) (toBytes 1 status ++ toBytes 1 c.kind ++ toBytes 2 result)
        let s := s.showStatus space
        if c.irq then s.sendHost (.interrupt space seq) else s

end State

end Sys2Proof.Machine
end

