-- ==== Sys2Proof/Machine/Launches.lean ====
section
/-!
DEFINITION. Launches: the header and its checks (R117 to R121, R309), the dependence (R123), completion (R126, R209), dispatch and
residency (R122, R124, R125), the end of a block (R126) and of a group's slot (R112), growth and shrinkage (R128 to R130).
-/

namespace Sys2Proof.Machine

/-! ## The header (R117, R118) -/

/-- `n` bits of a doubleword from bit `lo`. -/
def bitsOf (w : DWord) (lo n : Nat) : Nat := w.toNat / 2 ^ lo % 2 ^ n

/-- A stage descriptor from its 48 bits (R118). -/
def stageOfBits (x : Nat) : Stage :=
  { entry := BitVec.ofNat 20 x, min := x / 2 ^ 20 % 16, max := x / 2 ^ 24 % 32, vregs := x / 2 ^ 29 % 8,
    barmask := BitVec.ofNat 16 (x / 2 ^ 32) }

/-- Word `k` of a header. -/
def hword (l : List DWord) (k : Nat) : DWord := l.getD k 0

/-- The 192 bits of the stage descriptors. -/
def stageBits (l : List DWord) : Nat := (hword l 13).toNat + 2 ^ 64 * (hword l 14).toNat + 2 ^ 128 * (hword l 15).toNat

/-- The fields of a header (R117). -/
def headerOf (l : List DWord) : Header :=
  let w := fun k => hword l k
  { stages := (List.range (bitsOf (w 0) 16 2 + 1)).map fun k => stageOfBits (stageBits l / 2 ^ (48 * k) % 2 ^ 48)
    blklvl := bitsOf (w 0) 18 3, restart := (w 0).getLsbD 21, stats := (w 0).getLsbD 22, prio := bitsOf (w 0) 23 3,
    latbound := bitsOf (w 0) 32 32,
    widths := (List.range 6).map fun k => bitsOf (w 1) (6 * k) 6
    place := (List.range 6).map fun k => bitsOf (w 1) (36 + 2 * k) 2
    blocks := (w 2).toNat, code := (w 3).toNat, param := (w 4).toNat, scratch := bitsOf (w 5) 0 22, acc := bitsOf (w 5) 22 16,
    relays := bitsOf (w 5) 38 6, barriers := bitsOf (w 5) 44 4, priv := bitsOf (w 5) 48 16, statva := (w 6).toNat,
    afterva := (w 7).toNat, afterv := (w 8).toNat, doneva := (w 9).toNat, donev := (w 10).toNat, relaytab := (w 11).toNat }

/-- A sum over the stages of a header. -/
def Header.sum (h : Header) (f : Stage → Nat) : Nat := (h.stages.map f).foldl (· + ·) 0

/-- Vector registers of one group of a stage (R118). -/
def Stage.regs (x : Stage) : Nat := 16 * (x.vregs + 1)

/-- Bits of the block part (R121). -/
def Header.blockBits (h : Header) : Nat := (h.widths.drop h.blklvl).foldl (· + ·) 0

/-! ## Relay descriptors (R309) -/

def relayOfWord (w : DWord) : RelayDesc :=
  { cap := bitsOf w 0 7, prod := bitsOf w 8 2, cons := bitsOf w 10 2, strict := w.getLsbD 12, autofree := w.getLsbD 13,
    ring := bitsOf w 16 22 }

/-- A descriptor by itself keeps the ranges of R309. -/
def relayFine (h : Header) (w : DWord) : Bool :=
  let r := relayOfWord w
  1 ≤ r.cap && r.cap ≤ 64 && !w.getLsbD 7 && bitsOf w 14 2 = 0 && bitsOf w 38 26 = 0 && r.prod < h.stages.length &&
    r.cons < h.stages.length && r.ring % 4 = 0 && r.ring + 4 * r.cap ≤ h.scratch

/-- No two rings share a byte. -/
def ringsApart : List RelayDesc → Bool
  | [] => true
  | r :: rest => rest.all (fun q => !overlaps r.ring (4 * r.cap) q.ring (4 * q.cap)) && ringsApart rest

/-! ## Conditions of refusal (R119, R121) -/

/-- Conditions 0x01 to 0x07 of a header, with the relay table as far as it was read. -/
def headerFaults (l : List DWord) (relays : List DWord) : List (Bool × Nat) :=
  let h := headerOf l
  let sum := h.widths.foldl (· + ·) 0
  let unused := (List.range 4).any fun k => h.stages.length ≤ k && stageBits l / 2 ^ (48 * k) % 2 ^ 48 ≠ 0
  let bars := if h.stages.any fun x => x.barmask != 0 then h.barriers + 1 else 0
  [(bitsOf (hword l 0) 0 16 ≠ 0x5A48 || h.code % 8 ≠ 0 || h.param % 8 ≠ 0 || (h.relays ≠ 0 && h.relaytab % 8 ≠ 0) ||
      (h.doneva ≠ 0 && h.doneva % 8 ≠ 0), 0x01),
   (bitsOf (hword l 0) 26 6 ≠ 0 || bitsOf (hword l 1) 48 16 ≠ 0 || hword l 12 ≠ 0 || unused, 0x02),
   (h.blocks = 0 || h.blklvl = 0 || 5 < h.blklvl || 64 < sum || h.place.contains 3 ||
      (h.place.take h.blklvl).any (· ≠ 0) || 2 ^ h.laneBits < 96 * h.sum Stage.max || 2 ^ h.blockBits < h.blocks, 0x03),
   (h.stages.any fun x => x.min = 0 || x.max < x.min, 0x04),
   (1536 < h.sum (fun x => x.min * x.regs) || 16 < h.sum Stage.min || h.scratch % slotBytes ≠ 0 || 0x300000 < h.scratch ||
      32 < h.acc || 2 ^ 32 < 96 * h.priv * 16 * h.sum Stage.max, 0x05),
   (h.stages.any (fun x => x.bars.any fun k => bars ≤ k) || !relays.all (relayFine h) || !ringsApart (relays.map relayOfWord),
      0x06),
   (h.stats && (h.statva = 0 || h.statva % 4096 ≠ 0), 0x07)]

/-- Vector registers that a launch's header has reserved for each block: those of its MIN groups. -/
def Header.reservedRegs (h : Header) : Nat := h.sum fun x => x.min * x.regs

/-- The lowest status whose condition a header meets. -/
def lowestStatus (l : List (Bool × Nat)) : Option Nat := (l.find? Prod.fst).map Prod.snd

namespace State

/-! ## Reads for a launch (R119, R123) -/

/-- The core that stands for the partition's lowest-numbered granule (R123). -/
def partitionCore (s : State) (p : Nat) : Nat :=
  64 * (((List.range 16).find? fun g => (s.partitionAt p).holds g).getD 0 / 4)

/-- The core from which the device reads and writes for a launch of a context: the one that stands for the partition's lowest-numbered
granule, or one of the context's first die where the context has no number for that die (R123, R126; entry 105). -/
def launchCore (s : State) (c : Nat) : Nat :=
  let x := s.contextAt c
  let core := s.partitionCore x.partition
  if x.vdies.contains (dieOf core) then core else 64 * x.vdies.headD (dieOf core)

/-- The runs of bytes of a range that lie in one page each. -/
def pageRuns (a n : Nat) : List (Nat × Nat) := (pageFirsts a n).map fun b => (b, min (a + n) ((b / 65536 + 1) * 65536) - b)

/-- How a read for a launch comes out. -/
inductive LaunchRead where
  | bytes (l : List Byte)
  | fails
  | stops (h : Hazard)
deriving DecidableEq, Repr

/-- The bytes at a virtual address; those of a peer's page are not the module's to know, and the port guard drops a read of a
device off the roster (R219). -/
def launchRead (s : State) (core context a n : Nat) : LaunchRead :=
  (pageRuns a n).foldl (fun r e =>
    match r with
    | .bytes l =>
        match s.checkPage core context [] e.1 .read, s.engineHazard core context e.1 e.2 .read with
        | .page leaf _, h =>
            if !s.usableLat context leaf e.1 then .fails
            else match h with
              | some h => .stops h
              | none => .bytes (l ++ s.engineRead core context e.1 e.2)
        | _, _ => .fails
    | r => r) (if 2 ^ 60 < a + n then .fails else .bytes [])

/-- What a read for a launch asks of peer devices (R219). -/
def launchAsk (s : State) (core context a n id : Nat) : State :=
  (pageRuns a n).foldl (fun s e => s.engineAsk core context e.1 e.2 id) s

/-- Bytes as doublewords. -/
def dwordsOf (l : List Byte) (n : Nat) : List DWord := (List.range n).map fun k => BitVec.ofNat 64 (ofBytes ((l.drop (8 * k)).take 8))

/-! ## Refusal (R119) -/

/-- A launch taken out of its queue. -/
def dropLaunch (s : State) (id : Nat) : State :=
  let l := s.launchAt id
  let k := queueKey l.partition l.queue
  { s with queues := s.queues.set k ((s.queues.get k []).filter (· ≠ id)), launches := s.launches.erase id }

/-- A launch is refused with a status (R119). -/
def refuseLaunch (s : State) (id status : Nat) : State :=
  let l := s.launchAt id
  let s := (s.dropLaunch id).postEvent l.context (eventOf l.context 0x06 status 0 (BitVec.ofNat 64 l.headerAddr))
  match l.command with
  | some c => s.finishCommand c.1 (BitVec.ofNat 32 c.2) status 0
  | none => s

/-- The launch at the head of a queue. -/
def headLaunch (s : State) (partition queue : Nat) : Option Nat := (s.queues.get (queueKey partition queue) []).head?

/-- The header and relay table are read and checked (R119). -/
def checkHeader (s : State) (id : Nat) : State :=
  let l := s.launchAt id
  let core := s.launchCore l.context
  match s.launchRead core l.context l.headerAddr 128 with
  | .fails => s.refuseLaunch id 0x08
  | .stops h => s.hazardKill l.context h
  | .bytes b =>
      let w := dwordsOf b 16
      let h := headerOf w
      let table := if h.relays = 0 then .bytes [] else s.launchRead core l.context h.relaytab (8 * h.relays)
      let s := s.launchAsk core l.context l.headerAddr 128 id
      let s := if h.relays = 0 then s else s.launchAsk core l.context h.relaytab (8 * h.relays) id
      match table with
      | .stops h => s.hazardKill l.context h
      | .fails => s.refuseLaunch id ((lowestStatus (headerFaults w [])).getD 0x08)
      | .bytes t =>
          let r := dwordsOf t h.relays
          match lowestStatus (headerFaults w r) with
          | some status => s.refuseLaunch id status
          | none =>
              s.setLaunchAt id { l with
                header := h, relays := r.map relayOfWord, phase := if h.afterva = 0 then .ready else .waiting, recheckAt := s.now }

/-! ## The dependence (R123, R269) -/

/-- A launch-level request for a missing page (R123, R399). -/
def launchFault (s : State) (id page : Nat) (kind : BitVec 5) : State :=
  let l := s.launchAt id
  let die := dieOf (s.partitionCore l.partition)
  s.postFault die
    (faultEntry page kind l.partition l.context (vdieOf (s.contextAt l.context) die) 0xFF 0xFF (.launch id))

/-- Joins of 8 bytes of a lattice page over every replica, cell by cell (R269). -/
def joinedReplicas (s : State) (context : Nat) (e : DWord) (va : Nat) : Nat :=
  let ty := (latTypeOf (leafLtype e)).getD .maxN64
  let read := fun (die off n : Nat) => s.mem.read (s.physical die e 0 va + off) n
  let dies := (s.contextAt context).vdies
  let joined := fun (off n : Nat) =>
    match dies with
    | [] => 0
    | d :: rest => rest.foldl (fun v k => ty.join v (read k off n)) (read d off n)
  if ty.wide then joined 0 8 else joined 0 4 + 2 ^ 32 * joined 4 4

/-- Where a lattice dependence reads: one replica on each die of the context (R269). -/
def replicaPlaces (s : State) (context : Nat) (e : DWord) (va : Nat) : List Nat :=
  (s.contextAt context).vdies.map fun d => s.physical d e 0 va

/-- The dependence is satisfied, or the launch waits on (R123). -/
def weighDependence (s : State) (id value : Nat) : State :=
  let l := s.launchAt id
  s.setLaunchAt id
    (if l.header.afterv ≤ value then { l with phase := .ready } else { l with recheckAt := s.now + 65536 })

/-- The dependence word is read (R123); `reply` is what a peer device answers. -/
def readDependence (s : State) (id : Nat) (reply : DWord) : State :=
  let l := s.launchAt id
  let va := l.header.afterva
  let x := s.contextAt l.context
  let core := s.launchCore l.context
  if va % 8 ≠ 0 || 2 ^ 60 < va + 8 then s.refuseLaunch id 0x09
  else
    match s.checkPage core l.context [] va .read with
    | .absent => (s.setLaunchAt id { l with missing := [va / 65536] }).launchFault id (va / 65536) 9
    | .fails _ => s.refuseLaunch id 0x09
    | .page e level =>
        if leafLat e then
          let places := s.replicaPlaces l.context e va
          if (x.regionAt va).isNone || places.any fun pa => !s.frameUsable l.context (pa / 65536) then s.refuseLaunch id 0x09
          else
            match places.find? fun pa => s.poisonedAt pa 8 with
            | some pa => (s.foundBad l.context pa).refuseLaunch id 0x09
            | none => s.weighDependence id (s.joinedReplicas l.context e va)
        else
          match s.placeFor core e level va with
          | .mem pa =>
              if !s.frameUsable l.context (pa / 65536) then s.refuseLaunch id 0x09
              else if s.poisonedAt pa 8 then (s.foundBad l.context pa).refuseLaunch id 0x09 else s.weighDependence id (s.mem.read pa 8)
          | .peer d g off =>
              if x.roster.contains d then (s.askPeer (.read d g off 8 id)).weighDependence id reply.toNat
              else s.refuseLaunch id 0x09
          | _ => s

/-! ## Completion (R126, R209) -/

/-- The 4,096 bytes of a statistics area (R209). -/
def statisticsBytes (t : Table Word) : List Byte := ((List.range 1024).map fun k => toBytes 4 (t.get k 0).toNat).flatten

/-- A launch whose completion fails ends its context (R126). -/
def completionKill (s : State) (context va : Nat) : State :=
  s.killWith context (eventOf context 0x01 FaultClass.completionFailed.code 0 (BitVec.ofNat 64 va))

/-- A launch that is complete leaves its queue, its command completes, and the partition's waiting launches read their
dependence anew (R123, R126). -/
def retire (s : State) (id : Nat) : State :=
  let l := s.launchAt id
  let s := s.dropLaunch id
  let due := fun (k : Launch) => if k.partition = l.partition && k.phase == .waiting then { k with recheckAt := s.now } else k
  let s := { s with launches := s.launches.mapVal fun _ k => due k }
  match l.command with
  | some c => s.finishCommand c.1 (BitVec.ofNat 32 c.2) 0x00 0
  | none => s

/-- The completion join (R126, R269). A line that has failed ends the context as any line of its frames does (R439; entry 57). -/
def joinDone (s : State) (id : Nat) : State :=
  let l := s.launchAt id
  let va := l.header.doneva
  if va = 0 then s.retire id
  else if 2 ^ 60 < va + 8 then s.completionKill l.context va
  else
    match s.checkPage (s.launchCore l.context) l.context [] va .write with
    | .page e level =>
        let join := fun (pa : Nat) =>
          if s.poisonedAt pa 8 then s.memoryKill l.context pa
          else if !s.frameUsable l.context (pa / 65536) then s.completionKill l.context va
          else (s.memWrite l.context pa (toBytes 8 (max (s.mem.read pa 8) l.header.donev))).retire id
        if leafPeer e then s.completionKill l.context va
        else if leafLat e then
          if latTypeOf (leafLtype e) = some .maxN64 && ((s.contextAt l.context).regionAt va).isSome then
            join (s.physical l.lastDie e level va)
          else s.completionKill l.context va
        else join (s.physical l.lastDie e level va)
    | _ => s.completionKill l.context va

/-- The statistics area is written, then the completion word is joined (R126, R209). -/
def writeCompletion (s : State) (id : Nat) : State :=
  let l := s.launchAt id
  let va := l.header.statva
  if !l.header.stats then s.joinDone id
  else if 2 ^ 60 < va + 4096 then s.completionKill l.context va
  else
    match s.checkPage (s.launchCore l.context) l.context [] va .write with
    | .page e level =>
        if leafPeer e || leafLat e || !s.frameUsable l.context (s.physical l.lastDie e level va / 65536) then
          s.completionKill l.context va
        else (s.memWrite l.context (s.physical l.lastDie e level va) (statisticsBytes l.stats)).joinDone id
    | _ => s.completionKill l.context va

/-- Addresses that a completion writes. -/
def completionWrites (h : Header) : List Nat := (if h.stats then [h.statva] else []) ++ (if h.doneva = 0 then [] else [h.doneva])

/-- A launch whose blocks have all ended completes, once the pages it writes are present (R126). -/
def complete (s : State) (id : Nat) : State :=
  let l := s.launchAt id
  let core := s.launchCore l.context
  match distinct ((completionWrites l.header).filterMap fun a =>
    if a < 2 ^ 60 && s.checkPage core l.context [] a .write == .absent then some (a / 65536) else none) with
  | [] => s.writeCompletion id
  | pages => pages.foldl (fun s v => s.launchFault id v 10) (s.setLaunchAt id { l with missing := pages })

/-! ## Room on a core (R125, R129) -/

/-- What a block keeps of a core's group slots and vector registers until it ends: what is reserved for it, and what its groups hold
beside that (R125, R129). -/
def keptSlots (s : State) (id : Nat) : Nat :=
  let r := (s.blockAt id).reserved
  r.length + ((s.groupsIn id).filter fun k => !r.contains (k % 16)).length
def keptRegs (s : State) (id : Nat) : Nat :=
  (s.blockAt id).header.reservedRegs + ((s.groupsIn id).map fun k => (s.groupAt k).outside).foldl (· + ·) 0

/-- Reserved registers of a block that no group of it occupies (R129). -/
def spareRegs (s : State) (id : Nat) : Nat :=
  (s.blockAt id).header.reservedRegs -
    ((s.groupsIn id).map fun k => vectorWindow (s.blockAt id) (s.groupAt k) - (s.groupAt k).outside).foldl (· + ·) 0

/-- Blocks resident on a core. -/
def blocksOn (s : State) (core : Nat) : List Nat := (s.blocks.filter fun e => e.2.core == core).map Prod.fst

/-- Group slots and registers of a core that blocks other than `me` leave. -/
def freeSlots (s : State) (core me : Nat) : Nat := 16 - (((s.blocksOn core).filter (· ≠ me)).map s.keptSlots).foldl (· + ·) 0
def freeRegs (s : State) (core me : Nat) : Nat := 1536 - (((s.blocksOn core).filter (· ≠ me)).map s.keptRegs).foldl (· + ·) 0

/-- A group slot of a core that a block may take: no group stands in it, and it is reserved for no other block (R129). -/
def slotFree (s : State) (core id k : Nat) : Bool :=
  (s.groupAt (groupKey core k)).phase == .free &&
  (s.blocksOn core).all fun o => o == id || !(s.blockAt o).reserved.contains k

/-- `n` scratchpad slots of a core from `k` on are free. -/
def padFree (s : State) (core k n : Nat) : Bool :=
  k + n ≤ 192 && (s.blocksOn core).all fun b => n = 0 || !overlaps k n (s.blockAt b).slot0 (s.blockAt b).slots

/-- A block with `slots` group slots, `regs` registers and `pads` scratchpad slots from `k` on fits on a core. -/
def roomFor (s : State) (core slots regs pads k : Nat) : Bool :=
  slots ≤ s.freeSlots core 0 && regs ≤ s.freeRegs core 0 && s.padFree core k pads

/-- The next block of a launch fits on a core with its scratchpad at slot `k` (R125). -/
def blockFits (s : State) (core : Nat) (h : Header) (k : Nat) : Bool :=
  s.roomFor core (h.sum Stage.min) h.reservedRegs (h.scratch / slotBytes) k

/-- It fits somewhere on the core. -/
def blockFitsOn (s : State) (core : Nat) (h : Header) : Bool := (List.range 193).any fun k => s.blockFits core h k

/-! ## Placement (R122, R124) -/

/-- Granule of a core (R22). -/
def granuleOf (core : Nat) : Nat := 4 * dieOf core + clusterOf core % 16 / 4

/-- The set of a block under placement entry `j`: the fields above `j` (R122). -/
def setOf (h : Header) (j b : Nat) : Nat := b / 2 ^ (((h.widths.take (j + 1)).drop h.blklvl).foldl (· + ·) 0)

/-- Blocks of a set of placement entry `j`. -/
def setSize (h : Header) (j k : Nat) : Nat :=
  let n := 2 ^ (((h.widths.take (j + 1)).drop h.blklvl).foldl (· + ·) 0)
  min ((k + 1) * n) h.blocks - k * n

/-- Placement entries in force, and what they bind a block on a core to: its cluster or its die. -/
def placeTargets (h : Header) (core : Nat) : List (Nat × Nat) :=
  ((List.range 6).filter fun j => h.blklvl ≤ j && h.place.getD j 0 ≠ 0).map fun j =>
    (j, if h.place.getD j 0 = 1 then clusterOf core else dieOf core)

/-- The binding of a set. -/
def bindingOf (l : Launch) (j k : Nat) : Option Nat :=
  (l.bindings.find? fun e => e.1 == j && e.2.1 == k).map fun e => e.2.2.1

/-- A block may run on a core: no block that drains is there (R122, R124, R367). -/
def mayPlace (s : State) (l : Launch) (b core : Nat) : Bool :=
  core < 256 && (s.partitionAt l.partition).holds (granuleOf core) &&
  (s.contextAt l.context).vdies.contains (dieOf core) && !(s.coreAt core).paused &&
  ((s.blocksOn core).all fun b => (s.blockAt b).drain.isNone) &&
  (placeTargets l.header core).all fun e => match bindingOf l e.1 (setOf l.header e.1 b) with
    | some t => t == e.2
    | none => true

/-- The bindings of a launch once a block runs on a core. -/
def bound (l : Launch) (b core : Nat) : Launch :=
  let bind := fun (t : List (Nat × Nat × Nat × Nat)) (e : Nat × Nat) =>
    let k := setOf l.header e.1 b
    if (bindingOf l e.1 k).isSome then t else t ++ [(e.1, k, e.2, setSize l.header e.1 k)]
  { l with bindings := (placeTargets l.header core).foldl bind l.bindings }

/-- The bindings of a launch once a block has ended: those of its sets lose it, and end with their last block (R122). -/
def unbind (l : Launch) (b : Nat) : Launch :=
  let less := fun (e : Nat × Nat × Nat × Nat) =>
    if e.2.1 = setOf l.header e.1 b then (e.1, e.2.1, e.2.2.1, e.2.2.2 - 1) else e
  { l with bindings := (l.bindings.map less).filter (·.2.2.2 ≠ 0) }

/-- The block that a launch dispatches next (R124). -/
def nextBlock (l : Launch) : Option Nat :=
  match l.requeued with
  | b :: rest => some (rest.foldl min b)
  | [] => if l.next < l.header.blocks then some l.next else none

/-- The launch at the head of a queue is ready, and its next block fits on a core. -/
def offersBlock (s : State) (partition core queue : Nat) : Bool :=
  match s.headLaunch partition queue with
  | some id =>
      let l := s.launchAt id
      match nextBlock l with
      | some b => l.phase == .ready && s.mayPlace l b core && s.blockFitsOn core l.header
      | none => false
  | none => false

/-- Priority of the launch at the head of a queue. -/
def headPrio (s : State) (partition queue : Nat) : Nat :=
  ((s.headLaunch partition queue).map fun id => (s.launchAt id).header.prio).getD 0

/-- The queue whose turn it is on a core: highest priority first, then round robin (R124). -/
def queueInTurn (s : State) (partition core : Nat) : Option Nat :=
  let l := (List.range 16).filter (s.offersBlock partition core)
  let top := l.foldl (fun p q => max p (s.headPrio partition q)) 0
  let last := s.served.get (8 * partition + top) 15
  ((List.range 16).map fun k => (last + 1 + k) % 16).find? fun q => l.contains q && s.headPrio partition q == top

/-! ## Residency (R125) -/

/-- A group spawned for a stage of a block, in the lowest free slot of its core; `outside` of its registers are none that the block
has reserved (R125, R129). -/
def spawn (s : State) (id stage outside : Nat) : State :=
  let b := s.blockAt id
  match (List.range 16).find? (s.slotFree b.core id) with
  | some slot =>
      let x := { Split.none with
        mask := BitVec.allOnes 96, pc := (b.header.stages.getD stage Stage.none).entry, age := s.now, issuedAt := s.now }
      let g := { Group.free with phase := .spawned, block := id, stage := BitVec.ofNat 2 stage, outside := outside, splits := [(0, x)] }
      (s.setGroupAt (groupKey b.core slot) g).setSysAt (groupKey b.core slot) GroupSys.free
  | none => s

/-- Scratchpad slots zeroed for a block: a latch of their bytes is stale (R125, R258, R326). -/
def clearPads (s : State) (core first n : Nat) : State :=
  let off := slotBytes * first
  let len := slotBytes * n
  let s := s.setSpad (s.spad.clear (padKey core off) len)
  if s.clusters.at? (clusterOf core) = none || n = 0 then s
  else s.setClusterAt (clusterOf core) (spoilCluster (s.clusterAt (clusterOf core)) core off len s.nextId)

/-- A core made ready for a block: its tags invalid, both its caches invalidated once for each launch (R14, R237, R259). -/
def readyCore (s : State) (core launch first n : Nat) : State :=
  let k := s.coreAt core
  let k := { k with tags := k.tags.filter fun e => !(first ≤ e.1 && e.1 < first + n) }
  s.setCoreAt core
    (if k.launches.contains launch then k else { k with icache := [], kcache := [], launches := k.launches ++ [launch] })

/-- Bytes of the private areas of a block (R117, R213). -/
def privateBytes (h : Header) : Nat := 96 * h.priv * 16 * h.sum Stage.max

/-- A range of addresses may hold the private areas of a block of a context. -/
def privateFree (s : State) (context : Nat) (h : Header) (a : Nat) : Bool :=
  a % 16 = 0 && a + privateBytes h ≤ 2 ^ 60 &&
  (s.blocks.all fun e => e.2.context != context || !overlaps e.2.stackBase (privateBytes e.2.header) a (privateBytes h)) &&
  (s.firmAt context).images.all fun i =>
    !i.saved || !overlaps i.block.stackBase (privateBytes i.block.header) a (privateBytes h)

/-- A block as it becomes resident (R125, R306, R310). -/
def newBlock (s : State) (launch b core slot0 stack : Nat) : Block :=
  let l := s.launchAt launch
  { Block.none with
    launch := launch, number := b, core := core, context := l.context, partition := l.partition, header := l.header
    headerAddr := l.headerAddr, slot0 := slot0, stackBase := stack, since := s.now
    relays := l.relays.zipIdx.map fun e => (e.2, Relay.marked { Relay.unbound with desc := e.1 } s.now)
    growFrom := (List.range l.header.stages.length).map fun k => (k, s.now)
    shrinkFrom := (List.range l.header.stages.length).map fun k => (k, s.now) }

/-- The launch once block `b` of it runs on a core: it dispatches with its first block, ordered by the clock and then the queue
(R124, R334). -/
def dispatchedLaunch (s : State) (l : Launch) (b core : Nat) : Launch :=
  let l := bound l b core
  { l with
    next := max l.next (b + 1)
    requeued := l.requeued.filter (· ≠ b)
    order := some (l.order.getD (16 * s.now + l.queue)) }

/-- A block becomes resident (R125). -/
def makeResident (s : State) (launch b core slot0 stack : Nat) : State :=
  let l := s.launchAt launch
  let h := l.header
  let n := h.scratch / slotBytes
  let id := s.freshId
  let block := s.newBlock launch b core slot0 stack
  let s := (s.clearPads core slot0 n).readyCore core launch slot0 n
  let s := (s.setBlockAt id block).bumpId
  let new := s.dispatchedLaunch l b core
  let s := (s.setLaunchAt launch new)
  let s := { s with
    dispatched := if l.order.isNone then s.dispatched + 1 else s.dispatched
    served := s.served.set (8 * l.partition + h.prio) l.queue }
  let s := h.stages.zipIdx.foldl (fun s e => (List.range e.1.min).foldl (fun s _ => s.spawn id e.2 0) s) s
  s.setBlockAt id { s.blockAt id with reserved := (s.groupsIn id).map (· % 16) }

/-! ## The end of a block (R126, R209) -/

/-- Counters added into a launch's totals (R209). -/
def addStats (t u : Table Word) : Table Word :=
  u.foldl (fun t e => t.set e.1 (BitVec.ofNat 32 (min 0xFFFFFFFF ((t.get e.1 0).toNat + e.2.toNat)))) t

/-- Matrix operations and pins of a block gone from a cluster (R338). -/
def clusterWithout (k : Cluster) (id : Nat) : Cluster := Cluster.dropped k (·.block == id) [id]

/-- A block leaves its core: its slots, units and pins are free. -/
def vacate (s : State) (id : Nat) : State :=
  let b := s.blockAt id
  let c := clusterOf b.core
  let s := { s with blocks := s.blocks.erase id }
  if s.clusters.at? c = none then s else s.setClusterAt c (clusterWithout (s.clusterAt c) id)

/-- A block has ended: its launch counts it, and the last one completes the launch (R126). -/
def endBlock (s : State) (id : Nat) : State :=
  let b := s.blockAt id
  let l := unbind (s.launchAt b.launch) b.number
  let l := { l with ended := l.ended + 1, runTime := l.runTime + (s.now - b.since), stats := addStats l.stats b.stats,
                    lastDie := dieOf b.core }
  let s := s.vacate id
  if l.ended = l.header.blocks then (s.setLaunchAt b.launch { l with phase := .completing }).complete b.launch
  else s.setLaunchAt b.launch l

/-! ## Growth and shrinkage (R128 to R130) -/

/-- The input relay of a stage (R128). -/
def inputRelay (b : Block) (stage : Nat) : Option Relay :=
  (b.relays.find? fun e => e.2.desc.cons == stage).map Prod.snd

/-- Groups of a stage that count against MAX: members and groups that have yet to attach. A group that has ended and keeps its member
index only for a posted slice (R134) is none: the spec does not say (DESIGN CHOICE, entry 97) (R129). -/
def stageGroups (s : State) (id stage : Nat) : List Nat :=
  (s.groupsIn id).filter fun k => (s.groupAt k).stage.toNat == stage &&
    ((s.groupAt k).phase == .spawned || (s.groupAt k).phase == .attached)

/-- The stage wants one group more: its window is full, and it has fewer than MAX groups (R129). -/
def wantsGroup (s : State) (id stage : Nat) : Bool :=
  let b := s.blockAt id
  match inputRelay b stage with
  | some r =>
      (match r.fullSince with
        | some t => max t (b.growFrom.get stage 0) + 1024 ≤ s.now
        | none => false) &&
      stage < b.header.stages.length && (s.stageGroups id stage).length < (b.header.stages.getD stage Stage.none).max
  | none => false

/-- Registers that one more group of a stage would hold beside those reserved for its block (R129). -/
def outsideRegs (s : State) (id stage : Nat) : Nat :=
  ((s.blockAt id).header.stages.getD stage Stage.none).regs - s.spareRegs id

/-- The core has a slot and registers for one more group of a stage (R129). -/
def hasGroupRoom (s : State) (id stage : Nat) : Bool :=
  let b := s.blockAt id
  (List.range 16).any (s.slotFree b.core id) && s.keptRegs id + s.outsideRegs id stage ≤ s.freeRegs b.core id

/-- A stage grows (R129). -/
def growStage (s : State) (id stage : Nat) : State :=
  let b := s.blockAt id
  (s.setBlockAt id { b with growFrom := b.growFrom.set stage s.now }).spawn id stage (s.outsideRegs id stage)

/-- The group of a stage that attached last. -/
def youngest (s : State) (l : List Nat) : Option Nat :=
  match l with
  | [] => none
  | k :: rest => some (rest.foldl (fun a b => if (s.sysAt a).attachAge ≤ (s.sysAt b).attachAge then b else a) k)

/-- A stage may shrink (R130). -/
def mayShrink (s : State) (id stage : Nat) : Bool :=
  let b := s.blockAt id
  let l := s.stageGroups id stage
  match inputRelay b stage with
  | some r =>
      (match r.emptySince with
        | some t => max t (b.shrinkFrom.get stage 0) + 4096 ≤ s.now
        | none => false) &&
      (b.header.stages.getD stage Stage.none).min < l.length && !(l.any fun k => (s.groupAt k).shrink) &&
      b.growFrom.get stage 0 != s.now && !(s.wantsGroup id stage && s.hasGroupRoom id stage) &&
      (s.blocksOn b.core).any fun o => (List.range (s.blockAt o).header.stages.length).any fun t =>
        (o != id || t != stage) && s.wantsGroup o t && !s.hasGroupRoom o t
  | none => false

/-- The youngest group of a stage gets its shrink flag (R130). -/
def shrinkStage (s : State) (id stage : Nat) : State :=
  match s.youngest ((s.stageGroups id stage).filter fun k => (s.groupAt k).phase == .attached) with
  | some k => s.setGroupAt k { s.groupAt k with shrink := true }
  | none => s

/-! ## The end of a group's slot (R112) -/

/-- A group that has ended holds no counted operation any more. -/
def slotDone (s : State) (gk : Nat) : Bool :=
  let y := s.sysAt gk
  (s.groupAt gk).phase == .ended && y.st.isEmpty && y.cp.isEmpty && y.tm.isEmpty

/-- The slot and the registers of a group are released (R112). -/
def releaseSlot (s : State) (gk : Nat) : State :=
  let c := clusterOf (coreOfKey gk)
  let s := { s with groups := s.groups.erase gk, sys := s.sys.erase gk }
  if s.clusters.at? c = none then s
  else
    s.setClusterAt c (Cluster.dropped (s.clusterAt c) (fun e => groupKey e.core e.slot == gk) [])

end State

end Sys2Proof.Machine
end

