-- ==== Sys2Proof/Machine/BlockEvents.lean ====
section
/-!
DEFINITION. Events of launches and blocks: the header check (R119), the dependence (R123), residency (R125), the end of a block
(R126), growth and shrinkage (R129, R130), the release of a group's slot (R112).
-/

namespace Sys2Proof.Machine

namespace State

/-- The launch at the head of a queue stands in a phase and waits for no page. -/
def headIn (s : State) (partition queue : Nat) (phase : LaunchPhase) : Option Nat :=
  match s.headLaunch partition queue with
  | some id => if (s.launchAt id).phase = phase && (s.launchAt id).missing.isEmpty then some id else none
  | none => none

/-- An event of the launch at the head of a queue. -/
def headEvent (s : State) (partition queue : Nat) (phase : LaunchPhase) (due : Launch → Bool) (effect : State → Nat → State) :
    Result :=
  match s.headIn partition queue phase with
  | some id => s.event (due (s.launchAt id)) fun s => effect s id
  | none => s.event false fun s => s

/-- The next block of the launch at the head of a queue becomes resident on a core (R124, R125). -/
def residency (s : State) (id core slot0 stack : Nat) : State :=
  let l := s.launchAt id
  match nextBlock l with
  | some b =>
      if s.mayPlace l b core && s.blockFits core l.header slot0 && s.privateFree l.context l.header stack then
        s.makeResident id b core slot0 stack
      else s
  | none => s

end State

open State

/-- LAUNCH_HEADER_CHECK (R119). -/
def execLaunchHeaderCheck (partition queue : Nat) (s : State) : Result :=
  s.headEvent partition queue .queued (fun _ => true) State.checkHeader

/-- DEPENDENCE_READ; `reply` is what a peer device answers for a word it holds (R123, R219). -/
def execDependenceRead (partition queue : Nat) (reply : DWord) (s : State) : Result :=
  s.headEvent partition queue .waiting (fun _ => true) fun s id => s.readDependence id reply

/-- DEPENDENCE_RECHECK_TIMER: 65,536 clocks after the last read (R123). -/
def execDependenceRecheckTimer (partition queue : Nat) (reply : DWord) (s : State) : Result :=
  s.headEvent partition queue .waiting (fun l => l.recheckAt ≤ s.now) fun s id => s.readDependence id reply

/-- BLOCK_RESIDENCY: a core, the first of the scratchpad slots and the address of the private areas, which the device chooses
(R124, R125, R213). -/
def execBlockResidency (partition queue core slot0 stack : Nat) (s : State) : Result :=
  s.headEvent partition queue .ready (fun _ => s.hw.power.computeUp && s.queueInTurn partition core == some queue) fun s id =>
    s.residency id core slot0 stack

/-- BLOCK_END (R126). -/
def execBlockEnd (block : Nat) (s : State) : Result :=
  s.event ((s.blocks.at? block).isSome && (s.groupsIn block).isEmpty) fun s => s.endBlock block

/-- STAGE_GROWTH (R129). -/
def execStageGrowth (block stage : Nat) (s : State) : Result :=
  s.event ((s.blocks.at? block).isSome && s.wantsGroup block stage && s.hasGroupRoom block stage) fun s =>
    s.growStage block stage

/-- STAGE_SHRINK (R130). -/
def execStageShrink (block stage : Nat) (s : State) : Result :=
  s.event ((s.blocks.at? block).isSome && s.mayShrink block stage) fun s => s.shrinkStage block stage

/-- GROUP_SLOT_RELEASE (R112). -/
def execGroupSlotRelease (core slot : Nat) (s : State) : Result :=
  s.event (s.slotDone (groupKey core slot)) fun s => s.releaseSlot (groupKey core slot)

end Sys2Proof.Machine
end

