-- ==== Sys2Proof/Machine/Mapping.lean ====
section
/-!
DEFINITION. Frames of a partition (R386), tables as firmware and the security core write them (R378, R379), the security core's
check of a mapping (R390), changes of frame records (R391).
-/

namespace Sys2Proof.Machine

namespace State

/-! ## Frames of a partition (R386) -/

/-- Frames of a stack that are not free. -/
def stackUsed (s : State) (g : Nat) : Nat :=
  (s.hw.frames.filter fun e => e.1 / stackFrames == g && e.2.state != .free).length

/-- What a frame takes of its partition's far-tier share, in units of 8 KiB: a far-tier frame 8, the MACs and counters of a frame of
class 0b10 one (R386, R392). -/
def chargeOf (far : Bool) (pclass : BitVec 2) : Nat := (if far then 8 else 0) + if pclass = 2 then 1 else 0

/-- What the frames of a partition's contexts take of its share. -/
def shareHeld (s : State) (p : Nat) : Nat :=
  ((s.hw.frames.filter fun e => e.2.part.toNat == p && e.2.owner != 0xFFFF && e.2.state != .free).map fun e =>
    chargeOf (s.isFar e.1) e.2.pclass).foldl (· + ·) 0

/-- The share of the far tier of a partition that exists has `n` units of 8 KiB left (R387). -/
def shareLeft (s : State) (p n : Nat) : Bool :=
  n = 0 || ((s.partitionAt p).valid && s.shareHeld p + n ≤ 131072 * (s.partitionAt p).farshare.toNat)

/-- A frame lies where a partition's frames lie: a stack of its granules, or the far tier. Granule `g` has stack g mod 4 of its die, in
the order of the address map (R22, R386; entry 83). -/
def inPartition (s : State) (p f : Nat) : Bool :=
  match s.frameKind f with
  | some (.near die stack) => (s.partitionAt p).holds (4 * die + stack)
  | some (.far _) => (s.partitionAt p).valid
  | _ => false

/-- A frame that a partition may take for a page of a tier: 0 any, 1 near, 2 far (R379, R386, R392). -/
def mayTakeFrame (s : State) (p tier : Nat) (pclass : BitVec 2) (f : Nat) : Bool :=
  s.isFree f && s.inPartition p f && (if s.isFar f then tier ≠ 1 else tier ≠ 2) && s.shareLeft p (chargeOf (s.isFar f) pclass)

/-- A granule with a free frame in its stack. -/
def roomyGranule (s : State) (p : Nat) : Option Nat :=
  (List.range 16).find? fun g => (s.partitionAt p).holds g && s.stackUsed g < stackFrames

/-- A free frame of a partition in a tier: the device's choice, else the lowest in the near tier, else in the far tier (R386,
R401); none where there is none. -/
def pickFrame (s : State) (p tier : Nat) (pclass : BitVec 2) (choice : Nat) : Option Nat :=
  if s.mayTakeFrame p tier pclass choice then some choice
  else
    match if tier = 2 || !s.shareLeft p (chargeOf false pclass) then none else s.roomyGranule p with
    | some g => s.freeFrom (stackFrames * g) (s.stackUsed g + 1)
    | none =>
        if tier ≠ 1 && s.shareLeft p (chargeOf true pclass) && s.farUsed < farFrames then s.freeFrom 0xC00000 (s.farUsed + 1) else none

/-- The lowest aligned run of `n` free frames among `count` from `base` on, of which `used` are not free. -/
def freeRun (s : State) (base count used n : Nat) : Option Nat :=
  ((List.range (used + 1)).find? fun k => n * (k + 1) ≤ count && (List.range n).all fun i => s.isFree (base + n * k + i)).map
    (base + n * ·)

/-- A run of free frames of a partition, as of a page of a tier and a class: near where there is one, else far (R386, R392). -/
def pickRun (s : State) (p tier : Nat) (pclass : BitVec 2) (n : Nat) : Option Nat :=
  let near := if tier = 2 || !s.shareLeft p (n * chargeOf false pclass) then none
    else (List.range 16).findSome? fun g =>
      if (s.partitionAt p).holds g then s.freeRun (stackFrames * g) stackFrames (s.stackUsed g) n else none
  let far := if tier ≠ 1 && s.shareLeft p (n * chargeOf true pclass) then s.freeRun 0xC00000 farFrames s.farUsed n else none
  near <|> far

/-- The record of a frame that a context takes (R390). The spec numbers no key slots: a frame with a key has its context's number
(entry 19). -/
def ownedFrame (x : Context) (c : Nat) (pclass : BitVec 2) : FrameRecord :=
  { FrameRecord.free with
    owner := BitVec.ofNat 16 c, part := BitVec.ofNat 4 x.partition, pclass, state := .owned
    key := if pclass = 0 then 0 else BitVec.ofNat 32 c }

/-! ## Tables (R378, R379, R389) -/

/-- Frames that a table of a level takes: its own size, or one frame. -/
def tableFrames (level : Nat) : Nat := if level = 2 || level = 3 then 4 else 1

/-- A new table of a context, all zero: a protected context owns its tables' frames, firmware the others' (R389; entry 20). -/
def takeTable (s : State) (c level : Nat) : Option (State × Nat) :=
  let x := s.contextAt c
  let n := tableFrames level
  let run := if x.prot then s.pickRun x.partition 0 1 n else s.freeRun 0xC00000 farFrames s.farUsed n
  let record := if x.prot then ownedFrame x c 1 else { FrameRecord.free with owner := 0xFFFF, state := .owned }
  run.map fun f =>
    let s := (List.range n).foldl (fun s i => (s.zeroFrame (f + i)).setFrameAt (f + i) record) s
    let k := s.firmAt c
    (s.setFirmAt c { k with tables := k.tables ++ (List.range n).map (f + ·) }, f)

end State

/-- The way to a table entry: blocked by a leaf above it, no memory for a table, or the state with the tables made and the entry's
address. -/
inductive Reach where
  | blocked
  | full
  | entry (s : State) (pa : Nat)

/-- An entry that points to a table (R379). -/
def tableEntry (pa : Nat) : DWord := BitVec.ofNat 64 (1 + 2 ^ 20 * (pa / 256))

/-- The entry of an address at a level, tables made where there are none (R378). -/
def reach (c va target : Nat) : Nat → Nat → State → Reach
  | 0, _, _ => .blocked
  | level + 1, table, s =>
      let a := table + 8 * tableIndex va level
      let e : DWord := BitVec.ofNat 64 (s.mem.read a 8)
      if level = target then .entry s a
      else if leafV e then if leafLeaf e then .blocked else reach c va target level (256 * leafAddr e) s
      else
        match s.takeTable c (level - 1) with
        | some (t, f) =>
            reach c va target level (65536 * f) (t.setMem (t.mem.write a 8 (tableEntry (65536 * f)).toNat))
        | none => .full

/-- The address of the entry of an address at a level, where the tables reach it. -/
def entryFrom (m : Memory) (va target : Nat) : Nat → Nat → Option Nat
  | 0, _ => none
  | level + 1, table =>
      let a := table + 8 * tableIndex va level
      let e : DWord := BitVec.ofNat 64 (m.read a 8)
      if level = target then some a
      else if leafV e && !leafLeaf e then entryFrom m va target level (256 * leafAddr e)
      else none

/-- A leaf of a context's tables: the first address it maps, its level, where its entry stands, and the entry. -/
structure LeafAt where
  va : Nat
  level : Nat
  pa : Nat
  leaf : DWord
deriving DecidableEq, Repr

/-- Bytes that an entry of a level covers, as a power of two. -/
def spanBits (level : Nat) : Nat := if level = 3 then 45 else pageBits level

/-- Indexes of the entries of a table that are not zero. -/
def entriesListed (m : Memory) (table level : Nat) : List Nat :=
  let size := if level = 2 || level = 3 then 0x40000 else if level = 1 then 0x1000 else 0x100
  State.distinct ((m.filter fun c => table ≤ c.1 && c.1 < table + size).map fun c => (c.1 - table) / 8)

/-- The leaves below a table. -/
def leavesFrom (m : Memory) : Nat → Nat → Nat → List LeafAt
  | 0, _, _ => []
  | level + 1, table, base =>
      ((entriesListed m table level).map fun i =>
        let pa := table + 8 * i
        let e : DWord := BitVec.ofNat 64 (m.read pa 8)
        let va := base + i * 2 ^ spanBits level
        if !leafV e || malformed e level then []
        else if leafLeaf e then [{ va, level, pa, leaf := e }]
        else leavesFrom m level (256 * leafAddr e) va).flatten

/-- Frames that a leaf maps: none for a peer's page or a lattice page. -/
def leafFrames (e : DWord) (level : Nat) : List Nat :=
  if leafPeer e || leafLat e then [] else (List.range (2 ^ (pageBits level - 16))).map (leafAddr e + ·)

/-- A leaf maps a frame. -/
def LeafAt.maps (l : LeafAt) (f : Nat) : Bool :=
  !leafPeer l.leaf && !leafLat l.leaf && leafAddr l.leaf ≤ f && f < leafAddr l.leaf + 2 ^ (pageBits l.level - 16)

/-- A leaf with its frames elsewhere. -/
def movedLeaf (e : DWord) (frame : Nat) : DWord := BitVec.ofNat 64 (e.toNat % 2 ^ 20 + 2 ^ 20 * frame + 2 ^ 60 * (e.toNat / 2 ^ 60))

namespace State

/-- The leaves of a context. -/
def leavesOf (s : State) (c : Nat) : List LeafAt := leavesFrom s.mem 4 (s.contextAt c).tbase 0

/-- The leaves of all contexts that map a frame, with their contexts. -/
def leavesTo (s : State) (f : Nat) : List (Nat × LeafAt) :=
  (s.contexts.map fun e => ((s.leavesOf e.1).filter (·.maps f)).map fun l => (e.1, l)).flatten

/-! ## The security core's check (R390) -/

/-- Conditions on one frame of a leaf, with their statuses. -/
def frameFaults (s : State) (c : Nat) (e : DWord) (f : Nat) : List (Bool × Nat) :=
  let x := s.contextAt c
  let r := s.frameAt f
  match s.frameKind f with
  | some (.window n) =>
      [(n ≠ x.space, 0x01), (leafPclass e ≠ 0, 0x03), (x.prot && leafX e, 0x04), (x.prot && !leafSc e, 0x05)]
  | _ =>
      [(r.state ≠ .free && r.state ≠ .quarantined && !r.usable c x.partition || (s.firmAt c).tables.contains f, 0x01),
       (!s.inPartition x.partition f, 0x02),
       (r.state = .owned && (leafPclass e ≠ r.pclass || leafLat e ≠ r.lat || leafLtype e ≠ r.ltype), 0x03),
       (x.prot && ((leafW e && r.code) || (leafX e && !r.code)), 0x04),
       ((x.prot && leafPclass e = 0 && !leafSc e) || (leafSc e && !r.scok), 0x05),
       (r.state = .quarantined, 0x07)]

/-- Frames of a lattice frame set, one for each physical die. -/
def setFrames (s : State) (c : Nat) (e : DWord) : List Nat := (s.contextAt c).vdies.map fun d => s.setFrame (leafAddr e) d

/-- Frames that a proposed leaf names: those of a frame set that exists, for a lattice page; none for a table. -/
def namedFrames (s : State) (c : Nat) (e : DWord) (level : Nat) : List Nat :=
  if !leafLeaf e then []
  else if leafLat e then (if s.hw.frameSets.at? (leafAddr e) = none then [] else s.setFrames c e) else leafFrames e level

/-- What a proposed leaf takes of the share of its context's partition: its free frames, those of a new frame set among them. -/
def leafCharge (s : State) (c : Nat) (e : DWord) (level : Nat) : Nat :=
  let free := (s.namedFrames c e level).filter s.isFree
  let new := if leafLat e && s.hw.frameSets.at? (leafAddr e) = none then (s.contextAt c).vdies.length else 0
  (free.map fun f => chargeOf (s.isFar f) (leafPclass e)).foldl (· + ·) (new * chargeOf false (leafPclass e))

/-- A leaf keeps to the regions in force: every page of one is mapped with its type and scope (R268). -/
def regionSuits (s : State) (c va level : Nat) (e : DWord) : Bool :=
  let n := 2 ^ pageBits level
  (s.contextAt c).regions.all fun r =>
    !regionV r.2 || !overlaps (regionBase r.2) (65536 * regionPages r.2) (va / n * n) n ||
      (leafLat e && leafLtype e == regionType r.2 && leafLscope e == regionRoster r.2)

/-- Conditions on a leaf of a page that names no frame of the module, or a frame set that takes free frames: no frame of it is measured or
has SCOK (R389, R390). -/
def leafFaults (s : State) (c : Nat) (e : DWord) : List (Bool × Nat) :=
  let x := s.contextAt c
  let new := leafLat e && s.hw.frameSets.at? (leafAddr e) = none
  if leafPeer e || new then
    [(x.prot && leafX e, 0x04), ((x.prot && leafPclass e = 0 && !leafSc e) || (new && leafSc e), 0x05)]
  else []

/-- The status of a mapping: the lowest one whose condition holds (R390; entry 21). A proposal of a table, or of a page that does not
suit its region, counts as malformed (entry 84). -/
def mapStatus (s : State) (c va : Nat) (e : DWord) (level : Nat) : Nat :=
  let l := ((s.namedFrames c e level).map (s.frameFaults c e)).flatten ++ s.leafFaults c e ++
    [(!s.shareLeft (s.contextAt c).partition (s.leafCharge c e level), 0x02),
     (malformed e level || !leafLeaf e || !s.regionSuits c va level e, 0x06)]
  (l.filter Prod.fst).foldl (fun n f => min n f.2) 8 % 8

/-- A frame zero-filled and recorded for a context, where it was free: written since the context's last checkpoint (R404). -/
def claimFrame (s : State) (r : FrameRecord) (f : Nat) : State :=
  match s.frameKind f with
  | some (.near _ _) | some (.far _) => if s.isFree f then ((s.zeroFrame f).setFrameAt f r).noteFrame r.owner.toNat f else s
  | _ => s

/-- Free near-tier frames, one on each die of a context, for a frame set of a class that a proposal names first (R268; entry 22); the share
of the partition has room for what stands beside them (R392). -/
def newSet (s : State) (c : Nat) (pclass : BitVec 2) : Option (List Nat) :=
  let x := s.contextAt c
  if !s.shareLeft x.partition (x.vdies.length * chargeOf false pclass) then none
  else (List.range 4).foldl (fun l d =>
    match l with
    | none => none
    | some l =>
        if x.vdies.contains d then
          match (List.range 4).find? fun k =>
              (s.partitionAt x.partition).holds (4 * d + k) && s.stackUsed (4 * d + k) < stackFrames with
          | some k => (s.freeFrom (stackFrames * (4 * d + k)) (s.stackUsed (4 * d + k) + 1)).map fun f => l ++ [f]
          | none => none
        else some (l ++ [0])) (some [])

/-- The frames of an accepted leaf claimed; none where a new frame set finds no frames. -/
def claimLeaf (s : State) (c : Nat) (e : DWord) (level : Nat) : Option State :=
  let x := s.contextAt c
  let r := { ownedFrame x c (leafPclass e) with lat := leafLat e, ltype := leafLtype e }
  if leafLat e && s.hw.frameSets.at? (leafAddr e) = none then
    (s.newSet c (leafPclass e)).map fun l =>
      let s := s.setHw { s.hw with frameSets := s.hw.frameSets.set (leafAddr e) l }
      (x.vdies.map fun d => l.getD d 0).foldl (fun s f => s.claimFrame r f) s
  else some ((s.namedFrames c e level).foldl (fun s f => s.claimFrame r f) s)

/-- The pages that an entry at a level covers: the first and how many. -/
def covered (va level : Nat) : Nat × Nat :=
  (va / 2 ^ spanBits level * 2 ^ spanBits level / 65536, 2 ^ (spanBits level - 16))

/-- The entry that stands where a mapping is to be written. -/
def oldEntry (s : State) (c va level : Nat) : DWord :=
  match entryFrom s.mem va level 4 (s.contextAt c).tbase with
  | some a => BitVec.ofNat 64 (s.mem.read a 8)
  | none => 0

/-- A mapping may be written now: where it replaces a present entry, every access that used it has been performed (R260, R390). -/
def mayMap (s : State) (c va level : Nat) : Bool :=
  !leafV (s.oldEntry c va level) || !s.usesEntries c (some (covered va level))

/-- A mapping checked and written, with its status (R390, R391). An entry that takes a page away names no frame. The entry is written and
the old one dropped from the TLBs in one act: a TLB that goes on using it for a while, as R260 permits, does not arise (entry 67). -/
def mapPage (s : State) (c va level : Nat) (e : DWord) : State × Nat :=
  let old := s.oldEntry c va level
  let write := fun (t : State) (a : Nat) =>
    let t := t.setMem (t.mem.write a 8 e.toNat)
    if leafV old then t.dropEntries c (some (covered va level)) else t
  if !leafV e then
    match entryFrom s.mem va level 4 (s.contextAt c).tbase with
    | some a => (write s a, 0)
    | none => (s, 0)
  else
    match s.mapStatus c va e level with
    | 0 =>
        match s.claimLeaf c e level with
        | none => (s, 0x01)
        | some t =>
            match reach c va level 4 (s.contextAt c).tbase t with
            | .blocked => (s, 0x06)
            | .full => (s, 0x01)
            | .entry t a => ((write t a).askWhenLow, 0)
    | status => (s, status)

/-! ## Changes of records (R27, R383, R386, R391) -/

end State

/-- A record from its 64 bits (R383). -/
def recordOfBits (w : DWord) : FrameRecord :=
  { owner := w.extractLsb' 0 16, part := w.extractLsb' 16 4, pclass := w.extractLsb' 20 2, scok := w.getLsbD 22
    code := w.getLsbD 23, lat := w.getLsbD 24, ltype := w.extractLsb' 25 4, host := w.getLsbD 29
    state := match (w.extractLsb' 30 2).toNat with
      | 0 => .free | 1 => .owned | 2 => .zeroing | _ => .quarantined
    key := w.extractLsb' 32 32 }

namespace State

/-- An operation has still to access a frame. -/
def frameBusy (s : State) (f : Nat) : Bool :=
  s.sys.any fun e => (openOps e.2).any fun p => p.accesses.any fun a => match a.place with
    | .mem pa => pa / 65536 == f
    | _ => false

/-- A reduction window in force of which this device is the home covers a page of a context, whose frame is held in place (R233). -/
def windowHolds (s : State) (c va : Nat) : Bool :=
  (s.contextAt c).windows.any fun w => winV w.2 && winSelf w.2 && overlaps (winBase w.2) (winSize w.2) va 65536

/-- A window holds a frame in place (R233). -/
def heldInPlace (s : State) (f : Nat) : Bool :=
  (s.leavesTo f).any fun e => s.windowHolds e.1 (e.2.va + 65536 * (f - leafAddr e.2.leaf))

/-- A pool frame that a tenant space or a context still maps (R428). -/
def poolMapped (s : State) (f : Nat) : Bool :=
  (s.frameAt f).owner == 0xFFFE &&
  (!(s.leavesTo f).isEmpty || s.hw.spaces.any fun e => e.2.pages.any fun p => p.2.form == .plain && p.2.loc == f)

/-- A frame freed: dropped, zero-filled and free (R391). -/
def freeFrame (s : State) (f : Nat) : State := ((s.dropOwner f).zeroFrame f).setFrameAt f FrameRecord.free

/-- A record that the security core may set: its owner exists, its PART is the owner's, the frame lies in that partition, whose share
has room for it (R383, R386, R392). -/
def recordFine (s : State) (f : Nat) (r : FrameRecord) : Bool :=
  let old := s.frameAt f
  let p := r.part.toNat
  let held := if old.state ≠ .free && old.owner ≠ 0xFFFF && old.part = r.part then chargeOf (s.isFar f) old.pclass else 0
  let room := s.inPartition p f && s.shareLeft p (chargeOf (s.isFar f) r.pclass - held)
  match s.frameKind f with
  | some (.near _ _) | some (.far _) =>
      r.pclass ≠ 3 &&
      (if r.owner = 0xFFFF then true
       else if r.owner = 0xFFFE then room
       else (s.contexts.at? r.owner.toNat).isSome && (s.contextAt r.owner.toNat).partition == p && room)
  | _ => false

/-- A frame holds a live table of a context: its record stays as it is (R389). -/
def holdsTable (s : State) (f : Nat) : Bool := s.firm.any fun e => e.2.tables.contains f

/-- The security core changes a record: a frame leaves its owner before it takes a new record (R391), whose owner's checkpoints find it
written (R404). -/
def changeRecord (s : State) (f : Nat) (r : FrameRecord) : State :=
  match r.state with
  | .free => s.freeFrame f
  | .quarantined => s.quarantine f
  | .owned =>
      if s.recordFine f r then
        (((if s.isFree f then s.zeroFrame f else s.freeFrame f).setFrameAt f r).noteFrame r.owner.toNat f).askWhenLow
      else s
  | .zeroing => s

end State

end Sys2Proof.Machine
end

