-- ==== Sys2Proof/Machine/Lattice.lean ====
section
/-!
DEFINITION. Lattice words: LJOIN (R276, R277), LLOAD (R278 to R281), LMISC (R282 to R286).
-/

namespace Sys2Proof.Machine

/-- The code of a lattice type in leaves and descriptors (R264). -/
def latCode (t : LatType) : Nat :=
  match t with
  | .maxN32 => 0 | .maxN64 => 1 | .maxI32 => 2 | .minN32 => 3 | .orB32 => 4 | .orB64 => 5 | .maxF32 => 6 | .andB32 => 7
  | .cnt8x32 => 8

namespace State

/-- A lattice word may act on a page: it is usable and its type passes the word's own test (R275). -/
def cellRule (s : State) (test : LatType → Nat → Bool) : LatRule := fun e va =>
  s.latticePage e va && match latTypeOf (leafLtype e) with
    | some t => test t va
    | none => false

/-- Bytes read for a width (R275). -/
def cellBytes : LatWidth → Nat
  | .b32 => 4
  | .b64 => 8
  | .cnt => 32

/-- A lane of a lattice word: address, alignment to `align`, page, permission, type (R275). -/
def cellLane (s : State) (base : SReg) (o : VReg) (align : Nat) (k : AccessKind) (test : LatType → Nat → Bool) (l : Nat) :
    LaneGo :=
  s.globalLane (s.laneAddress base .zx o l) align align k (s.cellRule test)

/-- The slot of a cnt8x32 cell that the issuing core's die writes (R266). -/
def slotLane (s : State) (g : LaneGo) : LaneGo :=
  let v := vdieOf s.vcontext (dieOf s.cur.core)
  match g.place with
  | .mem pa => { g with place := .mem (pa + 4 * v) }
  | _ => g

/-- The value operand of a join, one register or a pair (R277). -/
def cellData (s : State) (ty : LatType) (x : VReg) (l : Nat) : QWord :=
  if ty.wide then (s.readVPair x l).setWidth 128 else (s.readV x l).setWidth 128

/-- A lattice word that writes cells: the whole cell of its type, or one slot of a cnt8x32 cell (R277, R283). -/
def joinWord (s : State) (act : OpAct) (ty : LatType) (x o : VReg) (base : SReg) (release : Bool) : State :=
  let go := s.cellLane base o ty.bytes .write fun t _ => t == ty
  if ty = .cnt8x32 then s.accessWord .st 18 act 4 (fun l => s.slotLane (go l)) (s.cellData ty x) false release
  else s.accessWord .st 18 act ty.bytes go (s.cellData ty x) false release

/-- A lane of LLD or LLDGE (R275). -/
def readCell (s : State) (base : SReg) (o : VReg) (w : LatWidth) : Nat → LaneGo :=
  s.cellLane base o (cellBytes w) .read fun t _ => t.width == w

/-- LLD (R279). -/
def cellLoad (s : State) (x o : VReg) (base : SReg) (w : LatWidth) (acquire : Bool) : State :=
  s.accessWord .ld 17 (.latRead w x) (cellBytes w) (s.readCell base o w) (fun _ => 0) acquire false

/-- The type of the page at an address, as the issuing core translates it. -/
def pageType (s : State) (va : Nat) : LatType :=
  match s.translate s.cur.core s.block.context va with
  | .leaf e _ => (latTypeOf (leafLtype e)).getD .maxN32
  | _ => .maxN32

/-- A cell stands at its threshold in the page's order (R280). -/
def cellReached (s : State) (w : LatWidth) (x : VReg) (go : Nat → LaneGo) (l : Nat) : Bool :=
  let t := if w = .b64 then (s.readVPair x l).toNat else (s.readV x l).toNat
  let a : Access := { lane := l, place := (go l).place, va := (go l).va, n := cellBytes w, data := 0, dead := false }
  (s.pageType (go l).va).atLeast (s.cellValue (w == .cnt) a).toNat t

/-- LLDGE: checked, then held until every lane's cell stands at its threshold; then an acquiring read (R280). -/
def cellWait (s : State) (x o : VReg) (base : SReg) (w : LatWidth) : State :=
  let go := s.readCell base o w
  s.laneWord 17 go fun s =>
    if (LaneMask.list s.active).all (s.cellReached w x go) then
      (s.post .ld (.latRead w x) (s.accessesOf (cellBytes w) go fun _ => 0) true false).done
    else s.held s.holdOf

/-- The accesses of an LTRY: the width and the type come from the page (R281). -/
def tryAccesses (s : State) (x : VReg) (go : Nat → LaneGo) : List Access :=
  (LaneMask.list s.active).map fun l =>
    let t := s.pageType (go l).va
    let th : DWord := if t.wide then s.readVPair x l else (s.readV x l).setWidth 64
    { lane := l, place := (go l).place, va := (go l).va, n := t.bytes,
      data := (BitVec.ofNat 64 (latCode t)) ++ th, dead := false }

/-- LTRY (R281). -/
def cellTry (s : State) (x o : VReg) (base : SReg) (p : PReg) : State :=
  let go := s.cellLane base o 4 .read fun t va => va % t.bytes == 0
  s.laneWord 17 go fun s =>
    let l := s.tryAccesses x go
    (s.post .ld (.latTry (l.any fun a => (tryType a).wide) x p) l false false).done

/-! ## LSYNC (R286) -/

/-- The number under which a region's laps on a die are kept. -/
def lapKey (region die : Nat) : Nat := 4 * region + die

def LapState.none : LapState := { number := 0, begun := 0, inLap := false, pending := [], ends := 0 }

/-- The laps of a region of a context on a die. -/
def lapAt (s : State) (context region die : Nat) : LapState := (s.contextAt context).laps.get (lapKey region die) LapState.none

/-- Lattice writes of the group to a region that are not yet performed. -/
def regionWrites (s : State) (x : Context) (region : Nat) : List Pending :=
  s.gsys.st.filter fun p => !p.finished && (match p.act with
    | .join _ | .asserting _ | .increment => true
    | _ => false) && p.accesses.any fun a => x.regionAt a.va == some region

/-- The first lap that begins from now on (R286). -/
def nextLap (l : LapState) : Nat := if l.inLap then l.ends + 1 else l.ends

/-- LSYNC on a region: held until a lap has ended here that began after the group's writes to it were performed (R286). -/
def syncRegion (s : State) (region : Nat) : State :=
  let x := s.vcontext
  let s := (s.regionWrites x region).foldl (fun s p => s.performWhole s.gkey .st p.id) { s with last := .idle }
  if s.last = .killed then s
  else if s.regionWrites x region ≠ [] then s.stalled
  else
    let l := s.lapAt s.block.context region (dieOf s.cur.core)
    match s.holdOf.lap with
    | some k => if k < l.ends then s.done else s.held s.holdOf
    | none => s.held { s.holdOf with lap := some (nextLap l) }

end State

open State

/-- LJOIN (R277). -/
def execLjoin (x o : VReg) (base : SReg) (rel : Bool) (ty : LatType) (s : State) : Result :=
  s.issue (.ljoin x o base rel ty) fun s => s.joinWord (.join ty) ty x o base rel

/-- LLD: relaxed (R279). -/
def execLld (x o : VReg) (base : SReg) (w : LatWidth) (s : State) : Result :=
  s.issue (.lld x o base w) fun s => s.cellLoad x o base w false

/-- LLD_ACQ: an acquire at the region's scope (R279). -/
def execLldAcq (x o : VReg) (base : SReg) (w : LatWidth) (s : State) : Result :=
  s.issue (.lldAcq x o base w) fun s => s.cellLoad x o base w true

/-- LLDGE (R280). -/
def execLldge (x o : VReg) (base : SReg) (w : LatWidth) (s : State) : Result :=
  s.issue (.lldge x o base w) fun s => s.cellWait x o base w

/-- LTRY (R281). -/
def execLtry (x o : VReg) (base : SReg) (p : PReg) (s : State) : Result :=
  s.issue (.ltry x o base p) fun s => s.cellTry x o base p

/-- LSTA: an asserting store (R283). -/
def execLsta (x o : VReg) (base : SReg) (ty : LatType) (s : State) : Result :=
  s.issue (.lsta x o base ty) fun s => s.joinWord (.asserting ty) ty x o base false

/-- LINC (R285). -/
def execLinc (o : VReg) (base : SReg) (s : State) : Result :=
  s.issue (.linc o base) fun s =>
    let go := s.cellLane base o 32 .write fun t _ => t == .cnt8x32
    s.accessWord .st 18 .increment 4 (fun l => s.slotLane (go l)) (fun _ => 0) false false

/-- LSYNC: names any byte of a region, with no alignment (R275, R286). -/
def execLsync (base : SReg) (s : State) : Result :=
  s.issue (.lsync base) fun s =>
    let a := (s.readPair base).toNat
    s.groupWord 17 (s.globalLane a 1 1 .read (s.cellRule fun _ _ => true)) fun s =>
      match s.vcontext.regionAt a with
      | some q => s.syncRegion q
      | none => s.fault .latticeType (s.readPair base) none

end Sys2Proof.Machine
end

