-- ==== Sys2Proof/Machine/LatticeEvents.lean ====
section
/-!
DEFINITION. Events of the lattice and of the scale-up fabric: region descriptors (R267), laps and exchanges (R270 to R274),
snapshots of other devices (R274), merged reduction lines (R235), accesses of peer devices (R219), rosters (R23, R27).
-/

namespace Sys2Proof.Machine

/-! ## Region descriptors (R267) -/

/-- The 116 bits of a descriptor; the rest read as zero. -/
def regionBits (q : QWord) : QWord := q &&& BitVec.ofNat 128 (2 ^ 116 - 1)

/-- Two descriptors cover a common byte. -/
def regionsMeet (a b : QWord) : Bool :=
  overlaps (regionBase a) (65536 * regionPages a) (regionBase b) (65536 * regionPages b)

/-- A descriptor keeps the rules of R267 beside the other regions of its context. -/
def regionFine (x : Context) (n : Nat) (q : QWord) : Bool :=
  regionBase q % 65536 = 0 && regionBase q + 65536 * regionPages q ≤ 2 ^ 60 && 1 ≤ regionPages q && 1 ≤ regionLap q &&
  (regionType q).toNat ≤ 8 && regionSched q ≠ 3 && !(regionType q == 8 && regionRoster q) &&
  x.regions.all fun e => e.1 == n || !regionV e.2 || !regionsMeet e.2 q

/-! ## Partners (R271) -/

/-- Pairs of virtual dies that exchange in a lap. -/
def lapPairs (sched : BitVec 2) (k : Nat) : List (Nat × Nat) :=
  match sched.toNat with
  | 0 => if k % 2 = 0 then [(0, 1), (2, 3)] else [(1, 2), (3, 0)]
  | 1 => if k % 2 = 0 then [(0, 1), (2, 3)] else [(0, 2), (1, 3)]
  | _ => [(0, 1), (0, 2), (0, 3), (1, 2), (1, 3), (2, 3)]

/-- Partners of virtual die `v` in a lap of a context with `n` virtual dies. -/
def lapPartners (sched : BitVec 2) (k n v : Nat) : List Nat :=
  (lapPairs sched k).filterMap fun e =>
    if n ≤ e.1 || n ≤ e.2 then none else if e.1 = v then some e.2 else if e.2 = v then some e.1 else none

/-- The convergence bound B of a region in a context with `n` virtual dies (R273). -/
def lapBound (sched : BitVec 2) (n : Nat) : Nat :=
  if n ≤ 1 then 0 else if sched = 2 then 1 else if n = 3 then 3 else 2

/-! ## Replicas (R268, R272) -/

namespace State

/-- Frame of page `p` of a region on a die; none where the page is not mapped as a lattice page. -/
def replicaFrame (s : State) (context region die p : Nat) : Option Nat :=
  let x := s.contextAt context
  let va := regionBase (x.regions.get region 0) + 65536 * p
  match walk s.mem x.tbase va with
  | .leaf e 0 => if leafLat e then some (s.setFrame (leafAddr e) die) else none
  | _ => none

/-- Cells of `n` bytes of a frame that have a listed byte. -/
def cellsListed (m : Memory) (frame n : Nat) : List Nat :=
  distinct ((m.filter fun c => c.1 / 65536 == frame).map fun c => c.1 % 65536 / n)

/-- Bytes of one joined unit of a type: a cell, or a slot of a cnt8x32 cell. -/
def unitOfType (t : LatType) : Nat := if t.wide then 8 else 4

/-- Frame `a` takes the join of its cells with those that frame `b` holds in the snapshot `old` (R272). A cell that is zero in both
stays so. -/
def joinFrame (old : Memory) (t : LatType) (m : Memory) (a b : Nat) : Memory :=
  let n := unitOfType t
  (distinct (cellsListed old b n ++ cellsListed m a n)).foldl (fun m c =>
    m.write (65536 * a + n * c) n (t.join (m.read (65536 * a + n * c) n) (old.read (65536 * b + n * c) n))) m

/-- The replica of a region on die `a` joined with the one that die `b` has in this state. -/
def joinReplica (s : State) (context region a b : Nat) (m : Memory) : Memory :=
  let q := (s.contextAt context).regions.get region 0
  let t := (latTypeOf (regionType q)).getD .maxN32
  (List.range (regionPages q)).foldl (fun m p =>
    match s.replicaFrame context region a p, s.replicaFrame context region b p with
    | some f, some g => joinFrame s.mem t m f g
    | _, _ => m) m

/-- What die `a` takes from die `b` in an exchange of a region: where its replica rises, it takes the values of every region of the
context, so that whoever holds a join holds what the joining die held at it (R272, R287, R288). -/
def receive (s : State) (context region a b : Nat) (m : Memory) : Memory :=
  if s.joinReplica context region a b s.mem = s.mem then m
  else ((s.contextAt context).regions.filter fun e => regionV e.2).foldl (fun m e => s.joinReplica context e.1 a b m) m

/-- The replicas on two dies after an exchange of a region (R272). Both snapshots are taken and both joins made at one instant, so that
neither side merges before the other (DESIGN CHOICE, entry 102). -/
def exchange (s : State) (context region a b : Nat) : State :=
  s.setMem (s.receive context region b a (s.receive context region a b s.mem))

/-- A line of a region's replica on a die that fails: the address of its frame (R439). -/
def badReplica (s : State) (context region die : Nat) : Option Nat :=
  (List.range (regionPages ((s.contextAt context).regions.get region 0))).findSome? fun p =>
    (s.replicaFrame context region die p).bind fun f =>
      if s.hw.poisoned.any fun l => l / 1024 == f then some (65536 * f) else none

/-- The replica of a region on a die, by offset in the region; a byte that is not listed is zero. -/
def replica (s : State) (context region die : Nat) : Memory :=
  let q := (s.contextAt context).regions.get region 0
  ((List.range (regionPages q)).map fun p => match s.replicaFrame context region die p with
    | some f => s.mem.slice (65536 * f) 65536 (65536 * p)
    | none => []).flatten

/-- Places of the cells that a run of bytes of a snapshot joins into the replica on a die, with the values that arrive. -/
def runCells (s : State) (context region die : Nat) (run : Nat × List Byte) : List (Nat × Nat) :=
  let q := (s.contextAt context).regions.get region 0
  let n := unitOfType ((latTypeOf (regionType q)).getD .maxN32)
  (List.range (run.2.length / n)).filterMap fun k =>
    let off := run.1 / n * n + n * k
    (s.replicaFrame context region die (off / 65536)).map fun f =>
      (65536 * f + off % 65536, ofBytes ((run.2.drop (n * k)).take n))

/-- A run of bytes of a snapshot joined into the replica on a die, cell by cell: a write of the context (R272, R274, R404). A line that
has failed ends the context (R439). -/
def joinRun (s : State) (context region die : Nat) (run : Nat × List Byte) : State :=
  let q := (s.contextAt context).regions.get region 0
  let t := (latTypeOf (regionType q)).getD .maxN32
  let n := unitOfType t
  let cells := s.runCells context region die run
  if s.contexts.at? context = none then s
  else match cells.find? fun e => s.poisonedAt e.1 n with
  | some e => s.memoryKill context e.1
  | none => cells.foldl (fun s e => s.memWrite context e.1 (toBytes n (t.join (s.mem.read e.1 n) e.2))) s

/-! ## Laps (R270, R271, R274) -/

def setLap (s : State) (context region die : Nat) (l : LapState) : State :=
  let x := s.contextAt context
  s.setContextAt context { x with laps := x.laps.set (lapKey region die) l }

/-- The fabric step of a lap: the snapshot goes to every device of the roster, after those of the other roster regions, which it may
depend on (R272, R274). A replica with an uncorrectable line ends the context (R439). -/
def fabricStep (s : State) (context region die : Nat) : State :=
  let x := s.contextAt context
  let q := x.regions.get region 0
  let others := x.regions.filter fun e => e.1 != region && regionV e.2 && regionRoster e.2
  let send := fun (s : State) (d n : Nat) =>
    s.askPeer (.snapshot d (regionTag (x.regions.get n 0)) (vdieOf x die) (s.replica context n die))
  if regionRoster q && !x.roster.isEmpty then
    match (others.map Prod.fst ++ [region]).findSome? fun n => s.badReplica context n die with
    | some pa => s.memoryKill context pa
    | none => x.roster.foldl (fun s d => (others.map Prod.fst ++ [region]).foldl (fun s n => send s d n) s) s else s

/-- A lap ends on a die that has no exchange left in it (R270). -/
def endLap (s : State) (context region die : Nat) : State :=
  let l := s.lapAt context region die
  if l.inLap && l.pending.isEmpty then
    let t := s.fabricStep context region die
    if t.contexts.at? context = none then t else t.setLap context region die { l with inLap := false, ends := l.ends + 1 }
  else s

/-- Lap `k` begins on a die (R270, R271). -/
def beginLap (s : State) (context region die k : Nat) : State :=
  let x := s.contextAt context
  let q := x.regions.get region 0
  let l := s.lapAt context region die
  if s.contexts.at? context = none then s
  else (s.setLap context region die
    { l with number := k, begun := s.now, inLap := true
             pending := lapPartners (regionSched q) k x.vdies.length (vdieOf x die) }).endLap context region die

/-- The next lap may begin on a die: its period has passed and its exchanges are over (R270). -/
def lapDue (s : State) (context region die : Nat) : Bool :=
  let x := s.contextAt context
  let q := x.regions.get region 0
  let l := s.lapAt context region die
  regionV q && x.vdies.contains die && !l.inLap && l.begun + 256 * regionLap q ≤ s.now

/-- Two dies may exchange: both are in one lap and have yet to exchange in it (R270). -/
def mayExchange (s : State) (context region a b : Nat) : Bool :=
  let x := s.contextAt context
  let l := s.lapAt context region a
  let k := s.lapAt context region b
  regionV (x.regions.get region 0) && l.inLap && k.inLap && l.number == k.number && l.pending.contains (vdieOf x b) &&
    k.pending.contains (vdieOf x a)

/-- An exchange: the replicas are joined, and each die has one partner less (R270, R272). A replica with an uncorrectable line ends
the context (R439). -/
def exchangeLap (s : State) (context region a b : Nat) : State :=
  let x := s.contextAt context
  let less := fun (s : State) (d other : Nat) =>
    let l := s.lapAt context region d
    if s.contexts.at? context = none then s
    else (s.setLap context region d { l with pending := l.pending.filter (· ≠ vdieOf x other) }).endLap context region d
  match s.badReplica context region a <|> s.badReplica context region b with
  | some pa => s.memoryKill context pa
  | none => less (less (s.exchange context region a b) a b) b a

/-- Every page of a region that is mapped, is mapped with its type and scope (R268; entry 96). -/
def regionMapped (s : State) (context : Nat) (q : QWord) : Bool :=
  (s.leavesOf context).all fun l =>
    !overlaps (regionBase q) (65536 * regionPages q) l.va (2 ^ pageBits l.level) ||
      (leafLat l.leaf && leafLtype l.leaf == regionType q && leafLscope l.leaf == regionRoster q)

/-- A descriptor is written: in force it begins lap 0 on every die of the context (R267, R270). -/
def writeRegion (s : State) (context n : Nat) (v : QWord) : State :=
  let x := s.contextAt context
  let q := regionBits v
  let q := if regionFine x n q then q else q &&& ~~~ (BitVec.ofNat 128 (2 ^ 83))
  let x := { x with regions := x.regions.set n q, laps := x.laps.filter fun e => e.1 / 4 != n }
  let s := s.setContextAt context x
  if regionV q then x.vdies.foldl (fun s d => s.beginLap context n d 0) s else s

/-! ## Reduction lines (R235) -/

/-- The operation of a window by its code (R228, R233). -/
def windowFn (op : Nat) : Option AtomFn :=
  [AtomFn.addB32, .addB64, .minI32, .minI64, .maxI32, .maxI64, .minN32, .minN64, .maxN32, .maxN64, .andB32, .andB64, .orB32,
   .orB64, .xorB32, .xorB64][op]? <|> (if op = 20 then some .addF32 else none)

/-- The home's page of an address, where it passes as a write. -/
def homePlace (s : State) (context a : Nat) : Option Nat :=
  let core := s.launchCore context
  match s.checkPage core context [] a .write with
  | .page e level =>
      match s.placeFor core e level a with
      | .mem pa => some pa
      | _ => none
  | _ => none

/-- A merged line combined into memory, then the counter (R235). The spec does not say what becomes of the counter where DONEVA's page
is absent, not writable or a peer's: the increment is dropped; nor does it align DONEVA: the 8 bytes follow the place of the first,
those past the end of a frame in the next frame (DESIGN CHOICE, entry 88). -/
def deliverLine (s : State) (context : Nat) (w : BitVec 256) (pa : Nat) (fn : AtomFn) (elements : List Byte) : State :=
  let n := fn.bytes
  let element := fun (k : Nat) => ofBytes ((elements.drop (n * k)).take n)
  let bytes := ((List.range (128 / n)).map fun k =>
    toBytes n (fn.apply (s.mem.read (pa + n * k) n) (BitVec.ofNat 128 (element k)))).flatten
  let s := s.memWrite context pa bytes
  if winDone w = 0 then s
  else
    match s.homePlace context (winDone w) with
    | some q => if s.poisonedAt q 8 then s.memoryKill context q else s.memWrite context q (toBytes 8 (s.mem.read q 8 + 1))
    | none => s

/-! ## Tables of the security core (R23, R27) -/

/-- A write on which the two security cores do not agree: refused and logged (R27, R441). -/
def securityEvent (s : State) (context : Nat) : State :=
  s.logError { type := 8, die := 0xFF, unit := 0, context, addr := 0, time := s.micros, count := 0 }

/-! ## Accesses of peer devices (R219) -/

/-- An access of a peer device to a frame of a context: a read or an atomic is answered (R219, R385). -/
def servePeer (s : State) (context device frame off n : Nat) (op : Option AtomFn) (write : Bool) (data : QWord) : State :=
  let pa := 65536 * frame + off
  let old := s.mem.read pa n
  let answer := fun (s : State) => s.askPeer (.answer device frame off n (BitVec.ofNat 128 old))
  match op with
  | some fn =>
      if fn.swaps && old != data.toNat % 2 ^ (8 * fn.bytes) then answer s
      else answer (s.memWrite context pa (toBytes n (fn.apply old data)))
  | none => if write then s.memWrite context pa (toBytes n data.toNat) else answer s

end State

open State

/-- REGION_DESCRIPTOR_WRITE: one that breaks a rule is stored with V = 0; one in force finds its pages mapped as it says (R267, R268, R270;
entry 96). -/
def execRegionDescriptorWrite (context region : Nat) (value : QWord) (s : State) : Result :=
  s.event ((s.contexts.at? context).isSome && region < 16 && (!regionV value || !regionFine (s.contextAt context) region (regionBits value) ||
      s.regionMapped context value)) fun s =>
    s.writeRegion context region value

/-- LAP_BEGIN (R270). -/
def execLapBegin (context region die : Nat) (s : State) : Result :=
  s.event (s.lapDue context region die) fun s => s.beginLap context region die ((s.lapAt context region die).number + 1)

/-- LATTICE_EXCHANGE (R270, R272). -/
def execLatticeExchange (context region a b : Nat) (s : State) : Result :=
  s.event (s.mayExchange context region a b) fun s => s.exchangeLap context region a b

/-- FABRIC_SNAPSHOT_ARRIVAL: runs of bytes of another device's snapshot for virtual die `vdie`, by offset in the region
(R274). -/
def execFabricSnapshotArrival (context region device vdie : Nat) (runs : List (Nat × List Byte)) (s : State) : Result :=
  let x := s.contextAt context
  let q := x.regions.get region 0
  s.event (regionV q && regionRoster q && x.roster.contains device && vdie < x.vdies.length) fun s =>
    runs.foldl (fun s r => s.joinRun context region (x.vdies.getD vdie 0) r) s

/-- REDUCTION_LINE_DELIVERY: the elements of line `line` of a window of which this device is the home (R235). The spec does not say what
becomes of a line whose page is a peer's or no longer mapped: it is not delivered (DESIGN CHOICE, entry 88). -/
def execReductionLineDelivery (context window line : Nat) (elements : List Byte) (s : State) : Result :=
  let w := (s.contextAt context).windows.get window 0
  match windowFn (winOp w), s.homePlace context (winBase w + 128 * line) with
  | some fn, some pa =>
      s.event (winV w && winSelf w && 128 * line < winSize w && elements.length == 128) fun s =>
        if s.poisonedAt pa 128 then s.memoryKill context pa else s.deliverLine context w pa fn elements
  | _, _ => s.event false fun s => s

/-- PEER_FABRIC_REQUEST: a read, a write or an atomic of a device on a context's roster, at the frame that its aperture names
(R219, R385). -/
def execPeerFabricRequest (context device frame off n : Nat) (op : Option AtomFn) (write : Bool) (data : QWord)
    (s : State) : Result :=
  let x := s.contextAt context
  s.event (x.roster.contains device && s.frameUsable context frame && off + n ≤ 65536 &&
    !s.poisonedAt (65536 * frame + off) n) fun s => s.servePeer context device frame off n op write data

/-- ROSTER_TABLE_WRITE: a context's roster and the port guards; refused where the security cores disagree (R23, R27). -/
def execRosterTableWrite (context : Nat) (devices : List Nat) (agree : Bool) (s : State) : Result :=
  s.event (s.contexts.at? context).isSome fun s =>
    if agree then s.setContextAt context { s.contextAt context with roster := devices } else s.securityEvent context

end Sys2Proof.Machine
end

