-- ==== Sys2Proof/Machine/CopyEvents.lean ====
section
/-!
DEFINITION. Events of the copy engines: start, transfer, bits, push and completion (R292, R293, R297, R305, R306, R310, R312),
storage on module flash (R298).
-/

namespace Sys2Proof.Machine

namespace State

/-! ## Requests -/

/-- The request of a core's engine with a name. -/
def requestOf (s : State) (core id : Nat) : Option CopyRequest := (s.coreAt core).copies.find? (·.id == id)

def setRequest (s : State) (core : Nat) (r : CopyRequest) : State :=
  let k := s.coreAt core
  s.setCoreAt core { k with copies := k.copies.map fun q => if q.id == r.id then r else q }

/-- An operation with a name is not performed yet. -/
def opOpen (s : State) (id : Nat) : Bool := s.sys.any fun e => e.2.all.any fun p => p.id == id && !p.finished

/-- The request that an engine starts next: four are in flight at most, and none while a push waits (R292, R293). -/
def nextStart (s : State) (core : Nat) : Option CopyRequest :=
  let l := (s.coreAt core).copies
  if l.any (·.pushSince.isSome) || 4 ≤ (l.filter (·.started)).length then none
  else (l.find? fun r => r.ready && !r.started).filter fun r => !r.after.any s.opOpen

/-! ## Module flash (R298) -/

end State

/-- The durable content with one unit replaced. -/
def FlashRegion.settle (r : FlashRegion) (l : LateUnit) : FlashRegion :=
  { r with data := (r.data.clear (4096 * l.unit) 4096).setBytes (4096 * l.unit) (l.data.bytes 0 4096) }

/-- The storage writes up to the last covered one of each unit become durable, in their order. -/
def FlashRegion.persist (r : FlashRegion) (covered : List (Nat × Nat)) : FlashRegion :=
  let named := fun (l : LateUnit) => covered.contains (l.copy, l.unit)
  let r' := (r.late.filter named).foldl FlashRegion.settle r
  let passed := fun (i : Nat) (l : LateUnit) => (r.late.drop i).any fun k => k.unit == l.unit && named k
  { r' with late := (r.late.zipIdx.filter fun e => !passed e.2 e.1).map Prod.fst }

namespace State

/-! ## Transfers (R293, R297) -/

/-- The engine sets the bit of a chunk; the block has changed (R306, R363). -/
def setChunkBit (s : State) (r : CopyRequest) (j : Nat) : State :=
  match r.bm with
  | some bm =>
      let b := s.blockAt r.block
      let n := bm + j / 64
      let bit := BitVec.ofNat 64 (2 ^ (j % 64))
      let e := b.setAt.get n (s.now, 0)
      s.setBlockAt r.block
        { b with
          bitmaps := b.bitmaps.set n (b.bitmaps.get n 0 ||| bit)
          setAt := b.setAt.set n (s.now, (if e.1 = s.now then e.2 else 0) ||| bit)
          changes := b.changes + 1 }
  | none => s

/-- The units of a chunk that a mask names and that are still to be moved. -/
def chosenUnits (r : CopyRequest) (chunk : Nat) (units : BitVec 32) : List Nat :=
  r.left.filter fun u => u / chunkUnits == chunk && units.getLsbD (u % chunkUnits)

/-- The frame that a failed read of flash would have filled, as an address (R439, R440). -/
def failedAddress (s : State) (core : Nat) (r : CopyRequest) : Nat :=
  match r.dest with
  | .global a => match s.placeAt core r.context a .write with
    | .mem pa => pa
    | _ => 0
  | _ => 0

/-- The units that flash cannot give are delivered poisoned (R439). -/
def poisonUnits (s : State) (core : Nat) (r : CopyRequest) : State :=
  let lines := (r.left.filter (s.flashBad r)).filterMap fun u => match r.dest with
    | .global a => match s.placeAt core r.context (a + 16 * u) .write with
      | .mem pa => some (pa / 64)
      | _ => none
    | _ => none
  s.setHw { s.hw with poisoned := distinct (s.hw.poisoned ++ lines) }

/-- Units of a chunk go on: each is read with one access, or written with one once it has been read; the last write of the chunk
sets its bit (R293, R297, R305). What stops an access ends the context. -/
def moveChunk (s : State) (core : Nat) (r : CopyRequest) (chunk : Nat) (units bytes : BitVec 32) : State :=
  let l := chosenUnits r chunk units
  let toRead := l.filter fun u => !r.isRead u
  let toWrite := l.filter r.isRead
  if toRead.any (s.flashBad r) then (s.poisonUnits core r).errorKill r.context (s.failedAddress core r / 65536 * 65536)
  else match ((toRead.map r.reads).flatten.findSome? fun a => s.engineHazard core r.context a.1 a.2 .read) <|>
      ((toWrite.map r.writes).flatten.findSome? fun a => s.engineHazard core r.context a 16 .write) with
  | some h => s.hazardKill r.context h
  | none =>
      let q := toRead.foldl (fun q u => s.readUnit core q bytes u) r
      let s := toRead.foldl (fun s u => s.askUnit core r bytes u) s
      let s := toWrite.foldl (fun s u => s.writeUnit core r u) s
      let q := { q with left := q.left.filter fun u => !toWrite.contains u }
      let s := s.setRequest core q
      if toWrite.isEmpty || q.left.any (fun u => u / chunkUnits == chunk) then s else s.setChunkBit q chunk

/-- A transfer may go on now: the request has started, and the pages it touches still pass. -/
def mayMove (s : State) (core id chunk : Nat) (units : BitVec 32) : Bool :=
  match s.requestOf core id with
  | some r =>
      let l := chosenUnits r chunk units
      r.started && !l.isEmpty && s.pagesPass core r.context ((l.map r.reads).flatten.map Prod.fst) .read &&
      s.pagesPass core r.context (l.map r.writes).flatten .write
  | none => false

/-! ## Completion (R293, R305, R310, R312) -/

/-- Chunks of a tile that hold no byte of a row of the row set (R305). -/
def emptyChunks (r : CopyRequest) : List Nat :=
  match r.tensor with
  | some t => (List.range ((r.len + 511) / 512)).filter fun j => !t.words.any fun k => k / 128 == j
  | none => []

/-- The cp entries of a copy count off and its queue entry is free (R292, R293). -/
def countCopy (s : State) (core : Nat) (r : CopyRequest) : State :=
  let k := s.coreAt core
  let s := s.setCoreAt core { k with copies := k.copies.filter (·.id != r.id) }
  r.entries.foldl (fun s e =>
    let g := s.sysAt e.1
    let done := g.cp.map fun p => if p.id == e.2 then { p with finished := true } else p
    (s.setSysAt e.1 { g with cp := done }).countOff e.1 .cp) s

/-- A copy accepted later has pushed to the request's relay on this clock (R312). -/
def laterPushed (s : State) (r : CopyRequest) : Bool :=
  match (s.relayOf r.block r.ch.toNat).copyAt with
  | some e => e.1 == s.now && r.accepted < e.2
  | none => false

/-- A copy that began to push at `since` may push now: allowance, and nobody waits before it (R310, R312). -/
def copyMayPush (s : State) (core : Nat) (r : CopyRequest) (since : Nat) : Bool :=
  let c := r.ch.toNat
  let before := (s.coreAt core).copies.takeWhile (·.id != r.id)
  1 ≤ (s.relayOf r.block c).allow && !s.laterPushed r && !s.splitsWaiting r.block c true since (2 ^ 32) none &&
  !s.copiesWaiting r.block c since && !before.any fun q => q.block == r.block && q.ch == r.ch && q.pushSince == some since

/-- The push and the end of a copy. -/
def pushCopy (s : State) (core : Nat) (r : CopyRequest) : State :=
  let c := r.ch.toNat
  let s := s.pushBaton r.block c r.baton
  let b := s.blockAt r.block
  let s := s.setBlockAt r.block
    { b with relays := b.relays.set c { s.relayOf r.block c with copyAt := some (s.now, r.accepted) } }
  s.countCopy core r

/-- Every write of a copy has been performed: bits of chunks without rows, then the push, which may wait (R293, R305). -/
def finishCopy (s : State) (core : Nat) (r : CopyRequest) : State :=
  let s := (emptyChunks r).foldl (fun s j => s.setChunkBit r j) s
  if r.ch = 63 then s.countCopy core r
  else if s.copyMayPush core r s.now then s.pushCopy core r
  else s.setRequest core { r with pushSince := some s.now }

/-- The copy engine acts before its core issues on a clock: what it does is seen by the words of that clock (R312, R344). -/
def engineFree (s : State) (core : Nat) : Bool := (s.coreAt core).turnAt != some s.now

/-- An event of a request. -/
def copyEvent (s : State) (core id : Nat) (due : CopyRequest → Bool) (effect : State → CopyRequest → State) : Result :=
  match s.requestOf core id with
  | some r => s.event (s.engineFree core && due r) fun s => effect s r
  | none => s.event false fun s => s

end State

open State

/-- COPY_TRANSFER_START (R292, R293). -/
def execCopyTransferStart (core : Nat) (s : State) : Result :=
  match s.nextStart core with
  | some r => s.event true fun s => s.setRequest core { r with started := true }
  | none => s.event false fun s => s

/-- COPY_CHUNK_DONE: units of one chunk are read, as to the bytes named, or written, the last write setting its bit (R293, R297,
R305). -/
def execCopyChunkDone (core id chunk : Nat) (part : ChunkPart) (s : State) : Result :=
  s.copyEvent core id (fun _ => s.mayMove core id chunk part.units) fun s r => s.moveChunk core r chunk part.units part.bytes

/-- COPY_COMPLETION (R293, R305). -/
def execCopyCompletion (core id : Nat) (s : State) : Result :=
  s.copyEvent core id (fun r => r.started && r.left.isEmpty && r.pushSince.isNone) fun s r => s.finishCopy core r

/-- COPY_PUSH_GRANT (R310, R312). -/
def execCopyPushGrant (core id : Nat) (s : State) : Result :=
  s.copyEvent core id (fun r => match r.pushSince with
    | some t => s.copyMayPush core r t
    | none => false) fun s r => s.pushCopy core r

/-- PERSIST_DURABLE: what a PERSIST covers has become durable (R298). -/
def execPersistDurable (core slot id : Nat) (s : State) : Result :=
  let gk := groupKey core slot
  match findOp (s.sysAt gk).cp id with
  | some p =>
      match p.act with
      | .persist units =>
          s.event (!p.finished) fun s =>
            let c := (s.blockAt (s.groupAt gk).block).context
            let s := match s.flashOf c with
              | some r => s.setFlashOf c (r.persist units)
              | none => s
            let g := s.sysAt gk
            (s.setSysAt gk { g with cp := replaceOp g.cp { p with finished := true } }).countOff gk .cp
      | _ => s.event false fun s => s
  | none => s.event false fun s => s

end Sys2Proof.Machine
end

