-- ==== Sys2Proof/Machine/MatrixEvents.lean ====
section
/-!
DEFINITION. Events of the matrix engines: the grant of a pass (R325, R326) and the completion of an operation (R324, R328, R330).
-/

namespace Sys2Proof.Machine

/-- Grant order: PRIO, then posting clock, core, group slot, octet (R325). -/
def grantsBefore (a b : MatrixEntry) : Bool :=
  b.prio < a.prio || (a.prio == b.prio && (a.posted < b.posted || (a.posted == b.posted && (a.core < b.core ||
    (a.core == b.core && (a.slot < b.slot || (a.slot == b.slot && a.octet < b.octet)))))))

def insertGrant (a : MatrixEntry) : List MatrixEntry → List MatrixEntry
  | [] => [a]
  | b :: rest => if grantsBefore a b then a :: b :: rest else b :: insertGrant a rest

/-- Entries in grant order. -/
def inGrantOrder (l : List MatrixEntry) : List MatrixEntry := l.foldr insertGrant []

namespace State

/-- An entry may be granted after the entries of `ok`, which wait before it: each of its group's earlier operations on its accumulator
entries is over, runs already, or waits for the same key and so goes before it in one pass (R325, R331; entry 101). -/
def follows (l ok : List MatrixEntry) (e : MatrixEntry) : Bool :=
  l.all fun b => !e.after.contains b.id || b.finished || b.running.isSome || (b.key == e.key && ok.any (·.id == b.id))

/-- Entries of a cluster that wait for a grant, in grant order: fences and accumulator words that come before one are over (R324, R325,
R331). -/
def waitingEntries (s : State) (cluster : Nat) : List MatrixEntry :=
  let l := (s.clusterAt cluster).entries
  (inGrantOrder (l.filter fun e => e.running == none && !e.finished && e.posted ≤ s.now && !e.after.any s.opOpen)).foldl
    (fun ok e => if follows l ok e then ok ++ [e] else ok) []

/-- An array of a cluster may serve an entry now: the idle array that holds its key, or, while none holds it, an idle and
unpinned one used least recently (R325). -/
def mayServe (k : Cluster) (a : Nat) (e : MatrixEntry) : Bool :=
  match arrayOf k e.key with
  | some i => i == a && (Cluster.array k i).busy.isEmpty
  | none => mayTake k a

/-- Some array may serve an entry now. -/
def servable (k : Cluster) (e : MatrixEntry) : Bool := (List.range 4).any fun a => mayServe k a e

/-- The entries of the pass that the arbiter grants next, and whether an array may take it: the first entry that can be
served, with the other waiting entries of its key, up to 12 (R325). -/
def nextPass (s : State) (cluster array : Nat) : List MatrixEntry :=
  let k := s.clusterAt cluster
  let l := s.waitingEntries cluster
  match l.find? (servable k) with
  | some e => if mayServe k array e then (l.filter fun x => x.key == e.key).take 12 else []
  | none => []

/-- A pass is granted to an array: the entries run, numbered in grant order, and the array holds their B (R325, R326). -/
def grantPass (s : State) (cluster array : Nat) (l : List MatrixEntry) : State :=
  let k := s.clusterAt cluster
  let number := fun (e : MatrixEntry) => (l.findIdx? (·.id == e.id)).map (k.grants + 1 + ·)
  let mark := fun (e : MatrixEntry) =>
    match number e with
    | some n => { e with running := some array, grant := n }
    | none => e
  let x := { Cluster.array k array with
    key := l.head?.map MatrixEntry.key, stale := false, busy := l.map MatrixEntry.id, lastUse := k.grants + l.length }
  s.setClusterAt cluster
    { Cluster.setArray k array x with entries := k.entries.map mark, grants := k.grants + l.length }

/-- An operation may complete: it is the first of its array's pass that has not, and no operation granted earlier is still to
add into its entries (R328, R330). -/
def mayFinish (k : Cluster) (e : MatrixEntry) : Bool :=
  match e.running with
  | some a =>
      !e.finished && (Cluster.array k a).busy.head? == some e.id &&
      k.entries.all fun x => x.finished || x.running == none || e.grant ≤ x.grant || x.block != e.block ||
        !rangesMeet [x.range] [e.range]
  | none => false

/-- An operation's results are in its entries (R324, R328); its tm entry completes with the last operation of its word. -/
def finishEntry (s : State) (cluster : Nat) (e : MatrixEntry) : State :=
  let s := s.accumulateAll e
  let k := s.clusterAt cluster
  let done := fun (x : MatrixEntry) => if x.id = e.id then { x with finished := true, running := none } else x
  let free := fun (a : ArrayState) => { a with busy := a.busy.filter (· ≠ e.id) }
  let s := s.setClusterAt cluster { k with entries := k.entries.map done, arrays := k.arrays.mapVal fun _ a => free a }
  let gk := groupKey e.core e.slot
  match (s.sysAt gk).tm.find? fun p => match p.act with
    | .matrix ids => ids.contains e.id
    | _ => false with
  | some p => s.completeTm gk p.id 0
  | none => s

end State

open State

/-- MATRIX_PASS_GRANT (R325, R326). -/
def execMatrixPassGrant (cluster array : Nat) (s : State) : Result :=
  s.event (array < 4 && !(s.nextPass cluster array).isEmpty) fun s => s.grantPass cluster array (s.nextPass cluster array)

/-- MATRIX_OPERATION_COMPLETE (R324, R328, R330). -/
def execMatrixOperationComplete (cluster entry : Nat) (s : State) : Result :=
  match (s.clusterAt cluster).entries.find? (·.id == entry) with
  | some e => s.event (mayFinish (s.clusterAt cluster) e) fun s => s.finishEntry cluster e
  | none => s.event false fun s => s

end Sys2Proof.Machine
end

