-- ==== Sys2Proof/Machine/Memory.lean ====
section
/-!
DEFINITION. Memory words: SMEM (R100, R101), loads and stores (R223 to R227), atomics and reductions (R228 to R236), the tag
table (R237 to R240), ordering words (R242 to R247).
-/

namespace Sys2Proof.Machine

namespace State

/-! ## SMEM (R100) -/

/-- The address of an SMEM word (R100). -/
def scalarAddress (s : State) (base : SReg) (imm : BitVec 11) (n : Nat) : Int :=
  (s.readPair base).toNat + imm.toInt * n

/-- An SMEM word: one access of the group, whatever its mask (R100). -/
def scalarAccess (s : State) (c : Counter) (kind : BitVec 5) (k : AccessKind) (act : OpAct) (base : SReg) (imm : BitVec 11)
    (n : Nat) (data : QWord) (rule : LatRule) : State :=
  let go := s.globalLane (s.scalarAddress base imm n) n n k rule
  s.groupWord kind go fun s =>
    (s.post c act [{ lane := 0, place := go.place, va := go.va, n, data, dead := false }] false false).done

/-! ## Loads and stores (R215, R224) -/

/-- The data of a store of a width, from VX on (R215). -/
def storeData (s : State) (w : StoreWidth) (x : VReg) (l : Nat) : QWord :=
  match w with
  | .b128 => s.readVQuad x l
  | .b64 => (s.readVPair x l).setWidth 128
  | _ => (s.readV x l).setWidth 128

/-- A plain load (R224). -/
def loadWord (s : State) (sp : MemSpace) (x o : VReg) (base : SReg) (w : LoadWidth) (f : OffForm) : State :=
  s.accessWord .ld 1 (.load w x) w.bytes (s.laneGo sp base f o w.bytes .read s.readRule) (fun _ => 0) false false

/-- A plain store (R224). -/
def storeWord (s : State) (sp : MemSpace) (x o : VReg) (base : SReg) (w : StoreWidth) (f : OffForm) : State :=
  s.accessWord .st 2 .store w.bytes (s.laneGo sp base f o w.bytes .write writeRule) (s.storeData w x) false false

/-- The space an address form names: `.prv` is space p (R215). -/
def formSpace (f : OffForm) : MemSpace := if f = .prv then .p else .g

/-! ## Atomics (R228, R229) -/

/-- The operand of an atomic: for compare-and-swap the compare value below, the swap value above (R228). -/
def atomData (s : State) (fn : AtomFn) (x : VReg) (l : Nat) : QWord :=
  match fn with
  | .casB32 => (s.readV (x + 1) l).setWidth 64 ++ (s.readV x l).setWidth 64
  | .casB64 => s.readVQuad x l
  | _ => if fn.wide then (s.readVPair x l).setWidth 128 else (s.readV x l).setWidth 128

/-- An atomic that returns the old value (R229). -/
def atomWord (s : State) (sp : MemSpace) (x o : VReg) (base : SReg) (fn : AtomFn) (ordered : Bool) : State :=
  s.accessWord .ld 3 (.atom fn x) fn.bytes (s.laneGo sp base .zx o fn.bytes .atomic writeRule) (s.atomData fn x) ordered
    ordered

/-! ## Reductions (R232 to R234) -/

/-- The reduction window in force that holds an address, and the offset in it (R233, R234). Where windows in force overlap, which the
spec does not rule out, the address belongs to the lowest-numbered one (DESIGN CHOICE, entry 81). -/
def windowAt (x : Context) (va : Nat) : Option (Nat × Nat) :=
  (x.windows.find? fun e => winV e.2 && winBase e.2 ≤ va && va < winBase e.2 + winSize e.2).map fun e =>
    (e.1, va - winBase e.2)

/-- A lane of RED: a window lane skips translation and must name the window's OP (R234). -/
def redLane (s : State) (base : SReg) (o : VReg) (fn : AtomFn) (l : Nat) : LaneGo :=
  let ea := s.laneAddress base .zx o l
  if (2 : Int) ^ 60 < ea + fn.bytes then .fails .segmentBounds ea
  else if ea % fn.bytes ≠ 0 then .fails .misalignment ea
  else
    match windowAt s.vcontext ea.toNat with
    | some (k, off) =>
        let w := s.vcontext.windows.get k 0
        if winOp w = fn.code then .goes (.window k off (winHome w) (winGroup w)) ea.toNat else .fails .permission ea
    | none => s.pageLane ea.toNat .write writeRule

/-! ## Tags (R237 to R239) -/

/-- The tag entries of the issuing block's slots, by block slot. -/
def ownTags (s : State) : List (Nat × Word) :=
  (s.core.tags.filter fun e => s.vblock.slot0 ≤ e.1 && e.1 < s.vblock.slot0 + s.vblock.slots).map fun e =>
    (e.1 - s.vblock.slot0, e.2)

/-- The slot of the block whose tag is a key. -/
def tagged (s : State) (key : Word) : Option Nat := (s.ownTags.find? fun e => e.2 == key).map Prod.fst

def setTags (s : State) (t : Table Word) : State := s.setCoreAt s.cur.core { s.core with tags := t }

end State

open State

/-! ## SMEM -/

/-- SLD_32 (R100). -/
def execSld32 (d base : SReg) (imm : BitVec 11) (s : State) : Result :=
  s.issue (.sld32 d base imm) fun s => s.scalarAccess .ld 1 .read (.scalarLoad 4 d) base imm 4 0 s.readRule

/-- SLD_64 (R100). -/
def execSld64 (d base : SReg) (imm : BitVec 11) (s : State) : Result :=
  s.issue (.sld64 d base imm) fun s => s.scalarAccess .ld 1 .read (.scalarLoad 8 d) base imm 8 0 s.readRule

/-- SLD_K: through the scalar constant cache (R100, R101). -/
def execSldK (d base : SReg) (imm : BitVec 11) (s : State) : Result :=
  s.issue (.sldK d base imm) fun s => s.scalarAccess .ld 1 .read (.constLoad d) base imm 4 0 s.readRule

/-- SST (R100). -/
def execSst (src base : SReg) (imm : BitVec 11) (s : State) : Result :=
  s.issue (.sst src base imm) fun s =>
    s.scalarAccess .st 2 .write .store base imm 4 ((s.readS src).setWidth 128) writeRule

/-! ## Loads and stores -/

/-- LDG (R224). -/
def execLdg (x o : VReg) (base : SReg) (w : LoadWidth) (form : OffForm) (s : State) : Result :=
  s.issue (.ldg x o base w form) fun s => s.loadWord (formSpace form) x o base w form

/-- STG (R224). -/
def execStg (x o : VReg) (base : SReg) (w : StoreWidth) (form : OffForm) (s : State) : Result :=
  s.issue (.stg x o base w form) fun s => s.storeWord (formSpace form) x o base w form

/-- LDS (R224). -/
def execLds (x o : VReg) (base : SReg) (w : LoadWidth) (form : OffForm) (s : State) : Result :=
  s.issue (.lds x o base w form) fun s => s.loadWord .s x o base w form

/-- STS (R224). -/
def execSts (x o : VReg) (base : SReg) (w : StoreWidth) (form : OffForm) (s : State) : Result :=
  s.issue (.sts x o base w form) fun s => s.storeWord .s x o base w form

/-- LDC (R224). -/
def execLdc (x o : VReg) (base : SReg) (w : LoadWidth) (form : OffForm) (s : State) : Result :=
  s.issue (.ldc x o base w form) fun s => s.loadWord .c x o base w form

/-- STC (R224). -/
def execStc (x o : VReg) (base : SReg) (w : StoreWidth) (form : OffForm) (s : State) : Result :=
  s.issue (.stc x o base w form) fun s => s.storeWord .c x o base w form

/-- LDA: each lane's access is an acquire (R227). -/
def execLda (x o : VReg) (base : SReg) (wide : Bool) (scope : Scope) (s : State) : Result :=
  s.issue (.lda x o base wide scope) fun s =>
    let w : LoadWidth := if wide then .b64 else .b32
    s.accessWord .ld 1 (.load w x) w.bytes (s.laneGo .g base .zx o w.bytes .read s.readRule) (fun _ => 0) true false

/-- STL: each lane's access is a release (R227). -/
def execStl (x o : VReg) (base : SReg) (wide : Bool) (scope : Scope) (s : State) : Result :=
  s.issue (.stl x o base wide scope) fun s =>
    let w : StoreWidth := if wide then .b64 else .b32
    s.accessWord .st 2 .store w.bytes (s.laneGo .g base .zx o w.bytes .write writeRule) (s.storeData w x) false true

/-! ## Atomics and reductions -/

/-- ATOM: relaxed (R229, R231). -/
def execAtom (x o : VReg) (base : SReg) (fn : AtomFn) (s : State) : Result :=
  s.issue (.atom x o base fn) fun s => s.atomWord .g x o base fn false

/-- ATOMA: an acquire and a release at package scope (R229, R231). -/
def execAtoma (x o : VReg) (base : SReg) (fn : AtomFn) (s : State) : Result :=
  s.issue (.atoma x o base fn) fun s => s.atomWord .g x o base fn true

/-- ATOMS: in the scratchpad (R229, R231). -/
def execAtoms (x o : VReg) (base : SReg) (fn : AtomFn) (s : State) : Result :=
  s.issue (.atoms x o base fn) fun s => s.atomWord .s x o base fn false

/-- RED (R232, R234). -/
def execRed (x o : VReg) (base : SReg) (fn : AtomFn) (s : State) : Result :=
  s.issue (.red x o base fn) fun s =>
    s.accessWord .st 2 (.red fn) fn.bytes (s.redLane base o fn) (s.atomData fn x) false false

/-! ## TAG -/

/-- TAGL (R239). -/
def execTagl (d a : SReg) (p : PReg) (s : State) : Result :=
  s.issue (.tagl d a p) fun s =>
    match s.tagged (s.readS a) with
    | some k => ((s.writeS d (BitVec.ofNat 32 k)).writePAll p true).done
    | none => ((s.writeS d 0xFFFFFFFF).writePAll p false).done

/-- TAGS: the key becomes valid in one slot of the block alone (R239). -/
def execTags (slot key : SReg) (s : State) : Result :=
  s.issue (.tags slot key) fun s =>
    let k := (s.readS slot).toNat
    if s.vblock.slots ≤ k then s.fault .segmentBounds 0 none
    else
      let own := fun (j : Nat) => s.vblock.slot0 ≤ j && j < s.vblock.slot0 + s.vblock.slots
      let t : Table Word := s.core.tags.filter fun e => !(own e.1 && e.2 == s.readS key)
      (s.setTags (t.set (s.vblock.slot0 + k) (s.readS key))).done

/-- TAGI (R239). -/
def execTagi (slot : SReg) (s : State) : Result :=
  s.issue (.tagi slot) fun s =>
    let k := (s.readS slot).toNat
    if s.vblock.slots ≤ k then s.fault .segmentBounds 0 none
    else (s.setTags (s.core.tags.erase (s.vblock.slot0 + k))).done

/-! ## ORDER -/

namespace State

/-- Reads of the group so far are ordered before its later accesses (R243). -/
def fenceAcquire (s : State) : State :=
  let g := s.gsys
  let reads := (g.ld.filter fun p => !p.finished).map Pending.id
  s.setSys { g with acqAfter := distinct (g.acqAfter ++ reads) }

/-- The given operations are ordered before the group's later writes. -/
def writesAfter (s : State) (ids : List Nat) : State :=
  let g := s.gsys
  s.setSys { g with relAfter := distinct (g.relAfter ++ ids) }

/-- Accesses of the group so far are ordered before its later writes (R243). -/
def fenceRelease (s : State) : State := s.writesAfter ((openOps s.gsys).map Pending.id)

/-- A core's split without a packet fetched in advance: one whose words are still to begin (R244). -/
def refetched (x : Split) : Split := if x.word = 0 then { x with packet := none } else x

/-- IFENCE's effect on the issuing core (R244). -/
def dropFetches (s : State) : State :=
  let k := s.core
  let s := s.setCoreAt s.cur.core { k with icache := [], kcache := [] }
  (s.groups.filter fun e => e.1 / 16 == s.cur.core).foldl (fun s e =>
    let g := s.groupAt e.1
    s.setGroupAt e.1 { g with splits := g.splits.mapVal fun n x =>
      if e.1 = s.gkey && n = s.cur.split then x else refetched x }) s

/-- Writes of the group that touch a line of bytes `b` to `b + n − 1` and are not yet performed; none for a length of 0 (R246). -/
def writesTouching (s : State) (b n : Nat) : List Nat :=
  ((openOps s.gsys).filter fun p => p.act.writes && 0 < n && p.accesses.any fun a =>
    match a.place with
    | .spad _ _ => false
    | _ => overlaps (a.va / 128 * 128) 128 b n).map Pending.id

/-- PUBLISH's increment of a version word (R245). -/
def publishAt (s : State) (pa : Nat) : State :=
  if s.poisonedAt pa 8 then s.memoryKill s.block.context pa
  else
    let s := s.setBlock { s.block with wroteOut := true }
    (s.memWrite s.block.context pa (toBytes 8 (s.mem.read pa 8 + 1))).done

/-- PUBLISH once its writes are performed; until then it is held, with the M and E words that follow it in its group (R247). -/
def publishOrWait (s : State) (pa : Nat) : State :=
  let t := s.afterRelease fun s => s.publishAt pa
  if t.last = .held then t.held { t.holdOf with publish := some pa } else t

/-- A physical address lies in a coherent window of a tenant space (R245, R419). -/
def inCoherentWindow (s : State) (pa : Nat) : Bool :=
  match s.frameKind (pa / 65536) with
  | some (.window _) => true
  | _ => false

end State

/-- FENCE: it orders accesses and holds nothing up (R243). -/
def execFence (sem : Sem) (scope : Scope) (s : State) : Result :=
  s.issue (.fence sem scope) fun s =>
    match sem with
    | .acq => s.fenceAcquire.done
    | .rel => s.fenceRelease.done
    | .ar => s.fenceAcquire.fenceRelease.done

/-- IFENCE (R244). -/
def execIfence (s : State) : Result := s.issue .ifence fun s => s.dropFetches.done

/-- PUBLISH: the version word of a coherent window rises by one after every earlier write is performed (R245). -/
def execPublish (base : SReg) (s : State) : Result :=
  s.issue (.publish base) fun s =>
    let a := (s.readPair base).toNat
    let go := s.globalLane a 8 8 .atomic fun _ _ => true
    s.groupWord 3 go fun s =>
      match go.place with
      | .mem pa =>
          if s.inCoherentWindow pa then s.publishOrWait pa
          else s.fault .permission (s.readPair base) none
      | _ => s.fault .permission (s.readPair base) none

/-- FLUSHH: the group's later writes wait for its earlier writes to the range (R246). -/
def execFlushh (base len : SReg) (s : State) : Result :=
  s.issue (.flushh base len) fun s =>
    let b := (s.readPair base).toNat
    let n := (s.readS len).toNat
    if 2 ^ 60 < b + n then s.fault .segmentBounds (s.readPair base) none
    else (s.writesAfter (s.writesTouching b n)).done

end Sys2Proof.Machine
end

