-- ==== Sys2Proof/Machine/Preempt.lean ====
section
/-!
DEFINITION. Pre-emption (R365 to R370): the choice of the method, flush, save and drain, the image with its coding, the restore
(R289, R376).
-/

namespace Sys2Proof.Machine

/-! ## The coding of an image (R369) -/

/-- A body cut into units of 32 bytes; the last one is padded with zero bytes. -/
def unitsOf : Nat → List Byte → List (List Byte)
  | 0, _ => []
  | n + 1, l => (l.take 32 ++ List.replicate (32 - (l.take 32).length) 0) :: unitsOf n (l.drop 32)

/-- The tag of a unit after the one before it. -/
def unitTag (before : Option (List Byte)) (u : List Byte) : Nat :=
  if u.all (· == 0) then 1 else if before = some u then 2 else 0

/-- Units with their tags. -/
def tagged : Option (List Byte) → List (List Byte) → List (Nat × List Byte)
  | _, [] => []
  | p, u :: rest => (unitTag p u, u) :: tagged (some u) rest

/-- The tag byte of up to four units. -/
def tagByte : List (Nat × List Byte) → Nat
  | [] => 0
  | e :: rest => e.1 + 4 * tagByte rest

/-- The payloads of the literal units among some. -/
def payloads (l : List (Nat × List Byte)) : List Byte := ((l.filter (·.1 == 0)).map Prod.snd).flatten

/-- Tagged units coded four at a time. -/
def codeTagged : List (Nat × List Byte) → List Byte
  | a :: b :: c :: d :: rest => BitVec.ofNat 8 (tagByte [a, b, c, d]) :: payloads [a, b, c, d] ++ codeTagged rest
  | [] => []
  | l => BitVec.ofNat 8 (tagByte l) :: payloads l

/-- The coded body of a list of units. -/
def codeUnits (l : List (List Byte)) : List Byte := codeTagged (tagged none l)

/-- The units that one tag byte stands for, with the bytes after their payloads: none for a tag of 0b11 or a repeat with nothing
before it. `tags` are the tags still to be read, lowest first. -/
def decodeTags : Nat → Nat → Option (List Byte) → List Byte → Option (List (List Byte) × List Byte)
  | 0, _, _, l => some ([], l)
  | n + 1, tags, p, l =>
      let put := fun (u : List Byte) (l : List Byte) => (decodeTags n (tags / 4) (some u) l).map fun r => (u :: r.1, r.2)
      match tags % 4 with
      | 0 => if l.length < 32 then none else put (l.take 32) (l.drop 32)
      | 1 => put (List.replicate 32 0) l
      | 2 => match p with
        | some u => put u l
        | none => none
      | _ => none

/-- The units that a coded body of `n` units stands for; none where it is rejected (R369). `fuel` bounds the tag bytes. -/
def decodeUnits : Nat → Nat → Option (List Byte) → List Byte → Option (List (List Byte))
  | _, 0, _, l => if l.isEmpty then some [] else none
  | 0, _, _, _ => none
  | _ + 1, _, _, [] => none
  | fuel + 1, n, p, t :: l =>
      match decodeTags (min n 4) t.toNat p l with
      | some r => (decodeUnits fuel (n - min n 4) (match r.1.getLast? with | some u => some u | none => p) r.2).map (r.1 ++ ·)
      | none => none

/-! ## The choice of the method (R366) -/

/-- The methods. -/
inductive Method where
  | flush | save | drain | miss
deriving DecidableEq, Repr

/-- The choice of hardware mode from the three estimates, the bound and what is eligible; `miss` is a save that is recorded. -/
def chooseMethod (ts tf : Nat) (td : Option Nat) (bound : Option Nat) (flush : Bool) : Method :=
  if flush && tf ≤ ts then .flush
  else
    match bound with
    | none => match td with
      | some d => if d ≤ ts then .drain else .save
      | none => .save
    | some l =>
        if ts ≤ l then .save
        else match td with
          | some d => if d ≤ l then .drain else .miss
          | none => .miss

/-- The method that a host names, in host-assisted mode: 1 flush, 2 save, 3 drain; no name and an ineligible flush are performed
as save (R366; entry 17). -/
def namedMethod (n : Nat) (flush : Bool) : Method :=
  if n = 1 && flush then .flush else if n = 3 then .drain else .save

/-- The smaller of two bounds, zero meaning none (R365). -/
def boundOf (latbound request : Nat) : Option Nat :=
  if latbound = 0 then (if request = 0 then none else some request)
  else some (if request = 0 then 1024 * latbound else min (1024 * latbound) request)

namespace State

/-- Dirty slots of a block. -/
def dirtySlots (b : Block) : List Nat := (List.range b.slots).filter fun k => b.dirty.getLsbD k

/-- Uncoded size of the image of a block (R366). -/
def imageSize (s : State) (id : Nat) : Nat :=
  let b := s.blockAt id
  16384 * (dirtySlots b).length + ((s.groupsIn id).map fun k => 384 * vectorWindow b (s.groupAt k)).foldl (· + ·) 0 +
    16384 * b.units.length + 4096

/-- The save estimate Ts. -/
def saveCost (s : State) (id : Nat) : Nat := 2000 + s.imageSize id / 128

/-- The flush cost Tf: clocks since residency. -/
def flushCost (s : State) (id : Nat) : Nat := s.now - (s.blockAt id).since

/-- Flush is eligible (R366). -/
def mayFlush (s : State) (id : Nat) : Bool := (s.blockAt id).header.restart && !(s.blockAt id).wroteOut

/-- The drain estimate Td, where drain is eligible. -/
def drainCost (s : State) (id : Nat) : Option Nat :=
  let l := s.launchAt (s.blockAt id).launch
  if l.ended = 0 then none else some (l.runTime / l.ended - s.flushCost id)

/-- The method for a request (R366). -/
def methodFor (s : State) (id request named : Nat) : Method :=
  let b := s.blockAt id
  if s.assisted b.partition 3 then namedMethod named (s.mayFlush id)
  else chooseMethod (s.saveCost id) (s.flushCost id) (s.drainCost id) (boundOf b.header.latbound request) (s.mayFlush id)

/-! ## Bringing a block to rest (R86, R341, R367) -/

/-- A split keeps nothing of a held word but the arrival that a BAR.SYNC has made: the word is issued anew (R72, R142, R367). -/
def atRest (x : Split) : Split :=
  { x with hold := none, missing := [], rejected := [], packet := none, waits := 0, yielded := false, giveWay := false,
           starved := false }

/-- Held words of a block discarded. -/
def dropHeld (s : State) (id : Nat) : State :=
  (s.groupsIn id).foldl (fun s k =>
    let g := s.groupAt k
    s.setGroupAt k { g with splits := g.splits.mapVal fun _ x => atRest x }) s

/-- Loads and stores of a group complete; an LTRY with what it reads now (R86, R289). -/
def restLoads (s : State) (gk : Nat) : State :=
  let s := s.performAll gk
  (s.sysAt gk).ld.foldl (fun s p =>
    match p.act with
    | .latTry _ _ _ => if (s.sysAt gk).tryFree p then s.finishTry gk p else s
    | _ => s) s

/-- Started copies and accepted ones of a block complete, but for pushes that must wait (R317). -/
def restCopies (s : State) (id : Nat) : State :=
  let core := (s.blockAt id).core
  ((s.coreAt core).copies.filter fun r => r.block == id && r.ready && r.pushSince.isNone).foldl (fun s r =>
    if r.after.any s.opOpen then s
    else
      let s := s.setRequest core { r with started := true }
      let chunks := distinct (r.left.map (· / chunkUnits))
      let move := fun (s : State) (c : Nat) =>
        if s.mayMove core r.id c (BitVec.allOnes 32) then
          match s.requestOf core r.id with
          | some q => s.moveChunk core q c (BitVec.allOnes 32) (BitVec.allOnes 32)
          | none => s
        else s
      let s := (chunks ++ chunks).foldl move s
      match s.requestOf core r.id with
      | some q => if q.left.isEmpty then s.finishCopy core q else s
      | none => s) s

/-- PERSIST entries of a group complete: what they cover is durable (R298). -/
def restPersists (s : State) (gk : Nat) : State :=
  let c := (s.blockAt (s.groupAt gk).block).context
  (s.sysAt gk).cp.foldl (fun s p =>
    match p.act with
    | .persist units =>
        if p.finished then s
        else
          let s := match s.flashOf c with
            | some r => s.setFlashOf c (r.persist units)
            | none => s
          let g := s.sysAt gk
          (s.setSysAt gk { g with cp := replaceOp g.cp { p with finished := true } }).countOff gk .cp
    | _ => s) s

/-- The matrix operation of a block that comes next: one that runs, else the first that waits, in grant order and after its group's
earlier operations on its entries (R331). -/
def nextMatrix (s : State) (id : Nat) : Option MatrixEntry :=
  let l := (s.clusterAt (clusterOf (s.blockAt id).core)).entries.filter fun e => e.block == id && !e.finished
  let runs := l.filter (·.running.isSome)
  match runs with
  | e :: rest => some (rest.foldl (fun a b => if b.grant < a.grant then b else a) e)
  | [] => (inGrantOrder (l.filter fun e => !e.after.any s.opOpen && !l.any fun b => e.after.contains b.id)).head?

/-- An array for a WPIN that completes now. -/
def arrayForPin (s : State) (gk : Nat) (key : BKey) (block : Nat) : Nat :=
  let k := s.clusterAt (clusterOf (coreOfKey gk))
  ((List.range 4).find? fun a => (pinKey k key block a).isSome).getD 0

/-- A tm entry completes, whatever array a WPIN takes. -/
def restTm (s : State) (gk : Nat) (p : Pending) : State :=
  match p.act with
  | .wpin _ key => s.completeTm gk p.id (s.arrayForPin gk key (s.groupAt gk).block)
  | _ => s.completeTm gk p.id 0

/-- Matrix operations and accumulator words of a block complete (R341). -/
def restMatrix (s : State) (id : Nat) : State :=
  let s := match s.nextMatrix id with
    | some e => s.finishEntry (clusterOf (s.blockAt id).core) e
    | none => s
  (s.groupsIn id).foldl (fun s k => (s.sysAt k).tm.foldl (fun s p => s.restTm k p) s) s

/-- One round of completion over a block. -/
def restRound (s : State) (id : Nat) : State :=
  let s := (s.groupsIn id).foldl restLoads s
  let s := (s.groupsIn id).foldl restPersists s
  (s.restCopies id).restMatrix id

/-- Operations of a block that are counted. -/
def countedOps (s : State) (id : Nat) : Nat :=
  ((s.groupsIn id).map fun k => (s.sysAt k).all.length).foldl (· + ·) 0 +
    ((s.clusterAt (clusterOf (s.blockAt id).core)).entries.filter fun e => e.block == id && !e.finished).length

/-- PUBLISH words of a block that wait by themselves, with their splits and version words (R247). -/
def waitingPublishes (s : State) (id : Nat) : List (Nat × Nat × Nat) :=
  ((s.groupsIn id).map fun gk => (s.groupAt gk).splits.filterMap fun e =>
    match e.2.packet, e.2.hold.bind Hold.publish with
    | some p, some pa =>
        if p.chainStart e.2.word = e.2.word && p.chainEnd e.2.word = e.2.word then some (gk, e.1, pa) else none
    | _, _ => none).flatten

/-- The splits of a block whose TLBINV has begun a drop. -/
def openDrops (s : State) (id : Nat) : List (Nat × Nat) :=
  ((s.groupsIn id).map fun gk => ((s.groupAt gk).splits.filter (·.2.drop.isSome)).map fun e => (gk, e.1)).flatten

/-- A waiting PUBLISH takes effect: its block resumes after it (R247). -/
def endPublish (s : State) (e : Nat × Nat × Nat) : State :=
  if (s.groupAt e.1).splits.at? e.2.1 = none then s
  else
    let t : State := { s with cur := { core := coreOfKey e.1, slot := e.1 % 16, split := e.2.1 } }
    { t.publishAt e.2.2 with cur := s.cur }

/-- A block at rest: held words discarded, counted operations complete as far as they can be (R367); its ORDER words and drops are
over then, and it resumes after them (R247, R362). -/
def rest (s : State) (id : Nat) : State :=
  let t := (List.range (s.countedOps id + 1)).foldl (fun s _ => s.restRound id) (s.dropHeld id)
  let t := (s.openDrops id).foldl (fun t e => t.endDrop e.1 e.2) t
  (s.waitingPublishes id).foldl endPublish t

/-- Nothing of a block is outstanding but copies that wait to push and slices of unstarted copies (R367). -/
def restful (s : State) (id : Nat) : Bool :=
  let copies := (s.coreAt (s.blockAt id).core).copies
  (s.groupsIn id).all fun k =>
    let g := s.sysAt k
    g.ld.isEmpty && g.st.isEmpty && g.tm.isEmpty && g.cp.all fun p => match p.act with
      | .copy n => copies.any fun r => r.id == n && (r.pushSince.isSome || !r.ready)
      | _ => false

/-- No rendezvous of the block is half taken (R135). -/
def noRendezvous (s : State) (id : Nat) : Bool :=
  (s.groupsIn id).all fun k => (s.sysAt k).before.isNone

/-! ## The image (R368) -/

/-- Entries of the accumulator segment of a block that are not zero. -/
def heldAccs (s : State) (b : Block) : Table QWord :=
  ((b.units.map fun e =>
    ((List.range 1024).map fun i => (1024 * e.1 + i, s.accAt (32768 * b.core + 1024 * e.2 + i))).filter (·.2 ≠ 0))).flatten

/-- The body of an image: sections that the device lays out, held units in slot order, dirty slots in ascending order. -/
def imageBody (s : State) (id : Nat) : List Byte :=
  let b := s.blockAt id
  let pad := fun (l : List Byte) => l ++ List.replicate ((32 - l.length % 32) % 32) 0
  pad (Config.imageSection s.tick 0) ++
  ((s.groupsIn id).map fun k => pad (Config.imageSection s.tick (k + 1))).flatten ++
  ((Table.values b.units).map fun u =>
    ((List.range 1024).map fun i => toBytes 16 (s.accAt (32768 * b.core + 1024 * u + i)).toNat).flatten).flatten ++
  ((dirtySlots b).map fun k => s.spad.bytes (padKey b.core ((b.slot0 + k) * slotBytes)) slotBytes).flatten

/-- The 64 bytes of an image's header. The spec gives VERSION no number: 1 (DESIGN CHOICE, entry 14). -/
def imageHeader (b : Block) (flags units seq coded : Nat) : List Byte :=
  toBytes 2 0x5A53 ++ toBytes 1 1 ++ toBytes 1 flags ++ toBytes 4 units ++ toBytes 8 b.number ++ toBytes 8 b.headerAddr ++
    toBytes 8 seq ++ toBytes 24 b.dirty.toNat ++ toBytes 4 coded ++ toBytes 4 0

/-- Laps of a region that have begun on a die of a context: a lap that some die has begun is none that carries what is joined from now
on (R272, R289). -/
def lapsBegun (s : State) (context region : Nat) : Nat :=
  (s.contextAt context).vdies.foldl (fun n d => max n ((s.lapAt context region d).number + 1)) 0

/-- Laps that must have ended on each die, for each region in force, before a block saved now may be restored there: B laps that no die
has begun yet (R288, R289). -/
def lapsAfter (s : State) (context : Nat) : Table Nat :=
  let x := s.contextAt context
  ((x.regions.filter fun e => regionV e.2).map fun e =>
    x.vdies.map fun d => (lapKey e.1 d, s.lapsBegun context e.1 + lapBound (regionSched e.2) x.vdies.length)).flatten

/-- The image of a block as it stands at rest (R368, R369). -/
def imageOf (s : State) (id : Nat) (drained miss queued : Bool) : Image :=
  let b := s.blockAt id
  let isSealed := s.sealedOf b.context
  let seq := s.hw.imageSeqs.get b.context 0 + 1
  let body := s.imageBody id
  let coded := codeUnits (unitsOf (body.length / 32) body)
  let flags := isSealed.toNat + 2 * drained.toNat + 4 * miss.toNat
  let header := imageHeader b flags (body.length / 32) seq coded.length
  let c := if isSealed then Config.sealed b.context 1 seq header coded else (coded, [])
  { launch := b.launch, number := b.number, seq, sealed := isSealed, drained, miss, block := b
    groups := (s.groupsIn id).map fun k => (k, s.groupAt k, s.sysAt k)
    copies := (s.coreAt b.core).copies.filter (·.block == id)
    accs := s.heldAccs b
    tags := ((s.coreAt b.core).tags.filter fun e => b.slot0 ≤ e.1 && e.1 < b.slot0 + b.slots).map fun e => (e.1 - b.slot0, e.2)
    pads := s.spad.slice (padKey b.core (b.slot0 * slotBytes)) (b.slots * slotBytes) 0
    header, coded := c.1, tag := c.2, die := dieOf b.core, afterLaps := s.lapsAfter b.context, saved := true, queued }

/-- An image's SEQ counted, and recorded as its block's latest (R368). -/
def recordImage (s : State) (context : Nat) (i : Image) : State :=
  let f := s.firmAt context
  let same := fun (e : Nat × Nat × Nat) => e.1 == i.launch && e.2.1 == i.number
  (s.setFirmAt context { f with latest := f.latest.filter (fun e => !same e) ++ [(i.launch, i.number, i.seq)] }).setHw
    { s.hw with imageSeqs := s.hw.imageSeqs.set context i.seq }

/-- An image put into the save area of its context (R368). -/
def keepImage (s : State) (context : Nat) (i : Image) : State :=
  let s := s.recordImage context i
  let f := s.firmAt context
  s.setFirmAt context { f with images := f.images ++ [i] }

/-- Groups, copies and resources of a block taken off its core. -/
def takeOff (s : State) (id : Nat) : State :=
  let b := s.blockAt id
  let gs := s.groupsIn id
  let s := { s with groups := s.groups.filter fun e => !gs.contains e.1, sys := s.sys.filter fun e => !gs.contains e.1 }
  let k := s.coreAt b.core
  let s := s.setCoreAt b.core { k with copies := k.copies.filter (·.block != id) }
  (s.vacate id).markStopped b.core

/-! ## The methods (R367) -/

/-- Flush: the block and all it has outstanding are gone, and it is to run from its start (R367). -/
def flushBlock (s : State) (id : Nat) : State :=
  let b := s.blockAt id
  let l := s.launchAt b.launch
  (s.setLaunchAt b.launch { l with requeued := l.requeued ++ [b.number] }).takeOff id

/-- A block at rest leaves its core, its image written. -/
def storeBlock (s : State) (id : Nat) (drained miss queued : Bool) : State :=
  (s.keepImage (s.blockAt id).context (s.imageOf id drained miss queued)).takeOff id

/-- Save: the block comes to rest, its image is written and its resources are freed (R367). Sealing an image is a key operation: where the
security cores disagree the block stays (R27, R369). -/
def saveBlock (s : State) (id : Nat) (drained miss queued : Bool) : State :=
  let s := s.rest id
  if s.blocks.at? id = none then s
  else if s.sealedOf (s.blockAt id).context then s.decided fun s => s.storeBlock id drained miss queued
  else s.storeBlock id drained miss queued

/-- A save of a block can be carried through now. -/
def maySave (s : State) (id : Nat) : Bool :=
  s.noRendezvous id && ((s.rest id).blocks.at? id == none || (s.rest id).restful id)

/-- A drain begins: nothing new is posted to the core, and IDLE words end (R363, R367). `bound` 0 is none. -/
def drainBlock (s : State) (id : Nat) (bound : Option Nat) : State :=
  let b := s.blockAt id
  s.setBlockAt id { b with drain := some (match bound with | some l => s.now + l | none => 0), changes := b.changes + 1 }

/-- The record of a pre-emption that missed its bound (R356, R366). -/
def missRecord (s : State) (id : Nat) : EventRecord :=
  let b := s.blockAt id
  { eventOf b.context 0x03 0 0 0 with vdie := vdieOf (s.contextAt b.context) (dieOf b.core), core := b.core % 64 }

/-- A miss is counted and told (R348, R366). -/
def noteMiss (s : State) (id : Nat) : State :=
  let c := (s.blockAt id).context
  let x := s.contextAt c
  let n := if x.pmiss = BitVec.allOnes 64 then x.pmiss else x.pmiss + 1
  (s.setContextAt c { x with pmiss := n }).postEvent c (s.missRecord id)

/-- A block is pre-empted by a method (R366, R367). -/
def preempt (s : State) (id : Nat) (m : Method) (bound : Option Nat) (queued : Bool) : State :=
  match m with
  | .flush => s.flushBlock id
  | .save => s.saveBlock id false false queued
  | .drain => s.drainBlock id bound
  | .miss => (s.noteMiss id).saveBlock id false true queued

/-- A block may be pre-empted by a method now: no takeover of its core is under way (R371), and a save can be completed, its copies among
the rest before the core issues on a clock (R344). -/
def mayPreempt (s : State) (id : Nat) (m : Method) : Bool :=
  (s.blocks.at? id).isSome && !(s.coreAt (s.blockAt id).core).paused &&
  match m with
  | .save | .miss => s.engineFree (s.blockAt id).core && s.maySave id
  | .flush => s.noRendezvous id
  | .drain => true

/-- A request to pre-empt a block, with its bound and, in host-assisted mode, the host's method (R365, R366). -/
def request (s : State) (id bound named : Nat) (queued : Bool) : State :=
  s.preempt id (s.methodFor id bound named) (boundOf (s.blockAt id).header.latbound bound) queued

/-! ## Restore (R370) -/

/-- A side of a copy once its block stands elsewhere. -/
def movedSide (b : Block) (core slot0 : Nat) : Side → Side
  | .pad c off => if b.holdsPad c off then .pad core (off - b.slot0 * slotBytes + slot0 * slotBytes) else .pad c off
  | x => x

/-- Group slots for the groups of an image on a core: their own where free, else the lowest free ones. -/
def slotsFor (s : State) (core : Nat) : List Nat → List Nat → List Nat
  | _, [] => []
  | used, old :: rest =>
      let free := fun (k : Nat) => s.slotFree core 0 k && !used.contains k
      let k := if free old then old else ((List.range 16).find? free).getD old
      k :: slotsFor s core (k :: used) rest

/-- A segment register of space s once the block's slots begin elsewhere. -/
def movedSegment (old new : Nat) (q : QWord) : QWord := segment (segBase q - slotBytes * old + slotBytes * new) (segLimit q)

/-- A group of an image on its new slots: every split resident from now on (R370), its windows anew (R144). -/
def movedGroup (now id : Nat) (g : Group) : Group :=
  { g with block := id, splits := g.splits.mapVal fun _ x => { x with age := now, issuedAt := now, back := 0 } }

def movedSys (b : Block) (slot0 : Nat) (y : GroupSys) : GroupSys :=
  { y with seg := { y.seg with s := movedSegment b.slot0 slot0 y.seg.s }
           segAttach := { y.segAttach with s := movedSegment b.slot0 slot0 y.segAttach.s }
           early := [] }

/-- A block of an image on a core: its windows restart, its units are new ones in the same places of its map (R144, R332). -/
def movedBlock (now core slot0 : Nat) (units : List Nat) (rename : Nat → Nat) (b : Block) : Block :=
  { b with
    core := core, slot0 := slot0, since := now, drain := none
    units := b.units.zipIdx.map fun e => (e.1.1, units.getD e.2 0)
    relays := b.relays.mapVal fun _ r => Relay.marked { r with fullSince := none, emptySince := none } now
    growFrom := b.growFrom.mapVal fun _ _ => now
    shrinkFrom := b.shrinkFrom.mapVal fun _ _ => now
    gathers := b.gathers.mapVal fun _ g => { g with slices := g.slices.map fun e => (rename e.1, e.2) } }

/-- Contents of the scratchpad slots and units of a restored block. -/
def fillBlock (s : State) (i : Image) (core slot0 : Nat) (units : List Nat) : State :=
  let s := s.clearPads core slot0 i.block.slots
  let s := s.setSpad (i.pads.foldl (fun m c => m.setByte (padKey core (slotBytes * slot0) + c.1) c.2) s.spad)
  let s := { s with acc := s.acc.filter fun e => !(units.any fun u => e.1 / 1024 == 32 * core + u) }
  let unit := fun (x : Nat) =>
    (i.block.units.zipIdx.find? fun e => e.1.1 == x / 1024).map fun e => units.getD e.2 0
  i.accs.foldl (fun s e => match unit e.1 with
    | some u => s.setAcc (32768 * core + 1024 * u + e.1 % 1024) e.2
    | none => s) s

/-- The debugger's view of a stopped group on its core (R376). -/
def showStops (s : State) (core : Nat) (l : List (Nat × GroupSys)) : State :=
  let s := l.foldl (fun s e => match e.2.stop with
    | some t => s.setCoreAt core { s.coreAt core with dstat := dstatOf (e.1 % 16) t.split t.why }
    | none => s) s
  s.markStopped core

/-- A saved block resumes on a core (R370): groups, copies, tags, slots and units as the image holds them. The core's caches hold
nothing from before, which the block might have been bound not to see (R262). -/
def restoreBlock (s : State) (context : Nat) (i : Image) (core slot0 : Nat) : State :=
  let b := i.block
  let id := s.freshId
  let old := i.groups.map fun e => e.1 % 16
  let empty := b.reserved.filter fun k => !old.contains k
  let slots := s.slotsFor core [] (old ++ empty)
  let names := i.groups.zipIdx.map fun e => (e.1.1, groupKey core (slots.getD e.2 0))
  let reserved := ((old ++ empty).zip slots).filterMap fun e => if b.reserved.contains e.1 then some e.2 else none
  let rename := fun (k : Nat) => ((names.find? fun e => e.1 == k).map Prod.snd).getD k
  let units := (s.freeUnits core).take b.units.length
  let s := s.bumpId.fillBlock i core slot0 units
  let s := s.setBlockAt id { movedBlock s.now core slot0 units rename b with reserved := reserved }
  let s := i.groups.foldl (fun s e =>
    (s.setGroupAt (rename e.1) (movedGroup s.now id e.2.1)).setSysAt (rename e.1) (movedSys b slot0 e.2.2)) s
  let copy := fun (r : CopyRequest) =>
    { r with block := id, source := movedSide b core slot0 r.source, dest := movedSide b core slot0 r.dest
             entries := r.entries.map fun e => (rename e.1, e.2), pushSince := r.pushSince.map fun _ => s.now }
  let k := s.coreAt core
  let s := s.setCoreAt core
    { k with icache := [], kcache := []
             copies := k.copies ++ i.copies.map copy
             tags := i.tags.foldl (fun t e => t.set (slot0 + e.1) e.2)
               (k.tags.filter fun e => !(slot0 ≤ e.1 && e.1 < slot0 + b.slots)) }
  let f := s.firmAt context
  let s := s.setFirmAt context
    { f with images := f.images.map fun j => if j.seq = i.seq then { j with saved := false, queued := false } else j }
  s.showStops core (i.groups.map fun e => (rename e.1, e.2.2))

/-- Group slots and registers that the groups of an image need (R144). -/
def imageSlots (i : Image) : Nat :=
  i.block.reserved.length + (i.groups.filter fun e => !i.block.reserved.contains (e.1 % 16)).length
def imageRegs (i : Image) : Nat := i.block.header.reservedRegs + (i.groups.map fun e => e.2.1.outside).foldl (· + ·) 0

/-- An image's block fits on a core: slots, registers, scratchpad, units, its place, the queue of the copy engine (R144, R332,
R370); on another die the laps of R289 have ended. -/
def mayRestore (s : State) (context : Nat) (i : Image) (core slot0 : Nat) : Bool :=
  let x := s.contextAt context
  let l := s.launchAt i.launch
  s.mayPlace l i.number core && s.roomFor core (imageSlots i) (imageRegs i) i.block.slots slot0 &&
  i.block.units.length ≤ (s.freeUnits core).length && (s.coreAt core).copies.length + i.copies.length ≤ 32 &&
  (dieOf core == i.die || (x.regions.filter fun e => regionV e.2).all fun e =>
    i.afterLaps.get (lapKey e.1 (dieOf core)) 0 ≤ (s.lapAt context e.1 (dieOf core)).ends)

/-- The SEQ recorded for a block (R368). -/
def latestSeq (f : ContextFirm) (i : Image) : Nat :=
  ((f.latest.find? fun e => e.1 == i.launch && e.2.1 == i.number).map fun e => e.2.2).getD 0

/-- An image that must be refused: it was altered, or, of a sealed context, it is not the block's latest (R369). -/
def badImage (f : ContextFirm) (i : Image) (intact : Bool) : Bool := !intact || (i.sealed && i.seq ≠ latestSeq f i)

/-- A refused image ends its context (R350, R369). -/
def imageKill (s : State) (context : Nat) : State :=
  s.killWith context (eventOf context 0x01 FaultClass.imageRejected.code 0 0)

end State

open State

/-- PREEMPTION_REQUEST: by the partition's dispatcher or by firmware; the block then waits for its restore (R365 to R368). -/
def execPreemptionRequest (block bound method : Nat) (s : State) : Result :=
  s.event (s.mayPreempt block (s.methodFor block bound method)) fun s => s.request block bound method true

/-- DRAIN_TO_SAVE (R366). -/
def execDrainToSave (block : Nat) (s : State) : Result :=
  match (s.blockAt block).drain with
  | some d => s.event (d ≠ 0 && d ≤ s.now && s.mayPreempt block .save) fun s => s.saveBlock block true false true
  | none => s.event false fun s => s

/-- BLOCK_RESTORE: the image with a SEQ, read back intact or altered, on a core with its scratchpad from a slot on (R369,
R370). -/
def execBlockRestore (context seq core slot0 : Nat) (intact : Bool) (s : State) : Result :=
  match (s.firmAt context).images.find? (·.seq == seq) with
  | some i =>
      if badImage (s.firmAt context) i intact then s.event (s.contexts.at? context).isSome fun s => s.imageKill context
      else s.event (i.saved && i.queued && s.hw.power.computeUp && s.mayRestore context i core slot0) fun s =>
        s.restoreBlock context i core slot0
  | none => s.event false fun s => s

end Sys2Proof.Machine
end

