-- ==== Sys2Proof/Machine/Service.lean ====
section
/-!
DEFINITION. The service cores: the pacer (R395 to R398), the fault service with its replays and rejections (R399 to R403), call
rings from the host (R426), and the TLBs (R382, R384).
-/

namespace Sys2Proof.Machine

namespace State

/-! ## The pacer (R395, R397, R398) -/

/-- Number of a pacer entry in the tables of entries and budgets. -/
def pacerKey (core tenant : Nat) : Nat := 24 * core + tenant

/-- A pacer entry: its reset value has WEIGHT 1 (R397). -/
def pacer (s : State) (core tenant : Nat) : DWord := s.hw.pacers.get (pacerKey core tenant) 0x100

def pacerBudget (w : DWord) : Nat := (w.extractLsb' 0 7).toNat
def pacerWeight (w : DWord) : Nat := (w.extractLsb' 8 8).toNat
def pacerV (w : DWord) : Bool := w.getLsbD 16

/-- Far-tier die of a service core. -/
def farDieOf (core : Nat) : Nat := core / 8

/-- Far-tier die that serves a near-tier die (R10, R395). -/
def servingDie (die : Nat) : Nat := if die = 0 || die = 3 then 0 else 1

/-- Far-tier die that holds a host port: ports 0 and 1 on die 0 (entry 23). -/
def portDie (port : Nat) : Nat := port / 2

/-- A service core is in service. -/
def inService (s : State) (core : Nat) : Bool := core < 16 && !s.hw.serviceDown.contains core

/-- An entry of a ring that the module consumes next, once its stamp is there (R426). -/
def ringEntry (s : State) (space : Nat) (g : Ring) : Option (List Byte) :=
  let off := windowBase space + g.base + 64 + 64 * (g.tail.toNat % 2 ^ g.logSize)
  if s.mem.read (off + 60) 4 = (g.tail + 1).toNat then some (s.mem.bytes off 60) else none

/-- Rings of a space from the host with an entry to consume, in ascending order. -/
def pendingRings (s : State) (space : Nat) : List Nat :=
  ((s.spaceAt space).rings.filter fun e => e.2.fromHost && (s.ringEntry space e.2).isSome).map Prod.fst

/-- Entries of a partition on a die that wait for service, in SEQ order. -/
def waitingFaults (s : State) (die partition : Nat) : List FaultEntry :=
  (s.dieAt die).faults.filter fun e => e.part == partition && !e.forwarded

/-- A tenant has work for a service core: partitions 0 to 15, spaces 16 to 23 (R398). -/
def hasWork (s : State) (core tenant : Nat) : Bool :=
  if tenant < 16 then
    (List.range 4).any fun d => servingDie d == farDieOf core && !(s.waitingFaults d tenant).isEmpty
  else portDie (s.spaceAt (tenant - 16)).port == farDieOf core && !(s.pendingRings (tenant - 16)).isEmpty

def budgetOf (s : State) (core tenant : Nat) : Nat := s.hw.budgets.get (pacerKey core tenant) 0

/-- Tenants that a core may serve now: those with budget and work, else those with work (R398). `resumed` are tenants with a request that
waits to resume, beside those that `hasWork` finds. -/
def servedWith (s : State) (core : Nat) (resumed : List Nat) : List Nat :=
  let l := (List.range 24).filter fun t => pacerV (s.pacer core t) && (resumed.contains t || s.hasWork core t)
  let rich := l.filter fun t => 0 < s.budgetOf core t
  if rich.isEmpty then l else rich

/-- The tenant whose turn it is on a core, and how many requests its turn has taken (R398). -/
def lastTurn (s : State) (core : Nat) : Nat × Nat := (s.hw.turns.get core 23 % 24, s.hw.turns.get core 23 / 24)

/-- The tenant whose turn it is among those that a core may serve (R398). -/
def turnAmong (s : State) (core : Nat) (l : List Nat) : Option Nat :=
  let t := s.lastTurn core
  if l.contains t.1 && 0 < t.2 && t.2 < pacerWeight (s.pacer core t.1) then some t.1
  else ((List.range 24).map fun k => (t.1 + 1 + k) % 24).find? l.contains

def servedNow (s : State) (core : Nat) : List Nat := s.servedWith core []

def tenantInTurn (s : State) (core : Nat) : Option Nat := s.turnAmong core (s.servedNow core)

/-- A request of a tenant may be served by a core in `micros` microseconds: one that has budget yields within 5 µs of its end. -/
def serviceDue (s : State) (core tenant micros : Nat) : Bool :=
  s.inService core && s.tenantInTurn core == some tenant &&
    (s.budgetOf core tenant == 0 || micros ≤ s.budgetOf core tenant + 5)

/-- A request served: its time is charged, its tenant's turn goes on (R398). -/
def charge (s : State) (core tenant micros : Nat) : State :=
  let t := s.lastTurn core
  let n := if t.1 = tenant && t.2 < pacerWeight (s.pacer core tenant) then t.2 + 1 else 1
  s.setHw { s.hw with
    budgets := s.hw.budgets.set (pacerKey core tenant) (s.budgetOf core tenant - micros)
    turns := s.hw.turns.set core (tenant + 24 * n) }

/-- A turn that ends: the next tenant comes. -/
def endTurn (s : State) (core tenant : Nat) : State :=
  s.setHw { s.hw with budgets := s.hw.budgets.set (pacerKey core tenant) 0, turns := s.hw.turns.set core tenant }

/-! ## Replays and rejections (R400, R402, R403) -/

/-- The entry with a SEQ in a die's queue. -/
def faultAt (s : State) (die seq : Nat) : Option FaultEntry := (s.dieAt die).faults.find? (·.seq == seq)

/-- An entry out of its queue. -/
def dropFault (s : State) (die seq : Nat) : State :=
  let k := s.dieAt die
  s.setDieAt die { k with faults := k.faults.filter (·.seq != seq) }

/-- A split no longer waits for a page; a rejected one raises its permission fault at its replay (R402). -/
def resumeSplit (s : State) (context gk n page : Nat) (rejected : Bool) : State :=
  let g := s.groupAt gk
  match g.splits.at? n with
  | some x =>
      if (s.blockAt g.block).context = context && x.missing.contains page then
        s.setGroupAt gk { g with splits := g.splits.set n { x with
          missing := x.missing.filter (· ≠ page), rejected := if rejected then x.rejected ++ [page] else x.rejected } }
      else s
  | none => s

/-- A launch no longer waits for a page: its read is repeated, or its completion goes on (R123, R126). -/
def resumeLaunch (s : State) (id page : Nat) : State :=
  match s.launches.at? id with
  | some l =>
      let l := { l with missing := l.missing.filter (· ≠ page) }
      let s := s.setLaunchAt id l
      if l.phase = .completing && l.missing.isEmpty then s.complete id else s
  | none => s

/-- A launch whose page is rejected is refused, or its completion fails (R119, R123, R126). -/
def rejectLaunch (s : State) (id page : Nat) : State :=
  match s.launches.at? id with
  | some l =>
      if l.phase = .completing then
        s.completionKill l.context (((completionWrites l.header).find? fun a => a / 65536 == page).getD 0)
      else s.refuseLaunch id 0x09
  | none => s

/-- A request of a wake list goes on. -/
def wake (s : State) (e : FaultEntry) : Waiter → State
  | .split gk n => s.resumeSplit e.context gk n e.vpage false
  | .launch id => s.resumeLaunch id e.vpage
  | .command _ _ => s

/-- A request of a wake list fails. -/
def turnAway (s : State) (e : FaultEntry) : Waiter → State
  | .split gk n => s.resumeSplit e.context gk n e.vpage true
  | .launch id => s.rejectLaunch id e.vpage
  | .command space seq => s.finishCommand space seq 0x21 0

/-- Post(replay) (R402). -/
def postReplay (s : State) (die : Nat) (e : FaultEntry) : State := e.wake.foldl (fun s w => s.wake e w) (s.dropFault die e.seq)

/-- Post(reject) (R402). -/
def postReject (s : State) (die : Nat) (e : FaultEntry) : State := e.wake.foldl (fun s w => s.turnAway e w) (s.dropFault die e.seq)

/-- A request that the full queue held is posted (R400). -/
def postHeld (s : State) (die : Nat) : State :=
  let k := s.dieAt die
  match k.held with
  | r :: rest => (s.setDieAt die { k with held := rest }).postFault die r
  | [] => s

/-! ## The fault service (R401) -/

/-- The 32 bytes of a fault-queue entry (R399). -/
def faultBytes (e : FaultEntry) : List Byte :=
  toBytes 8 e.vpage ++ toBytes 1 e.kind.toNat ++ toBytes 1 e.part ++ toBytes 2 e.context ++ toBytes 1 e.vdie ++ toBytes 1 e.core ++
    toBytes 1 e.slot ++ toBytes 1 0 ++ toBytes 4 e.count ++ toBytes 4 0 ++ toBytes 8 e.seq

/-- An entry marked as forwarded to the host, or no longer. -/
def forward (s : State) (die seq : Nat) (yes : Bool) : State :=
  let k := s.dieAt die
  s.setDieAt die { k with faults := k.faults.map fun e => if e.seq = seq then { e with forwarded := yes } else e }

/-- The ring of a space toward the host for a purpose, the lowest-numbered one (R425, R426). -/
def ringFor (s : State) (space purpose : Nat) : Option (Nat × Ring) :=
  ((s.spaceAt space).rings.find? fun e => !e.2.fromHost && e.2.purpose == purpose).filter fun e => s.ringHasRoom space e.2

/-- The reservation of a context that covers a page (R401). -/
def reservationOf (s : State) (c page : Nat) : Option Reservation :=
  (s.firmAt c).reservations.find? fun r => r.va ≤ 65536 * page && 65536 * page < r.va + r.len

/-- The leaf that the service installs for a reservation: its R, W, X, PCLASS, SC, TIER and HFB (R401). -/
def serviceLeaf (r : Reservation) (frame : Nat) : DWord := BitVec.ofNat 64 (3 + 4 * (r.attrs.toNat % 512) + 2 ^ 20 * frame)

/-- Out of memory (R401). -/
def outOfMemory (s : State) (e : FaultEntry) : State :=
  s.killWith e.context (eventOf e.context 0x01 FaultClass.outOfMemory.code 0 (BitVec.ofNat 64 (65536 * e.vpage)))

/-- A frame, zero-filled or filled with data, is mapped for a page; a protected context's mapping passes the security core, which
zero-fills the frame that it takes from the service (R385, R390, R401; entry 85). Where the security cores disagree about the
ownership table, the entry is served anew (R27). -/
def fillPageFault (s : State) (die : Nat) (e : FaultEntry) (r : Reservation) (choice : Nat) (data : List Byte) (agree : Bool) : State :=
  let c := e.context
  let x := s.contextAt c
  let f := s.firmAt c
  let va := 65536 * e.vpage
  let leafFor := serviceLeaf r
  match if f.allowance = 0 then none
    else s.pickFrame x.partition (r.attrs.extractLsb' 6 2).toNat (leafPclass (leafFor 0)) choice with
  | none => s.outOfMemory e
  | some frame =>
      let leaf := leafFor frame
      if x.prot && s.mapStatus c va leaf 0 ≠ 0 then s.postReject die e
      else if !agree then s.disagree.forward die e.seq false
      else
        let s := ((s.zeroFrame frame).setFrameAt frame (ownedFrame x c (leafPclass leaf))).noteFrame c frame
        match reach c va 0 4 x.tbase s with
        | .entry t a =>
            let kept := if x.prot then [] else data.take 65536
            let t := t.setMem ((t.mem.setBytes (65536 * frame) kept).write a 8 leaf.toNat)
            let k := t.firmAt c
            ((t.setFirmAt c { k with allowance := k.allowance - 1 }).postReplay die e).askWhenLow
        | _ => s.outOfMemory e

/-- A request for host-file data goes to the host; its layout is not given (R401, R426; entry 24). -/
def askFile (s : State) (server die : Nat) (e : FaultEntry) : State :=
  let space := (s.contextAt e.context).space
  match s.ringFor space 2 with
  | some g =>
      let s := (s.ringPut space g.1 g.2 (freeBytes s.tick (2 ^ 45) 60)).forward die e.seq true
      s.setHw { s.hw with fetches := s.hw.fetches ++ [{ server, die, seq := e.seq, space, ring := g.1 }] }
  | none => s

/-- The page is a lattice page, which the service never resolves (R268, R401). -/
def latticeFault (s : State) (e : FaultEntry) : Bool :=
  e.kind.getLsbD 4 || ((s.contextAt e.context).regionAt (65536 * e.vpage)).isSome

/-- The service of an entry in hardware mode (R401). -/
def serviceHere (s : State) (server die : Nat) (e : FaultEntry) (choice : Nat) (agree : Bool) : State :=
  match if s.latticeFault e then none else s.reservationOf e.context e.vpage with
  | none => s.postReject die e
  | some r =>
      if walk s.mem (s.contextAt e.context).tbase (65536 * e.vpage) ≠ .absent then s.postReplay die e
      else if r.attrs.getLsbD 8 then s.askFile server die e
      else s.fillPageFault die e r choice [] agree

/-- The service of an entry in host-assisted mode: a copy of it goes to the host driver (R403). -/
def serviceByHost (s : State) (die : Nat) (e : FaultEntry) : State :=
  let space := (s.contextAt e.context).space
  match s.ringFor space 1 with
  | some g => (s.ringPut space g.1 g.2 (faultBytes e)).forward die e.seq true
  | none => s

/-- A service core has what it needs for an entry: a ring with room, where the host is asked. -/
def mayService (s : State) (e : FaultEntry) : Bool :=
  let space := (s.contextAt e.context).space
  if e.assisted then (s.ringFor space 1).isSome
  else
    match if s.latticeFault e then none else s.reservationOf e.context e.vpage with
    | some r => !r.attrs.getLsbD 8 || walk s.mem (s.contextAt e.context).tbase (65536 * e.vpage) ≠ .absent || (s.ringFor space 2).isSome
    | none => true

/-- An entry is the first of its tenant on its die that waits for service (R398). -/
def firstFault (s : State) (die seq : Nat) : Option FaultEntry :=
  match s.faultAt die seq with
  | some e => if (s.waitingFaults die e.part).head? = some e then some e else none
  | none => none

/-- A service core takes an entry, in the mode of the moment at which it was posted: that is when the model has a fault begin (R30, R398,
R401, R403; entry 82). -/
def serveFault (s : State) (core die : Nat) (e : FaultEntry) (choice micros : Nat) (agree : Bool) : State :=
  let s := s.charge core e.part micros
  if e.assisted then s.serviceByHost die e else s.serviceHere core die e choice agree

/-- A service core resumes a request of a tenant for some microseconds, at its tenant's turn (R398). -/
def resumeDue (s : State) (core tenant micros : Nat) : Bool :=
  s.inService core && s.turnAmong core (s.servedWith core [tenant]) == some tenant &&
    (s.budgetOf core tenant == 0 || micros ≤ s.budgetOf core tenant + 5)

/-- A fetch of host-file data is over. -/
def dropFetch (s : State) (die seq : Nat) : State :=
  s.setHw { s.hw with fetches := s.hw.fetches.filter fun f => !(f.die == die && f.seq == seq) }

/-- The data of a host file arrives for an entry (R401). -/
def fileReply (s : State) (die : Nat) (e : FaultEntry) (choice : Nat) (data : List Byte) (agree : Bool) : State :=
  match s.reservationOf e.context e.vpage with
  | some r =>
      if walk s.mem (s.contextAt e.context).tbase (65536 * e.vpage) ≠ .absent then s.postReplay die e
      else s.fillPageFault die e r choice data agree
  | none => s.postReject die e

/-- A failed service core's fetches begin anew (R396). -/
def restartFetches (s : State) (core : Nat) : State :=
  let l := s.hw.fetches.filter (·.server == core)
  let s := l.foldl (fun s f => s.forward f.die f.seq false) s
  s.setHw { s.hw with fetches := s.hw.fetches.filter (·.server != core) }

/-- Contexts with a block on the near-tier dies that a far-tier die serves. -/
def contextsServed (s : State) (far : Nat) : List Nat :=
  distinct ((s.blocks.filter fun e => servingDie (dieOf e.2.core) == far).map fun e => e.2.context)

/-- A service core's queues pass to the others of its die (R396). -/
def takeOver (s : State) (core : Nat) : State :=
  let far := farDieOf core
  let s := s.setHw { s.hw with serviceDown := s.hw.serviceDown ++ [core] }
  let s := s.logError { type := 5, die := 4 + far, unit := core % 8, context := 0, addr := 0, time := s.micros, count := 0 }
  let record := fun (c : Nat) => { eventOf c 0x08 0 0 0 with vdie := 4 + far, core := core % 8 }
  ((s.contextsServed far).foldl (fun s c => s.postEvent c (record c)) s).restartFetches core

/-! ## Call rings from the host (R398, R426) -/

/-- The module has consumed an entry of a ring: TAIL rises (R426). -/
def consume (s : State) (space ring : Nat) : State :=
  let x := s.spaceAt space
  match x.rings.at? ring with
  | some g =>
      (s.setSpaceAt space { x with rings := x.rings.set ring { g with tail := g.tail + 1 } }).windowPut space (g.base + 32)
        (toBytes 4 (g.tail + 1).toNat)
  | none => s

/-- A call from a host's ring, served by a service core at its space's turn, rings in ascending number (R398, R426). -/
def hostCall (s : State) (core space ring micros : Nat) (ready : Bool) (effect : State → State) : Result :=
  s.event (ready && space < 8 && (s.pendingRings space).head? == some ring && portDie (s.spaceAt space).port == farDieOf core &&
      s.serviceDue core (16 + space) micros) fun s =>
    effect ((s.charge core (16 + space) micros).consume space ring)

/-- A call may name a context: it is bound to the space (R425). -/
def boundTo (s : State) (space c : Nat) : Bool := (s.contexts.at? c).isSome && (s.contextAt c).space == space

/-- A host's answer to an entry that it serves, one posted in host-assisted mode and sent to it (R29, R403). -/
def answer (s : State) (space die seq : Nat) (replay : Bool) : State :=
  match s.faultAt die seq with
  | some e =>
      if s.boundTo space e.context && e.assisted && e.forwarded then (if replay then s.postReplay die e else s.postReject die e) else s
  | none => s

/-! ## TLBs (R382, R384) -/

/-- A TLB of `n` entries with a new one; a full one loses the entry that the device chooses. -/
def tlbPut (l : List TlbEntry) (n out : Nat) (t : TlbEntry) : List TlbEntry :=
  if l.length < n then l ++ [t] else l.eraseIdx (out % n) ++ [t]

def putCoreTlb (s : State) (core out : Nat) (t : TlbEntry) : State :=
  let k := s.coreAt core
  if k.tlb.any fun u => u.covers t.context t.va then s else s.setCoreAt core { k with tlb := tlbPut k.tlb 128 out t }

def putDieTlb (s : State) (die out : Nat) (t : TlbEntry) : State :=
  let k := s.dieAt die
  if k.tlb.any fun u => u.covers t.context t.va then s else s.setDieAt die { k with tlb := tlbPut k.tlb 4096 out t }

/-- A core's miss: the die's TLB answers, or a walk begins or is joined (R382). -/
def tlbMiss (s : State) (core context page out : Nat) : State :=
  let die := dieOf core
  let k := s.dieAt die
  match k.tlb.find? fun t => t.covers context (65536 * page) with
  | some t => s.putCoreTlb core out t
  | none =>
      let here := fun (m : MissEntry) => m.context == context && m.vpage == page
      if k.misses.any here then
        s.setDieAt die
          { k with misses := k.misses.map fun m => if here m then { m with waiters := distinct (m.waiters ++ [core]) } else m }
      else if k.misses.length < 64 then s.setDieAt die { k with misses := k.misses ++ [{ context, vpage := page, waiters := [core] }] }
      else s

/-- A walk ends: a leaf that passes the checks is held by the die and by the cores that joined; anything else is not (R380, R382,
R384). A table of the context's own that fails ends it (R439). -/
def tlbFill (s : State) (die context page out dieOut : Nat) : State :=
  let k := s.dieAt die
  let here := fun (m : MissEntry) => m.context == context && m.vpage == page
  match k.misses.find? here with
  | some m =>
      let x := s.contextAt context
      let va := 65536 * page
      let s := s.setDieAt die { k with misses := k.misses.filter fun m => !here m }
      match s.badEntry context va, walk s.mem x.tbase va with
      | some a, _ => s.memoryKill context a
      | none, .leaf e level =>
          if leafPeer e || s.fillPasses x context e (s.frameOf die e level va) then
            let t : TlbEntry := { context, va, level, leaf := e }
            m.waiters.foldl (fun s c => s.putCoreTlb c out t) (s.putDieTlb die dieOut t)
          else s
      | _, _ => s
  | none => s

end State

open State

/-- EVENT_BACKLOG_DRAIN: the records of a context that has ended go first (R357, R426). -/
def execEventBacklogDrain (context : Nat) (s : State) : Result :=
  let f := s.firmAt context
  let space := (s.contextAt context).space
  match s.hw.ended.find? fun e => e.2.2.context == context with
  | some e =>
      match (s.spaceAt e.1).rings.at? e.2.1 with
      | some g => s.event (s.ringHasRoom e.1 g) fun s =>
          (s.setHw { s.hw with ended := s.hw.ended.erase e }).ringPut e.1 e.2.1 g (recordBytes e.2.2)
      | none => s.event false fun s => s
  | none =>
      match f.backlog, (s.spaceAt space).rings.at? f.ring with
      | r :: rest, some g => s.event (s.ringHasRoom space g) fun s =>
          (s.setFirmAt context { f with backlog := rest }).ringPut space f.ring g (recordBytes r)
      | _, _ => s.event false fun s => s

/-- FAULT_QUEUE_HELD_POST (R400). -/
def execFaultQueueHeldPost (die : Nat) (s : State) : Result :=
  s.event ((s.dieAt die).faults.length < 512) fun s => s.postHeld die

/-- FAULT_SERVICE_ENTRY: a service core takes the entry with a SEQ of a die; `choice` is the frame that firmware prefers, and whether
the security cores agree (R27, R395, R398, R401 to R403). -/
def execFaultServiceEntry (core die seq : Nat) (choice : Voted Nat) (micros : Nat) (s : State) : Result :=
  match s.firstFault die seq with
  | some e =>
      s.event (servingDie die == farDieOf core && s.serviceDue core e.part micros && s.mayService e) fun s =>
        s.serveFault core die e choice.value micros choice.agree
  | none => s.event false fun s => s

/-- HOST_FILE_FETCH_REPLY: the service core that asked goes on with the entry at its tenant's turn and expense; the data of an entry that is
gone are dropped (R398, R401). -/
def execHostFileFetchReply (die seq : Nat) (service : Voted Service) (data : List Byte) (s : State) : Result :=
  match s.hw.fetches.find? fun f => f.die == die && f.seq == seq with
  | some f =>
      let micros := service.value.micros
      match s.faultAt die seq with
      | some e => s.event (s.resumeDue f.server e.part micros) fun s =>
          ((s.charge f.server e.part micros).dropFetch die seq).fileReply die e service.value.choice data service.agree
      | none => s.event true fun s => s.dropFetch die seq
  | none => s.event false fun s => s

/-- HOST_CALL_REPLAY (R402, R403). -/
def execHostCallReplay (core space ring micros die seq : Nat) (s : State) : Result :=
  s.hostCall core space ring micros true fun s => s.answer space die seq true

/-- HOST_CALL_REJECT (R402, R403). -/
def execHostCallReject (core space ring micros die seq : Nat) (s : State) : Result :=
  s.hostCall core space ring micros true fun s => s.answer space die seq false

/-- HOST_CALL_KILL: the class and subclass of its record are the call's (R356, R403; entry 24). -/
def execHostCallKill (core space ring micros context cls sub : Nat) (s : State) : Result :=
  s.hostCall core space ring micros true fun s =>
    if s.boundTo space context then s.killWith context (eventOf context 0x01 (cls % 256) (sub % 256) 0) else s

/-- HOST_CALL_PREEMPT: a block, by a method (R365, R366, R403, R426). -/
def execHostCallPreempt (core space ring micros block bound method : Nat) (s : State) : Result :=
  let mine := s.boundTo space (s.blockAt block).context
  s.hostCall core space ring micros (!mine || s.mayPreempt block (s.methodFor block bound method)) fun s =>
    if mine then s.request block bound method false else s

/-- SERVICE_CORE_TAKEOVER (R396). -/
def execServiceCoreTakeover (core : Nat) (s : State) : Result :=
  s.event (s.inService core) fun s => s.takeOver core

/-- PACER_ENTRY_WRITE: refused where the valid entries of the core would have budgets above 100 together, or a field leaves its
range (R397; entry 25). -/
def execPacerEntryWrite (core tenant : Nat) (value : DWord) (s : State) : Result :=
  let w := value &&& 0x1FF7F
  let sum := ((List.range 24).map fun t =>
    let e := if t = tenant then w else s.pacer core t
    if pacerV e then pacerBudget e else 0).foldl (· + ·) 0
  s.event (core < 16 && tenant < 24 && sum ≤ 100 && pacerBudget w ≤ 100 && 1 ≤ pacerWeight w) fun s =>
    s.setHw { s.hw with pacers := s.hw.pacers.set (pacerKey core tenant) w }

/-- PACER_WINDOW: every valid tenant's remaining budget is its BUDGET again (R398). -/
def execPacerWindow (core : Nat) (s : State) : Result :=
  s.event (core < 16) fun s =>
    s.setHw { s.hw with budgets := (List.range 24).foldl (fun t k =>
      if pacerV (s.pacer core k) then t.set (pacerKey core k) (pacerBudget (s.pacer core k)) else t) s.hw.budgets }

/-- PACER_BUDGET_EXHAUSTED: the request yields and resumes at its tenant's next turn (R398). -/
def execPacerBudgetExhausted (core tenant : Nat) (s : State) : Result :=
  s.event (s.inService core && s.tenantInTurn core == some tenant && 0 < s.budgetOf core tenant) fun s => s.endTurn core tenant

/-- TLB_MISS (R382). -/
def execTlbMiss (core context page out : Nat) (s : State) : Result :=
  s.event ((s.contexts.at? context).isSome && core < 256 &&
    !(s.coreAt core).tlb.any fun t => t.covers context (65536 * page)) fun s => s.tlbMiss core context page out

/-- TLB_FILL (R380, R382, R384). -/
def execTlbFill (die context page out dieOut : Nat) (s : State) : Result :=
  s.event true fun s => s.tlbFill die context page out dieOut

end Sys2Proof.Machine
end

