-- ==== Sys2Proof/Machine/Security.lean ====
section
/-!
DEFINITION. The security cores: the ownership table (R383, R386, R391), the partition table (R387), measured code (R393),
attestation (R394).
-/

namespace Sys2Proof.Machine

/-! ## The partition table (R387) -/

/-- An entry from its 128 bits; reserved bits read as zero. -/
def partitionOfBits (q : QWord) : Partition :=
  { gran := q.extractLsb' 0 16, valid := q.getLsbD 16, prot := q.getLsbD 17, checked := q.getLsbD 18, sealed := q.getLsbD 19
    mode := q.extractLsb' 20 6, farshare := q.extractLsb' 32 16 }

/-- The 128 bits of an entry. -/
def Partition.bits (p : Partition) : QWord :=
  BitVec.ofNat 128 (p.gran.toNat + 2 ^ 16 * p.valid.toNat + 2 ^ 17 * p.prot.toNat + 2 ^ 18 * p.checked.toNat +
    2 ^ 19 * p.sealed.toNat + 2 ^ 20 * p.mode.toNat + 2 ^ 32 * p.farshare.toNat)

/-- Granules of a partition; one that does not exist has none. -/
def Partition.granules (p : Partition) : BitVec 16 := if p.valid then p.gran else 0

namespace State

/-- A block of a partition is resident on a granule, or a frame of the partition lies in its stack (R387). -/
def granuleUsed (s : State) (p g : Nat) : Bool :=
  (s.blocks.any fun e => e.2.partition == p && granuleOf e.2.core == g) ||
  s.hw.frames.any fun e => e.2.part.toNat == p && e.2.state != .free && e.1 / stackFrames == g

/-- A partition holds a protected context. -/
def holdsProtected (s : State) (n : Nat) : Bool := s.contexts.any fun e => e.2.prot && e.2.partition == n

/-- A write of a partition entry is accepted (R31, R387). R387 lists no refusal for an entry with V = 1 and GRAN 0: it is accepted
(entry 86). -/
def partitionFine (s : State) (n : Nat) (p : Partition) : Bool :=
  let old := (s.partitionAt n).granules
  ((List.range 16).all fun k => k == n || (s.partitionAt k).granules &&& p.granules == 0) &&
  !((p.prot || s.holdsProtected n) && p.mode.getLsbD 5) &&
  ((List.range 16).all fun g => !old.getLsbD g || p.granules.getLsbD g || !s.granuleUsed n g) &&
  ((List.range 16).map fun k => (if k = n then p else s.partitionAt k).farshare.toNat).foldl (· + ·) 0 ≤ 2048

/-! ## Measured code (R393) -/

/-- The bytes of an image that lies in some frames. -/
def imageBytes (s : State) (frames : List Nat) (len : Nat) : List Byte :=
  ((frames.map fun f => s.mem.bytes (65536 * f) 65536).flatten).take len

/-- Frames that hold measured code. -/
def markCode (s : State) (frames : List Nat) : State :=
  frames.foldl (fun s f => s.setFrameAt f { s.frameAt f with code := true }) s

/-- A code image is measured, and its frames are marked (R393). -/
def measureImage (s : State) (c : Nat) (frames : List Nat) (len : Nat) : State :=
  let k := s.firmAt c
  let k := { k with measured := k.measured ++ [(frames, len)], digest := Config.measure k.digest (s.imageBytes frames len) }
  ((s.setFirmAt c k).dropEntries c none).markCode frames

/-! ## Attestation (R394) -/

/-- The first 184 bytes of a context's report. -/
def reportBody (s : State) (c : Nat) (nonce : BitVec 256) : List Byte :=
  let x := s.contextAt c
  let flags := x.prot.toNat + 2 * (s.sealedOf c).toNat + 4 * x.dbg.toNat + 8 * (!x.prot).toNat + 16 * (s.checkedOf c).toNat
  toBytes 2 1 ++ toBytes 2 flags ++ toBytes 2 c ++ toBytes 1 x.partition ++ toBytes 1 0 ++ toBytes 32 nonce.toNat ++
    toBytes 48 (s.firmAt c).digest.toNat ++ toBytes 48 Config.firmwareDigest.toNat ++
    toBytes 48 (Config.tablesDigest (s.partitionAt x.partition).bits x.roster).toNat

/-- A report with its signature. -/
def report (s : State) (c : Nat) (nonce : BitVec 256) : List Byte :=
  s.reportBody c nonce ++ toBytes 96 (Config.signature (s.reportBody c nonce)).toNat

end State

open State

/-- FRAME_RECORD_CHANGE: the record's 64 bits; refused and logged where the security cores disagree (R27, R386, R391). A frame that holds a
live table keeps its record, but for quarantine (R389). -/
def execFrameRecordChange (frame : Nat) (record : DWord) (agree : Bool) (s : State) : Result :=
  s.event (!s.frameBusy frame && !s.poolMapped frame &&
      (!s.holdsTable frame || (recordOfBits record).state == .quarantined)) fun s =>
    if agree then s.changeRecord frame (recordOfBits record) else s.disagree

/-- PARTITION_TABLE_WRITE (R27, R30, R31, R387). -/
def execPartitionTableWrite (partition : Nat) (entry : QWord) (agree : Bool) (s : State) : Result :=
  s.event (partition < 16) fun s =>
    let p := partitionOfBits entry
    if !agree then s.disagree
    else if s.partitionFine partition p then s.setHw { s.hw with partitions := s.hw.partitions.set partition p }
    else s

/-- CODE_IMAGE_MEASURE: an image of a context in frames that it owns; refused where the security cores disagree (R27, R393). -/
def execCodeImageMeasure (context : Nat) (frames : List Nat) (len : Voted Nat) (s : State) : Result :=
  let x := s.contextAt context
  s.event ((s.contexts.at? context).isSome && len.value ≤ 65536 * frames.length && (frames.all fun f =>
      (s.frameAt f).owner.toNat == context && (s.frameAt f).usable context x.partition) && !s.usesEntries context none) fun s =>
    if len.agree then s.measureImage context frames len.value else s.disagree

/-- ATTESTATION_REQUEST: the signature is a key operation, refused where the security cores disagree (R27, R394). -/
def execAttestationRequest (context : Nat) (nonce : Voted (BitVec 256)) (s : State) : Result :=
  s.event (s.contexts.at? context).isSome fun s =>
    if nonce.agree then s.setHw { s.hw with reports := s.hw.reports ++ [s.report context nonce.value] } else s.disagree

end Sys2Proof.Machine
end

