-- ==== Sys2Proof/Machine/Checkpoints.lean ====
section
/-!
DEFINITION. Checkpoints (R404, R405) and the return of a context from one (R406).
-/

namespace Sys2Proof.Machine

namespace State

/-! ## The cut (R404) -/

/-- Resident blocks of a context. -/
def blocksOf (s : State) (c : Nat) : List Nat := (s.blocks.filter fun e => e.2.context == c).map Prod.fst

/-- The blocks of a context at rest. -/
def restAll (s : State) (c : Nat) : State := (s.blocksOf c).foldl rest s

/-- Images of the resident blocks of a context, each with its own SEQ, the latest of its block (R368, R369). -/
def cutImages (s : State) (c : Nat) : State × List Image :=
  (s.blocksOf c).foldl (fun r id =>
    let i := r.1.imageOf id false false true
    (r.1.recordImage c i, r.2 ++ [i])) (s, [])

/-- The join of a lattice page's replicas (R404). -/
def joinedPage (s : State) (c : Nat) (e : DWord) : Memory :=
  let t := (latTypeOf (leafLtype e)).getD .maxN32
  match s.setFrames c e with
  | f :: rest => (rest.foldl (fun m g => joinFrame s.mem t m f g) s.mem).slice (65536 * f) 65536 0
  | [] => []

/-- Frames of a leaf that a checkpoint holds: the context's own (R404). -/
def ownFrames (s : State) (c : Nat) (l : LeafAt) : List (Nat × Nat) :=
  if leafLat l.leaf then [(l.va / 65536, (s.setFrames c l.leaf).headD 0)]
  else ((leafFrames l.leaf l.level).zipIdx.map fun e => (l.va / 65536 + e.2, e.1)).filter fun e =>
    (s.frameAt e.2).owner.toNat == c

/-- The latest complete checkpoint of a context. -/
def lastCheckpoint (s : State) (c : Nat) : Option Checkpoint := ((s.hw.checkpoints.get c []).filter Checkpoint.complete).getLast?

/-- The pages that a checkpoint of a context holds, each with its frame and leaf (R404). -/
def pagesToCut (s : State) (c : Nat) : List ((Nat × Nat) × DWord) :=
  ((s.leavesOf c).map fun l => (s.ownFrames c l).map fun e => (e, l.leaf)).flatten

/-- The frames that hold a page: on every die, for a lattice page (R268). -/
def pageFrames (s : State) (c : Nat) (e : (Nat × Nat) × DWord) : List Nat :=
  if leafLat e.2 then s.setFrames c e.2 else [e.1.2]

/-- A page as the last checkpoint holds it, where no frame of it has been written since; it may have moved (R405). -/
def keptPage (s : State) (c : Nat) (e : (Nat × Nat) × DWord) : Option SavedPage :=
  if (s.pageFrames c e).any fun f => (s.firmAt c).written.contains f then none
  else (s.lastCheckpoint c).bind fun k => k.pages.find? fun p => p.vpage == e.1.1 && p.now == e.1.2

/-- Page number `i` of a checkpoint: one not written since the last checkpoint keeps its flash location and item word; the location of
a new one is the device's choice (R404, R405). -/
def savePage (s : State) (c seq : Nat) (e : (Nat × Nat) × DWord) (i : Nat) : SavedPage :=
  match s.keptPage c e with
  | some p => { p with frame := e.1.2, record := s.frameAt e.1.2 }
  | none =>
      { vpage := e.1.1, frame := e.1.2, now := e.1.2
        flash := (pair (Config.undefined s.tick (2 ^ 48 + 2 * i)) (Config.undefined s.tick (2 ^ 48 + 2 * i + 1))).toNat
        item := seq * 2 ^ 28 + i + 1, record := s.frameAt e.1.2
        data := if leafLat e.2 then s.joinedPage c e.2 else s.mem.slice (65536 * e.1.2) 65536 0, coded := [], tag := [] }

/-- The pages of a context (R404, R405). -/
def cutPages (s : State) (c seq : Nat) : List SavedPage := (s.pagesToCut c).zipIdx.map fun e => s.savePage c seq e.1 e.2

/-- A frame with an uncorrectable line that a checkpoint would copy (R439). -/
def badPage (s : State) (c : Nat) : Option Nat :=
  ((s.pagesToCut c).map (s.pageFrames c)).flatten.find? fun f => s.hw.poisoned.any fun l => l / 1024 == f

/-- A cut can be made now: every block comes to rest (R367, R404) on a core whose copy engine need not wait (R344), no checkpoint of the
context is under way, and the numbers of checkpoints and of pages last (R405). -/
def mayCut (s : State) (c : Nat) : Bool :=
  (s.contexts.at? c).isSome && (s.hw.checkpoints.get c []).all Checkpoint.complete && (s.firmAt c).ckNumber + 1 < 2 ^ 36 &&
  (s.pagesToCut c).length < 2 ^ 28 &&
  ((s.blocksOf c).all fun id => s.noRendezvous id && s.engineFree (s.blockAt id).core) && (((s.restAll c).blocksOf c).all (s.restAll c).restful)

/-- The cut of a checkpoint: blocks at rest, their images, pages, launches and queues (R404). A page with an uncorrectable line ends
the context (R439). -/
def cut (s : State) (c : Nat) (host : Bool) (command : Option (Nat × Word)) : State :=
  let s := s.restAll c
  if s.contexts.at? c = none then s
  else
    match s.badPage c with
    | some f => s.memoryKill c (65536 * f)
    | none =>
        let r := s.cutImages c
        let s := r.1
        let old := s.firmAt c
        let seq := old.ckNumber + 1
        let f := { old with ckNumber := seq, ckAt := s.now, written := [] }
        let mine := (s.launches.filter fun e => e.2.context == c).map Prod.fst
        let k : Checkpoint :=
          { seq, hostTriggered := host, sealed := s.sealedOf c, context := s.contextAt c, firm := f
            leaves := (s.leavesOf c).map fun l => (l.va, l.level, l.leaf)
            pages := s.cutPages c seq
            launches := s.launches.filter fun e => e.2.context == c
            queues := (s.queues.mapVal fun _ q => q.filter mine.contains).filter fun e => e.2 ≠ []
            images := r.2 ++ f.images.filter (·.saved)
            manifest := [], coded := [], tag := [], complete := false, command, bad := false }
        let s := s.setFirmAt c f
        s.setHw { s.hw with checkpoints := s.hw.checkpoints.set c (s.hw.checkpoints.get c [] ++ [k]) }

/-! ## The commit (R404, R405) -/

/-- The 128 bytes of a manifest; the flash offsets are the device's. -/
def manifestOf (c : Nat) (k : Checkpoint) (mapOff imgOff : Nat) : List Byte :=
  toBytes 2 0x5A43 ++ toBytes 2 (k.sealed.toNat + 2 * k.hostTriggered.toNat) ++ toBytes 2 c ++
    toBytes 1 k.context.partition ++ toBytes 1 0 ++ toBytes 8 k.seq ++ toBytes 8 k.pages.length ++ toBytes 8 mapOff ++
    toBytes 8 k.images.length ++ toBytes 8 imgOff ++ toBytes 48 k.firm.digest.toNat ++ toBytes 32 0

/-- The page map of a checkpoint: 24 bytes for each page (R405). -/
def pageMap (k : Checkpoint) : List Byte :=
  (k.pages.map fun p => toBytes 8 p.vpage ++ toBytes 8 p.flash ++ toBytes 8 p.item).flatten

/-- The page map and the new pages of a sealed context's checkpoint, each encrypted as an item of its own with the manifest as the
associated data (R405). -/
def sealCheckpoint (c : Nat) (k : Checkpoint) : Checkpoint :=
  if !k.sealed then k
  else
    let page := fun (p : SavedPage) =>
      if p.item / 2 ^ 28 ≠ k.seq then p
      else
        let e := Config.sealed c 2 p.item k.manifest (p.data.bytes 0 65536)
        { p with coded := e.1, tag := e.2 }
    let m := Config.sealed c 2 (k.seq * 2 ^ 28) k.manifest (pageMap k)
    { k with pages := k.pages.map page, coded := m.1, tag := m.2 }

/-- The checkpoint under way is complete; the one before it is needed no more (R405). Where the security cores disagree on the items of a
sealed context it stays under way (R27; entry 95). -/
def commit (s : State) (c mapOff imgOff : Nat) : State :=
  match (s.hw.checkpoints.get c []).find? fun k => !k.complete with
  | some k =>
      let keep := fun (s : State) =>
        let k' := sealCheckpoint c { k with complete := true, manifest := manifestOf c k mapOff imgOff, command := none }
        let s := s.setHw { s.hw with checkpoints := s.hw.checkpoints.set c [k'] }
        match k.command with
        | some e => s.finishCommand e.1 e.2 0x00 0
        | none => s
      if k.sealed then s.decided keep else keep s
  | none => s

/-! ## Resume (R406) -/

/-- The old and new frames of a resumed context. -/
abbrev Moved := List (Nat × Nat)

/-- A frame of a checkpoint's page filled with its content, in the record it had (R406). -/
def fillSaved (s : State) (k : Checkpoint) (old new : Nat) : State :=
  match k.pages.find? (·.frame == old) with
  | some p => ((s.zeroFrame new).setFrameAt new p.record).setMem
      (p.data.foldl (fun m c => m.setByte (65536 * new + c.1) c.2) (s.zeroFrame new).mem)
  | none => s

/-- The frames of a saved leaf on their new place; a lattice page has one on each die, and its first stands for it (R268, R406). -/
def placeLeaf (s : State) (k : Checkpoint) (c : Nat) (moved : Moved) (e : Nat × Nat × DWord) : Option (State × Moved × DWord) :=
  let x := k.context
  let leaf := e.2.2
  let n := 2 ^ (pageBits e.2.1 - 16)
  let mine := k.pages.any fun p => p.vpage == e.1 / 65536
  if leafPeer leaf || !mine then some (s, moved, leaf)
  else if leafLat leaf then
    let old := ((k.pages.find? fun p => p.vpage == e.1 / 65536).map SavedPage.frame).getD 0
    if moved.any fun m => m.1 == old then some (s, moved, leaf)
    else (s.newSet c (leafPclass leaf)).map fun l =>
      let s := s.setHw { s.hw with frameSets := s.hw.frameSets.set (leafAddr leaf) l }
      let frames := x.vdies.map fun d => l.getD d 0
      (frames.foldl (fun s f => s.fillSaved k old f) s, moved ++ [(old, frames.headD 0)], leaf)
  else
    match moved.find? fun m => m.1 == leafAddr leaf with
    | some m => some (s, moved, movedLeaf leaf m.2)
    | none => (s.pickRun x.partition (leafTier leaf).toNat (leafPclass leaf) n).map fun f =>
        ((List.range n).foldl (fun s i => s.fillSaved k (leafAddr leaf + i) (f + i)) s,
          moved ++ (List.range n).map fun i => (leafAddr leaf + i, f + i), movedLeaf leaf f)

/-- The tables and frames of a context rebuilt from its checkpoint, with the old and the new numbers of its frames; none where memory runs
out. -/
def rebuild (s : State) (k : Checkpoint) (c : Nat) : Option (State × Moved) :=
  match s.takeTable c 3 with
  | some (s, root) =>
      let s := s.setContextAt c { s.contextAt c with tbase := 65536 * root }
      (k.leaves.foldl (fun r e =>
        match r with
        | some (s, moved) =>
            match s.placeLeaf k c moved e with
            | some (s, moved, leaf) =>
                match reach c e.1 e.2.1 4 (s.contextAt c).tbase s with
                | .entry t a => some (t.setMem (t.mem.write a 8 leaf.toNat), moved)
                | _ => none
            | none => none
        | none => none) (some (s, ([] : Moved))))
  | none => none

/-- The command of a launch, where it still waits: after power-up none does (R406, R431). -/
def waitingCommand (s : State) (c : Option (Nat × Nat)) : Option (Nat × Nat) :=
  c.filter fun e => match s.commandAt e.1 (BitVec.ofNat 32 e.2) with
    | some d => d.phase == .started && d.kind == 1
    | none => false

/-- Launches and queues of a checkpoint in place again. -/
def restoreLaunches (s : State) (k : Checkpoint) : State :=
  let put := fun (t : Table Launch) (e : Nat × Launch) => t.set e.1 { e.2 with command := s.waitingCommand e.2.command }
  let s := { s with launches := k.launches.foldl put s.launches }
  { s with queues := k.queues.foldl (fun (t : Table (List Nat)) (e : Nat × List Nat) => t.set e.1 (t.get e.1 [] ++ e.2)) s.queues }

/-- The measurement of the code of a checkpoint, recomputed over its pages (R393, R406). -/
def savedMeasure (k : Checkpoint) : BitVec 384 :=
  let page := fun (f : Nat) => (((k.pages.find? (·.frame == f)).map SavedPage.data).getD []).bytes 0 65536
  k.firm.measured.foldl (fun d e => Config.measure d (((e.1.map page).flatten).take e.2)) 0

/-- A checkpoint as its resume finds it: an item of a sealed context that has been altered fails its tag (R405, R406). -/
def foundCheckpoint (k : Checkpoint) (altered : Bool) : Checkpoint := { k with bad := k.bad || (k.sealed && altered) }

/-- A checkpoint is refused: its code measures otherwise than CODE, or its flash or a tag fails (R406, R439). -/
def rejectsCheckpoint (k : Checkpoint) : Bool := savedMeasure k ≠ k.firm.digest || k.bad

/-- The new number of a frame of a checkpoint. -/
def Moved.of (m : Moved) (f : Nat) : Nat := ((m.find? fun e => e.1 == f).map Prod.snd).getD f

/-- Firmware finds the frames of measured code, and the checkpoint those of its pages, where a resume has put them (R393, R405, R406). -/
def followFrames (s : State) (c : Nat) (k : Checkpoint) (m : Moved) : State :=
  let f := s.firmAt c
  let s := s.setFirmAt c { f with measured := f.measured.map fun e => (e.1.map m.of, e.2) }
  s.setHw { s.hw with checkpoints :=
    s.hw.checkpoints.set c [{ k with command := none, pages := k.pages.map fun p => { p with now := m.of p.frame } }] }

/-- What firmware keeps for a resumed context: every image is queued for its restore (R406). -/
def resumedFirm (k : Checkpoint) (backlog : List EventRecord) : ContextFirm :=
  { k.firm with
    backlog, tables := [], written := [], images := k.images.map fun i => { i with saved := true, queued := true }
    latest := k.images.map fun i => (i.launch, i.number, i.seq) }

/-- A context that cannot be resumed is told of, and nothing of it is left (R406). -/
def refuseResume (s : State) (c cls : Nat) : State :=
  ((s.postEvent c (eventOf c 0x01 cls 0 0)).keepRecords c).removeContext c

/-- A context resumed from a checkpoint (R406); `s` holds nothing of it. Where the security cores disagree on its ownership records it is not
resumed (R27; entry 95). -/
def resume (s : State) (c : Nat) (k : Checkpoint) (backlog : List EventRecord) : State :=
  let t := (s.setContextAt c k.context).setFirmAt c (resumedFirm k backlog)
  if rejectsCheckpoint k then t.refuseResume c FaultClass.imageRejected.code
  else if !t.agreed then t.voted.disagree.refuseResume c FaultClass.imageRejected.code
  else
    match t.voted.rebuild k c with
    | some (t, moved) =>
        let t := ((t.restoreLaunches k).followFrames c k moved).askWhenLow
        t.postEvent c (eventOf c 0x07 0 0 (BitVec.ofNat 64 k.seq))
    | none => t.voted.refuseResume c FaultClass.outOfMemory.code

end State

open State

/-- CHECKPOINT_TIMER: CKINT milliseconds after the last one began, where firmware keeps the schedule (R403, R404). -/
def execCheckpointTimer (context : Nat) (s : State) : Result :=
  let f := s.firmAt context
  s.event (f.ckint ≠ 0 && f.ckAt + 2500000 * f.ckint ≤ s.now && !s.assisted (s.contextAt context).partition 4 &&
    s.mayCut context) fun s => s.cut context false none

/-- CHECKPOINT_COMMIT (R404, R405). -/
def execCheckpointCommit (context mapOff imgOff : Nat) (s : State) : Result :=
  s.event true fun s => s.commit context mapOff imgOff

/-- HOST_CALL_CHECKPOINT (R403, R404, R426). -/
def execHostCallCheckpoint (core space ring micros context : Nat) (s : State) : Result :=
  s.hostCall core space ring micros (!s.boundTo space context || s.mayCut context) fun s =>
    if s.boundTo space context then s.cut context true none else s

end Sys2Proof.Machine
end

