-- ==== Sys2Proof/Machine/Moves.lean ====
section
/-!
DEFINITION. Pages on the move: between tiers and channels for device contexts (R261), of tenant pages and of pool pages (R413,
R414, R418, R428), off failing frames (R438).
-/

namespace Sys2Proof.Machine

namespace State

/-! ## Frames copied (R261, R439) -/

/-- The content of a frame copied to another; a poisoned line stays poisoned (R439). -/
def copyFrame (s : State) (a b : Nat) : State :=
  let m := s.mem.clear (65536 * b) 65536
  let data := s.mem.slice (65536 * a) 65536 (65536 * b)
  let lines := (s.hw.poisoned.filter fun l => l / 1024 == a).map fun l => l - 1024 * a + 1024 * b
  ((s.forgetFrame b).setMem (data.foldl (fun m c => m.setByte c.1 c.2) m)).setHw
    { s.hw with poisoned := s.hw.poisoned.filter (fun l => l / 1024 ≠ b) ++ lines }

/-- A frame's number where it has moved. -/
def renamed (a b : Nat) (f : Nat) : Nat := if f = a then b else f

/-- A page of a checkpoint is found in its frame's new place (R405). -/
def movedSave (a b : Nat) (k : Checkpoint) : Checkpoint := { k with pages := k.pages.map fun p => { p with now := renamed a b p.now } }

/-- What firmware keeps of a context's frames follows a moved frame. -/
def renameFirm (a b : Nat) (f : ContextFirm) : ContextFirm :=
  { f with
    written := (f.written.filter (· ≠ b)).map (renamed a b), tables := f.tables.map (renamed a b)
    measured := f.measured.map fun e => (e.1.map (renamed a b), e.2) }

/-- Leaves to a frame point to its new place, and no TLB holds the old entry (R261, R362). -/
def redirect (s : State) (a b : Nat) : State :=
  (s.leavesTo a).foldl (fun s e =>
    let first := leafAddr e.2.leaf
    let s := if first = a then s.setMem (s.mem.write e.2.pa 8 (movedLeaf e.2.leaf b).toNat) else s
    s.dropEntries e.1 (some (e.2.va / 65536, 2 ^ (pageBits e.2.level - 16)))) s

/-- A tenant page of a frame that moves: the frame itself, or one in which some of its sectors lie. -/
def movedPage (a b : Nat) (p : TenantPage) : TenantPage :=
  let p := if p.form = .plain && p.loc = a then { p with loc := b } else p
  { p with sectors := p.sectors.map fun x => if x / 16 = a then 16 * b + x % 16 else x }

/-- Tenant pages in a frame are found in its new place (R418, R428). -/
def redirectTenants (s : State) (a b : Nat) : State :=
  let page := movedPage a b
  s.setHw { s.hw with spaces := s.hw.spaces.mapVal fun _ x => { x with pages := x.pages.mapVal fun _ p => page p } }

/-- A frame's content and record go to another frame, which serves the page from now on. -/
def switchFrame (s : State) (a b : Nat) : State :=
  let r := s.frameAt a
  let s := ((s.copyFrame a b).setFrameAt b r).redirectTenants a b
  let s := s.setHw { s.hw with checkpoints := s.hw.checkpoints.mapVal fun _ l => l.map (movedSave a b) }
  { s with firm := s.firm.mapVal fun _ f => renameFirm a b f }

/-! ## Moves of a context's page (R261, R403) -/

/-- A leaf may move: plain frames of the context's own, which no other leaf maps in part and no window holds in place (R233, R261,
R268). -/
def movable (s : State) (c : Nat) (l : LeafAt) : Bool :=
  !leafPeer l.leaf && !leafLat l.leaf && (leafFrames l.leaf l.level).all fun f =>
    (s.frameAt f).owner.toNat == c && (s.frameAt f).state == .owned && !(s.firmAt c).tables.contains f && !s.heldInPlace f &&
    (s.hw.tierMoves.all fun m => !(m.source ≤ f && f < m.source + m.frames)) &&
    (s.leavesTo f).all fun e => e.2.level == l.level && leafAddr e.2.leaf == leafAddr l.leaf

/-- A run of frames of a partition is free for a page of a tier and a class, and the share has room for all of it (R379, R386, R392). -/
def runFits (s : State) (p tier : Nat) (pclass : BitVec 2) (n dest : Nat) : Bool :=
  dest % n = 0 && ((List.range n).all fun i => s.mayTakeFrame p tier pclass (dest + i)) &&
    s.shareLeft p ((List.range n).map fun i => chargeOf (s.isFar (dest + i)) pclass).sum

/-- Frames from `dest` on may take a page of a leaf (R379, R386). -/
def roomAt (s : State) (p : Nat) (l : LeafAt) (dest : Nat) : Bool :=
  s.runFits p (leafTier l.leaf).toNat (leafPclass l.leaf) (2 ^ (pageBits l.level - 16)) dest

/-- The leaf of a context that begins at a page. -/
def leafAtPage (s : State) (c page : Nat) : Option LeafAt := (s.leavesOf c).find? fun l => l.va == 65536 * page

/-- A move may begin. -/
def mayMovePage (s : State) (c page dest : Nat) : Bool :=
  match s.leafAtPage c page with
  | some l => s.movable c l && s.roomAt (s.contextAt c).partition l dest
  | none => false

/-- No window holds a frame of a move in place (R233). -/
def moveHeld (s : State) (m : TierMove) : Bool := (List.range m.frames).any fun i => s.heldInPlace (m.source + i)

/-- A move begins: its destination is taken (R261), where the security cores agree (R27); `host` says that the host names it (R403). -/
def startMove (s : State) (c page dest : Nat) (host : Bool) : State :=
  match s.leafAtPage c page with
  | some l =>
      let a := leafAddr l.leaf
      let n := 2 ^ (pageBits l.level - 16)
      s.decided fun s =>
        let s := (List.range n).foldl (fun s i => s.setFrameAt (dest + i) (s.frameAt (a + i))) s
        let m : TierMove := { id := s.freshId, context := c, vpage := page, source := a, dest, frames := n, host }
        (s.bumpId.setHw { s.hw with tierMoves := s.hw.tierMoves ++ [m] }).askWhenLow
  | none => s

/-- No access is under way to the frames of a range. -/
def rangeIdle (s : State) (f n : Nat) : Bool := (List.range n).all fun i => !s.frameBusy (f + i)

/-- The records let the migration engine read the source and write the destination for the context (R385). -/
def moveUsable (s : State) (m : TierMove) : Bool :=
  (List.range m.frames).all fun i => s.frameUsable m.context (m.source + i) && s.frameUsable m.context (m.dest + i)

/-- Frames that no move takes any more are given back, as far as the context still has them. -/
def dropMove (s : State) (m : TierMove) : State :=
  (s.setHw { s.hw with tierMoves := s.hw.tierMoves.filter (·.id != m.id) }).freeFrames
    (((List.range m.frames).map (m.dest + ·)).filter fun f => s.frameUsable m.context f)

/-- The ring toward the host that takes reports of a move, if its space has registered one (R403, R426). -/
def reportRing (s : State) (m : TierMove) : Option (Nat × Ring) :=
  (s.spaceAt (s.contextAt m.context).space).rings.find? fun e => !e.2.fromHost && e.2.purpose == 3

/-- A move can be reported now: the host did not name it, or its ring has room (R403). -/
def mayReport (s : State) (m : TierMove) : Bool :=
  !m.host || (s.reportRing m).all fun e => s.ringHasRoom (s.contextAt m.context).space e.2

/-- The completion record of a move that the host names; the spec does not give its layout (R403; entry 92). -/
def reportMove (s : State) (m : TierMove) : State :=
  match if m.host then s.reportRing m else none with
  | some e => s.ringPut (s.contextAt m.context).space e.1 e.2 (freeBytes s.tick (2 ^ 45 + 64) 60)
  | none => s

/-- A move commits: the destination holds what the source held at this instant and serves the page (R261). One that the records no
longer allow is dropped (R385), and one whose frames a window has come to hold in place (R233). -/
def commitMove (s : State) (m : TierMove) : State :=
  if s.moveUsable m && !s.moveHeld m then
    let s := (List.range m.frames).foldl (fun s i => s.switchFrame (m.source + i) (m.dest + i)) s
    let s := s.redirect m.source m.dest
    let s := s.setHw { s.hw with tierMoves := s.hw.tierMoves.filter (·.id != m.id) }
    (s.freeFrames ((List.range m.frames).map (m.source + ·))).reportMove m
  else s.dropMove m

/-! ## Moves of tenant pages (R414, R418, R428) -/

/-- Lines of a frame that fail, by their place in it. -/
def badLinesOf (s : State) (f : Nat) : List Nat := (s.hw.poisoned.filter fun l => l / 1024 == f).map (· % 1024)

/-- A space whose compression hosts decide: a context bound to it runs in a partition in host-assisted mode (R29, R403; entry 93). -/
def hintedSpace (s : State) (space : Nat) : Bool :=
  s.contexts.any fun e => e.2.space == space && s.assisted e.2.partition 2

/-- MIG set for a page, and its move noted (R418). -/
def noteMove (s : State) (space n : Nat) (compress : Bool) (dest : Nat) : State :=
  let x := s.spaceAt space
  s.setSpaceAt space { x.setPage n { x.page n with moving := true } with
    moves := x.moves ++ [{ page := n, compress, dest, remark := [] }] }

/-- The map entries that a move of a page concerns: those of every space that holds the frame, for a pool page (R428). -/
def sharers (s : State) (space n : Nat) : List (Nat × Nat) :=
  let p := (s.spaceAt space).page n
  if p.shared then s.tenantsOf p.loc else [(space, n)]

/-- A frame of the pool may go elsewhere: no window holds it in place (R233), contexts map it by leaves of its own size, and the share of
its partition has room for both frames (R386, R428). -/
def poolMovable (s : State) (f : Nat) : Bool :=
  let r := s.frameAt f
  !s.heldInPlace f && ((s.leavesTo f).all fun e => e.2.level == 0) && s.shareLeft r.part.toNat (chargeOf true r.pclass)

/-- A move of a tenant page begins (R418): to another frame or place, to compressed form, or from it. A pool page is not compressed,
since contexts map its frame; without a free frame, or where the security cores disagree on it (R27), no move to a frame begins. -/
def startTenantMove (s : State) (space n : Nat) (compress : Bool) (choice : Nat) : State :=
  let x := s.spaceAt space
  let p := x.page n
  if (x.moveOf n).isSome || !x.holds (65536 * n) then s
  else
    match p.form with
    | .plain =>
        if compress then (if p.shared then s else s.noteMove space n true 0)
        else if p.shared && !s.poolMovable p.loc then s
        else match s.takeFar choice with
          | (some f, t) =>
              let t := (t.setFrameAt f (s.frameAt p.loc)).copyFrame p.loc f
              ((s.sharers space n).foldl (fun t e => t.noteMove e.1 e.2 false f) t).askWhenLow
          | (none, t) => t
    | .compressed =>
        if compress then s.noteMove space n true 0
        else match s.takeFar choice with
          | (some f, t) => (t.setSpaceAt space (moveInto (t.spaceAt space) n f)).askWhenLow
          | (none, t) => t
    | _ => s

/-- A move is over: the page is in its new form. -/
def settlePage (s : State) (space n : Nat) (p : TenantPage) : State :=
  let x := s.spaceAt space
  let x := { x.setPage n { p with moving := false } with moves := x.moves.filter (·.page != n) }
  s.setSpaceAt space x

/-- The lines of a compressed page in the frame that its move fills: blocks that fail to decode are poisoned, but for written
lines (R414, R415). -/
def unpack (s : State) (space n f : Nat) : State :=
  let x := s.spaceAt space
  let p := x.page n
  let lines := x.buffer.filter fun e => e.1 / 1024 == n
  let m := p.packed.foldl (fun m c => m.setByte (65536 * f + c.1) c.2) (s.mem.clear (65536 * f) 65536)
  let m := lines.foldl (fun m e => m.setBytes (65536 * f + 64 * (e.1 % 1024)) e.2) m
  let bad := distinct (p.badLines ++ (p.bad.map fun b => (List.range 64).map fun k => 64 * b + k).flatten) |>.filter fun k =>
    !lines.any fun e => e.1 % 1024 == k
  let s := (s.setMem m).setHw { s.hw with poisoned := s.hw.poisoned ++ bad.map fun k => 1024 * f + k }
  s.setSpaceAt space { x with buffer := x.buffer.filter fun e => e.1 / 1024 ≠ n }

/-- Sectors that a compressed page may take: distinct, of no other page, each in a far-tier frame that is free or holds sectors (R411). -/
def sectorsFine (s : State) (space n : Nat) (sectors : List Nat) : Bool :=
  distinct sectors == sectors && sectors.all fun x =>
    s.isFar (x / 16) && (s.isFree (x / 16) || (s.sectorFrames.contains (x / 16) && !s.lostFrame (x / 16))) &&
    s.hw.spaces.all fun e => e.2.pages.all fun p => (e.1 == space && p.1 == n) || !p.2.sectors.contains x

/-- Free frames in which sectors are to lie, recorded for tenant spaces. -/
def takeSectors (s : State) (sectors : List Nat) : State :=
  (distinct (sectors.map (· / 16))).foldl (fun s f => if s.isFree f then s.takeHostFrame f else s) s

/-- A page in its compressed form: its sectors are `sectors`, its list stands at `loc`. Frames in which none lies any more are free; where
the security cores disagree on new ones the page stays as it is (R27). -/
def pack (s : State) (space n : Nat) (q : TenantPage) (sectors : List Nat) : State :=
  let p := (s.spaceAt space).page n
  let go := fun (s : State) => ((s.takeSectors sectors).settlePage space n { q with sectors }).freeSectors p.sectors
  if sectors.any fun x => s.isFree (x / 16) then if s.agreed then go s.voted else (s.voted.disagree).settlePage space n p
  else go s

/-- A move of a tenant page commits (R418), of a pool page in every map at once (R428): `loc` and `sectors` are the sector list of a page
that is now compressed; one that would need 16 sectors stays plain (R411). -/
def commitTenantMove (s : State) (space n loc : Nat) (sectors : List Nat) (m : TenantMove) : State :=
  let p := (s.spaceAt space).page n
  match p.form with
  | .plain =>
      if m.compress then
        if sectors.length = 16 then s.settlePage space n p
        else
          let q := { p with
            form := .compressed, loc, packed := s.mem.slice (65536 * p.loc) 65536 0, bad := [], badLines := s.badLinesOf p.loc }
          let t := s.pack space n q sectors
          if ((t.spaceAt space).page n).form = .compressed then (t.freeFrames [p.loc]).askWhenLow else t
      else
        let s' := (s.switchFrame p.loc m.dest).redirect p.loc m.dest
        let s' := (s.sharers space n).foldl (fun t e => t.settlePage e.1 e.2 { (s.spaceAt e.1).page e.2 with loc := m.dest }) s'
        s'.freeFrames [p.loc]
  | .compressed =>
      if m.compress then if sectors.length = 16 then s.settlePage space n p else (s.pack space n { p with loc } sectors).askWhenLow
      else
        ((s.unpack space n m.dest).settlePage space n
          { p with form := .plain, loc := m.dest, sectors := [], packed := [], bad := [], badLines := [] }).freeSectors p.sectors
  | _ => s

/-! ## Frames that fail (R438) -/

/-- Frame errors within the last 24 hours (R438). -/
def recentErrors (s : State) (f : Nat) : Nat :=
  ((s.hw.frameErrors.get f []).filter fun t => s.now ≤ t + 86400 * 2500000000).length

end State

/-- What must move together with a failing frame: frames that a leaf or a table takes, the tier they may lie in, and for a table its
context and the entry that points to it, if it is no root (R378, R379, R438). -/
structure FrameRun where
  first : Nat
  count : Nat
  tier : Nat
  table : Option (Nat × Option Nat)
deriving DecidableEq, Repr

/-- The tables below a table: where the entry of each stands, its first frame and the frames it takes (R379). -/
def tablesFrom (m : Memory) : Nat → Nat → List (Nat × Nat × Nat)
  | 0, _ => []
  | level + 1, table =>
      ((entriesListed m table level).map fun i =>
        let pa := table + 8 * i
        let e : DWord := BitVec.ofNat 64 (m.read pa 8)
        if !leafV e || leafLeaf e then []
        else (pa, leafAddr e, State.tableFrames (level - 1)) :: tablesFrom m level (256 * leafAddr e)).flatten

namespace State

/-- The table of a context that a frame holds a part of. -/
def tableRun (s : State) (f : Nat) : Option FrameRun :=
  s.contexts.findSome? fun e =>
    let root := e.2.tbase / 65536
    if !(s.firmAt e.1).tables.contains f then none
    else if root ≤ f && f < root + tableFrames 3 then
      some { first := root, count := tableFrames 3, tier := 0, table := some (e.1, none) }
    else
      ((tablesFrom s.mem 4 e.2.tbase).find? fun t => t.2.1 ≤ f && f < t.2.1 + t.2.2).map fun t =>
        { first := t.2.1, count := t.2.2, tier := 0, table := some (e.1, some t.1) }

/-- What a failing frame takes with it. -/
def runOf (s : State) (f : Nat) : FrameRun :=
  match s.tableRun f, (s.leavesTo f).head? with
  | some t, _ => t
  | none, some e =>
      { first := leafAddr e.2.leaf, count := 2 ^ (pageBits e.2.level - 16), tier := (leafTier e.2.leaf).toNat, table := none }
  | none, none => { first := f, count := 1, tier := 0, table := none }

/-- A frame is in no move, in no window's place, and no access to it is under way (R233, R261). -/
def settled (s : State) (f : Nat) : Bool :=
  !s.frameBusy f && !s.heldInPlace f &&
  (s.hw.tierMoves.all fun m => !(m.source ≤ f && f < m.source + m.frames) && !(m.dest ≤ f && f < m.dest + m.frames)) &&
  s.hw.spaces.all fun e => e.2.moves.all fun m => m.dest ≠ f && (e.2.page m.page).loc ≠ f

/-- A frame with too many errors may be left for another, with what must move with it: not a lattice frame (R268, R438; entry 26). -/
def mayLeave (s : State) (f dest : Nat) : Bool :=
  let r := s.frameAt f
  let run := s.runOf f
  3 ≤ s.recentErrors f && !r.lat &&
  (r.state == .free || (r.state == .owned && ((List.range run.count).all fun i =>
      s.settled (run.first + i) && !s.lostFrame (run.first + i) && (s.frameAt (run.first + i)).owner == r.owner &&
      (s.leavesTo (run.first + i)).all fun e => leafAddr e.2.leaf == run.first && 2 ^ (pageBits e.2.level - 16) == run.count) &&
    if r.owner = 0xFFFE || r.owner = 0xFFFF then
      dest % run.count = 0 && ((List.range run.count).all fun i => s.isFar (dest + i) && s.isFree (dest + i)) &&
        (r.owner = 0xFFFF || s.shareLeft r.part.toNat (run.count * chargeOf true r.pclass))
    else s.runFits r.part.toNat run.tier r.pclass run.count dest))

/-- What points to a table points to its new place; no TLB holds an entry that came through it (R362, R378). -/
def relinkTable (s : State) (run : FrameRun) (dest : Nat) : State :=
  match run.table with
  | none => s
  | some (c, none) => (s.setContextAt c { s.contextAt c with tbase := 65536 * dest }).dropEntries c none
  | some (c, some pa) =>
      (s.setMem (s.mem.write pa 8 (movedLeaf (BitVec.ofNat 64 (s.mem.read pa 8)) dest).toNat)).dropEntries c none

/-- A frame is left for a fresh one, with what must move with it, and quarantined (R438), where the security cores agree (R27). -/
def leaveFrame (s : State) (f dest : Nat) : State :=
  s.decided fun s =>
  if (s.frameAt f).state = .free then s.quarantine f
  else
    let run := s.runOf f
    let frames := (List.range run.count).map (run.first + ·)
    let s := frames.foldl (fun s g => s.switchFrame g (dest + (g - run.first))) s
    (((s.redirect run.first dest).relinkTable run dest).freeFrames (frames.filter (· ≠ f))).quarantine f

end State

open State

/-- TIER_MIGRATION_START: the migration engines' policy moves a page of a context (R29, R261). -/
def execTierMigrationStart (context page dest : Nat) (s : State) : Result :=
  s.event (!s.assisted (s.contextAt context).partition 1 && s.mayMovePage context page dest) fun s => s.startMove context page dest false

/-- MIGRATION_SWITCH_COMMIT (R261). -/
def execMigrationSwitchCommit (id : Nat) (s : State) : Result :=
  match s.hw.tierMoves.find? (·.id == id) with
  | some m => s.event (s.rangeIdle m.source m.frames && s.mayReport m) fun s => s.commitMove m
  | none => s.event false fun s => s

/-- HOST_CALL_MOVE: a move that the host names, in host-assisted mode (R403, R426). -/
def execHostCallMove (core space ring micros context page dest : Nat) (s : State) : Result :=
  s.hostCall core space ring micros true fun s =>
    if s.boundTo space context && s.assisted (s.contextAt context).partition 1 && s.mayMovePage context page dest then
      s.startMove context page dest true
    else s

/-- HOST_CALL_COMPRESSION_HINT: the page that a host names is compressed, where hosts decide (R29, R403, R414, R426). -/
def execHostCallCompressionHint (core space ring micros page : Nat) (s : State) : Result :=
  s.hostCall core space ring micros true fun s => if s.hintedSpace space then s.startTenantMove space page true 0 else s

/-- The policy decides whether a page changes its form, to compressed or from it; not where hosts do (R29, R414). -/
def changesForm (s : State) (space page : Nat) (compress : Bool) : Bool :=
  (((s.spaceAt space).page page).form == .plain && compress) || (((s.spaceAt space).page page).form == .compressed && !compress)

/-- TENANT_PAGE_MOVE_START: the policy compresses and decompresses no page where hosts decide (R29, R414, R418, R428). -/
def execTenantPageMoveStart (space page : Nat) (compress : Bool) (choice : Nat) (s : State) : Result :=
  s.event (space < 8 && !(changesForm s space page compress && s.hintedSpace space)) fun s =>
    s.startTenantMove space page compress choice

/-- A page that moves to another frame may do so now: a pool frame as `poolMovable` says, whose share holds both frames already. -/
def mayCommit (s : State) (p : TenantPage) (m : TenantMove) : Bool :=
  m.compress || !p.shared || (!s.heldInPlace p.loc && (s.leavesTo p.loc).all fun e => e.2.level == 0)

/-- TENANT_PAGE_MOVE_COMMIT: a sector list lies in the far tier, and a page needs 1 to 16 sectors (R411, R418, R428). -/
def execTenantPageMoveCommit (space page loc : Nat) (sectors : List Nat) (s : State) : Result :=
  match (s.spaceAt space).moveOf page with
  | some m =>
      let p := (s.spaceAt space).page page
      s.event (loc < 1024 * farFrames && 1 ≤ sectors.length && sectors.length ≤ 16 && (sectors.length = 16 || !m.compress ||
          s.sectorsFine space page sectors) && mayCommit s p m && (p.form = .compressed || !s.frameBusy p.loc)) fun s =>
        s.commitTenantMove space page loc sectors m
  | none => s.event false fun s => s

/-- FRAME_ERROR_THRESHOLD (R438). -/
def execFrameErrorThreshold (frame dest : Nat) (s : State) : Result :=
  s.event (s.mayLeave frame dest) fun s => s.leaveFrame frame dest

end Sys2Proof.Machine
end

