-- ==== Sys2Proof/Machine/Hosts.lean ====
section
/-!
DEFINITION. What hosts and operators do to tenant spaces: reads and writes (R408, R409, R415 to R420, R427), extents (R412), links
(R408), failed packages (R430).
-/

namespace Sys2Proof.Machine

/-- Bytes of an extent (R412). -/
def extentBytes : Nat := 0x10000000

namespace State

/-- A host reaches its space: the module and the link are up (R408, R409). -/
def hostUp (s : State) (space : Nat) : Bool := space < 8 && s.hw.power.moduleUp && (s.spaceAt space).linkUp

/-! ## Extents (R412) -/

/-- An extent may be offered: aligned, among the tenant pages, apart from every other. -/
def mayOffer (s : State) (space base : Nat) : Bool :=
  let x := s.spaceAt space
  base % extentBytes = 0 && base + extentBytes ≤ tenantPages &&
    (x.extents ++ x.offers).all fun e => !overlaps e.1 e.2 base extentBytes

/-- Frames of an extent. -/
def extentPages : Nat := 4096

/-- Frames from `f` on belong to the shared pool (R383, R428). -/
def poolRun (s : State) (f : Nat) : Bool :=
  (List.range extentPages).all fun i => (s.frameAt (f + i)).owner == 0xFFFE && (s.frameAt (f + i)).state == .owned && s.isFar (f + i)

/-- An extent is offered: of tenant memory, or of the pool frames from `pool` on (R412, R428). -/
def offer (s : State) (space base : Nat) (pool : Option Nat) : State :=
  let x := s.spaceAt space
  let pools := match pool with
    | some f => x.pools.set base f
    | none => x.pools
  s.setSpaceAt space { x with offers := x.offers ++ [(base, extentBytes)], pools }

/-- The pages of an extent of the shared pool: plain, each on its pool frame (R428). -/
def poolPages (x : Space) (base : Nat) : List (Nat × TenantPage) :=
  match x.pools.at? base with
  | some f => (List.range extentPages).map fun i =>
      (base / 65536 + i, { TenantPage.absent with form := .plain, shared := true, loc := f + i })
  | none => []

/-- An offered extent is accepted: its pages are present, and none holds a frame but a pool frame. -/
def accept (s : State) (space base : Nat) : State :=
  let x := s.spaceAt space
  let x := { x with offers := x.offers.filter (·.1 ≠ base), extents := x.extents ++ [(base, extentBytes)] }
  let x := (poolPages x base).foldl (fun (x : Space) e => x.setPage e.1 e.2) x
  (s.setSpaceAt space x).tellHost space 0x05 0 base extentBytes

/-- Frames that the pages of a range hold: their own, and those that a move fills; a pool frame stays (R412, R428). -/
def extentFrames (x : Space) (base len : Nat) : List Nat :=
  let inside := fun (n : Nat) => base ≤ 65536 * n && 65536 * n < base + len
  ((x.pages.filter fun e => inside e.1 && e.2.form == .plain && !e.2.shared).map fun e => e.2.loc) ++
    (x.moves.filter fun m => inside m.page && !m.compress && !(x.page m.page).shared).map TenantMove.dest

/-- Sectors of the compressed pages of a range. -/
def extentSectors (x : Space) (base len : Nat) : List Nat :=
  ((x.pages.filter fun e => base ≤ 65536 * e.1 && 65536 * e.1 < base + len).map fun e => e.2.sectors).flatten

/-- A released extent: its pages are zero, its frames zero-filled and free (R391, R412). -/
def takeBack (s : State) (space base : Nat) : State :=
  let x := s.spaceAt space
  let inside := fun (n : Nat) => base ≤ 65536 * n && 65536 * n < base + extentBytes
  let old := extentSectors x base extentBytes
  let s := s.freeFrames (extentFrames x base extentBytes)
  let x := { x with
    extents := x.extents.filter (·.1 ≠ base), asked := x.asked.filter (·.1 ≠ base), pools := x.pools.erase base
    pages := x.pages.filter fun e => !inside e.1
    moves := x.moves.filter fun m => !inside m.page
    buffer := x.buffer.filter fun e => !inside (e.1 / 1024) }
  ((s.setSpaceAt space x).freeSectors old).tellHost space 0x06 0 base extentBytes

/-! ## Links and packages (R408, R430) -/

/-- The link of a port taken down or up: the spaces bound to it stay. -/
def setLink (s : State) (port : Nat) (up : Bool) : State :=
  s.setHw { s.hw with spaces := s.hw.spaces.mapVal fun _ x => if x.port = port then { x with linkUp := up } else x }

/-- A log entry of a package (R441). -/
def packageLog (s : State) (type package : Nat) : State :=
  s.logError { type, die := 4 + package / 18, unit := package, context := 0, addr := 0, time := s.micros, count := 0 }

/-- A tenant page lost with its parity group (R415, R430). -/
def losePage (s : State) (space n : Nat) : State :=
  let x := s.spaceAt space
  let old := (x.page n).sectors
  let x := { x.setPage n { x.page n with
      form := .poisoned, lost := true, moving := false, sectors := [], packed := [], bad := [], badLines := [] } with
    moves := x.moves.filter (·.page != n) }
  ((s.setSpaceAt space x).freeSectors old).tellHost space 0x03 0 (65536 * n) 65536

/-- A move of a page is dropped, and the page stays where it is. -/
def dropTenantMove (x : Space) (m : TenantMove) : Space :=
  { x.setPage m.page { x.page m.page with moving := false } with moves := x.moves.filter (·.page != m.page) }

/-- Moves of tenant pages into a frame that is lost are dropped. -/
def dropMovesInto (s : State) (f : Nat) : State :=
  let drop := fun (x : Space) => (x.moves.filter fun m => !m.compress && m.dest == f).foldl dropTenantMove x
  s.setHw { s.hw with spaces := s.hw.spaces.mapVal fun _ x => drop x }

/-- A frame lost with its parity group: tenant pages in it are poisoned, a context that owns it ends (R430); a table of firmware is
read from its mirror (R24, R439). -/
def loseFrame (s : State) (f : Nat) : State :=
  let r := s.frameAt f
  let s := ((s.tenantsOf f).foldl (fun s e => s.losePage e.1 e.2) s).dropMovesInto f
  if (s.contexts.at? r.owner.toNat).isSome then s.memoryKill r.owner.toNat (65536 * f)
  else if r.host || r.owner = 0xFFFE then s.decided (·.quarantine f)
  else s

/-- Frames in use that a parity group holds. -/
def framesIn (s : State) (group : Nat) : List Nat :=
  (s.hw.frames.filter fun e => e.2.state != .free && s.groupOf e.1 == some group).map Prod.fst

/-- Compressed pages of which a parity group holds a sector, or the sector list: LOC counts 64 bytes from the first far-tier frame
(R411). -/
def packedIn (s : State) (group : Nat) : List (Nat × Nat) :=
  (s.hw.spaces.map fun e =>
    (e.2.pages.filter fun p => p.2.form == .compressed &&
      ((0xC00000 + p.2.loc / 1024) :: p.2.sectors.map (· / 16)).any fun f => s.groupOf f == some group).map fun p =>
      (e.1, p.1)).flatten

/-- A package fails: its group is rebuilt, unless another of the group has failed, with which everything in the group is lost (R430). -/
def failPackage (s : State) (package : Nat) : State :=
  let group := package / 9
  let failed := s.hw.packages.get group []
  let s := s.packageLog 3 package
  let s := s.setHw { s.hw with packages := s.hw.packages.set group (failed ++ [package]) }
  if failed.isEmpty then s
  else (s.packedIn group).foldl (fun s e => s.losePage e.1 e.2) ((s.framesIn group).foldl loseFrame s)

end State

open State

/-- HOST_READ: a line of a tenant space (R409, R415 to R417). -/
def execHostRead (space addr : Nat) (s : State) : Result :=
  s.event (s.hostUp space) fun s => s.hostRead space (addr / 64 * 64)

/-- HOST_WRITE: bytes within one line; `choice` is the frame that the device prefers where the page needs one (R409, R413, R414,
R416, R418, R419). -/
def execHostWrite (space addr : Nat) (bytes : List Byte) (choice : Nat) (s : State) : Result :=
  s.event (s.hostUp space && addr % 64 + bytes.length ≤ 64) fun s => s.hostWrite space addr bytes choice

/-- EVACK_WRITE (R427). -/
def execEvackWrite (space : Nat) (value : Word) (s : State) : Result :=
  s.event (s.hostUp space) fun s => s.hostWrite space (tenantPages + 0x11000) (toBytes 4 value.toNat) 0

/-- EXTENT_ADD: of tenant memory, or of pool frames (R412, R428; entry 74). -/
def execExtentAdd (space : Nat) (offer : Offer) (s : State) : Result :=
  s.event (space < 8 && s.mayOffer space offer.base && offer.pool.all s.poolRun) fun s => s.offer space offer.base offer.pool

/-- EXTENT_ACCEPT: the pool frames of an offer are the pool's still (R412, R427, R428). -/
def execExtentAccept (space base : Nat) (s : State) : Result :=
  s.event (s.hostUp space && (s.spaceAt space).offers.any (·.1 == base) &&
    ((s.spaceAt space).pools.at? base).all s.poolRun) fun s => s.accept space base

/-- EXTENT_RELEASE: of an extent that is not the boot extent (R412, R427). -/
def execExtentRelease (space base : Nat) (s : State) : Result :=
  s.event (s.hostUp space && base ≠ 0 && (s.spaceAt space).extents.any (·.1 == base)) fun s => s.takeBack space base

/-- LINK_DOWN (R408). -/
def execLinkDown (port : Nat) (s : State) : Result := s.event true fun s => s.setLink port false

/-- LINK_RETRAIN (R408). -/
def execLinkRetrain (port : Nat) (s : State) : Result := s.event true fun s => s.setLink port true

/-- The number of a package: 18 to a far-tier die, nine to a parity group (R19, R430; entry 79). -/
def packageNumber (die half package : Nat) : Nat := 18 * die + 9 * half + package

/-- PACKAGE_FAILURE (R430). -/
def execPackageFailure (die half package : Nat) (s : State) : Result :=
  let n := packageNumber die half package
  s.event (die < 2 && half < 2 && package < 9 && !(s.hw.packages.get (n / 9) []).contains n) fun s => s.failPackage n

/-- PARITY_REBUILD_DONE (R430). -/
def execParityRebuildDone (package : Nat) (s : State) : Result :=
  let group := package / 9
  let failed := s.hw.packages.get group []
  s.event (failed == [package]) fun s =>
    (s.setHw { s.hw with packages := s.hw.packages.erase group }).packageLog 4 package

end Sys2Proof.Machine
end

