-- ==== Sys2Proof/Machine/Commands.lean ====
section
/-!
DEFINITION. The command window: acceptance and order (R421 to R424), launches, copies, map proposals, waits and publications that
hosts command (R425, R431, R436).
-/

namespace Sys2Proof.Machine

/-- Context control with an assigned subcode (R425). -/
def Command.knownSub (c : Command) : Bool := 1 ≤ c.sub && c.sub ≤ 0x0C

/-- A front-end resume (R425). -/
def Command.resumes (c : Command) : Bool := c.kind == 6 && c.sub == 0x0C

/-- A command that a compute reset fails: launches, map proposals and context control (R431, R435). -/
def Command.failsInReset (c : Command) : Bool := c.kind == 1 || c.kind == 3 || c.kind == 6

/-- A command that needs the compute domain, and is held until it is up: of those but a front-end resume (R436). -/
def Command.needsCompute (c : Command) : Bool := c.failsInReset && !c.resumes

/-- A command whose CTX names a context (R421, R425). -/
def Command.namesContext (c : Command) : Bool :=
  c.kind == 1 || c.kind == 2 || c.kind == 3 || (c.kind == 4 && c.sub == 1) ||
    (c.kind == 6 && c.sub ≠ 0x01 && c.sub ≠ 0x08 && c.sub ≠ 0x0C && !(c.sub == 0x0B && c.a0 == 3))

namespace State

/-! ## Acceptance (R421, R422, R424) -/

/-- The bytes of the slot of a sequence. -/
def slotOf (s : State) (space : Nat) (seq : Word) : List Byte :=
  s.mem.bytes (commandBase space + 256 * (seq.toNat % 4096)) 256

/-- All four stamps of a slot equal a sequence (R421, R422). -/
def stamped (l : List Byte) (seq : Word) : Bool :=
  (List.range 4).all fun k => ofBytes ((l.drop (64 * k + 60)).take 4) == seq.toNat

/-- The command in the slot that the front-end examines. -/
def offered (s : State) (space : Nat) : Command :=
  let seq := (s.spaceAt space).next
  { seq, slot := s.slotOf space seq, phase := .accepted, status := 0xFF, result := 0, startedAt := s.now, copied := []
    inReset := s.hw.power.resetting }

/-- The front-end accepts the slot now; one that has halted takes a front-end resume only (R422, R423; entry 27). -/
def mayAccept (s : State) (space : Nat) : Bool :=
  let x := s.spaceAt space
  let c := s.offered space
  space < 8 && stamped c.slot x.next && (!x.halt || c.resumes)

/-- A malformed slot: the command completes with 0x20, and the front-end halts (R425). -/
def haltFrontEnd (s : State) (space : Nat) (seq : Word) : State :=
  let s := s.finishCommand space seq 0x20 0
  let s := (s.setSpaceAt space { s.spaceAt space with halt := true }).showStatus space
  s.tellHost space 0x09 0 seq.toNat 0

/-- A slot is copied, its completion record pends, NEXT advances (R422, R424); what can never start completes at once (R422,
R425). -/
def acceptSlot (s : State) (space : Nat) : State :=
  let x := s.spaceAt space
  let c := s.offered space
  let s := s.setSpaceAt space { x with next := x.next + 1, commands := (x.commands.filter (·.seq != c.seq)) ++ [c] }
  let s := s.windowPut space (recordOff c.seq)
    (toBytes 4 c.seq.toNat ++ toBytes 1 0xFF ++ toBytes 1 c.kind ++ toBytes 2 0 ++ toBytes 8 (c.field 8 8))
  let s := s.showStatus space
  let back := (c.seq - c.after).toNat
  if c.kind = 0 || 6 < c.kind then s.haltFrontEnd space c.seq
  else if c.av && (back = 0 || 4095 < back) then s.finishCommand space c.seq 0x25 0
  else if c.kind = 6 && !c.knownSub then s.finishCommand space c.seq 0x20 0
  else s

/-! ## Order (R422) -/

/-- The command that would start next. -/
def heldCommand (s : State) (space : Nat) : Option Command :=
  (s.spaceAt space).commands.find? fun c => c.phase == .accepted || c.phase == .released

/-- The command that starts next, once its AFTER is complete. -/
def startable (s : State) (space : Nat) : Option Command :=
  (s.heldCommand space).filter fun c => c.phase == .released || !c.av

/-- A command has started. -/
def started (s : State) (space : Nat) (c : Command) : State :=
  s.setCommand space { c with phase := .started, startedAt := s.now }

/-- A command names a context of its space that is still to be resumed (R435, R436). -/
def namesResumed (s : State) (space : Nat) (c : Command) : Bool :=
  c.namesContext && s.hw.toResume.any fun e => e.1 == c.context && e.2.1.context.space == space

/-- The next command of a space starts, if it is one that `mine` takes: one for the compute domain that was accepted during a reset
completes with 0x23 (R431), one accepted before waits until the domain is up, as does one for a context that is still to be resumed (R435,
R436); one for a context not bound to the space is not permitted (R425). -/
def startCommand (s : State) (space : Nat) (mine ready : Command → Bool) (effect : State → Command → State) : Result :=
  match (s.startable space).filter mine with
  | none => s.event false fun s => s
  | some c =>
      if c.failsInReset && c.inReset then s.event true fun s => s.finishCommand space c.seq 0x23 0
      else if (c.needsCompute && !s.hw.power.computeUp) || s.namesResumed space c then s.event false fun s => s
      else if c.namesContext && !s.boundTo space c.context then s.event true fun s => s.finishCommand space c.seq 0x21 0
      else s.event (ready c) fun s => effect (s.started space c) c

/-- Context control with a subcode. -/
def control (s : State) (space sub : Nat) (ready : Command → Bool) (effect : State → Command → State) : Result :=
  s.startCommand space (fun c => c.kind == 6 && c.sub == sub) ready effect

/-! ## Launch and map proposal (R390, R425) -/

/-- A launch command (R119, R123, R425). -/
def commandLaunch (s : State) (space : Nat) (c : Command) : State :=
  let p := (s.contextAt c.context).partition
  if 16 ≤ c.sub || c.a0 % 128 ≠ 0 then s.finishCommand space c.seq 0x21 0
  else if 64 ≤ (s.queues.get (queueKey p c.sub) []).length then s.finishCommand space c.seq 0x24 0
  else s.postLaunch c.context p c.sub c.a0 (some (space, c.seq.toNat))

/-- A map proposal that the space may make (R390). -/
def mayPropose (s : State) (c : Command) : Bool :=
  let x := s.contextAt c.context
  c.sub ≤ 2 && c.a0 < 2 ^ 60 && (!x.prot || s.checkedOf c.context)

/-- A map proposal (R390, R391); where the security cores disagree it is refused and logged (R27; entry 95). -/
def propose (s : State) (space : Nat) (c : Command) (agree : Bool) : State :=
  if !agree then s.disagree.finishCommand space c.seq 0x21 0
  else if s.mayPropose c then
    let r := s.mapPage c.context c.a0 c.sub (BitVec.ofNat 64 c.a1)
    r.1.finishCommand space c.seq (0x10 + r.2) 0
  else s.finishCommand space c.seq 0x21 0

/-! ## Accesses of commands to a context (R218, R269, R399) -/

/-- How a command's access comes out: done at a place, not permitted, waiting for a page, or fatal to the context. -/
inductive Reached where
  | place (p : Place)
  | denied
  | absent
  | fatal (h : Hazard)

/-- The place of 8 or 64 bytes of a context for a command; hosts never reach a lattice page (R269). -/
def commandPlace (s : State) (context va n : Nat) (k : AccessKind) : Reached :=
  let core := s.launchCore context
  match s.checkPage core context [] va k with
  | .absent => .absent
  | .fails _ => .denied
  | .page e level =>
      if leafLat e then .denied
      else
        let p := s.placeFor core e level va
        match s.hazardOf context (k == .read) { lane := 0, place := p, va, n, data := 0, dead := false } with
        | some h => .fatal h
        | none => .place p

/-- A page that a command misses is asked for, as a launch-level request is (R123, R399). -/
def commandFault (s : State) (space : Nat) (c : Command) (va : Nat) (kind : BitVec 5) : State :=
  let x := s.contextAt c.context
  let die := dieOf (s.partitionCore x.partition)
  s.postFault die (faultEntry (va / 65536) kind x.partition c.context (vdieOf x die) 0xFF 0xFF (.command space c.seq))

/-! ## Host copies (R425) -/

/-- A host copy's payload keeps the rules. -/
def copyFine (c : Command) : Bool :=
  c.sub ≤ 1 && c.a0 % 64 = 0 && c.a1 % 64 = 0 && c.a2 % 64 = 0 && c.a0 + c.a2 ≤ tenantEnd && c.a1 + c.a2 ≤ 2 ^ 60

/-- A line of a host copy written to its place in the context; a poisoned line is written poisoned (R439). -/
def lineToContext (s : State) (context : Nat) (p : Place) (r : HostRead) : State :=
  match p, r with
  | .mem pa, .bytes l => s.memWrite context pa l
  | .mem pa, .poison _ => s.setHw { s.hw with poisoned := s.hw.poisoned ++ [pa / 64] }
  | .peer d g off, .bytes l =>
      (List.range 4).foldl (fun s k =>
        s.askPeer (.write d g (off + 16 * k) 16 (BitVec.ofNat 128 (ofBytes ((l.drop (16 * k)).take 16))))) s
  | _, _ => s

/-- A line of a host copy as the context holds it; a peer's bytes are not the module's to know. -/
def lineOfContext (s : State) (p : Place) (va : Nat) : List Byte :=
  match p with
  | .mem pa => s.mem.bytes pa 64
  | _ => freeBytes s.tick (2 ^ 46 + va) 64

/-- A line of a host copy; one written to the coherent window back-invalidates the hosts' copies (R420, R425). -/
def copyLine (s : State) (space : Nat) (seq : Word) (choice i : Nat) : State :=
  match s.commandAt space seq with
  | none => s
  | some c =>
      let va := c.a1 + 64 * i
      let kind : AccessKind := if c.sub = 0 then .write else .read
      if c.phase ≠ .started || c.a2 ≤ 64 * i || c.copied.contains i then s
      else if !s.boundTo space c.context then s.finishCommand space seq 0x21 0
      else
        match s.commandPlace c.context va 64 kind with
        | .denied => s.finishCommand space seq 0x21 0
        | .absent => s.commandFault space c va (if c.sub = 0 then 10 else 9)
        | .fatal h => s.hazardKill c.context h
        | .place p =>
            let s := s.setCommand space { c with copied := c.copied ++ [i] }
            if c.sub = 0 then s.lineToContext c.context p (s.tenantLine space (c.a0 + 64 * i))
            else
              let s := match p with
                | .peer d g off => s.askPeer (.read d g off 64 c.seq.toNat)
                | _ => s
              let s := match tenantPart (c.a0 + 64 * i) with
                | .window off => s.backInvalidate (windowBase space + off)
                | _ => s
              s.tenantWrite space (c.a0 + 64 * i) (s.lineOfContext p va) choice

/-! ## Waits (R425) -/

/-- A wait's payload keeps the rules. -/
def waitFine (c : Command) : Bool := c.sub ≤ 1 && c.a0 % 8 = 0 && (if c.sub = 0 then c.a0 < 0x40000 else c.a0 < 2 ^ 60)

/-- A wait begins: a page that it misses is asked for. -/
def beginWait (s : State) (space : Nat) (c : Command) : State :=
  if !waitFine c then s.finishCommand space c.seq 0x21 0
  else if c.sub = 0 then s
  else
    match s.commandPlace c.context c.a0 8 .read with
    | .denied => s.finishCommand space c.seq 0x21 0
    | .absent => s.commandFault space c c.a0 9
    | .fatal h => s.hazardKill c.context h
    | .place _ => s

/-- The word that a wait watches; `reply` is what a peer device answers. -/
def watched (s : State) (space : Nat) (c : Command) (reply : DWord) : Option Nat :=
  if c.sub = 0 then some (s.mem.read (windowBase space + c.a0) 8)
  else
    match s.commandPlace c.context c.a0 8 .read with
    | .place (.mem pa) => some (s.mem.read pa 8)
    | .place (.peer _ _ _) => some reply.toNat
    | _ => none

/-- The started command of a kind with a sequence. -/
def runningCommand (s : State) (space kind : Nat) (seq : Word) : Option Command :=
  (s.commandAt space seq).filter fun c => c.phase == .started && c.kind == kind

/-- An event of a started command. -/
def runCommand (s : State) (space kind : Nat) (seq : Word) (due : Command → Bool) (effect : State → Command → State) : Result :=
  match s.runningCommand space kind seq with
  | some c => s.event (due c) fun s => effect s c
  | none => s.event false fun s => s

/-! ## Publication (R245, R425, R431) -/

/-- Sequence and window offset of a publish request: LSEQ is 32 bits at byte 16. -/
def publishSeq (c : Command) : Word := BitVec.ofNat 32 (c.field 16 4)

/-- A window offset in the free area, of 8 bytes (R419). -/
def freeOff (off : Nat) : Bool := off % 8 = 0 && 0x11040 ≤ off && off + 8 ≤ 0x40000

/-- The version word rises by one (R245). -/
def advanceVersion (s : State) (space off : Nat) : State :=
  s.windowPut space off (toBytes 8 (s.mem.read (windowBase space + off) 8 + 1))

/-- A sequence that the front-end has still to accept (R422). -/
def toCome (s : State) (space : Nat) (seq : Word) : Bool := (seq - (s.spaceAt space).next).toNat < 2 ^ 31

/-- A publish request goes on: it completes with its launch, and with the launch's status where that failed; a launch still to be
accepted is waited for (R425, R431; entry 28). -/
def publish (s : State) (space : Nat) (c : Command) : State :=
  match s.commandAt space (publishSeq c) with
  | some l =>
      if l.kind ≠ 1 || !freeOff c.a0 then s.finishCommand space c.seq 0x21 0
      else if l.phase ≠ .done then s
      else if l.status = 0 then (s.advanceVersion space c.a0).finishCommand space c.seq 0x00 0
      else s.finishCommand space c.seq l.status 0
  | none => if s.toCome space (publishSeq c) then s else s.finishCommand space c.seq 0x21 0

end State

open State

/-- COMMAND_SLOT_ACCEPT (R421 to R425). -/
def execCommandSlotAccept (space : Nat) (s : State) : Result :=
  s.event (s.mayAccept space) fun s => s.acceptSlot space

/-- AFTER_RELEASE: the command that AFTER names is complete (R422). -/
def execAfterRelease (space : Nat) (s : State) : Result :=
  match s.heldCommand space with
  | some c =>
      s.event (c.phase == .accepted && c.av && match s.commandAt space c.after with
        | some a => a.phase == .done
        | none => false) fun s => s.setCommand space { c with phase := .released }
  | none => s.event false fun s => s

/-- LAUNCH_COMMAND (R425). -/
def execLaunchCommand (space : Nat) (s : State) : Result :=
  s.startCommand space (fun c => c.kind == 1) (fun _ => true) fun s c => s.commandLaunch space c

/-- HOST_COPY: the command starts, or goes on; some of its lines are copied. `choice` is a frame for a tenant page that needs one
(R425). The copy of a context that is to be resumed goes on when it is (R435, R436). -/
def execHostCopy (space : Nat) (seq : Word) (lines : List Nat) (choice : Nat) (s : State) : Result :=
  match s.runningCommand space 2 seq with
  | some c => s.event (!s.namesResumed space c) fun s => lines.foldl (fun s i => s.copyLine space seq choice i) s
  | none =>
      s.startCommand space (fun c => c.kind == 2 && c.seq == seq) (fun _ => true) fun s c =>
        if copyFine c then lines.foldl (fun s i => s.copyLine space seq choice i) s else s.finishCommand space seq 0x21 0

/-- HOST_COPY_COMPLETE (R425). -/
def execHostCopyComplete (space : Nat) (seq : Word) (s : State) : Result :=
  s.runCommand space 2 seq (fun c => 64 * c.copied.length == c.a2) fun s _ => s.finishCommand space seq 0x00 0

/-- MAP_PROPOSAL (R27, R390, R391, R425). -/
def execMapProposal (space : Voted Nat) (s : State) : Result :=
  s.startCommand space.value (fun c => c.kind == 3) (fun c => !s.mayPropose c || s.mayMap c.context c.a0 c.sub) fun s c =>
    s.propose space.value c space.agree

/-- WAIT_VALUE (R425). -/
def execWaitValue (space : Nat) (s : State) : Result :=
  s.startCommand space (fun c => c.kind == 4) (fun _ => true) fun s c => s.beginWait space c

/-- WAIT_VALUE_SATISFIED; `reply` is what a peer device answers (R425). -/
def execWaitValueSatisfied (space : Nat) (seq : Word) (reply : DWord) (s : State) : Result :=
  s.runCommand space 4 seq (fun c => match s.watched space c reply with
    | some v => c.a1 ≤ v
    | none => false) fun s _ => s.finishCommand space seq 0x00 0

/-- WAIT_VALUE_TIMEOUT (R425). -/
def execWaitValueTimeout (space : Nat) (seq : Word) (s : State) : Result :=
  s.runCommand space 4 seq (fun c => c.field 40 4 ≠ 0 && c.startedAt + 2500 * c.field 40 4 ≤ s.now) fun s _ =>
    s.finishCommand space seq 0x22 0

/-- PUBLISH_REQUEST: the command starts, or its launch is complete (R245, R425, R431). -/
def execPublishRequest (space : Nat) (seq : Word) (s : State) : Result :=
  match s.runningCommand space 5 seq with
  | some c => s.event true fun s => s.publish space c
  | none =>
      s.startCommand space (fun c => c.kind == 5 && c.seq == seq) (fun _ => true) fun s c => s.publish space c

end Sys2Proof.Machine
end

