-- ==== Sys2Proof/Machine/ContextControl.lean ====
section
/-!
DEFINITION. Context control (R425): contexts, pre-emption and resume, reservations, call rings (R426), debug access (R377),
checkpoints, persistent regions (R429), the front-end (R423).
-/

namespace Sys2Proof.Machine

namespace State

/-! ## Contexts (R377, R378, R389, R401) -/

/-- The payload of a create keeps the rules: the partition exists, PROT needs a partition that may hold protected contexts, DBG is
refused for a sealed context. -/
def createFine (s : State) (c : Command) : Bool :=
  let p := s.partitionAt c.a0
  let prot := c.a1 % 2 = 1
  c.a0 < 16 && p.valid && (!prot || p.prot) && !(prot && p.sealed && c.a1 / 2 % 2 = 1) && c.a3 < 256

/-- The number and the dies of a new context: unused, also in the ownership table, and distinct dies on which the partition has a granule
(R21, R383). -/
def mayCreate (s : State) (c : Command) (n : Nat) (dies : List Nat) : Bool :=
  !s.createFine c ||
  (1 ≤ n && n ≤ 0xFFFD && s.contexts.at? n == none && (s.hw.frames.all fun e => e.2.owner.toNat ≠ n || e.2.state ≠ .owned) &&
    dies ≠ [] && distinct dies == dies &&
    (dies.all fun d => d < 4 && (List.range 4).any fun k => (s.partitionAt c.a0).holds (4 * d + k)))

/-- A new context, bound to the space, with an empty root table (R378, R389, R425); where the security cores disagree none is made, which
is logged (R27; entry 95). -/
def create (s : State) (space : Nat) (c : Command) (n : Nat) (dies : List Nat) (agree : Bool) : State :=
  let prot := c.a1 % 2 = 1
  let dbg := c.a1 / 2 % 2 = 1
  let x : Context := { Context.none with
    partition := c.a0, space, prot, dbg, vdies := dies, dbgHeld := dbg }
  if !s.createFine c then s.finishCommand space c.seq 0x21 0
  else if !agree then s.disagree.finishCommand space c.seq 0x21 0
  else
    let t := (s.setContextAt n x).setFirmAt n { ContextFirm.none with allowance := c.a2, ring := c.a3 }
    match t.takeTable n 3 with
    | some (t, root) => ((t.setContextAt n { x with tbase := 65536 * root }).finishCommand space c.seq 0x00 n).askWhenLow
    | none => s.finishCommand space c.seq 0x21 0

/-- Every storage write of a context's copies is durable (R298, R429). -/
def settleRegion (s : State) (c : Nat) : State :=
  match s.flashOf c with
  | some r => s.setFlashOf c { r.late.foldl FlashRegion.settle r with late := [] }
  | none => s

/-- A context ends by command (R356, R425, R429). -/
def destroy (s : State) (space : Nat) (c : Command) : State :=
  ((s.settleRegion c.context).killWith c.context (eventOf c.context 0x01 0 0 0)).finishCommand space c.seq 0x00 0

/-! ## Pre-emption and resume (R365, R366, R370) -/

/-- The number that stands for every block. -/
def allBlocks : Nat := 2 ^ 64 - 1

/-- Resident blocks of a context that a command names. -/
def namedBlocks (s : State) (c : Command) : List Nat :=
  (s.blocksOf c.context).filter fun id => c.a0 == allBlocks || (s.blockAt id).number == c.a0

/-- Blocks of a context are pre-empted; they wait for a resume command. The command completes once all have left their cores: `copied`
keeps those that still drain (R366, R425). -/
def preemptAll (s : State) (space : Nat) (c : Command) : State :=
  let ids := s.namedBlocks c
  let s := ids.foldl (fun s id =>
    if s.mayPreempt id (s.methodFor id c.a1 c.a2) then s.request id c.a1 c.a2 false else s) s
  match ids.filter fun id => (s.blocks.at? id).isSome with
  | [] => s.finishCommand space c.seq 0x00 0
  | left => s.setCommand space { c with phase := .started, copied := left }

/-- A pre-emption of a space whose blocks have all left. -/
def preempted (s : State) (space : Nat) : Option Command :=
  (s.spaceAt space).commands.find? fun c => c.phase == .started && c.kind == 6 && c.sub == 3 && c.copied.all fun id => s.blocks.at? id == none

/-- Saved blocks of a context are queued for their restore. -/
def resumeBlocks (s : State) (space : Nat) (c : Command) : State :=
  let f := s.firmAt c.context
  let call := fun (i : Image) => if i.saved && (c.a0 = allBlocks || i.number = c.a0) then { i with queued := true } else i
  (s.setFirmAt c.context { f with images := f.images.map call }).finishCommand space c.seq 0x00 0

/-! ## What firmware keeps (R401, R404) -/

/-- What firmware keeps for the context of a command, changed. -/
def withFirm (s : State) (space : Nat) (c : Command) (f : ContextFirm → ContextFirm) : State :=
  (s.setFirmAt c.context (f (s.firmAt c.context))).finishCommand space c.seq 0x00 0

/-- A reservation keeps the rules: whole pages, no lattice pages (R425). -/
def reservationFine (c : Command) : Bool :=
  c.a0 % 65536 = 0 && c.a1 % 65536 = 0 && c.a0 + c.a1 ≤ 2 ^ 60 && c.a2 / 2 ^ 11 % 2 = 0

/-- A reservation is registered: leaf bits 17:2 of A2. -/
def reserve (s : State) (space : Nat) (c : Command) : State :=
  if reservationFine c then
    s.withFirm space c fun f =>
      { f with reservations := f.reservations ++ [{ va := c.a0, len := c.a1, attrs := BitVec.ofNat 16 (c.a2 / 4) }] }
  else s.finishCommand space c.seq 0x21 0

/-! ## Call rings (R425, R426) -/

/-- The bytes of a ring of 2^k entries. -/
def ringBytes (k : Nat) : Nat := 64 + 64 * 2 ^ k

/-- A ring as a command describes it. -/
def ringOfCommand (c : Command) : Ring :=
  { base := c.a0, logSize := c.a1, fromHost := c.a2 % 2 = 1, purpose := c.a2 / 2 ^ 16 % 16, head := 0, tail := 0 }

/-- Number of the ring of a command. -/
def ringNumber (c : Command) : Nat := c.a2 / 256 % 256

/-- A ring keeps the rules: its size and number, the free area of the window, apart from every other ring. -/
def ringFine (x : Space) (c : Command) : Bool :=
  let n := ringNumber c
  4 ≤ c.a1 && c.a1 ≤ 10 && c.a0 % 64 = 0 && 0x11040 ≤ c.a0 && c.a0 + ringBytes c.a1 ≤ 0x40000 && 1 ≤ n &&
    c.a2 / 2 ^ 16 % 16 ≤ 3 && x.rings.all fun e => e.1 == n || !overlaps e.2.base (ringBytes e.2.logSize) c.a0 (ringBytes c.a1)

/-- A ring is registered, the module's own word at 0. -/
def registerRing (s : State) (space : Nat) (c : Command) : State :=
  let x := s.spaceAt space
  if ringFine x c then
    let g := ringOfCommand c
    let s := s.setSpaceAt space { x with rings := x.rings.set (ringNumber c) g }
    (s.windowPut space (if g.fromHost then g.base + 32 else g.base) (toBytes 4 0)).finishCommand space c.seq 0x00 0
  else s.finishCommand space c.seq 0x21 0

/-! ## Debug access (R377) -/

/-- The core that a debug access names; none where the context does not reach it. -/
def debugCore (s : State) (c : Command) : Option Nat :=
  let x := s.contextAt c.context
  match x.vdies[c.a1 % 256]? with
  | some d =>
      let core := 64 * d + c.a1 / 256 % 256
      if c.a1 / 256 % 256 < 64 && (s.partitionAt x.partition).holds (granuleOf core) then some core else none
  | none => none

/-- The value of a register that a debugger reads: of the core, or of the context (R348, R373, R374). -/
def debugCsr (s : State) (context core n : Nat) : Option DWord :=
  let x := s.contextAt context
  if 0x20 ≤ n && n ≤ 0x25 then some (coreCsr (s.coreAt core) n)
  else if n = 0x00 then some x.tvec
  else if n = 0x12 then some (BitVec.ofNat 64 (s.psize context))
  else if n = 0x13 then some (BitVec.ofNat 64 context)
  else if n = 0x14 then some (s.cflagsOf context)
  else if n = 0x15 then some x.pmiss
  else if 0x40 ≤ n && n ≤ 0x7F then some ((x.windows.get ((n - 0x40) / 4) 0).extractLsb' (64 * (n % 4)) 64)
  else if 0x80 ≤ n && n ≤ 0x9F then some ((x.regions.get ((n - 0x80) / 2) 0).extractLsb' (64 * (n % 2)) 64)
  else none

/-- A group of a context on a core is stopped. -/
def stoppedGroup (s : State) (context core slot : Nat) : Bool :=
  let gk := groupKey core slot
  (s.blockAt (s.groupAt gk).block).context == context && (s.sysAt gk).stop.isSome

/-- What a debug read delivers: a state selector reads a stopped group's state, in the layout that VERSION leaves to the device
(R368, R425). -/
def debugValue (s : State) (c : Command) (core : Nat) : Option DWord :=
  if c.a2 / 256 % 256 ≠ 0 then
    if s.stoppedGroup c.context core (c.a2 % 16) then
      some (pair (Config.undefined s.tick (2 ^ 47 + 2 * c.a2)) (Config.undefined s.tick (2 ^ 47 + 2 * c.a2 + 1)))
    else none
  else s.debugCsr c.context core c.a2

/-- A debug read (R377, R425). -/
def debugRead (s : State) (space : Nat) (c : Command) : State :=
  match s.debugCore c with
  | some core =>
      match if freeOff c.a3 then s.debugValue c core else none with
      | some v => (s.windowPut space c.a3 (toBytes 8 v.toNat)).finishCommand space c.seq 0x00 0
      | none => s.finishCommand space c.seq 0x21 0
  | none => s.finishCommand space c.seq 0x21 0

/-- A register written by a debugger: of the core, or of the context (R233, R348, R349, R373 to R375); none where it is not writable. -/
def debugWrote (s : State) (context core n : Nat) (v : DWord) : Option State :=
  if n = 0x00 then some (s.writeTvec context v)
  else if 0x20 ≤ n && n ≤ 0x24 then some (s.writeCore core n v)
  else if 0x40 ≤ n && n ≤ 0x7F then some (s.writeWindow core context ((n - 0x40) / 4) (n % 4) v)
  else none

/-- A debug write (R377, R425). -/
def debugWrite (s : State) (space : Nat) (c : Command) : State :=
  match s.debugCore c with
  | some core =>
      match s.debugWrote c.context core c.a2 (BitVec.ofNat 64 c.a3) with
      | some s => s.finishCommand space c.seq 0x00 0
      | none => s.finishCommand space c.seq 0x21 0
  | none => s.finishCommand space c.seq 0x21 0

/-- A debugger takes or gives up the debug registers (R377). -/
def hold (s : State) (space : Nat) (c : Command) (yes : Bool) : State :=
  (s.setContextAt c.context { s.contextAt c.context with dbgHeld := yes }).finishCommand space c.seq 0x00 0

/-- Debug access is accepted with cflags.DBG = 1 only (R377). -/
def debugAccess (s : State) (space : Nat) (ops : Nat → Bool) (effect : State → Command → State) : Result :=
  s.startCommand space (fun c => c.kind == 6 && c.sub == 0x09 && ops c.a0) (fun _ => true) fun s c =>
    if (s.contextAt c.context).dbg && c.a0 ≤ 3 then effect s c else s.finishCommand space c.seq 0x21 0

/-! ## Persistent regions (R298, R429) -/

/-- The region with a name. -/
def regionNamed (s : State) (name : DWord) : Option FlashRegion := s.hw.flash.find? (·.name == name)

/-- Bytes of module flash (R443). -/
def flashBytes : Nat := 2 ^ 44

/-- Bytes that persistent regions take. -/
def flashUsed (s : State) : Nat := (s.hw.flash.map FlashRegion.size).foldl (· + ·) 0

/-- A region created and attached; `full` says that the checkpoint area, whose size the device chooses, leaves no space (R429). -/
def createRegion (s : State) (space : Nat) (c : Command) (full : Bool) : State :=
  let name := BitVec.ofNat 64 c.a1
  let size := (c.a2 + 4095) / 4096 * 4096
  if 3 < c.a0 || (s.regionNamed name).isSome || (s.flashOf c.context).isSome then s.finishCommand space c.seq 0x21 0
  else if full || flashBytes < s.flashUsed + size then s.finishCommand space c.seq 0x26 0
  else
    let r : FlashRegion :=
      { name, size, context := some c.context, measure := if (s.contextAt c.context).prot then some (s.firmAt c.context).digest else none
        data := [], late := [], bad := [] }
    (s.setHw { s.hw with flash := s.hw.flash ++ [r] }).finishCommand space c.seq 0x00 0

/-- A region whose earlier writes are durable, attached to a context or to none. -/
def attachTo (r : FlashRegion) (context : Option Nat) : FlashRegion :=
  { r.late.foldl FlashRegion.settle r with late := [], context }

/-- The region with a name replaced. -/
def putRegion (s : State) (name : DWord) (r : FlashRegion) : State :=
  s.setHw { s.hw with flash := s.hw.flash.map fun q => if q.name == name then r else q }

/-- A region attached (R429): one of a protected context only to a context with its measurement. -/
def attachRegion (s : State) (space : Nat) (c : Command) : State :=
  match s.regionNamed (BitVec.ofNat 64 c.a1) with
  | some r =>
      if r.context.isSome || (s.flashOf c.context).isSome ||
          (r.measure.isSome && !((s.contextAt c.context).prot && r.measure == some (s.firmAt c.context).digest)) then
        s.finishCommand space c.seq 0x21 0
      else (s.putRegion r.name (attachTo r (some c.context))).finishCommand space c.seq 0x00 0
  | none => s.finishCommand space c.seq 0x21 0

/-- A context's region detached; its content stays (R429). -/
def detachRegion (s : State) (space : Nat) (c : Command) : State :=
  match s.flashOf c.context with
  | some r => (s.putRegion r.name (attachTo r none)).finishCommand space c.seq 0x00 0
  | none => s.finishCommand space c.seq 0x21 0

/-- A detached region destroyed: zero-filled and free (R429). -/
def destroyRegion (s : State) (space : Nat) (c : Command) : State :=
  match s.regionNamed (BitVec.ofNat 64 c.a1) with
  | some r =>
      if r.context.isSome then s.finishCommand space c.seq 0x21 0
      else (s.setHw { s.hw with flash := s.hw.flash.filter (·.name != r.name) }).finishCommand space c.seq 0x00 0
  | none => s.finishCommand space c.seq 0x21 0

/-- A copy of a context to or from its region is under way. -/
def flashBusy (s : State) (c : Nat) : Bool :=
  let flash := fun (x : Side) => match x with
    | .flash _ => true
    | _ => false
  s.cores.any fun e => e.2.copies.any fun r => r.context == c && (flash r.source || flash r.dest)

/-- A persistent-region command with one of some operations, once no storage write of its context is under way (R429). -/
def regionCommand (s : State) (space : Nat) (ops : Nat → Bool) (effect : State → Command → State) : Result :=
  s.startCommand space (fun c => c.kind == 6 && c.sub == 0x0B && ops c.a0) (fun c => !s.flashBusy c.context) effect

end State

open State

/-- CONTEXT_CREATE: the number and the dies are the security core's choice (R21, R27, R377, R389, R425). -/
def execContextCreate (space context : Nat) (dies : Voted (List Nat)) (s : State) : Result :=
  s.control space 0x01 (fun c => s.mayCreate c context dies.value) fun s c => s.create space c context dies.value dies.agree

/-- CONTEXT_DESTROY (R356, R425). -/
def execContextDestroy (space : Nat) (s : State) : Result :=
  s.control space 0x02 (fun _ => true) fun s c => s.destroy space c

/-- CONTEXT_PREEMPT: a command starts, or one whose blocks have all left completes (R365, R366, R425). -/
def execContextPreempt (space : Nat) (s : State) : Result :=
  match s.preempted space with
  | some c => s.event true fun s => s.finishCommand space c.seq 0x00 0
  | none =>
      s.control space 0x03 (fun c => (s.namedBlocks c).all fun id => s.mayPreempt id (s.methodFor id c.a1 c.a2)) fun s c =>
        s.preemptAll space c

/-- CONTEXT_RESUME (R370, R425). -/
def execContextResume (space : Nat) (s : State) : Result :=
  s.control space 0x04 (fun _ => true) fun s c => s.resumeBlocks space c

/-- SET_CHECKPOINT_INTERVAL (R404, R425). -/
def execSetCheckpointInterval (space : Nat) (s : State) : Result :=
  s.control space 0x05 (fun _ => true) fun s c => s.withFirm space c fun f => { f with ckint := c.a0, ckAt := s.now }

/-- SET_FRAME_ALLOWANCE (R401, R425). -/
def execSetFrameAllowance (space : Nat) (s : State) : Result :=
  s.control space 0x06 (fun _ => true) fun s c => s.withFirm space c fun f => { f with allowance := c.a0 }

/-- REGISTER_RESERVATION (R401, R425). -/
def execRegisterReservation (space : Nat) (s : State) : Result :=
  s.control space 0x07 (fun _ => true) fun s c => s.reserve space c

/-- REGISTER_CALL_RING (R425, R426). -/
def execRegisterCallRing (space : Nat) (s : State) : Result :=
  s.control space 0x08 (fun _ => true) fun s c => s.registerRing space c

/-- DEBUG_CLAIM; an operation that is not assigned is not permitted (R377, R425). -/
def execDebugClaim (space : Nat) (s : State) : Result :=
  s.debugAccess space (fun n => n == 0 || 3 < n) fun s c => s.hold space c true

/-- DEBUG_RELEASE (R377, R425). -/
def execDebugRelease (space : Nat) (s : State) : Result :=
  s.debugAccess space (fun n => n == 1) fun s c => s.hold space c false

/-- DEBUG_READ (R377, R425). -/
def execDebugRead (space : Nat) (s : State) : Result :=
  s.debugAccess space (fun n => n == 2) fun s c => s.debugRead space c

/-- DEBUG_WRITE (R375, R377, R425). -/
def execDebugWrite (space : Nat) (s : State) : Result :=
  s.debugAccess space (fun n => n == 3) fun s c => s.debugWrite space c

/-- CHECKPOINT_NOW: the command completes with the checkpoint (R404, R425). -/
def execCheckpointNow (space : Nat) (s : State) : Result :=
  s.control space 0x0A (fun c => s.mayCut c.context) fun s c => s.cut c.context true (some (space, c.seq))

/-- PERSISTENT_REGION_CREATE; an operation that is not assigned is not permitted (R425, R429). -/
def execPersistentRegionCreate (space : Nat) (full : Bool) (s : State) : Result :=
  s.regionCommand space (fun n => n == 0 || 3 < n) fun s c => s.createRegion space c full

/-- PERSISTENT_REGION_ATTACH (R425, R429). -/
def execPersistentRegionAttach (space : Nat) (s : State) : Result :=
  s.regionCommand space (fun n => n == 1) fun s c => s.attachRegion space c

/-- PERSISTENT_REGION_DETACH (R425, R429). -/
def execPersistentRegionDetach (space : Nat) (s : State) : Result :=
  s.regionCommand space (fun n => n == 2) fun s c => s.detachRegion space c

/-- PERSISTENT_REGION_DESTROY (R425, R429). -/
def execPersistentRegionDestroy (space : Nat) (s : State) : Result :=
  s.regionCommand space (fun n => n == 3) fun s c => s.destroyRegion space c

/-- FRONT_END_RESUME (R423, R425). -/
def execFrontEndResume (space : Nat) (s : State) : Result :=
  s.control space 0x0C (fun _ => true) fun s c =>
    ((s.setSpaceAt space { s.spaceAt space with halt := false }).showStatus space).finishCommand space c.seq 0x00 0

end Sys2Proof.Machine
end

