-- ==== Sys2Proof/Machine/Flags.lean ====
section
/-!
DEFINITION. Flags and statistics: the sticky flags that floating-point words raise in fps (R93, R167) and the per-tensor
counters of a block (R208).
-/

namespace Sys2Proof.Machine

/-- The flags that the active lanes raise, ORed (R167). -/
def orFlags (m : LaneMask) (f : Nat → Flags) : Flags := (LaneMask.list m).foldl (fun a l => a ||| f l) 0

namespace State

/-- Stat(id, c): a counter of the block rises by one, holding at the top (R208). -/
def addStat (s : State) (tensor : BitVec 8) (c : Option Stat) : State :=
  match c with
  | none => s
  | some c =>
      let k := 4 * tensor.toNat + c.code
      let b := s.block
      let n := (b.stats.get k 0).toNat
      s.setBlock { b with stats := b.stats.set k (BitVec.ofNat 32 (min 0xFFFFFFFF (n + 1))) }

/-- A vector floating-point word of 32-bit results: VD in each active lane, and the flags of the active lanes (R167). -/
def floatWord (s : State) (d : VReg) (f : Nat → Nat × Flags) : State :=
  ((s.writeV d fun l => BitVec.ofNat 32 (f l).1).raiseFlags (orFlags s.active fun l => (f l).2)).done

/-- The same for results in a register pair. -/
def floatPair (s : State) (d : VReg) (f : Nat → Nat × Flags) : State :=
  ((s.writeVPair d fun l => BitVec.ofNat 64 (f l).1).raiseFlags (orFlags s.active fun l => (f l).2)).done

/-- Rounding mode of element-wise words: fpc.RM as it stands for the issue group (R166). -/
def rounding (s : State) : Rnd := rndOf s.vgroup.fpc

end State

end Sys2Proof.Machine
end

