-- ==== Sys2Proof/Machine/Convert.lean ====
section
/-!
DEFINITION. Conversion, packing and scaling: CVTS, CVTI (R193 to R198), PACK (R200, R201), SCALE (R202 to R206).
-/

namespace Sys2Proof.Machine

namespace State

/-- The source of a conversion as bits: a register or a pair (R191). -/
def formatAt (s : State) (f : Fmt) (r : VReg) (l : Nat) : Nat :=
  if f.wide then (s.readVPair r l).toNat else (s.readV r l).toNat

/-- Counters of the active lanes' conversions, under the group's tensor identifier (R193, R206, R208). -/
def countStats (s : State) (c : Nat → Converted) : State :=
  let tensor := s.vgroup.tensor
  (LaneMask.list s.active).foldl (fun t l => t.addStat tensor (c l).stat) s

/-- Results of a format into a register or a pair (R191). -/
def writeFormat (s : State) (f : Fmt) (d : VReg) (c : Nat → Nat) : State :=
  if f.wide then s.writeVPair d fun l => BitVec.ofNat 64 (f.extend (c l))
  else s.writeV d fun l => BitVec.ofNat 32 (f.extend (c l))

/-- A conversion word (R198). -/
def convertWord (s : State) (inf : Bool) (d a : VReg) (dst src : Fmt) (rnd : Rnd) : State :=
  let random := if src.wide then a + 2 else a + 1
  let c := fun l => dst.convert inf rnd (s.readV random l) (src.decode (s.formatAt src a l))
  (((s.countStats c).writeFormat dst d fun l => (c l).bits).raiseFlags (orFlags s.active fun l => (c l).flags)).done

end State

open State

/-- CVTS: overflow saturates (R198). -/
def execCvts (d a : VReg) (dst src : Fmt) (rnd : Rnd) (s : State) : Result :=
  s.issue (.cvts d a dst src rnd) fun s => s.convertWord false d a dst src rnd

/-- CVTI: overflow gives infinity, or E4M3's NaN (R198). -/
def execCvti (d a : VReg) (dst src : Fmt) (rnd : Rnd) (s : State) : Result :=
  s.issue (.cvti d a dst src rnd) fun s => s.convertWord true d a dst src rnd

/-! ## PACK (R201) -/

/-- `n` fields of `w` bits joined, the first lowest. -/
def packed (n w : Nat) (f : Nat → Word) : Word :=
  BitVec.ofNat 32 (((List.range n).map fun k => (f k).toNat % 2 ^ w * 2 ^ (w * k)).foldl (· + ·) 0)

/-- Field `k` of `w` bits, sign- or zero-extended. -/
def unpacked (w : Nat) (sx : Bool) (x : Word) (k : Nat) : Word :=
  let f := x.toNat / 2 ^ (w * k) % 2 ^ w
  if sx then (BitVec.ofNat w f).signExtend 32 else BitVec.ofNat 32 f

/-- Register `k` after a register. -/
def regAfter (r : VReg) (k : Nat) : VReg := r + BitVec.ofNat 7 k

namespace State

/-- A pack word (R201). -/
def packWord (s : State) (n w : Nat) (d a : VReg) : State :=
  (s.writeV d fun l => packed n w fun k => s.readV (regAfter a k) l).done

/-- An unpack word: every source is read before any destination is written (R201). -/
def unpackWord (s : State) (n w : Nat) (sx : Bool) (d a : VReg) : State :=
  let x := fun l => s.readV a l
  ((List.range n).foldl (fun t k => t.writeLanes s.active (regAfter d k) fun l => unpacked w sx (x l) k) s).done

end State

/-- PACK4 (R201). -/
def execPack4 (d a : VReg) (s : State) : Result := s.issue (.pack4 d a) fun s => s.packWord 4 8 d a

/-- UNPACK4 (R201). -/
def execUnpack4 (d a : VReg) (sx : Bool) (s : State) : Result :=
  s.issue (.unpack4 d a sx) fun s => s.unpackWord 4 8 sx d a

/-- PACK6 (R201). -/
def execPack6 (d a : VReg) (s : State) : Result := s.issue (.pack6 d a) fun s => s.packWord 4 6 d a

/-- UNPACK6 (R201). -/
def execUnpack6 (d a : VReg) (sx : Bool) (s : State) : Result :=
  s.issue (.unpack6 d a sx) fun s => s.unpackWord 4 6 sx d a

/-- PACK8 (R201). -/
def execPack8 (d a : VReg) (s : State) : Result := s.issue (.pack8 d a) fun s => s.packWord 8 4 d a

/-- UNPACK8 (R201). -/
def execUnpack8 (d a : VReg) (sx : Bool) (s : State) : Result :=
  s.issue (.unpack8 d a sx) fun s => s.unpackWord 8 4 sx d a

/-! ## SCALE (R203 to R206) -/

/-- The active lanes of a beat (R145). -/
def beatLanes (m : LaneMask) (k : Nat) : List Nat := (LaneMask.list m).filter fun l => l / 32 = k

/-- Largest finite value of a scaled format, 127 for i8 (R203). -/
def scaleTop (f : Fmt) : Dy :=
  match f.bin with
  | some b => b.largest
  | none => Dy.ofNat 127

/-- The least SC12 value whose product with `top` is at least `amax` (R203). -/
def leastScale (top amax : Dy) : Nat :=
  ((List.range 0xFF0).find? fun s =>
    match Bin.sc12.decode s with
    | .num d => !(d.mul top).magLt amax
    | _ => false).getD 0xFEF

/-- The scale of a beat (R203). -/
def State.beatScale (s : State) (a : VReg) (f : Fmt) (k : Nat) : Nat :=
  let vals := (beatLanes s.active k).map fun l => Bin.f32.decode (s.readV a l).toNat
  let amax := vals.foldl (fun m v => match v with
    | .num d => if m.magLt d then d.abs else m
    | _ => m) (Dy.ofNat 0)
  if vals.any fun v => match v with
    | .num _ => false
    | _ => true then 0x0FF0
  else if amax.man = 0 then 0x07F0
  else leastScale (scaleTop f) amax

/-- BSCALE (R203). -/
def execBscale (d a : VReg) (fmt : Fmt) (s : State) : Result :=
  s.issue (.bscale d a fmt) fun s =>
    let s0 := s.beatScale a fmt 0
    let s1 := s.beatScale a fmt 1
    let s2 := s.beatScale a fmt 2
    (s.writeV d fun l => BitVec.ofNat 32 (if l / 32 = 0 then s0 else if l / 32 = 1 then s1 else s2)).done

/-- The scale operand of SCAPPLY in lane `l` (R188, R204). -/
def State.scaleAt (s : State) (b : VReg) (l : Nat) : FVal := Fmt.sc12.decode ((s.readV b l).toNat % 65536)

/-- SCAPPLY_MUL: what vfmul.f32 computes with the scale's value (R204). -/
def execScapplyMul (d a b : VReg) (s : State) : Result :=
  s.issue (.scapplyMul d a b) fun s => s.floatWord d fun l =>
    Bin.f32.finish s.rounding (fMul (Bin.f32.decode (s.readV a l).toNat) (s.scaleAt b l))

/-- SCAPPLY_DIV: what vfdiv.f32 computes with the scale's value (R204). -/
def execScapplyDiv (d a b : VReg) (s : State) : Result :=
  s.issue (.scapplyDiv d a b) fun s => s.floatWord d fun l =>
    Bin.f32.finish s.rounding (fDiv (Bin.f32.decode (s.readV a l).toNat) (s.scaleAt b l))

/-- Rank of an 8-bit element by magnitude, NaNs above infinities above finite values (R205). -/
def elementRank (f : Fmt) (x : Nat) : Nat :=
  match f with
  | .i8 => (BitVec.ofNat 8 x).toInt.natAbs
  | _ =>
      let nan := match f.decode x with
        | .nan _ => true
        | _ => false
      if nan then 0x80 else x % 128

/-- The index of greatest rank among some, the lowest of equals (R205). -/
def topIndex (rank : Nat → Nat) (among : List Nat) : Nat :=
  (among.foldl (fun best j => match best with
    | none => some j
    | some b => if rank b < rank j then some j else some b) none).getD 0

/-- COMPRESS of four elements: the two of greatest magnitude with their indices (R205). -/
def compressed (f : Fmt) (x : Word) : Word :=
  let element := fun j => x.toNat / 2 ^ (8 * j) % 256
  let rank := fun j => elementRank f (element j)
  let p := topIndex rank [0, 1, 2, 3]
  let q := topIndex rank ([0, 1, 2, 3].filter (· ≠ p))
  let i := min p q
  let j := max p q
  BitVec.ofNat 32 (element i + 2 ^ 8 * element j + 2 ^ 16 * i + 2 ^ 18 * j)

/-- COMPRESS (R205). -/
def execCompress (d a : VReg) (fmt : Fmt) (s : State) : Result :=
  s.issue (.compress d a fmt) fun s => (s.writeV d fun l => compressed fmt (s.readV a l)).done

/-- TIDSET with an immediate (R206). -/
def execTidsetImm (imm : BitVec 8) (s : State) : Result :=
  s.issue (.tidsetImm imm) fun s => (s.setGroup { s.group with tensor := imm }).done

/-- TIDSET from a register (R206). -/
def execTidsetReg (a : SReg) (s : State) : Result :=
  s.issue (.tidsetReg a) fun s => (s.setGroup { s.group with tensor := (s.readS a).extractLsb' 0 8 }).done

end Sys2Proof.Machine
end

