-- ==== Sys2Proof/Machine/Reliability.lean ====
section
/-!
DEFINITION. Resets and power-up (R431 to R436), errors (R437 to R440), the power limit (R442).
-/

namespace Sys2Proof.Machine

namespace State

/-! ## Compute reset (R431, R435) -/

/-- The near tier as its reset leaves it: frames zero-filled and, where the security cores agree (R27), free; cores, clusters,
scratchpads and accumulators cleared; what a die has used of its spare stays, and its fault queue numbers on (R399, R435). -/
def clearNear (s : State) : State :=
  let far := fun (f : Nat) => 0xC00000 ≤ f
  let s := { s with
    groups := [], sys := [], blocks := [], cores := [], clusters := [], spad := [], acc := [], snap := none, last := .idle
    dies := s.dies.mapVal fun _ k => { Die.reset with faultSeq := k.faultSeq, spareUsed := k.spareUsed }
    mem := s.mem.filter fun c => far (c.1 / 65536) }
  let s := s.setHw { s.hw with
    poisoned := s.hw.poisoned.filter fun l => far (l / 1024)
    tierMoves := [], frameSets := [], fetches := [] }
  s.decided fun s => s.setHw { s.hw with frames := s.hw.frames.filter fun e => far e.1 }

/-- What is to be resumed of each context, its latest complete checkpoint, and the records that wait for its queue. -/
def resumable (s : State) (altered : List Nat) : List (Nat × Checkpoint × List EventRecord) :=
  s.contexts.filterMap fun e => (s.lastCheckpoint e.1).map fun k =>
    (e.1, foundCheckpoint k (altered.contains e.1), (s.firmAt e.1).backlog)

/-- The command of a checkpoint that is abandoned completes with 0x23 (R431, R435). -/
def abandon (s : State) (c : Nat) : State :=
  (s.hw.checkpoints.get c []).foldl (fun s k => match k.command with
    | some e => s.finishCommand e.1 e.2 0x23 0
    | none => s) s

/-- A context leaves with the near tier: without a record where it is resumed, else killed and reported (R431, R435; entry 29). -/
def leaveNear (s : State) (c : Nat) : State :=
  let s := s.abandon c
  if (s.lastCheckpoint c).isSome then s.removeContext c else s.killWith c (eventOf c 0x01 0 0 0)

/-- A launch command of a space still waits, and no launch is left to complete it, nor one to be restored. -/
def lostCommand (s : State) (space : Nat) (c : Command) : Bool :=
  let waits := fun (e : Nat × Launch) => e.2.command == some (space, c.seq.toNat)
  c.kind == 1 && c.phase == .started && !s.launches.any waits && !s.hw.toResume.any fun e => e.2.1.launches.any waits

/-- Launch commands whose launch was lost complete with 0x23 (R431). -/
def failLost (s : State) : State :=
  s.hw.spaces.foldl (fun s e =>
    (e.2.commands.filter (s.lostCommand e.1)).foldl (fun s c => s.finishCommand e.1 c.seq 0x23 0) s) s

/-- Contexts resumed from their checkpoints, now that the compute domain is up (R405, R406, R436). -/
def resumeAll (s : State) : State :=
  s.hw.toResume.foldl (fun s e => s.resume e.1 e.2.1 e.2.2) (s.setHw { s.hw with toResume := [] })

/-- A log entry of a reset (R441). -/
def resetLog (s : State) (die : Nat) : State :=
  s.logError { type := 6, die, unit := 0, context := 0, addr := 0, time := s.micros, count := 0 }

/-- A compute reset (R435): hosts are told, every context stops, the near tier is cleared, contexts that are not to be resumed are
killed, commands of lost launches complete. The others are resumed with the domain (R436). -/
def computeReset (s : State) (die : Nat) (altered : List Nat) : State :=
  let s := (s.tellAllHosts 0x07).resetLog die
  let l := s.resumable altered
  let s := (s.contexts.map Prod.fst).foldl leaveNear s
  let s := s.clearNear
  let kept := l.foldl (fun (t : Table (List Checkpoint)) e => t.set e.1 [e.2.1]) s.hw.checkpoints
  (s.setHw { s.hw with
    power := { s.hw.power with computeUp := false, resetting := true }, checkpoints := kept, toResume := s.hw.toResume ++ l }).failLost

/-! ## The module without power (R298, R432, R434) -/

/-- The copy of a storage write has written the whole unit. -/
def wholeUnit (s : State) (l : LateUnit) : Bool :=
  !s.cores.any fun e => e.2.copies.any fun r => r.id == l.copy && match r.dest with
    | .flash a => r.left.any fun u => (a + 16 * u) / 4096 == l.unit
    | _ => false

/-- A persistent region as power leaves it: of the units written whole and not durable, those named hold their new content; a unit
that a copy has written in part holds its old one (R298). -/
def atPowerLoss (s : State) (kept : List (Nat × Nat)) (r : FlashRegion) : FlashRegion :=
  { (r.late.filter fun l => s.wholeUnit l && kept.contains (l.copy, l.unit)).foldl FlashRegion.settle r with
    late := [], context := none }

/-- The module after its power or its reset took everything but its flash: regions, complete checkpoints, the error log; the
partition table is rebuilt at power-up, and image numbers go on (R368, R405, R429, R434, R436; entry 30). -/
def dark (s : State) (kept : List (Nat × Nat)) : State :=
  { State.reset with
    schedule := s.schedule, now := s.now, tick := s.tick, nextId := s.nextId, mem := []
    hw := { Module.reset with
      partitions := s.hw.partitions
      spaces := s.hw.spaces.mapVal fun n _ => { Space.boot n with linkUp := false }
      hostOut := s.hw.hostOut, reports := s.hw.reports, fabricOut := s.hw.fabricOut
      flash := s.hw.flash.map (s.atPowerLoss kept)
      checkpoints := (s.hw.checkpoints.mapVal fun _ l => l.filter Checkpoint.complete).filter fun e => e.2 ≠ []
      errorLog := s.hw.errorLog, imageSeqs := s.hw.imageSeqs
      power := { Power.reset with moduleUp := false, computeUp := false, upSince := s.hw.power.upSince } } }

/-- Power-up to its step 3: hosts have their boot extents and windows; the compute domain comes up, and the contexts of the checkpoints
are resumed, by an event of its own (R406, R433, R436). -/
def powerUp (s : State) (altered : List Nat) : State :=
  { s with mem := Memory.reset }.setHw { s.hw with
    spaces := s.hw.spaces.mapVal fun n _ => Space.boot n
    power := { Power.reset with computeUp := false, upSince := s.now }
    toResume := s.hw.checkpoints.filterMap fun (e : Nat × List Checkpoint) => e.2.getLast?.map fun k =>
      (e.1, foundCheckpoint k (altered.contains e.1), ([] : List EventRecord)) }

/-- The compute domain is up: hosts are told, contexts are resumed, commands of launches that are lost complete (R427, R431, R436). -/
def domainUp (s : State) : State :=
  let s := s.setHw { s.hw with power := { s.hw.power with computeUp := true, resetting := false } }
  (s.tellAllHosts 0x08).resumeAll.failLost

/-! ## Errors of one core (R439, R440) -/

/-- ADDR of an error on a core (R440). -/
def coreAddress (core store off : Nat) : Nat := 2 ^ 63 + 2 ^ 60 * store + 2 ^ 48 * (core % 64) + off % 2 ^ 32

/-- A context ends with an error on a core, which is logged (R439 to R441). -/
def coreKill (s : State) (context core store off : Nat) : State :=
  let addr := BitVec.ofNat 64 (coreAddress core store off)
  let s := s.logError { type := 2, die := dieOf core, unit := core % 64, context, addr, time := s.micros, count := 0 }
  s.killWith context
    { eventOf context 0x01 FaultClass.memoryError.code 0 addr with vdie := vdieOf (s.contextAt context) (dieOf core), core := core % 64 }

/-- The context whose scratchpad byte it is. -/
def padContext (s : State) (core off : Nat) : Option Nat := (s.padOwner core off).map fun id => (s.blockAt id).context

/-- The context of the block on a core that meets a condition. -/
def contextWhere (s : State) (core : Nat) (p : Block → Bool) : Option Nat :=
  (s.blocks.find? fun e => e.2.core == core && p e.2).map fun e => e.2.context

/-- An error on a core ends the context that owns the place, if one does (R341, R439). -/
def storeError (s : State) (context : Option Nat) (core store off : Nat) : State :=
  match context with
  | some c => s.coreKill c core store off
  | none => s.logError { type := 2, die := dieOf core, unit := core % 64, context := 0
                         addr := BitVec.ofNat 64 (coreAddress core store off), time := s.micros, count := 0 }

/-- Parity in a core's control state: every context on it ends, and the spare takes the core (R371, R439). -/
def controlError (s : State) (core : Nat) : State :=
  ((s.contextsOn core).foldl (fun s c => s.coreKill c core 5 0) s).takeover core

/-- A line of memory that fails: what reads it meets the error (R439). -/
def memoryError (s : State) (pa : Nat) : State :=
  let at_ := s.frameSite (pa / 65536)
  let s := s.logError { type := 2, die := at_.1, unit := at_.2, context := 0, addr := BitVec.ofNat 64 (pa / 65536 * 65536)
                        time := s.micros, count := 0 }
  if s.hw.poisoned.contains (pa / 64) then s else s.setHw { s.hw with poisoned := s.hw.poisoned ++ [pa / 64] }

/-- The log entry of an uncorrectable error outside frames and cores (R441). -/
def siteLog (s : State) (die context : Nat) (addr : DWord) : State :=
  s.logError { type := 2, die, unit := 0, context, addr, time := s.micros, count := 0 }

/-- A block of a compressed page that fails to decode from now on (R415); the log names the frame of its sector
list and the package (R441). -/
def packedError (s : State) (space page block : Nat) : State :=
  let x := s.spaceAt space
  let p := x.page page
  let f := 0xC00000 + p.loc / 1024
  let s := s.logError { type := 2, die := (s.frameSite f).1, unit := (s.frameSite f).2, context := 0, addr := BitVec.ofNat 64 (65536 * f)
                        time := s.micros, count := 0 }
  if p.form = .compressed then s.setSpaceAt space (x.setPage page { p with bad := distinct (p.bad ++ [block]) }) else s

/-- Flash of a context's checkpoints that fails: its resume will fail (R406, R439). -/
def checkpointError (s : State) (c : Nat) : State :=
  (s.siteLog 0xFF c 0).setHw { s.hw with checkpoints := s.hw.checkpoints.mapVal fun n l => if n = c then l.map fun k => { k with bad := true } else l }

/-- A unit of a region that cannot be read from now on (R439). -/
def flashError (s : State) (name : DWord) (unit : Nat) : State :=
  (s.siteLog 0xFF 0 0).setHw { s.hw with flash := s.hw.flash.map fun r => if r.name == name then { r with bad := distinct (r.bad ++ [unit]) } else r }

/-- A mismatch of the MAC or the counter tree of a frame of class 0b10: its owner ends at once, and the frame is quarantined, the pool's
too (R27, R392). -/
def macError (s : State) (f : Nat) : State :=
  let r := s.frameAt f
  if r.pclass ≠ 2 then s
  else if (s.contexts.at? r.owner.toNat).isSome then s.memoryKill r.owner.toNat (65536 * f)
  else if r.state = .free then s
  else s.decided fun s => s.quarantine f

/-- Both mirrors of a table fail: the spec gives no outcome, and the module is reset (entry 87). -/
def mirrorError (s : State) (both : Bool) : State := if both then ((s.siteLog 0xFF 0 0).resetLog 0xFF).dark [] else s

/-- A word that a core's instruction cache holds fails: the context whose frame it stands in ends (R437, R440). -/
def instructionError (s : State) (core pa : Nat) : State :=
  let owner := (s.frameAt (pa / 65536)).owner.toNat
  let held := ((s.coreAt core).icache.at? pa).isSome
  s.storeError (if held && (s.contexts.at? owner).isSome then some owner else none) core 3 pa

/-- An uncorrectable error by its location (R439). -/
def uncorrectable (s : State) (site : ErrorSite) (altered : List Nat) : State :=
  match site with
  | .memory pa => s.memoryError pa
  | .packed space page block => s.packedError space page block
  | .scratchpad core off => s.storeError (s.padContext core off) core 0 off
  | .vector core slot reg =>
      let g := s.groupAt (groupKey core slot)
      s.storeError (if g.phase = .free then none else some (s.blockAt g.block).context) core 1 reg
  | .instructions core pa => s.instructionError core pa
  | .accumulator core entry =>
      s.storeError (s.contextWhere core fun b => b.units.any fun u => u.2 == entry / 1024) core 2 entry
  | .tag core entry =>
      s.storeError (s.contextWhere core fun b => b.slot0 ≤ entry && entry < b.slot0 + b.slots) core 4 entry
  | .coreControl core => s.controlError core
  | .nearControl die => (s.siteLog die 0 0).computeReset die altered
  | .farControl again => if again then ((s.siteLog 0xFF 0 0).resetLog 0xFF).dark [] else s.siteLog 0xFF 0 0
  | .mirror both => s.mirrorError both
  | .mac frame => s.macError frame
  | .checkpoint context => s.checkpointError context
  | .flash name unit => s.flashError name unit

/-! ## Corrected errors (R438) -/

/-- A log entry of a threshold of corrected errors (R441). -/
def thresholdLog (s : State) (die unit count : Nat) (addr : DWord) : State :=
  s.logError { type := 1, die, unit, context := 0, addr, time := s.micros, count }

/-- A corrected error of a core's arrays (R371, R438). -/
def coreCorrected (s : State) (core : Nat) : State :=
  let k := s.coreAt core
  let s := s.setCoreAt core { k with corrected := (k.corrected ++ [s.now]).filter fun t => s.now ≤ t + 2500000000 }
  if s.pastThreshold core then s.thresholdLog (dieOf core) (core % 64) (s.coreAt core).corrected.length 0 else s

/-- A corrected error in a frame, on its stack or on a package (R438). -/
def frameCorrected (s : State) (frame package : Nat) : State :=
  let (key, die, unit) := match s.frameKind frame with
    | some (.near die stack) => (4 * die + stack, die, stack)
    | _ => (16 + package, 4 + package / 18, package)
  let s := s.setHw { s.hw with
    frameErrors := s.hw.frameErrors.set frame (s.hw.frameErrors.get frame [] ++ [s.now])
    counts := s.hw.counts.set key (s.hw.counts.get key 0 + 1) }
  if s.recentErrors frame = 3 then s.thresholdLog die unit 3 (BitVec.ofNat 64 (65536 * frame)) else s

/-- Patrol scrubbing meets a line that fails in a context's frame: the frame is quarantined (R439, R440). -/
def scrub (s : State) (line : Nat) : State :=
  let f := line / 1024
  if s.hw.poisoned.contains line && (s.contexts.at? (s.frameAt f).owner.toNat).isSome then s.decided (·.quarantine f) else s

/-! ## The error log (R441) -/

end State

/-- The 32 bytes of a log entry (R441). -/
def LogEntry.bytes (e : LogEntry) : List Byte :=
  toBytes 1 e.type ++ toBytes 1 e.die ++ toBytes 2 e.unit ++ toBytes 4 e.context ++ toBytes 8 e.addr.toNat ++ toBytes 8 e.time ++
    toBytes 4 e.count ++ toBytes 4 0

namespace State

/-- What an operator reads of the log over CXL.io: its entries, the oldest first (R441). -/
def logBytes (s : State) : List Byte := (s.hw.errorLog.map LogEntry.bytes).flatten

/-! ## Power (R442) -/

/-- Above the cap one step more of gating, else none. -/
def samplePower (s : State) (watts : Nat) : State :=
  let p := s.hw.power
  let p := if p.cap < watts then { p with gated := min 63 (p.gated + 1), gatedSince := some (p.gatedSince.getD s.now) }
    else { p with gated := 0, gatedSince := none, logged := false }
  s.setHw { s.hw with power := p }

/-- The entry of a gating episode longer than one second. -/
def logGating (s : State) : State :=
  (s.setHw { s.hw with power := { s.hw.power with logged := true } }).logError
    { type := 7, die := 0xFF, unit := 0, context := 0, addr := 0, time := s.micros, count := 0 }

end State

open State

/-- COMPUTE_RESET: by the operator; `altered` are contexts of which an encrypted item of the checkpoint fails its tag (R406, R431,
R435). -/
def execComputeReset (altered : List Nat) (s : State) : Result := s.event true fun s => s.computeReset 0xFF altered

/-- NEAR_TIER_WATCHDOG: 100 ms without progress on a die's control fabric (R434, R435). -/
def execNearTierWatchdog (die : Nat) (altered : List Nat) (s : State) : Result :=
  s.event (die < 4 && s.hw.power.computeUp) fun s => s.computeReset die altered

/-- COMPUTE_DOMAIN_UP (R406, R427, R436). -/
def execComputeDomainUp (s : State) : Result := s.event (s.hw.power.moduleUp && !s.hw.power.computeUp) domainUp

/-- MODULE_RESET: by the operator; power-up follows (R432, R434, R436). -/
def execModuleReset (kept : List (Nat × Nat)) (s : State) : Result :=
  s.event s.hw.power.moduleUp fun s => (s.resetLog 0xFF).dark kept

/-- POWER_LOSS: `kept` are the storage writes, by copy and unit, that were performed though not yet durable (R298, R405). -/
def execPowerLoss (kept : List (Nat × Nat)) (s : State) : Result :=
  s.event s.hw.power.moduleUp fun s => s.dark kept

/-- POWER_UP (R406, R433, R436). -/
def execPowerUp (altered : List Nat) (s : State) : Result := s.event (!s.hw.power.moduleUp) fun s => s.powerUp altered

/-- CORRECTED_ERROR: in the arrays of a core, or in a frame, of the far tier on a package (R437, R438). -/
def execCorrectedError (core : Option Nat) (frame package : Nat) (s : State) : Result :=
  s.event true fun s => match core with
    | some c => s.coreCorrected c
    | none => s.frameCorrected frame package

/-- PATROL_SCRUB: of one line; a corrected line is rewritten as it was (R438, R440). -/
def execPatrolScrub (line : Nat) (s : State) : Result :=
  s.event (!s.frameBusy (line / 1024)) fun s => s.scrub line

/-- UNCORRECTABLE_ERROR (R439 to R441). -/
def execUncorrectableError (site : ErrorSite) (altered : List Nat) (s : State) : Result :=
  s.event true fun s => s.uncorrectable site altered

/-- POWER_SAMPLE: the 1 ms average in watts (R442). -/
def execPowerSample (watts : Nat) (s : State) : Result := s.event true fun s => s.samplePower watts

/-- POWER_LIMIT_LOG (R441, R442). -/
def execPowerLimitLog (s : State) : Result :=
  s.event (!s.hw.power.logged && match s.hw.power.gatedSince with
    | some t => t + 2500000000 < s.now
    | none => false) fun s => s.logGating

/-- POWER_CAP_SET: from 1,200 W to 3,600 W (R442). -/
def execPowerCapSet (watts : Nat) (s : State) : Result :=
  s.event (1200 ≤ watts && watts ≤ 3600) fun s => s.setHw { s.hw with power := { s.hw.power with cap := watts } }

end Sys2Proof.Machine
end

