-- ==== Sys2Proof/Machine/Scalar.lean ====
section
/-!
DEFINITION. Scalar arithmetic and special registers: NOP, SALU, SALU64, SIMM, SPEC (R92 to R102).
-/

namespace Sys2Proof.Machine

open State

/-- NOP: the split moves on, nothing else changes (R61, R66). -/
def execNop (s : State) : Result := s.issue .nop State.done

/-! ## SALU (R97) -/

/-- Add: a + b (R97). -/
def execAdd (d : SDst) (a b : SSrc) (s : State) : Result :=
  s.issue (.add d a b) fun s => s.scalar2 d a b fun a b => a + b

/-- Sub: a − b (R97). -/
def execSub (d : SDst) (a b : SSrc) (s : State) : Result :=
  s.issue (.sub d a b) fun s => s.scalar2 d a b fun a b => a - b

/-- And: a and b, bitwise (R97). -/
def execAnd (d : SDst) (a b : SSrc) (s : State) : Result :=
  s.issue (.and d a b) fun s => s.scalar2 d a b fun a b => a &&& b

/-- Or: a or b, bitwise (R97). -/
def execOr (d : SDst) (a b : SSrc) (s : State) : Result :=
  s.issue (.or d a b) fun s => s.scalar2 d a b fun a b => a ||| b

/-- Xor: a xor b, bitwise (R97). -/
def execXor (d : SDst) (a b : SSrc) (s : State) : Result :=
  s.issue (.xor d a b) fun s => s.scalar2 d a b fun a b => a ^^^ b

/-- Shl: a × 2^c (R97). -/
def execShl (d : SDst) (a b : SSrc) (s : State) : Result :=
  s.issue (.shl d a b) fun s => s.scalar2 d a b fun a b => a <<< count6 b

/-- ShrN: floor(a / 2^c) (R97). -/
def execShrN (d : SDst) (a b : SSrc) (s : State) : Result :=
  s.issue (.shrN d a b) fun s => s.scalar2 d a b fun a b => a >>> count6 b

/-- ShrI: floor of the signed a / 2^c (R97). -/
def execShrI (d : SDst) (a b : SSrc) (s : State) : Result :=
  s.issue (.shrI d a b) fun s => s.scalar2 d a b fun a b => a.sshiftRight (count6 b)

/-- MinI: the signed minimum (R97). -/
def execMinI (d : SDst) (a b : SSrc) (s : State) : Result :=
  s.issue (.minI d a b) fun s => s.scalar2 d a b fun a b => Sys2Proof.Machine.minI a b

/-- MaxI: the signed maximum (R97). -/
def execMaxI (d : SDst) (a b : SSrc) (s : State) : Result :=
  s.issue (.maxI d a b) fun s => s.scalar2 d a b fun a b => Sys2Proof.Machine.maxI a b

/-- MinN: the unsigned minimum (R97). -/
def execMinN (d : SDst) (a b : SSrc) (s : State) : Result :=
  s.issue (.minN d a b) fun s => s.scalar2 d a b fun a b => Sys2Proof.Machine.minN a b

/-- MaxN: the unsigned maximum (R97). -/
def execMaxN (d : SDst) (a b : SSrc) (s : State) : Result :=
  s.issue (.maxN d a b) fun s => s.scalar2 d a b fun a b => Sys2Proof.Machine.maxN a b

/-- Mul: a × b (R97). -/
def execMul (d : SDst) (a b : SSrc) (s : State) : Result :=
  s.issue (.mul d a b) fun s => s.scalar2 d a b fun a b => a * b

/-- MulhI: the high half of the signed product (R97). -/
def execMulhI (d : SDst) (a b : SSrc) (s : State) : Result :=
  s.issue (.mulhI d a b) fun s => s.scalar2 d a b fun a b => Sys2Proof.Machine.mulhI a b

/-- MulhN: the high half of the unsigned product (R97). -/
def execMulhN (d : SDst) (a b : SSrc) (s : State) : Result :=
  s.issue (.mulhN d a b) fun s => s.scalar2 d a b fun a b => Sys2Proof.Machine.mulhN a b

/-- CmpEq: 1 if equal (R97). -/
def execCmpEq (d : SDst) (a b : SSrc) (s : State) : Result :=
  s.issue (.cmpEq d a b) fun s => s.scalar2 d a b fun a b => boolWord (a == b)

/-- CmpNe: 1 if unequal (R97). -/
def execCmpNe (d : SDst) (a b : SSrc) (s : State) : Result :=
  s.issue (.cmpNe d a b) fun s => s.scalar2 d a b fun a b => boolWord (a != b)

/-- CmpLtI: 1 if less, signed (R97). -/
def execCmpLtI (d : SDst) (a b : SSrc) (s : State) : Result :=
  s.issue (.cmpLtI d a b) fun s => s.scalar2 d a b fun a b => boolWord (a.slt b)

/-- CmpLtN: 1 if less, unsigned (R97). -/
def execCmpLtN (d : SDst) (a b : SSrc) (s : State) : Result :=
  s.issue (.cmpLtN d a b) fun s => s.scalar2 d a b fun a b => boolWord (a.ult b)

/-! ## SALU64 (R98) -/

/-- The pair D receives a doubleword. -/
def State.givePair (s : State) (d : SReg) (x : DWord) : State := (s.writePair d x).done

/-- The register D receives a word. -/
def State.giveS (s : State) (d : SReg) (x : Word) : State := (s.writeS d x).done

/-- Add64 (R98). -/
def execAdd64 (d a b : SReg) (s : State) : Result :=
  s.issue (.add64 d a b) fun s => s.givePair d (s.readPair a + s.readPair b)

/-- Sub64 (R98). -/
def execSub64 (d a b : SReg) (s : State) : Result :=
  s.issue (.sub64 d a b) fun s => s.givePair d (s.readPair a - s.readPair b)

/-- Shl64 (R98). -/
def execShl64 (d a b : SReg) (s : State) : Result :=
  s.issue (.shl64 d a b) fun s => s.givePair d (s.readPair a <<< count7 (s.readS b))

/-- Shr64N (R98). -/
def execShr64N (d a b : SReg) (s : State) : Result :=
  s.issue (.shr64N d a b) fun s => s.givePair d (s.readPair a >>> count7 (s.readS b))

/-! ## SIMM (R99) -/

/-- MOVI: the sign-extended immediate, into a register or pushed (R99). -/
def execMovi (d : SDst) (imm : BitVec 16) (s : State) : Result :=
  s.issue (.movi d imm) fun s => s.scalarWord d [] fun _ => imm.signExtend 32

/-- Movh (R99). -/
def execMovh (d : SReg) (imm : BitVec 16) (s : State) : Result :=
  s.issue (.movh d imm) fun s => s.giveS d (imm.setWidth 32 <<< 16)

/-- Addi (R99). -/
def execAddi (d : SReg) (imm : BitVec 16) (s : State) : Result :=
  s.issue (.addi d imm) fun s => s.giveS d (s.readS d + imm.signExtend 32)

/-- Andi (R99). -/
def execAndi (d : SReg) (imm : BitVec 16) (s : State) : Result :=
  s.issue (.andi d imm) fun s => s.giveS d (s.readS d &&& imm.setWidth 32)

/-- Ori (R99). -/
def execOri (d : SReg) (imm : BitVec 16) (s : State) : Result :=
  s.issue (.ori d imm) fun s => s.giveS d (s.readS d ||| imm.setWidth 32)

/-- Xori (R99). -/
def execXori (d : SReg) (imm : BitVec 16) (s : State) : Result :=
  s.issue (.xori d imm) fun s => s.giveS d (s.readS d ^^^ imm.setWidth 32)

/-- CmpiEq (R99). -/
def execCmpiEq (d : SReg) (imm : BitVec 16) (s : State) : Result :=
  s.issue (.cmpiEq d imm) fun s => s.giveS d (boolWord (s.readS d == imm.signExtend 32))

/-- CmpiLtI (R99). -/
def execCmpiLtI (d : SReg) (imm : BitVec 16) (s : State) : Result :=
  s.issue (.cmpiLtI d imm) fun s => s.giveS d (boolWord ((s.readS d).slt (imm.signExtend 32)))

/-! ## SPEC (R92 to R94, R102) -/

/-- The clock count of a core, which shares no start with another's (R17, R92, R94). -/
def State.cycleOf (s : State) (core : Nat) : DWord := BitVec.ofNat 64 (s.now + Config.clockStart core)

/-- A scalar special register other than cycle (R92). -/
def State.special (s : State) (n : Nat) : Word :=
  match n with
  | 0x000 => BitVec.ofNat 32 s.vgroup.member
  | 0x001 => s.vgroup.stage.setWidth 32
  | 0x002 => BitVec.ofNat 32 s.vblock.number
  | 0x003 => BitVec.ofNat 32 (s.vblock.number / 2 ^ 32)
  | 0x004 => BitVec.ofNat 32 (vdieOf s.vcontext (dieOf s.cur.core))
  | 0x005 => BitVec.ofNat 32 (s.cur.core % 64)
  | 0x008 => s.vgroup.fpc.setWidth 32
  | 0x009 => s.vgroup.fps.setWidth 32
  | 0x00A => boolWord s.vgroup.shrink
  | 0x00B => s.vgroup.tensor.setWidth 32
  | 0x00C => BitVec.ofNat 32 s.vgroup.splits.length
  | _ => 0

/-- A per-lane special register (R92). -/
def State.specialLane (s : State) (n l : Nat) : Word :=
  match n with
  | 0x100 => BitVec.ofNat 32 l
  | 0x101 => (s.vgroup.wid.toArray.getD l 0).lo
  | 0x102 => (s.vgroup.wid.toArray.getD l 0).hi
  | _ => 0

/-- An ACCRD of an earlier issue group has its flags still to write: words that read or write fps stall (R82, R167, R195). -/
def State.flagsOpen (s : State) : Bool :=
  s.vsys.tm.any fun p => !p.finished && match p.act with
    | .accrd _ _ _ _ _ _ => true
    | _ => false

/-- SRD: a scalar register, the pair of cycle, or a vector register v0 to v63 in the active lanes (R102). -/
def execSrd (d : SReg) (special : BitVec 10) (s : State) : Result :=
  s.issue (.srd d special) fun s =>
    if 0x100 ≤ special.toNat then (s.writeV (d.setWidth 7) (s.specialLane special.toNat)).done
    else if special.toNat = 6 then s.givePair d (s.cycleOf s.cur.core)
    else if special.toNat = 9 && s.flagsOpen then s.stalled
    else s.giveS d (s.special special.toNat)

/-- The rounding mode that fpc stores: 0b101 to 0b111 are stored as 0b000 (R93). -/
def storedRM (w : Word) : BitVec 3 := if 5 ≤ (w.extractLsb' 0 3).toNat then 0 else w.extractLsb' 0 3

/-- fps after SWR: bits 4:0 of the value, with the flags that words of its own chain raise ORed in (R93). -/
def State.storedFlags (s : State) (w : Word) : BitVec 5 :=
  w.extractLsb' 0 5 ||| match s.snap with
    | some k => k.flags
    | none => 0

/-- SWR to fpc or fps (R93, R102). -/
def execSwr (a : SReg) (special : BitVec 10) (s : State) : Result :=
  s.issue (.swr a special) fun s =>
    let w := s.readS a
    let g := s.group
    if special.toNat = 8 then (s.setGroup { g with fpc := storedRM w }).done
    else if s.flagsOpen then s.stalled
    else (s.setGroup { g with fps := s.storedFlags w }).done

end Sys2Proof.Machine
end

