-- ==== Sys2Proof/Machine/VectorFloat.lean ====
section
/-!
DEFINITION. Vector floating-point words: F32A, F32B, F64A, F64B, BF2 (R170 to R178) and VFCMP (R179, R180).
-/

namespace Sys2Proof.Machine

namespace State

/-- Lane `l` of a register, and of a pair, as a number. -/
def f32At (s : State) (r : VReg) (l : Nat) : Nat := (s.readV r l).toNat
def f64At (s : State) (r : VReg) (l : Nat) : Nat := (s.readVPair r l).toNat

/-- Element `k` of a lane of packed BF16 (R163). -/
def bf16At (s : State) (r : VReg) (k l : Nat) : Nat := (s.readV r l).toNat / 65536 ^ k % 65536

/-- A packed BF16 word: both elements computed apart, their flags ORed (R178). -/
def floatHalves (s : State) (d : VReg) (f : Nat → Nat → Nat × Flags) : State :=
  s.floatWord d fun l =>
    let x := f 0 l
    let y := f 1 l
    (x.1 + 65536 * y.1, x.2 ||| y.2)

end State

open State

/-! ## F32A -/

/-- VFADD_F32 (R172). -/
def execVfaddF32 (d a b : VReg) (s : State) : Result :=
  s.issue (.vfaddF32 d a b) fun s => s.floatWord d fun l => Bin.f32.addOp s.rounding (s.f32At a l) (s.f32At b l)

/-- VFSUB_F32 (R172). -/
def execVfsubF32 (d a b : VReg) (s : State) : Result :=
  s.issue (.vfsubF32 d a b) fun s => s.floatWord d fun l => Bin.f32.subOp s.rounding (s.f32At a l) (s.f32At b l)

/-- VFMUL_F32 (R172). -/
def execVfmulF32 (d a b : VReg) (s : State) : Result :=
  s.issue (.vfmulF32 d a b) fun s => s.floatWord d fun l => Bin.f32.mulOp s.rounding (s.f32At a l) (s.f32At b l)

/-- VFFMA_F32 (R172). -/
def execVffmaF32 (d a b : VReg) (s : State) : Result :=
  s.issue (.vffmaF32 d a b) fun s => s.floatWord d fun l => Bin.f32.fmaOp s.rounding false (s.f32At a l) (s.f32At b l) (s.f32At d l)

/-- VFFNMA_F32 (R172). -/
def execVffnmaF32 (d a b : VReg) (s : State) : Result :=
  s.issue (.vffnmaF32 d a b) fun s => s.floatWord d fun l => Bin.f32.fmaOp s.rounding true (s.f32At a l) (s.f32At b l) (s.f32At d l)

/-- VFMIN_F32 (R173). -/
def execVfminF32 (d a b : VReg) (s : State) : Result :=
  s.issue (.vfminF32 d a b) fun s => s.floatWord d fun l => Bin.f32.pickOp false (s.f32At a l) (s.f32At b l)

/-- VFMAX_F32 (R173). -/
def execVfmaxF32 (d a b : VReg) (s : State) : Result :=
  s.issue (.vfmaxF32 d a b) fun s => s.floatWord d fun l => Bin.f32.pickOp true (s.f32At a l) (s.f32At b l)

/-- VFABS_F32 (R173). -/
def execVfabsF32 (d a : VReg) (s : State) : Result :=
  s.issue (.vfabsF32 d a) fun s => s.floatWord d fun l => (Bin.f32.absOp (s.f32At a l), 0)

/-- VFNEG_F32 (R173). -/
def execVfnegF32 (d a : VReg) (s : State) : Result :=
  s.issue (.vfnegF32 d a) fun s => s.floatWord d fun l => (Bin.f32.negOp (s.f32At a l), 0)

/-- VFCOPYSIGN_F32 (R173). -/
def execVfcopysignF32 (d a b : VReg) (s : State) : Result :=
  s.issue (.vfcopysignF32 d a b) fun s => s.floatWord d fun l => (Bin.f32.copysignOp (s.f32At a l) (s.f32At b l), 0)

/-- VFRINT_F32 (R172). -/
def execVfrintF32 (d a : VReg) (s : State) : Result :=
  s.issue (.vfrintF32 d a) fun s => s.floatWord d fun l => Bin.f32.rintOp s.rounding (s.f32At a l)

/-! ## F64A -/

/-- VFADD_F64 (R172). -/
def execVfaddF64 (d a b : VReg) (s : State) : Result :=
  s.issue (.vfaddF64 d a b) fun s => s.floatPair d fun l => Bin.f64.addOp s.rounding (s.f64At a l) (s.f64At b l)

/-- VFSUB_F64 (R172). -/
def execVfsubF64 (d a b : VReg) (s : State) : Result :=
  s.issue (.vfsubF64 d a b) fun s => s.floatPair d fun l => Bin.f64.subOp s.rounding (s.f64At a l) (s.f64At b l)

/-- VFMUL_F64 (R172). -/
def execVfmulF64 (d a b : VReg) (s : State) : Result :=
  s.issue (.vfmulF64 d a b) fun s => s.floatPair d fun l => Bin.f64.mulOp s.rounding (s.f64At a l) (s.f64At b l)

/-- VFFMA_F64 (R172). -/
def execVffmaF64 (d a b : VReg) (s : State) : Result :=
  s.issue (.vffmaF64 d a b) fun s => s.floatPair d fun l => Bin.f64.fmaOp s.rounding false (s.f64At a l) (s.f64At b l) (s.f64At d l)

/-- VFFNMA_F64 (R172). -/
def execVffnmaF64 (d a b : VReg) (s : State) : Result :=
  s.issue (.vffnmaF64 d a b) fun s => s.floatPair d fun l => Bin.f64.fmaOp s.rounding true (s.f64At a l) (s.f64At b l) (s.f64At d l)

/-- VFMIN_F64 (R173). -/
def execVfminF64 (d a b : VReg) (s : State) : Result :=
  s.issue (.vfminF64 d a b) fun s => s.floatPair d fun l => Bin.f64.pickOp false (s.f64At a l) (s.f64At b l)

/-- VFMAX_F64 (R173). -/
def execVfmaxF64 (d a b : VReg) (s : State) : Result :=
  s.issue (.vfmaxF64 d a b) fun s => s.floatPair d fun l => Bin.f64.pickOp true (s.f64At a l) (s.f64At b l)

/-- VFABS_F64 (R173). -/
def execVfabsF64 (d a : VReg) (s : State) : Result :=
  s.issue (.vfabsF64 d a) fun s => s.floatPair d fun l => (Bin.f64.absOp (s.f64At a l), 0)

/-- VFNEG_F64 (R173). -/
def execVfnegF64 (d a : VReg) (s : State) : Result :=
  s.issue (.vfnegF64 d a) fun s => s.floatPair d fun l => (Bin.f64.negOp (s.f64At a l), 0)

/-- VFCOPYSIGN_F64 (R173). -/
def execVfcopysignF64 (d a b : VReg) (s : State) : Result :=
  s.issue (.vfcopysignF64 d a b) fun s => s.floatPair d fun l => (Bin.f64.copysignOp (s.f64At a l) (s.f64At b l), 0)

/-- VFRINT_F64 (R172). -/
def execVfrintF64 (d a : VReg) (s : State) : Result :=
  s.issue (.vfrintF64 d a) fun s => s.floatPair d fun l => Bin.f64.rintOp s.rounding (s.f64At a l)

/-! ## F32B -/

/-- VFDIV_F32 (R174). -/
def execVfdivF32 (d a b : VReg) (s : State) : Result :=
  s.issue (.vfdivF32 d a b) fun s => s.floatWord d fun l => Bin.f32.divOp s.rounding (s.f32At a l) (s.f32At b l)

/-- VFSQRT_F32 (R174). -/
def execVfsqrtF32 (d a : VReg) (s : State) : Result :=
  s.issue (.vfsqrtF32 d a) fun s => s.floatWord d fun l => Bin.f32.sqrtOp s.rounding (s.f32At a l)

/-- VFRCP_F32 (R176). -/
def execVfrcpF32 (d a : VReg) (s : State) : Result :=
  s.issue (.vfrcpF32 d a) fun s => s.floatWord d fun l => Bin.f32.approxOp .rcp (s.f32At a l)

/-- VFRSQ_F32 (R176). -/
def execVfrsqF32 (d a : VReg) (s : State) : Result :=
  s.issue (.vfrsqF32 d a) fun s => s.floatWord d fun l => Bin.f32.approxOp .rsq (s.f32At a l)

/-- VFEXP2_F32 (R176). -/
def execVfexp2F32 (d a : VReg) (s : State) : Result :=
  s.issue (.vfexp2F32 d a) fun s => s.floatWord d fun l => Bin.f32.approxOp .exp2 (s.f32At a l)

/-- VFLOG2_F32 (R176). -/
def execVflog2F32 (d a : VReg) (s : State) : Result :=
  s.issue (.vflog2F32 d a) fun s => s.floatWord d fun l => Bin.f32.approxOp .log2 (s.f32At a l)

/-- VFSIN_F32 (R176). -/
def execVfsinF32 (d a : VReg) (s : State) : Result :=
  s.issue (.vfsinF32 d a) fun s => s.floatWord d fun l => Bin.f32.approxOp .sin (s.f32At a l)

/-- VFCOS_F32 (R176). -/
def execVfcosF32 (d a : VReg) (s : State) : Result :=
  s.issue (.vfcosF32 d a) fun s => s.floatWord d fun l => Bin.f32.approxOp .cos (s.f32At a l)

/-- VFTANH_F32 (R176). -/
def execVftanhF32 (d a : VReg) (s : State) : Result :=
  s.issue (.vftanhF32 d a) fun s => s.floatWord d fun l => Bin.f32.approxOp .tanh (s.f32At a l)

/-! ## F64B -/

/-- VFDIV_F64 (R174). -/
def execVfdivF64 (d a b : VReg) (s : State) : Result :=
  s.issue (.vfdivF64 d a b) fun s => s.floatPair d fun l => Bin.f64.divOp s.rounding (s.f64At a l) (s.f64At b l)

/-- VFSQRT_F64 (R174). -/
def execVfsqrtF64 (d a : VReg) (s : State) : Result :=
  s.issue (.vfsqrtF64 d a) fun s => s.floatPair d fun l => Bin.f64.sqrtOp s.rounding (s.f64At a l)

/-- VFRCP_F64 (R176). -/
def execVfrcpF64 (d a : VReg) (s : State) : Result :=
  s.issue (.vfrcpF64 d a) fun s => s.floatPair d fun l => Bin.f64.approxOp .rcp (s.f64At a l)

/-- VFRSQ_F64 (R176). -/
def execVfrsqF64 (d a : VReg) (s : State) : Result :=
  s.issue (.vfrsqF64 d a) fun s => s.floatPair d fun l => Bin.f64.approxOp .rsq (s.f64At a l)

/-! ## BF2 (R178) -/

/-- VFADD_BF16 (R178). -/
def execVfaddBf16 (d a b : VReg) (s : State) : Result :=
  s.issue (.vfaddBf16 d a b) fun s => s.floatHalves d fun k l => Bin.bf16.addOp s.rounding (s.bf16At a k l) (s.bf16At b k l)

/-- VFSUB_BF16 (R178). -/
def execVfsubBf16 (d a b : VReg) (s : State) : Result :=
  s.issue (.vfsubBf16 d a b) fun s => s.floatHalves d fun k l => Bin.bf16.subOp s.rounding (s.bf16At a k l) (s.bf16At b k l)

/-- VFMUL_BF16 (R178). -/
def execVfmulBf16 (d a b : VReg) (s : State) : Result :=
  s.issue (.vfmulBf16 d a b) fun s => s.floatHalves d fun k l => Bin.bf16.mulOp s.rounding (s.bf16At a k l) (s.bf16At b k l)

/-- VFFMA_BF16 (R178). -/
def execVffmaBf16 (d a b : VReg) (s : State) : Result :=
  s.issue (.vffmaBf16 d a b) fun s => s.floatHalves d fun k l => Bin.bf16.fmaOp s.rounding false (s.bf16At a k l) (s.bf16At b k l) (s.bf16At d k l)

/-- VFFNMA_BF16 (R178). -/
def execVffnmaBf16 (d a b : VReg) (s : State) : Result :=
  s.issue (.vffnmaBf16 d a b) fun s => s.floatHalves d fun k l => Bin.bf16.fmaOp s.rounding true (s.bf16At a k l) (s.bf16At b k l) (s.bf16At d k l)

/-- VFMIN_BF16 (R178). -/
def execVfminBf16 (d a b : VReg) (s : State) : Result :=
  s.issue (.vfminBf16 d a b) fun s => s.floatHalves d fun k l => Bin.bf16.pickOp false (s.bf16At a k l) (s.bf16At b k l)

/-- VFMAX_BF16 (R178). -/
def execVfmaxBf16 (d a b : VReg) (s : State) : Result :=
  s.issue (.vfmaxBf16 d a b) fun s => s.floatHalves d fun k l => Bin.bf16.pickOp true (s.bf16At a k l) (s.bf16At b k l)

/-- VFABS_BF16 (R178). -/
def execVfabsBf16 (d a : VReg) (s : State) : Result :=
  s.issue (.vfabsBf16 d a) fun s => s.floatHalves d fun k l => (Bin.bf16.absOp (s.bf16At a k l), 0)

/-- VFNEG_BF16 (R178). -/
def execVfnegBf16 (d a : VReg) (s : State) : Result :=
  s.issue (.vfnegBf16 d a) fun s => s.floatHalves d fun k l => (Bin.bf16.negOp (s.bf16At a k l), 0)

/-! ## FCMP (R179, R180) -/

/-- One lane's comparison (R180). -/
def State.floatCompare (s : State) (a b : VReg) (cc : FloatCond) (ty : FloatType) (l : Nat) : Bool × Flags :=
  match ty with
  | .f32 => Bin.f32.compare cc (s.f32At a l) (s.f32At b l)
  | .f64 => Bin.f64.compare cc (s.f64At a l) (s.f64At b l)
  | .bf16lo => Bin.bf16.compare cc (s.bf16At a 0 l) (s.bf16At b 0 l)
  | .bf16hi => Bin.bf16.compare cc (s.bf16At a 1 l) (s.bf16At b 1 l)

/-- VFCMP (R180). -/
def execVfcmp (d : PReg) (a b : VReg) (cc : FloatCond) (ty : FloatType) (s : State) : Result :=
  s.issue (.vfcmp d a b cc ty) fun s =>
    let r := s.floatCompare a b cc ty
    ((s.writeP d fun l => (r l).1).raiseFlags (orFlags s.active fun l => (r l).2)).done

end Sys2Proof.Machine
end

