-- ==== Sys2Proof/Machine/VectorInt.lean ====
section
/-!
DEFINITION. Vector integer, predicate and cross-lane words (R151 to R160).
-/

namespace Sys2Proof

open Machine

/-! ## Conditions, sub-groups, operations (R155, R157) -/

/-- A comparison of two integers (R155). -/
def IntCond.holds (c : IntCond) (a b : Int) : Bool :=
  match c with
  | .eq => a == b
  | .ne => a != b
  | .lt => a < b
  | .le => a ≤ b
  | .gt => b < a
  | .ge => b ≤ a

/-- Lanes of a sub-group (R157). -/
def SubWidth.lanes : SubWidth → Nat
  | .w96 => 96 | .w32 => 32 | .w16 => 16 | .w8 => 8 | .w4 => 4 | .w2 => 2

/-- First position of a lane's sub-group (R157). -/
def SubWidth.base (w : SubWidth) (l : Nat) : Nat := w.lanes * (l / w.lanes)

/-- The identity of an operation (R157). -/
def LaneOp.identity : LaneOp → Word
  | .addI32 | .maxN32 | .orB32 | .xorB32 => 0
  | .minI32 => 0x7FFFFFFF
  | .maxI32 => 0x80000000
  | .minN32 | .andB32 => 0xFFFFFFFF

/-- An operation of the scans and the reduction (R157). -/
def LaneOp.apply (o : LaneOp) (a b : Word) : Word :=
  match o with
  | .addI32 => a + b
  | .minI32 => minI a b
  | .maxI32 => maxI a b
  | .minN32 => minN a b
  | .maxN32 => maxN a b
  | .andB32 => a &&& b
  | .orB32 => a ||| b
  | .xorB32 => a ^^^ b

end Sys2Proof

namespace Sys2Proof.Machine

/-! ## Lane arithmetic (R152) -/

/-- |SExt(a) − SExt(b)| modulo 2^32 (R152). -/
def absDiff (a b : Word) : Word := BitVec.ofInt 32 (Int.natAbs (a.toInt - b.toInt))

/-- A value clamped to the signed range of 32 bits (R152). -/
def clampI (x : Int) : Word := BitVec.ofInt 32 (max (-2147483648) (min 2147483647 x))

/-- A value clamped to the unsigned range of 32 bits (R152). -/
def clampN (x : Int) : Word := BitVec.ofInt 32 (max 0 (min 4294967295 x))

/-- Position of a bit field: bits 4:0 (R152). -/
def fieldPos (b : Word) : Nat := (b.extractLsb' 0 5).toNat

/-- Length n of a bit field: min(Bits(b, 13, 8), 32) cut at bit 31 (R152). -/
def fieldLen (b : Word) : Nat := min (min (b.extractLsb' 8 6).toNat 32) (32 - fieldPos b)

/-- A word with ones in its `n` low bits. -/
def lowOnes (n : Nat) : Word := BitVec.ofNat 32 (2 ^ n - 1)

/-- The field zero-extended; 0 when it is empty (R152). -/
def bfeN (a b : Word) : Word := (a >>> fieldPos b) &&& lowOnes (fieldLen b)

/-- The field sign-extended; 0 when it is empty (R152). -/
def bfeI (a b : Word) : Word :=
  if fieldLen b = 0 then 0
  else (a <<< (32 - fieldLen b - fieldPos b)).sshiftRight (32 - fieldLen b)

/-- The word `d` with the field replaced by the low bits of `a` (R152). -/
def bfi (d a b : Word) : Word :=
  let m := lowOnes (fieldLen b) <<< fieldPos b
  (d &&& ~~~ m) ||| ((a <<< fieldPos b) &&& m)

/-- Number of one bits (R152). -/
def popCount (a : Word) : Word := BitVec.ofNat 32 ((List.range 32).filter fun i => a.getLsbD i).length

/-- Number of leading zero bits (R152). -/
def leadingZeros (a : Word) : Word :=
  BitVec.ofNat 32 (((List.range 32).find? fun i => a.getLsbD (31 - i)).getD 32)

/-- Bit i moved to bit 31 − i (R152). -/
def bitReverse (a : Word) : Word := a.reverse

namespace State

/-- A word of one result register: `f` of each active lane (R146). -/
def vectorWord (s : State) (d : VReg) (f : Nat → Word) : State := (s.writeV d f).done

/-- A word of a result pair. -/
def vectorPair (s : State) (d : VReg) (f : Nat → DWord) : State := (s.writeVPair d f).done

/-- A word of a predicate result. -/
def predWord (s : State) (d : PReg) (f : Nat → Bool) : State := (s.writeP d f).done

end State

open State

/-! ## VINT0, VINT1 (R151, R152) -/

/-- VAddI32 (R152). -/
def execVaddI32 (d a b : VReg) (s : State) : Result :=
  s.issue (.vaddI32 d a b) fun s => s.vectorWord d fun l => (s.readV a l) + (s.readV b l)

/-- VSubI32 (R152). -/
def execVsubI32 (d a b : VReg) (s : State) : Result :=
  s.issue (.vsubI32 d a b) fun s => s.vectorWord d fun l => (s.readV a l) - (s.readV b l)

/-- VMulI32 (R152). -/
def execVmulI32 (d a b : VReg) (s : State) : Result :=
  s.issue (.vmulI32 d a b) fun s => s.vectorWord d fun l => (s.readV a l) * (s.readV b l)

/-- VMulhI32 (R152). -/
def execVmulhI32 (d a b : VReg) (s : State) : Result :=
  s.issue (.vmulhI32 d a b) fun s => s.vectorWord d fun l => mulhI (s.readV a l) (s.readV b l)

/-- VMulhN32 (R152). -/
def execVmulhN32 (d a b : VReg) (s : State) : Result :=
  s.issue (.vmulhN32 d a b) fun s => s.vectorWord d fun l => mulhN (s.readV a l) (s.readV b l)

/-- VMinI32 (R152). -/
def execVminI32 (d a b : VReg) (s : State) : Result :=
  s.issue (.vminI32 d a b) fun s => s.vectorWord d fun l => minI (s.readV a l) (s.readV b l)

/-- VMaxI32 (R152). -/
def execVmaxI32 (d a b : VReg) (s : State) : Result :=
  s.issue (.vmaxI32 d a b) fun s => s.vectorWord d fun l => maxI (s.readV a l) (s.readV b l)

/-- VMinN32 (R152). -/
def execVminN32 (d a b : VReg) (s : State) : Result :=
  s.issue (.vminN32 d a b) fun s => s.vectorWord d fun l => minN (s.readV a l) (s.readV b l)

/-- VMaxN32 (R152). -/
def execVmaxN32 (d a b : VReg) (s : State) : Result :=
  s.issue (.vmaxN32 d a b) fun s => s.vectorWord d fun l => maxN (s.readV a l) (s.readV b l)

/-- VAndB32 (R152). -/
def execVandB32 (d a b : VReg) (s : State) : Result :=
  s.issue (.vandB32 d a b) fun s => s.vectorWord d fun l => (s.readV a l) &&& (s.readV b l)

/-- VOrB32 (R152). -/
def execVorB32 (d a b : VReg) (s : State) : Result :=
  s.issue (.vorB32 d a b) fun s => s.vectorWord d fun l => (s.readV a l) ||| (s.readV b l)

/-- VXorB32 (R152). -/
def execVxorB32 (d a b : VReg) (s : State) : Result :=
  s.issue (.vxorB32 d a b) fun s => s.vectorWord d fun l => (s.readV a l) ^^^ (s.readV b l)

/-- VShlB32 (R152). -/
def execVshlB32 (d a b : VReg) (s : State) : Result :=
  s.issue (.vshlB32 d a b) fun s => s.vectorWord d fun l => (s.readV a l) <<< count6 (s.readV b l)

/-- VShrN32 (R152). -/
def execVshrN32 (d a b : VReg) (s : State) : Result :=
  s.issue (.vshrN32 d a b) fun s => s.vectorWord d fun l => (s.readV a l) >>> count6 (s.readV b l)

/-- VShrI32 (R152). -/
def execVshrI32 (d a b : VReg) (s : State) : Result :=
  s.issue (.vshrI32 d a b) fun s => s.vectorWord d fun l => (s.readV a l).sshiftRight (count6 (s.readV b l))

/-- VAbsdI32 (R152). -/
def execVabsdI32 (d a b : VReg) (s : State) : Result :=
  s.issue (.vabsdI32 d a b) fun s => s.vectorWord d fun l => absDiff (s.readV a l) (s.readV b l)

/-- VAddsI32 (R152). -/
def execVaddsI32 (d a b : VReg) (s : State) : Result :=
  s.issue (.vaddsI32 d a b) fun s => s.vectorWord d fun l => clampI ((s.readV a l).toInt + (s.readV b l).toInt)

/-- VSubsI32 (R152). -/
def execVsubsI32 (d a b : VReg) (s : State) : Result :=
  s.issue (.vsubsI32 d a b) fun s => s.vectorWord d fun l => clampI ((s.readV a l).toInt - (s.readV b l).toInt)

/-- VAddsN32 (R152). -/
def execVaddsN32 (d a b : VReg) (s : State) : Result :=
  s.issue (.vaddsN32 d a b) fun s => s.vectorWord d fun l => clampN ((s.readV a l).toNat + (s.readV b l).toNat)

/-- VSubsN32 (R152). -/
def execVsubsN32 (d a b : VReg) (s : State) : Result :=
  s.issue (.vsubsN32 d a b) fun s => s.vectorWord d fun l => clampN (((s.readV a l).toNat : Int) - (s.readV b l).toNat)

/-- VBfeN32 (R152). -/
def execVbfeN32 (d a b : VReg) (s : State) : Result :=
  s.issue (.vbfeN32 d a b) fun s => s.vectorWord d fun l => bfeN (s.readV a l) (s.readV b l)

/-- VBfeI32 (R152). -/
def execVbfeI32 (d a b : VReg) (s : State) : Result :=
  s.issue (.vbfeI32 d a b) fun s => s.vectorWord d fun l => bfeI (s.readV a l) (s.readV b l)

/-- VBFI_B32: VD is a source too (R152). -/
def execVbfiB32 (d a b : VReg) (s : State) : Result :=
  s.issue (.vbfiB32 d a b) fun s => s.vectorWord d fun l => bfi (s.readV d l) (s.readV a l) (s.readV b l)

/-- VPopcB32 (R152). -/
def execVpopcB32 (d a : VReg) (s : State) : Result :=
  s.issue (.vpopcB32 d a) fun s => s.vectorWord d fun l => popCount (s.readV a l)

/-- VClzB32 (R152). -/
def execVclzB32 (d a : VReg) (s : State) : Result :=
  s.issue (.vclzB32 d a) fun s => s.vectorWord d fun l => leadingZeros (s.readV a l)

/-- VBrevB32 (R152). -/
def execVbrevB32 (d a : VReg) (s : State) : Result :=
  s.issue (.vbrevB32 d a) fun s => s.vectorWord d fun l => bitReverse (s.readV a l)

/-- VAddI64 (R152). -/
def execVaddI64 (d a b : VReg) (s : State) : Result :=
  s.issue (.vaddI64 d a b) fun s => s.vectorPair d fun l => (s.readVPair a l) + (s.readVPair b l)

/-- VSubI64 (R152). -/
def execVsubI64 (d a b : VReg) (s : State) : Result :=
  s.issue (.vsubI64 d a b) fun s => s.vectorPair d fun l => (s.readVPair a l) - (s.readVPair b l)

/-- VShlB64 (R152). -/
def execVshlB64 (d a b : VReg) (s : State) : Result :=
  s.issue (.vshlB64 d a b) fun s => s.vectorPair d fun l => (s.readVPair a l) <<< count7 (s.readV b l)

/-- VShrN64 (R152). -/
def execVshrN64 (d a b : VReg) (s : State) : Result :=
  s.issue (.vshrN64 d a b) fun s => s.vectorPair d fun l => (s.readVPair a l) >>> count7 (s.readV b l)

/-- VShrI64 (R152). -/
def execVshrI64 (d a b : VReg) (s : State) : Result :=
  s.issue (.vshrI64 d a b) fun s => s.vectorPair d fun l => (s.readVPair a l).sshiftRight (count7 (s.readV b l))

/-! ## VIMM (R153) -/

/-- VaddI32, immediate (R153). -/
def execVaddI32Vi (d a : VReg) (imm : BitVec 9) (s : State) : Result :=
  s.issue (.vaddI32Vi d a imm) fun s => s.vectorWord d fun l => s.readV a l + imm.signExtend 32

/-- VandB32, immediate (R153). -/
def execVandB32Vi (d a : VReg) (imm : BitVec 9) (s : State) : Result :=
  s.issue (.vandB32Vi d a imm) fun s => s.vectorWord d fun l => s.readV a l &&& imm.signExtend 32

/-- VshlB32, immediate (R153). -/
def execVshlB32Vi (d a : VReg) (imm : BitVec 5) (s : State) : Result :=
  s.issue (.vshlB32Vi d a imm) fun s => s.vectorWord d fun l => s.readV a l <<< imm.toNat

/-- VshrN32, immediate (R153). -/
def execVshrN32Vi (d a : VReg) (imm : BitVec 5) (s : State) : Result :=
  s.issue (.vshrN32Vi d a imm) fun s => s.vectorWord d fun l => s.readV a l >>> imm.toNat

/-! ## VSCAL (R154) -/

/-- VAddI32 with a scalar (R154). -/
def execVaddI32Vs (d a : VReg) (sr : SReg) (s : State) : Result :=
  s.issue (.vaddI32Vs d a sr) fun s => s.vectorWord d fun l => (s.readV a l) + (s.readS sr)

/-- VSubI32 with a scalar (R154). -/
def execVsubI32Vs (d a : VReg) (sr : SReg) (s : State) : Result :=
  s.issue (.vsubI32Vs d a sr) fun s => s.vectorWord d fun l => (s.readV a l) - (s.readS sr)

/-- VMulI32 with a scalar (R154). -/
def execVmulI32Vs (d a : VReg) (sr : SReg) (s : State) : Result :=
  s.issue (.vmulI32Vs d a sr) fun s => s.vectorWord d fun l => (s.readV a l) * (s.readS sr)

/-- VMulhI32 with a scalar (R154). -/
def execVmulhI32Vs (d a : VReg) (sr : SReg) (s : State) : Result :=
  s.issue (.vmulhI32Vs d a sr) fun s => s.vectorWord d fun l => mulhI (s.readV a l) (s.readS sr)

/-- VMulhN32 with a scalar (R154). -/
def execVmulhN32Vs (d a : VReg) (sr : SReg) (s : State) : Result :=
  s.issue (.vmulhN32Vs d a sr) fun s => s.vectorWord d fun l => mulhN (s.readV a l) (s.readS sr)

/-- VMinI32 with a scalar (R154). -/
def execVminI32Vs (d a : VReg) (sr : SReg) (s : State) : Result :=
  s.issue (.vminI32Vs d a sr) fun s => s.vectorWord d fun l => minI (s.readV a l) (s.readS sr)

/-- VMaxI32 with a scalar (R154). -/
def execVmaxI32Vs (d a : VReg) (sr : SReg) (s : State) : Result :=
  s.issue (.vmaxI32Vs d a sr) fun s => s.vectorWord d fun l => maxI (s.readV a l) (s.readS sr)

/-- VMinN32 with a scalar (R154). -/
def execVminN32Vs (d a : VReg) (sr : SReg) (s : State) : Result :=
  s.issue (.vminN32Vs d a sr) fun s => s.vectorWord d fun l => minN (s.readV a l) (s.readS sr)

/-- VMaxN32 with a scalar (R154). -/
def execVmaxN32Vs (d a : VReg) (sr : SReg) (s : State) : Result :=
  s.issue (.vmaxN32Vs d a sr) fun s => s.vectorWord d fun l => maxN (s.readV a l) (s.readS sr)

/-- VAndB32 with a scalar (R154). -/
def execVandB32Vs (d a : VReg) (sr : SReg) (s : State) : Result :=
  s.issue (.vandB32Vs d a sr) fun s => s.vectorWord d fun l => (s.readV a l) &&& (s.readS sr)

/-- VOrB32 with a scalar (R154). -/
def execVorB32Vs (d a : VReg) (sr : SReg) (s : State) : Result :=
  s.issue (.vorB32Vs d a sr) fun s => s.vectorWord d fun l => (s.readV a l) ||| (s.readS sr)

/-- VXorB32 with a scalar (R154). -/
def execVxorB32Vs (d a : VReg) (sr : SReg) (s : State) : Result :=
  s.issue (.vxorB32Vs d a sr) fun s => s.vectorWord d fun l => (s.readV a l) ^^^ (s.readS sr)

/-- VShlB32 with a scalar (R154). -/
def execVshlB32Vs (d a : VReg) (sr : SReg) (s : State) : Result :=
  s.issue (.vshlB32Vs d a sr) fun s => s.vectorWord d fun l => (s.readV a l) <<< count6 (s.readS sr)

/-- VShrN32 with a scalar (R154). -/
def execVshrN32Vs (d a : VReg) (sr : SReg) (s : State) : Result :=
  s.issue (.vshrN32Vs d a sr) fun s => s.vectorWord d fun l => (s.readV a l) >>> count6 (s.readS sr)

/-- VShrI32 with a scalar (R154). -/
def execVshrI32Vs (d a : VReg) (sr : SReg) (s : State) : Result :=
  s.issue (.vshrI32Vs d a sr) fun s => s.vectorWord d fun l => (s.readV a l).sshiftRight (count6 (s.readS sr))

/-- VAbsdI32 with a scalar (R154). -/
def execVabsdI32Vs (d a : VReg) (sr : SReg) (s : State) : Result :=
  s.issue (.vabsdI32Vs d a sr) fun s => s.vectorWord d fun l => absDiff (s.readV a l) (s.readS sr)

/-- VAddsI32 with a scalar (R154). -/
def execVaddsI32Vs (d a : VReg) (sr : SReg) (s : State) : Result :=
  s.issue (.vaddsI32Vs d a sr) fun s => s.vectorWord d fun l => clampI ((s.readV a l).toInt + (s.readS sr).toInt)

/-- VSubsI32 with a scalar (R154). -/
def execVsubsI32Vs (d a : VReg) (sr : SReg) (s : State) : Result :=
  s.issue (.vsubsI32Vs d a sr) fun s => s.vectorWord d fun l => clampI ((s.readV a l).toInt - (s.readS sr).toInt)

/-- VAddsN32 with a scalar (R154). -/
def execVaddsN32Vs (d a : VReg) (sr : SReg) (s : State) : Result :=
  s.issue (.vaddsN32Vs d a sr) fun s => s.vectorWord d fun l => clampN ((s.readV a l).toNat + (s.readS sr).toNat)

/-- VSubsN32 with a scalar (R154). -/
def execVsubsN32Vs (d a : VReg) (sr : SReg) (s : State) : Result :=
  s.issue (.vsubsN32Vs d a sr) fun s => s.vectorWord d fun l => clampN (((s.readV a l).toNat : Int) - (s.readS sr).toNat)

/-- VBfeN32 with a scalar (R154). -/
def execVbfeN32Vs (d a : VReg) (sr : SReg) (s : State) : Result :=
  s.issue (.vbfeN32Vs d a sr) fun s => s.vectorWord d fun l => bfeN (s.readV a l) (s.readS sr)

/-- VBfeI32 with a scalar (R154). -/
def execVbfeI32Vs (d a : VReg) (sr : SReg) (s : State) : Result :=
  s.issue (.vbfeI32Vs d a sr) fun s => s.vectorWord d fun l => bfeI (s.readV a l) (s.readS sr)

/-- VBFI_B32 with a scalar (R154). -/
def execVbfiB32Vs (d a : VReg) (sr : SReg) (s : State) : Result :=
  s.issue (.vbfiB32Vs d a sr) fun s => s.vectorWord d fun l => bfi (s.readV d l) (s.readV a l) (s.readS sr)

/-- VAddI64 with a scalar (R154). -/
def execVaddI64Vs (d a : VReg) (sr : SReg) (s : State) : Result :=
  s.issue (.vaddI64Vs d a sr) fun s => s.vectorPair d fun l => (s.readVPair a l) + (s.readPair sr)

/-- VSubI64 with a scalar (R154). -/
def execVsubI64Vs (d a : VReg) (sr : SReg) (s : State) : Result :=
  s.issue (.vsubI64Vs d a sr) fun s => s.vectorPair d fun l => (s.readVPair a l) - (s.readPair sr)

/-- VShlB64 with a scalar (R154). -/
def execVshlB64Vs (d a : VReg) (sr : SReg) (s : State) : Result :=
  s.issue (.vshlB64Vs d a sr) fun s => s.vectorPair d fun l => (s.readVPair a l) <<< count7 (s.readS sr)

/-- VShrN64 with a scalar (R154). -/
def execVshrN64Vs (d a : VReg) (sr : SReg) (s : State) : Result :=
  s.issue (.vshrN64Vs d a sr) fun s => s.vectorPair d fun l => (s.readVPair a l) >>> count7 (s.readS sr)

/-- VShrI64 with a scalar (R154). -/
def execVshrI64Vs (d a : VReg) (sr : SReg) (s : State) : Result :=
  s.issue (.vshrI64Vs d a sr) fun s => s.vectorPair d fun l => (s.readVPair a l).sshiftRight (count7 (s.readS sr))

/-- VBCAST_B32 (R154). -/
def execVbcastB32 (d : VReg) (sr : SReg) (s : State) : Result :=
  s.issue (.vbcastB32 d sr) fun s => s.vectorWord d fun _ => s.readS sr

/-! ## VCMP and PRED (R155, R156) -/

/-- A source of VCMP as an integer (R155). -/
def State.intValue (s : State) (ty : IntType) (r : VReg) (l : Nat) : Int :=
  match ty with
  | .i32 => (s.readV r l).toInt
  | .n32 => (s.readV r l).toNat
  | .i64 => (s.readVPair r l).toInt
  | .n64 => (s.readVPair r l).toNat

/-- VCMP (R155). -/
def execVcmp (d : PReg) (a b : VReg) (cc : IntCond) (ty : IntType) (s : State) : Result :=
  s.issue (.vcmp d a b cc ty) fun s => s.predWord d fun l => cc.holds (s.intValue ty a l) (s.intValue ty b l)

/-- PAND (R156). -/
def execPand (d a b : PReg) (s : State) : Result :=
  s.issue (.pand d a b) fun s => s.predWord d fun l => (s.readP a).getLsbD l && (s.readP b).getLsbD l

/-- POR (R156). -/
def execPor (d a b : PReg) (s : State) : Result :=
  s.issue (.por d a b) fun s => s.predWord d fun l => (s.readP a).getLsbD l || (s.readP b).getLsbD l

/-- PXOR (R156). -/
def execPxor (d a b : PReg) (s : State) : Result :=
  s.issue (.pxor d a b) fun s => s.predWord d fun l => (s.readP a).getLsbD l ^^ (s.readP b).getLsbD l

/-- PNOT (R156). -/
def execPnot (d a : PReg) (s : State) : Result :=
  s.issue (.pnot d a) fun s => s.predWord d fun l => !(s.readP a).getLsbD l

/-- PMOV (R156). -/
def execPmov (d a : PReg) (s : State) : Result :=
  s.issue (.pmov d a) fun s => s.predWord d fun l => (s.readP a).getLsbD l

/-- VFROMP (R156). -/
def execVfromp (d : VReg) (a : PReg) (s : State) : Result :=
  s.issue (.vfromp d a) fun s => s.vectorWord d fun l => boolWord ((s.readP a).getLsbD l)

/-- VTOP (R156). -/
def execVtop (d : PReg) (a : VReg) (s : State) : Result :=
  s.issue (.vtop d a) fun s => s.predWord d fun l => s.readV a l != 0

/-! ## XLANE (R157 to R160) -/

/-- The shuffles (R158). -/
inductive Shuffle where
  | idx | up | down | xor
deriving DecidableEq, Repr

/-- j of R158: `i` the lane's index in its sub-group, `x` its selector. -/
def Shuffle.select (k : Shuffle) (i x : Nat) : Int :=
  match k with
  | .idx => x
  | .up => (i : Int) - x
  | .down => i + x
  | .xor => (i ^^^ x : Nat)

/-- The source position of a lane, none where it lies outside the sub-group (R158). -/
def shuffleFrom (k : Shuffle) (w : SubWidth) (l x : Nat) : Option Nat :=
  let j := k.select (l - w.base l) x
  if 0 ≤ j && j < w.lanes then some (w.base l + j.toNat) else none

/-- SHFL's effect (R158). -/
def State.shuffle (s : State) (k : Shuffle) (d a : VReg) (p : PReg) (w : SubWidth) : State :=
  let src := fun l => shuffleFrom k w l (s.readV (a + 1) l).toNat
  ((s.writeV d fun l => s.readV a ((src l).getD l)).writeP p fun l => (src l).isSome).done

/-- SHFL_IDX (R158). -/
def execShflIdx (d a : VReg) (p : PReg) (w : SubWidth) (s : State) : Result :=
  s.issue (.shflIdx d a p w) fun s => s.shuffle .idx d a p w

/-- SHFL_UP (R158). -/
def execShflUp (d a : VReg) (p : PReg) (w : SubWidth) (s : State) : Result :=
  s.issue (.shflUp d a p w) fun s => s.shuffle .up d a p w

/-- SHFL_DOWN (R158). -/
def execShflDown (d a : VReg) (p : PReg) (w : SubWidth) (s : State) : Result :=
  s.issue (.shflDown d a p w) fun s => s.shuffle .down d a p w

/-- SHFL_XOR (R158). -/
def execShflXor (d a : VReg) (p : PReg) (w : SubWidth) (s : State) : Result :=
  s.issue (.shflXor d a p w) fun s => s.shuffle .xor d a p w

/-- VOTE_ANY (R159). -/
def execVoteAny (d : SReg) (a : PReg) (s : State) : Result :=
  s.issue (.voteAny d a) fun s => (s.writeS d (boolWord (s.active &&& s.readP a != 0))).done

/-- VOTE_ALL (R159). -/
def execVoteAll (d : SReg) (a : PReg) (s : State) : Result :=
  s.issue (.voteAll d a) fun s => (s.writeS d (boolWord (s.active &&& ~~~ s.readP a == 0))).done

/-- BALLOT: three registers (R159). -/
def execBallot (d : SReg) (a : PReg) (s : State) : Result :=
  s.issue (.ballot d a) fun s =>
    let m := s.active &&& s.readP a
    (((s.writeS d (m.extractLsb' 0 32)).writeS (d + 1) (m.extractLsb' 32 32)).writeS (d + 2) (m.extractLsb' 64 32)).done

/-- The values of active lanes from `low` up to but not including `high`, combined in ascending position (R160). -/
def State.combine (s : State) (o : LaneOp) (a : VReg) (low high : Nat) : Word :=
  ((LaneMask.list s.active).filter fun l => low ≤ l && l < high).foldl (fun acc l => o.apply acc (s.readV a l)) o.identity

/-- VSCAN_INCL (R160). -/
def execVscanIncl (d a : VReg) (op : LaneOp) (w : SubWidth) (s : State) : Result :=
  s.issue (.vscanIncl d a op w) fun s => s.vectorWord d fun l => s.combine op a (w.base l) (l + 1)

/-- VSCAN_EXCL (R160). -/
def execVscanExcl (d a : VReg) (op : LaneOp) (w : SubWidth) (s : State) : Result :=
  s.issue (.vscanExcl d a op w) fun s => s.vectorWord d fun l => s.combine op a (w.base l) l

/-- VRED (R160). -/
def execVred (d : SReg) (a : VReg) (op : LaneOp) (s : State) : Result :=
  s.issue (.vred d a op) fun s => (s.writeS d (s.combine op a 0 96)).done

end Sys2Proof.Machine
end

