-- ==== Sys2Proof/Machine/Dispatch.lean ====
section
/-!
DEFINITION. The dispatch: one arm for each constructor of `Instr`, each a call of its meaning.
-/

namespace Sys2Proof.Machine

/-- The meaning of each instruction and event. -/
def exec (i : Instr) (s : State) : Host.Outcome State Fault Refusal :=
  match i with
  | .nop => Sys2Proof.Machine.execNop s
  | .add d a b => Sys2Proof.Machine.execAdd d a b s
  | .sub d a b => Sys2Proof.Machine.execSub d a b s
  | .and d a b => Sys2Proof.Machine.execAnd d a b s
  | .or d a b => Sys2Proof.Machine.execOr d a b s
  | .xor d a b => Sys2Proof.Machine.execXor d a b s
  | .shl d a b => Sys2Proof.Machine.execShl d a b s
  | .shrN d a b => Sys2Proof.Machine.execShrN d a b s
  | .shrI d a b => Sys2Proof.Machine.execShrI d a b s
  | .minI d a b => Sys2Proof.Machine.execMinI d a b s
  | .maxI d a b => Sys2Proof.Machine.execMaxI d a b s
  | .minN d a b => Sys2Proof.Machine.execMinN d a b s
  | .maxN d a b => Sys2Proof.Machine.execMaxN d a b s
  | .mul d a b => Sys2Proof.Machine.execMul d a b s
  | .mulhI d a b => Sys2Proof.Machine.execMulhI d a b s
  | .mulhN d a b => Sys2Proof.Machine.execMulhN d a b s
  | .cmpEq d a b => Sys2Proof.Machine.execCmpEq d a b s
  | .cmpNe d a b => Sys2Proof.Machine.execCmpNe d a b s
  | .cmpLtI d a b => Sys2Proof.Machine.execCmpLtI d a b s
  | .cmpLtN d a b => Sys2Proof.Machine.execCmpLtN d a b s
  | .add64 d a b => Sys2Proof.Machine.execAdd64 d a b s
  | .sub64 d a b => Sys2Proof.Machine.execSub64 d a b s
  | .shl64 d a b => Sys2Proof.Machine.execShl64 d a b s
  | .shr64N d a b => Sys2Proof.Machine.execShr64N d a b s
  | .movi d imm => Sys2Proof.Machine.execMovi d imm s
  | .movh d imm => Sys2Proof.Machine.execMovh d imm s
  | .addi d imm => Sys2Proof.Machine.execAddi d imm s
  | .andi d imm => Sys2Proof.Machine.execAndi d imm s
  | .ori d imm => Sys2Proof.Machine.execOri d imm s
  | .xori d imm => Sys2Proof.Machine.execXori d imm s
  | .cmpiEq d imm => Sys2Proof.Machine.execCmpiEq d imm s
  | .cmpiLtI d imm => Sys2Proof.Machine.execCmpiLtI d imm s
  | .sld32 d base imm => Sys2Proof.Machine.execSld32 d base imm s
  | .sld64 d base imm => Sys2Proof.Machine.execSld64 d base imm s
  | .sldK d base imm => Sys2Proof.Machine.execSldK d base imm s
  | .sst src base imm => Sys2Proof.Machine.execSst src base imm s
  | .srd d special => Sys2Proof.Machine.execSrd d special s
  | .swr a special => Sys2Proof.Machine.execSwr a special s
  | .bra off => Sys2Proof.Machine.execBra off s
  | .bz sr off => Sys2Proof.Machine.execBz sr off s
  | .bnz sr off => Sys2Proof.Machine.execBnz sr off s
  | .bany p off => Sys2Proof.Machine.execBany p off s
  | .ball p off => Sys2Proof.Machine.execBall p off s
  | .bnone p off => Sys2Proof.Machine.execBnone p off s
  | .bdiv p off => Sys2Proof.Machine.execBdiv p off s
  | .call target => Sys2Proof.Machine.execCall target s
  | .ret => Sys2Proof.Machine.execRet s
  | .jmpr a => Sys2Proof.Machine.execJmpr a s
  | .mfromp d => Sys2Proof.Machine.execMfromp d s
  | .mtop a => Sys2Proof.Machine.execMtop a s
  | .wait ld st cp tm => Sys2Proof.Machine.execWait ld st cp tm s
  | .yield => Sys2Proof.Machine.execYield s
  | .exit => Sys2Proof.Machine.execExit s
  | .trap n => Sys2Proof.Machine.execTrap n s
  | .brk => Sys2Proof.Machine.execBrk s
  | .attach => Sys2Proof.Machine.execAttach s
  | .detach d => Sys2Proof.Machine.execDetach d s
  | .regroup d partner first more => Sys2Proof.Machine.execRegroup d partner first more s
  | .launch d base queue => Sys2Proof.Machine.execLaunch d base queue s
  | .hops d a b => Sys2Proof.Machine.execHops d a b s
  | .barArrive bar d => Sys2Proof.Machine.execBarArrive bar d s
  | .barWait bar a => Sys2Proof.Machine.execBarWait bar a s
  | .barSync bar => Sys2Proof.Machine.execBarSync bar s
  | .barTry bar a d => Sys2Proof.Machine.execBarTry bar a d s
  | .vaddI32 d a b => Sys2Proof.Machine.execVaddI32 d a b s
  | .vsubI32 d a b => Sys2Proof.Machine.execVsubI32 d a b s
  | .vmulI32 d a b => Sys2Proof.Machine.execVmulI32 d a b s
  | .vmulhI32 d a b => Sys2Proof.Machine.execVmulhI32 d a b s
  | .vmulhN32 d a b => Sys2Proof.Machine.execVmulhN32 d a b s
  | .vminI32 d a b => Sys2Proof.Machine.execVminI32 d a b s
  | .vmaxI32 d a b => Sys2Proof.Machine.execVmaxI32 d a b s
  | .vminN32 d a b => Sys2Proof.Machine.execVminN32 d a b s
  | .vmaxN32 d a b => Sys2Proof.Machine.execVmaxN32 d a b s
  | .vandB32 d a b => Sys2Proof.Machine.execVandB32 d a b s
  | .vorB32 d a b => Sys2Proof.Machine.execVorB32 d a b s
  | .vxorB32 d a b => Sys2Proof.Machine.execVxorB32 d a b s
  | .vshlB32 d a b => Sys2Proof.Machine.execVshlB32 d a b s
  | .vshrN32 d a b => Sys2Proof.Machine.execVshrN32 d a b s
  | .vshrI32 d a b => Sys2Proof.Machine.execVshrI32 d a b s
  | .vabsdI32 d a b => Sys2Proof.Machine.execVabsdI32 d a b s
  | .vaddsI32 d a b => Sys2Proof.Machine.execVaddsI32 d a b s
  | .vsubsI32 d a b => Sys2Proof.Machine.execVsubsI32 d a b s
  | .vaddsN32 d a b => Sys2Proof.Machine.execVaddsN32 d a b s
  | .vsubsN32 d a b => Sys2Proof.Machine.execVsubsN32 d a b s
  | .vbfeN32 d a b => Sys2Proof.Machine.execVbfeN32 d a b s
  | .vbfeI32 d a b => Sys2Proof.Machine.execVbfeI32 d a b s
  | .vbfiB32 d a b => Sys2Proof.Machine.execVbfiB32 d a b s
  | .vpopcB32 d a => Sys2Proof.Machine.execVpopcB32 d a s
  | .vclzB32 d a => Sys2Proof.Machine.execVclzB32 d a s
  | .vbrevB32 d a => Sys2Proof.Machine.execVbrevB32 d a s
  | .vaddI64 d a b => Sys2Proof.Machine.execVaddI64 d a b s
  | .vsubI64 d a b => Sys2Proof.Machine.execVsubI64 d a b s
  | .vshlB64 d a b => Sys2Proof.Machine.execVshlB64 d a b s
  | .vshrN64 d a b => Sys2Proof.Machine.execVshrN64 d a b s
  | .vshrI64 d a b => Sys2Proof.Machine.execVshrI64 d a b s
  | .vaddI32Vi d a imm => Sys2Proof.Machine.execVaddI32Vi d a imm s
  | .vandB32Vi d a imm => Sys2Proof.Machine.execVandB32Vi d a imm s
  | .vshlB32Vi d a imm => Sys2Proof.Machine.execVshlB32Vi d a imm s
  | .vshrN32Vi d a imm => Sys2Proof.Machine.execVshrN32Vi d a imm s
  | .vaddI32Vs d a sr => Sys2Proof.Machine.execVaddI32Vs d a sr s
  | .vsubI32Vs d a sr => Sys2Proof.Machine.execVsubI32Vs d a sr s
  | .vmulI32Vs d a sr => Sys2Proof.Machine.execVmulI32Vs d a sr s
  | .vmulhI32Vs d a sr => Sys2Proof.Machine.execVmulhI32Vs d a sr s
  | .vmulhN32Vs d a sr => Sys2Proof.Machine.execVmulhN32Vs d a sr s
  | .vminI32Vs d a sr => Sys2Proof.Machine.execVminI32Vs d a sr s
  | .vmaxI32Vs d a sr => Sys2Proof.Machine.execVmaxI32Vs d a sr s
  | .vminN32Vs d a sr => Sys2Proof.Machine.execVminN32Vs d a sr s
  | .vmaxN32Vs d a sr => Sys2Proof.Machine.execVmaxN32Vs d a sr s
  | .vandB32Vs d a sr => Sys2Proof.Machine.execVandB32Vs d a sr s
  | .vorB32Vs d a sr => Sys2Proof.Machine.execVorB32Vs d a sr s
  | .vxorB32Vs d a sr => Sys2Proof.Machine.execVxorB32Vs d a sr s
  | .vshlB32Vs d a sr => Sys2Proof.Machine.execVshlB32Vs d a sr s
  | .vshrN32Vs d a sr => Sys2Proof.Machine.execVshrN32Vs d a sr s
  | .vshrI32Vs d a sr => Sys2Proof.Machine.execVshrI32Vs d a sr s
  | .vabsdI32Vs d a sr => Sys2Proof.Machine.execVabsdI32Vs d a sr s
  | .vaddsI32Vs d a sr => Sys2Proof.Machine.execVaddsI32Vs d a sr s
  | .vsubsI32Vs d a sr => Sys2Proof.Machine.execVsubsI32Vs d a sr s
  | .vaddsN32Vs d a sr => Sys2Proof.Machine.execVaddsN32Vs d a sr s
  | .vsubsN32Vs d a sr => Sys2Proof.Machine.execVsubsN32Vs d a sr s
  | .vbfeN32Vs d a sr => Sys2Proof.Machine.execVbfeN32Vs d a sr s
  | .vbfeI32Vs d a sr => Sys2Proof.Machine.execVbfeI32Vs d a sr s
  | .vbfiB32Vs d a sr => Sys2Proof.Machine.execVbfiB32Vs d a sr s
  | .vaddI64Vs d a sr => Sys2Proof.Machine.execVaddI64Vs d a sr s
  | .vsubI64Vs d a sr => Sys2Proof.Machine.execVsubI64Vs d a sr s
  | .vshlB64Vs d a sr => Sys2Proof.Machine.execVshlB64Vs d a sr s
  | .vshrN64Vs d a sr => Sys2Proof.Machine.execVshrN64Vs d a sr s
  | .vshrI64Vs d a sr => Sys2Proof.Machine.execVshrI64Vs d a sr s
  | .vbcastB32 d sr => Sys2Proof.Machine.execVbcastB32 d sr s
  | .vcmp d a b cc ty => Sys2Proof.Machine.execVcmp d a b cc ty s
  | .pand d a b => Sys2Proof.Machine.execPand d a b s
  | .por d a b => Sys2Proof.Machine.execPor d a b s
  | .pxor d a b => Sys2Proof.Machine.execPxor d a b s
  | .pnot d a => Sys2Proof.Machine.execPnot d a s
  | .pmov d a => Sys2Proof.Machine.execPmov d a s
  | .vfromp d a => Sys2Proof.Machine.execVfromp d a s
  | .vtop d a => Sys2Proof.Machine.execVtop d a s
  | .shflIdx d a p w => Sys2Proof.Machine.execShflIdx d a p w s
  | .shflUp d a p w => Sys2Proof.Machine.execShflUp d a p w s
  | .shflDown d a p w => Sys2Proof.Machine.execShflDown d a p w s
  | .shflXor d a p w => Sys2Proof.Machine.execShflXor d a p w s
  | .voteAny d a => Sys2Proof.Machine.execVoteAny d a s
  | .voteAll d a => Sys2Proof.Machine.execVoteAll d a s
  | .ballot d a => Sys2Proof.Machine.execBallot d a s
  | .vscanIncl d a op w => Sys2Proof.Machine.execVscanIncl d a op w s
  | .vscanExcl d a op w => Sys2Proof.Machine.execVscanExcl d a op w s
  | .vred d a op => Sys2Proof.Machine.execVred d a op s
  | .vfaddF32 d a b => Sys2Proof.Machine.execVfaddF32 d a b s
  | .vfsubF32 d a b => Sys2Proof.Machine.execVfsubF32 d a b s
  | .vfmulF32 d a b => Sys2Proof.Machine.execVfmulF32 d a b s
  | .vffmaF32 d a b => Sys2Proof.Machine.execVffmaF32 d a b s
  | .vffnmaF32 d a b => Sys2Proof.Machine.execVffnmaF32 d a b s
  | .vfminF32 d a b => Sys2Proof.Machine.execVfminF32 d a b s
  | .vfmaxF32 d a b => Sys2Proof.Machine.execVfmaxF32 d a b s
  | .vfabsF32 d a => Sys2Proof.Machine.execVfabsF32 d a s
  | .vfnegF32 d a => Sys2Proof.Machine.execVfnegF32 d a s
  | .vfcopysignF32 d a b => Sys2Proof.Machine.execVfcopysignF32 d a b s
  | .vfrintF32 d a => Sys2Proof.Machine.execVfrintF32 d a s
  | .vfaddF64 d a b => Sys2Proof.Machine.execVfaddF64 d a b s
  | .vfsubF64 d a b => Sys2Proof.Machine.execVfsubF64 d a b s
  | .vfmulF64 d a b => Sys2Proof.Machine.execVfmulF64 d a b s
  | .vffmaF64 d a b => Sys2Proof.Machine.execVffmaF64 d a b s
  | .vffnmaF64 d a b => Sys2Proof.Machine.execVffnmaF64 d a b s
  | .vfminF64 d a b => Sys2Proof.Machine.execVfminF64 d a b s
  | .vfmaxF64 d a b => Sys2Proof.Machine.execVfmaxF64 d a b s
  | .vfabsF64 d a => Sys2Proof.Machine.execVfabsF64 d a s
  | .vfnegF64 d a => Sys2Proof.Machine.execVfnegF64 d a s
  | .vfcopysignF64 d a b => Sys2Proof.Machine.execVfcopysignF64 d a b s
  | .vfrintF64 d a => Sys2Proof.Machine.execVfrintF64 d a s
  | .vfdivF32 d a b => Sys2Proof.Machine.execVfdivF32 d a b s
  | .vfsqrtF32 d a => Sys2Proof.Machine.execVfsqrtF32 d a s
  | .vfrcpF32 d a => Sys2Proof.Machine.execVfrcpF32 d a s
  | .vfrsqF32 d a => Sys2Proof.Machine.execVfrsqF32 d a s
  | .vfexp2F32 d a => Sys2Proof.Machine.execVfexp2F32 d a s
  | .vflog2F32 d a => Sys2Proof.Machine.execVflog2F32 d a s
  | .vfsinF32 d a => Sys2Proof.Machine.execVfsinF32 d a s
  | .vfcosF32 d a => Sys2Proof.Machine.execVfcosF32 d a s
  | .vftanhF32 d a => Sys2Proof.Machine.execVftanhF32 d a s
  | .vfdivF64 d a b => Sys2Proof.Machine.execVfdivF64 d a b s
  | .vfsqrtF64 d a => Sys2Proof.Machine.execVfsqrtF64 d a s
  | .vfrcpF64 d a => Sys2Proof.Machine.execVfrcpF64 d a s
  | .vfrsqF64 d a => Sys2Proof.Machine.execVfrsqF64 d a s
  | .vfaddBf16 d a b => Sys2Proof.Machine.execVfaddBf16 d a b s
  | .vfsubBf16 d a b => Sys2Proof.Machine.execVfsubBf16 d a b s
  | .vfmulBf16 d a b => Sys2Proof.Machine.execVfmulBf16 d a b s
  | .vffmaBf16 d a b => Sys2Proof.Machine.execVffmaBf16 d a b s
  | .vffnmaBf16 d a b => Sys2Proof.Machine.execVffnmaBf16 d a b s
  | .vfminBf16 d a b => Sys2Proof.Machine.execVfminBf16 d a b s
  | .vfmaxBf16 d a b => Sys2Proof.Machine.execVfmaxBf16 d a b s
  | .vfabsBf16 d a => Sys2Proof.Machine.execVfabsBf16 d a s
  | .vfnegBf16 d a => Sys2Proof.Machine.execVfnegBf16 d a s
  | .vfcmp d a b cc ty => Sys2Proof.Machine.execVfcmp d a b cc ty s
  | .cvts d a dst src rnd => Sys2Proof.Machine.execCvts d a dst src rnd s
  | .cvti d a dst src rnd => Sys2Proof.Machine.execCvti d a dst src rnd s
  | .pack4 d a => Sys2Proof.Machine.execPack4 d a s
  | .unpack4 d a sx => Sys2Proof.Machine.execUnpack4 d a sx s
  | .pack6 d a => Sys2Proof.Machine.execPack6 d a s
  | .unpack6 d a sx => Sys2Proof.Machine.execUnpack6 d a sx s
  | .pack8 d a => Sys2Proof.Machine.execPack8 d a s
  | .unpack8 d a sx => Sys2Proof.Machine.execUnpack8 d a sx s
  | .bscale d a fmt => Sys2Proof.Machine.execBscale d a fmt s
  | .scapplyMul d a b => Sys2Proof.Machine.execScapplyMul d a b s
  | .scapplyDiv d a b => Sys2Proof.Machine.execScapplyDiv d a b s
  | .compress d a fmt => Sys2Proof.Machine.execCompress d a fmt s
  | .tidsetImm imm => Sys2Proof.Machine.execTidsetImm imm s
  | .tidsetReg a => Sys2Proof.Machine.execTidsetReg a s
  | .ldg x o base w form => Sys2Proof.Machine.execLdg x o base w form s
  | .stg x o base w form => Sys2Proof.Machine.execStg x o base w form s
  | .lds x o base w form => Sys2Proof.Machine.execLds x o base w form s
  | .sts x o base w form => Sys2Proof.Machine.execSts x o base w form s
  | .ldc x o base w form => Sys2Proof.Machine.execLdc x o base w form s
  | .stc x o base w form => Sys2Proof.Machine.execStc x o base w form s
  | .lda x o base wide scope => Sys2Proof.Machine.execLda x o base wide scope s
  | .stl x o base wide scope => Sys2Proof.Machine.execStl x o base wide scope s
  | .atom x o base fn => Sys2Proof.Machine.execAtom x o base fn s
  | .atoma x o base fn => Sys2Proof.Machine.execAtoma x o base fn s
  | .atoms x o base fn => Sys2Proof.Machine.execAtoms x o base fn s
  | .red x o base fn => Sys2Proof.Machine.execRed x o base fn s
  | .tagl d a p => Sys2Proof.Machine.execTagl d a p s
  | .tags slot key => Sys2Proof.Machine.execTags slot key s
  | .tagi slot => Sys2Proof.Machine.execTagi slot s
  | .fence sem scope => Sys2Proof.Machine.execFence sem scope s
  | .ifence => Sys2Proof.Machine.execIfence s
  | .publish base => Sys2Proof.Machine.execPublish base s
  | .flushh base len => Sys2Proof.Machine.execFlushh base len s
  | .ljoin x o base rel ty => Sys2Proof.Machine.execLjoin x o base rel ty s
  | .lld x o base w => Sys2Proof.Machine.execLld x o base w s
  | .lldAcq x o base w => Sys2Proof.Machine.execLldAcq x o base w s
  | .lldge x o base w => Sys2Proof.Machine.execLldge x o base w s
  | .ltry x o base p => Sys2Proof.Machine.execLtry x o base p s
  | .lsta x o base ty => Sys2Proof.Machine.execLsta x o base ty s
  | .linc o base => Sys2Proof.Machine.execLinc o base s
  | .lsync base => Sys2Proof.Machine.execLsync base s
  | .tcopy block id bm ch => Sys2Proof.Machine.execTcopy block id bm ch s
  | .copy block dir bm setBits ch => Sys2Proof.Machine.execCopy block dir bm setBits ch s
  | .persist => Sys2Proof.Machine.execPersist s
  | .tryw bm mask p k => Sys2Proof.Machine.execTryw bm mask p k s
  | .bmtest bm mask p => Sys2Proof.Machine.execBmtest bm mask p s
  | .bmclr bm mask => Sys2Proof.Machine.execBmclr bm mask s
  | .rpush ch a => Sys2Proof.Machine.execRpush ch a s
  | .rpop d ch pop => Sys2Proof.Machine.execRpop d ch pop s
  | .rfree d ch count => Sys2Proof.Machine.execRfree d ch count s
  | .rstat d ch => Sys2Proof.Machine.execRstat d ch s
  | .mma r afmt bfmt => Sys2Proof.Machine.execMma r afmt bfmt s
  | .mmas r afmt bfmt => Sys2Proof.Machine.execMmas r afmt bfmt s
  | .accalloc p d count => Sys2Proof.Machine.execAccalloc p d count s
  | .accfree first count => Sys2Proof.Machine.execAccfree first count s
  | .accz first count => Sys2Proof.Machine.execAccz first count s
  | .accrdSat d o fmt rnd => Sys2Proof.Machine.execAccrdSat d o fmt rnd s
  | .accrdInf d o fmt rnd => Sys2Proof.Machine.execAccrdInf d o fmt rnd s
  | .accwr x o form => Sys2Proof.Machine.execAccwr x o form s
  | .wpin p a fmt sparse => Sys2Proof.Machine.execWpin p a fmt sparse s
  | .wunpin a fmt sparse => Sys2Proof.Machine.execWunpin a fmt sparse s
  | .opfence => Sys2Proof.Machine.execOpfence s
  | .rft => Sys2Proof.Machine.execRft s
  | .rftKill => Sys2Proof.Machine.execRftKill s
  | .segld seg r => Sys2Proof.Machine.execSegld seg r s
  | .segrd seg r => Sys2Proof.Machine.execSegrd seg r s
  | .csrr d csr => Sys2Proof.Machine.execCsrr d csr s
  | .csrw a csr => Sys2Proof.Machine.execCsrw a csr s
  | .tvecWrite context value => Sys2Proof.Machine.execTvecWrite context value s
  | .epcWrite core slot value => Sys2Proof.Machine.execEpcWrite core slot value s
  | .reductionWindowWrite core context window word value => Sys2Proof.Machine.execReductionWindowWrite core context window word value s
  | .debugGoRelease core slot => Sys2Proof.Machine.execDebugGoRelease core slot s
  | .debugGoStep core slot split => Sys2Proof.Machine.execDebugGoStep core slot split s
  | .tlbinv base count => Sys2Proof.Machine.execTlbinv base count s
  | .tlbinvAll => Sys2Proof.Machine.execTlbinvAll s
  | .idle k => Sys2Proof.Machine.execIdle k s
  | .packetFetch core slot place => Sys2Proof.Machine.execPacketFetch core slot place s
  | .splitStarvation core slot split => Sys2Proof.Machine.execSplitStarvation core slot split s
  | .backwardBranchYield core slot split => Sys2Proof.Machine.execBackwardBranchYield core slot split s
  | .loadCompletion core slot id lanes replies => Sys2Proof.Machine.execLoadCompletion core slot id lanes replies s
  | .storeCompletion core slot id lanes replies => Sys2Proof.Machine.execStoreCompletion core slot id lanes replies s
  | .tmCompletion core slot id array => Sys2Proof.Machine.execTmCompletion core slot id array s
  | .recoverableFaultDelivery core slot split => Sys2Proof.Machine.execRecoverableFaultDelivery core slot split s
  | .groupSlotRelease core slot => Sys2Proof.Machine.execGroupSlotRelease core slot s
  | .launchHeaderCheck partition queue => Sys2Proof.Machine.execLaunchHeaderCheck partition queue s
  | .dependenceRead partition queue reply => Sys2Proof.Machine.execDependenceRead partition queue reply s
  | .dependenceRecheckTimer partition queue reply => Sys2Proof.Machine.execDependenceRecheckTimer partition queue reply s
  | .blockResidency partition queue core slot0 stack => Sys2Proof.Machine.execBlockResidency partition queue core slot0 stack s
  | .blockEnd block => Sys2Proof.Machine.execBlockEnd block s
  | .stageGrowth block stage => Sys2Proof.Machine.execStageGrowth block stage s
  | .stageShrink block stage => Sys2Proof.Machine.execStageShrink block stage s
  | .shrinkPop core slot split => Sys2Proof.Machine.execShrinkPop core slot split s
  | .eventBacklogDrain context => Sys2Proof.Machine.execEventBacklogDrain context s
  | .faultQueueHeldPost die => Sys2Proof.Machine.execFaultQueueHeldPost die s
  | .faultServiceEntry core die seq choice micros => Sys2Proof.Machine.execFaultServiceEntry core die seq choice micros s
  | .reductionLineDelivery context window line elements => Sys2Proof.Machine.execReductionLineDelivery context window line elements s
  | .lapBegin context region die => Sys2Proof.Machine.execLapBegin context region die s
  | .latticeExchange context region a b => Sys2Proof.Machine.execLatticeExchange context region a b s
  | .fabricSnapshotArrival context region device vdie runs => Sys2Proof.Machine.execFabricSnapshotArrival context region device vdie runs s
  | .ltryExpiry core slot id => Sys2Proof.Machine.execLtryExpiry core slot id s
  | .copyTransferStart core => Sys2Proof.Machine.execCopyTransferStart core s
  | .copyChunkDone core id chunk part => Sys2Proof.Machine.execCopyChunkDone core id chunk part s
  | .copyCompletion core id => Sys2Proof.Machine.execCopyCompletion core id s
  | .copyPushGrant core id => Sys2Proof.Machine.execCopyPushGrant core id s
  | .persistDurable core slot id => Sys2Proof.Machine.execPersistDurable core slot id s
  | .trywExpiry core slot split => Sys2Proof.Machine.execTrywExpiry core slot split s
  | .matrixPassGrant cluster array => Sys2Proof.Machine.execMatrixPassGrant cluster array s
  | .matrixOperationComplete cluster entry => Sys2Proof.Machine.execMatrixOperationComplete cluster entry s
  | .preemptionRequest block bound method => Sys2Proof.Machine.execPreemptionRequest block bound method s
  | .drainToSave block => Sys2Proof.Machine.execDrainToSave block s
  | .blockRestore context seq core slot0 intact => Sys2Proof.Machine.execBlockRestore context seq core slot0 intact s
  | .hotSpareTakeover core => Sys2Proof.Machine.execHotSpareTakeover core s
  | .hotSpareResume core => Sys2Proof.Machine.execHotSpareResume core s
  | .stepEnd core slot => Sys2Proof.Machine.execStepEnd core slot s
  | .idleExpiry core slot split => Sys2Proof.Machine.execIdleExpiry core slot split s
  | .tlbMiss core context page out => Sys2Proof.Machine.execTlbMiss core context page out s
  | .tlbFill die context page out dieOut => Sys2Proof.Machine.execTlbFill die context page out dieOut s
  | .frameRecordChange frame record agree => Sys2Proof.Machine.execFrameRecordChange frame record agree s
  | .partitionTableWrite partition entry agree => Sys2Proof.Machine.execPartitionTableWrite partition entry agree s
  | .rosterTableWrite context devices agree => Sys2Proof.Machine.execRosterTableWrite context devices agree s
  | .pacerEntryWrite core tenant value => Sys2Proof.Machine.execPacerEntryWrite core tenant value s
  | .regionDescriptorWrite context region value => Sys2Proof.Machine.execRegionDescriptorWrite context region value s
  | .codeImageMeasure context frames len => Sys2Proof.Machine.execCodeImageMeasure context frames len s
  | .attestationRequest context nonce => Sys2Proof.Machine.execAttestationRequest context nonce s
  | .serviceCoreTakeover core => Sys2Proof.Machine.execServiceCoreTakeover core s
  | .pacerWindow core => Sys2Proof.Machine.execPacerWindow core s
  | .pacerBudgetExhausted core tenant => Sys2Proof.Machine.execPacerBudgetExhausted core tenant s
  | .checkpointTimer context => Sys2Proof.Machine.execCheckpointTimer context s
  | .checkpointCommit context mapOff imgOff => Sys2Proof.Machine.execCheckpointCommit context mapOff imgOff s
  | .hostCallReplay core space ring micros die seq => Sys2Proof.Machine.execHostCallReplay core space ring micros die seq s
  | .hostCallReject core space ring micros die seq => Sys2Proof.Machine.execHostCallReject core space ring micros die seq s
  | .hostCallKill core space ring micros context cls sub => Sys2Proof.Machine.execHostCallKill core space ring micros context cls sub s
  | .hostCallMove core space ring micros context page dest => Sys2Proof.Machine.execHostCallMove core space ring micros context page dest s
  | .hostCallCompressionHint core space ring micros page => Sys2Proof.Machine.execHostCallCompressionHint core space ring micros page s
  | .hostCallCheckpoint core space ring micros context => Sys2Proof.Machine.execHostCallCheckpoint core space ring micros context s
  | .hostCallPreempt core space ring micros block bound method => Sys2Proof.Machine.execHostCallPreempt core space ring micros block bound method s
  | .hostRead space addr => Sys2Proof.Machine.execHostRead space addr s
  | .hostWrite space addr bytes choice => Sys2Proof.Machine.execHostWrite space addr bytes choice s
  | .commandSlotAccept space => Sys2Proof.Machine.execCommandSlotAccept space s
  | .afterRelease space => Sys2Proof.Machine.execAfterRelease space s
  | .launchCommand space => Sys2Proof.Machine.execLaunchCommand space s
  | .hostCopy space seq lines choice => Sys2Proof.Machine.execHostCopy space seq lines choice s
  | .hostCopyComplete space seq => Sys2Proof.Machine.execHostCopyComplete space seq s
  | .mapProposal space => Sys2Proof.Machine.execMapProposal space s
  | .waitValue space => Sys2Proof.Machine.execWaitValue space s
  | .waitValueSatisfied space seq reply => Sys2Proof.Machine.execWaitValueSatisfied space seq reply s
  | .waitValueTimeout space seq => Sys2Proof.Machine.execWaitValueTimeout space seq s
  | .publishRequest space seq => Sys2Proof.Machine.execPublishRequest space seq s
  | .contextCreate space context dies => Sys2Proof.Machine.execContextCreate space context dies s
  | .contextDestroy space => Sys2Proof.Machine.execContextDestroy space s
  | .contextPreempt space => Sys2Proof.Machine.execContextPreempt space s
  | .contextResume space => Sys2Proof.Machine.execContextResume space s
  | .setCheckpointInterval space => Sys2Proof.Machine.execSetCheckpointInterval space s
  | .setFrameAllowance space => Sys2Proof.Machine.execSetFrameAllowance space s
  | .registerReservation space => Sys2Proof.Machine.execRegisterReservation space s
  | .registerCallRing space => Sys2Proof.Machine.execRegisterCallRing space s
  | .debugClaim space => Sys2Proof.Machine.execDebugClaim space s
  | .debugRelease space => Sys2Proof.Machine.execDebugRelease space s
  | .debugRead space => Sys2Proof.Machine.execDebugRead space s
  | .debugWrite space => Sys2Proof.Machine.execDebugWrite space s
  | .checkpointNow space => Sys2Proof.Machine.execCheckpointNow space s
  | .persistentRegionCreate space full => Sys2Proof.Machine.execPersistentRegionCreate space full s
  | .persistentRegionAttach space => Sys2Proof.Machine.execPersistentRegionAttach space s
  | .persistentRegionDetach space => Sys2Proof.Machine.execPersistentRegionDetach space s
  | .persistentRegionDestroy space => Sys2Proof.Machine.execPersistentRegionDestroy space s
  | .frontEndResume space => Sys2Proof.Machine.execFrontEndResume space s
  | .evackWrite space value => Sys2Proof.Machine.execEvackWrite space value s
  | .tenantPageMoveStart space page compress choice => Sys2Proof.Machine.execTenantPageMoveStart space page compress choice s
  | .tenantPageMoveCommit space page loc sectors => Sys2Proof.Machine.execTenantPageMoveCommit space page loc sectors s
  | .extentAdd space offer => Sys2Proof.Machine.execExtentAdd space offer s
  | .extentRelease space base => Sys2Proof.Machine.execExtentRelease space base s
  | .linkDown port => Sys2Proof.Machine.execLinkDown port s
  | .linkRetrain port => Sys2Proof.Machine.execLinkRetrain port s
  | .packageFailure die half package => Sys2Proof.Machine.execPackageFailure die half package s
  | .parityRebuildDone package => Sys2Proof.Machine.execParityRebuildDone package s
  | .computeReset altered => Sys2Proof.Machine.execComputeReset altered s
  | .nearTierWatchdog die altered => Sys2Proof.Machine.execNearTierWatchdog die altered s
  | .computeDomainUp => Sys2Proof.Machine.execComputeDomainUp s
  | .moduleReset kept => Sys2Proof.Machine.execModuleReset kept s
  | .powerUp altered => Sys2Proof.Machine.execPowerUp altered s
  | .correctedError core frame package => Sys2Proof.Machine.execCorrectedError core frame package s
  | .frameErrorThreshold frame dest => Sys2Proof.Machine.execFrameErrorThreshold frame dest s
  | .patrolScrub line => Sys2Proof.Machine.execPatrolScrub line s
  | .uncorrectableError site altered => Sys2Proof.Machine.execUncorrectableError site altered s
  | .powerSample watts => Sys2Proof.Machine.execPowerSample watts s
  | .powerLimitLog => Sys2Proof.Machine.execPowerLimitLog s
  | .powerCapSet watts => Sys2Proof.Machine.execPowerCapSet watts s
  | .powerLoss kept => Sys2Proof.Machine.execPowerLoss kept s
  | .tierMigrationStart context page dest => Sys2Proof.Machine.execTierMigrationStart context page dest s
  | .migrationSwitchCommit id => Sys2Proof.Machine.execMigrationSwitchCommit id s
  | .peerFabricRequest context device frame off n op write data => Sys2Proof.Machine.execPeerFabricRequest context device frame off n op write data s
  | .tlbinvCompletion core slot split => Sys2Proof.Machine.execTlbinvCompletion core slot split s
  | .hostFileFetchReply die seq service data => Sys2Proof.Machine.execHostFileFetchReply die seq service data s
  | .extentAccept space base => Sys2Proof.Machine.execExtentAccept space base s

end Sys2Proof.Machine
end

