-- ==== Sys2Proof/Machine/Early.lean ====
section
/-!
DEFINITION. Reads that loads make before they issue (R253; entry 104): a load is not ordered after an earlier read of its group by
control dependence alone, nor after an earlier store to other bytes.
-/

namespace Sys2Proof.Machine

namespace State

/-- Registers that the outstanding operations of a group will write. -/
def awaited (g : GroupSys) : List Nat :=
  (g.loads.map fun p => p.act.vdests.map (64 + ·) ++ p.act.sdests ++ p.act.pdests.map (192 + ·)).flatten

/-- A read of `n` bytes at a place may come before what the group has outstanding: none of that is an acquire, and none touches a byte of
it (R253 cases 1 and 5). -/
def precedes (g : GroupSys) (place : Place) (n : Nat) : Bool :=
  (openOps g).all fun p => !p.tries && !g.acqAfter.contains p.id && p.accesses.all fun a => !a.place.meets a.n place n

/-- The place that an early read names, where the group may read it now; a peer device's page is none. -/
def earlyPlace (s : State) (e : EarlyPick) (context : Nat) : Option Place :=
  match e.pad with
  | some core => if clusterOf core = clusterOf e.core && s.slotHeld context core e.addr then some (.spad core e.addr) else none
  | none =>
      match s.checkPage e.core context [] e.addr .read with
      | .page leaf level => (match s.placeFor e.core leaf level e.addr with
          | .mem pa => some (.mem pa)
          | _ => none)
      | _ => none

/-- A load still to issue reads now (R249, R253), where that meets no error. -/
def takeEarly (s : State) (e : EarlyPick) : State :=
  let gk := groupKey e.core e.slot
  let g := s.sysAt gk
  let context := (s.blockAt (s.groupAt gk).block).context
  match if (s.groups.at? gk).isSome && [1, 2, 4, 8, 16, 32].contains e.n && e.addr % e.n = 0 then s.earlyPlace e context else none with
  | some place =>
      let a : Access := { lane := 0, place, va := e.addr, n := e.n, data := 0, dead := false }
      if !precedes g place e.n || s.hazardOf context true a ≠ none then s
      else
        let old := g.early.filter fun x => !x.place.meets x.n place e.n
        s.setSysAt gk { g with early := old ++
          [{ place, va := e.addr, n := e.n, value := s.cellValue (e.n = 32) a, dirty := awaited g }] }
  | none => s

/-- An early read after words `l` of its group have issued, `posted` their accesses with whether they read: registers that depend on what
the group still awaits are marked, those written anew otherwise are not. None where its load must follow a word, or where a word has read
or written a byte of it otherwise than the load that it stands for (R253). -/
def EarlyRead.after (l : List Instr) (full : Bool) (posted : List (Access × Bool)) (e : EarlyRead) : Option EarlyRead :=
  let marked := fun (rs : List Reg) => rs.any fun r => e.dirty.contains r.number
  let reads := fun (i : Instr) => i.scalarReads ++ (i.vspans.map fun v => regsV v.1 v.2).flatten
  let taints := fun (i : Instr) => i.counted.isSome || marked (reads i)
  let out := fun (is : List Instr) => (is.map fun i => i.dests.map Reg.number).flatten
  let wrote := out (l.filter taints)
  let clean := out (l.filter fun i => !taints i && (full || i.vspans.isEmpty))
  if !l.all Instr.quiet || (posted.any fun a => a.1.place.meets a.1.n e.place e.n &&
      (!a.2 || a.1.place ≠ e.place || a.1.n ≠ e.n || marked (l.map Instr.addressReads).flatten)) then none
  else some { e with dirty := distinct (e.dirty.filter (!clean.contains ·) ++ wrote) }

/-- Accesses that the words just issued have posted, with whether each is a plain read. -/
def justPosted (g : GroupSys) (now : Nat) : List (Access × Bool) :=
  (((g.ld ++ g.st).filter fun p => p.issued == now).map fun p => p.accesses.map fun a => (a, match p.act with
    | .load _ _ | .scalarLoad _ _ | .latRead _ _ => true
    | _ => false)).flatten

/-- The state after an issue group of split `s.cur` has issued: what of its group's early reads stands. -/
def afterWords (s : State) (l : List Reading) (t : State) : State :=
  let g := t.sysAt s.gkey
  if g.early.isEmpty || t.last = .held then t
  else
    let words := l.map fun i => match i with
      | .plain (.wait ld st cp tm) => if (s.sysAt s.gkey).cp.isEmpty && (s.sysAt s.gkey).tm.isEmpty then .nop else .wait ld st cp tm
      | .plain i => i
      | .sys _ => .exit
    let full := s.active = BitVec.allOnes 96
    t.setSysAt s.gkey { g with early := g.early.filterMap (EarlyRead.after words full (justPosted g t.now)) }

end State

end Sys2Proof.Machine
end

