-- ==== Sys2Proof/Machine/Idle.lean ====
section
/-!
DEFINITION. What goes on while no split of a core can issue and the schedule names no event: the first
piece of the core's outstanding work that can be completed is, so that a program that waits goes on (DESIGN CHOICE, entry 1: the
spec gives outstanding work no time). Each is one of the events that the opcode table names, with every lane or unit at once.
-/

namespace Sys2Proof.Machine

namespace State

/-- An event has changed more than its count. -/
def changedBy (s t : State) : Bool := { t with tick := s.tick, last := s.last } != s

/-- The first of a list of events that changes anything. -/
def firstWork : List (State → Result) → State → State
  | [], s => s
  | f :: rest, s =>
      match f s with
      | .next t => if s.changedBy t then t else firstWork rest s
      | _ => firstWork rest s

/-- Counted operations of a group, in the order of their counters (R83, R84). -/
def groupWork (s : State) (core gk : Nat) : List (State → Result) :=
  let slot := gk % 16
  let y := s.sysAt gk
  ((y.ld.map fun p => [execLoadCompletion core slot p.id (BitVec.allOnes 96) [], execLtryExpiry core slot p.id]).flatten) ++
  (y.st.map fun p => execStoreCompletion core slot p.id (BitVec.allOnes 96) []) ++
  (y.tm.map fun p => (List.range 4).map fun a => execTmCompletion core slot p.id a).flatten ++
  (y.cp.map fun p => execPersistDurable core slot p.id) ++
  ((s.groupAt gk).splits.map fun e => execTlbinvCompletion core slot e.1)

/-- Chunks of a request whose units are not all moved. -/
def chunksLeft (r : CopyRequest) : List Nat := distinct (r.left.map (· / chunkUnits))

/-- What the core's copy engine can do next (R292, R293, R297). -/
def copyWork (s : State) (core : Nat) : List (State → Result) :=
  execCopyTransferStart core ::
  ((s.coreAt core).copies.map fun r =>
    ((chunksLeft r).map fun c => execCopyChunkDone core r.id c { units := BitVec.allOnes 32, bytes := BitVec.allOnes 32 }) ++
    [execCopyCompletion core r.id, execCopyPushGrant core r.id]).flatten

/-- What the matrix engine of the core's cluster can do next (R325, R328). -/
def matrixWork (s : State) (core : Nat) : List (State → Result) :=
  let c := clusterOf core
  ((s.clusterAt c).entries.map fun e => execMatrixOperationComplete c e.id) ++
  (List.range 4).map fun a => execMatrixPassGrant c a

/-- Walks that the core's die has under way (R382). -/
def missWork (s : State) (core : Nat) : List (State → Result) :=
  (s.dieAt (dieOf core)).misses.map fun m => execTlbFill (dieOf core) m.context m.vpage 0 0

/-- All of the core's outstanding work. -/
def workOf (s : State) (core : Nat) : List (State → Result) :=
  s.missWork core ++ ((s.groupsOn core).map (s.groupWork core)).flatten ++ s.copyWork core ++ s.matrixWork core

/-- The core's outstanding work goes on by one event. -/
def proceed (s : State) (core : Nat) : State := { firstWork (s.workOf core) s with last := .idle }

end State

end Sys2Proof.Machine
end

