-- ==== Sys2Proof/Machine/Sequence.lean ====
section
/-!
DEFINITION. One issue group of one split (R66, R67, R71, R72), the arrivals of held words (R140, R142), two groups that issue
together (R135), and the choice of the split (R113).
-/

namespace Sys2Proof.Machine

/-- The meaning of what a word reads as. -/
def execReading : Reading → State → Result
  | .plain i, s => exec i s
  | .sys (.segld seg r), s => execSegld seg r s
  | .sys (.segrd seg r), s => execSegrd seg r s
  | .sys (.csrr d csr), s => execCsrr d csr s
  | .sys (.csrw a csr), s => execCsrw a csr s
  | .sys (.tlbinv base count), s => execTlbinv base count s
  | .sys (.idle k), s => execIdle k s

namespace State

/-! ## A chain (R67, R71, R72) -/

/-- The state in which the words of a chain read: what stands before the chain is kept apart. -/
def opened (s : State) : State :=
  { s with snap := some { group := s.gsys.before.getD s.group, sys := s.gsys, block := s.block, context := s.context, flags := 0,
                          moved := false } }

/-- The state after the last word of a chain: the split moves on unless a word has moved it (R63, R64). -/
def closed (s : State) (w : Nat) : State :=
  match s.snap with
  | some k =>
      let s := { s with snap := none }
      if k.moved then s else s.setSplit (issued s.now (nextWord s.split w))
  | none => s

/-- How one word of a chain comes out by itself. -/
inductive WordEnd where
  | refused (r : Result)
  | stops (s : State)
  | waits (s : State)
  | runs

/-- What a word of a chain would do alone, from the state before the chain. -/
def wordEnd (s : State) (i : Reading) : WordEnd :=
  match execReading i s.opened with
  | .next t =>
      match t.last with
      | .trapped | .killed | .suspended => .stops { t with snap := none }
      | .held => .waits { t with snap := none }
      | _ => .runs
  | r => .refused r

/-- A word that raises a suspending fault comes after the precise faults of the chain (R71, R218). -/
def WordEnd.suspends : WordEnd → Bool
  | .stops t => t.last == .suspended
  | _ => false

/-- Which word decides for the chain: a precise fault, else a suspending one, else a wait other than a BAR.SYNC's or REGROUP's,
which arrive only where every other word can proceed (R135, R142). -/
def decisive (l : List (Reading × WordEnd)) : Option WordEnd :=
  let refused := l.find? fun e => match e.2 with
    | .refused _ => true
    | _ => false
  let precise := l.find? fun e => match e.2 with
    | .stops t => t.last != .suspended
    | _ => false
  let suspended := l.find? fun e => e.2.suspends
  let waits := l.filter fun e => match e.2 with
    | .waits _ => true
    | _ => false
  let sync := fun (i : Reading) => match i with
    | .plain (.barSync _) | .plain (.regroup _ _ _ _) => true
    | _ => false
  (refused <|> precise <|> suspended <|> waits.find? (fun e => !sync e.1) <|> waits.head?).map Prod.snd

/-- A TRAP that will trap: the other words of its chain take effect before it (R70, R354). -/
def traps (s : State) (i : Reading) : Bool :=
  match i with
  | .plain (.trap n) => (s.opened.stopped (Instr.trap n).facts).isNone
  | _ => false

/-- The words of a chain one after another, each on what the words before it have written (R67). -/
def runWords : List Reading → State → Result
  | [], s => .next s
  | i :: rest, s =>
      match execReading i s with
      | .next t => if t.last = .done then runWords rest t else .next { t with snap := none }
      | r => r

/-- A chain of words that ends at word `w` of its packet: its words issue together or not at all (R67, R72). -/
def runChain (s : State) (l : List Reading) (w : Nat) : Result :=
  let others := l.filter fun i => !s.traps i
  match decisive (others.map fun i => (i, s.wordEnd i)) with
  | some (.refused r) => r
  | some (.stops t) => .next t
  | some (.waits t) => .next t
  | _ =>
      match runWords (others ++ l.filter s.traps) s.opened with
      | .next t => .next (if t.last = .held then s.held s.holdOf else t.closed w)
      | r => r

/-! ## An issue group (R65, R66, R373) -/

/-- The first word at or after `n` that is no NOP; 3 where there is none (R66). -/
def firstWord (p : Packet) (n : Nat) : Nat :=
  if 3 ≤ n then 3
  else if p.word n != 0 then n
  else if n < 2 && p.word (n + 1) != 0 then n + 1
  else if n = 0 && p.w2 != 0 then 2
  else 3

/-- The words of the issue group that begins at word `w` of a packet. -/
def Packet.group (p : Packet) (w : Nat) : List Reading := ((List.range (p.chainEnd w + 1)).drop w).filterMap p.reading

/-- The issuing split issues the issue group that stands at its word of a packet. -/
def runGroup (s : State) (p : Packet) : Result :=
  let w := firstWord p s.split.word
  if w = 3 then .next s.nextPacket
  else
    let s := s.setSplit { s.split with word := w }
    match Packet.group p w with
    | [] => .next s
    | [i] => execReading i s
    | l => s.runChain l (p.chainEnd w)

/-- The words of the issuing split's next issue group. -/
def attemptWords (s : State) : Result :=
  match s.packetAt with
  | .stopped t => .next t
  | .packet p t =>
      match t.runGroup p with
      | .next v => .next (t.afterWords (Packet.group p (firstWord p t.split.word)) v)
      | r => r

/-- What a split that is about to issue does instead: a recoverable fault is taken first where its group has a handler (R358), an armed
breakpoint stops its group (R373). -/
def beforeIssue (s : State) : Option State :=
  match if tvecValid s.context.tvec then s.recoverableDue else none with
  | some r => some (s.takeRecoverable r)
  | none => if s.atBreakpoint then some (s.debugStop 2) else none

/-- A recoverable fault of a group without a handler is posted at the boundary, and the group goes on (R358). -/
def unheard (s : State) : Option State :=
  if tvecValid s.context.tvec then none else s.recoverableDue.map s.posted

/-- One issue group of a split: held, or about to issue. -/
def attempt (s : State) (core slot n : Nat) : Result :=
  let s := s.onSplit core slot n
  match s.attemptWords with
  | .next t =>
      if t.last = .held then .next t
      else
        match s.unheard with
        | none => .next (s.beforeIssue.getD t)
        | some u => match u.beforeIssue with
          | some v => .next v
          | none => u.attemptWords
  | r => r

/-- A split could issue on this clock (R113). -/
def couldIssue (s : State) (core slot n : Nat) : Bool :=
  match s.attempt core slot n with
  | .next t => t.last != .held
  | _ => true

/-! ## Arrivals of held words (R140, R142) -/

/-- The issue group at which the issuing split stands, its packet fetched. -/
def standing (s : State) : List Reading × State :=
  match s.packetAt with
  | .packet p t =>
      let w := firstWord p t.split.word
      (Packet.group p w, t.setSplit { t.split with word := w })
  | .stopped _ => ([], s)

/-- The barrier of a BAR.SYNC in the issue group at which the issuing split stands, where it has not arrived yet (R142). -/
def syncDue (s : State) : Option (BitVec 4) :=
  let g := s.standing
  if g.2.split.arrivalHere.isSome then none
  else g.1.findSome? fun i => match i with
    | .plain (.barSync b) => some b
    | _ => none

/-- A BAR.SYNC that a split stands at makes its arrival where every other condition of its issue group is met (R142). -/
def arriveHeld (s : State) (core : Nat) (e : Nat × Nat × Split) : State :=
  let u := s.onSplit core e.1 e.2.1
  match u.syncDue with
  | none => s
  | some bar =>
      match u.attemptWords with
      | .next t =>
          if t.last = .held then (if t.split.arrivalHere.isSome then t else s)
          else if t.last = .done then u.standing.2.afterRelease fun s => (s.syncArrive bar.toNat).1.held s.holdOf
          else s
      | _ => s

/-- An arrival is among the words of a split's next issue group (R141, R142). -/
def arrives (s : State) (core slot n : Nat) : Bool :=
  let u := s.onSplit core slot n
  u.syncDue.isSome || u.standing.1.any fun i => match i with
    | .plain (.barArrive _ _) => true
    | _ => false

/-- Arrivals take effect in ascending group slot: those below an issuing split that arrives come before its own (R140). -/
def arrivedBelow (s : State) (core slot n : Nat) : State :=
  if s.arrives core slot n then
    ((s.candidates core).filter fun e => e.1 < slot || (e.1 == slot && e.2.1 < n)).foldl (fun s e => s.arriveHeld core e) s
  else s

/-- The arrivals of a clock that follow what the split of a slot has issued; all of them where none has issued (R140). -/
def arrivedAfter (s : State) (core : Nat) (me : List (Nat × Nat)) : State :=
  ((s.candidates core).filter fun e => !me.contains (e.1, e.2.1)).foldl (fun s e => s.arriveHeld core e) s

/-! ## After an issue (R113 to R115, R375) -/

/-- The splits of a core that have not issued on this clock: `me` are those that have (R113, R135). -/
def othersPassed (s : State) (core : Nat) (me : List (Nat × Nat)) : State :=
  let ready := (s.candidates core).filter fun e => s.couldIssue core e.1 e.2.1
  let passed := fun (gk n : Nat) (x : Split) =>
    if me.contains (gk % 16, n) then x else passedOver (ready.any fun e => e.1 == gk % 16 && e.2.1 == n) x
  (s.groupsOn core).foldl (fun s gk =>
    let g := s.groupAt gk
    s.setGroupAt gk { g with splits := g.splits.mapVal (passed gk) }) s

/-- What follows an issue group of a split that has not been held; `also` has issued with it (R135). -/
def settle (s : State) (core slot n : Nat) (also : List (Nat × Nat) := []) : State :=
  let s := s.afterIssue core slot n
  let t := (s.arrivedAfter core ((slot, n) :: also)).othersPassed core ((slot, n) :: also)
  { t with cur := s.cur, last := s.last }

/-- A clock on which no split of a core has issued. -/
def idled (s : State) (core : Nat) : State :=
  { (s.arrivedAfter core []).othersPassed core [] with cur := s.cur, last := .idle }

/-! ## Two groups that issue together (R135) -/

/-- The split of a core whose held REGROUP the issuing one has met. -/
def metPartner (s : State) (core : Nat) : Option (Nat × Nat) :=
  (s.groupsOn core).findSome? fun gk =>
    ((s.groupAt gk).splits.find? fun e => match e.2.hold.bind Hold.regroup with
      | some r => partnerMet ≤ r.1
      | none => false).map fun e => (gk % 16, e.1)

/-- The partner of a rendezvous issues on the same clock: `s` is the state before the issuing split's words, `t` the one after
them. None where the partner's issue group cannot proceed: the issuing split then waits. A partner that has a fault to take, or meets
a breakpoint, does that first. -/
def withPartner (s t : State) (core slot n : Nat) (k : Nat × Nat) : Option Result :=
  match (s.onSplit core k.1 k.2).beforeIssue with
  | some v => some (.next (v.settle core k.1 k.2))
  | none =>
      match (t.onSplit core k.1 k.2).attemptWords with
      | .next v =>
          if v.last = .held then none
          else some (.next ({ (v.afterIssue core k.1 k.2).onSplit core slot n with last := t.last }.settle core slot n [k]))
      | r => some r

/-- Words of which one group's come before another's on one clock: what it frees the other pushes, what it pushes the other pops
(R312). -/
def goesFirst (a b : List Reading) : Bool :=
  let frees := a.filterMap fun i => match i with
    | .plain (.rfree _ ch _) => some ch.toNat
    | _ => none
  let pushes := fun (l : List Reading) => (l.map fun i => i.facts.pushes).flatten
  let pops := (b.map fun i => i.facts.pops).flatten
  meets frees (pushes b) || meets (pushes a) pops

/-- Of two splits whose groups issue together the first goes first: as R312 has it, else the one in the lower group slot (R240,
R312). -/
def inOrder (s : State) (core : Nat) (e k : Nat × Nat) : Bool :=
  let a := (s.onSplit core e.1 e.2).standing.1
  let b := (s.onSplit core k.1 k.2).standing.1
  if goesFirst a b = goesFirst b a then e.1 < k.1 else goesFirst a b

/-- A split's REGROUP is held anew, as if it had not been reached. -/
def unreached (s : State) (core : Nat) (k : Nat × Nat) : State :=
  let s := s.onSplit core k.1 k.2
  s.setSplit { s.split with hold := s.split.hold.map fun h => { h with regroup := none } }

/-- Two groups issue together: `u` is the state before the issuing split `e` has met its partner `k`, `t` the one after its words. Where
the partner's words come first, the issuing split is held and the partner meets it (R135, R240, R312). -/
def together (u t : State) (core : Nat) (e k : Nat × Nat) : Option Result :=
  if u.inOrder core e k then u.withPartner t core e.1 e.2 k
  else
    let u' := u.unreached core k
    match u'.attempt core e.1 e.2 with
    | .next w =>
        let w := { (u'.onSplit core e.1 e.2).setSplit w.split with last := .held }
        match w.attempt core k.1 k.2 with
        | .next v => if v.last != .held && v.metPartner core == some e then w.withPartner v core k.1 k.2 e
            else u.withPartner t core e.1 e.2 k
        | r => some r
    | r => some r

/-! ## The choice (R113) -/

/-- A held split is remembered as held; an arrival that its word has made is not (it is made in its order). -/
def remember (s t : State) : State :=
  if t.split.arrivals = s.split.arrivals then t
  else { s.setSplit { t.split with arrivals := s.split.arrivals } with last := .held }

/-- The first split in the arbiter's order that is not held issues; what the held ones remember stays. -/
def tryAll (core : Nat) : List (Nat × Nat × Split) → State → Result
  | [], s => .next { s with last := .idle }
  | e :: rest, s =>
      let u := s.arrivedBelow core e.1 e.2.1
      match u.attempt core e.1 e.2.1 with
      | .next t =>
          if t.last = .held then tryAll core rest ((s.onSplit core e.1 e.2.1).remember t)
          else
            match t.metPartner core with
            | none => .next (t.settle core e.1 e.2.1)
            | some k => (u.together t core (e.1, e.2.1) k).getD (tryAll core rest s)
      | r => r

/-- A step of the debugger whose packet has been issued ends before the core's next issue (R375). -/
def endStep (s : State) (gk : Nat) : State :=
  match (s.sysAt gk).stop with
  | some t =>
      if t.ended then { s with cur := { core := coreOfKey gk, slot := gk % 16, split := t.step.getD t.split } }.stepEnd else s
  | none => s

/-- A core at its clock: steps end, records and merges take effect (R105, R375). -/
def readied (s : State) (core : Nat) : State :=
  let s := ((s.groupsOn core).foldl endStep s).mergeCore core
  { s with cur := { s.cur with core := core } }

/-- One clock of a core, on which it issues at most one issue group (R66): the arbiter's choice issues (R113); where none can, work
that the core has outstanding goes on. -/
def issueOn (s : State) (core : Nat) : Result :=
  if !s.hw.power.computeUp || (s.coreAt core).paused || (s.coreAt core).turnAt == some s.now then .next { s with last := .idle }
  else
    match tryAll core ((s.readied core).arbiterOrder core) (s.readied core) with
    | .next t => .next (if t.last = .idle then (t.idled core).proceed core else t)
    | r => r

end State

end Sys2Proof.Machine
end

