-- ==== Sys2Proof/Machine/Step.lean ====
section
/-!
DEFINITION. One step of the module: the next turn of the schedule, else the clock moves on and the core at hand issues. Beside
it, the state in which a given word is the next to be fetched.
-/

namespace Sys2Proof.Machine

namespace State

/-- The turn at hand: the first of the schedule, else one clock of the core that issued last. -/
def turn (s : State) : Turn := s.schedule.head?.getD { clocks := 1, core := s.cur.core, event := none }

/-- The state in which the turn at hand happens: loads have read early as it says (R253), its clocks have passed, and the security cores
vote as it says (R27). -/
def advanced (s : State) : State :=
  let t := s.turn.early.foldl takeEarly s
  { t with schedule := s.schedule.tail, now := s.now + s.turn.clocks, hw := { t.hw with votes := s.turn.votes } }

/-- The module has power, or the turn at hand brings it (R432, R436). -/
def powered (s : State) : Bool :=
  s.hw.power.moduleUp || match s.turn.event with
    | some (.powerUp _) => true
    | _ => false

end State

/-- One step (R65, R66, R113). -/
def step (s : State) : Host.Outcome State Fault Refusal :=
  if !s.powered then .fault .unpowered
  else
    match s.turn.event with
    | some e => exec e s.advanced
    | none => s.advanced.issueOn s.turn.core

/-! ## A word to be fetched next -/

/-- The leaf of page 0 of the context that `withFetchWord` sets up: readable, executable, clear, of frame 0 (R379). -/
def fetchLeaf : DWord := 0x17

/-- The launch header of the block that `withFetchWord` sets up: its code at address 0, one stage with 128 vector registers, 63
relays (R117, R118). -/
def fetchHeader : Header :=
  { Header.none with stages := [{ entry := 0, min := 1, max := 1, vregs := 7, barmask := 0 }], blocks := 1, relays := 63 }

/-- The block's one group, about to fetch packet 0: spawned where the word is ATTACH, at S where it is a SYS word, else attached
at U (R81, R125, R132). -/
def fetchGroup (w : Word) : Group :=
  { Group.free with
    phase := if decodeReading w matches .ok (.plain .attach) then .spawned else .attached
    block := 1
    level := if (w.extractLsb' 25 6).toNat = 0x3B then .s else .u
    splits := [(0, { Split.none with mask := BitVec.allOnes 96 })] }

namespace State

/-- `s` with a word stored where the next step fetches: packet 0 of context 1 at physical address 0, NOPs after it. The group
that fetches it is the only one of core 0, its block is the only block of launch 1, and the core's TLB holds the leaf of the page. -/
def withFetchWord (s : State) (nbits w : Nat) : State :=
  let x := BitVec.ofNat 32 (w % 2 ^ nbits)
  { s with
    cur := { core := 0, slot := 0, split := 0 }
    schedule := []
    groups := [(0, fetchGroup x)]
    sys := [(0, { GroupSys.free with
      seg := { Segments.none with g := segment 0 (2 ^ 60) }, segAttach := { Segments.none with g := segment 0 (2 ^ 60) } })]
    blocks := [(1, { Block.none with launch := 1, context := 1, header := fetchHeader })]
    launches := [(1, { Launch.none with context := 1, phase := .ready, header := fetchHeader, next := 1 })]
    nextId := 2
    cores := [(0, { CoreState.reset with tlb := [{ context := 1, va := 0, level := 0, leaf := fetchLeaf }] })]
    contexts := [(1, { Context.none with vdies := [0] })]
    firm := [(1, ContextFirm.none)]
    mem := s.mem.write 0 12 (x.toNat)
    hw := { s.hw with
      frames := [(0, { FrameRecord.free with owner := 1, state := .owned })]
      partitions := [(0, { Partition.none with valid := true })] } }

end State

end Sys2Proof.Machine
end

