-- ==== Sys2Proof/Laws/Encoding.lean ====
section
/-!
SUPPORT. Fields of an encoded word: what each format lays out is what the decoder reads back (R61, R73 to R79).
-/

set_option Elab.async false

namespace Sys2Proof

/-- A field below the seam of two joined values. -/
theorem field_low (x : BitVec m) (y : BitVec n) (k l : Nat) (h : k + l ≤ n) :
    (x ++ y).extractLsb' k l = y.extractLsb' k l := by
  ext i hi
  simp only [BitVec.getElem_extractLsb', BitVec.getLsbD_append]
  rw [if_pos (by omega)]

/-- A field above the seam. -/
theorem field_high (x : BitVec m) (y : BitVec n) (k l : Nat) (h : n ≤ k) :
    (x ++ y).extractLsb' k l = x.extractLsb' (k - n) l := by
  ext i hi
  simp only [BitVec.getElem_extractLsb', BitVec.getLsbD_append]
  rw [if_neg (by omega), show k + i - n = k - n + i by omega]

theorem bit_low (x : BitVec m) (y : BitVec n) (k : Nat) (h : k < n) : (x ++ y).getLsbD k = y.getLsbD k := by
  rw [BitVec.getLsbD_append, if_pos (by simpa using h)]

theorem bit_high (x : BitVec m) (y : BitVec n) (k : Nat) (h : n ≤ k) : (x ++ y).getLsbD k = x.getLsbD (k - n) := by
  rw [BitVec.getLsbD_append, if_neg (by simpa using h)]

theorem field_whole (x : BitVec n) (k : Nat) (h : k = 0) : x.extractLsb' k n = x := by
  subst h
  ext i hi
  simp

/-- A field of a body fitted into its place. -/
theorem field_fit (x : BitVec n) (w k l : Nat) (h : k + l ≤ w) : (x.setWidth w).extractLsb' k l = x.extractLsb' k l := by
  ext i hi
  simp only [BitVec.getElem_extractLsb', BitVec.getLsbD_setWidth]
  simp; omega

theorem bit_fit (x : BitVec n) (w k : Nat) (h : k < w) : (x.setWidth w).getLsbD k = x.getLsbD k := by simp [h]

theorem bit_ofBool (b : Bool) (k : Nat) (h : k = 0) : (BitVec.ofBool b).getLsbD k = b := by
  subst h
  cases b <;> rfl

theorem field_ofBool (b : Bool) (k : Nat) (h : k = 0) : (BitVec.ofBool b).extractLsb' k 1 = BitVec.ofBool b :=
  field_whole _ k h

/-! ## Whole words -/

theorem wordOf_major (c : Bool) (m : BitVec 6) (b : BitVec n) : (wordOf c m b).extractLsb' 25 6 = m := by
  simp (disch := omega) only [wordOf, field_high, field_low, field_whole]

theorem wordOf_field (c : Bool) (m : BitVec 6) (b : BitVec n) (k l : Nat) (h : k + l ≤ 25) :
    (wordOf c m b).extractLsb' k l = b.extractLsb' k l := by
  simp (disch := omega) only [wordOf, field_low, field_fit]

theorem wordOf_bit (c : Bool) (m : BitVec 6) (b : BitVec n) (k : Nat) (h : k < 25) :
    (wordOf c m b).getLsbD k = b.getLsbD k := by
  simp (disch := omega) only [wordOf, bit_low, bit_fit]

theorem wordOf_chain (c : Bool) (m : BitVec 6) (b : BitVec n) : chainBit (wordOf c m b) = c := by
  simp (disch := omega) only [chainBit, wordOf, bit_high, bit_ofBool]

theorem fx_fn (c : Bool) (m : BitVec 6) (fn : BitVec 4) (b : BitVec n) : (fx c m fn b).extractLsb' 21 4 = fn := by
  simp (disch := omega) only [fx, wordOf_field, field_high, field_whole]

theorem fx_field (c : Bool) (m : BitVec 6) (fn : BitVec 4) (b : BitVec n) (k l : Nat) (h : k + l ≤ 21) :
    (fx c m fn b).extractLsb' k l = b.extractLsb' k l := by
  simp (disch := omega) only [fx, wordOf_field, field_low, field_fit]

theorem fx_bit (c : Bool) (m : BitVec 6) (fn : BitVec 4) (b : BitVec n) (k : Nat) (h : k < 21) :
    (fx c m fn b).getLsbD k = b.getLsbD k := by
  simp (disch := omega) only [fx, wordOf_bit, bit_low, bit_fit]

theorem v3_fields (c : Bool) (m : BitVec 6) (d a b : VReg) (fn : BitVec 4) :
    (v3 c m d a b fn).extractLsb' 0 4 = fn ∧ (v3 c m d a b fn).extractLsb' 4 7 = b ∧
    (v3 c m d a b fn).extractLsb' 11 7 = a ∧ (v3 c m d a b fn).extractLsb' 18 7 = d := by
  simp (disch := omega) only [v3, wordOf_field, field_high, field_low, field_whole, and_self]

theorem vs_fields (c : Bool) (m : BitVec 6) (d a : VReg) (s : SReg) (fn : BitVec 5) :
    (vs c m d a s fn).extractLsb' 0 5 = fn ∧ (vs c m d a s fn).extractLsb' 5 6 = s ∧
    (vs c m d a s fn).extractLsb' 11 7 = a ∧ (vs c m d a s fn).extractLsb' 18 7 = d := by
  simp (disch := omega) only [vs, wordOf_field, field_high, field_low, field_whole, and_self]

theorem s3_fields (c : Bool) (m : BitVec 6) (d : SDst) (a b : SSrc) (fn : BitVec 2) :
    (s3 c m d a b fn).extractLsb' 0 2 = fn ∧ (s3 c m d a b fn).extractLsb' 2 6 = b.fields.2.2 ∧
    (s3 c m d a b fn).getLsbD 8 = b.fields.2.1 ∧ (s3 c m d a b fn).getLsbD 9 = b.fields.1 ∧
    (s3 c m d a b fn).extractLsb' 10 6 = a.fields.2.2 ∧ (s3 c m d a b fn).getLsbD 16 = a.fields.2.1 ∧
    (s3 c m d a b fn).getLsbD 17 = a.fields.1 ∧ (s3 c m d a b fn).extractLsb' 18 6 = d.fields.2 ∧
    (s3 c m d a b fn).getLsbD 24 = d.fields.1 := by
  simp (disch := omega) only [s3, wordOf_field, wordOf_bit, field_high, field_low, field_whole, bit_high, bit_low, bit_ofBool,
    and_self]

theorem si_fields (c : Bool) (m : BitVec 6) (d : SDst) (fn : BitVec 2) (i : BitVec 16) :
    (si c m d fn i).extractLsb' 0 16 = i ∧ (si c m d fn i).extractLsb' 16 2 = fn ∧
    (si c m d fn i).extractLsb' 18 6 = d.fields.2 ∧ (si c m d fn i).getLsbD 24 = d.fields.1 := by
  simp (disch := omega) only [si, wordOf_field, wordOf_bit, field_high, field_low, field_whole, bit_high, bit_ofBool,
    and_self]

theorem sm_fields (c : Bool) (m : BitVec 6) (d b : SReg) (fn : BitVec 2) (i : BitVec 11) :
    (sm c m d b fn i).extractLsb' 0 11 = i ∧ (sm c m d b fn i).extractLsb' 11 2 = fn ∧
    (sm c m d b fn i).extractLsb' 13 6 = b ∧ (sm c m d b fn i).extractLsb' 19 6 = d := by
  simp (disch := omega) only [sm, wordOf_field, field_high, field_low, field_whole, and_self]

theorem fm_fields (c : Bool) (m : BitVec 6) (x o : VReg) (b : SReg) (fn : BitVec n) :
    (fm c m x o b fn).extractLsb' 5 6 = b ∧ (fm c m x o b fn).extractLsb' 11 7 = o ∧
    (fm c m x o b fn).extractLsb' 18 7 = x := by
  simp (disch := omega) only [fm, wordOf_field, field_high, field_low, field_whole, and_self]

theorem fm_field (c : Bool) (m : BitVec 6) (x o : VReg) (b : SReg) (fn : BitVec n) (k l : Nat) (h : k + l ≤ 5) :
    (fm c m x o b fn).extractLsb' k l = fn.extractLsb' k l := by
  simp (disch := omega) only [fm, wordOf_field, field_low, field_fit]

theorem fm_bit (c : Bool) (m : BitVec 6) (x o : VReg) (b : SReg) (fn : BitVec n) (k : Nat) (h : k < 5) :
    (fm c m x o b fn).getLsbD k = fn.getLsbD k := by
  simp (disch := omega) only [fm, wordOf_bit, bit_low, bit_fit]

end Sys2Proof
end

