-- ==== Sys2Proof/Laws/PerInstr.lean ====
section
/-!
SUPPORT. The family DecodeEncode: what the encoder writes for a well-formed instruction, the decoder reads back, chain bit and
all.
-/

set_option Elab.async false

set_option linter.unusedSimpArgs false

namespace Sys2Proof

/-! ## Codes -/

theorem IntCond.of_code (x : IntCond) : IntCond.ofNat? (BitVec.ofNat 4 x.code).toNat = some x := by cases x <;> rfl
theorem IntType.of_code (x : IntType) : IntType.ofNat? (BitVec.ofNat 4 x.code).toNat = some x := by cases x <;> rfl
theorem FloatCond.of_code (x : FloatCond) : FloatCond.ofNat? (BitVec.ofNat 4 x.code).toNat = some x := by cases x <;> rfl
theorem FloatType.of_code (x : FloatType) : FloatType.ofNat? (BitVec.ofNat 4 x.code).toNat = some x := by cases x <;> rfl
theorem SubWidth.of_code (x : SubWidth) : SubWidth.ofNat? (BitVec.ofNat 3 x.code).toNat = some x := by cases x <;> rfl
theorem LaneOp.of_code (x : LaneOp) : LaneOp.ofCode (BitVec.ofNat 3 x.code).toNat = x := by cases x <;> rfl
theorem Fmt.of_code (x : Fmt) : Fmt.ofCode (BitVec.ofNat 4 x.code).toNat = x := by cases x <;> rfl
theorem Rnd.of_code (x : Rnd) : Rnd.ofNat? (BitVec.ofNat 3 x.code).toNat = some x := by cases x <;> rfl
theorem LoadWidth.of_code (x : LoadWidth) : LoadWidth.ofNat? (BitVec.ofNat 3 x.code).toNat = some x := by cases x <;> rfl
theorem StoreWidth.of_code (x : StoreWidth) : StoreWidth.ofNat? (BitVec.ofNat 3 x.code).toNat = some x := by cases x <;> rfl
theorem Scope.of_code (x : Scope) : Scope.ofNat? (BitVec.ofNat 3 x.code).toNat = some x := by cases x <;> rfl
theorem Sem.of_code (x : Sem) : Sem.ofNat? (BitVec.ofNat 2 x.code).toNat = some x := by cases x <;> rfl
theorem AtomFn.of_code (x : AtomFn) : AtomFn.ofNat? (BitVec.ofNat 5 x.code).toNat = some x := by cases x <;> rfl
theorem LatWidth.of_code (x : LatWidth) : LatWidth.ofNat? (BitVec.ofNat 3 x.code).toNat = some x := by cases x <;> rfl
theorem CopyDir.of_code (x : CopyDir) : CopyDir.ofNat? (BitVec.ofNat 3 x.code).toNat = some x := by cases x <;> rfl
theorem AccForm.of_code (x : AccForm) : AccForm.ofNat? (BitVec.ofNat 2 x.code).toNat = some x := by cases x <;> rfl
theorem Seg.of_code (x : Seg) : Seg.ofNat? (BitVec.ofNat 3 x.code).toNat = some x := by cases x <;> rfl
theorem LatType.of_code (x : LatType) : LatType.ofNat? (BitVec.ofNat 4 x.code).toNat = some x := by cases x <;> rfl

theorem SDst.of_fields (d : SDst) : SDst.ofFields d.fields.1 d.fields.2 = d := by cases d <;> rfl

theorem SSrc.of_fields (a : SSrc) : SSrc.ofFields? a.fields.1 a.fields.2.1 a.fields.2.2 = some a := by cases a <;> rfl

/-! ## Majors (R80) -/

theorem round_plain {c : Bool} {m : BitVec 6} {b : BitVec n} {i : Instr} (hm : m.toNat ≠ 0x3B)
    (h : decodePlain (wordOf c m b) = .ok i) :
    decode (wordOf c m b) = .ok i ∧ chainBit (wordOf c m b) = c := by
  refine ⟨?_, wordOf_chain c m b⟩
  rw [decode, decodeReading, wordOf_major, if_neg hm, h]
  rfl

theorem round_sys {c : Bool} {b : BitVec n} {r : Reading} (h : decodeSys (wordOf c 0x3B b) = .ok r) :
    decode (wordOf c 0x3B b) = .ok r.instr ∧ chainBit (wordOf c 0x3B b) = c := by
  refine ⟨?_, wordOf_chain c 0x3B b⟩
  rw [decode, decodeReading, wordOf_major, if_pos (show (0x3B : BitVec 6).toNat = 0x3B from rfl), h]
  rfl

/-- Two bits of a body are zero where each is. -/
theorem two_zero (x : BitVec n) (k : Nat) (h0 : x.getLsbD k = false) (h1 : x.getLsbD (k + 1) = false) :
    x.extractLsb' k 2 = 0 := by
  ext i hi
  have : i = 0 ∨ i = 1 := by omega
  rcases this with rfl | rfl <;> simp [BitVec.getElem_extractLsb', *]

/-- The K and P fields of a word whose operands are registers. -/
theorem s3_regs (c : Bool) (m : BitVec 6) (d a b : BitVec 6) (fn : BitVec 2) :
    (s3 c m (.reg d) (.reg a) (.reg b) fn).extractLsb' 24 1 = 0 ∧
    (s3 c m (.reg d) (.reg a) (.reg b) fn).extractLsb' 16 2 = 0 ∧
    (s3 c m (.reg d) (.reg a) (.reg b) fn).extractLsb' 8 2 = 0 := by
  refine ⟨?_, two_zero _ _ ?_ ?_, two_zero _ _ ?_ ?_⟩ <;>
    simp (disch := omega) only [s3, wordOf_field, wordOf_bit, field_high, field_low, field_whole, bit_high, bit_low, bit_ofBool,
      SDst.fields, SSrc.fields, BitVec.ofBool_false] <;> rfl

theorem s3_kb (c : Bool) (m : BitVec 6) (d : SDst) (a : SSrc) (b : BitVec 6) (fn : BitVec 2) :
    (s3 c m d a (.reg b) fn).extractLsb' 8 2 = 0 := by
  refine two_zero _ _ ?_ ?_ <;>
    simp (disch := omega) only [s3, wordOf_bit, bit_high, bit_low, bit_ofBool, SSrc.fields]

theorem plain_01 (c : Bool) (b : BitVec n) :
    decodePlain (wordOf c 0x01 b) = decodeSalu 1 (wordOf c 0x01 b) := by
  rw [decodePlain, wordOf_major]; rfl
theorem plain_02 (c : Bool) (b : BitVec n) :
    decodePlain (wordOf c 0x02 b) = decodeSalu 2 (wordOf c 0x02 b) := by
  rw [decodePlain, wordOf_major]; rfl
theorem plain_03 (c : Bool) (b : BitVec n) :
    decodePlain (wordOf c 0x03 b) = decodeSalu 3 (wordOf c 0x03 b) := by
  rw [decodePlain, wordOf_major]; rfl
theorem plain_04 (c : Bool) (b : BitVec n) :
    decodePlain (wordOf c 0x04 b) = decodeSalu 4 (wordOf c 0x04 b) := by
  rw [decodePlain, wordOf_major]; rfl
theorem plain_05 (c : Bool) (b : BitVec n) :
    decodePlain (wordOf c 0x05 b) = decodeSalu 5 (wordOf c 0x05 b) := by
  rw [decodePlain, wordOf_major]; rfl
theorem plain_06 (c : Bool) (b : BitVec n) :
    decodePlain (wordOf c 0x06 b) = decodeSalu64 (wordOf c 0x06 b) := by
  rw [decodePlain, wordOf_major]; rfl
theorem plain_07 (c : Bool) (b : BitVec n) :
    decodePlain (wordOf c 0x07 b) = decodeSimm 7 (wordOf c 0x07 b) := by
  rw [decodePlain, wordOf_major]; rfl
theorem plain_08 (c : Bool) (b : BitVec n) :
    decodePlain (wordOf c 0x08 b) = decodeSimm 8 (wordOf c 0x08 b) := by
  rw [decodePlain, wordOf_major]; rfl
theorem plain_09 (c : Bool) (b : BitVec n) :
    decodePlain (wordOf c 0x09 b) = decodeSmem (wordOf c 0x09 b) := by
  rw [decodePlain, wordOf_major]; rfl
theorem plain_0A (c : Bool) (b : BitVec n) :
    decodePlain (wordOf c 0x0A b) = decodeSpec (wordOf c 0x0A b) := by
  rw [decodePlain, wordOf_major]; rfl
theorem plain_0B (c : Bool) (b : BitVec n) :
    decodePlain (wordOf c 0x0B b) = decodeBranch (wordOf c 0x0B b) := by
  rw [decodePlain, wordOf_major]; rfl
theorem plain_0C (c : Bool) (b : BitVec n) :
    decodePlain (wordOf c 0x0C b) = decodeControl 0x0C (wordOf c 0x0C b) := by
  rw [decodePlain, wordOf_major]; rfl
theorem plain_0D (c : Bool) (b : BitVec n) :
    decodePlain (wordOf c 0x0D b) = decodeControl 0x0D (wordOf c 0x0D b) := by
  rw [decodePlain, wordOf_major]; rfl
theorem plain_0E (c : Bool) (b : BitVec n) :
    decodePlain (wordOf c 0x0E b) = decodeWait (wordOf c 0x0E b) := by
  rw [decodePlain, wordOf_major]; rfl
theorem plain_0F (c : Bool) (b : BitVec n) :
    decodePlain (wordOf c 0x0F b) = decodeControl 0x0F (wordOf c 0x0F b) := by
  rw [decodePlain, wordOf_major]; rfl
theorem plain_10 (c : Bool) (b : BitVec n) :
    decodePlain (wordOf c 0x10 b) = decodeBlock 0x10 (wordOf c 0x10 b) := by
  rw [decodePlain, wordOf_major]; rfl
theorem plain_11 (c : Bool) (b : BitVec n) :
    decodePlain (wordOf c 0x11 b) = decodeBlock 0x11 (wordOf c 0x11 b) := by
  rw [decodePlain, wordOf_major]; rfl
theorem plain_12 (c : Bool) (b : BitVec n) :
    decodePlain (wordOf c 0x12 b) = decodeVInt0 (wordOf c 0x12 b) := by
  rw [decodePlain, wordOf_major]; rfl
theorem plain_13 (c : Bool) (b : BitVec n) :
    decodePlain (wordOf c 0x13 b) = decodeVInt1 (wordOf c 0x13 b) := by
  rw [decodePlain, wordOf_major]; rfl
theorem plain_14 (c : Bool) (b : BitVec n) :
    decodePlain (wordOf c 0x14 b) = decodeVImm (wordOf c 0x14 b) := by
  rw [decodePlain, wordOf_major]; rfl
theorem plain_15 (c : Bool) (b : BitVec n) :
    decodePlain (wordOf c 0x15 b) = decodeVScal (wordOf c 0x15 b) := by
  rw [decodePlain, wordOf_major]; rfl
theorem plain_16 (c : Bool) (b : BitVec n) :
    decodePlain (wordOf c 0x16 b) = decodeVCmp (wordOf c 0x16 b) := by
  rw [decodePlain, wordOf_major]; rfl
theorem plain_17 (c : Bool) (b : BitVec n) :
    decodePlain (wordOf c 0x17 b) = decodePred (wordOf c 0x17 b) := by
  rw [decodePlain, wordOf_major]; rfl
theorem plain_18 (c : Bool) (b : BitVec n) :
    decodePlain (wordOf c 0x18 b) = decodeXLane (wordOf c 0x18 b) := by
  rw [decodePlain, wordOf_major]; rfl
theorem plain_19 (c : Bool) (b : BitVec n) :
    decodePlain (wordOf c 0x19 b) = decodeF32A (wordOf c 0x19 b) := by
  rw [decodePlain, wordOf_major]; rfl
theorem plain_1A (c : Bool) (b : BitVec n) :
    decodePlain (wordOf c 0x1A b) = decodeF32B (wordOf c 0x1A b) := by
  rw [decodePlain, wordOf_major]; rfl
theorem plain_1B (c : Bool) (b : BitVec n) :
    decodePlain (wordOf c 0x1B b) = decodeF64A (wordOf c 0x1B b) := by
  rw [decodePlain, wordOf_major]; rfl
theorem plain_1C (c : Bool) (b : BitVec n) :
    decodePlain (wordOf c 0x1C b) = decodeF64B (wordOf c 0x1C b) := by
  rw [decodePlain, wordOf_major]; rfl
theorem plain_1D (c : Bool) (b : BitVec n) :
    decodePlain (wordOf c 0x1D b) = decodeBF2 (wordOf c 0x1D b) := by
  rw [decodePlain, wordOf_major]; rfl
theorem plain_1E (c : Bool) (b : BitVec n) :
    decodePlain (wordOf c 0x1E b) = decodeFCmp (wordOf c 0x1E b) := by
  rw [decodePlain, wordOf_major]; rfl
theorem plain_1F (c : Bool) (b : BitVec n) :
    decodePlain (wordOf c 0x1F b) = decodeConvert false (wordOf c 0x1F b) := by
  rw [decodePlain, wordOf_major]; rfl
theorem plain_20 (c : Bool) (b : BitVec n) :
    decodePlain (wordOf c 0x20 b) = decodeConvert true (wordOf c 0x20 b) := by
  rw [decodePlain, wordOf_major]; rfl
theorem plain_21 (c : Bool) (b : BitVec n) :
    decodePlain (wordOf c 0x21 b) = decodePack 0x21 (wordOf c 0x21 b) := by
  rw [decodePlain, wordOf_major]; rfl
theorem plain_22 (c : Bool) (b : BitVec n) :
    decodePlain (wordOf c 0x22 b) = decodePack 0x22 (wordOf c 0x22 b) := by
  rw [decodePlain, wordOf_major]; rfl
theorem plain_23 (c : Bool) (b : BitVec n) :
    decodePlain (wordOf c 0x23 b) = decodeMemory 0x23 (wordOf c 0x23 b) := by
  rw [decodePlain, wordOf_major]; rfl
theorem plain_24 (c : Bool) (b : BitVec n) :
    decodePlain (wordOf c 0x24 b) = decodeMemory 0x24 (wordOf c 0x24 b) := by
  rw [decodePlain, wordOf_major]; rfl
theorem plain_25 (c : Bool) (b : BitVec n) :
    decodePlain (wordOf c 0x25 b) = decodeMemory 0x25 (wordOf c 0x25 b) := by
  rw [decodePlain, wordOf_major]; rfl
theorem plain_26 (c : Bool) (b : BitVec n) :
    decodePlain (wordOf c 0x26 b) = decodeMemory 0x26 (wordOf c 0x26 b) := by
  rw [decodePlain, wordOf_major]; rfl
theorem plain_27 (c : Bool) (b : BitVec n) :
    decodePlain (wordOf c 0x27 b) = decodeMemory 0x27 (wordOf c 0x27 b) := by
  rw [decodePlain, wordOf_major]; rfl
theorem plain_28 (c : Bool) (b : BitVec n) :
    decodePlain (wordOf c 0x28 b) = decodeMemory 0x28 (wordOf c 0x28 b) := by
  rw [decodePlain, wordOf_major]; rfl
theorem plain_29 (c : Bool) (b : BitVec n) :
    decodePlain (wordOf c 0x29 b) = decodeAtomic 0x29 (wordOf c 0x29 b) := by
  rw [decodePlain, wordOf_major]; rfl
theorem plain_2A (c : Bool) (b : BitVec n) :
    decodePlain (wordOf c 0x2A b) = decodeAtomic 0x2A (wordOf c 0x2A b) := by
  rw [decodePlain, wordOf_major]; rfl
theorem plain_2B (c : Bool) (b : BitVec n) :
    decodePlain (wordOf c 0x2B b) = decodeAtomic 0x2B (wordOf c 0x2B b) := by
  rw [decodePlain, wordOf_major]; rfl
theorem plain_2C (c : Bool) (b : BitVec n) :
    decodePlain (wordOf c 0x2C b) = decodeAtomic 0x2C (wordOf c 0x2C b) := by
  rw [decodePlain, wordOf_major]; rfl
theorem plain_2D (c : Bool) (b : BitVec n) :
    decodePlain (wordOf c 0x2D b) = decodeAtomic 0x2D (wordOf c 0x2D b) := by
  rw [decodePlain, wordOf_major]; rfl
theorem plain_2E (c : Bool) (b : BitVec n) :
    decodePlain (wordOf c 0x2E b) = decodeAtomic 0x2E (wordOf c 0x2E b) := by
  rw [decodePlain, wordOf_major]; rfl
theorem plain_2F (c : Bool) (b : BitVec n) :
    decodePlain (wordOf c 0x2F b) = decodeOrder 0x2F (wordOf c 0x2F b) := by
  rw [decodePlain, wordOf_major]; rfl
theorem plain_30 (c : Bool) (b : BitVec n) :
    decodePlain (wordOf c 0x30 b) = decodeOrder 0x30 (wordOf c 0x30 b) := by
  rw [decodePlain, wordOf_major]; rfl
theorem plain_31 (c : Bool) (b : BitVec n) :
    decodePlain (wordOf c 0x31 b) = decodeLattice 0x31 (wordOf c 0x31 b) := by
  rw [decodePlain, wordOf_major]; rfl
theorem plain_32 (c : Bool) (b : BitVec n) :
    decodePlain (wordOf c 0x32 b) = decodeLattice 0x32 (wordOf c 0x32 b) := by
  rw [decodePlain, wordOf_major]; rfl
theorem plain_33 (c : Bool) (b : BitVec n) :
    decodePlain (wordOf c 0x33 b) = decodeLattice 0x33 (wordOf c 0x33 b) := by
  rw [decodePlain, wordOf_major]; rfl
theorem plain_34 (c : Bool) (b : BitVec n) :
    decodePlain (wordOf c 0x34 b) = decodeCopy 0x34 (wordOf c 0x34 b) := by
  rw [decodePlain, wordOf_major]; rfl
theorem plain_35 (c : Bool) (b : BitVec n) :
    decodePlain (wordOf c 0x35 b) = decodeCopy 0x35 (wordOf c 0x35 b) := by
  rw [decodePlain, wordOf_major]; rfl
theorem plain_36 (c : Bool) (b : BitVec n) :
    decodePlain (wordOf c 0x36 b) = decodeCopy 0x36 (wordOf c 0x36 b) := by
  rw [decodePlain, wordOf_major]; rfl
theorem plain_37 (c : Bool) (b : BitVec n) :
    decodePlain (wordOf c 0x37 b) = decodeRelay (wordOf c 0x37 b) := by
  rw [decodePlain, wordOf_major]; rfl
theorem plain_38 (c : Bool) (b : BitVec n) :
    decodePlain (wordOf c 0x38 b) = decodeMatrix false (wordOf c 0x38 b) := by
  rw [decodePlain, wordOf_major]; rfl
theorem plain_39 (c : Bool) (b : BitVec n) :
    decodePlain (wordOf c 0x39 b) = decodeMatrix true (wordOf c 0x39 b) := by
  rw [decodePlain, wordOf_major]; rfl
theorem plain_3A (c : Bool) (b : BitVec n) :
    decodePlain (wordOf c 0x3A b) = decodeAcc (wordOf c 0x3A b) := by
  rw [decodePlain, wordOf_major]; rfl

end Sys2Proof

namespace Sys2Proof.Laws.DecodeEncode

/-- A well-formed instruction's word decodes to it, and its chain bit is the one encoded. -/
def Statement (i : Instr) : Prop :=
  staticCause i = none → ∀ c w, encode c i = some w → decode w = .ok i ∧ chainBit w = c

theorem add a0 a1 a2 : Statement (.add a0 a1 a2) := by
  intro hw c w he
  cases he
  refine round_plain (by decide) ?_
  simp (disch := omega) only [plain_01, decodeSalu, wordOf_field, wordOf_bit, field_high, field_low, field_whole, field_fit, bit_high, bit_low, bit_fit, bit_ofBool, SDst.of_fields, SSrc.of_fields]
  rfl
theorem sub a0 a1 a2 : Statement (.sub a0 a1 a2) := by
  intro hw c w he
  cases he
  refine round_plain (by decide) ?_
  simp (disch := omega) only [plain_01, decodeSalu, wordOf_field, wordOf_bit, field_high, field_low, field_whole, field_fit, bit_high, bit_low, bit_fit, bit_ofBool, SDst.of_fields, SSrc.of_fields]
  rfl
theorem and a0 a1 a2 : Statement (.and a0 a1 a2) := by
  intro hw c w he
  cases he
  refine round_plain (by decide) ?_
  simp (disch := omega) only [plain_01, decodeSalu, wordOf_field, wordOf_bit, field_high, field_low, field_whole, field_fit, bit_high, bit_low, bit_fit, bit_ofBool, SDst.of_fields, SSrc.of_fields]
  rfl
theorem or a0 a1 a2 : Statement (.or a0 a1 a2) := by
  intro hw c w he
  cases he
  refine round_plain (by decide) ?_
  simp (disch := omega) only [plain_01, decodeSalu, wordOf_field, wordOf_bit, field_high, field_low, field_whole, field_fit, bit_high, bit_low, bit_fit, bit_ofBool, SDst.of_fields, SSrc.of_fields]
  rfl
theorem xor a0 a1 a2 : Statement (.xor a0 a1 a2) := by
  intro hw c w he
  cases he
  refine round_plain (by decide) ?_
  simp (disch := omega) only [plain_02, decodeSalu, wordOf_field, wordOf_bit, field_high, field_low, field_whole, field_fit, bit_high, bit_low, bit_fit, bit_ofBool, SDst.of_fields, SSrc.of_fields]
  rfl
theorem shl a0 a1 a2 : Statement (.shl a0 a1 a2) := by
  intro hw c w he
  cases he
  refine round_plain (by decide) ?_
  simp (disch := omega) only [plain_02, decodeSalu, wordOf_field, wordOf_bit, field_high, field_low, field_whole, field_fit, bit_high, bit_low, bit_fit, bit_ofBool, SDst.of_fields, SSrc.of_fields]
  rfl
theorem shrN a0 a1 a2 : Statement (.shrN a0 a1 a2) := by
  intro hw c w he
  cases he
  refine round_plain (by decide) ?_
  simp (disch := omega) only [plain_02, decodeSalu, wordOf_field, wordOf_bit, field_high, field_low, field_whole, field_fit, bit_high, bit_low, bit_fit, bit_ofBool, SDst.of_fields, SSrc.of_fields]
  rfl
theorem shrI a0 a1 a2 : Statement (.shrI a0 a1 a2) := by
  intro hw c w he
  cases he
  refine round_plain (by decide) ?_
  simp (disch := omega) only [plain_02, decodeSalu, wordOf_field, wordOf_bit, field_high, field_low, field_whole, field_fit, bit_high, bit_low, bit_fit, bit_ofBool, SDst.of_fields, SSrc.of_fields]
  rfl
theorem minI a0 a1 a2 : Statement (.minI a0 a1 a2) := by
  intro hw c w he
  cases he
  refine round_plain (by decide) ?_
  simp (disch := omega) only [plain_03, decodeSalu, wordOf_field, wordOf_bit, field_high, field_low, field_whole, field_fit, bit_high, bit_low, bit_fit, bit_ofBool, SDst.of_fields, SSrc.of_fields]
  rfl
theorem maxI a0 a1 a2 : Statement (.maxI a0 a1 a2) := by
  intro hw c w he
  cases he
  refine round_plain (by decide) ?_
  simp (disch := omega) only [plain_03, decodeSalu, wordOf_field, wordOf_bit, field_high, field_low, field_whole, field_fit, bit_high, bit_low, bit_fit, bit_ofBool, SDst.of_fields, SSrc.of_fields]
  rfl
theorem minN a0 a1 a2 : Statement (.minN a0 a1 a2) := by
  intro hw c w he
  cases he
  refine round_plain (by decide) ?_
  simp (disch := omega) only [plain_03, decodeSalu, wordOf_field, wordOf_bit, field_high, field_low, field_whole, field_fit, bit_high, bit_low, bit_fit, bit_ofBool, SDst.of_fields, SSrc.of_fields]
  rfl
theorem maxN a0 a1 a2 : Statement (.maxN a0 a1 a2) := by
  intro hw c w he
  cases he
  refine round_plain (by decide) ?_
  simp (disch := omega) only [plain_03, decodeSalu, wordOf_field, wordOf_bit, field_high, field_low, field_whole, field_fit, bit_high, bit_low, bit_fit, bit_ofBool, SDst.of_fields, SSrc.of_fields]
  rfl
theorem mul a0 a1 a2 : Statement (.mul a0 a1 a2) := by
  intro hw c w he
  cases he
  refine round_plain (by decide) ?_
  simp (disch := omega) only [plain_04, decodeSalu, wordOf_field, wordOf_bit, field_high, field_low, field_whole, field_fit, bit_high, bit_low, bit_fit, bit_ofBool, SDst.of_fields, SSrc.of_fields]
  rfl
theorem mulhI a0 a1 a2 : Statement (.mulhI a0 a1 a2) := by
  intro hw c w he
  cases he
  refine round_plain (by decide) ?_
  simp (disch := omega) only [plain_04, decodeSalu, wordOf_field, wordOf_bit, field_high, field_low, field_whole, field_fit, bit_high, bit_low, bit_fit, bit_ofBool, SDst.of_fields, SSrc.of_fields]
  rfl
theorem mulhN a0 a1 a2 : Statement (.mulhN a0 a1 a2) := by
  intro hw c w he
  cases he
  refine round_plain (by decide) ?_
  simp (disch := omega) only [plain_04, decodeSalu, wordOf_field, wordOf_bit, field_high, field_low, field_whole, field_fit, bit_high, bit_low, bit_fit, bit_ofBool, SDst.of_fields, SSrc.of_fields]
  rfl
theorem cmpEq a0 a1 a2 : Statement (.cmpEq a0 a1 a2) := by
  intro hw c w he
  cases he
  refine round_plain (by decide) ?_
  simp (disch := omega) only [plain_04, decodeSalu, wordOf_field, wordOf_bit, field_high, field_low, field_whole, field_fit, bit_high, bit_low, bit_fit, bit_ofBool, SDst.of_fields, SSrc.of_fields]
  rfl
theorem cmpNe a0 a1 a2 : Statement (.cmpNe a0 a1 a2) := by
  intro hw c w he
  cases he
  refine round_plain (by decide) ?_
  simp (disch := omega) only [plain_05, decodeSalu, wordOf_field, wordOf_bit, field_high, field_low, field_whole, field_fit, bit_high, bit_low, bit_fit, bit_ofBool, SDst.of_fields, SSrc.of_fields]
  rfl
theorem cmpLtI a0 a1 a2 : Statement (.cmpLtI a0 a1 a2) := by
  intro hw c w he
  cases he
  refine round_plain (by decide) ?_
  simp (disch := omega) only [plain_05, decodeSalu, wordOf_field, wordOf_bit, field_high, field_low, field_whole, field_fit, bit_high, bit_low, bit_fit, bit_ofBool, SDst.of_fields, SSrc.of_fields]
  rfl
theorem cmpLtN a0 a1 a2 : Statement (.cmpLtN a0 a1 a2) := by
  intro hw c w he
  cases he
  refine round_plain (by decide) ?_
  simp (disch := omega) only [plain_05, decodeSalu, wordOf_field, wordOf_bit, field_high, field_low, field_whole, field_fit, bit_high, bit_low, bit_fit, bit_ofBool, SDst.of_fields, SSrc.of_fields]
  rfl
theorem add64 a0 a1 a2 : Statement (.add64 a0 a1 a2) := by
  intro hw c w he
  cases he
  refine round_plain (by decide) ?_
  rw [plain_06]
  have h := s3_fields c 6 (.reg a0) (.reg a1) (.reg a2) 0
  have z := s3_regs c 6 a0 a1 a2 0
  unfold s3 at h z
  simp only [decodeSalu64, h, z]
  rfl
theorem sub64 a0 a1 a2 : Statement (.sub64 a0 a1 a2) := by
  intro hw c w he
  cases he
  refine round_plain (by decide) ?_
  rw [plain_06]
  have h := s3_fields c 6 (.reg a0) (.reg a1) (.reg a2) 1
  have z := s3_regs c 6 a0 a1 a2 1
  unfold s3 at h z
  simp only [decodeSalu64, h, z]
  rfl
theorem shl64 a0 a1 a2 : Statement (.shl64 a0 a1 a2) := by
  intro hw c w he
  cases he
  refine round_plain (by decide) ?_
  rw [plain_06]
  have h := s3_fields c 6 (.reg a0) (.reg a1) (.reg a2) 2
  have z := s3_regs c 6 a0 a1 a2 2
  unfold s3 at h z
  simp only [decodeSalu64, h, z]
  rfl
theorem shr64N a0 a1 a2 : Statement (.shr64N a0 a1 a2) := by
  intro hw c w he
  cases he
  refine round_plain (by decide) ?_
  rw [plain_06]
  have h := s3_fields c 6 (.reg a0) (.reg a1) (.reg a2) 3
  have z := s3_regs c 6 a0 a1 a2 3
  unfold s3 at h z
  simp only [decodeSalu64, h, z]
  rfl
theorem movi a0 a1 : Statement (.movi a0 a1) := by
  intro hw c w he
  cases he
  refine round_plain (by decide) ?_
  simp (disch := omega) only [plain_07, decodeSimm, wordOf_field, wordOf_bit, field_high, field_low, field_whole, field_fit, bit_high, bit_low, bit_fit, bit_ofBool, SDst.of_fields, SSrc.of_fields]
  rfl
theorem movh a0 a1 : Statement (.movh a0 a1) := by
  intro hw c w he
  cases he
  refine round_plain (by decide) ?_
  simp (disch := omega) only [plain_07, decodeSimm, wordOf_field, wordOf_bit, field_high, field_low, field_whole, field_fit, bit_high, bit_low, bit_fit, bit_ofBool, SDst.of_fields, SSrc.of_fields]
  rfl
theorem addi a0 a1 : Statement (.addi a0 a1) := by
  intro hw c w he
  cases he
  refine round_plain (by decide) ?_
  simp (disch := omega) only [plain_07, decodeSimm, wordOf_field, wordOf_bit, field_high, field_low, field_whole, field_fit, bit_high, bit_low, bit_fit, bit_ofBool, SDst.of_fields, SSrc.of_fields]
  rfl
theorem andi a0 a1 : Statement (.andi a0 a1) := by
  intro hw c w he
  cases he
  refine round_plain (by decide) ?_
  simp (disch := omega) only [plain_07, decodeSimm, wordOf_field, wordOf_bit, field_high, field_low, field_whole, field_fit, bit_high, bit_low, bit_fit, bit_ofBool, SDst.of_fields, SSrc.of_fields]
  rfl
theorem ori a0 a1 : Statement (.ori a0 a1) := by
  intro hw c w he
  cases he
  refine round_plain (by decide) ?_
  simp (disch := omega) only [plain_08, decodeSimm, wordOf_field, wordOf_bit, field_high, field_low, field_whole, field_fit, bit_high, bit_low, bit_fit, bit_ofBool, SDst.of_fields, SSrc.of_fields]
  rfl
theorem xori a0 a1 : Statement (.xori a0 a1) := by
  intro hw c w he
  cases he
  refine round_plain (by decide) ?_
  simp (disch := omega) only [plain_08, decodeSimm, wordOf_field, wordOf_bit, field_high, field_low, field_whole, field_fit, bit_high, bit_low, bit_fit, bit_ofBool, SDst.of_fields, SSrc.of_fields]
  rfl
theorem cmpiEq a0 a1 : Statement (.cmpiEq a0 a1) := by
  intro hw c w he
  cases he
  refine round_plain (by decide) ?_
  simp (disch := omega) only [plain_08, decodeSimm, wordOf_field, wordOf_bit, field_high, field_low, field_whole, field_fit, bit_high, bit_low, bit_fit, bit_ofBool, SDst.of_fields, SSrc.of_fields]
  rfl
theorem cmpiLtI a0 a1 : Statement (.cmpiLtI a0 a1) := by
  intro hw c w he
  cases he
  refine round_plain (by decide) ?_
  simp (disch := omega) only [plain_08, decodeSimm, wordOf_field, wordOf_bit, field_high, field_low, field_whole, field_fit, bit_high, bit_low, bit_fit, bit_ofBool, SDst.of_fields, SSrc.of_fields]
  rfl
theorem sld32 a0 a1 a2 : Statement (.sld32 a0 a1 a2) := by
  intro hw c w he
  cases he
  refine round_plain (by decide) ?_
  simp (disch := omega) only [plain_09, decodeSmem, wordOf_field, wordOf_bit, field_high, field_low, field_whole, field_fit, bit_high, bit_low, bit_fit, bit_ofBool]
  rfl
theorem sld64 a0 a1 a2 : Statement (.sld64 a0 a1 a2) := by
  intro hw c w he
  cases he
  refine round_plain (by decide) ?_
  simp (disch := omega) only [plain_09, decodeSmem, wordOf_field, wordOf_bit, field_high, field_low, field_whole, field_fit, bit_high, bit_low, bit_fit, bit_ofBool]
  rfl
theorem sldK a0 a1 a2 : Statement (.sldK a0 a1 a2) := by
  intro hw c w he
  cases he
  refine round_plain (by decide) ?_
  simp (disch := omega) only [plain_09, decodeSmem, wordOf_field, wordOf_bit, field_high, field_low, field_whole, field_fit, bit_high, bit_low, bit_fit, bit_ofBool]
  rfl
theorem sst a0 a1 a2 : Statement (.sst a0 a1 a2) := by
  intro hw c w he
  cases he
  refine round_plain (by decide) ?_
  simp (disch := omega) only [plain_09, decodeSmem, wordOf_field, wordOf_bit, field_high, field_low, field_whole, field_fit, bit_high, bit_low, bit_fit, bit_ofBool]
  rfl
theorem srd a0 a1 : Statement (.srd a0 a1) := by
  intro hw c w he
  cases he
  refine round_plain (by decide) ?_
  simp (disch := omega) only [plain_0A, decodeSpec, wordOf_field, wordOf_bit, field_high, field_low, field_whole, field_fit, bit_high, bit_low, bit_fit, bit_ofBool]
  rfl
theorem swr a0 a1 : Statement (.swr a0 a1) := by
  intro hw c w he
  cases he
  refine round_plain (by decide) ?_
  simp (disch := omega) only [plain_0A, decodeSpec, wordOf_field, wordOf_bit, field_high, field_low, field_whole, field_fit, bit_high, bit_low, bit_fit, bit_ofBool]
  rfl
theorem bra a0 : Statement (.bra a0) := by
  intro hw c w he
  cases he
  refine round_plain (by decide) ?_
  simp (disch := omega) only [plain_0B, decodeBranch, wordOf_field, wordOf_bit, field_high, field_low, field_whole, field_fit, bit_high, bit_low, bit_fit, bit_ofBool]
  rfl
theorem bz a0 a1 : Statement (.bz a0 a1) := by
  intro hw c w he
  cases he
  refine round_plain (by decide) ?_
  simp (disch := omega) only [plain_0B, decodeBranch, wordOf_field, wordOf_bit, field_high, field_low, field_whole, field_fit, bit_high, bit_low, bit_fit, bit_ofBool]
  rfl
theorem bnz a0 a1 : Statement (.bnz a0 a1) := by
  intro hw c w he
  cases he
  refine round_plain (by decide) ?_
  simp (disch := omega) only [plain_0B, decodeBranch, wordOf_field, wordOf_bit, field_high, field_low, field_whole, field_fit, bit_high, bit_low, bit_fit, bit_ofBool]
  rfl
theorem bany a0 a1 : Statement (.bany a0 a1) := by
  intro hw c w he
  cases he
  refine round_plain (by decide) ?_
  simp (disch := omega) only [plain_0B, decodeBranch, wordOf_field, wordOf_bit, field_high, field_low, field_whole, field_fit, bit_high, bit_low, bit_fit, bit_ofBool]
  rfl
theorem ball a0 a1 : Statement (.ball a0 a1) := by
  intro hw c w he
  cases he
  refine round_plain (by decide) ?_
  simp (disch := omega) only [plain_0B, decodeBranch, wordOf_field, wordOf_bit, field_high, field_low, field_whole, field_fit, bit_high, bit_low, bit_fit, bit_ofBool]
  rfl
theorem bnone a0 a1 : Statement (.bnone a0 a1) := by
  intro hw c w he
  cases he
  refine round_plain (by decide) ?_
  simp (disch := omega) only [plain_0B, decodeBranch, wordOf_field, wordOf_bit, field_high, field_low, field_whole, field_fit, bit_high, bit_low, bit_fit, bit_ofBool]
  rfl
theorem bdiv a0 a1 : Statement (.bdiv a0 a1) := by
  intro hw c w he
  cases he
  refine round_plain (by decide) ?_
  simp (disch := omega) only [plain_0B, decodeBranch, wordOf_field, wordOf_bit, field_high, field_low, field_whole, field_fit, bit_high, bit_low, bit_fit, bit_ofBool]
  rfl
theorem call a0 : Statement (.call a0) := by
  intro hw c w he
  cases he
  refine round_plain (by decide) ?_
  simp (disch := omega) only [plain_0C, decodeControl, wordOf_field, wordOf_bit, field_high, field_low, field_whole, field_fit, bit_high, bit_low, bit_fit, bit_ofBool]
  rfl
theorem jmpr a0 : Statement (.jmpr a0) := by
  intro hw c w he
  cases he
  refine round_plain (by decide) ?_
  simp (disch := omega) only [plain_0C, decodeControl, wordOf_field, wordOf_bit, field_high, field_low, field_whole, field_fit, bit_high, bit_low, bit_fit, bit_ofBool]
  rfl
theorem mfromp a0 : Statement (.mfromp a0) := by
  intro hw c w he
  cases he
  refine round_plain (by decide) ?_
  simp (disch := omega) only [plain_0D, decodeControl, wordOf_field, wordOf_bit, field_high, field_low, field_whole, field_fit, bit_high, bit_low, bit_fit, bit_ofBool]
  rfl
theorem mtop a0 : Statement (.mtop a0) := by
  intro hw c w he
  cases he
  refine round_plain (by decide) ?_
  simp (disch := omega) only [plain_0D, decodeControl, wordOf_field, wordOf_bit, field_high, field_low, field_whole, field_fit, bit_high, bit_low, bit_fit, bit_ofBool]
  rfl
theorem wait a0 a1 a2 a3 : Statement (.wait a0 a1 a2 a3) := by
  intro hw c w he
  cases he
  refine round_plain (by decide) ?_
  simp (disch := omega) only [plain_0E, decodeWait, wordOf_field, wordOf_bit, field_high, field_low, field_whole, field_fit, bit_high, bit_low, bit_fit, bit_ofBool]
  rfl
theorem trap a0 : Statement (.trap a0) := by
  intro hw c w he
  cases he
  refine round_plain (by decide) ?_
  simp (disch := omega) only [plain_0F, decodeControl, wordOf_field, wordOf_bit, field_high, field_low, field_whole, field_fit, bit_high, bit_low, bit_fit, bit_ofBool]
  rfl
theorem detach a0 : Statement (.detach a0) := by
  intro hw c w he
  cases he
  refine round_plain (by decide) ?_
  simp (disch := omega) only [plain_10, decodeBlock, wordOf_field, wordOf_bit, field_high, field_low, field_whole, field_fit, bit_high, bit_low, bit_fit, bit_ofBool]
  rfl
theorem regroup a0 a1 a2 a3 : Statement (.regroup a0 a1 a2 a3) := by
  intro hw c w he
  cases he
  refine round_plain (by decide) ?_
  simp (disch := omega) only [plain_10, decodeBlock, wordOf_field, wordOf_bit, field_high, field_low, field_whole, field_fit, bit_high, bit_low, bit_fit, bit_ofBool]
  rfl
theorem launch a0 a1 a2 : Statement (.launch a0 a1 a2) := by
  intro hw c w he
  cases he
  refine round_plain (by decide) ?_
  simp (disch := omega) only [plain_10, decodeBlock, wordOf_field, wordOf_bit, field_high, field_low, field_whole, field_fit, bit_high, bit_low, bit_fit, bit_ofBool]
  rfl
theorem hops a0 a1 a2 : Statement (.hops a0 a1 a2) := by
  intro hw c w he
  cases he
  refine round_plain (by decide) ?_
  simp (disch := omega) only [plain_10, decodeBlock, wordOf_field, wordOf_bit, field_high, field_low, field_whole, field_fit, bit_high, bit_low, bit_fit, bit_ofBool]
  rfl
theorem barArrive a0 a1 : Statement (.barArrive a0 a1) := by
  intro hw c w he
  cases he
  refine round_plain (by decide) ?_
  simp (disch := omega) only [plain_11, decodeBlock, wordOf_field, wordOf_bit, field_high, field_low, field_whole, field_fit, bit_high, bit_low, bit_fit, bit_ofBool]
  rfl
theorem barWait a0 a1 : Statement (.barWait a0 a1) := by
  intro hw c w he
  cases he
  refine round_plain (by decide) ?_
  simp (disch := omega) only [plain_11, decodeBlock, wordOf_field, wordOf_bit, field_high, field_low, field_whole, field_fit, bit_high, bit_low, bit_fit, bit_ofBool]
  rfl
theorem barSync a0 : Statement (.barSync a0) := by
  intro hw c w he
  cases he
  refine round_plain (by decide) ?_
  simp (disch := omega) only [plain_11, decodeBlock, wordOf_field, wordOf_bit, field_high, field_low, field_whole, field_fit, bit_high, bit_low, bit_fit, bit_ofBool]
  rfl
theorem barTry a0 a1 a2 : Statement (.barTry a0 a1 a2) := by
  intro hw c w he
  cases he
  refine round_plain (by decide) ?_
  simp (disch := omega) only [plain_11, decodeBlock, wordOf_field, wordOf_bit, field_high, field_low, field_whole, field_fit, bit_high, bit_low, bit_fit, bit_ofBool]
  rfl
theorem vaddI32 a0 a1 a2 : Statement (.vaddI32 a0 a1 a2) := by
  intro hw c w he
  cases he
  refine round_plain (by decide) ?_
  simp (disch := omega) only [plain_12, decodeVInt0, wordOf_field, wordOf_bit, field_high, field_low, field_whole, field_fit, bit_high, bit_low, bit_fit, bit_ofBool]
  rfl
theorem vsubI32 a0 a1 a2 : Statement (.vsubI32 a0 a1 a2) := by
  intro hw c w he
  cases he
  refine round_plain (by decide) ?_
  simp (disch := omega) only [plain_12, decodeVInt0, wordOf_field, wordOf_bit, field_high, field_low, field_whole, field_fit, bit_high, bit_low, bit_fit, bit_ofBool]
  rfl
theorem vmulI32 a0 a1 a2 : Statement (.vmulI32 a0 a1 a2) := by
  intro hw c w he
  cases he
  refine round_plain (by decide) ?_
  simp (disch := omega) only [plain_12, decodeVInt0, wordOf_field, wordOf_bit, field_high, field_low, field_whole, field_fit, bit_high, bit_low, bit_fit, bit_ofBool]
  rfl
theorem vmulhI32 a0 a1 a2 : Statement (.vmulhI32 a0 a1 a2) := by
  intro hw c w he
  cases he
  refine round_plain (by decide) ?_
  simp (disch := omega) only [plain_12, decodeVInt0, wordOf_field, wordOf_bit, field_high, field_low, field_whole, field_fit, bit_high, bit_low, bit_fit, bit_ofBool]
  rfl
theorem vmulhN32 a0 a1 a2 : Statement (.vmulhN32 a0 a1 a2) := by
  intro hw c w he
  cases he
  refine round_plain (by decide) ?_
  simp (disch := omega) only [plain_12, decodeVInt0, wordOf_field, wordOf_bit, field_high, field_low, field_whole, field_fit, bit_high, bit_low, bit_fit, bit_ofBool]
  rfl
theorem vminI32 a0 a1 a2 : Statement (.vminI32 a0 a1 a2) := by
  intro hw c w he
  cases he
  refine round_plain (by decide) ?_
  simp (disch := omega) only [plain_12, decodeVInt0, wordOf_field, wordOf_bit, field_high, field_low, field_whole, field_fit, bit_high, bit_low, bit_fit, bit_ofBool]
  rfl
theorem vmaxI32 a0 a1 a2 : Statement (.vmaxI32 a0 a1 a2) := by
  intro hw c w he
  cases he
  refine round_plain (by decide) ?_
  simp (disch := omega) only [plain_12, decodeVInt0, wordOf_field, wordOf_bit, field_high, field_low, field_whole, field_fit, bit_high, bit_low, bit_fit, bit_ofBool]
  rfl
theorem vminN32 a0 a1 a2 : Statement (.vminN32 a0 a1 a2) := by
  intro hw c w he
  cases he
  refine round_plain (by decide) ?_
  simp (disch := omega) only [plain_12, decodeVInt0, wordOf_field, wordOf_bit, field_high, field_low, field_whole, field_fit, bit_high, bit_low, bit_fit, bit_ofBool]
  rfl
theorem vmaxN32 a0 a1 a2 : Statement (.vmaxN32 a0 a1 a2) := by
  intro hw c w he
  cases he
  refine round_plain (by decide) ?_
  simp (disch := omega) only [plain_12, decodeVInt0, wordOf_field, wordOf_bit, field_high, field_low, field_whole, field_fit, bit_high, bit_low, bit_fit, bit_ofBool]
  rfl
theorem vandB32 a0 a1 a2 : Statement (.vandB32 a0 a1 a2) := by
  intro hw c w he
  cases he
  refine round_plain (by decide) ?_
  simp (disch := omega) only [plain_12, decodeVInt0, wordOf_field, wordOf_bit, field_high, field_low, field_whole, field_fit, bit_high, bit_low, bit_fit, bit_ofBool]
  rfl
theorem vorB32 a0 a1 a2 : Statement (.vorB32 a0 a1 a2) := by
  intro hw c w he
  cases he
  refine round_plain (by decide) ?_
  simp (disch := omega) only [plain_12, decodeVInt0, wordOf_field, wordOf_bit, field_high, field_low, field_whole, field_fit, bit_high, bit_low, bit_fit, bit_ofBool]
  rfl
theorem vxorB32 a0 a1 a2 : Statement (.vxorB32 a0 a1 a2) := by
  intro hw c w he
  cases he
  refine round_plain (by decide) ?_
  simp (disch := omega) only [plain_12, decodeVInt0, wordOf_field, wordOf_bit, field_high, field_low, field_whole, field_fit, bit_high, bit_low, bit_fit, bit_ofBool]
  rfl
theorem vshlB32 a0 a1 a2 : Statement (.vshlB32 a0 a1 a2) := by
  intro hw c w he
  cases he
  refine round_plain (by decide) ?_
  simp (disch := omega) only [plain_12, decodeVInt0, wordOf_field, wordOf_bit, field_high, field_low, field_whole, field_fit, bit_high, bit_low, bit_fit, bit_ofBool]
  rfl
theorem vshrN32 a0 a1 a2 : Statement (.vshrN32 a0 a1 a2) := by
  intro hw c w he
  cases he
  refine round_plain (by decide) ?_
  simp (disch := omega) only [plain_12, decodeVInt0, wordOf_field, wordOf_bit, field_high, field_low, field_whole, field_fit, bit_high, bit_low, bit_fit, bit_ofBool]
  rfl
theorem vshrI32 a0 a1 a2 : Statement (.vshrI32 a0 a1 a2) := by
  intro hw c w he
  cases he
  refine round_plain (by decide) ?_
  simp (disch := omega) only [plain_12, decodeVInt0, wordOf_field, wordOf_bit, field_high, field_low, field_whole, field_fit, bit_high, bit_low, bit_fit, bit_ofBool]
  rfl
theorem vabsdI32 a0 a1 a2 : Statement (.vabsdI32 a0 a1 a2) := by
  intro hw c w he
  cases he
  refine round_plain (by decide) ?_
  simp (disch := omega) only [plain_12, decodeVInt0, wordOf_field, wordOf_bit, field_high, field_low, field_whole, field_fit, bit_high, bit_low, bit_fit, bit_ofBool]
  rfl
theorem vaddsI32 a0 a1 a2 : Statement (.vaddsI32 a0 a1 a2) := by
  intro hw c w he
  cases he
  refine round_plain (by decide) ?_
  simp (disch := omega) only [plain_13, decodeVInt1, wordOf_field, wordOf_bit, field_high, field_low, field_whole, field_fit, bit_high, bit_low, bit_fit, bit_ofBool]
  rfl
theorem vsubsI32 a0 a1 a2 : Statement (.vsubsI32 a0 a1 a2) := by
  intro hw c w he
  cases he
  refine round_plain (by decide) ?_
  simp (disch := omega) only [plain_13, decodeVInt1, wordOf_field, wordOf_bit, field_high, field_low, field_whole, field_fit, bit_high, bit_low, bit_fit, bit_ofBool]
  rfl
theorem vaddsN32 a0 a1 a2 : Statement (.vaddsN32 a0 a1 a2) := by
  intro hw c w he
  cases he
  refine round_plain (by decide) ?_
  simp (disch := omega) only [plain_13, decodeVInt1, wordOf_field, wordOf_bit, field_high, field_low, field_whole, field_fit, bit_high, bit_low, bit_fit, bit_ofBool]
  rfl
theorem vsubsN32 a0 a1 a2 : Statement (.vsubsN32 a0 a1 a2) := by
  intro hw c w he
  cases he
  refine round_plain (by decide) ?_
  simp (disch := omega) only [plain_13, decodeVInt1, wordOf_field, wordOf_bit, field_high, field_low, field_whole, field_fit, bit_high, bit_low, bit_fit, bit_ofBool]
  rfl
theorem vbfeN32 a0 a1 a2 : Statement (.vbfeN32 a0 a1 a2) := by
  intro hw c w he
  cases he
  refine round_plain (by decide) ?_
  simp (disch := omega) only [plain_13, decodeVInt1, wordOf_field, wordOf_bit, field_high, field_low, field_whole, field_fit, bit_high, bit_low, bit_fit, bit_ofBool]
  rfl
theorem vbfeI32 a0 a1 a2 : Statement (.vbfeI32 a0 a1 a2) := by
  intro hw c w he
  cases he
  refine round_plain (by decide) ?_
  simp (disch := omega) only [plain_13, decodeVInt1, wordOf_field, wordOf_bit, field_high, field_low, field_whole, field_fit, bit_high, bit_low, bit_fit, bit_ofBool]
  rfl
theorem vbfiB32 a0 a1 a2 : Statement (.vbfiB32 a0 a1 a2) := by
  intro hw c w he
  cases he
  refine round_plain (by decide) ?_
  simp (disch := omega) only [plain_13, decodeVInt1, wordOf_field, wordOf_bit, field_high, field_low, field_whole, field_fit, bit_high, bit_low, bit_fit, bit_ofBool]
  rfl
theorem vpopcB32 a0 a1 : Statement (.vpopcB32 a0 a1) := by
  intro hw c w he
  cases he
  refine round_plain (by decide) ?_
  simp (disch := omega) only [plain_13, decodeVInt1, wordOf_field, wordOf_bit, field_high, field_low, field_whole, field_fit, bit_high, bit_low, bit_fit, bit_ofBool]
  rfl
theorem vclzB32 a0 a1 : Statement (.vclzB32 a0 a1) := by
  intro hw c w he
  cases he
  refine round_plain (by decide) ?_
  simp (disch := omega) only [plain_13, decodeVInt1, wordOf_field, wordOf_bit, field_high, field_low, field_whole, field_fit, bit_high, bit_low, bit_fit, bit_ofBool]
  rfl
theorem vbrevB32 a0 a1 : Statement (.vbrevB32 a0 a1) := by
  intro hw c w he
  cases he
  refine round_plain (by decide) ?_
  simp (disch := omega) only [plain_13, decodeVInt1, wordOf_field, wordOf_bit, field_high, field_low, field_whole, field_fit, bit_high, bit_low, bit_fit, bit_ofBool]
  rfl
theorem vaddI64 a0 a1 a2 : Statement (.vaddI64 a0 a1 a2) := by
  intro hw c w he
  cases he
  refine round_plain (by decide) ?_
  simp (disch := omega) only [plain_13, decodeVInt1, wordOf_field, wordOf_bit, field_high, field_low, field_whole, field_fit, bit_high, bit_low, bit_fit, bit_ofBool]
  rfl
theorem vsubI64 a0 a1 a2 : Statement (.vsubI64 a0 a1 a2) := by
  intro hw c w he
  cases he
  refine round_plain (by decide) ?_
  simp (disch := omega) only [plain_13, decodeVInt1, wordOf_field, wordOf_bit, field_high, field_low, field_whole, field_fit, bit_high, bit_low, bit_fit, bit_ofBool]
  rfl
theorem vshlB64 a0 a1 a2 : Statement (.vshlB64 a0 a1 a2) := by
  intro hw c w he
  cases he
  refine round_plain (by decide) ?_
  simp (disch := omega) only [plain_13, decodeVInt1, wordOf_field, wordOf_bit, field_high, field_low, field_whole, field_fit, bit_high, bit_low, bit_fit, bit_ofBool]
  rfl
theorem vshrN64 a0 a1 a2 : Statement (.vshrN64 a0 a1 a2) := by
  intro hw c w he
  cases he
  refine round_plain (by decide) ?_
  simp (disch := omega) only [plain_13, decodeVInt1, wordOf_field, wordOf_bit, field_high, field_low, field_whole, field_fit, bit_high, bit_low, bit_fit, bit_ofBool]
  rfl
theorem vshrI64 a0 a1 a2 : Statement (.vshrI64 a0 a1 a2) := by
  intro hw c w he
  cases he
  refine round_plain (by decide) ?_
  simp (disch := omega) only [plain_13, decodeVInt1, wordOf_field, wordOf_bit, field_high, field_low, field_whole, field_fit, bit_high, bit_low, bit_fit, bit_ofBool]
  rfl
theorem vaddI32Vi a0 a1 a2 : Statement (.vaddI32Vi a0 a1 a2) := by
  intro hw c w he
  cases he
  refine round_plain (by decide) ?_
  simp (disch := omega) only [plain_14, decodeVImm, wordOf_field, wordOf_bit, field_high, field_low, field_whole, field_fit, bit_high, bit_low, bit_fit, bit_ofBool]
  rfl
theorem vandB32Vi a0 a1 a2 : Statement (.vandB32Vi a0 a1 a2) := by
  intro hw c w he
  cases he
  refine round_plain (by decide) ?_
  simp (disch := omega) only [plain_14, decodeVImm, wordOf_field, wordOf_bit, field_high, field_low, field_whole, field_fit, bit_high, bit_low, bit_fit, bit_ofBool]
  rfl
theorem vshlB32Vi a0 a1 a2 : Statement (.vshlB32Vi a0 a1 a2) := by
  intro hw c w he
  cases he
  refine round_plain (by decide) ?_
  simp (disch := omega) only [plain_14, decodeVImm, wordOf_field, wordOf_bit, field_high, field_low, field_whole, field_fit, bit_high, bit_low, bit_fit, bit_ofBool]
  rfl
theorem vshrN32Vi a0 a1 a2 : Statement (.vshrN32Vi a0 a1 a2) := by
  intro hw c w he
  cases he
  refine round_plain (by decide) ?_
  simp (disch := omega) only [plain_14, decodeVImm, wordOf_field, wordOf_bit, field_high, field_low, field_whole, field_fit, bit_high, bit_low, bit_fit, bit_ofBool]
  rfl
theorem vaddI32Vs a0 a1 a2 : Statement (.vaddI32Vs a0 a1 a2) := by
  intro hw c w he
  cases he
  refine round_plain (by decide) ?_
  simp (disch := omega) only [plain_15, decodeVScal, wordOf_field, wordOf_bit, field_high, field_low, field_whole, field_fit, bit_high, bit_low, bit_fit, bit_ofBool]
  rfl
theorem vsubI32Vs a0 a1 a2 : Statement (.vsubI32Vs a0 a1 a2) := by
  intro hw c w he
  cases he
  refine round_plain (by decide) ?_
  simp (disch := omega) only [plain_15, decodeVScal, wordOf_field, wordOf_bit, field_high, field_low, field_whole, field_fit, bit_high, bit_low, bit_fit, bit_ofBool]
  rfl
theorem vmulI32Vs a0 a1 a2 : Statement (.vmulI32Vs a0 a1 a2) := by
  intro hw c w he
  cases he
  refine round_plain (by decide) ?_
  simp (disch := omega) only [plain_15, decodeVScal, wordOf_field, wordOf_bit, field_high, field_low, field_whole, field_fit, bit_high, bit_low, bit_fit, bit_ofBool]
  rfl
theorem vmulhI32Vs a0 a1 a2 : Statement (.vmulhI32Vs a0 a1 a2) := by
  intro hw c w he
  cases he
  refine round_plain (by decide) ?_
  simp (disch := omega) only [plain_15, decodeVScal, wordOf_field, wordOf_bit, field_high, field_low, field_whole, field_fit, bit_high, bit_low, bit_fit, bit_ofBool]
  rfl
theorem vmulhN32Vs a0 a1 a2 : Statement (.vmulhN32Vs a0 a1 a2) := by
  intro hw c w he
  cases he
  refine round_plain (by decide) ?_
  simp (disch := omega) only [plain_15, decodeVScal, wordOf_field, wordOf_bit, field_high, field_low, field_whole, field_fit, bit_high, bit_low, bit_fit, bit_ofBool]
  rfl
theorem vminI32Vs a0 a1 a2 : Statement (.vminI32Vs a0 a1 a2) := by
  intro hw c w he
  cases he
  refine round_plain (by decide) ?_
  simp (disch := omega) only [plain_15, decodeVScal, wordOf_field, wordOf_bit, field_high, field_low, field_whole, field_fit, bit_high, bit_low, bit_fit, bit_ofBool]
  rfl
theorem vmaxI32Vs a0 a1 a2 : Statement (.vmaxI32Vs a0 a1 a2) := by
  intro hw c w he
  cases he
  refine round_plain (by decide) ?_
  simp (disch := omega) only [plain_15, decodeVScal, wordOf_field, wordOf_bit, field_high, field_low, field_whole, field_fit, bit_high, bit_low, bit_fit, bit_ofBool]
  rfl
theorem vminN32Vs a0 a1 a2 : Statement (.vminN32Vs a0 a1 a2) := by
  intro hw c w he
  cases he
  refine round_plain (by decide) ?_
  simp (disch := omega) only [plain_15, decodeVScal, wordOf_field, wordOf_bit, field_high, field_low, field_whole, field_fit, bit_high, bit_low, bit_fit, bit_ofBool]
  rfl
theorem vmaxN32Vs a0 a1 a2 : Statement (.vmaxN32Vs a0 a1 a2) := by
  intro hw c w he
  cases he
  refine round_plain (by decide) ?_
  simp (disch := omega) only [plain_15, decodeVScal, wordOf_field, wordOf_bit, field_high, field_low, field_whole, field_fit, bit_high, bit_low, bit_fit, bit_ofBool]
  rfl
theorem vandB32Vs a0 a1 a2 : Statement (.vandB32Vs a0 a1 a2) := by
  intro hw c w he
  cases he
  refine round_plain (by decide) ?_
  simp (disch := omega) only [plain_15, decodeVScal, wordOf_field, wordOf_bit, field_high, field_low, field_whole, field_fit, bit_high, bit_low, bit_fit, bit_ofBool]
  rfl
theorem vorB32Vs a0 a1 a2 : Statement (.vorB32Vs a0 a1 a2) := by
  intro hw c w he
  cases he
  refine round_plain (by decide) ?_
  simp (disch := omega) only [plain_15, decodeVScal, wordOf_field, wordOf_bit, field_high, field_low, field_whole, field_fit, bit_high, bit_low, bit_fit, bit_ofBool]
  rfl
theorem vxorB32Vs a0 a1 a2 : Statement (.vxorB32Vs a0 a1 a2) := by
  intro hw c w he
  cases he
  refine round_plain (by decide) ?_
  simp (disch := omega) only [plain_15, decodeVScal, wordOf_field, wordOf_bit, field_high, field_low, field_whole, field_fit, bit_high, bit_low, bit_fit, bit_ofBool]
  rfl
theorem vshlB32Vs a0 a1 a2 : Statement (.vshlB32Vs a0 a1 a2) := by
  intro hw c w he
  cases he
  refine round_plain (by decide) ?_
  simp (disch := omega) only [plain_15, decodeVScal, wordOf_field, wordOf_bit, field_high, field_low, field_whole, field_fit, bit_high, bit_low, bit_fit, bit_ofBool]
  rfl
theorem vshrN32Vs a0 a1 a2 : Statement (.vshrN32Vs a0 a1 a2) := by
  intro hw c w he
  cases he
  refine round_plain (by decide) ?_
  simp (disch := omega) only [plain_15, decodeVScal, wordOf_field, wordOf_bit, field_high, field_low, field_whole, field_fit, bit_high, bit_low, bit_fit, bit_ofBool]
  rfl
theorem vshrI32Vs a0 a1 a2 : Statement (.vshrI32Vs a0 a1 a2) := by
  intro hw c w he
  cases he
  refine round_plain (by decide) ?_
  simp (disch := omega) only [plain_15, decodeVScal, wordOf_field, wordOf_bit, field_high, field_low, field_whole, field_fit, bit_high, bit_low, bit_fit, bit_ofBool]
  rfl
theorem vabsdI32Vs a0 a1 a2 : Statement (.vabsdI32Vs a0 a1 a2) := by
  intro hw c w he
  cases he
  refine round_plain (by decide) ?_
  simp (disch := omega) only [plain_15, decodeVScal, wordOf_field, wordOf_bit, field_high, field_low, field_whole, field_fit, bit_high, bit_low, bit_fit, bit_ofBool]
  rfl
theorem vaddsI32Vs a0 a1 a2 : Statement (.vaddsI32Vs a0 a1 a2) := by
  intro hw c w he
  cases he
  refine round_plain (by decide) ?_
  simp (disch := omega) only [plain_15, decodeVScal, wordOf_field, wordOf_bit, field_high, field_low, field_whole, field_fit, bit_high, bit_low, bit_fit, bit_ofBool]
  rfl
theorem vsubsI32Vs a0 a1 a2 : Statement (.vsubsI32Vs a0 a1 a2) := by
  intro hw c w he
  cases he
  refine round_plain (by decide) ?_
  simp (disch := omega) only [plain_15, decodeVScal, wordOf_field, wordOf_bit, field_high, field_low, field_whole, field_fit, bit_high, bit_low, bit_fit, bit_ofBool]
  rfl
theorem vaddsN32Vs a0 a1 a2 : Statement (.vaddsN32Vs a0 a1 a2) := by
  intro hw c w he
  cases he
  refine round_plain (by decide) ?_
  simp (disch := omega) only [plain_15, decodeVScal, wordOf_field, wordOf_bit, field_high, field_low, field_whole, field_fit, bit_high, bit_low, bit_fit, bit_ofBool]
  rfl
theorem vsubsN32Vs a0 a1 a2 : Statement (.vsubsN32Vs a0 a1 a2) := by
  intro hw c w he
  cases he
  refine round_plain (by decide) ?_
  simp (disch := omega) only [plain_15, decodeVScal, wordOf_field, wordOf_bit, field_high, field_low, field_whole, field_fit, bit_high, bit_low, bit_fit, bit_ofBool]
  rfl
theorem vbfeN32Vs a0 a1 a2 : Statement (.vbfeN32Vs a0 a1 a2) := by
  intro hw c w he
  cases he
  refine round_plain (by decide) ?_
  simp (disch := omega) only [plain_15, decodeVScal, wordOf_field, wordOf_bit, field_high, field_low, field_whole, field_fit, bit_high, bit_low, bit_fit, bit_ofBool]
  rfl
theorem vbfeI32Vs a0 a1 a2 : Statement (.vbfeI32Vs a0 a1 a2) := by
  intro hw c w he
  cases he
  refine round_plain (by decide) ?_
  simp (disch := omega) only [plain_15, decodeVScal, wordOf_field, wordOf_bit, field_high, field_low, field_whole, field_fit, bit_high, bit_low, bit_fit, bit_ofBool]
  rfl
theorem vbfiB32Vs a0 a1 a2 : Statement (.vbfiB32Vs a0 a1 a2) := by
  intro hw c w he
  cases he
  refine round_plain (by decide) ?_
  simp (disch := omega) only [plain_15, decodeVScal, wordOf_field, wordOf_bit, field_high, field_low, field_whole, field_fit, bit_high, bit_low, bit_fit, bit_ofBool]
  rfl
theorem vaddI64Vs a0 a1 a2 : Statement (.vaddI64Vs a0 a1 a2) := by
  intro hw c w he
  cases he
  refine round_plain (by decide) ?_
  simp (disch := omega) only [plain_15, decodeVScal, wordOf_field, wordOf_bit, field_high, field_low, field_whole, field_fit, bit_high, bit_low, bit_fit, bit_ofBool]
  rfl
theorem vsubI64Vs a0 a1 a2 : Statement (.vsubI64Vs a0 a1 a2) := by
  intro hw c w he
  cases he
  refine round_plain (by decide) ?_
  simp (disch := omega) only [plain_15, decodeVScal, wordOf_field, wordOf_bit, field_high, field_low, field_whole, field_fit, bit_high, bit_low, bit_fit, bit_ofBool]
  rfl
theorem vshlB64Vs a0 a1 a2 : Statement (.vshlB64Vs a0 a1 a2) := by
  intro hw c w he
  cases he
  refine round_plain (by decide) ?_
  simp (disch := omega) only [plain_15, decodeVScal, wordOf_field, wordOf_bit, field_high, field_low, field_whole, field_fit, bit_high, bit_low, bit_fit, bit_ofBool]
  rfl
theorem vshrN64Vs a0 a1 a2 : Statement (.vshrN64Vs a0 a1 a2) := by
  intro hw c w he
  cases he
  refine round_plain (by decide) ?_
  simp (disch := omega) only [plain_15, decodeVScal, wordOf_field, wordOf_bit, field_high, field_low, field_whole, field_fit, bit_high, bit_low, bit_fit, bit_ofBool]
  rfl
theorem vshrI64Vs a0 a1 a2 : Statement (.vshrI64Vs a0 a1 a2) := by
  intro hw c w he
  cases he
  refine round_plain (by decide) ?_
  simp (disch := omega) only [plain_15, decodeVScal, wordOf_field, wordOf_bit, field_high, field_low, field_whole, field_fit, bit_high, bit_low, bit_fit, bit_ofBool]
  rfl
theorem vbcastB32 a0 a1 : Statement (.vbcastB32 a0 a1) := by
  intro hw c w he
  cases he
  refine round_plain (by decide) ?_
  simp (disch := omega) only [plain_15, decodeVScal, wordOf_field, wordOf_bit, field_high, field_low, field_whole, field_fit, bit_high, bit_low, bit_fit, bit_ofBool]
  rfl
theorem vcmp a0 a1 a2 a3 a4 : Statement (.vcmp a0 a1 a2 a3 a4) := by
  intro hw c w he
  cases he
  refine round_plain (by decide) ?_
  simp (disch := omega) only [plain_16, decodeVCmp, wordOf_field, wordOf_bit, field_high, field_low, field_whole, field_fit, bit_high, bit_low, bit_fit, bit_ofBool, IntCond.of_code, IntType.of_code]
theorem pand a0 a1 a2 : Statement (.pand a0 a1 a2) := by
  intro hw c w he
  cases he
  refine round_plain (by decide) ?_
  simp (disch := omega) only [plain_17, decodePred, wordOf_field, wordOf_bit, field_high, field_low, field_whole, field_fit, bit_high, bit_low, bit_fit, bit_ofBool]
  rfl
theorem por a0 a1 a2 : Statement (.por a0 a1 a2) := by
  intro hw c w he
  cases he
  refine round_plain (by decide) ?_
  simp (disch := omega) only [plain_17, decodePred, wordOf_field, wordOf_bit, field_high, field_low, field_whole, field_fit, bit_high, bit_low, bit_fit, bit_ofBool]
  rfl
theorem pxor a0 a1 a2 : Statement (.pxor a0 a1 a2) := by
  intro hw c w he
  cases he
  refine round_plain (by decide) ?_
  simp (disch := omega) only [plain_17, decodePred, wordOf_field, wordOf_bit, field_high, field_low, field_whole, field_fit, bit_high, bit_low, bit_fit, bit_ofBool]
  rfl
theorem pnot a0 a1 : Statement (.pnot a0 a1) := by
  intro hw c w he
  cases he
  refine round_plain (by decide) ?_
  simp (disch := omega) only [plain_17, decodePred, wordOf_field, wordOf_bit, field_high, field_low, field_whole, field_fit, bit_high, bit_low, bit_fit, bit_ofBool]
  rfl
theorem pmov a0 a1 : Statement (.pmov a0 a1) := by
  intro hw c w he
  cases he
  refine round_plain (by decide) ?_
  simp (disch := omega) only [plain_17, decodePred, wordOf_field, wordOf_bit, field_high, field_low, field_whole, field_fit, bit_high, bit_low, bit_fit, bit_ofBool]
  rfl
theorem vfromp a0 a1 : Statement (.vfromp a0 a1) := by
  intro hw c w he
  cases he
  refine round_plain (by decide) ?_
  simp (disch := omega) only [plain_17, decodePred, wordOf_field, wordOf_bit, field_high, field_low, field_whole, field_fit, bit_high, bit_low, bit_fit, bit_ofBool]
  rfl
theorem vtop a0 a1 : Statement (.vtop a0 a1) := by
  intro hw c w he
  cases he
  refine round_plain (by decide) ?_
  simp (disch := omega) only [plain_17, decodePred, wordOf_field, wordOf_bit, field_high, field_low, field_whole, field_fit, bit_high, bit_low, bit_fit, bit_ofBool]
  rfl
theorem shflIdx a0 a1 a2 a3 : Statement (.shflIdx a0 a1 a2 a3) := by
  intro hw c w he
  cases he
  refine round_plain (by decide) ?_
  simp (disch := omega) only [plain_18, decodeXLane, wordOf_field, wordOf_bit, field_high, field_low, field_whole, field_fit, bit_high, bit_low, bit_fit, bit_ofBool, SubWidth.of_code]
  rfl
theorem shflUp a0 a1 a2 a3 : Statement (.shflUp a0 a1 a2 a3) := by
  intro hw c w he
  cases he
  refine round_plain (by decide) ?_
  simp (disch := omega) only [plain_18, decodeXLane, wordOf_field, wordOf_bit, field_high, field_low, field_whole, field_fit, bit_high, bit_low, bit_fit, bit_ofBool, SubWidth.of_code]
  rfl
theorem shflDown a0 a1 a2 a3 : Statement (.shflDown a0 a1 a2 a3) := by
  intro hw c w he
  cases he
  refine round_plain (by decide) ?_
  simp (disch := omega) only [plain_18, decodeXLane, wordOf_field, wordOf_bit, field_high, field_low, field_whole, field_fit, bit_high, bit_low, bit_fit, bit_ofBool, SubWidth.of_code]
  rfl
theorem shflXor a0 a1 a2 a3 : Statement (.shflXor a0 a1 a2 a3) := by
  intro hw c w he
  cases he
  refine round_plain (by decide) ?_
  simp (disch := omega) only [plain_18, decodeXLane, wordOf_field, wordOf_bit, field_high, field_low, field_whole, field_fit, bit_high, bit_low, bit_fit, bit_ofBool, SubWidth.of_code]
  rfl
theorem voteAny a0 a1 : Statement (.voteAny a0 a1) := by
  intro hw c w he
  cases he
  refine round_plain (by decide) ?_
  simp (disch := omega) only [plain_18, decodeXLane, wordOf_field, wordOf_bit, field_high, field_low, field_whole, field_fit, bit_high, bit_low, bit_fit, bit_ofBool]
  rfl
theorem voteAll a0 a1 : Statement (.voteAll a0 a1) := by
  intro hw c w he
  cases he
  refine round_plain (by decide) ?_
  simp (disch := omega) only [plain_18, decodeXLane, wordOf_field, wordOf_bit, field_high, field_low, field_whole, field_fit, bit_high, bit_low, bit_fit, bit_ofBool]
  rfl
theorem ballot a0 a1 : Statement (.ballot a0 a1) := by
  intro hw c w he
  cases he
  refine round_plain (by decide) ?_
  simp (disch := omega) only [plain_18, decodeXLane, wordOf_field, wordOf_bit, field_high, field_low, field_whole, field_fit, bit_high, bit_low, bit_fit, bit_ofBool]
  rfl
theorem vscanIncl a0 a1 a2 a3 : Statement (.vscanIncl a0 a1 a2 a3) := by
  intro hw c w he
  cases he
  refine round_plain (by decide) ?_
  simp (disch := omega) only [plain_18, decodeXLane, wordOf_field, wordOf_bit, field_high, field_low, field_whole, field_fit, bit_high, bit_low, bit_fit, bit_ofBool, SubWidth.of_code, LaneOp.of_code]
  rfl
theorem vscanExcl a0 a1 a2 a3 : Statement (.vscanExcl a0 a1 a2 a3) := by
  intro hw c w he
  cases he
  refine round_plain (by decide) ?_
  simp (disch := omega) only [plain_18, decodeXLane, wordOf_field, wordOf_bit, field_high, field_low, field_whole, field_fit, bit_high, bit_low, bit_fit, bit_ofBool, SubWidth.of_code, LaneOp.of_code]
  rfl
theorem vred a0 a1 a2 : Statement (.vred a0 a1 a2) := by
  intro hw c w he
  cases he
  refine round_plain (by decide) ?_
  simp (disch := omega) only [plain_18, decodeXLane, wordOf_field, wordOf_bit, field_high, field_low, field_whole, field_fit, bit_high, bit_low, bit_fit, bit_ofBool, LaneOp.of_code]
  rfl
theorem vfaddF32 a0 a1 a2 : Statement (.vfaddF32 a0 a1 a2) := by
  intro hw c w he
  cases he
  refine round_plain (by decide) ?_
  simp (disch := omega) only [plain_19, decodeF32A, wordOf_field, wordOf_bit, field_high, field_low, field_whole, field_fit, bit_high, bit_low, bit_fit, bit_ofBool]
  rfl
theorem vfsubF32 a0 a1 a2 : Statement (.vfsubF32 a0 a1 a2) := by
  intro hw c w he
  cases he
  refine round_plain (by decide) ?_
  simp (disch := omega) only [plain_19, decodeF32A, wordOf_field, wordOf_bit, field_high, field_low, field_whole, field_fit, bit_high, bit_low, bit_fit, bit_ofBool]
  rfl
theorem vfmulF32 a0 a1 a2 : Statement (.vfmulF32 a0 a1 a2) := by
  intro hw c w he
  cases he
  refine round_plain (by decide) ?_
  simp (disch := omega) only [plain_19, decodeF32A, wordOf_field, wordOf_bit, field_high, field_low, field_whole, field_fit, bit_high, bit_low, bit_fit, bit_ofBool]
  rfl
theorem vffmaF32 a0 a1 a2 : Statement (.vffmaF32 a0 a1 a2) := by
  intro hw c w he
  cases he
  refine round_plain (by decide) ?_
  simp (disch := omega) only [plain_19, decodeF32A, wordOf_field, wordOf_bit, field_high, field_low, field_whole, field_fit, bit_high, bit_low, bit_fit, bit_ofBool]
  rfl
theorem vffnmaF32 a0 a1 a2 : Statement (.vffnmaF32 a0 a1 a2) := by
  intro hw c w he
  cases he
  refine round_plain (by decide) ?_
  simp (disch := omega) only [plain_19, decodeF32A, wordOf_field, wordOf_bit, field_high, field_low, field_whole, field_fit, bit_high, bit_low, bit_fit, bit_ofBool]
  rfl
theorem vfminF32 a0 a1 a2 : Statement (.vfminF32 a0 a1 a2) := by
  intro hw c w he
  cases he
  refine round_plain (by decide) ?_
  simp (disch := omega) only [plain_19, decodeF32A, wordOf_field, wordOf_bit, field_high, field_low, field_whole, field_fit, bit_high, bit_low, bit_fit, bit_ofBool]
  rfl
theorem vfmaxF32 a0 a1 a2 : Statement (.vfmaxF32 a0 a1 a2) := by
  intro hw c w he
  cases he
  refine round_plain (by decide) ?_
  simp (disch := omega) only [plain_19, decodeF32A, wordOf_field, wordOf_bit, field_high, field_low, field_whole, field_fit, bit_high, bit_low, bit_fit, bit_ofBool]
  rfl
theorem vfabsF32 a0 a1 : Statement (.vfabsF32 a0 a1) := by
  intro hw c w he
  cases he
  refine round_plain (by decide) ?_
  simp (disch := omega) only [plain_19, decodeF32A, wordOf_field, wordOf_bit, field_high, field_low, field_whole, field_fit, bit_high, bit_low, bit_fit, bit_ofBool]
  rfl
theorem vfnegF32 a0 a1 : Statement (.vfnegF32 a0 a1) := by
  intro hw c w he
  cases he
  refine round_plain (by decide) ?_
  simp (disch := omega) only [plain_19, decodeF32A, wordOf_field, wordOf_bit, field_high, field_low, field_whole, field_fit, bit_high, bit_low, bit_fit, bit_ofBool]
  rfl
theorem vfcopysignF32 a0 a1 a2 : Statement (.vfcopysignF32 a0 a1 a2) := by
  intro hw c w he
  cases he
  refine round_plain (by decide) ?_
  simp (disch := omega) only [plain_19, decodeF32A, wordOf_field, wordOf_bit, field_high, field_low, field_whole, field_fit, bit_high, bit_low, bit_fit, bit_ofBool]
  rfl
theorem vfrintF32 a0 a1 : Statement (.vfrintF32 a0 a1) := by
  intro hw c w he
  cases he
  refine round_plain (by decide) ?_
  simp (disch := omega) only [plain_19, decodeF32A, wordOf_field, wordOf_bit, field_high, field_low, field_whole, field_fit, bit_high, bit_low, bit_fit, bit_ofBool]
  rfl
theorem vfaddF64 a0 a1 a2 : Statement (.vfaddF64 a0 a1 a2) := by
  intro hw c w he
  cases he
  refine round_plain (by decide) ?_
  simp (disch := omega) only [plain_1B, decodeF64A, wordOf_field, wordOf_bit, field_high, field_low, field_whole, field_fit, bit_high, bit_low, bit_fit, bit_ofBool]
  rfl
theorem vfsubF64 a0 a1 a2 : Statement (.vfsubF64 a0 a1 a2) := by
  intro hw c w he
  cases he
  refine round_plain (by decide) ?_
  simp (disch := omega) only [plain_1B, decodeF64A, wordOf_field, wordOf_bit, field_high, field_low, field_whole, field_fit, bit_high, bit_low, bit_fit, bit_ofBool]
  rfl
theorem vfmulF64 a0 a1 a2 : Statement (.vfmulF64 a0 a1 a2) := by
  intro hw c w he
  cases he
  refine round_plain (by decide) ?_
  simp (disch := omega) only [plain_1B, decodeF64A, wordOf_field, wordOf_bit, field_high, field_low, field_whole, field_fit, bit_high, bit_low, bit_fit, bit_ofBool]
  rfl
theorem vffmaF64 a0 a1 a2 : Statement (.vffmaF64 a0 a1 a2) := by
  intro hw c w he
  cases he
  refine round_plain (by decide) ?_
  simp (disch := omega) only [plain_1B, decodeF64A, wordOf_field, wordOf_bit, field_high, field_low, field_whole, field_fit, bit_high, bit_low, bit_fit, bit_ofBool]
  rfl
theorem vffnmaF64 a0 a1 a2 : Statement (.vffnmaF64 a0 a1 a2) := by
  intro hw c w he
  cases he
  refine round_plain (by decide) ?_
  simp (disch := omega) only [plain_1B, decodeF64A, wordOf_field, wordOf_bit, field_high, field_low, field_whole, field_fit, bit_high, bit_low, bit_fit, bit_ofBool]
  rfl
theorem vfminF64 a0 a1 a2 : Statement (.vfminF64 a0 a1 a2) := by
  intro hw c w he
  cases he
  refine round_plain (by decide) ?_
  simp (disch := omega) only [plain_1B, decodeF64A, wordOf_field, wordOf_bit, field_high, field_low, field_whole, field_fit, bit_high, bit_low, bit_fit, bit_ofBool]
  rfl
theorem vfmaxF64 a0 a1 a2 : Statement (.vfmaxF64 a0 a1 a2) := by
  intro hw c w he
  cases he
  refine round_plain (by decide) ?_
  simp (disch := omega) only [plain_1B, decodeF64A, wordOf_field, wordOf_bit, field_high, field_low, field_whole, field_fit, bit_high, bit_low, bit_fit, bit_ofBool]
  rfl
theorem vfabsF64 a0 a1 : Statement (.vfabsF64 a0 a1) := by
  intro hw c w he
  cases he
  refine round_plain (by decide) ?_
  simp (disch := omega) only [plain_1B, decodeF64A, wordOf_field, wordOf_bit, field_high, field_low, field_whole, field_fit, bit_high, bit_low, bit_fit, bit_ofBool]
  rfl
theorem vfnegF64 a0 a1 : Statement (.vfnegF64 a0 a1) := by
  intro hw c w he
  cases he
  refine round_plain (by decide) ?_
  simp (disch := omega) only [plain_1B, decodeF64A, wordOf_field, wordOf_bit, field_high, field_low, field_whole, field_fit, bit_high, bit_low, bit_fit, bit_ofBool]
  rfl
theorem vfcopysignF64 a0 a1 a2 : Statement (.vfcopysignF64 a0 a1 a2) := by
  intro hw c w he
  cases he
  refine round_plain (by decide) ?_
  simp (disch := omega) only [plain_1B, decodeF64A, wordOf_field, wordOf_bit, field_high, field_low, field_whole, field_fit, bit_high, bit_low, bit_fit, bit_ofBool]
  rfl
theorem vfrintF64 a0 a1 : Statement (.vfrintF64 a0 a1) := by
  intro hw c w he
  cases he
  refine round_plain (by decide) ?_
  simp (disch := omega) only [plain_1B, decodeF64A, wordOf_field, wordOf_bit, field_high, field_low, field_whole, field_fit, bit_high, bit_low, bit_fit, bit_ofBool]
  rfl
theorem vfdivF32 a0 a1 a2 : Statement (.vfdivF32 a0 a1 a2) := by
  intro hw c w he
  cases he
  refine round_plain (by decide) ?_
  simp (disch := omega) only [plain_1A, decodeF32B, wordOf_field, wordOf_bit, field_high, field_low, field_whole, field_fit, bit_high, bit_low, bit_fit, bit_ofBool]
  rfl
theorem vfsqrtF32 a0 a1 : Statement (.vfsqrtF32 a0 a1) := by
  intro hw c w he
  cases he
  refine round_plain (by decide) ?_
  simp (disch := omega) only [plain_1A, decodeF32B, wordOf_field, wordOf_bit, field_high, field_low, field_whole, field_fit, bit_high, bit_low, bit_fit, bit_ofBool]
  rfl
theorem vfrcpF32 a0 a1 : Statement (.vfrcpF32 a0 a1) := by
  intro hw c w he
  cases he
  refine round_plain (by decide) ?_
  simp (disch := omega) only [plain_1A, decodeF32B, wordOf_field, wordOf_bit, field_high, field_low, field_whole, field_fit, bit_high, bit_low, bit_fit, bit_ofBool]
  rfl
theorem vfrsqF32 a0 a1 : Statement (.vfrsqF32 a0 a1) := by
  intro hw c w he
  cases he
  refine round_plain (by decide) ?_
  simp (disch := omega) only [plain_1A, decodeF32B, wordOf_field, wordOf_bit, field_high, field_low, field_whole, field_fit, bit_high, bit_low, bit_fit, bit_ofBool]
  rfl
theorem vfexp2F32 a0 a1 : Statement (.vfexp2F32 a0 a1) := by
  intro hw c w he
  cases he
  refine round_plain (by decide) ?_
  simp (disch := omega) only [plain_1A, decodeF32B, wordOf_field, wordOf_bit, field_high, field_low, field_whole, field_fit, bit_high, bit_low, bit_fit, bit_ofBool]
  rfl
theorem vflog2F32 a0 a1 : Statement (.vflog2F32 a0 a1) := by
  intro hw c w he
  cases he
  refine round_plain (by decide) ?_
  simp (disch := omega) only [plain_1A, decodeF32B, wordOf_field, wordOf_bit, field_high, field_low, field_whole, field_fit, bit_high, bit_low, bit_fit, bit_ofBool]
  rfl
theorem vfsinF32 a0 a1 : Statement (.vfsinF32 a0 a1) := by
  intro hw c w he
  cases he
  refine round_plain (by decide) ?_
  simp (disch := omega) only [plain_1A, decodeF32B, wordOf_field, wordOf_bit, field_high, field_low, field_whole, field_fit, bit_high, bit_low, bit_fit, bit_ofBool]
  rfl
theorem vfcosF32 a0 a1 : Statement (.vfcosF32 a0 a1) := by
  intro hw c w he
  cases he
  refine round_plain (by decide) ?_
  simp (disch := omega) only [plain_1A, decodeF32B, wordOf_field, wordOf_bit, field_high, field_low, field_whole, field_fit, bit_high, bit_low, bit_fit, bit_ofBool]
  rfl
theorem vftanhF32 a0 a1 : Statement (.vftanhF32 a0 a1) := by
  intro hw c w he
  cases he
  refine round_plain (by decide) ?_
  simp (disch := omega) only [plain_1A, decodeF32B, wordOf_field, wordOf_bit, field_high, field_low, field_whole, field_fit, bit_high, bit_low, bit_fit, bit_ofBool]
  rfl
theorem vfdivF64 a0 a1 a2 : Statement (.vfdivF64 a0 a1 a2) := by
  intro hw c w he
  cases he
  refine round_plain (by decide) ?_
  simp (disch := omega) only [plain_1C, decodeF64B, wordOf_field, wordOf_bit, field_high, field_low, field_whole, field_fit, bit_high, bit_low, bit_fit, bit_ofBool]
  rfl
theorem vfsqrtF64 a0 a1 : Statement (.vfsqrtF64 a0 a1) := by
  intro hw c w he
  cases he
  refine round_plain (by decide) ?_
  simp (disch := omega) only [plain_1C, decodeF64B, wordOf_field, wordOf_bit, field_high, field_low, field_whole, field_fit, bit_high, bit_low, bit_fit, bit_ofBool]
  rfl
theorem vfrcpF64 a0 a1 : Statement (.vfrcpF64 a0 a1) := by
  intro hw c w he
  cases he
  refine round_plain (by decide) ?_
  simp (disch := omega) only [plain_1C, decodeF64B, wordOf_field, wordOf_bit, field_high, field_low, field_whole, field_fit, bit_high, bit_low, bit_fit, bit_ofBool]
  rfl
theorem vfrsqF64 a0 a1 : Statement (.vfrsqF64 a0 a1) := by
  intro hw c w he
  cases he
  refine round_plain (by decide) ?_
  simp (disch := omega) only [plain_1C, decodeF64B, wordOf_field, wordOf_bit, field_high, field_low, field_whole, field_fit, bit_high, bit_low, bit_fit, bit_ofBool]
  rfl
theorem vfaddBf16 a0 a1 a2 : Statement (.vfaddBf16 a0 a1 a2) := by
  intro hw c w he
  cases he
  refine round_plain (by decide) ?_
  simp (disch := omega) only [plain_1D, decodeBF2, wordOf_field, wordOf_bit, field_high, field_low, field_whole, field_fit, bit_high, bit_low, bit_fit, bit_ofBool]
  rfl
theorem vfsubBf16 a0 a1 a2 : Statement (.vfsubBf16 a0 a1 a2) := by
  intro hw c w he
  cases he
  refine round_plain (by decide) ?_
  simp (disch := omega) only [plain_1D, decodeBF2, wordOf_field, wordOf_bit, field_high, field_low, field_whole, field_fit, bit_high, bit_low, bit_fit, bit_ofBool]
  rfl
theorem vfmulBf16 a0 a1 a2 : Statement (.vfmulBf16 a0 a1 a2) := by
  intro hw c w he
  cases he
  refine round_plain (by decide) ?_
  simp (disch := omega) only [plain_1D, decodeBF2, wordOf_field, wordOf_bit, field_high, field_low, field_whole, field_fit, bit_high, bit_low, bit_fit, bit_ofBool]
  rfl
theorem vffmaBf16 a0 a1 a2 : Statement (.vffmaBf16 a0 a1 a2) := by
  intro hw c w he
  cases he
  refine round_plain (by decide) ?_
  simp (disch := omega) only [plain_1D, decodeBF2, wordOf_field, wordOf_bit, field_high, field_low, field_whole, field_fit, bit_high, bit_low, bit_fit, bit_ofBool]
  rfl
theorem vffnmaBf16 a0 a1 a2 : Statement (.vffnmaBf16 a0 a1 a2) := by
  intro hw c w he
  cases he
  refine round_plain (by decide) ?_
  simp (disch := omega) only [plain_1D, decodeBF2, wordOf_field, wordOf_bit, field_high, field_low, field_whole, field_fit, bit_high, bit_low, bit_fit, bit_ofBool]
  rfl
theorem vfminBf16 a0 a1 a2 : Statement (.vfminBf16 a0 a1 a2) := by
  intro hw c w he
  cases he
  refine round_plain (by decide) ?_
  simp (disch := omega) only [plain_1D, decodeBF2, wordOf_field, wordOf_bit, field_high, field_low, field_whole, field_fit, bit_high, bit_low, bit_fit, bit_ofBool]
  rfl
theorem vfmaxBf16 a0 a1 a2 : Statement (.vfmaxBf16 a0 a1 a2) := by
  intro hw c w he
  cases he
  refine round_plain (by decide) ?_
  simp (disch := omega) only [plain_1D, decodeBF2, wordOf_field, wordOf_bit, field_high, field_low, field_whole, field_fit, bit_high, bit_low, bit_fit, bit_ofBool]
  rfl
theorem vfabsBf16 a0 a1 : Statement (.vfabsBf16 a0 a1) := by
  intro hw c w he
  cases he
  refine round_plain (by decide) ?_
  simp (disch := omega) only [plain_1D, decodeBF2, wordOf_field, wordOf_bit, field_high, field_low, field_whole, field_fit, bit_high, bit_low, bit_fit, bit_ofBool]
  rfl
theorem vfnegBf16 a0 a1 : Statement (.vfnegBf16 a0 a1) := by
  intro hw c w he
  cases he
  refine round_plain (by decide) ?_
  simp (disch := omega) only [plain_1D, decodeBF2, wordOf_field, wordOf_bit, field_high, field_low, field_whole, field_fit, bit_high, bit_low, bit_fit, bit_ofBool]
  rfl
theorem vfcmp a0 a1 a2 a3 a4 : Statement (.vfcmp a0 a1 a2 a3 a4) := by
  intro hw c w he
  cases he
  refine round_plain (by decide) ?_
  simp (disch := omega) only [plain_1E, decodeFCmp, wordOf_field, wordOf_bit, field_high, field_low, field_whole, field_fit, bit_high, bit_low, bit_fit, bit_ofBool, FloatCond.of_code, FloatType.of_code]
theorem cvts a0 a1 a2 a3 a4 : Statement (.cvts a0 a1 a2 a3 a4) := by
  intro hw c w he
  cases he
  refine round_plain (by decide) ?_
  simp (disch := omega) only [plain_1F, decodeConvert, wordOf_field, wordOf_bit, field_high, field_low, field_whole, field_fit, bit_high, bit_low, bit_fit, bit_ofBool, Fmt.of_code, Rnd.of_code]
  rfl
theorem cvti a0 a1 a2 a3 a4 : Statement (.cvti a0 a1 a2 a3 a4) := by
  intro hw c w he
  cases he
  refine round_plain (by decide) ?_
  simp (disch := omega) only [plain_20, decodeConvert, wordOf_field, wordOf_bit, field_high, field_low, field_whole, field_fit, bit_high, bit_low, bit_fit, bit_ofBool, Fmt.of_code, Rnd.of_code]
  rfl
theorem pack4 a0 a1 : Statement (.pack4 a0 a1) := by
  intro hw c w he
  cases he
  refine round_plain (by decide) ?_
  simp (disch := omega) only [plain_21, decodePack, wordOf_field, wordOf_bit, field_high, field_low, field_whole, field_fit, bit_high, bit_low, bit_fit, bit_ofBool]
  rfl
theorem unpack4 a0 a1 a2 : Statement (.unpack4 a0 a1 a2) := by
  intro hw c w he
  cases he
  refine round_plain (by decide) ?_
  simp (disch := omega) only [plain_21, decodePack, wordOf_field, wordOf_bit, field_high, field_low, field_whole, field_fit, bit_high, bit_low, bit_fit, bit_ofBool]
  rfl
theorem pack6 a0 a1 : Statement (.pack6 a0 a1) := by
  intro hw c w he
  cases he
  refine round_plain (by decide) ?_
  simp (disch := omega) only [plain_21, decodePack, wordOf_field, wordOf_bit, field_high, field_low, field_whole, field_fit, bit_high, bit_low, bit_fit, bit_ofBool]
  rfl
theorem unpack6 a0 a1 a2 : Statement (.unpack6 a0 a1 a2) := by
  intro hw c w he
  cases he
  refine round_plain (by decide) ?_
  simp (disch := omega) only [plain_21, decodePack, wordOf_field, wordOf_bit, field_high, field_low, field_whole, field_fit, bit_high, bit_low, bit_fit, bit_ofBool]
  rfl
theorem pack8 a0 a1 : Statement (.pack8 a0 a1) := by
  intro hw c w he
  cases he
  refine round_plain (by decide) ?_
  simp (disch := omega) only [plain_21, decodePack, wordOf_field, wordOf_bit, field_high, field_low, field_whole, field_fit, bit_high, bit_low, bit_fit, bit_ofBool]
  rfl
theorem unpack8 a0 a1 a2 : Statement (.unpack8 a0 a1 a2) := by
  intro hw c w he
  cases he
  refine round_plain (by decide) ?_
  simp (disch := omega) only [plain_21, decodePack, wordOf_field, wordOf_bit, field_high, field_low, field_whole, field_fit, bit_high, bit_low, bit_fit, bit_ofBool]
  rfl
theorem bscale a0 a1 a2 : Statement (.bscale a0 a1 a2) := by
  intro hw c w he
  cases he
  refine round_plain (by decide) ?_
  simp (disch := omega) only [plain_22, decodePack, wordOf_field, wordOf_bit, field_high, field_low, field_whole, field_fit, bit_high, bit_low, bit_fit, bit_ofBool, Fmt.of_code]
  rfl
theorem scapplyMul a0 a1 a2 : Statement (.scapplyMul a0 a1 a2) := by
  intro hw c w he
  cases he
  refine round_plain (by decide) ?_
  simp (disch := omega) only [plain_22, decodePack, wordOf_field, wordOf_bit, field_high, field_low, field_whole, field_fit, bit_high, bit_low, bit_fit, bit_ofBool]
  rfl
theorem scapplyDiv a0 a1 a2 : Statement (.scapplyDiv a0 a1 a2) := by
  intro hw c w he
  cases he
  refine round_plain (by decide) ?_
  simp (disch := omega) only [plain_22, decodePack, wordOf_field, wordOf_bit, field_high, field_low, field_whole, field_fit, bit_high, bit_low, bit_fit, bit_ofBool]
  rfl
theorem compress a0 a1 a2 : Statement (.compress a0 a1 a2) := by
  intro hw c w he
  cases he
  refine round_plain (by decide) ?_
  simp (disch := omega) only [plain_22, decodePack, wordOf_field, wordOf_bit, field_high, field_low, field_whole, field_fit, bit_high, bit_low, bit_fit, bit_ofBool, Fmt.of_code]
  rfl
theorem tidsetImm a0 : Statement (.tidsetImm a0) := by
  intro hw c w he
  cases he
  refine round_plain (by decide) ?_
  simp (disch := omega) only [plain_22, decodePack, wordOf_field, wordOf_bit, field_high, field_low, field_whole, field_fit, bit_high, bit_low, bit_fit, bit_ofBool]
  rfl
theorem tidsetReg a0 : Statement (.tidsetReg a0) := by
  intro hw c w he
  cases he
  refine round_plain (by decide) ?_
  simp (disch := omega) only [plain_22, decodePack, wordOf_field, wordOf_bit, field_high, field_low, field_whole, field_fit, bit_high, bit_low, bit_fit, bit_ofBool]
  rfl
theorem ldg a0 a1 a2 a3 a4 : Statement (.ldg a0 a1 a2 a3 a4) := by
  intro hw c w he
  cases he
  refine round_plain (by decide) ?_
  simp (disch := omega) only [plain_23, decodeMemory, wordOf_field, wordOf_bit, field_high, field_low, field_whole, field_fit, bit_high, bit_low, bit_fit, bit_ofBool, LoadWidth.of_code]
  cases a3 <;> cases a4 <;> rfl
theorem stg a0 a1 a2 a3 a4 : Statement (.stg a0 a1 a2 a3 a4) := by
  intro hw c w he
  cases he
  refine round_plain (by decide) ?_
  simp (disch := omega) only [plain_24, decodeMemory, wordOf_field, wordOf_bit, field_high, field_low, field_whole, field_fit, bit_high, bit_low, bit_fit, bit_ofBool, StoreWidth.of_code]
  cases a3 <;> cases a4 <;> rfl
theorem lds a0 a1 a2 a3 a4 : Statement (.lds a0 a1 a2 a3 a4) := by
  intro hw c w he
  cases he
  refine round_plain (by decide) ?_
  simp (disch := omega) only [plain_25, decodeMemory, wordOf_field, wordOf_bit, field_high, field_low, field_whole, field_fit, bit_high, bit_low, bit_fit, bit_ofBool, LoadWidth.of_code]
  cases a3 <;> cases a4 <;> first | rfl | simp [staticCause, firstCause] at hw
theorem sts a0 a1 a2 a3 a4 : Statement (.sts a0 a1 a2 a3 a4) := by
  intro hw c w he
  cases he
  refine round_plain (by decide) ?_
  simp (disch := omega) only [plain_26, decodeMemory, wordOf_field, wordOf_bit, field_high, field_low, field_whole, field_fit, bit_high, bit_low, bit_fit, bit_ofBool, StoreWidth.of_code]
  cases a3 <;> cases a4 <;> first | rfl | simp [staticCause, firstCause] at hw
theorem ldc a0 a1 a2 a3 a4 : Statement (.ldc a0 a1 a2 a3 a4) := by
  intro hw c w he
  cases he
  refine round_plain (by decide) ?_
  simp (disch := omega) only [plain_27, decodeMemory, wordOf_field, wordOf_bit, field_high, field_low, field_whole, field_fit, bit_high, bit_low, bit_fit, bit_ofBool, LoadWidth.of_code]
  cases a3 <;> cases a4 <;> first | rfl | simp [staticCause, firstCause] at hw
theorem stc a0 a1 a2 a3 a4 : Statement (.stc a0 a1 a2 a3 a4) := by
  intro hw c w he
  cases he
  refine round_plain (by decide) ?_
  simp (disch := omega) only [plain_28, decodeMemory, wordOf_field, wordOf_bit, field_high, field_low, field_whole, field_fit, bit_high, bit_low, bit_fit, bit_ofBool, StoreWidth.of_code]
  cases a3 <;> cases a4 <;> first | rfl | simp [staticCause, firstCause] at hw
theorem lda a0 a1 a2 a3 a4 : Statement (.lda a0 a1 a2 a3 a4) := by
  intro hw c w he
  cases he
  refine round_plain (by decide) ?_
  simp (disch := omega) only [plain_29, decodeAtomic, wordOf_field, wordOf_bit, field_high, field_low, field_whole, field_fit, bit_high, bit_low, bit_fit, bit_ofBool, Scope.of_code]
  rfl
theorem stl a0 a1 a2 a3 a4 : Statement (.stl a0 a1 a2 a3 a4) := by
  intro hw c w he
  cases he
  refine round_plain (by decide) ?_
  simp (disch := omega) only [plain_2A, decodeAtomic, wordOf_field, wordOf_bit, field_high, field_low, field_whole, field_fit, bit_high, bit_low, bit_fit, bit_ofBool, Scope.of_code]
  rfl
theorem atom a0 a1 a2 a3 : Statement (.atom a0 a1 a2 a3) := by
  intro hw c w he
  cases he
  refine round_plain (by decide) ?_
  simp (disch := omega) only [plain_2B, decodeAtomic, wordOf_field, wordOf_bit, field_high, field_low, field_whole, field_fit, bit_high, bit_low, bit_fit, bit_ofBool, AtomFn.of_code]
  cases a3 <;> rfl
theorem atoma a0 a1 a2 a3 : Statement (.atoma a0 a1 a2 a3) := by
  intro hw c w he
  cases he
  refine round_plain (by decide) ?_
  simp (disch := omega) only [plain_2C, decodeAtomic, wordOf_field, wordOf_bit, field_high, field_low, field_whole, field_fit, bit_high, bit_low, bit_fit, bit_ofBool, AtomFn.of_code]
  cases a3 <;> rfl
theorem atoms a0 a1 a2 a3 : Statement (.atoms a0 a1 a2 a3) := by
  intro hw c w he
  cases he
  refine round_plain (by decide) ?_
  simp (disch := omega) only [plain_2D, decodeAtomic, wordOf_field, wordOf_bit, field_high, field_low, field_whole, field_fit, bit_high, bit_low, bit_fit, bit_ofBool, AtomFn.of_code]
  cases a3 <;> rfl
theorem red a0 a1 a2 a3 : Statement (.red a0 a1 a2 a3) := by
  intro hw c w he
  cases he
  refine round_plain (by decide) ?_
  simp (disch := omega) only [plain_2E, decodeAtomic, wordOf_field, wordOf_bit, field_high, field_low, field_whole, field_fit, bit_high, bit_low, bit_fit, bit_ofBool, AtomFn.of_code]
  cases a3 <;> first | rfl | simp [staticCause, firstCause, AtomFn.exchanges] at hw
theorem tagl a0 a1 a2 : Statement (.tagl a0 a1 a2) := by
  intro hw c w he
  cases he
  refine round_plain (by decide) ?_
  simp (disch := omega) only [plain_2F, decodeOrder, wordOf_field, wordOf_bit, field_high, field_low, field_whole, field_fit, bit_high, bit_low, bit_fit, bit_ofBool]
  rfl
theorem tags a0 a1 : Statement (.tags a0 a1) := by
  intro hw c w he
  cases he
  refine round_plain (by decide) ?_
  simp (disch := omega) only [plain_2F, decodeOrder, wordOf_field, wordOf_bit, field_high, field_low, field_whole, field_fit, bit_high, bit_low, bit_fit, bit_ofBool]
  rfl
theorem tagi a0 : Statement (.tagi a0) := by
  intro hw c w he
  cases he
  refine round_plain (by decide) ?_
  simp (disch := omega) only [plain_2F, decodeOrder, wordOf_field, wordOf_bit, field_high, field_low, field_whole, field_fit, bit_high, bit_low, bit_fit, bit_ofBool]
  rfl
theorem fence a0 a1 : Statement (.fence a0 a1) := by
  intro hw c w he
  cases he
  refine round_plain (by decide) ?_
  simp (disch := omega) only [plain_30, decodeOrder, wordOf_field, wordOf_bit, field_high, field_low, field_whole, field_fit, bit_high, bit_low, bit_fit, bit_ofBool, Scope.of_code, Sem.of_code]
  rfl
theorem publish a0 : Statement (.publish a0) := by
  intro hw c w he
  cases he
  refine round_plain (by decide) ?_
  simp (disch := omega) only [plain_30, decodeOrder, wordOf_field, wordOf_bit, field_high, field_low, field_whole, field_fit, bit_high, bit_low, bit_fit, bit_ofBool]
  rfl
theorem flushh a0 a1 : Statement (.flushh a0 a1) := by
  intro hw c w he
  cases he
  refine round_plain (by decide) ?_
  simp (disch := omega) only [plain_30, decodeOrder, wordOf_field, wordOf_bit, field_high, field_low, field_whole, field_fit, bit_high, bit_low, bit_fit, bit_ofBool]
  rfl
theorem ljoin a0 a1 a2 a3 a4 : Statement (.ljoin a0 a1 a2 a3 a4) := by
  intro hw c w he
  cases he
  refine round_plain (by decide) ?_
  simp (disch := omega) only [plain_31, decodeLattice, wordOf_field, wordOf_bit, field_high, field_low, field_whole, field_fit, bit_high, bit_low, bit_fit, bit_ofBool, LatType.of_code]
  rfl
theorem lld a0 a1 a2 a3 : Statement (.lld a0 a1 a2 a3) := by
  intro hw c w he
  cases he
  refine round_plain (by decide) ?_
  simp (disch := omega) only [plain_32, decodeLattice, wordOf_field, wordOf_bit, field_high, field_low, field_whole, field_fit, bit_high, bit_low, bit_fit, bit_ofBool, LatWidth.of_code]
  rfl
theorem lldAcq a0 a1 a2 a3 : Statement (.lldAcq a0 a1 a2 a3) := by
  intro hw c w he
  cases he
  refine round_plain (by decide) ?_
  simp (disch := omega) only [plain_32, decodeLattice, wordOf_field, wordOf_bit, field_high, field_low, field_whole, field_fit, bit_high, bit_low, bit_fit, bit_ofBool, LatWidth.of_code]
  rfl
theorem lldge a0 a1 a2 a3 : Statement (.lldge a0 a1 a2 a3) := by
  intro hw c w he
  cases he
  refine round_plain (by decide) ?_
  simp (disch := omega) only [plain_32, decodeLattice, wordOf_field, wordOf_bit, field_high, field_low, field_whole, field_fit, bit_high, bit_low, bit_fit, bit_ofBool, LatWidth.of_code]
  rfl
theorem ltry a0 a1 a2 a3 : Statement (.ltry a0 a1 a2 a3) := by
  intro hw c w he
  cases he
  refine round_plain (by decide) ?_
  simp (disch := omega) only [plain_32, decodeLattice, wordOf_field, wordOf_bit, field_high, field_low, field_whole, field_fit, bit_high, bit_low, bit_fit, bit_ofBool]
  rfl
theorem lsta a0 a1 a2 a3 : Statement (.lsta a0 a1 a2 a3) := by
  intro hw c w he
  cases he
  refine round_plain (by decide) ?_
  simp (disch := omega) only [plain_33, decodeLattice, wordOf_field, wordOf_bit, field_high, field_low, field_whole, field_fit, bit_high, bit_low, bit_fit, bit_ofBool, LatType.of_code]
  cases a3 <;> first | rfl | simp [staticCause, firstCause, AtomFn.exchanges] at hw
theorem linc a0 a1 : Statement (.linc a0 a1) := by
  intro hw c w he
  cases he
  refine round_plain (by decide) ?_
  simp (disch := omega) only [plain_33, decodeLattice, wordOf_field, wordOf_bit, field_high, field_low, field_whole, field_fit, bit_high, bit_low, bit_fit, bit_ofBool]
  rfl
theorem lsync a0 : Statement (.lsync a0) := by
  intro hw c w he
  cases he
  refine round_plain (by decide) ?_
  simp (disch := omega) only [plain_33, decodeLattice, wordOf_field, wordOf_bit, field_high, field_low, field_whole, field_fit, bit_high, bit_low, bit_fit, bit_ofBool]
  rfl
theorem tcopy a0 a1 a2 a3 : Statement (.tcopy a0 a1 a2 a3) := by
  intro hw c w he
  cases he
  refine round_plain (by decide) ?_
  simp (disch := omega) only [plain_34, decodeCopy, wordOf_field, wordOf_bit, field_high, field_low, field_whole, field_fit, bit_high, bit_low, bit_fit, bit_ofBool]
  rfl
theorem copy a0 a1 a2 a3 a4 : Statement (.copy a0 a1 a2 a3 a4) := by
  intro hw c w he
  cases he
  refine round_plain (by decide) ?_
  simp (disch := omega) only [plain_35, decodeCopy, wordOf_field, wordOf_bit, field_high, field_low, field_whole, field_fit, bit_high, bit_low, bit_fit, bit_ofBool, CopyDir.of_code]
  rfl
theorem tryw a0 a1 a2 a3 : Statement (.tryw a0 a1 a2 a3) := by
  intro hw c w he
  cases he
  refine round_plain (by decide) ?_
  simp (disch := omega) only [plain_36, decodeCopy, wordOf_field, wordOf_bit, field_high, field_low, field_whole, field_fit, bit_high, bit_low, bit_fit, bit_ofBool]
  rfl
theorem bmtest a0 a1 a2 : Statement (.bmtest a0 a1 a2) := by
  intro hw c w he
  cases he
  refine round_plain (by decide) ?_
  simp (disch := omega) only [plain_36, decodeCopy, wordOf_field, wordOf_bit, field_high, field_low, field_whole, field_fit, bit_high, bit_low, bit_fit, bit_ofBool]
  rfl
theorem bmclr a0 a1 : Statement (.bmclr a0 a1) := by
  intro hw c w he
  cases he
  refine round_plain (by decide) ?_
  simp (disch := omega) only [plain_36, decodeCopy, wordOf_field, wordOf_bit, field_high, field_low, field_whole, field_fit, bit_high, bit_low, bit_fit, bit_ofBool]
  rfl
theorem rpush a0 a1 : Statement (.rpush a0 a1) := by
  intro hw c w he
  cases he
  refine round_plain (by decide) ?_
  rw [plain_37]
  have h := s3_fields c 0x37 (.chan a0) a1 (.reg 0) 0
  have z := s3_kb c 0x37 (.chan a0) a1 0 0
  unfold s3 at h z
  simp only [decodeRelay, h, z]
  cases a1 <;> first | rfl | simp [staticCause, firstCause] at hw
theorem rpop a0 a1 a2 : Statement (.rpop a0 a1 a2) := by
  intro hw c w he
  cases he
  refine round_plain (by decide) ?_
  rw [plain_37]
  have h := s3_fields c 0x37 (.reg a0) (if a2 then .pop a1 else .peek a1) (.reg 0) 1
  have z := s3_kb c 0x37 (.reg a0) (if a2 then .pop a1 else .peek a1) 0 1
  unfold s3 at h z
  simp only [decodeRelay, h, z]
  cases a2 <;> rfl
theorem rfree a0 a1 a2 : Statement (.rfree a0 a1 a2) := by
  intro hw c w he
  cases he
  refine round_plain (by decide) ?_
  rw [plain_37]
  have h := s3_fields c 0x37 (.reg a0) (.peek a1) (.reg a2) 2
  have z := s3_kb c 0x37 (.reg a0) (.peek a1) a2 2
  unfold s3 at h z
  simp only [decodeRelay, h, z]
  rfl
theorem rstat a0 a1 : Statement (.rstat a0 a1) := by
  intro hw c w he
  cases he
  refine round_plain (by decide) ?_
  rw [plain_37]
  have h := s3_fields c 0x37 (.reg a0) (.peek a1) (.reg 0) 3
  have z := s3_kb c 0x37 (.reg a0) (.peek a1) 0 3
  unfold s3 at h z
  simp only [decodeRelay, h, z]
  rfl
theorem mma a0 a1 a2 : Statement (.mma a0 a1 a2) := by
  intro hw c w he
  cases he
  refine round_plain (by decide) ?_
  simp (disch := omega) only [plain_38, decodeMatrix, wordOf_field, wordOf_bit, field_high, field_low, field_whole, field_fit, bit_high, bit_low, bit_fit, bit_ofBool, Fmt.of_code]
  rfl
theorem mmas a0 a1 a2 : Statement (.mmas a0 a1 a2) := by
  intro hw c w he
  cases he
  refine round_plain (by decide) ?_
  simp (disch := omega) only [plain_39, decodeMatrix, wordOf_field, wordOf_bit, field_high, field_low, field_whole, field_fit, bit_high, bit_low, bit_fit, bit_ofBool, Fmt.of_code]
  rfl
theorem accalloc a0 a1 a2 : Statement (.accalloc a0 a1 a2) := by
  intro hw c w he
  cases he
  refine round_plain (by decide) ?_
  simp (disch := omega) only [plain_3A, decodeAcc, wordOf_field, wordOf_bit, field_high, field_low, field_whole, field_fit, bit_high, bit_low, bit_fit, bit_ofBool]
  rfl
theorem accfree a0 a1 : Statement (.accfree a0 a1) := by
  intro hw c w he
  cases he
  refine round_plain (by decide) ?_
  simp (disch := omega) only [plain_3A, decodeAcc, wordOf_field, wordOf_bit, field_high, field_low, field_whole, field_fit, bit_high, bit_low, bit_fit, bit_ofBool]
  rfl
theorem accz a0 a1 : Statement (.accz a0 a1) := by
  intro hw c w he
  cases he
  refine round_plain (by decide) ?_
  simp (disch := omega) only [plain_3A, decodeAcc, wordOf_field, wordOf_bit, field_high, field_low, field_whole, field_fit, bit_high, bit_low, bit_fit, bit_ofBool]
  rfl
theorem accrdSat a0 a1 a2 a3 : Statement (.accrdSat a0 a1 a2 a3) := by
  intro hw c w he
  cases he
  refine round_plain (by decide) ?_
  simp (disch := omega) only [plain_3A, decodeAcc, wordOf_field, wordOf_bit, field_high, field_low, field_whole, field_fit, bit_high, bit_low, bit_fit, bit_ofBool, Fmt.of_code, Rnd.of_code]
  rfl
theorem accrdInf a0 a1 a2 a3 : Statement (.accrdInf a0 a1 a2 a3) := by
  intro hw c w he
  cases he
  refine round_plain (by decide) ?_
  simp (disch := omega) only [plain_3A, decodeAcc, wordOf_field, wordOf_bit, field_high, field_low, field_whole, field_fit, bit_high, bit_low, bit_fit, bit_ofBool, Fmt.of_code, Rnd.of_code]
  rfl
theorem accwr a0 a1 a2 : Statement (.accwr a0 a1 a2) := by
  intro hw c w he
  cases he
  refine round_plain (by decide) ?_
  simp (disch := omega) only [plain_3A, decodeAcc, wordOf_field, wordOf_bit, field_high, field_low, field_whole, field_fit, bit_high, bit_low, bit_fit, bit_ofBool, AccForm.of_code]
  rfl
theorem wpin a0 a1 a2 a3 : Statement (.wpin a0 a1 a2 a3) := by
  intro hw c w he
  cases he
  refine round_plain (by decide) ?_
  simp (disch := omega) only [plain_3A, decodeAcc, wordOf_field, wordOf_bit, field_high, field_low, field_whole, field_fit, bit_high, bit_low, bit_fit, bit_ofBool, Fmt.of_code]
  rfl
theorem wunpin a0 a1 a2 : Statement (.wunpin a0 a1 a2) := by
  intro hw c w he
  cases he
  refine round_plain (by decide) ?_
  simp (disch := omega) only [plain_3A, decodeAcc, wordOf_field, wordOf_bit, field_high, field_low, field_whole, field_fit, bit_high, bit_low, bit_fit, bit_ofBool, Fmt.of_code]
  rfl
theorem segld a0 a1 : Statement (.segld a0 a1) := by
  intro hw c w he
  cases he
  refine round_sys (r := .sys (.segld a0 a1)) ?_
  simp (disch := omega) only [decodeSys, wordOf_field, wordOf_bit, field_high, field_low, field_whole, field_fit, bit_high, bit_low, bit_fit, bit_ofBool, Seg.of_code]
  rfl
theorem segrd a0 a1 : Statement (.segrd a0 a1) := by
  intro hw c w he
  cases he
  refine round_sys (r := .sys (.segrd a0 a1)) ?_
  simp (disch := omega) only [decodeSys, wordOf_field, wordOf_bit, field_high, field_low, field_whole, field_fit, bit_high, bit_low, bit_fit, bit_ofBool, Seg.of_code]
  rfl
theorem csrr a0 a1 : Statement (.csrr a0 a1) := by
  intro hw c w he
  cases he
  refine round_sys (r := .sys (.csrr a0 a1)) ?_
  simp (disch := omega) only [decodeSys, wordOf_field, wordOf_bit, field_high, field_low, field_whole, field_fit, bit_high, bit_low, bit_fit, bit_ofBool]
  rfl
theorem csrw a0 a1 : Statement (.csrw a0 a1) := by
  intro hw c w he
  cases he
  refine round_sys (r := .sys (.csrw a0 a1)) ?_
  simp (disch := omega) only [decodeSys, wordOf_field, wordOf_bit, field_high, field_low, field_whole, field_fit, bit_high, bit_low, bit_fit, bit_ofBool]
  rfl
theorem tlbinv a0 a1 : Statement (.tlbinv a0 a1) := by
  intro hw c w he
  cases he
  refine round_sys (r := .sys (.tlbinv a0 a1)) ?_
  simp (disch := omega) only [decodeSys, wordOf_field, wordOf_bit, field_high, field_low, field_whole, field_fit, bit_high, bit_low, bit_fit, bit_ofBool]
  rfl
theorem idle a0 : Statement (.idle a0) := by
  intro hw c w he
  cases he
  refine round_sys (r := .sys (.idle a0)) ?_
  simp (disch := omega) only [decodeSys, wordOf_field, wordOf_bit, field_high, field_low, field_whole, field_fit, bit_high, bit_low, bit_fit, bit_ofBool]
  rfl
theorem nop : Statement (.nop) := by
  intro _ c w he
  cases c <;> cases he
  exact ⟨rfl, rfl⟩
theorem ret : Statement (.ret) := by
  intro hw c w he
  cases he
  refine round_plain (by decide) ?_
  simp (disch := omega) only [plain_0C, decodeControl, wordOf_field, wordOf_bit, field_high, field_low, field_whole, field_fit, bit_high, bit_low, bit_fit, bit_ofBool]
  rfl
theorem yield : Statement (.yield) := by
  intro hw c w he
  cases he
  refine round_plain (by decide) ?_
  simp (disch := omega) only [plain_0F, decodeControl, wordOf_field, wordOf_bit, field_high, field_low, field_whole, field_fit, bit_high, bit_low, bit_fit, bit_ofBool]
  rfl
theorem exit : Statement (.exit) := by
  intro hw c w he
  cases he
  refine round_plain (by decide) ?_
  simp (disch := omega) only [plain_0F, decodeControl, wordOf_field, wordOf_bit, field_high, field_low, field_whole, field_fit, bit_high, bit_low, bit_fit, bit_ofBool]
  rfl
theorem brk : Statement (.brk) := by
  intro hw c w he
  cases he
  refine round_plain (by decide) ?_
  simp (disch := omega) only [plain_0F, decodeControl, wordOf_field, wordOf_bit, field_high, field_low, field_whole, field_fit, bit_high, bit_low, bit_fit, bit_ofBool]
  rfl
theorem attach : Statement (.attach) := by
  intro hw c w he
  cases he
  refine round_plain (by decide) ?_
  simp (disch := omega) only [plain_10, decodeBlock, wordOf_field, wordOf_bit, field_high, field_low, field_whole, field_fit, bit_high, bit_low, bit_fit, bit_ofBool]
  rfl
theorem ifence : Statement (.ifence) := by
  intro hw c w he
  cases he
  refine round_plain (by decide) ?_
  simp (disch := omega) only [plain_30, decodeOrder, wordOf_field, wordOf_bit, field_high, field_low, field_whole, field_fit, bit_high, bit_low, bit_fit, bit_ofBool]
  rfl
theorem persist : Statement (.persist) := by
  intro hw c w he
  cases he
  refine round_plain (by decide) ?_
  simp (disch := omega) only [plain_35, decodeCopy, wordOf_field, wordOf_bit, field_high, field_low, field_whole, field_fit, bit_high, bit_low, bit_fit, bit_ofBool]
  rfl
theorem opfence : Statement (.opfence) := by
  intro hw c w he
  cases he
  refine round_plain (by decide) ?_
  simp (disch := omega) only [plain_3A, decodeAcc, wordOf_field, wordOf_bit, field_high, field_low, field_whole, field_fit, bit_high, bit_low, bit_fit, bit_ofBool]
  rfl
theorem rft : Statement (.rft) := by
  intro hw c w he
  cases he
  refine round_sys (r := .plain .rft) ?_
  simp (disch := omega) only [decodeSys, wordOf_field, wordOf_bit, field_high, field_low, field_whole, field_fit, bit_high, bit_low, bit_fit, bit_ofBool]
  rfl
theorem rftKill : Statement (.rftKill) := by
  intro hw c w he
  cases he
  refine round_sys (r := .plain .rftKill) ?_
  simp (disch := omega) only [decodeSys, wordOf_field, wordOf_bit, field_high, field_low, field_whole, field_fit, bit_high, bit_low, bit_fit, bit_ofBool]
  rfl
theorem tlbinvAll : Statement (.tlbinvAll) := by
  intro hw c w he
  cases he
  refine round_sys (r := .plain .tlbinvAll) ?_
  simp (disch := omega) only [decodeSys, wordOf_field, wordOf_bit, field_high, field_low, field_whole, field_fit, bit_high, bit_low, bit_fit, bit_ofBool]
  rfl
theorem tvecWrite a0 a1 : Statement (.tvecWrite a0 a1) := fun _ _ _ he => nomatch he
theorem epcWrite a0 a1 a2 : Statement (.epcWrite a0 a1 a2) := fun _ _ _ he => nomatch he
theorem reductionWindowWrite a0 a1 a2 a3 a4 : Statement (.reductionWindowWrite a0 a1 a2 a3 a4) := fun _ _ _ he => nomatch he
theorem debugGoRelease a0 a1 : Statement (.debugGoRelease a0 a1) := fun _ _ _ he => nomatch he
theorem debugGoStep a0 a1 a2 : Statement (.debugGoStep a0 a1 a2) := fun _ _ _ he => nomatch he
theorem packetFetch a0 a1 a2 : Statement (.packetFetch a0 a1 a2) := fun _ _ _ he => nomatch he
theorem splitStarvation a0 a1 a2 : Statement (.splitStarvation a0 a1 a2) := fun _ _ _ he => nomatch he
theorem backwardBranchYield a0 a1 a2 : Statement (.backwardBranchYield a0 a1 a2) := fun _ _ _ he => nomatch he
theorem loadCompletion a0 a1 a2 a3 a4 : Statement (.loadCompletion a0 a1 a2 a3 a4) := fun _ _ _ he => nomatch he
theorem storeCompletion a0 a1 a2 a3 a4 : Statement (.storeCompletion a0 a1 a2 a3 a4) := fun _ _ _ he => nomatch he
theorem tmCompletion a0 a1 a2 a3 : Statement (.tmCompletion a0 a1 a2 a3) := fun _ _ _ he => nomatch he
theorem recoverableFaultDelivery a0 a1 a2 : Statement (.recoverableFaultDelivery a0 a1 a2) := fun _ _ _ he => nomatch he
theorem groupSlotRelease a0 a1 : Statement (.groupSlotRelease a0 a1) := fun _ _ _ he => nomatch he
theorem launchHeaderCheck a0 a1 : Statement (.launchHeaderCheck a0 a1) := fun _ _ _ he => nomatch he
theorem dependenceRead a0 a1 a2 : Statement (.dependenceRead a0 a1 a2) := fun _ _ _ he => nomatch he
theorem dependenceRecheckTimer a0 a1 a2 : Statement (.dependenceRecheckTimer a0 a1 a2) := fun _ _ _ he => nomatch he
theorem blockResidency a0 a1 a2 a3 a4 : Statement (.blockResidency a0 a1 a2 a3 a4) := fun _ _ _ he => nomatch he
theorem blockEnd a0 : Statement (.blockEnd a0) := fun _ _ _ he => nomatch he
theorem stageGrowth a0 a1 : Statement (.stageGrowth a0 a1) := fun _ _ _ he => nomatch he
theorem stageShrink a0 a1 : Statement (.stageShrink a0 a1) := fun _ _ _ he => nomatch he
theorem shrinkPop a0 a1 a2 : Statement (.shrinkPop a0 a1 a2) := fun _ _ _ he => nomatch he
theorem eventBacklogDrain a0 : Statement (.eventBacklogDrain a0) := fun _ _ _ he => nomatch he
theorem faultQueueHeldPost a0 : Statement (.faultQueueHeldPost a0) := fun _ _ _ he => nomatch he
theorem faultServiceEntry a0 a1 a2 a3 a4 : Statement (.faultServiceEntry a0 a1 a2 a3 a4) := fun _ _ _ he => nomatch he
theorem reductionLineDelivery a0 a1 a2 a3 : Statement (.reductionLineDelivery a0 a1 a2 a3) := fun _ _ _ he => nomatch he
theorem lapBegin a0 a1 a2 : Statement (.lapBegin a0 a1 a2) := fun _ _ _ he => nomatch he
theorem latticeExchange a0 a1 a2 a3 : Statement (.latticeExchange a0 a1 a2 a3) := fun _ _ _ he => nomatch he
theorem fabricSnapshotArrival a0 a1 a2 a3 a4 : Statement (.fabricSnapshotArrival a0 a1 a2 a3 a4) := fun _ _ _ he => nomatch he
theorem ltryExpiry a0 a1 a2 : Statement (.ltryExpiry a0 a1 a2) := fun _ _ _ he => nomatch he
theorem copyTransferStart a0 : Statement (.copyTransferStart a0) := fun _ _ _ he => nomatch he
theorem copyChunkDone a0 a1 a2 a3 : Statement (.copyChunkDone a0 a1 a2 a3) := fun _ _ _ he => nomatch he
theorem copyCompletion a0 a1 : Statement (.copyCompletion a0 a1) := fun _ _ _ he => nomatch he
theorem copyPushGrant a0 a1 : Statement (.copyPushGrant a0 a1) := fun _ _ _ he => nomatch he
theorem persistDurable a0 a1 a2 : Statement (.persistDurable a0 a1 a2) := fun _ _ _ he => nomatch he
theorem trywExpiry a0 a1 a2 : Statement (.trywExpiry a0 a1 a2) := fun _ _ _ he => nomatch he
theorem matrixPassGrant a0 a1 : Statement (.matrixPassGrant a0 a1) := fun _ _ _ he => nomatch he
theorem matrixOperationComplete a0 a1 : Statement (.matrixOperationComplete a0 a1) := fun _ _ _ he => nomatch he
theorem preemptionRequest a0 a1 a2 : Statement (.preemptionRequest a0 a1 a2) := fun _ _ _ he => nomatch he
theorem drainToSave a0 : Statement (.drainToSave a0) := fun _ _ _ he => nomatch he
theorem blockRestore a0 a1 a2 a3 a4 : Statement (.blockRestore a0 a1 a2 a3 a4) := fun _ _ _ he => nomatch he
theorem hotSpareTakeover a0 : Statement (.hotSpareTakeover a0) := fun _ _ _ he => nomatch he
theorem hotSpareResume a0 : Statement (.hotSpareResume a0) := fun _ _ _ he => nomatch he
theorem stepEnd a0 a1 : Statement (.stepEnd a0 a1) := fun _ _ _ he => nomatch he
theorem idleExpiry a0 a1 a2 : Statement (.idleExpiry a0 a1 a2) := fun _ _ _ he => nomatch he
theorem tlbMiss a0 a1 a2 a3 : Statement (.tlbMiss a0 a1 a2 a3) := fun _ _ _ he => nomatch he
theorem tlbFill a0 a1 a2 a3 a4 : Statement (.tlbFill a0 a1 a2 a3 a4) := fun _ _ _ he => nomatch he
theorem frameRecordChange a0 a1 a2 : Statement (.frameRecordChange a0 a1 a2) := fun _ _ _ he => nomatch he
theorem partitionTableWrite a0 a1 a2 : Statement (.partitionTableWrite a0 a1 a2) := fun _ _ _ he => nomatch he
theorem rosterTableWrite a0 a1 a2 : Statement (.rosterTableWrite a0 a1 a2) := fun _ _ _ he => nomatch he
theorem pacerEntryWrite a0 a1 a2 : Statement (.pacerEntryWrite a0 a1 a2) := fun _ _ _ he => nomatch he
theorem regionDescriptorWrite a0 a1 a2 : Statement (.regionDescriptorWrite a0 a1 a2) := fun _ _ _ he => nomatch he
theorem codeImageMeasure a0 a1 a2 : Statement (.codeImageMeasure a0 a1 a2) := fun _ _ _ he => nomatch he
theorem attestationRequest a0 a1 : Statement (.attestationRequest a0 a1) := fun _ _ _ he => nomatch he
theorem serviceCoreTakeover a0 : Statement (.serviceCoreTakeover a0) := fun _ _ _ he => nomatch he
theorem pacerWindow a0 : Statement (.pacerWindow a0) := fun _ _ _ he => nomatch he
theorem pacerBudgetExhausted a0 a1 : Statement (.pacerBudgetExhausted a0 a1) := fun _ _ _ he => nomatch he
theorem checkpointTimer a0 : Statement (.checkpointTimer a0) := fun _ _ _ he => nomatch he
theorem checkpointCommit a0 a1 a2 : Statement (.checkpointCommit a0 a1 a2) := fun _ _ _ he => nomatch he
theorem hostCallReplay a0 a1 a2 a3 a4 a5 : Statement (.hostCallReplay a0 a1 a2 a3 a4 a5) := fun _ _ _ he => nomatch he
theorem hostCallReject a0 a1 a2 a3 a4 a5 : Statement (.hostCallReject a0 a1 a2 a3 a4 a5) := fun _ _ _ he => nomatch he
theorem hostCallKill a0 a1 a2 a3 a4 a5 a6 : Statement (.hostCallKill a0 a1 a2 a3 a4 a5 a6) := fun _ _ _ he => nomatch he
theorem hostCallMove a0 a1 a2 a3 a4 a5 a6 : Statement (.hostCallMove a0 a1 a2 a3 a4 a5 a6) := fun _ _ _ he => nomatch he
theorem hostCallCompressionHint a0 a1 a2 a3 a4 : Statement (.hostCallCompressionHint a0 a1 a2 a3 a4) := fun _ _ _ he => nomatch he
theorem hostCallCheckpoint a0 a1 a2 a3 a4 : Statement (.hostCallCheckpoint a0 a1 a2 a3 a4) := fun _ _ _ he => nomatch he
theorem hostCallPreempt a0 a1 a2 a3 a4 a5 a6 : Statement (.hostCallPreempt a0 a1 a2 a3 a4 a5 a6) := fun _ _ _ he => nomatch he
theorem hostRead a0 a1 : Statement (.hostRead a0 a1) := fun _ _ _ he => nomatch he
theorem hostWrite a0 a1 a2 a3 : Statement (.hostWrite a0 a1 a2 a3) := fun _ _ _ he => nomatch he
theorem commandSlotAccept a0 : Statement (.commandSlotAccept a0) := fun _ _ _ he => nomatch he
theorem afterRelease a0 : Statement (.afterRelease a0) := fun _ _ _ he => nomatch he
theorem launchCommand a0 : Statement (.launchCommand a0) := fun _ _ _ he => nomatch he
theorem hostCopy a0 a1 a2 a3 : Statement (.hostCopy a0 a1 a2 a3) := fun _ _ _ he => nomatch he
theorem hostCopyComplete a0 a1 : Statement (.hostCopyComplete a0 a1) := fun _ _ _ he => nomatch he
theorem mapProposal a0 : Statement (.mapProposal a0) := fun _ _ _ he => nomatch he
theorem waitValue a0 : Statement (.waitValue a0) := fun _ _ _ he => nomatch he
theorem waitValueSatisfied a0 a1 a2 : Statement (.waitValueSatisfied a0 a1 a2) := fun _ _ _ he => nomatch he
theorem waitValueTimeout a0 a1 : Statement (.waitValueTimeout a0 a1) := fun _ _ _ he => nomatch he
theorem publishRequest a0 a1 : Statement (.publishRequest a0 a1) := fun _ _ _ he => nomatch he
theorem contextCreate a0 a1 a2 : Statement (.contextCreate a0 a1 a2) := fun _ _ _ he => nomatch he
theorem contextDestroy a0 : Statement (.contextDestroy a0) := fun _ _ _ he => nomatch he
theorem contextPreempt a0 : Statement (.contextPreempt a0) := fun _ _ _ he => nomatch he
theorem contextResume a0 : Statement (.contextResume a0) := fun _ _ _ he => nomatch he
theorem setCheckpointInterval a0 : Statement (.setCheckpointInterval a0) := fun _ _ _ he => nomatch he
theorem setFrameAllowance a0 : Statement (.setFrameAllowance a0) := fun _ _ _ he => nomatch he
theorem registerReservation a0 : Statement (.registerReservation a0) := fun _ _ _ he => nomatch he
theorem registerCallRing a0 : Statement (.registerCallRing a0) := fun _ _ _ he => nomatch he
theorem debugClaim a0 : Statement (.debugClaim a0) := fun _ _ _ he => nomatch he
theorem debugRelease a0 : Statement (.debugRelease a0) := fun _ _ _ he => nomatch he
theorem debugRead a0 : Statement (.debugRead a0) := fun _ _ _ he => nomatch he
theorem debugWrite a0 : Statement (.debugWrite a0) := fun _ _ _ he => nomatch he
theorem checkpointNow a0 : Statement (.checkpointNow a0) := fun _ _ _ he => nomatch he
theorem persistentRegionCreate a0 a1 : Statement (.persistentRegionCreate a0 a1) := fun _ _ _ he => nomatch he
theorem persistentRegionAttach a0 : Statement (.persistentRegionAttach a0) := fun _ _ _ he => nomatch he
theorem persistentRegionDetach a0 : Statement (.persistentRegionDetach a0) := fun _ _ _ he => nomatch he
theorem persistentRegionDestroy a0 : Statement (.persistentRegionDestroy a0) := fun _ _ _ he => nomatch he
theorem frontEndResume a0 : Statement (.frontEndResume a0) := fun _ _ _ he => nomatch he
theorem evackWrite a0 a1 : Statement (.evackWrite a0 a1) := fun _ _ _ he => nomatch he
theorem tenantPageMoveStart a0 a1 a2 a3 : Statement (.tenantPageMoveStart a0 a1 a2 a3) := fun _ _ _ he => nomatch he
theorem tenantPageMoveCommit a0 a1 a2 a3 : Statement (.tenantPageMoveCommit a0 a1 a2 a3) := fun _ _ _ he => nomatch he
theorem extentAdd a0 a1 : Statement (.extentAdd a0 a1) := fun _ _ _ he => nomatch he
theorem extentRelease a0 a1 : Statement (.extentRelease a0 a1) := fun _ _ _ he => nomatch he
theorem linkDown a0 : Statement (.linkDown a0) := fun _ _ _ he => nomatch he
theorem linkRetrain a0 : Statement (.linkRetrain a0) := fun _ _ _ he => nomatch he
theorem packageFailure a0 a1 a2 : Statement (.packageFailure a0 a1 a2) := fun _ _ _ he => nomatch he
theorem parityRebuildDone a0 : Statement (.parityRebuildDone a0) := fun _ _ _ he => nomatch he
theorem computeReset a0 : Statement (.computeReset a0) := fun _ _ _ he => nomatch he
theorem nearTierWatchdog a0 a1 : Statement (.nearTierWatchdog a0 a1) := fun _ _ _ he => nomatch he
theorem computeDomainUp : Statement (.computeDomainUp) := fun _ _ _ he => nomatch he
theorem moduleReset a0 : Statement (.moduleReset a0) := fun _ _ _ he => nomatch he
theorem powerUp a0 : Statement (.powerUp a0) := fun _ _ _ he => nomatch he
theorem correctedError a0 a1 a2 : Statement (.correctedError a0 a1 a2) := fun _ _ _ he => nomatch he
theorem frameErrorThreshold a0 a1 : Statement (.frameErrorThreshold a0 a1) := fun _ _ _ he => nomatch he
theorem patrolScrub a0 : Statement (.patrolScrub a0) := fun _ _ _ he => nomatch he
theorem uncorrectableError a0 a1 : Statement (.uncorrectableError a0 a1) := fun _ _ _ he => nomatch he
theorem powerSample a0 : Statement (.powerSample a0) := fun _ _ _ he => nomatch he
theorem powerLimitLog : Statement (.powerLimitLog) := fun _ _ _ he => nomatch he
theorem powerCapSet a0 : Statement (.powerCapSet a0) := fun _ _ _ he => nomatch he
theorem powerLoss a0 : Statement (.powerLoss a0) := fun _ _ _ he => nomatch he
theorem tierMigrationStart a0 a1 a2 : Statement (.tierMigrationStart a0 a1 a2) := fun _ _ _ he => nomatch he
theorem migrationSwitchCommit a0 : Statement (.migrationSwitchCommit a0) := fun _ _ _ he => nomatch he
theorem peerFabricRequest a0 a1 a2 a3 a4 a5 a6 a7 : Statement (.peerFabricRequest a0 a1 a2 a3 a4 a5 a6 a7) := fun _ _ _ he => nomatch he
theorem tlbinvCompletion a0 a1 a2 : Statement (.tlbinvCompletion a0 a1 a2) := fun _ _ _ he => nomatch he
theorem hostFileFetchReply a0 a1 a2 a3 : Statement (.hostFileFetchReply a0 a1 a2 a3) := fun _ _ _ he => nomatch he
theorem extentAccept a0 a1 : Statement (.extentAccept a0 a1) := fun _ _ _ he => nomatch he

end Sys2Proof.Laws.DecodeEncode
end

