-- ==== Sys2Proof/Safety.lean ====
section
/-!
DEFINITION. What the claims call a sound state, the conditions under which a word comes to its effect, and what the frames
compare.
-/

namespace Sys2Proof.Machine

namespace State

/-- Memory and scratchpads are in canonical form (R249). -/
def memoryWf (s : State) : Prop := s.mem.wf = true ∧ s.spad.wf = true

/-- The issuing group executes at level U (R346). -/
def atU (s : State) : Prop := s.vgroup.level = .u

/-- A word comes to its effect. It meets no cause of R87 by itself; its registers lie in the group's window (R147); its
channels are bound (R78); its target lies in the program counter's range (R79); a SYS word stands at S (R81); R132 lets the group
issue it; its counter stands below 63 (R83); no other split holds up the group's M and E words (R247, R362). -/
def Issues (s : State) (f : Facts) : Prop :=
  f.cause = none ∧
  f.vneed ≤ vectorWindow s.vblock s.vgroup ∧
  (∀ c ∈ f.chans, c < s.vblock.header.relays) ∧
  (∀ t, f.target s.vsplit.pc.toNat = some t → 0 ≤ t ∧ t < 2 ^ 20) ∧
  (f.isSys = true → s.vgroup.level = .s) ∧
  s.mayIssue f = true ∧
  (∀ c, f.counted = some c → (s.vsys.list c).length ≤ 62) ∧
  s.orderHeld f = false

/-- `t` is `s` but for the issuing group, what stands beside its registers, the count of undefined values and the end of the
word. -/
def OnlyGroup (s t : State) : Prop :=
  { t with groups := s.groups, sys := s.sys, tick := s.tick, last := s.last } = s ∧
  ∀ k, k ≠ s.gkey → t.groupAt k = s.groupAt k ∧ t.sysAt k = s.sysAt k

/-- Every byte of memory, of the scratchpads and every accumulator entry reads as before. -/
def SameMemory (s t : State) : Prop :=
  (∀ a, t.mem.byte a = s.mem.byte a) ∧ (∀ a, t.spad.byte a = s.spad.byte a) ∧ ∀ e, t.acc.get e 0 = s.acc.get e 0

end State

end Sys2Proof.Machine
namespace Sys2Proof.Machine.State

/-- The stage may use every channel of a word (R310). -/
def ChannelsOpen (s : State) (d : SDst) (srcs : List SSrc) : Prop := (∀ a ∈ srcs, s.srcOpen a = true) ∧ s.dstOpen d = true

/-- A word of sources `srcs`, destination `d` and result `x` can proceed: its stage may use every channel, every pop and peek has
its baton (or the shrink baton), and a push has allowance, is not of the end baton and finds the group's earlier accesses performed
(R72, R309 to R313). -/
def OperandsReady (s : State) (d : SDst) (srcs : List SSrc) (x : Word) : Prop :=
  s.ChannelsOpen d srcs ∧ (∀ a ∈ srcs, s.srcReady a = true) ∧
  ∀ c, d = .chan c → x ≠ 0xFFFFFFFF ∧ s.dstReady d (srcs.map SSrc.popped) = true ∧ GroupSys.waiting s.gsys = []

/-- Where such a word comes to its effect, its sources are taken and `x` is delivered. -/
def GivesScalar (i : Instr) (s : State) (d : SDst) (srcs : List SSrc) (x : Word) : Prop :=
  s.Issues i.facts → s.OperandsReady d srcs x → exec i s = .next ((srcs.foldl srcTake s).deliverTo d x)

/-- What channel operands do to a word of sources `srcs`, destination `d` and result `x`: a channel that the stage may not use and a
push of the end baton raise the permission fault; a pop or peek without its baton and a push without allowance hold the word, with no
effect; a push that can proceed releases the group's earlier accesses first (R72, R97, R309 to R313). -/
def ChannelRules (i : Instr) (s : State) (d : SDst) (srcs : List SSrc) (x : Word) : Prop :=
  s.Issues i.facts →
  let ready := ∀ a ∈ srcs, s.srcReady a = true
  let push := ∃ c, d = .chan c
  (¬ s.ChannelsOpen d srcs → exec i s = .next (s.fault .permission 0 none)) ∧
  (s.ChannelsOpen d srcs → ready → push → x = 0xFFFFFFFF → exec i s = .next (s.fault .permission 0 none)) ∧
  (s.ChannelsOpen d srcs → ¬ ready ∨ push ∧ x ≠ 0xFFFFFFFF ∧ s.dstReady d (srcs.map SSrc.popped) = false →
    ∃ t, exec i s = .next t ∧ t.last = .held ∧ t.blocks = s.blocks ∧ t.spad = s.spad ∧
      (∀ r, t.readS r = s.readS r) ∧ t.split.pc = s.split.pc ∧ t.split.word = s.split.word) ∧
  (s.ChannelsOpen d srcs → ready → push → x ≠ 0xFFFFFFFF → s.dstReady d (srcs.map SSrc.popped) = true →
    exec i s = .next (s.afterRelease fun t => (srcs.foldl srcTake t).deliverTo d x))

/-- The words of SALU, each with the value it gives (R97). -/
def saluForms : List ((SDst → SSrc → SSrc → Instr) × (Word → Word → Word)) :=
  [(.add, fun a b => BitVec.ofNat 32 (a.toNat + b.toNat)),
   (.sub, fun a b => BitVec.ofInt 32 ((a.toNat : Int) - b.toNat)),
   (.and, fun a b => a &&& b),
   (.or, fun a b => a ||| b),
   (.xor, fun a b => a ^^^ b),
   (.shl, fun a b => BitVec.ofNat 32 (a.toNat * 2 ^ (b.toNat % 64))),
   (.shrN, fun a b => BitVec.ofNat 32 (a.toNat / 2 ^ (b.toNat % 64))),
   (.shrI, fun a b => BitVec.ofInt 32 (a.toInt / 2 ^ (b.toNat % 64))),
   (.minI, fun a b => BitVec.ofInt 32 (min a.toInt b.toInt)),
   (.maxI, fun a b => BitVec.ofInt 32 (max a.toInt b.toInt)),
   (.minN, fun a b => BitVec.ofNat 32 (min a.toNat b.toNat)),
   (.maxN, fun a b => BitVec.ofNat 32 (max a.toNat b.toNat)),
   (.mul, fun a b => BitVec.ofNat 32 (a.toNat * b.toNat)),
   (.mulhI, fun a b => BitVec.ofInt 32 (a.toInt * b.toInt / 2 ^ 32)),
   (.mulhN, fun a b => BitVec.ofNat 32 (a.toNat * b.toNat / 2 ^ 32)),
   (.cmpEq, fun a b => if a = b then 1 else 0),
   (.cmpNe, fun a b => if a ≠ b then 1 else 0),
   (.cmpLtI, fun a b => if a.toInt < b.toInt then 1 else 0),
   (.cmpLtN, fun a b => if a.toNat < b.toNat then 1 else 0)]

/-- Where a word comes to its effect, scalar register `d` receives `x`. -/
def GivesS (i : Instr) (s : State) (d : SReg) (x : Word) : Prop :=
  s.Issues i.facts → exec i s = .next (s.writeS d x).done

/-- Where a word comes to its effect, the pair at `d` receives the number `x` modulo 2^64. -/
def GivesPair (i : Instr) (s : State) (d : SReg) (x : Nat) : Prop :=
  s.Issues i.facts → exec i s =
    .next ((s.writeS d (BitVec.ofNat 32 x)).writeS (d + 1) (BitVec.ofNat 32 (x / 2 ^ 32))).done

/-- The issuing split of `s` stands at word 0 of packet `pc` in `t`; its mask, its record and every other split are unchanged, and
so is everything outside the group (R103). -/
def MovesTo (s t : State) (pc : BitVec 20) : Prop :=
  t.split.pc = pc ∧ t.split.word = 0 ∧ t.split.mask = s.split.mask ∧ t.split.record = s.split.record ∧
  t.split.handler = s.split.handler ∧ (∀ n, n ≠ s.cur.split → t.group.splits.at? n = s.group.splits.at? n) ∧
  { t.group with splits := s.group.splits } = s.group ∧ s.OnlyGroup t ∧ t.sys = s.sys ∧ s.SameMemory t

/-- Packet `off` packets on from the issuing split's (R79). -/
def packetAfter (s : State) (off : BitVec 16) : BitVec 20 := BitVec.ofInt 20 (s.split.pc.toNat + off.toInt)

/-- A branch whose condition is `taken` moves the whole split to its target or to the next packet (R103). -/
def Branches (i : Instr) (s : State) (off : BitVec 16) (taken : Prop) : Prop :=
  s.Issues i.facts → ∃ t, exec i s = .next t ∧ (taken → s.MovesTo t (s.packetAfter off)) ∧
    (¬ taken → s.MovesTo t (s.split.pc + 1))

/-- Where a word comes to its effect, register `d` receives `f l` in each active lane `l`. -/
def GivesV (i : Instr) (s : State) (d : VReg) (f : Nat → Word) : Prop :=
  s.Issues i.facts → exec i s = .next (s.writeV d f).done

/-- Where a word comes to its effect, the pair at `d` receives the number `f l` modulo 2^64 in each active lane `l`. -/
def GivesVPair (i : Instr) (s : State) (d : VReg) (f : Nat → Int) : Prop :=
  s.Issues i.facts → exec i s =
    .next ((s.writeV d fun l => BitVec.ofInt 32 (f l)).writeV (d + 1) fun l => BitVec.ofInt 32 (f l / 2 ^ 32)).done

/-- Where a word comes to its effect, predicate `d` receives `f l` in each active lane `l`. -/
def GivesP (i : Instr) (s : State) (d : PReg) (f : Nat → Prop) [DecidablePred f] : Prop :=
  s.Issues i.facts → exec i s = .next (s.writeP d fun l => decide (f l)).done

/-- A word of two vector sources, and its form with a scalar second source: `h` of the destination's, the first and the second
source's value (R152, R154). -/
def LaneRule (v : VReg → VReg → VReg → Instr) (w : VReg → VReg → SReg → Instr) (h : Word → Word → Word → Word) : Prop :=
  ∀ (s : State) (d a b : VReg) (c : SReg),
    GivesV (v d a b) s d (fun l => h (s.readV d l) (s.readV a l) (s.readV b l)) ∧
    GivesV (w d a c) s d (fun l => h (s.readV d l) (s.readV a l) (s.readS c))

end Sys2Proof.Machine.State

namespace Sys2Proof.Machine

/-- The number that a value of no rest stands for. -/
def Dy.val (d : Dy) : ℚ := (if d.neg then -1 else 1) * d.man * (2 : ℚ) ^ d.exp

/-- `d` stands for the real number `q`: it is `d`, or, where `d` has a rest, it exceeds `d` in magnitude by less than one unit of
`d`. -/
def Dy.StandsFor (d : Dy) (q : ℝ) : Prop :=
  if d.sticky then |(d.val : ℝ)| < |q| ∧ |q| < |(d.val : ℝ)| + 2 ^ d.exp ∧ (q < 0 ↔ d.neg = true) else q = d.val

/-- What rounding makes of a number among the integers, by its mode; under RSR by the random word `b` (R58, R194). -/
def RoundsTo (m : Rnd) (b : Word) (q : ℝ) (k : Int) : Prop :=
  (∀ n : Int, q = n → k = n) ∧ |(k : ℝ) - q| < 1 ∧
  match m with
  | .rtz => |(k : ℝ)| ≤ |q|
  | .rdn => (k : ℝ) ≤ q
  | .rup => q ≤ k
  | .rne => |(k : ℝ) - q| ≤ 1 / 2 ∧ (|(k : ℝ) - q| = 1 / 2 → k % 2 = 0)
  | .rna => |(k : ℝ) - q| ≤ 1 / 2 ∧ (|(k : ℝ) - q| = 1 / 2 → |q| ≤ |(k : ℝ)|)
  | .rsr => |k| = if 2 ^ 32 ≤ ⌊Int.fract |q| * 2 ^ 32⌋ + (b.toNat : Int) then ⌊|q|⌋ + 1 else ⌊|q|⌋

/-- One unit in the last place of a format at a number that is not zero (R58, R175). -/
noncomputable def Bin.ulp (f : Bin) (q : ℝ) : ℝ := 2 ^ (max (Int.log 2 |q|) f.emin - f.frac)

/-- `y` is what rounding to a format makes of `q`, with the format's subnormal range and no bound above (R58, R194). -/
def Bin.Rounded (f : Bin) (m : Rnd) (b : Word) (q y : ℝ) : Prop := ∃ k : Int, RoundsTo m b (q / f.ulp q) k ∧ y = k * f.ulp q

/-- `q` rounded to the format's precision with no bound on the exponent lies below the smallest normal number (R164, R193). -/
def Bin.Tiny (f : Bin) (m : Rnd) (b : Word) (q : ℝ) : Prop :=
  ∃ k : Int, RoundsTo m b (q / 2 ^ (Int.log 2 |q| - f.frac)) k ∧ |k * (2 : ℝ) ^ (Int.log 2 |q| - f.frac)| < 2 ^ f.emin

/-- The encoding `x` is of the number `y`. -/
def Bin.Encodes (f : Bin) (x : Nat) (y : ℝ) : Prop := ∃ w, f.decode x = .num w ∧ (w.val : ℝ) = y

/-- The result `r` is what Deliver makes of `q`, which is not zero, in mode `m` (R164). -/
def Bin.Delivers (f : Bin) (m : Rnd) (q : ℝ) (r : Nat × Flags) : Prop :=
  ∃ y, f.Rounded m 0 q y ∧
    ((f.largest.val : ℝ) < |y| → r.2 = flagOF ||| flagNX ∧
      r.1 = match m with
        | .rtz => f.withSign (decide (q < 0)) (f.encode f.largest)
        | .rdn => if q < 0 then f.inf true else f.encode f.largest
        | .rup => if q < 0 then f.withSign true (f.encode f.largest) else f.inf false
        | _ => f.inf (decide (q < 0))) ∧
    (|y| ≤ f.largest.val → f.Encodes r.1 y ∧ (f.sign r.1 = true ↔ q < 0) ∧ (r.2.getLsbD 0 = true ↔ y ≠ q) ∧
      (r.2.getLsbD 1 = true ↔ y ≠ q ∧ f.Tiny m 0 q) ∧
      r.2.getLsbD 2 = false ∧ r.2.getLsbD 3 = false ∧ r.2.getLsbD 4 = false)

/-- The result of an operation whose exact result is `q`: a zero of the sign `zero`, exact; any other number delivered (R164, R172). -/
def Bin.Results (f : Bin) (m : Rnd) (q : ℝ) (zero : Bool) (r : Nat × Flags) : Prop :=
  (q = 0 → r = (f.withSign zero 0, 0)) ∧ (q ≠ 0 → f.Delivers m q r)

namespace State

/-- What a floating-point word leaves: the bits `(f l).1` in each active lane of register `d` (of the pair at `d`), the flags `(f l).2`
of the active lanes ORed into fps, the split at the word that follows, and everything else as it was (R103, R146, R167). -/
def LeavesFloat (s t : State) (d : VReg) (pair : Bool) (f : Nat → Nat × Flags) : Prop :=
  (∀ l, l < 96 → (vectorOf t.group d.toNat).lane l =
    if s.active.getLsbD l then BitVec.ofNat 32 (f l).1 else (vectorOf s.group d.toNat).lane l) ∧
  (pair = true → ∀ l, l < 96 → (vectorOf t.group (d + 1).toNat).lane l =
    if s.active.getLsbD l then BitVec.ofNat 32 ((f l).1 / 2 ^ 32) else (vectorOf s.group (d + 1).toNat).lane l) ∧
  (∀ k, k < 5 → (t.group.fps.getLsbD k = true ↔ s.group.fps.getLsbD k = true ∨
    ∃ l, l < 96 ∧ s.active.getLsbD l = true ∧ (f l).2.getLsbD k = true)) ∧
  (∀ r, r ≠ d.toNat → (pair = true → r ≠ (d + 1).toNat) → t.group.v.at? r = s.group.v.at? r) ∧
  { t.group with v := s.group.v, fps := s.group.fps, splits := s.group.splits } = s.group ∧
  (∀ n, n ≠ s.cur.split → t.group.splits.at? n = s.group.splits.at? n) ∧
  t.split.mask = s.split.mask ∧ t.split.record = s.split.record ∧
  (s.snap = none → t.split.pc = (if s.split.word < 2 then s.split.pc else s.split.pc + 1) ∧
    t.split.word = (if s.split.word < 2 then s.split.word + 1 else 0) ∧ s.OnlyGroup t) ∧
  s.SameMemory t

/-- Where a floating-point word comes to its effect, it completes, and register `d` receives the bits `(f l).1` in each active lane,
fps the flags `(f l).2` (R167). -/
def GivesFloat (i : Instr) (s : State) (d : VReg) (f : Nat → Nat × Flags) : Prop :=
  s.Issues i.facts → ∃ t, exec i s = .next t ∧ t.last = .done ∧ s.LeavesFloat t d false f

/-- The same for a pair. -/
def GivesFloatPair (i : Instr) (s : State) (d : VReg) (f : Nat → Nat × Flags) : Prop :=
  s.Issues i.facts → ∃ t, exec i s = .next t ∧ t.last = .done ∧ s.LeavesFloat t d true f

/-- The same for two packed elements: each computed apart, their flags ORed (R178). -/
def GivesHalves (i : Instr) (s : State) (d : VReg) (f : Nat → Nat → Nat × Flags) : Prop :=
  GivesFloat i s d fun l => ((f 0 l).1 + 2 ^ 16 * (f 1 l).1, (f 0 l).2 ||| (f 1 l).2)

end State

end Sys2Proof.Machine


namespace Sys2Proof.Machine.State

/-- Lanes that a word performs, in ascending order (R91, R218). -/
def lanes (s : State) : List Nat := LaneMask.list s.active

/-- What R218 makes of a word from what becomes of each active lane: the fault of the lowest lane that has one, else a suspending
fault for the pages that are missing, else `passes`; while a walk holds up a lane, the word waits (R382). -/
def Checked (i : Instr) (s : State) (kind : BitVec 5) (verdict : Nat → LaneCheck) (passes : Prop) : Prop :=
  s.Issues i.facts →
  ((∃ l, l ∈ s.lanes ∧ verdict l = .busy) → exec i s = .next s.stalled) ∧
  ((∀ l, l ∈ s.lanes → verdict l ≠ .busy) →
  (∀ l cls a, l ∈ s.lanes → verdict l = .fails cls a → (∀ m, m ∈ s.lanes → m < l → ∀ c b, verdict m ≠ .fails c b) →
    exec i s = .next (s.fault cls a (some l))) ∧
  ((∀ l, l ∈ s.lanes → ∀ c b, verdict l ≠ .fails c b) → (∃ l, l ∈ s.lanes ∧ verdict l ≠ .passes) →
    exec i s = .next (s.suspend ((s.lanes.map fun l => match verdict l with
      | .absent pages => pages
      | _ => []).flatten) kind)) ∧
  ((∀ l, l ∈ s.lanes → verdict l = .passes) → passes))

/-- A word takes effect by entering one operation in counter `c`, of the given accesses; nothing else of its group, and nothing of
memory, changes, and the split goes on (R83 to R85). -/
def Enters (i : Instr) (s : State) (c : Counter) (act : OpAct) (accesses : List Access) : Prop :=
  ∃ t p, exec i s = .next t ∧ t.gsys.list c = s.gsys.list c ++ [p] ∧ (∀ d, d ≠ c → t.gsys.list d = s.gsys.list d) ∧
    p.id = s.nextId ∧ p.act = act ∧ p.accesses = accesses ∧ p.mask = s.active ∧ p.results = [] ∧ p.finished = false ∧
    p.issued = s.now ∧ p.spoiled = [] ∧ { t.group with splits := s.group.splits } = s.group ∧
    t.split.mask = s.split.mask ∧ t.split.record = s.split.record ∧ s.SameMemory t ∧ t.last = .done ∧
    t.gsys.csr = s.gsys.csr ∧ t.gsys.seg = s.gsys.seg ∧
    (s.snap = none → t.split.pc = (if s.split.word < 2 then s.split.pc else s.split.pc + 1) ∧
      t.split.word = (if s.split.word < 2 then s.split.word + 1 else 0))

/-- The place of a byte under the leaf of its page: a frame (on the issuing core's die for a lattice page), or a peer's aperture
(R219, R268, R378). -/
def leafPlace (s : State) (e : DWord) (level va : Nat) : Place :=
  if e.getLsbD 17 then
    .peer (e.extractLsb' 20 16).toNat ((e.extractLsb' 36 24).toNat + va % 2 ^ pageBits level / 65536) (va % 65536)
  else .mem (s.physical (s.cur.core / 64) e level va)

/-- The page that a lane's address passed its checks with. -/
def passedPage (s : State) (k : AccessKind) (va : Nat) : DWord × Nat :=
  match s.checkPage s.cur.core s.block.context s.split.rejected va k with
  | .page e level => (e, level)
  | _ => (0, 0)

/-- What becomes of an address at its page (R218, R220, R382): held up while a walk for it is under way, then presence, permission and
lattice type, `typed` for its page. -/
def pageVerdict (s : State) (ea : Int) (k : AccessKind) (typed : DWord → Nat → Bool) : LaneCheck :=
  if s.missHeld s.cur.core s.block.context ea.toNat then .busy
  else
    match s.checkPage s.cur.core s.block.context s.split.rejected ea.toNat k with
    | .absent => .absent [ea.toNat / 65536]
    | .fails cls => .fails cls (BitVec.ofInt 64 ea)
    | .page e _ => if typed e ea.toNat then .passes else .fails .latticeType (BitVec.ofInt 64 ea)

/-- A global address from bounds to lattice type (R216 to R218, R220, R382): `n` bytes, aligned to `align`, `typed` for its page. -/
def globalVerdict (s : State) (ea : Int) (n align : Nat) (k : AccessKind) (typed : DWord → Nat → Bool) : LaneCheck :=
  if ea < 0 ∨ 2 ^ 60 < ea + n then .fails .segmentBounds (BitVec.ofInt 64 ea)
  else if ea % align ≠ 0 then .fails .misalignment (BitVec.ofInt 64 ea)
  else s.pageVerdict ea k typed

/-- The place of a global address that passed. -/
def globalPlace (s : State) (k : AccessKind) (ea : Int) : Place :=
  s.leafPlace (s.passedPage k ea.toNat).1 (s.passedPage k ea.toNat).2 ea.toNat

/-- A lattice page in force at an address (R268). -/
def usable (s : State) (e : DWord) (va : Nat) : Bool := e.getLsbD 11 && (s.vcontext.regionAt va).isSome

/-- An event happens: who issues stays as it was, and the state after it meets `P`. -/
def Happens (i : Instr) (s : State) (P : State → Prop) : Prop := ∃ t, exec i s = .next t ∧ t.cur = s.cur ∧ P t

end Sys2Proof.Machine.State
end

