-- ==== Sys2Proof/Certificates/Slice0/Obligations.lean ====
section
/-!
DEFINITION. The statements, from the rules of spec/. Words are claimed of in the form: where a word comes to its effect
(`State.Issues`), `exec` answers a state that the rule gives.
-/

set_option Elab.async false

open Sys2Proof Sys2Proof.Machine Sys2Proof.Machine.State

/-! ## Registers -/

/-- R89, R67: s0 to s60 are one register for all splits; s61 to s63 read and write the issuing split's mask (under R91); s59 is
what CALL writes; within a chain no word sees the write. -/
def Obligations.ScalarRegisters : Prop :=
  (∀ (s : State) (r : SReg) (w : Word) (n : Nat), s.snap = none → r.toNat < 61 → s.gsys.busyS r.toNat = false →
    { s.writeS r w with cur := { s.cur with split := n } }.readS r = w) ∧
  (∀ (s : State) (r q : SReg) (w : Word), s.snap = none → r.toNat < 61 → q ≠ r → (s.writeS r w).readS q = s.readS q) ∧
  (∀ (s : State) (r : SReg), 61 ≤ r.toNat → s.readS r = s.active.extractLsb' (32 * (r.toNat - 61)) 32) ∧
  (∀ (s : State) (r : SReg) (w : Word), 61 ≤ r.toNat → s.writeS r w = s.setMask (maskWord s.split.mask (r.toNat - 61) w)) ∧
  (∀ (s : State) (r q : SReg) (w : Word), s.snap ≠ none → (s.writeS r w).readS q = s.readS q) ∧
  ∀ (s : State) (t : BitVec 20), s.Issues (Instr.call t).facts →
    exec (.call t) s = .next ((s.writeS 59 (BitVec.ofNat 32 (s.vsplit.pc.toNat + 1))).transfer t)

/-- R91, R146, R148: what a vector write, a predicate write and a mask write change. A vector write changes the active lanes of its
register and nothing else of the group's registers. p7 reads as 1 in every lane and a write to it is discarded; a write of
another predicate changes the active lanes alone, `writePAll` every lane. A mask write sets only dormant lanes and lanes the
split has, gives up what it clears, and leaves the other splits and every record alone. Where the spec leaves a choice the
model's is stated: log entry 4. -/
def Obligations.LaneRegisters : Prop :=
  (∀ (s : State) (r : VReg) (f : Nat → Word), s.snap = none →
     (∀ l, l < 96 → s.active.getLsbD l = true → (s.gsys.busyV r.toNat).getLsbD l = false → (s.writeV r f).readV r l = f l) ∧
     (∀ l, l < 96 → s.active.getLsbD l = false → (s.writeV r f).readV r l = s.readV r l) ∧
     (∀ q l, q ≠ r → (s.writeV r f).readV q l = s.readV q l) ∧
     (∀ q, (s.writeV r f).readS q = s.readS q) ∧ ∀ q, (s.writeV r f).readP q = s.readP q) ∧
  ((∀ (s : State) (l : Nat), l < 96 → (s.readP 7).getLsbD l = true) ∧
   (∀ (s : State) (f : Nat → Bool), s.writeP 7 f = s) ∧
   (∀ (s : State) (p : PReg) (f : Nat → Bool) (l : Nat), s.snap = none → p ≠ 7 → l < 96 → (s.gsys.busyP p.toNat).getLsbD l = false →
     ((s.writeP p f).readP p).getLsbD l = if s.active.getLsbD l then f l else (s.readP p).getLsbD l) ∧
   (∀ (s : State) (p : PReg) (b : Bool) (l : Nat), s.snap = none → p ≠ 7 → l < 96 → (s.gsys.busyP p.toNat).getLsbD l = false →
     ((s.writePAll p b).readP p).getLsbD l = b) ∧
   ∀ (s : State) (p q : PReg) (f : Nat → Bool), s.snap = none → q ≠ p → (s.writeP p f).readP q = s.readP q) ∧
  (∀ (s : State) (m : LaneMask) (x : Split), s.group.splits.at? s.cur.split = some x →
     (s.setMask m).group.splits.at? s.cur.split = some { x with mask := m &&& (s.group.dormant ||| x.mask) } ∧
     (∀ n, n ≠ s.cur.split → (s.setMask m).group.splits.at? n = s.group.splits.at? n) ∧
     ∀ l n y, n ≠ s.cur.split → s.group.splits.at? n = some y → l < 96 → x.mask.getLsbD l = false →
       (y.mask.getLsbD l = true ∨ ∃ t h q, y.record = some (t, h, q) ∧ q.getLsbD l = true) →
       ((s.setMask m).split.mask).getLsbD l = false)

/-- R63, R64: a word that has taken effect outside a chain leaves the split at the next word, or at word 0 of the next packet;
nothing else of the group changes. -/
def Obligations.WordEnds : Prop :=
  ∀ (s : State), s.snap = none →
    s.done.split.pc = (if s.split.word < 2 then s.split.pc else s.split.pc + 1) ∧
    s.done.split.word = (if s.split.word < 2 then s.split.word + 1 else 0) ∧
    s.done.split.mask = s.split.mask ∧ s.done.split.record = s.split.record ∧ s.done.split.handler = s.split.handler ∧
    s.done.split.hold = none ∧ s.done.last = .done ∧
    (∀ n, n ≠ s.cur.split → s.done.group.splits.at? n = s.group.splits.at? n) ∧
    { s.done.group with splits := s.group.splits } = s.group ∧ s.OnlyGroup s.done ∧ s.SameMemory s.done

/-! ## Scalar words -/

/-- R97 to R99: the results of SALU over registers and channels alike, 64-bit sums, differences and shifts of pairs, and the words
of an immediate. -/
def Obligations.ScalarArithmetic : Prop :=
  (∀ (s : State) (d : SDst) (sa sb : SSrc),
     let a := s.srcValue sa
     let b := s.srcValue sb
     let c := b.toNat % 64
     GivesScalar (.add d sa sb) s d [sa, sb] (BitVec.ofNat 32 (a.toNat + b.toNat)) ∧
     GivesScalar (.sub d sa sb) s d [sa, sb] (BitVec.ofInt 32 ((a.toNat : Int) - b.toNat)) ∧
     GivesScalar (.and d sa sb) s d [sa, sb] (a &&& b) ∧
     GivesScalar (.or d sa sb) s d [sa, sb] (a ||| b) ∧
     GivesScalar (.xor d sa sb) s d [sa, sb] (a ^^^ b) ∧
     GivesScalar (.shl d sa sb) s d [sa, sb] (BitVec.ofNat 32 (a.toNat * 2 ^ c)) ∧
     GivesScalar (.shrN d sa sb) s d [sa, sb] (BitVec.ofNat 32 (a.toNat / 2 ^ c)) ∧
     GivesScalar (.shrI d sa sb) s d [sa, sb] (BitVec.ofInt 32 (a.toInt / 2 ^ c)) ∧
     GivesScalar (.minI d sa sb) s d [sa, sb] (BitVec.ofInt 32 (min a.toInt b.toInt)) ∧
     GivesScalar (.maxI d sa sb) s d [sa, sb] (BitVec.ofInt 32 (max a.toInt b.toInt)) ∧
     GivesScalar (.minN d sa sb) s d [sa, sb] (BitVec.ofNat 32 (min a.toNat b.toNat)) ∧
     GivesScalar (.maxN d sa sb) s d [sa, sb] (BitVec.ofNat 32 (max a.toNat b.toNat)) ∧
     GivesScalar (.mul d sa sb) s d [sa, sb] (BitVec.ofNat 32 (a.toNat * b.toNat)) ∧
     GivesScalar (.mulhI d sa sb) s d [sa, sb] (BitVec.ofInt 32 (a.toInt * b.toInt / 2 ^ 32)) ∧
     GivesScalar (.mulhN d sa sb) s d [sa, sb] (BitVec.ofNat 32 (a.toNat * b.toNat / 2 ^ 32)) ∧
     GivesScalar (.cmpEq d sa sb) s d [sa, sb] (if a = b then 1 else 0) ∧
     GivesScalar (.cmpNe d sa sb) s d [sa, sb] (if a ≠ b then 1 else 0) ∧
     GivesScalar (.cmpLtI d sa sb) s d [sa, sb] (if a.toInt < b.toInt then 1 else 0) ∧
     GivesScalar (.cmpLtN d sa sb) s d [sa, sb] (if a.toNat < b.toNat then 1 else 0)) ∧
  (∀ (s : State) (d a b : SReg) (imm : BitVec 16),
     let x := s.readPair a
     let c := (s.readS b).toNat % 128
     GivesPair (.add64 d a b) s d (x.toNat + (s.readPair b).toNat) ∧
     GivesPair (.sub64 d a b) s d (x.toNat + (2 ^ 64 - (s.readPair b).toNat)) ∧
     GivesPair (.shl64 d a b) s d (x.toNat * 2 ^ c) ∧
     GivesPair (.shr64N d a b) s d (x.toNat / 2 ^ c) ∧
     (∀ dst, GivesScalar (.movi dst imm) s dst [] (BitVec.ofInt 32 imm.toInt)) ∧
     GivesS (.movh d imm) s d (BitVec.ofNat 32 (imm.toNat * 2 ^ 16)) ∧
     GivesS (.addi d imm) s d (BitVec.ofInt 32 ((s.readS d).toInt + imm.toInt)) ∧
     GivesS (.andi d imm) s d (s.readS d &&& BitVec.ofNat 32 imm.toNat) ∧
     GivesS (.ori d imm) s d (s.readS d ||| BitVec.ofNat 32 imm.toNat) ∧
     GivesS (.xori d imm) s d (s.readS d ^^^ BitVec.ofNat 32 imm.toNat) ∧
     GivesS (.cmpiEq d imm) s d (if s.readS d = BitVec.ofInt 32 imm.toInt then 1 else 0) ∧
     GivesS (.cmpiLtI d imm) s d (if (s.readS d).toInt < imm.toInt then 1 else 0))

/-- R72, R97, R309 to R311: what becomes of a word with channel operands that cannot proceed, and what pop, peek, push and the
shrink baton do to a relay. Where the spec leaves a choice the model's is stated: log entry 39. -/
def Obligations.ChannelOperands : Prop :=
  (∀ (s : State) (d : SDst) (a b : SSrc) (imm : BitVec 16) (r : SReg) (c : Chan),
    (∀ w ∈ saluForms, ChannelRules (w.1 d a b) s d [a, b] (w.2 (s.srcValue a) (s.srcValue b))) ∧
    ChannelRules (.movi d imm) s d [] (BitVec.ofInt 32 imm.toInt) ∧
    ChannelRules (.rpush c a) s (.chan c) [a] (s.srcValue a) ∧
    ChannelRules (.rpop r c true) s (.reg r) [.pop c] (s.srcValue (.pop c)) ∧
    ChannelRules (.rpop r c false) s (.reg r) [.peek c] (s.srcValue (.peek c))) ∧
  (∀ (s : State) (c : Chan), s.snap = none →
    let r := s.vrelay c.toNat
    let t := s.srcTake (.pop c)
    (s.shrinkDue c.toNat = true → s.srcValue (.pop c) = 0xFFFFFFFF ∧ t = s) ∧
    (s.shrinkDue c.toNat = false → s.srcValue (.pop c) = s.headBaton c.toNat ∧
      (t.relayNow c.toNat).head = (r.head + 1) % r.desc.cap ∧ (t.relayNow c.toNat).filled = r.filled - 1 ∧
      (t.relayNow c.toNat).held = (if r.desc.autofree then r.held else r.held + 1)) ∧
    s.srcTake (.peek c) = s ∧ s.srcValue (.peek c) = s.srcValue (.pop c)) ∧
  ∀ (s : State) (c : Nat) (x : Word), s.snap = none →
    (s.clusterAt (clusterOf s.block.core)).entries = [] →
    let r := s.vrelay c
    let t := s.pushRelay c x
    (t.relayNow c).filled = r.filled + 1 ∧ (t.relayNow c).head = r.head ∧ (t.relayNow c).held = r.held ∧
    t.spad.read (padKey s.block.core (ringOffset s.block r (r.head + r.filled))) 4 = x.toNat

/-- R92, R93, R102, R167, R195, R206: SRD reads a special register into a scalar register, a pair or the lanes of a vector register;
SWR writes fpc and fps, a reserved rounding mode stored as 0; words that read or write fps wait for the flags of an ACCRD;
TIDSET writes the tensor identifier. Where the spec leaves a choice the model's is stated: log entry 6. -/
def Obligations.SpecialRegisters : Prop :=
  ∀ (s : State) (d : SReg), s.snap = none →
    let flagsOpen := ∃ p ∈ s.gsys.tm, p.finished = false ∧ ∃ inf x fmt m id reads, p.act = .accrd inf x fmt m id reads
    (∀ n v : Nat, (n, v) ∈ [(0x000, s.group.member), (0x001, s.group.stage.toNat), (0x002, s.block.number),
        (0x003, s.block.number / 2 ^ 32), (0x005, s.cur.core % 64), (0x008, s.group.fpc.toNat),
        (0x00A, s.group.shrink.toNat), (0x00B, s.group.tensor.toNat), (0x00C, s.group.splits.length)] →
      GivesS (.srd d (BitVec.ofNat 10 n)) s d (BitVec.ofNat 32 v)) ∧
    (∀ v, s.context.vdies[v]? = some (s.cur.core / 64) → (∀ j, j < v → s.context.vdies[j]? ≠ some (s.cur.core / 64)) →
      GivesS (.srd d 0x004) s d (BitVec.ofNat 32 v)) ∧
    (flagsOpen → s.Issues (Instr.srd d 9).facts → exec (.srd d 9) s = .next s.stalled) ∧
    (¬ flagsOpen → GivesS (.srd d 9) s d (BitVec.ofNat 32 s.group.fps.toNat)) ∧
    GivesPair (.srd d 0x006) s d (s.now + Config.clockStart s.cur.core) ∧
    (∀ n (f : Nat → Word), (n = 0x100 ∧ f = (fun l => BitVec.ofNat 32 l)) ∨
        (n = 0x101 ∧ f = fun l => BitVec.ofNat 32 (s.group.wid.toArray.getD l 0).toNat) ∨
        (n = 0x102 ∧ f = fun l => BitVec.ofNat 32 ((s.group.wid.toArray.getD l 0).toNat / 2 ^ 32)) →
      s.Issues (Instr.srd d (BitVec.ofNat 10 n)).facts →
      exec (.srd d (BitVec.ofNat 10 n)) s = .next (s.writeV (d.setWidth 7) f).done) ∧
    (s.Issues (Instr.swr d 8).facts → exec (.swr d 8) s =
      .next (s.setGroup { s.group with
        fpc := if 5 ≤ (s.readS d).toNat % 8 then 0 else BitVec.ofNat 3 (s.readS d).toNat }).done) ∧
    (flagsOpen → s.Issues (Instr.swr d 9).facts → exec (.swr d 9) s = .next s.stalled) ∧
    (¬ flagsOpen → s.Issues (Instr.swr d 9).facts → exec (.swr d 9) s =
      .next (s.setGroup { s.group with fps := BitVec.ofNat 5 (s.readS d).toNat }).done) ∧
    (∀ imm, s.Issues (Instr.tidsetImm imm).facts →
      exec (.tidsetImm imm) s = .next (s.setGroup { s.group with tensor := imm }).done) ∧
    (s.Issues (Instr.tidsetReg d).facts → exec (.tidsetReg d) s =
      .next (s.setGroup { s.group with tensor := BitVec.ofNat 8 (s.readS d).toNat }).done)

/-! ## Control -/

/-- R103: the uniform branches. -/
def Obligations.UniformBranches : Prop :=
  ∀ (s : State) (r : SReg) (p : PReg) (off : BitVec 16), s.snap = none →
    Branches (.bra off) s off True ∧
    Branches (.bz r off) s off (s.readS r = 0) ∧
    Branches (.bnz r off) s off (s.readS r ≠ 0) ∧
    Branches (.bany p off) s off (∃ l, l < 96 ∧ s.split.mask.getLsbD l = true ∧ (s.readP p).getLsbD l = true) ∧
    Branches (.ball p off) s off (∀ l, l < 96 → s.split.mask.getLsbD l = true → (s.readP p).getLsbD l = true) ∧
    Branches (.bnone p off) s off (∀ l, l < 96 → s.split.mask.getLsbD l = true → (s.readP p).getLsbD l = false)

/-- R104, R347: the five cases of BDIV. A split that it creates takes the lowest number that is free. -/
def Obligations.Division : Prop :=
  ∀ (s : State) (p : PReg) (off : BitVec 16), s.snap = none → s.Issues (Instr.bdiv p off).facts →
    let taken := s.split.mask &&& s.readP p
    let stay := s.split.mask &&& ~~~ s.readP p
    (taken = 0 → ∃ t, exec (.bdiv p off) s = .next t ∧ s.MovesTo t (s.split.pc + 1)) ∧
    (taken ≠ 0 → stay = 0 → ∃ t, exec (.bdiv p off) s = .next t ∧ s.MovesTo t (s.packetAfter off)) ∧
    (taken ≠ 0 → stay ≠ 0 → s.group.splits.at? s.cur.split ≠ none → s.group.splits.length < 4 →
      ∃ t n x, exec (.bdiv p off) s = .next t ∧ s.group.splits.at? n = none ∧ n < 4 ∧
        (∀ m, m < n → s.group.splits.at? m ≠ none) ∧ t.group.splits.at? n = some x ∧
        x.mask = taken ∧ x.pc = s.packetAfter off ∧ x.word = 0 ∧ x.record = none ∧ x.age = s.now ∧
        t.split.mask = stay ∧ t.split.pc = s.split.pc + 1 ∧ t.split.word = 0 ∧ t.split.record = s.split.record ∧
        (∀ m, m ≠ n → m ≠ s.cur.split → t.group.splits.at? m = s.group.splits.at? m) ∧
        t.group.splits.length = s.group.splits.length + 1 ∧
        { t.group with splits := s.group.splits } = s.group ∧ s.OnlyGroup t ∧ t.sys = s.sys ∧ s.SameMemory t) ∧
    (taken ≠ 0 → stay ≠ 0 → ¬ s.group.splits.length < 4 → s.split.record = none →
      ∃ t, exec (.bdiv p off) s = .next t ∧
        t.split.mask = stay ∧ t.split.pc = s.split.pc + 1 ∧ t.split.word = 0 ∧
        t.split.record = some (s.packetAfter off, s.split.handler, taken) ∧
        (∀ m, m ≠ s.cur.split → t.group.splits.at? m = s.group.splits.at? m) ∧
        { t.group with splits := s.group.splits } = s.group ∧ s.OnlyGroup t ∧ t.sys = s.sys ∧ s.SameMemory t) ∧
    (taken ≠ 0 → stay ≠ 0 → ¬ s.group.splits.length < 4 → s.split.record ≠ none →
      let t := s.fault .splitOverflow 0 none
      exec (.bdiv p off) s = .next t ∧
      (s.group.level = .u → s.context.tvec.getLsbD 63 = true → s.split.word < 3 →
        epcPc t.gsys.csr.epc = s.split.pc.toNat ∧ epcWord t.gsys.csr.epc = s.split.word ∧
        ∀ m, (t.group.splits.at? m).map (fun y => (y.mask, y.record)) = (s.group.splits.at? m).map fun y => (y.mask, y.record)))

/-- R108: CALL, RET and JMPR. -/
def Obligations.Calls : Prop :=
  ∀ (s : State) (a : SReg) (n : BitVec 20), s.snap = none →
    (s.Issues (Instr.call n).facts → s.gsys.busyS 59 = false →
      ∃ t, exec (.call n) s = .next t ∧ t.readS 59 = BitVec.ofNat 32 (s.split.pc.toNat + 1) ∧ t.split.pc = n ∧
        t.split.word = 0 ∧ t.split.mask = s.split.mask ∧ t.split.record = s.split.record ∧
        (∀ m, m ≠ s.cur.split → t.group.splits.at? m = s.group.splits.at? m) ∧
        (∀ r, r ≠ 59 → t.group.s.get r 0 = s.group.s.get r 0) ∧ s.OnlyGroup t ∧ s.SameMemory t) ∧
    (s.Issues Instr.ret.facts →
      ((s.readS 59).toNat < 2 ^ 20 →
        ∃ t, exec .ret s = .next t ∧ s.MovesTo t (BitVec.ofNat 20 (s.readS 59).toNat)) ∧
      (2 ^ 20 ≤ (s.readS 59).toNat → exec .ret s = .next (s.illegalHere .branchTarget))) ∧
    (s.Issues (Instr.jmpr a).facts →
      ((s.readS a).toNat < 2 ^ 20 → ∃ t, exec (.jmpr a) s = .next t ∧ s.MovesTo t (BitVec.ofNat 20 (s.readS a).toNat)) ∧
      (2 ^ 20 ≤ (s.readS a).toNat → exec (.jmpr a) s = .next (s.illegalHere .branchTarget)))

/-- R66, R107, R109, R111: NOP, MFROMP, MTOP, WAIT and YIELD. -/
def Obligations.MaskWaitYield : Prop :=
  ∀ (s : State) (p : PReg) (ld st cp tm : BitVec 6), s.snap = none →
    (s.Issues Instr.nop.facts → exec .nop s = .next s.done) ∧
    (s.Issues (Instr.mfromp p).facts →
      exec (.mfromp p) s = .next (s.writePLanes (BitVec.allOnes 96) p fun l => s.split.mask.getLsbD l).done) ∧
    (s.Issues (Instr.mtop p).facts → exec (.mtop p) s = .next (s.setMask (s.readP p)).done) ∧
    (s.Issues (Instr.wait ld st cp tm).facts →
      (s.gsys.ld.length ≤ ld.toNat ∧ s.gsys.st.length ≤ st.toNat ∧ s.gsys.cp.length ≤ cp.toNat ∧
          s.gsys.tm.length ≤ tm.toNat →
        exec (.wait ld st cp tm) s = .next (s.releaseMatrix s.gkey tm.toNat).done) ∧
      (¬ (s.gsys.ld.length ≤ ld.toNat ∧ s.gsys.st.length ≤ st.toNat ∧ s.gsys.cp.length ≤ cp.toNat ∧
          s.gsys.tm.length ≤ tm.toNat) →
        exec (.wait ld st cp tm) s = .next { s with last := .held })) ∧
    (s.Issues Instr.yield.facts → ∃ t, exec .yield s = .next t ∧ s.MovesTo t (s.split.pc + 1) ∧
      t.split.yielded = true ∧ t.split.back = 0)

/-- R106, R112: what EXIT leaves. Where the spec leaves a choice the model's is stated: log entry 89. -/
def Obligations.Exit : Prop :=
  ∀ (s : State), s.snap = none → s.Issues Instr.exit.facts →
    (∀ pc h m, s.split.record = some (pc, h, m) → ∃ t, exec .exit s = .next t ∧
      t.split.mask = m ∧ t.split.record = none ∧ t.split.pc = pc ∧ t.split.word = 0 ∧
      (∀ n, n ≠ s.cur.split → t.group.splits.at? n = s.group.splits.at? n) ∧
      { t.group with splits := s.group.splits } = s.group ∧ s.OnlyGroup t ∧ s.SameMemory t) ∧
    (s.split.record = none → s.group.splits.erase s.cur.split ≠ [] → ∃ t, exec .exit s = .next t ∧
      t.group = { s.group with splits := s.group.splits.erase s.cur.split } ∧ t.sys = s.sys ∧ s.OnlyGroup t ∧
      s.SameMemory t) ∧
    (s.split.record = none → s.group.splits.erase s.cur.split = [] → s.gsys.pendingFault = none →
      s.group.phase ≠ .attached ∨ s.group.phase = .attached ∧ s.slicePosted s.gkey = false →
      ∃ t, exec .exit s = .next t ∧ t.group.phase = .ended ∧ t.group.splits = [] ∧ t.gsys.ld = [] ∧
        t.gsys.st = s.gsys.st ∧ t.gsys.cp = s.gsys.cp ∧ t.gsys.tm = s.gsys.tm ∧ s.SameMemory t)

/-- R354: TRAP raises class 0x10 with its number and the next packet as the resume point; BRK raises the debug fault with SUB 1, or
stops the group where the debugger may stop it. R355: the cases of RFT and RFT.KILL, in their order. Where the spec leaves a
choice the model's is stated: log entries 40, 53. -/
def Obligations.TrapsAndReturn : Prop :=
  (∀ (s : State) (n : BitVec 8),
     (s.Issues (Instr.trap n).facts → exec (.trap n) s =
       .next (s.deliver .trap n.toNat 0 none (s.split.pc.toNat + 1) 0 (Vector.replicate 6 0))) ∧
     (s.Issues Instr.brk.facts → s.vcontext.dbg = false → exec .brk s =
       .next (s.deliver .debugTrap 1 0 none s.split.pc.toNat s.split.word (Vector.replicate 6 0))) ∧
     (s.Issues Instr.brk.facts → s.vcontext.dbg = true → ∃ t, exec .brk s = .next t ∧
       (t.gsys.stop.map fun x => (x.why, x.split)) = some (1, s.cur.split) ∧
       t.core.dstat = BitVec.ofNat 64 (s.cur.slot + 16 * s.cur.split + 64 + 256) ∧ t.group = s.group)) ∧
  (∀ (s : State), s.snap = none →
     let e := s.gsys.csr.epc
     let c := s.gsys.csr
     (s.Issues Instr.rft.facts → 2 ^ 20 ≤ epcPc e → exec .rft s = .next (s.illegalHere .branchTarget)) ∧
     (s.Issues Instr.rftKill.facts → 2 ^ 20 ≤ epcPc e → exec .rftKill s = .next (s.illegalHere .branchTarget)) ∧
     (s.Issues Instr.rftKill.facts → epcPc e < 2 ^ 20 → exec .rftKill s = .next (s.killWith s.block.context
       (s.eventHere 0x01 (c.ecause.toNat % 256) (c.ecause.toNat / 256 % 256) c.eaddr (c.elane.toNat % 128)))) ∧
     (s.Issues Instr.rft.facts → epcPc e < 2 ^ 20 →
       (∃ n x, (n, x) ∈ s.group.splits ∧ n ≠ s.cur.split ∧ x.frozen = false) →
       exec .rft s = .next (s.illegalHere .forbiddenChain)) ∧
     (s.Issues Instr.rft.facts → epcPc e < 2 ^ 20 →
       (∀ n x, (n, x) ∈ s.group.splits → n ≠ s.cur.split → x.frozen = true) →
       ∃ t, exec .rft s = .next t ∧ t.group.level = .u ∧ t.split.pc.toNat = epcPc e ∧ t.split.word = epcWord e ∧
         t.split.handler = false ∧ t.split.mask = s.split.mask ∧ t.split.record = s.split.record ∧
         t.codeBase t.split = s.block.header.code ∧
         (∀ n y, n ≠ s.cur.split → s.group.splits.at? n = some y → t.group.splits.at? n = some { y with frozen := false }) ∧
         t.gsys = { s.gsys with csr := { s.gsys.csr with lost := false } } ∧
         { t.group with splits := s.group.splits, level := s.group.level } = s.group ∧ s.OnlyGroup t ∧ s.SameMemory t))

/-- R353: taking a precise fault or a TRAP at U with a handler installed; at S it is a double fault, and without a handler the context
ends. -/
def Obligations.TrapEntry : Prop :=
  ∀ (s : State) (cls : FaultClass) (sub : Nat) (addr : DWord) (lane : Option Nat) (pc w : Nat), s.snap = none →
    pc ≤ 2 ^ 20 → w < 3 → s.cur.split < 4 → sub < 256 → (∀ l, lane = some l → l < 96) →
    let t := s.deliver cls sub addr lane pc w (Vector.replicate 6 0)
    (s.group.level = .u → s.context.tvec.getLsbD 63 = true →
      epcPc t.gsys.csr.epc = pc ∧ epcWord t.gsys.csr.epc = w ∧ (t.gsys.csr.epc.extractLsb' 23 2).toNat = s.cur.split ∧
      t.gsys.csr.ecause.toNat = cls.code + 256 * sub ∧ t.gsys.csr.eaddr = addr ∧
      t.gsys.csr.elane.toNat = lane.getD 0x7F ∧ (∀ k, k < 6 → t.gsys.csr.earg.toArray.getD k 0 = 0) ∧
      t.group.level = .s ∧ t.split.pc = 0 ∧ t.split.word = 0 ∧ t.split.mask = s.split.mask ∧
      t.split.record = s.split.record ∧ t.codeBase t.split = (s.context.tvec.extractLsb' 0 60).toNat ∧
      (∀ n y, n ≠ s.cur.split → s.group.splits.at? n = some y → t.group.splits.at? n = some { y with frozen := true }) ∧
      { t.group with splits := s.group.splits, level := .u } = s.group ∧
      t.gsys.csr.ssave = s.gsys.csr.ssave ∧ t.gsys.csr.lost = s.gsys.csr.lost ∧
      t.gsys.ld = s.gsys.ld ∧ t.gsys.st = s.gsys.st ∧ t.gsys.cp = s.gsys.cp ∧ t.gsys.tm = s.gsys.tm ∧
      s.OnlyGroup t ∧ s.SameMemory t) ∧
    (s.group.level = .s → t = s.killWith s.block.context (s.eventHere 0x01 0x43 cls.code addr (lane.getD 0x7F))) ∧
    (s.group.level = .u → s.context.tvec.getLsbD 63 = false →
      t = s.killWith s.block.context (s.eventHere 0x01 cls.code sub addr (lane.getD 0x7F)))

/-- R83, R87, R132: a word that meets a cause of its own raises the illegal-instruction fault with it; one that the group may not
issue raises the permission fault; one whose counter is full waits, and so does one of the M or E pipe while another split of
its group waits at a PUBLISH or a TLBINV (R247, R362). Where the spec leaves a choice the model's is stated: log entry 38. -/
def Obligations.StoppedWords : Prop :=
  ∀ (s : State) (i : Instr), i.pipe ≠ .none ∨ i = .nop →
    (∀ c, s.causeOf i.facts = some c → exec i s = .next (s.illegal c)) ∧
    (s.causeOf i.facts = none → s.mayIssue i.facts = false → exec i s = .next (s.fault .permission 0 none)) ∧
    (s.causeOf i.facts = none → s.mayIssue i.facts = true → s.counterFull i.facts = true ∨ s.orderHeld i.facts = true →
      exec i s = .next { s with last := .held })

/-- R81: a SYS word issued at U raises the illegal-instruction fault with cause 0x0A. -/
def Obligations.Privilege : Prop :=
  ∀ (s : State) (i : Instr), i.isSys = true → s.vgroup.level = .u → exec i s = .next (s.illegal .sysAtU)

/-! ## Blocks and barriers -/

/-- R90, R93, R120, R132, R133, R148, R213: ATTACH, by a group of one split with an empty record. Where the spec leaves a choice the
model's is stated: log entry 45. -/
def Obligations.Attach : Prop :=
  ∀ (s : State), s.snap = none → s.Issues Instr.attach.facts →
    (s.alone = false → exec .attach s = .next (s.fault .permission 0 none)) ∧
    (s.alone = true → ∃ t, exec .attach s = .next t ∧
      let b := s.block
      let m := t.group.member
      t.group.phase = .attached ∧
      (∀ k, k ∈ s.groupsIn s.group.block → holdsMember (s.groupAt k) = true → (s.groupAt k).member ≠ m) ∧
      (∀ j, j < m → ∃ k, k ∈ s.groupsIn s.group.block ∧ holdsMember (s.groupAt k) = true ∧ (s.groupAt k).member = j) ∧
      (∀ r, t.group.s.get r 0 = 0) ∧ (∀ p, t.group.p.get p 0 = 0) ∧ t.group.fpc = 0 ∧ t.group.fps = 0 ∧
      t.group.splits.length = 1 ∧ t.split.mask = BitVec.allOnes 96 ∧ t.split.record = none ∧
      t.gsys.ld = [] ∧ t.gsys.st = [] ∧ t.gsys.cp = [] ∧ t.gsys.tm = [] ∧
      (∀ q, q < 96 → t.group.wid.toArray.getD q 0 =
        BitVec.ofNat 64 (b.number * 2 ^ ((b.header.widths.take b.header.blklvl).foldl (· + ·) 0) + m * 96 + q)) ∧
      (b.header.scratch < 2 ^ 64 → b.slot0 * slotBytes < 2 ^ 64 → b.stackBase + m * 96 * (16 * b.header.priv) < 2 ^ 64 →
        16 * b.header.priv < 2 ^ 64 → 1024 * b.header.acc < 2 ^ 64 →
        (segBase t.gsys.seg.g, segLimit t.gsys.seg.g) = (0, 2 ^ 60) ∧
        (segBase t.gsys.seg.s, segLimit t.gsys.seg.s) = (b.slot0 * slotBytes, b.header.scratch) ∧
        (segBase t.gsys.seg.c, segLimit t.gsys.seg.c) = (0, 2 ^ 24) ∧
        segLimit t.gsys.seg.a = 1024 * b.header.acc ∧
        (segBase t.gsys.seg.p, segLimit t.gsys.seg.p) =
          (b.stackBase + m * 96 * (16 * b.header.priv), 16 * b.header.priv)) ∧
      (∀ k, k < 16 → (b.stageOf s.group).barmask.getLsbD k = true → (t.gsys.bar k).member = true) ∧
      s.SameMemory t)

/-- R139: the state of a barrier after a join, a leave, an arrival and the completion of a phase; completion is checked after every
change. -/
def Obligations.BarrierRules : Prop :=
  ∀ (s : State) (gk k : Nat),
    let id := (s.groupAt gk).block
    let x := (s.blockAt id).barrier k
    let f := (s.sysAt gk).bar k
    let after := fun (t : State) => ((t.blockAt id).barrier k, (t.sysAt gk).bar k)
    (x.arrived = 0 → after (s.memberJoin gk k) =
      ({ x with members := x.members + 1, expected := x.expected + 1 }, { BarFlags.none with member := true, counted := true })) ∧
    (x.arrived ≠ 0 → x.arrived ≠ x.expected → after (s.memberJoin gk k) =
      ({ x with members := x.members + 1 }, { BarFlags.none with member := true })) ∧
    (f.member = true → f.counted = true → f.arrived = false → (x.arrived = 0 ∨ x.arrived ≠ x.expected - 1) →
      after (s.memberLeave gk k) =
        ({ x with members := x.members - 1, expected := x.expected - 1 }, BarFlags.none)) ∧
    (f.member = true → (f.counted = false ∨ f.arrived = true) → (x.arrived = 0 ∨ x.arrived ≠ x.expected) →
      after (s.memberLeave gk k) = ({ x with members := x.members - 1 }, BarFlags.none)) ∧
    (f.counted = true → f.arrived = false → x.arrived + 1 ≠ x.expected → after (s.arrive gk k) =
      ({ x with arrived := x.arrived + 1 }, { f with arrived := true })) ∧
    (f.counted = false ∨ f.arrived = true → after (s.arrive gk k) = (x, { f with pending := true })) ∧
    (x.arrived = x.expected → 0 < x.arrived →
      let n := ((s.barMembers id k).filter fun g => ((s.sysAt g).bar k).pending).length
      (n = 0 ∨ n ≠ x.members) → (s.barMembers id k).Nodup →
      ((s.checkBarrier id k).blockAt id).barrier k =
        { members := x.members, expected := x.members, arrived := n, phase := x.phase + 1 } ∧
      ∀ g, g ∈ s.barMembers id k → ((s.checkBarrier id k).sysAt g).bar k =
        { member := true, counted := true, arrived := ((s.sysAt g).bar k).pending, pending := false }) ∧
    ∀ t, t = s.memberJoin gk k ∨ (f.member = true ∧ t = s.memberLeave gk k) ∨
        (f.counted = true ∧ f.arrived = false ∧ t = s.arrive gk k) →
      ¬ (((t.blockAt id).barrier k).arrived = ((t.blockAt id).barrier k).expected ∧ 0 < ((t.blockAt id).barrier k).arrived)

/-- R142: the barrier words. An arrival comes at once here because nothing of the group is outstanding. The arrival that a BAR.SYNC
has made stays with its split: the word does not arrive again. Where the spec leaves a choice the model's is stated: log entry
46. -/
def Obligations.BarrierWords : Prop :=
  ∀ (s : State) (bar : BitVec 4) (a d : SReg) (p : PReg), s.snap = none →
    let k := bar.toNat
    let x := s.block.barrier k
    let f := s.gsys.bar k
    let token := x.phase + (if f.counted = true ∧ f.arrived = false then 0 else 1)
    let may := k < s.block.barrierCount ∧ (s.block.stageOf s.group).barmask.getLsbD k = true
    let isDone := fun (phase y : Word) => 1 ≤ (phase.toNat + 2 ^ 32 - y.toNat) % 2 ^ 32 ∧
      (phase.toNat + 2 ^ 32 - y.toNat) % 2 ^ 32 ≤ 2 ^ 31
    (s.Issues (Instr.barArrive bar d).facts → may → GroupSys.waiting s.gsys = [] →
      exec (.barArrive bar d) s = .next ((s.arrive s.gkey k).writeS d token).done) ∧
    (s.Issues (Instr.barArrive bar d).facts → ¬ may → exec (.barArrive bar d) s = .next (s.fault .permission 0 none)) ∧
    (s.Issues (Instr.barWait bar a).facts → k < s.block.barrierCount → isDone x.phase (s.readS a) →
      exec (.barWait bar a) s = .next s.done) ∧
    (s.Issues (Instr.barWait bar a).facts → k < s.block.barrierCount → ¬ isDone x.phase (s.readS a) →
      exec (.barWait bar a) s = .next (s.held s.holdOf)) ∧
    (s.Issues (Instr.barWait bar a).facts → ¬ k < s.block.barrierCount →
      exec (.barWait bar a) s = .next (s.fault .permission 0 none)) ∧
    (s.Issues (Instr.barSync bar).facts → s.split.arrivalHere = none → may → GroupSys.waiting s.gsys = [] →
      let u := s.arrive s.gkey k
      let t := u.setSplit (u.split.arrived token)
      (isDone (t.block.barrier k).phase token → exec (.barSync bar) s = .next t.done) ∧
      (¬ isDone (t.block.barrier k).phase token → exec (.barSync bar) s = .next (t.held t.holdOf))) ∧
    (∀ y, s.Issues (Instr.barSync bar).facts → s.split.arrivalHere = some y →
      (isDone x.phase y → exec (.barSync bar) s = .next s.done) ∧
      (¬ isDone x.phase y → exec (.barSync bar) s = .next (s.held s.holdOf))) ∧
    (s.Issues (Instr.barSync bar).facts → s.split.arrivalHere = none → ¬ may →
      exec (.barSync bar) s = .next (s.fault .permission 0 none)) ∧
    (s.Issues (Instr.barTry bar a p).facts → k < s.block.barrierCount →
      exec (.barTry bar a p) s = .next (s.writePAll p (decide (isDone x.phase (s.readS a)))).done) ∧
    (s.Issues (Instr.barTry bar a p).facts → ¬ k < s.block.barrierCount →
      exec (.barTry bar a p) s = .next (s.fault .permission 0 none))

/-- R134: DETACH, refused while a slice of the group waits for its copy. R136, R137: LAUNCH's three answers and its posting, and
HOPS. -/
def Obligations.DetachLaunchHops : Prop :=
  (∀ (s : State) (p : PReg), s.snap = none → s.Issues (Instr.detach p).facts →
     (s.alone = false → exec (.detach p) s = .next (s.fault .permission 0 none)) ∧
     (s.alone = true → s.slicePosted s.gkey = true → exec (.detach p) s = .next (s.writePAll p false).done) ∧
     (s.alone = true → s.slicePosted s.gkey = false → ∃ t, exec (.detach p) s = .next t ∧
       t.group.phase = .detached ∧ (p ≠ 7 → t.group.p.get p.toNat 0 = BitVec.allOnes 96) ∧
       (∀ k, k < 16 → (s.block.stageOf s.group).barmask.getLsbD k = true → (t.gsys.bar k).member = false) ∧
       t.group.s = s.group.s ∧ t.group.v = s.group.v ∧ t.split.mask = s.split.mask ∧
       t.gsys.st = s.gsys.st ∧ t.gsys.cp = s.gsys.cp ∧ s.SameMemory t)) ∧
  (∀ (s : State) (d a b : SReg), s.snap = none →
     (s.Issues (Instr.launch d a b).facts →
       let header := (s.readPair a).toNat
       let q := (s.readS b).toNat
       let key := queueKey s.context.partition q
       (header % 128 ≠ 0 → exec (.launch d a b) s = .next (s.fault .misalignment (s.readPair a) none)) ∧
       (header % 128 = 0 → 16 ≤ q → exec (.launch d a b) s = .next (s.writeS d 2).done) ∧
       (header % 128 = 0 → q < 16 → 64 ≤ (s.queues.get key []).length →
         exec (.launch d a b) s = .next (s.writeS d 1).done) ∧
       (header % 128 = 0 → q < 16 → (s.queues.get key []).length < 64 → GroupSys.waiting s.gsys = [] → d.toNat < 61 →
         ∃ t id, exec (.launch d a b) s = .next t ∧ t.queues.get key [] = s.queues.get key [] ++ [id] ∧
           (t.launchAt id).headerAddr = header ∧ (t.launchAt id).context = s.block.context ∧
           (t.launchAt id).partition = s.context.partition ∧ (t.launchAt id).queue = q ∧
           t.group.s.get d.toNat 0 = 0 ∧ s.SameMemory t)) ∧
     (s.Issues (Instr.hops d a b).facts →
       (∀ x y, s.context.vdies[(s.readS a).toNat]? = some x → s.context.vdies[(s.readS b).toNat]? = some y → x < 4 → y < 4 →
         exec (.hops d a b) s = .next (s.writeS d
           (if x = y then 0 else if (x + 2) % 4 = y then 2 else 1)).done) ∧
       (s.context.vdies[(s.readS a).toNat]? = none ∨ s.context.vdies[(s.readS b).toNat]? = none →
         exec (.hops d a b) s = .next (s.writeS d 0xFFFFFFFF).done)))

/-- R135: a REGROUP that finds no partner, one that waits, one whose terms the partner's do not meet, and the rendezvous, in which
the group of the higher member index gives its active lanes to the lowest dormant positions of the other. Where the spec leaves
a choice the model's is stated: log entry 37. -/
def Obligations.Regroup : Prop :=
  ∀ (s : State) (p : PReg) (r : SReg) (first : VReg) (more : BitVec 5), s.snap = none →
    s.Issues (Instr.regroup p r first more).facts → s.split.hold = none → s.group.splits.at? s.cur.split ≠ none →
    let partner := (s.readS r).toNat
    let n := more.toNat + 1
    (s.alone = false → exec (.regroup p r first more) s = .next (s.fault .permission 0 none)) ∧
    (s.alone = true → s.memberSlot partner = none ∨ s.memberSlot partner = some s.gkey →
      exec (.regroup p r first more) s = .next (s.writePAll p false).done) ∧
    (∀ k, s.alone = true → s.memberSlot partner = some k → k ≠ s.gkey → s.regroupHeld k = none →
      ∃ t, exec (.regroup p r first more) s = .next t ∧ t.last = .held ∧
        (t.split.hold.bind Hold.regroup) = some (partner, first, n) ∧ t.split.mask = s.split.mask) ∧
    (∀ k m v count, s.alone = true → s.memberSlot partner = some k → k ≠ s.gkey → s.regroupHeld k = some (m, v, count) →
      (m ≠ s.group.member → ∃ t, exec (.regroup p r first more) s = .next t ∧ t.last = .held ∧
        (t.split.hold.bind Hold.regroup) = some (partner, first, n) ∧ t.split.mask = s.split.mask) ∧
      (m = s.group.member → v ≠ first ∨ count ≠ n ∨ vectorWindow s.block s.group < first.toNat + n ∨
          vectorWindow s.block (s.groupAt k) < first.toNat + n →
        exec (.regroup p r first more) s = .next (((s.setRegroup k partnerFailed).writePAll p false).done))) ∧
    ∀ k, s.alone = true → s.memberSlot partner = some k → k ≠ s.gkey →
      s.regroupHeld k = some (s.group.member, first, n) → first.toNat + n ≤ vectorWindow s.block s.group →
      first.toNat + n ≤ vectorWindow s.block (s.groupAt k) →
      let receives : Bool := s.group.member < (s.groupAt k).member
      let rk := if receives then s.gkey else k
      let dk := if receives then k else s.gkey
      let g := s.groupAt rk
      let e := s.groupAt dk
      let given := LaneMask.list (e.splits.foldl (fun m x => m ||| x.2.mask) (0 : LaneMask))
      let places := LaneMask.list g.dormant
      (places.length < given.length → ∃ t, exec (.regroup p r first more) s = .next t ∧
        (t.groupAt dk).v = e.v ∧ (t.groupAt rk).v = g.v ∧ t.split.mask = s.split.mask) ∧
      (given.length ≤ places.length → ∃ t, exec (.regroup p r first more) s = .next t ∧
        (∀ m x, (t.groupAt dk).splits.at? m = some x → x.mask = 0) ∧
        (∀ m x, (t.groupAt rk).splits.at? m = some x → ∀ j, j < given.length → x.mask.getLsbD (places.getD j 0) = true) ∧
        ∀ j, j < given.length → ∀ q d, q = places.getD j 0 → d = given.getD j 0 →
          (t.groupAt rk).wid.toArray.getD q 0 = e.wid.toArray.getD d 0 ∧
          (∀ x, first.toNat ≤ x → x < first.toNat + n → x < vectorWindow s.block g → ((s.sysAt dk).busyV x).getLsbD d = false →
            (vectorOf (t.groupAt rk) x).lane q = (vectorOf e x).lane d) ∧
          ∀ y, y ≠ p.toNat → ((t.groupAt rk).p.get y 0).getLsbD q = false)

/-! ## Vector integer words -/

/-- R152, R154: the 32-bit words of VINT0 and VINT1 with two operands, over vectors and with a scalar. R152 to R154: bit fields,
over vectors and with a scalar, the words of one source, the immediate forms and the broadcast. A field begins at bit `b mod 32`
and has `min (b / 256 mod 64) 32` bits, cut at bit 31. -/
def Obligations.VectorIntegers : Prop :=
  (LaneRule .vaddI32 .vaddI32Vs (fun _ a b => BitVec.ofNat 32 (a.toNat + b.toNat)) ∧
   LaneRule .vsubI32 .vsubI32Vs (fun _ a b => BitVec.ofInt 32 ((a.toNat : Int) - b.toNat)) ∧
   LaneRule .vmulI32 .vmulI32Vs (fun _ a b => BitVec.ofNat 32 (a.toNat * b.toNat)) ∧
   LaneRule .vmulhI32 .vmulhI32Vs (fun _ a b => BitVec.ofInt 32 (a.toInt * b.toInt / 2 ^ 32)) ∧
   LaneRule .vmulhN32 .vmulhN32Vs (fun _ a b => BitVec.ofNat 32 (a.toNat * b.toNat / 2 ^ 32)) ∧
   LaneRule .vminI32 .vminI32Vs (fun _ a b => BitVec.ofInt 32 (min a.toInt b.toInt)) ∧
   LaneRule .vmaxI32 .vmaxI32Vs (fun _ a b => BitVec.ofInt 32 (max a.toInt b.toInt)) ∧
   LaneRule .vminN32 .vminN32Vs (fun _ a b => BitVec.ofNat 32 (min a.toNat b.toNat)) ∧
   LaneRule .vmaxN32 .vmaxN32Vs (fun _ a b => BitVec.ofNat 32 (max a.toNat b.toNat)) ∧
   LaneRule .vandB32 .vandB32Vs (fun _ a b => a &&& b) ∧
   LaneRule .vorB32 .vorB32Vs (fun _ a b => a ||| b) ∧
   LaneRule .vxorB32 .vxorB32Vs (fun _ a b => a ^^^ b) ∧
   LaneRule .vshlB32 .vshlB32Vs (fun _ a b => BitVec.ofNat 32 (a.toNat * 2 ^ (b.toNat % 64))) ∧
   LaneRule .vshrN32 .vshrN32Vs (fun _ a b => BitVec.ofNat 32 (a.toNat / 2 ^ (b.toNat % 64))) ∧
   LaneRule .vshrI32 .vshrI32Vs (fun _ a b => BitVec.ofInt 32 (a.toInt / 2 ^ (b.toNat % 64))) ∧
   LaneRule .vabsdI32 .vabsdI32Vs (fun _ a b => BitVec.ofNat 32 (a.toInt - b.toInt).natAbs) ∧
   LaneRule .vaddsI32 .vaddsI32Vs (fun _ a b => BitVec.ofInt 32 (max (-2 ^ 31) (min (2 ^ 31 - 1) (a.toInt + b.toInt)))) ∧
   LaneRule .vsubsI32 .vsubsI32Vs (fun _ a b => BitVec.ofInt 32 (max (-2 ^ 31) (min (2 ^ 31 - 1) (a.toInt - b.toInt)))) ∧
   LaneRule .vaddsN32 .vaddsN32Vs (fun _ a b => BitVec.ofNat 32 (min (2 ^ 32 - 1) (a.toNat + b.toNat))) ∧
   LaneRule .vsubsN32 .vsubsN32Vs (fun _ a b => BitVec.ofNat 32 (a.toNat - b.toNat))) ∧
  (let pos := fun (b : Word) => b.toNat % 32
   let n := fun (b : Word) => min (min (b.toNat / 256 % 64) 32) (32 - b.toNat % 32)
   let field := fun (a b : Word) => a.toNat / 2 ^ pos b % 2 ^ n b
   LaneRule .vbfeN32 .vbfeN32Vs (fun _ a b => BitVec.ofNat 32 (field a b)) ∧
   LaneRule .vbfeI32 .vbfeI32Vs (fun _ a b => BitVec.ofInt 32
     (if n b ≠ 0 ∧ 2 ^ (n b - 1) ≤ field a b then (field a b : Int) - 2 ^ n b else field a b)) ∧
   LaneRule .vbfiB32 .vbfiB32Vs (fun d a b => BitVec.ofNat 32
     (d.toNat % 2 ^ pos b + a.toNat % 2 ^ n b * 2 ^ pos b + d.toNat / 2 ^ (pos b + n b) * 2 ^ (pos b + n b))) ∧
   ∀ (s : State) (d a : VReg) (c : SReg) (imm : BitVec 9) (k : BitVec 5),
     (∃ f : Nat → Word, GivesV (.vpopcB32 d a) s d f ∧
       ∀ l, (f l).toNat = ((List.range 32).map fun i => (s.readV a l).toNat / 2 ^ i % 2).sum) ∧
     (∃ f : Nat → Word, GivesV (.vclzB32 d a) s d f ∧ ∀ l, (f l).toNat ≤ 32 ∧
       (s.readV a l).toNat < 2 ^ (32 - (f l).toNat) ∧ ((f l).toNat < 32 → 2 ^ (31 - (f l).toNat) ≤ (s.readV a l).toNat)) ∧
     (∃ f : Nat → Word, GivesV (.vbrevB32 d a) s d f ∧
       ∀ l i, i < 32 → (f l).getLsbD (31 - i) = (s.readV a l).getLsbD i) ∧
     GivesV (.vaddI32Vi d a imm) s d (fun l => BitVec.ofInt 32 ((s.readV a l).toInt + imm.toInt)) ∧
     GivesV (.vandB32Vi d a imm) s d (fun l => s.readV a l &&& BitVec.ofInt 32 imm.toInt) ∧
     GivesV (.vshlB32Vi d a k) s d (fun l => BitVec.ofNat 32 ((s.readV a l).toNat * 2 ^ k.toNat)) ∧
     GivesV (.vshrN32Vi d a k) s d (fun l => BitVec.ofNat 32 ((s.readV a l).toNat / 2 ^ k.toNat)) ∧
     GivesV (.vbcastB32 d c) s d (fun _ => s.readS c))

/-- R152, R154: the 64-bit words, over pairs and with a scalar pair or count. -/
def Obligations.VectorPairs : Prop :=
  ∀ (s : State) (d a b : VReg) (c : SReg),
    let x := fun l => ((s.readVPair a l).toNat : Int)
    let y := fun l => ((s.readVPair b l).toNat : Int)
    let z := ((s.readPair c).toNat : Int)
    let n := fun l => (s.readV b l).toNat % 128
    let m := (s.readS c).toNat % 128
    GivesVPair (.vaddI64 d a b) s d (fun l => x l + y l) ∧ GivesVPair (.vaddI64Vs d a c) s d (fun l => x l + z) ∧
    GivesVPair (.vsubI64 d a b) s d (fun l => x l - y l) ∧ GivesVPair (.vsubI64Vs d a c) s d (fun l => x l - z) ∧
    GivesVPair (.vshlB64 d a b) s d (fun l => x l * 2 ^ n l) ∧ GivesVPair (.vshlB64Vs d a c) s d (fun l => x l * 2 ^ m) ∧
    GivesVPair (.vshrN64 d a b) s d (fun l => x l / 2 ^ n l) ∧ GivesVPair (.vshrN64Vs d a c) s d (fun l => x l / 2 ^ m) ∧
    GivesVPair (.vshrI64 d a b) s d (fun l => (s.readVPair a l).toInt / 2 ^ n l) ∧
    GivesVPair (.vshrI64Vs d a c) s d (fun l => (s.readVPair a l).toInt / 2 ^ m)

/-- R155, R156, R159: comparisons, predicate logic, votes. -/
def Obligations.PredicateWords : Prop :=
  ∀ (s : State) (d a b : PReg) (v w : VReg) (r : SReg) (cc : IntCond),
    let bit := fun (p : PReg) l => (s.readP p).getLsbD l = true
    let cmp := fun (x y : Int) => match cc with
      | .eq => x = y | .ne => x ≠ y | .lt => x < y | .le => x ≤ y | .gt => x > y | .ge => x ≥ y
    (∀ ty (x y : Nat → Int), (∀ l, (x l, y l) = match ty with
        | .i32 => ((s.readV v l).toInt, (s.readV w l).toInt)
        | .n32 => (((s.readV v l).toNat : Int), ((s.readV w l).toNat : Int))
        | .i64 => ((s.readVPair v l).toInt, (s.readVPair w l).toInt)
        | .n64 => (((s.readVPair v l).toNat : Int), ((s.readVPair w l).toNat : Int))) →
      s.Issues (Instr.vcmp d v w cc ty).facts → ∃ f : Nat → Bool, (∀ l, f l = true ↔ cmp (x l) (y l)) ∧
        exec (.vcmp d v w cc ty) s = .next (s.writeP d f).done) ∧
    GivesP (.pand d a b) s d (fun l => bit a l ∧ bit b l) ∧
    GivesP (.por d a b) s d (fun l => bit a l ∨ bit b l) ∧
    GivesP (.pxor d a b) s d (fun l => ¬ (bit a l ↔ bit b l)) ∧
    GivesP (.pnot d a) s d (fun l => ¬ bit a l) ∧
    GivesP (.pmov d a) s d (fun l => bit a l) ∧
    GivesV (.vfromp v a) s v (fun l => if bit a l then 1 else 0) ∧
    GivesP (.vtop d v) s d (fun l => s.readV v l ≠ 0) ∧
    (∃ x : Word, GivesS (.voteAny r a) s r x ∧ (x = 0 ∨ x = 1) ∧
      (x = 1 ↔ ∃ l, l < 96 ∧ s.active.getLsbD l = true ∧ bit a l)) ∧
    (∃ x : Word, GivesS (.voteAll r a) s r x ∧ (x = 0 ∨ x = 1) ∧
      (x = 1 ↔ ∀ l, l < 96 → s.active.getLsbD l = true → bit a l)) ∧
    (∃ x : Nat → Word, (∀ k i, k < 3 → i < 32 →
        ((x k).getLsbD i = true ↔ s.active.getLsbD (32 * k + i) = true ∧ bit a (32 * k + i))) ∧
      (s.Issues (Instr.ballot r a).facts → exec (.ballot r a) s =
        .next (((s.writeS r (x 0)).writeS (r + 1) (x 1)).writeS (r + 2) (x 2)).done))

/-- R157, R158, R160: shuffles within sub-groups, scans and the reduction. -/
def Obligations.CrossLane : Prop :=
  ∀ (s : State) (d a : VReg) (p : PReg) (w : SubWidth) (op : LaneOp) (r : SReg),
    let n : Nat := match w with
      | .w96 => 96 | .w32 => 32 | .w16 => 16 | .w8 => 8 | .w4 => 4 | .w2 => 2
    let base := fun (l : Nat) => n * (l / n)
    let sel := fun (l : Nat) => ((s.readV (a + 1) l).toNat : Int)
    let shuffles := fun (i : Instr) (j : Nat → Int) =>
      s.Issues i.facts → exec i s = .next ((s.writeV d fun l =>
        if 0 ≤ j l ∧ j l < n then s.readV a (base l + (j l).toNat) else s.readV a l).writeP p fun l =>
          decide (0 ≤ j l ∧ j l < n)).done
    let act := fun (low high : Nat) => (List.range 96).filter fun l => s.active.getLsbD l && decide (low ≤ l ∧ l < high)
    let e : Word := match op with
      | .addI32 | .maxN32 | .orB32 | .xorB32 => 0
      | .minI32 => 0x7FFFFFFF
      | .maxI32 => 0x80000000
      | .minN32 | .andB32 => 0xFFFFFFFF
    let f := fun (x y : Word) => match op with
      | .addI32 => BitVec.ofNat 32 (x.toNat + y.toNat)
      | .minI32 => if x.toInt ≤ y.toInt then x else y
      | .maxI32 => if x.toInt ≤ y.toInt then y else x
      | .minN32 => if x.toNat ≤ y.toNat then x else y
      | .maxN32 => if x.toNat ≤ y.toNat then y else x
      | .andB32 => x &&& y | .orB32 => x ||| y | .xorB32 => x ^^^ y
    let fold := fun (ls : List Nat) => ls.foldl (fun acc l => f acc (s.readV a l)) e
    shuffles (.shflIdx d a p w) sel ∧
    shuffles (.shflUp d a p w) (fun l => ((l % n : Nat) : Int) - sel l) ∧
    shuffles (.shflDown d a p w) (fun l => ((l % n : Nat) : Int) + sel l) ∧
    shuffles (.shflXor d a p w) (fun l => (((l % n) ^^^ (s.readV (a + 1) l).toNat : Nat) : Int)) ∧
    GivesV (.vscanIncl d a op w) s d (fun l => fold (act (base l) (l + 1))) ∧
    GivesV (.vscanExcl d a op w) s d (fun l => fold (act (base l) l)) ∧
    GivesS (.vred r a op) s r (fold (act 0 96))

/-! ## Floating point -/

/-- R93, R146, R166, R167: the modes of fpc, and what a floating-point word leaves: its results in the active lanes, their flags ORed
into fps. -/
def Obligations.FloatEffects : Prop :=
  (∀ (s : State), s.rounding = match s.vgroup.fpc.toNat with
    | 1 => Rnd.rtz | 2 => .rdn | 3 => .rup | 4 => .rna | _ => .rne) ∧
  ∀ (s : State) (d : VReg) (f : Nat → Nat × Flags), s.snap = none →
    let t := s.floatWord d f
    (∀ k, k < 5 → (t.group.fps.getLsbD k = true ↔ s.group.fps.getLsbD k = true ∨
      ∃ l, l < 96 ∧ s.active.getLsbD l = true ∧ (f l).2.getLsbD k = true)) ∧
    (∀ l, l < 96 → (vectorOf t.group d.toNat).lane l =
      if s.active.getLsbD l then BitVec.ofNat 32 (f l).1 else (vectorOf s.group d.toNat).lane l) ∧
    (∀ r, r ≠ d.toNat → t.group.v.at? r = s.group.v.at? r) ∧
    { t.group with v := s.group.v, fps := s.group.fps, splits := s.group.splits } = s.group ∧
    t.split.mask = s.split.mask ∧ s.OnlyGroup t ∧ s.SameMemory t

/-- R166, R171 to R176, R178: the words of F32A, F64A, BF2, F32B and F64B; sums, products, fused sums, quotients and roots of finite
operands are the exact result, delivered once, with the sign that the rules give a zero. Where the spec leaves a choice the
model's is stated: log entry 5. -/
def Obligations.FloatArithmetic : Prop :=
  (∀ (s : State) (d a b : VReg),
     let m := s.rounding
     let x := fun l => (s.readV a l).toNat
     let y := fun l => (s.readV b l).toNat
     let z := fun l => (s.readV d l).toNat
     let X := fun l => (s.readVPair a l).toNat
     let Y := fun l => (s.readVPair b l).toNat
     let Z := fun l => (s.readVPair d l).toNat
     let u := fun k l => x l / 2 ^ (16 * k) % 2 ^ 16
     let v := fun k l => y l / 2 ^ (16 * k) % 2 ^ 16
     let w := fun k l => z l / 2 ^ (16 * k) % 2 ^ 16
     (GivesFloat (.vfaddF32 d a b) s d (fun l => Bin.f32.addOp m (x l) (y l)) ∧
      GivesFloat (.vfsubF32 d a b) s d (fun l => Bin.f32.subOp m (x l) (y l)) ∧
      GivesFloat (.vfmulF32 d a b) s d (fun l => Bin.f32.mulOp m (x l) (y l)) ∧
      GivesFloat (.vffmaF32 d a b) s d (fun l => Bin.f32.fmaOp m false (x l) (y l) (z l)) ∧
      GivesFloat (.vffnmaF32 d a b) s d (fun l => Bin.f32.fmaOp m true (x l) (y l) (z l)) ∧
      GivesFloat (.vfminF32 d a b) s d (fun l => Bin.f32.pickOp false (x l) (y l)) ∧
      GivesFloat (.vfmaxF32 d a b) s d (fun l => Bin.f32.pickOp true (x l) (y l)) ∧
      GivesFloat (.vfabsF32 d a) s d (fun l => (x l % 2 ^ 31, 0)) ∧
      GivesFloat (.vfnegF32 d a) s d (fun l => ((x l + 2 ^ 31) % 2 ^ 32, 0)) ∧
      GivesFloat (.vfcopysignF32 d a b) s d (fun l => (x l % 2 ^ 31 + y l / 2 ^ 31 * 2 ^ 31, 0)) ∧
      GivesFloat (.vfrintF32 d a) s d (fun l => Bin.f32.rintOp m (x l))) ∧
     (GivesFloatPair (.vfaddF64 d a b) s d (fun l => Bin.f64.addOp m (X l) (Y l)) ∧
      GivesFloatPair (.vfsubF64 d a b) s d (fun l => Bin.f64.subOp m (X l) (Y l)) ∧
      GivesFloatPair (.vfmulF64 d a b) s d (fun l => Bin.f64.mulOp m (X l) (Y l)) ∧
      GivesFloatPair (.vffmaF64 d a b) s d (fun l => Bin.f64.fmaOp m false (X l) (Y l) (Z l)) ∧
      GivesFloatPair (.vffnmaF64 d a b) s d (fun l => Bin.f64.fmaOp m true (X l) (Y l) (Z l)) ∧
      GivesFloatPair (.vfminF64 d a b) s d (fun l => Bin.f64.pickOp false (X l) (Y l)) ∧
      GivesFloatPair (.vfmaxF64 d a b) s d (fun l => Bin.f64.pickOp true (X l) (Y l)) ∧
      GivesFloatPair (.vfabsF64 d a) s d (fun l => (X l % 2 ^ 63, 0)) ∧
      GivesFloatPair (.vfnegF64 d a) s d (fun l => ((X l + 2 ^ 63) % 2 ^ 64, 0)) ∧
      GivesFloatPair (.vfcopysignF64 d a b) s d (fun l => (X l % 2 ^ 63 + Y l / 2 ^ 63 * 2 ^ 63, 0)) ∧
      GivesFloatPair (.vfrintF64 d a) s d (fun l => Bin.f64.rintOp m (X l))) ∧
     (GivesHalves (.vfaddBf16 d a b) s d (fun k l => Bin.bf16.addOp m (u k l) (v k l)) ∧
      GivesHalves (.vfsubBf16 d a b) s d (fun k l => Bin.bf16.subOp m (u k l) (v k l)) ∧
      GivesHalves (.vfmulBf16 d a b) s d (fun k l => Bin.bf16.mulOp m (u k l) (v k l)) ∧
      GivesHalves (.vffmaBf16 d a b) s d (fun k l => Bin.bf16.fmaOp m false (u k l) (v k l) (w k l)) ∧
      GivesHalves (.vffnmaBf16 d a b) s d (fun k l => Bin.bf16.fmaOp m true (u k l) (v k l) (w k l)) ∧
      GivesHalves (.vfminBf16 d a b) s d (fun k l => Bin.bf16.pickOp false (u k l) (v k l)) ∧
      GivesHalves (.vfmaxBf16 d a b) s d (fun k l => Bin.bf16.pickOp true (u k l) (v k l)) ∧
      GivesHalves (.vfabsBf16 d a) s d (fun k l => (u k l % 2 ^ 15, 0)) ∧
      GivesHalves (.vfnegBf16 d a) s d (fun k l => ((u k l + 2 ^ 15) % 2 ^ 16, 0)))) ∧
  (∀ (s : State) (d a b : VReg),
     let m := s.rounding
     let x := fun l => (s.readV a l).toNat
     let X := fun l => (s.readVPair a l).toNat
     GivesFloat (.vfdivF32 d a b) s d (fun l => Bin.f32.divOp m (x l) (s.readV b l).toNat) ∧
     GivesFloat (.vfsqrtF32 d a) s d (fun l => Bin.f32.sqrtOp m (x l)) ∧
     GivesFloat (.vfrcpF32 d a) s d (fun l => Bin.f32.approxOp .rcp (x l)) ∧
     GivesFloat (.vfrsqF32 d a) s d (fun l => Bin.f32.approxOp .rsq (x l)) ∧
     GivesFloat (.vfexp2F32 d a) s d (fun l => Bin.f32.approxOp .exp2 (x l)) ∧
     GivesFloat (.vflog2F32 d a) s d (fun l => Bin.f32.approxOp .log2 (x l)) ∧
     GivesFloat (.vfsinF32 d a) s d (fun l => Bin.f32.approxOp .sin (x l)) ∧
     GivesFloat (.vfcosF32 d a) s d (fun l => Bin.f32.approxOp .cos (x l)) ∧
     GivesFloat (.vftanhF32 d a) s d (fun l => Bin.f32.approxOp .tanh (x l)) ∧
     GivesFloatPair (.vfdivF64 d a b) s d (fun l => Bin.f64.divOp m (X l) (s.readVPair b l).toNat) ∧
     GivesFloatPair (.vfsqrtF64 d a) s d (fun l => Bin.f64.sqrtOp m (X l)) ∧
     GivesFloatPair (.vfrcpF64 d a) s d (fun l => Bin.f64.approxOp .rcp (X l)) ∧
     GivesFloatPair (.vfrsqF64 d a) s d (fun l => Bin.f64.approxOp .rsq (X l))) ∧
  (∀ (f : Bin) (m : Rnd) (a b c : Nat) (x y z : Dy), f ∈ [Bin.f32, Bin.f64, Bin.bf16] → m ≠ .rsr →
     f.decode a = .num x → f.decode b = .num y → f.decode c = .num z →
     let sum := fun (p q : ℝ) (n k : Bool) => if p = 0 ∧ q = 0 ∧ n = k then n else decide (m = .rdn)
     f.Results m (x.val + y.val) (sum x.val y.val x.neg y.neg) (f.addOp m a b) ∧
     f.Results m (x.val - y.val) (sum x.val y.val x.neg !y.neg) (f.subOp m a b) ∧
     f.Results m (x.val * y.val) (x.neg != y.neg) (f.mulOp m a b) ∧
     f.Results m (x.val * y.val + z.val) (sum (x.val * y.val) z.val (x.neg != y.neg) z.neg) (f.fmaOp m false a b c) ∧
     f.Results m (z.val - x.val * y.val) (sum (x.val * y.val) z.val (x.neg == y.neg) z.neg) (f.fmaOp m true a b c) ∧
     (y.val ≠ 0 → f.Results m (x.val / y.val) (x.neg != y.neg) (f.divOp m a b)) ∧
     (0 < x.val → f.Results m (Real.sqrt x.val) false (f.sqrtOp m a)))

/-- R58, R164, R194: a number is rounded to a neighbour among the multiples of the format's unit at its magnitude, as the mode says,
and under RSR as the random word says. -/
def Obligations.Rounding : Prop :=
  (∀ (f : Bin) (m : Rnd) (b : Word) (d : Dy) (q : ℝ),
    f ∈ [Bin.e4m3, Bin.e5m2, Bin.e3m2, Bin.e2m3, Bin.e2m1, Bin.bf16, Bin.f16, Bin.f32, Bin.f64, Bin.sc12] →
    d.man ≠ 0 → d.StandsFor q → (d.sticky = true → m ≠ .rsr ∧ 2 ^ (f.frac + 1) ≤ d.man) →
    f.Rounded m b q (f.round m b d).val ∧ (f.round m b d).neg = d.neg ∧ (f.round m b d).sticky = false ∧
    (f.tiny m b d = true ↔ f.Tiny m b q)) ∧
  ∀ (f : Bin) (m : Rnd) (b : Word) (q y : ℝ), q ≠ 0 → f.Rounded m b q y →
    |y - q| < f.ulp q ∧ (m = .rtz → |y| ≤ |q|) ∧ (m = .rdn → y ≤ q) ∧ (m = .rup → q ≤ y) ∧
    (m = .rne ∨ m = .rna → 2 * |y - q| ≤ f.ulp q) ∧ ∀ z, f.Rounded m b q z → z = y

/-- R164: what Deliver returns and raises for a number that is not zero. R163, R165, R173, R174, R176: NaNs, the invalid cases,
division by zero and the special operands of the approximate functions. R165, R172, R173: infinities in the sums and products;
rint; the lesser and the greater. R175 to R177: the approximate functions of numbers. The bound of the reciprocals is from the
real value. The bound of the other functions is from the model's evaluation of the function's value. Where the spec leaves a
choice the model's is stated: log entry 5. -/
def Obligations.FloatDelivery : Prop :=
  (∀ (f : Bin) (m : Rnd) (d : Dy) (q : ℝ), f ∈ [Bin.f32, Bin.f64, Bin.bf16] → m ≠ .rsr → d.man ≠ 0 → d.StandsFor q →
     (d.sticky = true → 2 ^ (f.frac + 1) ≤ d.man) → f.Delivers m q (f.deliver m (.num d))) ∧
  (∀ (f : Bin) (m : Rnd) (a b c : Nat), f ∈ [Bin.f32, Bin.f64, Bin.bf16] →
     let x := f.decode a
     let y := f.decode b
     let z := f.decode c
     let nan := f.topField * 2 ^ f.frac + 2 ^ (f.frac - 1)
     let zero := fun (v : FVal) => ∃ d, v = .num d ∧ d.man = 0
     (x.signals = true ∨ y.signals = true → f.addOp m a b = (nan, 16) ∧ f.subOp m a b = (nan, 16) ∧
       f.mulOp m a b = (nan, 16) ∧ f.divOp m a b = (nan, 16) ∧ f.fmaOp m false a b c = (nan, 16)) ∧
     (x.signals = false → y.signals = false → (x.isNan = true ∨ y.isNan = true) →
       f.addOp m a b = (nan, 0) ∧ f.mulOp m a b = (nan, 0) ∧ f.divOp m a b = (nan, 0)) ∧
     (∀ n, x = .inf n → y = .inf !n → f.addOp m a b = (nan, 16)) ∧
     (∀ n, x = .inf n → y = .inf n → f.subOp m a b = (nan, 16) ∧ f.divOp m a b = (nan, 16)) ∧
     (∀ n, zero x → y = .inf n → z.signals = false →
       f.mulOp m a b = (nan, 16) ∧ f.fmaOp m false a b c = (nan, 16) ∧ f.fmaOp m true a b c = (nan, 16)) ∧
     (zero x → zero y → f.divOp m a b = (nan, 16)) ∧
     (∀ d e, x = .num d → y = .num e → d.man ≠ 0 → e.man = 0 → f.divOp m a b = (f.inf (d.neg != e.neg), 8)) ∧
     (∀ n e, x = .inf n → y = .num e → f.divOp m a b = (f.inf (n != e.neg), 0)) ∧
     (∀ d n, x = .num d → y = .inf n → f.divOp m a b = (f.withSign (d.neg != n) 0, 0)) ∧
     (∀ d, x = .num d → d.man ≠ 0 → d.neg = true → f.sqrtOp m a = (nan, 16)) ∧
     (zero x → f.sqrtOp m a = (f.withSign (f.sign a) 0, 0)) ∧ (x = .inf false → f.sqrtOp m a = (f.inf false, 0)) ∧
     (x = .inf true → f.sqrtOp m a = (nan, 16)) ∧
     (x.isNan = true → y.isNan = false → (f.pickOp false a b).1 = b ∧ (f.pickOp true a b).1 = b) ∧
     (x.isNan = false → y.isNan = true → (f.pickOp false a b).1 = a ∧ (f.pickOp true a b).1 = a) ∧
     (x.isNan = true → y.isNan = true → (f.pickOp false a b).1 = nan ∧ (f.pickOp true a b).1 = nan) ∧
     ((f.pickOp false a b).2 = (f.pickOp true a b).2 ∧
       (f.pickOp false a b).2 = if x.signals || y.signals then (16 : Flags) else 0) ∧
     (zero x → f.approxOp .rcp a = (f.inf (f.sign a), 8) ∧ f.approxOp .rsq a = (f.inf (f.sign a), 8) ∧
       f.approxOp .log2 a = (f.inf true, 8) ∧ f.approxOp .sin a = (a, 0) ∧ f.approxOp .tanh a = (a, 0)) ∧
     (∀ n, x = .inf n → f.approxOp .rcp a = (f.withSign n 0, 0) ∧ f.approxOp .sin a = (nan, 16) ∧
       f.approxOp .cos a = (nan, 16) ∧ f.approxOp .exp2 a = (if n then 0 else f.inf false, 0) ∧
       f.approxOp .log2 a = (if n then (nan, 16) else (f.inf false, 0)) ∧
       f.approxOp .rsq a = (if n then (nan, 16) else (0, 0)) ∧
       f.Encodes (f.approxOp .tanh a).1 (if n then -1 else 1) ∧ (f.approxOp .tanh a).2 = 0) ∧
     (x.isNan = true → ∀ fn, f.approxOp fn a = (nan, if x.signals then 16 else 0))) ∧
  (∀ (f : Bin) (m : Rnd) (a b c : Nat), f ∈ [Bin.f32, Bin.f64, Bin.bf16] →
     let x := f.decode a
     let y := f.decode b
     let z := f.decode c
     let nan := f.topField * 2 ^ f.frac + 2 ^ (f.frac - 1)
     let finite := fun (v : FVal) => ∃ d, v = .num d
     let below := fun (v w : FVal) => match v, w with
       | .inf n, .inf k => n = true ∧ k = false
       | .inf n, .num _ => n = true
       | .num _, .inf k => k = false
       | .num d, .num e => d.val < e.val ∨ d.val = 0 ∧ e.val = 0 ∧ d.neg = true ∧ e.neg = false
       | _, _ => False
     (∀ n, x = .inf n → finite y ∨ y = .inf n → f.addOp m a b = (f.inf n, 0)) ∧
     (∀ n, finite x → y = .inf n → f.addOp m a b = (f.inf n, 0) ∧ f.subOp m a b = (f.inf !n, 0)) ∧
     (∀ n, x = .inf n → finite y ∨ y = .inf !n → f.subOp m a b = (f.inf n, 0)) ∧
     (∀ n k d, x = .inf n → y = .inf k ∨ y = .num d ∧ d.man ≠ 0 ∧ d.neg = k →
       f.mulOp m a b = (f.inf (n != k), 0) ∧ f.mulOp m b a = (f.inf (n != k), 0) ∧
       (finite z ∨ z = .inf (n != k) → f.fmaOp m false a b c = (f.inf (n != k), 0)) ∧
       (z = .inf (n == k) → f.fmaOp m false a b c = (nan, 16)) ∧
       (finite z ∨ z = .inf (n == k) → f.fmaOp m true a b c = (f.inf (n == k), 0)) ∧
       (z = .inf (n != k) → f.fmaOp m true a b c = (nan, 16))) ∧
     (∀ n, finite x → finite y → z = .inf n → f.fmaOp m false a b c = (f.inf n, 0) ∧ f.fmaOp m true a b c = (f.inf n, 0)) ∧
     (∀ d, x = .num d → ∃ k : Int, RoundsTo m 0 d.val k ∧ f.Encodes (f.rintOp m a).1 k ∧ f.sign (f.rintOp m a).1 = d.neg ∧
       (f.rintOp m a).2 = if (k : ℝ) = d.val then (0 : Flags) else 1) ∧
     (∀ n, x = .inf n → f.rintOp m a = (f.inf n, 0)) ∧
     (x.isNan = true → f.rintOp m a = (nan, if x.signals then 16 else 0)) ∧
     (below x y → (f.pickOp false a b).1 = a ∧ (f.pickOp true a b).1 = b) ∧
     (below y x → (f.pickOp false a b).1 = b ∧ (f.pickOp true a b).1 = a) ∧
     (x = y → x.isNan = false → (f.pickOp false a b).1 = a ∧ (f.pickOp true a b).1 = a)) ∧
  (∀ (f : Bin) (a : Nat) (x : Dy), f.decode a = .num x →
     let r := fun fn => f.approxOp fn a
     let q : ℝ := x.val
     let inexact := fun (r : Nat × Flags) (w : Dy) => f.decode r.1 = .num w ∧
       r.2 = if |w.val| < 2 ^ (-126 : Int) then flagNX ||| flagUF else flagNX
     let gives := fun (fn : Approx) (y : ℝ) (n : Bool) => f.Encodes (r fn).1 y ∧ f.sign (r fn).1 = n ∧ (r fn).2 = 0
     let close := fun (fn : Approx) (y bound : ℝ) => |y| ≤ f.largest.val → ∃ w, inexact (r fn) w ∧ |w.val - y| ≤ bound
     (f = .f32 ∨ f = .f64 → q ≠ 0 →
       (∀ k : Int, |q| = 2 ^ k → f.emin - f.frac ≤ -k → (2 : ℝ) ^ (-k) ≤ f.largest.val → gives .rcp (1 / q) x.neg) ∧
       ((∀ k : Int, |q| ≠ 2 ^ k) → close .rcp (1 / q) (f.ulp (1 / q))) ∧
       (q < 0 → r .rsq = (f.nan, 16)) ∧ (∀ k : Int, q = 4 ^ k → gives .rsq (2 ^ (-k)) false) ∧
       (0 < q → (∀ k : Int, q ≠ 4 ^ k) → close .rsq (1 / Real.sqrt q) (f.ulp (1 / Real.sqrt q)))) ∧
     (f = .f32 →
       let near := fun (fn : Approx) (bound : ℝ → ℝ) => close fn (fn.exact x).val (bound (fn.exact x).val)
       (128 ≤ q → r .exp2 = (f.inf false, 5)) ∧ (q ≤ -150 → r .exp2 = (0, 3)) ∧
       (∀ k : Int, q = k → -149 ≤ k → k ≤ 127 → gives .exp2 (2 ^ k) false) ∧
       (-150 < q → q < 128 → (∀ k : Int, q ≠ k) → near .exp2 fun y => 2 * f.ulp y) ∧
       (q < 0 → r .log2 = (f.nan, 16)) ∧ (∀ k : Int, q = 2 ^ k → gives .log2 k (decide (k < 0))) ∧
       (0 < q → (∀ k : Int, q ≠ 2 ^ k) → near .log2 fun y => if 1 / 2 ≤ q ∧ q ≤ 2 then 2 ^ (-22 : Int) else 2 * f.ulp y) ∧
       (q = 0 → gives .cos 1 false) ∧
       (∀ fn, fn = .sin ∨ fn = .cos → q ≠ 0 →
         (|q| ≤ 2 ^ 20 → near fn fun y => max (2 * f.ulp y) (2 ^ (-24 : Int))) ∧
         (2 ^ 20 < |q| → ∃ w, inexact (r fn) w ∧ |w.val| ≤ 1)) ∧
       (19 / 2 ≤ |q| → f.Encodes (r .tanh).1 (if q < 0 then -1 else 1) ∧ (r .tanh).2 = 1) ∧
       (q ≠ 0 → |q| < 2 ^ (-126 : Int) → r .tanh = (a, 3)) ∧
       (2 ^ (-126 : Int) ≤ |q| → |q| < 19 / 2 → near .tanh fun y => 2 * f.ulp y)))

/-- R179, R180: VFCMP. -/
def Obligations.FloatCompare : Prop :=
  (∀ (s : State) (d : PReg) (a b : VReg) (cc : FloatCond) (ty : FloatType), s.Issues (Instr.vfcmp d a b cc ty).facts →
    let r := fun l => match ty with
      | .f32 => Bin.f32.compare cc (s.readV a l).toNat (s.readV b l).toNat
      | .f64 => Bin.f64.compare cc (s.readVPair a l).toNat (s.readVPair b l).toNat
      | .bf16lo => Bin.bf16.compare cc ((s.readV a l).toNat % 2 ^ 16) ((s.readV b l).toNat % 2 ^ 16)
      | .bf16hi => Bin.bf16.compare cc ((s.readV a l).toNat / 2 ^ 16) ((s.readV b l).toNat / 2 ^ 16)
    exec (.vfcmp d a b cc ty) s =
      .next ((s.writeP d fun l => (r l).1).raiseFlags (orFlags s.active fun l => (r l).2)).done) ∧
  ∀ (f : Bin) (cc : FloatCond) (a b : Nat), f ∈ [Bin.f32, Bin.f64, Bin.bf16] →
    let x := f.decode a
    let y := f.decode b
    let r := f.compare cc a b
    (x.isNan = true ∨ y.isNan = true → r.1 = decide (cc = .ne ∨ cc = .un)) ∧
    (r.2 = if (x.isNan || y.isNan) && decide (cc = .lt ∨ cc = .le ∨ cc = .gt ∨ cc = .ge) || x.signals || y.signals
      then 16 else 0) ∧
    (∀ d e, x = .num d → y = .num e → (r.1 = true ↔ match cc with
      | .eq => d.val = e.val | .ne => d.val ≠ e.val | .lt => d.val < e.val | .le => d.val ≤ e.val
      | .gt => d.val > e.val | .ge => d.val ≥ e.val | .un => False | .ord => True)) ∧
    (∀ n e, x = .inf n → y = .num e → (r.1 = true ↔ match cc with
      | .lt | .le => n = true | .gt | .ge => n = false | .ne | .ord => True | .eq | .un => False))

/-- R191, R193, R197, R198, R206, R208: CVTS and CVTI, in each active lane; the counter that a lane's conversion raises is that of
the group's tensor identifier. R185 to R191: the value of an encoding in each format, and the width in which a result stands.
R58, R187, R190, R193, R194: Convert to each format: its result, its flags and the counter that it raises. Where the spec leaves
a choice the model's is stated: log entry 44. -/
def Obligations.Conversions : Prop :=
  (∀ (s : State) (d a : VReg) (dst src : Fmt) (m : Rnd), s.snap = none →
     let random := fun l => s.readV (if src.wide then a + 2 else a + 1) l
     let value := fun l => src.decode (if src.wide then (s.readVPair a l).toNat else (s.readV a l).toNat)
     let converts := fun (i : Instr) (inf : Bool) =>
       let c := fun l => dst.convert inf m (random l) (value l)
       s.Issues i.facts → ∃ t, exec i s = .next t ∧ t.last = .done ∧
         t.split.pc = (if s.split.word < 2 then s.split.pc else s.split.pc + 1) ∧
         t.split.word = (if s.split.word < 2 then s.split.word + 1 else 0) ∧
         (∀ l, l < 96 → s.active.getLsbD l = true →
           (vectorOf t.group d.toNat).lane l = BitVec.ofNat 32 (dst.extend (c l).bits) ∧
           (dst.wide = true → d.toNat < 127 →
             (vectorOf t.group (d.toNat + 1)).lane l = BitVec.ofNat 32 (dst.extend (c l).bits / 2 ^ 32))) ∧
         (∀ l, l < 96 → s.active.getLsbD l = false → ∀ r, (vectorOf t.group r).lane l = (vectorOf s.group r).lane l) ∧
         (∀ k, k < 5 → (t.group.fps.getLsbD k = true ↔ s.group.fps.getLsbD k = true ∨
           ∃ l, l < 96 ∧ s.active.getLsbD l = true ∧ (c l).flags.getLsbD k = true)) ∧
         (∀ k, k < 4 → (t.block.stats.get (4 * s.group.tensor.toNat + k) 0).toNat =
           min (2 ^ 32 - 1) ((s.block.stats.get (4 * s.group.tensor.toNat + k) 0).toNat +
             ((List.range 96).filter fun l => s.active.getLsbD l && ((c l).stat.map Stat.code == some k)).length)) ∧
         s.SameMemory t
     converts (.cvts d a dst src m) false ∧ converts (.cvti d a dst src m) true) ∧
  ((∀ (f : Bin) (x : Nat), f ∈ [Bin.e4m3, Bin.e5m2, Bin.e3m2, Bin.e2m3, Bin.e2m1, Bin.bf16, Bin.f16, Bin.f32, Bin.f64, Bin.sc12] →
     let e := x / 2 ^ f.frac % 2 ^ f.ebits
     let m := x % 2 ^ f.frac
     let top := e = 2 ^ f.ebits - 1
     let sign := f ≠ .sc12 ∧ x / 2 ^ (f.ebits + f.frac) % 2 = 1
     (f ∈ [Bin.e5m2, Bin.bf16, Bin.f16, Bin.f32, Bin.f64] → top →
       (m = 0 → f.decode x = .inf (decide sign)) ∧
       (m ≠ 0 → f.decode x = .nan (decide (m < 2 ^ (f.frac - 1))))) ∧
     (f = .e4m3 → top → m = 7 → f.decode x = .nan false) ∧ (f = .sc12 → top → f.decode x = .nan false) ∧
     (¬ top ∨ f ∈ [Bin.e3m2, Bin.e2m3, Bin.e2m1] ∨ f = .e4m3 ∧ m ≠ 7 →
       ∃ d, f.decode x = .num d ∧ d.sticky = false ∧ (d.neg = true ↔ sign) ∧
         |d.val| = if e = 0 then 2 ^ (1 - f.bias) * ((m : ℚ) / 2 ^ f.frac) else 2 ^ ((e : Int) - f.bias) * (1 + (m : ℚ) / 2 ^ f.frac))) ∧
   ([Bin.e4m3, .e5m2, .e3m2, .e2m3, .e2m1, .bf16, .f16, .f32, .f64, .sc12].map fun f => (f.frac, f.ebits, f.bias)) =
     [(3, 4, 7), (2, 5, 15), (2, 3, 3), (3, 2, 1), (1, 2, 1), (7, 8, 127), (10, 5, 15), (23, 8, 127), (52, 11, 1023), (4, 8, 127)] ∧
   ([Bin.e4m3, .e5m2, .e3m2, .e2m3, .e2m1, .bf16, .f16, .f32, .f64, .sc12].map fun f => (f.encode f.largest, f.nan)) =
     [(0x7E, 0x7F), (0x7B, 0x7E), (0x1F, 0), (0x1F, 0), (7, 0), (0x7F7F, 0x7FC0), (0x7BFF, 0x7E00), (0x7F7FFFFF, 0x7FC00000),
       (0x7FEFFFFFFFFFFFFF, 0x7FF8000000000000), (0xFEF, 0xFF0)] ∧
   (∀ (n : Nat) (x : Nat), n ∈ [8, 16, 32, 64] → ∃ d, Fmt.decode (if n = 8 then .i8 else if n = 16 then .i16 else if n = 32 then .i32
     else .i64) x = .num d ∧ d.sticky = false ∧ d.val = (BitVec.ofNat n x).toInt) ∧
   (∀ x : Nat, ∃ d, Fmt.d2p8.decode x = .num d ∧ d.sticky = false ∧
     let term := fun (t : Nat) => if t % 8 = 0 then (0 : ℚ) else (if t < 8 then 1 else -1) * 2 ^ (1 - (t % 8 : Int))
     d.val = term (x / 16 % 16) + term (x % 16)) ∧
   (∀ x : Nat, (x / 4096 % 16 ≠ 0 → Fmt.sc12.decode x = .nan false) ∧
     (x / 4096 % 16 = 0 → Fmt.sc12.decode x = Bin.sc12.decode (x % 4096))) ∧
   (∀ x : Nat, Fmt.e4m3.decode x = Bin.e4m3.decode (x % 256) ∧ Fmt.e5m2.decode x = Bin.e5m2.decode (x % 256) ∧
     Fmt.e3m2.decode x = Bin.e3m2.decode (x % 64) ∧ Fmt.e2m3.decode x = Bin.e2m3.decode (x % 64) ∧
     Fmt.e2m1.decode x = Bin.e2m1.decode (x % 16) ∧ Fmt.bf16.decode x = Bin.bf16.decode (x % 2 ^ 16) ∧
     Fmt.f16.decode x = Bin.f16.decode (x % 2 ^ 16) ∧ Fmt.f32.decode x = Bin.f32.decode (x % 2 ^ 32) ∧
     Fmt.f64.decode x = Bin.f64.decode (x % 2 ^ 64)) ∧
   ∀ (f : Fmt) (x : Nat), BitVec.ofNat 32 (f.extend x) = match f with
     | .i8 => BitVec.ofInt 32 (BitVec.ofNat 8 x).toInt
     | .i16 => BitVec.ofInt 32 (BitVec.ofNat 16 x).toInt
     | _ => BitVec.ofNat 32 x) ∧
  (∀ (inf : Bool) (m : Rnd) (b : Word),
     (∀ (D : Fmt) (n : Nat), (D, n) ∈ [(Fmt.i8, 8), (.i16, 16), (.i32, 32), (.i64, 64)] →
       let c := D.convert inf m b
       let ends := fun (low : Bool) => { bits := if low then 2 ^ (n - 1) else 2 ^ (n - 1) - 1, flags := 16, stat := some .sat : Converted }
       (∀ s, c (.nan s) = { bits := 0, flags := 16, stat := some .nan }) ∧ (∀ s, c (.inf s) = ends s) ∧
       ∀ d, d.sticky = false → ∃ k : Int, RoundsTo m b d.val k ∧
         (k < -2 ^ (n - 1) → c (.num d) = ends true) ∧ (2 ^ (n - 1) ≤ k → c (.num d) = ends false) ∧
         (-2 ^ (n - 1) ≤ k → k < 2 ^ (n - 1) → c (.num d) =
           { bits := (BitVec.ofInt n k).toNat, flags := if (k : ℚ) = d.val then 0 else 1,
             stat := if k = 0 ∧ d.val ≠ 0 then some .ftz else none })) ∧
     (∀ (D : Fmt) (f : Bin), (D, f) ∈ [(Fmt.e4m3, Bin.e4m3), (.e5m2, .e5m2), (.e3m2, .e3m2), (.e2m3, .e2m3), (.e2m1, .e2m1),
         (.bf16, .bf16), (.f16, .f16), (.f32, .f32), (.f64, .f64), (.sc12, .sc12)] →
       (inf = true → D ∉ [Fmt.e3m2, .e2m3, .e2m1, .sc12]) →
       let c := D.convert inf m b
       let infinite := D ∈ [Fmt.e5m2, .bf16, .f16, .f32, .f64]
       let beyond := fun (neg : Bool) (flags : Flags) => if inf then
           { bits := if D = .e4m3 then (if neg then 0xFF else 0x7F) else f.inf neg, flags, stat := some .inf : Converted }
         else { bits := f.withSign (neg && D != .sc12) (f.encode f.largest), flags, stat := some .sat }
       (∀ s, c (.nan s) = { bits := f.nan, flags := if s ∨ D ∈ [Fmt.e3m2, .e2m3, .e2m1] then 16 else 0, stat := some .nan }) ∧
       (∀ s, c (.inf s) = if infinite then { bits := f.inf s, flags := 0, stat := none } else beyond s 16) ∧
       ∀ d, d.sticky = false →
         let q : ℝ := if D = .sc12 then |d.val| else d.val
         (q = 0 → c (.num d) = { bits := f.withSign d.neg 0, flags := 0, stat := none }) ∧
         (q ≠ 0 → ∃ y, f.Rounded m b q y ∧
           ((f.largest.val : ℝ) < |y| → c (.num d) = beyond (decide (q < 0)) 5) ∧
           (|y| ≤ f.largest.val → f.Encodes (c (.num d)).bits y ∧ (f.sign (c (.num d)).bits = true ↔ q < 0) ∧
             ((c (.num d)).flags.getLsbD 0 = true ↔ y ≠ q) ∧
             ((c (.num d)).flags.getLsbD 1 = true ↔ y ≠ q ∧ f.Tiny m b q) ∧ (c (.num d)).flags.toNat < 4 ∧
             ((c (.num d)).stat = some .ftz ↔ y = 0) ∧ ((c (.num d)).stat = none ↔ y ≠ 0)))) ∧
     let c := Fmt.d2p8.convert inf m b
     let beyond := fun (neg : Bool) (flags : Flags) =>
       { bits := if neg then 0x99 else 0x11, flags, stat := some .sat : Converted }
     let value := fun (x : Nat) (v : ℚ) => x < 256 ∧ ∃ d, Fmt.d2p8.decode x = .num d ∧ d.val = v
     let terms := fun (x : Nat) => (if x / 16 % 8 = 0 then 0 else 1) + (if x % 8 = 0 then 0 else 1)
     (∀ s, c (.nan s) = { bits := 0, flags := 16, stat := some .nan }) ∧ (∀ s, c (.inf s) = beyond s 16) ∧
     ∀ d, d.sticky = false → (2 < |d.val| → c (.num d) = beyond d.neg 5) ∧
       (|d.val| ≤ 2 → ∃ y lo hi, value (c (.num d)).bits y ∧ y = (if d.neg then -1 else 1) * |y| ∧
         (∃ x, value x lo) ∧ (∃ x, value x hi) ∧ 0 ≤ lo ∧ lo ≤ |d.val| ∧ |d.val| ≤ hi ∧ (|y| = lo ∨ |y| = hi) ∧
         (∀ x v, value x v → lo < v → v < hi → False) ∧ (hi = |d.val| → lo = |d.val|) ∧ (lo = |d.val| → |y| = lo) ∧
         (lo < |d.val| → match m with
           | .rtz => |y| = lo
           | .rdn => y ≤ d.val
           | .rup => d.val ≤ y
           | .rne => (|y| = hi ↔ hi - |d.val| < |d.val| - lo)
           | .rna => (|y| = hi ↔ hi - |d.val| ≤ |d.val| - lo)
           | .rsr => (|y| = hi ↔ 2 ^ 32 ≤ ⌊(|d.val| - lo) / (hi - lo) * 2 ^ 32⌋ + (b.toNat : Int))) ∧
         (c (.num d)).flags = (if y = d.val then 0 else 1) ∧ (c (.num d)).stat = (if y = 0 ∧ d.val ≠ 0 then some .ftz else none) ∧
         let best := (c (.num d)).bits
         ∀ x, value x y → terms best ≤ terms x ∧
           (terms best = 2 → best % 8 ≥ best / 16 % 8 ∧ (terms x = 2 → x % 8 ≥ x / 16 % 8 → x / 128 = x / 8 % 2 → best / 128 = best / 8 % 2)) ∧
           (terms best = 1 → best % 16 = 0) ∧ (terms best = 0 → best = 0)))

/-- R201 to R205: packing, block scales and compression. -/
def Obligations.PackAndScale : Prop :=
  ∀ (s : State) (d a b : VReg) (sx : Bool) (f : Fmt), s.snap = none →
    let field := fun (w : Nat) (x : Word) (k : Nat) => x.toNat / 2 ^ (w * k) % 2 ^ w
    let at_ := fun (r : VReg) (k : Nat) l => s.readV (r + BitVec.ofNat 7 k) l
    let wide := fun (w : Nat) (x : Nat) => if sx ∧ 2 ^ (w - 1) ≤ x then (x : Int) - 2 ^ w else x
    let packs := fun (i : Instr) (n w : Nat) => GivesV i s d fun l =>
      BitVec.ofNat 32 ((List.range n).map fun k => (at_ a k l).toNat % 2 ^ w * 2 ^ (w * k)).sum
    let unpacks := fun (i : Instr) (n w : Nat) => s.Issues i.facts → d.toNat + n ≤ 128 → ∃ t, exec i s = .next t ∧
      (∀ k l, k < n → l < 96 → s.active.getLsbD l = true →
        (vectorOf t.group (d.toNat + k)).lane l = BitVec.ofInt 32 (wide w (field w (s.readV a l) k))) ∧
      (∀ r l, l < 96 → s.active.getLsbD l = false → (vectorOf t.group r).lane l = (vectorOf s.group r).lane l) ∧
      (∀ r, r < d.toNat ∨ d.toNat + n ≤ r → t.group.v.at? r = s.group.v.at? r) ∧ t.last = .done ∧
      t.split.pc = (if s.split.word < 2 then s.split.pc else s.split.pc + 1) ∧
      t.split.word = (if s.split.word < 2 then s.split.word + 1 else 0) ∧ t.group.p = s.group.p ∧ s.OnlyGroup t ∧ s.SameMemory t
    packs (.pack4 d a) 4 8 ∧ packs (.pack6 d a) 4 6 ∧ packs (.pack8 d a) 8 4 ∧
    unpacks (.unpack4 d a sx) 4 8 ∧ unpacks (.unpack6 d a sx) 4 6 ∧ unpacks (.unpack8 d a sx) 8 4 ∧
    GivesFloat (.scapplyMul d a b) s d (fun l => Bin.f32.finish s.rounding
      (fMul (Bin.f32.decode (s.readV a l).toNat) (Fmt.sc12.decode ((s.readV b l).toNat % 2 ^ 16)))) ∧
    GivesFloat (.scapplyDiv d a b) s d (fun l => Bin.f32.finish s.rounding
      (fDiv (Bin.f32.decode (s.readV a l).toNat) (Fmt.sc12.decode ((s.readV b l).toNat % 2 ^ 16)))) ∧
    (∃ scale : Nat → Nat, GivesV (.bscale d a f) s d (fun l => BitVec.ofNat 32 (scale (l / 32))) ∧
      ∀ k, k < 3 →
        let lanes := (List.range 96).filter fun l => s.active.getLsbD l && decide (l / 32 = k)
        let top := match f.bin with
          | some g => g.largest
          | none => Dy.ofNat 127
        let covers := fun (e : Dy) => ∀ l x, l ∈ lanes → Bin.f32.decode (s.readV a l).toNat = .num x → |x.val| ≤ e.val * top.val
        ((∃ l, l ∈ lanes ∧ ∀ x, Bin.f32.decode (s.readV a l).toNat ≠ .num x) → scale k = 0xFF0) ∧
        ((∀ l, l ∈ lanes → ∃ x, Bin.f32.decode (s.readV a l).toNat = .num x ∧ x.man = 0) → scale k = 0x7F0) ∧
        ((∀ l, l ∈ lanes → ∃ x, Bin.f32.decode (s.readV a l).toNat = .num x) →
          (∃ l x, l ∈ lanes ∧ Bin.f32.decode (s.readV a l).toNat = .num x ∧ x.man ≠ 0) →
          (∃ e, Bin.sc12.decode (scale k) = .num e ∧ covers e) ∧
          ∀ n e, n < scale k → Bin.sc12.decode n = .num e → ¬ covers e)) ∧
    ∃ g : Nat → Word, GivesV (.compress d a f) s d g ∧ ∀ l,
      let e := fun j => field 8 (s.readV a l) j
      let rank := fun j => if f = .i8 then (if 128 ≤ e j then 256 - e j else e j)
        else match f.decode (e j) with
          | .nan _ => 128
          | _ => e j % 128
      ∃ i j, i < j ∧ j < 4 ∧ (g l).toNat = e i + 2 ^ 8 * e j + 2 ^ 16 * i + 2 ^ 18 * j ∧
        ∀ k, k < 4 → k ≠ i → k ≠ j → rank k ≤ rank i ∧ rank k ≤ rank j ∧
          (rank k = rank i → i < k) ∧ (rank k = rank j → j < k)

/-! ## Encodings, steps, reset -/

/-- R61, R74 to R80: what the encoder writes for a well-formed instruction word, the decoder reads back, chain bit and all, with
every operand at every value the encoding admits. -/
def Obligations.DecodeEncode : Prop := ∀ i, Sys2Proof.Laws.DecodeEncode.Statement i

/-- R61, R74 to R80 and the encodings of the class chapters: words written out bit by bit, of ten majors. -/
def Obligations.DecodedWords : Prop :=
  decode 0x00000000 = .ok .nop ∧
  decode 0b0_000001_0_000011_0_0_000001_0_0_000010_00 = .ok (.add (.reg 3) (.reg 1) (.reg 2)) ∧
  decode 0b0_000001_1_000101_1_1_000100_1_0_000100_01 = .ok (.sub (.chan 5) (.pop 4) (.peek 4)) ∧
  decode 0b1_000111_0_000101_00_1111111111111110 = .ok (.movi (.reg 5) (-2)) ∧
  chainBit 0b1_000111_0_000101_00_1111111111111110 = true ∧
  decode 0b0_001001_000100_000110_01_11111111111 = .ok (.sld64 4 6 (-1)) ∧
  decode 0b0_001010_000111_1_0000001000_00000000 = .ok (.swr 7 8) ∧
  decode 0b0_001011_001_001001_1111111111111110 = .ok (.bz 9 (-2)) ∧
  decode 0b0_001110_000000_111111_111111_000001_0 = .ok (.wait 0 63 63 1) ∧
  decode 0b0_010010_0000011_0000001_1111111_0001 = .ok (.vsubI32 3 1 127) ∧
  decode 0b0_010100_0000100_0000101_00_100000000 = .ok (.vaddI32Vi 4 5 (-256)) ∧
  decode 0b0_010110_010_0000001_0000010_0011_0001 = .ok (.vcmp 2 1 2 .le .n32) ∧
  decode 0b0_100011_0001000_0000001_000010_110_00 = .ok (.ldg 8 1 2 .b128 .zx) ∧
  decode 0b0_100100_0000101_0000001_000010_001_00 = .error .reservedCode ∧
  decode 0b0_111100_0000000000000000000000000 = .error .reservedMajor ∧
  staticCause (.ldg 5 1 3 .b32 .zx) = some .registerRange

/-- R62, R66, R113: where it is the turn of a core that may issue, and the split that its arbiter prefers stands at a word that is
an issue group of its own, a step runs that word on that split; what its group has read early is held to the orders of the word
(`afterWords`, R253), and the arbiter's bookkeeping (`settle`) follows. The word is no arrival that others on the same clock
come before (`arrives`, R140), and meets no rendezvous (R135). A core issues once on a clock. A turn with an event runs the
event. Where the spec leaves a choice the model's is stated: log entry 1. -/
def Obligations.StepRunsTheDecodedInstruction : Prop :=
  (∀ (s : State) (e : Instr), s.powered = true → s.turn.event = some e → step s = exec e s.advanced) ∧
  ∀ (s t u : State) (p : Packet) (w : Word) (i : Instr) (slot n k : Nat) (x : Split) (rest : List (Nat × Nat × Split)),
    let c := s.turn.core
    let v := s.advanced.readied c
    s.hw.power.moduleUp = true → s.hw.power.computeUp = true → s.turn.event = none → (s.coreAt c).paused = false →
    (s.coreAt c).turnAt ≠ some s.advanced.now → v.arbiterOrder c = (slot, n, x) :: rest → v.arrives c slot n = false →
    let v := { v with cur := { core := c, slot, split := n } }
    v.recoverableDue = none → v.atBreakpoint = false → v.packetAt = .packet p u →
    firstWord p u.split.word = k → k < 3 → p.word k = w → chainBit w = false →
    decode w = .ok i →
    exec i (u.setSplit { u.split with word := k }) = .next t → t.last ≠ .held → t.last ≠ .idle →
    t.metPartner c = none →
    step s = .next ((u.afterWords (Packet.group p k) t).settle c slot n)

/-- R14, R62, R65, R259: a split without a packet fetches the three little-endian words at CODE + 12 × PC (TVEC.BASE + 12 × PC in
handler code); a packet that breaks a rule of R87 raises that cause, another stays with the split. Here the packet lies in one
page, in frames the context may use and lines that are not poisoned, and the instruction cache holds none of its words. Where
the spec leaves a choice the model's is stated: log entries 33, 41, 42. -/
def Obligations.FetchReadsThePacket : Prop :=
  ∀ (s : State) (e : DWord) (level : Nat), s.split.packet = none → s.core.icache = [] →
    let base := if s.split.handler then (s.context.tvec.extractLsb' 0 60).toNat else s.block.header.code
    let va := base + 12 * s.split.pc.toNat
    let pa := s.physical (dieOf s.cur.core) e level va
    base % 64 = 0 → va + 12 ≤ 2 ^ 60 → va / 65536 = (va + 11) / 65536 →
    s.checkPage s.cur.core s.block.context s.split.rejected va .fetch = .page e level →
    s.checkPage s.cur.core s.block.context s.split.rejected (va + 11) .fetch = .page e level →
    s.missHeld s.cur.core s.block.context va = false → leafLat e = false → s.frameUsable s.block.context (pa / 65536) = true →
    (∀ k, k < 3 → s.poisonedAt (pa + 4 * k) 4 = false) →
    let word := fun k => BitVec.ofNat 32 (s.mem.read (pa + 4 * k) 4)
    let p : Packet := { w0 := word 0, w1 := word 1, w2 := word 2 }
    ∃ t, s.fetchPacket = .packet p t ∧ t.groups = s.groups ∧ t.mem = s.mem ∧
      (t.packetCause p = none → s.packetAt = .packet p (t.setSplit { t.split with packet := some p })) ∧
      ∀ c, t.packetCause p = some c → s.packetAt = .stopped (t.illegal c)

/-- R374, R383, R387, R397, R411, R412, R423, R433, R436, R442: what reset leaves where the spec says it. Where the spec leaves a
choice the model's is stated: log entries 7, 9. -/
def Obligations.ResetState : Prop :=
  let s := State.reset
  s.hw.power.moduleUp = true ∧ s.hw.power.computeUp = true ∧ s.hw.power.cap = 3600 ∧ s.hw.power.gated = 0 ∧
  (∀ k, s.partitionAt k = Partition.none) ∧ (∀ f, s.frameAt f = FrameRecord.free) ∧
  (∀ c, s.contexts.at? c = none) ∧ (∀ k, (s.groupAt k).phase = .free) ∧ (∀ b, s.blocks.at? b = none) ∧
  (∀ l, s.launches.at? l = none) ∧
  (∀ c k, (s.coreAt c).tags.at? k = none) ∧ (∀ c, (s.coreAt c).dctl = 0x40) ∧ (∀ c, (s.coreAt c).dstat = 0) ∧
  (∀ c k, s.pacer c k = 0x100) ∧
  (∀ c, (s.coreAt c).tlb = []) ∧ (∀ d, (s.dieAt d).faults = []) ∧ (∀ c, (s.clusterAt c).entries = []) ∧
  (∀ n, n < 8 → (s.spaceAt n).extents = [(0, 2 ^ 32)] ∧ (s.spaceAt n).next = 1 ∧ (s.spaceAt n).done = 0 ∧
    (s.spaceAt n).halt = false ∧ (∀ p, ((s.spaceAt n).pages.get p TenantPage.absent).form = .zero) ∧
    s.mem.read (windowBase n + 0x10000) 4 = 1) ∧
  (∀ a, a < windowBase 0 → s.mem.byte a = 0) ∧ (∀ a, s.spad.byte a = 0) ∧ ∀ e, s.acc.get e 0 = 0

/-- R249: the memory and the scratchpads of the reset state are in canonical form. Where the spec leaves a choice the model's is
stated: log entry 9. -/
def Obligations.MemoryCanonicalAtReset : Prop := State.reset.memoryWf

/-- R249: every step keeps the canonical form of the memory and of the scratchpads. Where the spec leaves a choice the model's is
stated: log entry 9. -/
def Obligations.MemoryCanonicalKept : Prop := ∀ s t, s.memoryWf → step s = .next t → t.memoryWf

/-! ## The frame of register words -/

/-- R85, R89, R91, R93, R146, R148, R167, R208: what a word of the S, V or X class that transfers nothing, is no SYS word, no WAIT and
names no channel leaves unchanged, in a chain or outside one. Its destinations are those that R69 counts (`Instr.dests`). -/
def Obligations.RegisterFrame : Prop :=
  ∀ (i : Instr) (s t : State) (w : Word), i.pipe ∈ [Pipe.s, Pipe.v, Pipe.x] → i.facts.control = false → i.isSys = false →
    i.facts.chans = [] → (∀ a b c d, i ≠ .wait a b c d) → encode false i = some w → exec i s = .next t → t.last = .done →
    let major := (w.extractLsb' 25 6).toNat
    (∀ r, Reg.s r ∉ i.dests → t.group.s.get r 0 = s.group.s.get r 0) ∧
    (∀ r, Reg.v r ∉ i.dests → t.group.v.at? r = s.group.v.at? r) ∧
    (∀ r l, l < 96 → s.active.getLsbD l = false → (vectorOf t.group r).lane l = (vectorOf s.group r).lane l) ∧
    (∀ r, Reg.p r ∉ i.dests ∨ r = 7 → t.group.p.get r 0 = s.group.p.get r 0) ∧
    (Reg.special 8 ∉ i.dests → t.group.fpc = s.group.fpc) ∧ (Reg.special 11 ∉ i.dests → t.group.tensor = s.group.tensor) ∧
    (Reg.special 9 ∉ i.dests → s.group.fps &&& t.group.fps = s.group.fps ∧
      (¬ (0x19 ≤ major ∧ major ≤ 0x20) → major ≠ 0x22 → t.group.fps = s.group.fps)) ∧
    { t.group with s := s.group.s, v := s.group.v, p := s.group.p, fpc := s.group.fpc, fps := s.group.fps,
                   tensor := s.group.tensor, splits := s.group.splits } = s.group ∧
    (∀ n, n ≠ s.cur.split → t.group.splits.at? n = s.group.splits.at? n) ∧
    t.split.record = s.split.record ∧ t.split.handler = s.split.handler ∧
    ((∀ k, 61 ≤ k → Reg.s k ∉ i.dests) → t.split.mask = s.split.mask) ∧
    { t.gsys with ld := s.gsys.ld, tm := s.gsys.tm } = s.gsys ∧
    (t.gsys.ld.map fun p => { p with spoiled := [], spoiledPreds := [] }) =
      (s.gsys.ld.map fun p => { p with spoiled := [], spoiledPreds := [] }) ∧
    (t.gsys.tm.map fun p => { p with spoiled := [], spoiledPreds := [] }) =
      (s.gsys.tm.map fun p => { p with spoiled := [], spoiledPreds := [] }) ∧
    (∀ k, k ≠ s.gkey → t.groupAt k = s.groupAt k ∧ t.sysAt k = s.sysAt k) ∧
    (∀ b, { t.blockAt b with stats := (s.blockAt b).stats } = s.blockAt b) ∧
    (major ≠ 0x1F → major ≠ 0x20 → t.blocks = s.blocks) ∧
    { t with groups := s.groups, sys := s.sys, blocks := s.blocks, snap := s.snap, tick := s.tick, last := s.last } = s ∧
    s.SameMemory t

/-! ## Memory words -/

/-- R100: SMEM, one access of the group at the base pair plus the scaled immediate. R211 to R220, R223 to R231, R234: the loads,
stores, atomics and reductions of the active lanes, in each space: what stops a lane, and the operation that enters when none is
stopped. Where the spec leaves a choice the model's is stated: log entries 42, 81. -/
def Obligations.MemoryWords : Prop :=
  (∀ (s : State) (d base : SReg) (imm : BitVec 11),
     let read := fun e va => !e.getLsbD 11 || s.usable e va
     let write := fun (e : DWord) (_ : Nat) => !e.getLsbD 11
     let word := fun (i : Instr) (c : Counter) (n : Nat) (k : AccessKind) (typed : DWord → Nat → Bool) (kind : BitVec 5) (act : OpAct)
         (data : QWord) =>
       let ea : Int := (s.readPair base).toNat + imm.toInt * n
       s.Issues i.facts →
       match s.globalVerdict ea n n k typed with
       | .fails cls a => exec i s = .next (s.fault cls a none)
       | .absent pages => exec i s = .next (s.suspend pages kind)
       | .busy => exec i s = .next s.stalled
       | .passes => s.Enters i c act
           [{ lane := 0, place := s.globalPlace k ea, va := ea.toNat, n, data, dead := false }]
     word (.sld32 d base imm) .ld 4 .read read 1 (.scalarLoad 4 d) 0 ∧
     word (.sld64 d base imm) .ld 8 .read read 1 (.scalarLoad 8 d) 0 ∧
     word (.sldK d base imm) .ld 4 .read read 1 (.constLoad d) 0 ∧
     word (.sst d base imm) .st 4 .write write 2 .store ((s.readS d).setWidth 128)) ∧
  (∀ (s : State) (x o : VReg) (base : SReg),
     let off := fun (f : OffForm) l => match f with
       | .zx | .prv => ((s.readV o l).toNat : Int)
       | .sx => (s.readV o l).toInt
       | .x64 => (s.readVPair o l).toNat
     let ea := fun f l => ((s.readPair base).toNat : Int) + off f l
     let read := fun e va => !e.getLsbD 11 || s.usable e va
     let write := fun (e : DWord) (_ : Nat) => !e.getLsbD 11
     let sBase := (s.vsys.seg.s.extractLsb' 0 64).toNat
     let sLimit := ((s.vsys.seg.s.extractLsb' 64 64).toNat : Int)
     let pBase := fun (l : Nat) => ((s.vsys.seg.p.extractLsb' 0 64).toNat : Int) + l * (s.vsys.seg.p.extractLsb' 64 64).toNat
     let pLimit := ((s.vsys.seg.p.extractLsb' 64 64).toNat : Int)
     let one := fun (n : Nat) (data : Nat → QWord) (place : Nat → Place) (va : Nat → Nat) => s.lanes.map fun l =>
       ({ lane := l, place := place l, va := va l, n, data := data l, dead := false } : Access)
     let global := fun (i : Instr) (c : Counter) (kind : BitVec 5) (act : OpAct) (n : Nat) (k : AccessKind) f typed data =>
       Checked i s kind (fun l => s.globalVerdict (ea f l) n n k typed)
         (s.Enters i c act (one n data (fun l => s.globalPlace k (ea f l)) fun l => (ea f l).toNat))
     let stack := fun (i : Instr) (c : Counter) (kind : BitVec 5) (act : OpAct) (n : Nat) (k : AccessKind) typed data =>
       Checked i s kind (fun l =>
           if pLimit < ea .zx l + n then .fails .segmentBounds (BitVec.ofInt 64 (ea .zx l))
           else if (pBase l + ea .zx l) % n ≠ 0 then .fails .misalignment (BitVec.ofInt 64 (pBase l + ea .zx l))
           else s.pageVerdict (pBase l + ea .zx l) k typed)
         (s.Enters i c act (one n data (fun l => s.globalPlace k (pBase l + ea .zx l)) fun l => (pBase l + ea .zx l).toNat))
     let pad := fun (i : Instr) (c : Counter) (kind : BitVec 5) (act : OpAct) (n : Nat) f data =>
       Checked i s kind (fun l =>
           if ea f l < 0 ∨ sLimit < ea f l + n then .fails .segmentBounds (BitVec.ofInt 64 (ea f l))
           else if ea f l % n ≠ 0 then .fails .misalignment (BitVec.ofInt 64 (ea f l)) else .passes)
         (s.Enters i c act (one n data (fun l => .spad s.cur.core (sBase + (ea f l).toNat)) fun l => (ea f l).toNat))
     let window := fun (i : Instr) (c : Counter) (kind : BitVec 5) (act : OpAct) (n : Nat) f data =>
       let peer := fun l => 4 * (s.cur.core / 4) + (ea f l).toNat / 2 ^ 22
       let at_ := fun l => (ea f l).toNat % 2 ^ 22
       Checked i s kind (fun l =>
           if ea f l < 0 ∨ 2 ^ 24 < ea f l + n ∨ 3 * 2 ^ 20 < ea f l % 2 ^ 22 + n then
             .fails .segmentBounds (BitVec.ofInt 64 (ea f l))
           else if ea f l % n ≠ 0 then .fails .misalignment (BitVec.ofInt 64 (ea f l))
           else if ∃ e, e ∈ s.blocks ∧ e.2.context = s.block.context ∧ e.2.holdsPad (peer l) (at_ l) = true then .passes
           else .fails .permission (BitVec.ofInt 64 (ea f l)))
         (s.Enters i c act (one n data (fun l => .spad (peer l) (at_ l)) fun l => (ea f l).toNat))
     let stored := fun (w : StoreWidth) l => match w with
       | .b128 => s.readVPair (x + 2) l ++ s.readVPair x l
       | .b64 => (s.readVPair x l).setWidth 128
       | _ => (s.readV x l).setWidth 128
     let operand := fun (fn : AtomFn) l => match fn with
       | .casB32 => (s.readV (x + 1) l).setWidth 64 ++ (s.readV x l).setWidth 64
       | .casB64 => s.readVPair (x + 2) l ++ s.readVPair x l
       | _ => if fn.wide then (s.readVPair x l).setWidth 128 else (s.readV x l).setWidth 128
     (∀ w f, f ≠ .prv → global (.ldg x o base w f) .ld 1 (.load w x) w.bytes .read f read fun _ => 0) ∧
     (∀ w f, f ≠ .prv → global (.stg x o base w f) .st 2 .store w.bytes .write f write (stored w)) ∧
     (∀ w, stack (.ldg x o base w .prv) .ld 1 (.load w x) w.bytes .read read fun _ => 0) ∧
     (∀ w, stack (.stg x o base w .prv) .st 2 .store w.bytes .write write (stored w)) ∧
     (∀ w f, pad (.lds x o base w f) .ld 1 (.load w x) w.bytes f fun _ => 0) ∧
     (∀ w f, pad (.sts x o base w f) .st 2 .store w.bytes f (stored w)) ∧
     (∀ w f, window (.ldc x o base w f) .ld 1 (.load w x) w.bytes f fun _ => 0) ∧
     (∀ w f, window (.stc x o base w f) .st 2 .store w.bytes f (stored w)) ∧
     (∀ sc, global (.lda x o base true sc) .ld 1 (.load .b64 x) 8 .read .zx read fun _ => 0) ∧
     (∀ sc, global (.lda x o base false sc) .ld 1 (.load .b32 x) 4 .read .zx read fun _ => 0) ∧
     (∀ sc, global (.stl x o base true sc) .st 2 .store 8 .write .zx write (stored .b64)) ∧
     (∀ sc, global (.stl x o base false sc) .st 2 .store 4 .write .zx write (stored .b32)) ∧
     (∀ fn, global (.atom x o base fn) .ld 3 (.atom fn x) fn.bytes .atomic .zx write (operand fn)) ∧
     (∀ fn, global (.atoma x o base fn) .ld 3 (.atom fn x) fn.bytes .atomic .zx write (operand fn)) ∧
     (∀ fn, pad (.atoms x o base fn) .ld 3 (.atom fn x) fn.bytes .zx (operand fn)) ∧
     ∀ fn, Checked (.red x o base fn) s 2
       (fun l => if 2 ^ 60 < ea .zx l + fn.bytes then .fails .segmentBounds (BitVec.ofInt 64 (ea .zx l))
         else if ea .zx l % fn.bytes ≠ 0 then .fails .misalignment (BitVec.ofInt 64 (ea .zx l))
         else match windowAt s.vcontext (ea .zx l).toNat with
           | some (k, _) => if winOp (s.vcontext.windows.get k 0) = fn.code then .passes
               else .fails .permission (BitVec.ofInt 64 (ea .zx l))
           | none => s.pageVerdict (ea .zx l) .write write)
       (s.Enters (.red x o base fn) .st (.red fn) (one fn.bytes (operand fn)
         (fun l => match windowAt s.vcontext (ea .zx l).toNat with
           | some (k, off) => .window k off (winHome (s.vcontext.windows.get k 0)) (winGroup (s.vcontext.windows.get k 0))
           | none => s.globalPlace .write (ea .zx l))
         fun l => (ea .zx l).toNat)))

/-- R264 to R286: the lattice words: what stops a lane, and the operation that enters when none is stopped. LLDGE waits until every
lane's cell stands at its threshold; LSYNC for a lap that begins after the group's writes to the region are performed. Where the
spec leaves a choice the model's is stated: log entry 42. -/
def Obligations.LatticeWords : Prop :=
  ∀ (s : State) (x o : VReg) (base : SReg),
    let ea := fun l => ((s.readPair base).toNat : Int) + (s.readV o l).toNat
    let type := fun (e : DWord) => latTypeOf (e.extractLsb' 12 4)
    let size := fun (t : LatType) => match t with
      | .maxN64 | .orB64 => 8
      | .cnt8x32 => 32
      | _ => 4
    let width := fun (t : LatType) => match t with
      | .maxN64 | .orB64 => LatWidth.b64
      | .cnt8x32 => .cnt
      | _ => .b32
    let bytes := fun (w : LatWidth) => match w with
      | .b32 => 4 | .b64 => 8 | .cnt => 32
    let typed := fun (p : LatType → Nat → Bool) (e : DWord) (va : Nat) =>
      s.usable e va && match type e with
        | some t => p t va
        | none => false
    let value := fun (ty : LatType) l => if size ty = 8 then (s.readVPair x l).setWidth 128 else (s.readV x l).setWidth 128
    let place := fun k l => s.globalPlace k (ea l)
    let slot := fun l => match place .write l with
      | .mem pa => .mem (pa + 4 * vdieOf s.vcontext (s.cur.core / 64))
      | q => q
    let one := fun (n : Nat) (data : Nat → QWord) (place : Nat → Place) => s.lanes.map fun l =>
      ({ lane := l, place := place l, va := (ea l).toNat, n, data := data l, dead := false } : Access)
    let joins := fun (i : Instr) (act : OpAct) (ty : LatType) =>
      Checked i s 18 (fun l => s.globalVerdict (ea l) (size ty) (size ty) .write (typed fun t _ => t == ty))
        (if ty = .cnt8x32 then s.Enters i .st act (one 4 (value ty) slot)
         else s.Enters i .st act (one (size ty) (value ty) (place .write)))
    let reads := fun (i : Instr) (w : LatWidth) (passes : Prop) =>
      Checked i s 17 (fun l => s.globalVerdict (ea l) (bytes w) (bytes w) .read (typed fun t _ => width t == w)) passes
    let enters := fun (i : Instr) (w : LatWidth) => s.Enters i .ld (.latRead w x) (one (bytes w) (fun _ => 0) (place .read))
    let cell := fun (w : LatWidth) l => match place .read l with
      | .mem pa => if w = .cnt
          then min (2 ^ 32 - 1) ((List.range 8).map fun k => s.mem.read (pa + 4 * k) 4).sum
          else s.mem.read pa (bytes w)
      | _ => 0
    let atTop := fun (w : LatWidth) l =>
      let v := cell w l
      let t := if w = .b64 then (s.readVPair x l).toNat else (s.readV x l).toNat
      match type (s.passedPage .read (ea l).toNat).1 with
        | some .maxI32 => (BitVec.ofNat 32 t).toInt ≤ (BitVec.ofNat 32 v).toInt
        | some .minN32 => v ≤ t
        | some .orB32 | some .orB64 => v ||| t = v
        | some .andB32 => v &&& t = v
        | some .maxF32 => isNan32 v = true ∨ (isNan32 t = false ∧ rank32 t ≤ rank32 v)
        | _ => t ≤ v
    (∀ rel ty, joins (.ljoin x o base rel ty) (.join ty) ty) ∧
    (∀ ty, ty ≠ .cnt8x32 → joins (.lsta x o base ty) (.asserting ty) ty) ∧
    Checked (.linc o base) s 18 (fun l => s.globalVerdict (ea l) 32 32 .write (typed fun t _ => t == .cnt8x32))
      (s.Enters (.linc o base) .st .increment (one 4 (fun _ => 0) slot)) ∧
    (∀ w, reads (.lld x o base w) w (enters (.lld x o base w) w)) ∧
    (∀ w, reads (.lldAcq x o base w) w (enters (.lldAcq x o base w) w)) ∧
    (∀ w, (∀ l, l ∈ s.lanes → s.translate s.cur.core s.block.context (ea l).toNat =
        .leaf (s.passedPage .read (ea l).toNat).1 (s.passedPage .read (ea l).toNat).2) →
      (∀ l, l ∈ s.lanes → ∃ pa, place .read l = .mem pa) →
      reads (.lldge x o base w) w
        (((∀ l, l ∈ s.lanes → atTop w l) → enters (.lldge x o base w) w) ∧
         (¬ (∀ l, l ∈ s.lanes → atTop w l) → ∃ t, exec (.lldge x o base w) s = .next t ∧ t.last = .held ∧
           t.group.v = s.group.v ∧ t.split.pc = s.split.pc ∧ t.split.word = s.split.word ∧ t.gsys = s.gsys ∧
           s.SameMemory t))) ∧
    (∀ p, (∀ l, l ∈ s.lanes → s.translate s.cur.core s.block.context (ea l).toNat =
        .leaf (s.passedPage .read (ea l).toNat).1 (s.passedPage .read (ea l).toNat).2) →
      let ty := fun l => (type (s.passedPage .read (ea l).toNat).1).getD .maxN32
      Checked (.ltry x o base p) s 17
        (fun l => s.globalVerdict (ea l) 4 4 .read (typed fun t va => va % size t == 0))
        (∃ wide, s.Enters (.ltry x o base p) .ld (.latTry wide x p)
          (s.lanes.map fun l => { lane := l, place := place .read l, va := (ea l).toNat, n := size (ty l),
                                  data := BitVec.ofNat 128 (((type (s.passedPage .read (ea l).toNat).1).map latCode).getD 0 * 2 ^ 64 +
                                    (if size (ty l) = 8 then (s.readVPair x l).toNat else (s.readV x l).toNat)), dead := false }))) ∧
    (s.Issues (Instr.lsync base).facts →
      let a := (s.readPair base).toNat
      s.globalVerdict a 1 1 .read (typed fun _ _ => true) = .passes → ∀ q, s.vcontext.regionAt a = some q →
      s.gsys.st = [] → s.snap = none →
      let l := s.lapAt s.block.context q (s.cur.core / 64)
      (∀ k, (s.split.hold.bind Hold.lap) = some k → k < l.ends → exec (.lsync base) s = .next s.done) ∧
      ((s.split.hold.bind Hold.lap) = none → ∃ t h, exec (.lsync base) s = .next t ∧ t.last = .held ∧
        t.split.hold = some h ∧ h.lap = some (if l.inLap then l.ends + 1 else l.ends) ∧ t.gsys = s.gsys))

/-! ## Operations performed -/

/-- R4, R83 to R85, R215, R223 to R231, R249, R253: the completion of an operation that is alone in its counter, whose accesses lie
in memory and scratchpads that meet no error (nor does an entry of the context's tables that a walk to them reads). A load that
has read early delivers what it read then (R253). R101, R264 to R266, R277 to R285: the same of lattice operations and of
constant loads. An operation that waits for another, one access of which waits for an access of another, or that is complete, is
left alone. Where the spec leaves a choice the model's is stated: log entries 12, 43, 99, 104. -/
def Obligations.Completions : Prop :=
  (∀ (m : Memory) (a n x k : Nat), k < n →
    (m.write a n x).byte (a + k) = BitVec.ofNat 8 (x / 2 ^ (8 * k)) ∧
    (∀ b, b < a ∨ a + n ≤ b → (m.write a n x).byte b = m.byte b) ∧
    m.read a n = ((List.range n).map fun j => (m.byte (a + j)).toNat * 2 ^ (8 * j)).sum) ∧
  ∀ (s : State) (core slot : Nat) (p : Pending) (replies : List (Nat × QWord)),
    let gk := 16 * core + slot
    let g := s.groupAt gk
    let y := s.sysAt gk
    let context := (s.blockAt g.block).context
    let ready := p.finished = false ∧ (∀ q, q ∈ y.all → q.id ∈ p.after → q.finished = true) ∧
      ∀ e, e ∈ p.behind → e.1 < 96 → (∃ a, a ∈ p.accesses ∧ a.lane = e.1) → ∀ q, q ∈ y.all → q.id = e.2.1 →
        q.finished = true ∨ ∀ a, a ∈ q.accesses → a.lane ≠ e.2.2
    let sound := fun (reads : Bool) (a : Access) => a.dead = false ∧ a.lane < 96 ∧ match a.place with
      | .mem pa => s.frameUsable context (pa / 65536) = true ∧ (reads = true → s.poisonedAt pa a.n = false) ∧
          (s.heldByTlb context a.va = true ∨ s.badEntry context a.va = none)
      | .spad c _ => (s.clusterAt (c / 4)).entries = []
      | _ => False
    let short := ∀ a, a ∈ p.accesses → a.n ≤ 16
    let put := fun (m : Memory × Memory) (a : Access) (f : Nat → Nat) => match a.place with
      | .mem pa => (m.1.write pa a.n (f (m.1.read pa a.n)), m.2)
      | .spad c off => (m.1, m.2.write (padKey c off) a.n (f (m.2.read (padKey c off) a.n)))
      | _ => m
    let value := fun (m : Memory × Memory) (a : Access) => match a.place with
      | .mem pa => m.1.read pa a.n
      | .spad c off => m.2.read (padKey c off) a.n
      | _ => 0
    let all := BitVec.allOnes 96
    (¬ ready → (∀ w x q, p.act ≠ .latTry w x q) → findOp y.ld p.id = some p →
      ∃ t, exec (.loadCompletion core slot p.id all replies) s = .next t ∧ { t with tick := s.tick } = s) ∧
    (¬ ready → findOp y.st p.id = some p →
      ∃ t, exec (.storeCompletion core slot p.id all replies) s = .next t ∧ { t with tick := s.tick } = s) ∧
    (∀ w x, y.ld = [p] → p.act = .load w x → y.early = [] → ready → p.spoiled = [] → (∀ a, a ∈ p.accesses → sound true a) →
      (p.accesses.map Access.lane).Nodup → x.toNat + w.regs ≤ 128 →
      ∃ t, exec (.loadCompletion core slot p.id all replies) s = .next t ∧ (t.sysAt gk).ld = [] ∧ s.SameMemory t ∧
        (∀ a k, a ∈ p.accesses → p.mask.getLsbD a.lane = true → k < w.regs →
          (vectorOf (t.groupAt gk) (x.toNat + k)).lane a.lane =
            let v := value (s.mem, s.spad) a
            match w with
            | .n8 => BitVec.ofNat 32 (v % 2 ^ 8)
            | .i8 => (BitVec.ofNat 8 v).signExtend 32
            | .n16 => BitVec.ofNat 32 (v % 2 ^ 16)
            | .i16 => (BitVec.ofNat 16 v).signExtend 32
            | _ => BitVec.ofNat 32 (v / 2 ^ (32 * k))) ∧
        (∀ r l, l < 96 → p.mask.getLsbD l = false → (vectorOf (t.groupAt gk) r).lane l = (vectorOf g r).lane l) ∧
        { t.groupAt gk with v := g.v } = g ∧ ∀ r, r < x.toNat ∨ x.toNat + w.regs ≤ r → (t.groupAt gk).v.at? r = g.v.at? r) ∧
    (∀ n d a, y.ld = [p] → p.act = .scalarLoad n d → y.early = [] → ready → p.spoiled = [] → p.accesses = [a] → a.lane = 0 → sound true a →
      (n = 4 ∨ n = 8) → a.n = n → d.toNat + n / 4 ≤ 64 →
      ∃ t, exec (.loadCompletion core slot p.id all replies) s = .next t ∧ (t.sysAt gk).ld = [] ∧ s.SameMemory t ∧
        (d.toNat < 61 → (t.groupAt gk).s.get d.toNat 0 = BitVec.ofNat 32 (value (s.mem, s.spad) a)) ∧
        (n = 8 → d.toNat + 1 < 61 →
          (t.groupAt gk).s.get (d.toNat + 1) 0 = BitVec.ofNat 32 (value (s.mem, s.spad) a / 2 ^ 32)) ∧
        { t.groupAt gk with s := g.s } = g ∧
        ∀ r, r < d.toNat ∨ d.toNat + n / 4 ≤ r ∨ 61 ≤ r → (t.groupAt gk).s.at? r = g.s.at? r) ∧
    (y.st = [p] → p.act = .store → p.failed = [] → ready → (∀ a, a ∈ p.accesses → sound false a) →
      ∃ t, exec (.storeCompletion core slot p.id all replies) s = .next t ∧ (t.sysAt gk).st = [] ∧ t.groupAt gk = g ∧
        (t.mem, t.spad) = p.accesses.foldl (fun m a => put m a fun _ => a.data.toNat) (s.mem, s.spad) ∧ t.acc = s.acc) ∧
    (∀ fn, y.st = [p] → p.act = .red fn → p.failed = [] → short → ready → (∀ a, a ∈ p.accesses → sound true a) →
      ∃ t, exec (.storeCompletion core slot p.id all replies) s = .next t ∧ (t.sysAt gk).st = [] ∧ t.groupAt gk = g ∧
        (t.mem, t.spad) = p.accesses.foldl (fun m a => put m a fun old => fn.apply old a.data) (s.mem, s.spad)) ∧
    (∀ fn x, y.ld = [p] → p.act = .atom fn x → p.results = [] → p.spoiled = [] → short → ready → (∀ a, a ∈ p.accesses → sound true a) →
      (p.accesses.map Access.lane).Nodup → x.toNat + (if fn.wide then 2 else 1) ≤ 128 →
      (fn.swaps = true → ∀ a, a ∈ p.accesses → a.n = fn.bytes) →
      ∃ t, exec (.loadCompletion core slot p.id all replies) s = .next t ∧ (t.sysAt gk).ld = [] ∧
        let step := fun (m : Memory × Memory) (a : Access) =>
          if fn.swaps = true ∧ value m a ≠ a.data.toNat % 2 ^ (8 * a.n) then m else put m a fun old => fn.apply old a.data
        (t.mem, t.spad) = p.accesses.foldl step (s.mem, s.spad) ∧
        ∀ pre a post, p.accesses = pre ++ a :: post → p.mask.getLsbD a.lane = true →
          let old := value (pre.foldl step (s.mem, s.spad)) a
          (vectorOf (t.groupAt gk) x.toNat).lane a.lane = BitVec.ofNat 32 old ∧
          (fn.wide = true → (vectorOf (t.groupAt gk) (x.toNat + 1)).lane a.lane = BitVec.ofNat 32 (old / 2 ^ 32))) ∧
    (∀ w x a e, y.ld = [p] → p.act = .load w x → y.early = [e] → ready → p.spoiled = [] → p.accesses = [a] → sound true a →
      e.place = a.place → e.n = a.n → a.n ≠ 0 → p.mask.getLsbD a.lane = true → x.toNat + w.regs ≤ 128 →
      ∃ t, exec (.loadCompletion core slot p.id all replies) s = .next t ∧ (t.sysAt gk).ld = [] ∧ (t.sysAt gk).early = [] ∧
        s.SameMemory t ∧ ∀ k, k < w.regs →
          (vectorOf (t.groupAt gk) (x.toNat + k)).lane a.lane = (w.widen e.value).extractLsb' (32 * k) 32) ∧
    (∀ d a pa, y.ld = [p] → p.act = .constLoad d → ready → p.spoiled = [] → p.accesses = [a] → a.lane = 0 → a.n = 4 →
      a.place = .mem pa → sound true a → d.toNat < 61 →
      ∃ t, exec (.loadCompletion core slot p.id all replies) s = .next t ∧ (t.sysAt gk).ld = [] ∧ s.SameMemory t ∧
        let v := (t.groupAt gk).s.get d.toNat 0
        (v = BitVec.ofNat 32 (s.mem.read pa 4) ∨ (s.coreAt (gk / 16)).kcache.at? pa = some v) ∧
        { t.groupAt gk with s := g.s } = g ∧ ∀ r, r ≠ d.toNat → (t.groupAt gk).s.at? r = g.s.at? r) ∧
    (∀ ty, y.st = [p] → p.act = .join ty → p.failed = [] → short → ready → (∀ a, a ∈ p.accesses → sound true a) →
      ∃ t, exec (.storeCompletion core slot p.id all replies) s = .next t ∧ (t.sysAt gk).st = [] ∧ t.groupAt gk = g ∧
        (t.mem, t.spad) = p.accesses.foldl (fun m a => put m a fun old => ty.join old a.data.toNat) (s.mem, s.spad)) ∧
    (y.st = [p] → p.act = .increment → p.failed = [] → short → ready → (∀ a, a ∈ p.accesses → sound true a) →
      ∃ t, exec (.storeCompletion core slot p.id all replies) s = .next t ∧ (t.sysAt gk).st = [] ∧ t.groupAt gk = g ∧
        (t.mem, t.spad) = p.accesses.foldl (fun m a => put m a fun old => min (2 ^ 32 - 1) (old + 1)) (s.mem, s.spad)) ∧
    (∀ ty, y.st = [p] → p.act = .asserting ty → p.failed = [] → short → ready → (∀ a, a ∈ p.accesses → sound true a) →
      ∃ t, exec (.storeCompletion core slot p.id all replies) s = .next t ∧ (t.sysAt gk).st = [] ∧ t.groupAt gk = g ∧
        let one := fun (e : (Memory × Memory) × List (Access × Nat)) (a : Access) =>
          if ty.atLeast a.data.toNat (value e.1 a) then (put e.1 a fun _ => a.data.toNat, e.2) else (e.1, e.2 ++ [(a, value e.1 a)])
        let r := p.accesses.foldl one ((s.mem, s.spad), [])
        let lost := (t.sysAt gk).csr.lost
        (t.mem, t.spad) = r.1 ∧ (r.2 = [] → (t.sysAt gk).pendingFault = y.pendingFault ∧ lost = y.csr.lost) ∧
        (r.2 ≠ [] → g.phase ≠ .ended → g.phase ≠ .leaving →
          (y.pendingFault ≠ none → (t.sysAt gk).pendingFault = y.pendingFault ∧ lost = true) ∧
          (y.pendingFault = none → lost = y.csr.lost ∧ ∃ f e, (t.sysAt gk).pendingFault = some f ∧ e ∈ r.2 ∧
            (∀ o, o ∈ r.2 → e.1.lane ≤ o.1.lane) ∧ f.addr = BitVec.ofNat 64 e.1.va ∧ f.lane = e.1.lane ∧
            f.stored = e.1.data.setWidth 64 ∧ f.current = BitVec.ofNat 64 e.2 ∧
            ∀ l, l < 96 → (f.failed.getLsbD l = true ↔ ∃ o, o ∈ r.2 ∧ o.1.lane = l)))) ∧
    (∀ w x, y.ld = [p] → p.act = .latRead w x → y.early = [] → ready → p.spoiled = [] →
      (∀ a, a ∈ p.accesses → sound true a ∧ ∃ pa, a.place = .mem pa) → (p.accesses.map Access.lane).Nodup →
      let n := if w = .b64 then 2 else 1
      x.toNat + n ≤ 128 →
      ∃ t, exec (.loadCompletion core slot p.id all replies) s = .next t ∧ (t.sysAt gk).ld = [] ∧ s.SameMemory t ∧
        (∀ a pa k, a ∈ p.accesses → a.place = .mem pa → p.mask.getLsbD a.lane = true → k < n →
          let v := if w = .cnt then min (2 ^ 32 - 1) ((List.range 8).map fun j => s.mem.read (pa + 4 * j) 4).sum
            else s.mem.read pa a.n
          (vectorOf (t.groupAt gk) (x.toNat + k)).lane a.lane = BitVec.ofNat 32 (v / 2 ^ (32 * k))) ∧
        (∀ r l, l < 96 → p.mask.getLsbD l = false → (vectorOf (t.groupAt gk) r).lane l = (vectorOf g r).lane l) ∧
        { t.groupAt gk with v := g.v } = g ∧ ∀ r, r < x.toNat ∨ x.toNat + n ≤ r → (t.groupAt gk).v.at? r = g.v.at? r) ∧
    (∀ x pd (a : Access) pa, y.ld = [p] → p.act = .latTry false x pd → ready → p.accesses = [a] → a.place = .mem pa → sound true a →
      p.mask.getLsbD a.lane = true → p.spoiled = [] → p.spoiledPreds = [] → pd ≠ 7 → (tryType a).wide = false →
      tryType a ≠ .cnt8x32 → a.n = 4 →
      let meets := (tryType a).atLeast (s.mem.read pa 4) (tryThreshold a)
      (meets = false → ∃ t, exec (.loadCompletion core slot p.id all replies) s = .next t ∧ { t with tick := s.tick } = s) ∧
      (meets = true → ∃ t, exec (.loadCompletion core slot p.id all replies) s = .next t ∧ (t.sysAt gk).ld = [] ∧ s.SameMemory t ∧
        (vectorOf (t.groupAt gk) x.toNat).lane a.lane = BitVec.ofNat 32 (s.mem.read pa 4) ∧
        ((t.groupAt gk).p.get pd.toNat 0).getLsbD a.lane = true))

/-- R228 to R230: what an atomic operation of `8 × n` bits makes of the old value and its operand (for compare-and-swap the compare
value, with the swap value above it); R264 to R266: what a join makes of two values. -/
def Obligations.Operations : Prop :=
  (∀ (fn : AtomFn) (old v w : Nat),
    let b := if fn.wide then 64 else 32
    old < 2 ^ b → v < 2 ^ b → w < 2 ^ b →
    let sgn := fun (y : Nat) => if y < 2 ^ (b - 1) then (y : Int) else y - 2 ^ b
    let r := fn.apply old (BitVec.ofNat 128 (w * 2 ^ 64 + v))
    match fn with
    | .addB32 | .addB64 => r = (old + v) % 2 ^ b
    | .minI32 | .minI64 => (r = old ∨ r = v) ∧ sgn r ≤ sgn old ∧ sgn r ≤ sgn v
    | .maxI32 | .maxI64 => (r = old ∨ r = v) ∧ sgn old ≤ sgn r ∧ sgn v ≤ sgn r
    | .minN32 | .minN64 => r = min old v
    | .maxN32 | .maxN64 => r = max old v
    | .andB32 | .andB64 => r = old &&& v
    | .orB32 | .orB64 => r = old ||| v
    | .xorB32 | .xorB64 => r = old ^^^ v
    | .exchB32 | .exchB64 => r = v
    | .casB32 | .casB64 => r = if old = v then w else old
    | .addF32 => r = (Bin.f32.addOp .rne old v).1) ∧
  ∀ (ty : LatType) (a b : Nat), ty ≠ .cnt8x32 → a < 2 ^ (8 * ty.bytes) → b < 2 ^ (8 * ty.bytes) →
    let j := ty.join a b
    ty.join b a = j ∧ ty.join a a = (if ty = .maxF32 ∧ isNan32 a = true then 0x7FC00000 else a) ∧
    ty.atLeast j a = true ∧ ty.atLeast j b = true ∧
    (∀ c, c < 2 ^ (8 * ty.bytes) → ty.atLeast c a = true → ty.atLeast c b = true → ty.atLeast c j = true) ∧
    match ty with
    | .maxN32 | .maxN64 | .cnt8x32 => j = max a b
    | .maxI32 => (j = a ∨ j = b) ∧ signed32 j = max (signed32 a) (signed32 b)
    | .minN32 => j = min a b
    | .orB32 | .orB64 => j = a ||| b
    | .andB32 => j = a &&& b
    | .maxF32 => if isNan32 a = true ∨ isNan32 b = true then j = 0x7FC00000 else (j = a ∨ j = b) ∧ rank32 j = max (rank32 a) (rank32 b)

/-! ## Tags, ordering, copies, relays, matrices, system words -/

/-- R237 to R239: TAGL, TAGS and TAGI on the slots of the issuing block. R241 to R247, R252, R253, R260: what an acquire, a release
and the ordering words put in order, and PUBLISH. An operation that enters waits for those in `mustPrecede`; a single access of
it waits for those in `touching`, the accesses to one of its bytes; an LTRY holds up none of them. A load may have read early
(`takeEarly`), but before nothing that it must follow: a word that is not quiet ends every early read of its group. A FLUSHH of
length 0 orders nothing; a PUBLISH to a page that is no coherent window, a lattice page among them, raises the permission fault.
Where the spec leaves a choice the model's is stated: log entries 11, 47, 48, 104. -/
def Obligations.TagsAndOrdering : Prop :=
  (∀ (s : State) (d a key : SReg) (p : PReg), s.snap = none → (s.core.tags.map Prod.fst).Nodup →
     let tag := fun (t : State) (k : Nat) => t.core.tags.at? (s.block.slot0 + k)
     let own := fun j => s.block.slot0 ≤ j ∧ j < s.block.slot0 + s.block.slots
     (s.Issues (Instr.tagl d a p).facts →
       (∀ k, k < s.block.slots → tag s k = some (s.readS a) → (∀ j, j < s.block.slots → j ≠ k → tag s j ≠ some (s.readS a)) →
         exec (.tagl d a p) s = .next ((s.writeS d (BitVec.ofNat 32 k)).writePAll p true).done) ∧
       ((∀ k, k < s.block.slots → tag s k ≠ some (s.readS a)) →
         exec (.tagl d a p) s = .next ((s.writeS d 0xFFFFFFFF).writePAll p false).done)) ∧
     (s.Issues (Instr.tags a key).facts →
       let k := (s.readS a).toNat
       (s.block.slots ≤ k → exec (.tags a key) s = .next (s.fault .segmentBounds 0 none)) ∧
       (k < s.block.slots → ∃ t, exec (.tags a key) s = .next t ∧ tag t k = some (s.readS key) ∧
         (∀ j, j < s.block.slots → j ≠ k → tag t j = if tag s j = some (s.readS key) then none else tag s j) ∧
         (∀ j, ¬ own j → t.core.tags.at? j = s.core.tags.at? j) ∧ t.group.s = s.group.s ∧ t.blocks = s.blocks ∧
         s.SameMemory t ∧ t.last = .done)) ∧
     (s.Issues (Instr.tagi a).facts →
       let k := (s.readS a).toNat
       (s.block.slots ≤ k → exec (.tagi a) s = .next (s.fault .segmentBounds 0 none)) ∧
       (k < s.block.slots → ∃ t, exec (.tagi a) s = .next t ∧ tag t k = none ∧
         (∀ j, j ≠ s.block.slot0 + k → t.core.tags.at? j = s.core.tags.at? j) ∧ t.group.s = s.group.s ∧ t.blocks = s.blocks ∧
         s.SameMemory t ∧ t.last = .done))) ∧
  ((∀ (g : GroupSys) (accs : List Access) (q : Pending) (writes release : Bool), q ∈ g.ld ++ g.st → q.finished = false → q.tries = false →
     (release = true ∨ q.id ∈ g.acqAfter ∨ (writes = true ∧ q.id ∈ g.relAfter) → q.id ∈ mustPrecede g writes release) ∧
     ∀ a b, a ∈ q.accesses → b ∈ accs → a.place.meets a.n b.place b.n = true → (b.lane, q.id, a.lane) ∈ touching g accs) ∧
   (∀ (s : State) (c : Counter) (act : OpAct) (accs : List Access) (acq rel : Bool),
     ∃ p, (s.post c act accs acq rel).gsys.list c = s.gsys.list c ++ [p] ∧ p.accesses = accs ∧
       p.after = mustPrecede s.gsys act.writes rel ∧ p.behind = touching s.gsys accs) ∧
   (∀ (s : State) (e : EarlyPick) (pa : Nat),
     let gk := 16 * e.core + e.slot
     let context := (s.blockAt (s.groupAt gk).block).context
     (s.groups.at? gk).isSome = true → e.n ∈ [1, 2, 4, 8, 16] → e.addr % e.n = 0 → s.earlyPlace e context = some (.mem pa) →
     (∀ q a, q ∈ openOps (s.sysAt gk) → q.tries = false ∧ q.id ∉ (s.sysAt gk).acqAfter ∧
       (a ∈ q.accesses → a.place.meets a.n (.mem pa) e.n = false)) →
     s.frameUsable context (pa / 65536) = true → s.poisonedAt pa e.n = false → s.badEntry context e.addr = none →
     let t := takeEarly s e
     { t with sys := s.sys } = s ∧ { t.sysAt gk with early := (s.sysAt gk).early } = s.sysAt gk ∧
       ∃ x, x ∈ (t.sysAt gk).early ∧ x.place = .mem pa ∧ x.n = e.n ∧ x.value.toNat = s.mem.read pa e.n) ∧
   (∀ (s t : State) (l : List Reading) (i : Instr), t.last ≠ .held → .plain i ∈ l → i.quiet = false → (∀ a b c d, i ≠ .wait a b c d) →
     ((s.afterWords l t).sysAt s.gkey).early = []) ∧
   ∀ (s : State) (x o : VReg) (base len : SReg) (sc : Scope), s.snap = none →
     let ea := fun l => ((s.readPair base).toNat : Int) + (s.readV o l).toNat
     let here := fun (n : Nat) (k : AccessKind) (typed : DWord → Nat → Bool) =>
       ∀ l, l ∈ s.lanes → s.globalVerdict (ea l) n n k typed = .passes
     let read := fun e va => !e.getLsbD 11 || s.usable e va
     let write := fun (e : DWord) (_ : Nat) => !e.getLsbD 11
     let opened := fun q => q ∈ s.gsys.ld ++ s.gsys.st ∧ q.finished = false
     let same := fun (t : State) => t.gsys.ld = s.gsys.ld ∧ t.gsys.st = s.gsys.st ∧ t.gsys.cp = s.gsys.cp ∧ t.gsys.tm = s.gsys.tm ∧
       { t.group with splits := s.group.splits } = s.group ∧ s.SameMemory t ∧ t.last = .done
     (s.Issues (Instr.lda x o base false sc).facts → here 4 .read read →
       ∃ t, exec (.lda x o base false sc) s = .next t ∧ s.nextId ∈ t.gsys.acqAfter) ∧
     (s.Issues (Instr.stl x o base false sc).facts → here 4 .write write →
       ∃ t p, exec (.stl x o base false sc) s = .next t ∧ t.gsys.st = s.gsys.st ++ [p] ∧
          ∀ q, opened q → q.tries = false → q.id ∈ p.after) ∧
     (∀ sem, s.Issues (Instr.fence sem sc).facts → ∃ t, exec (.fence sem sc) s = .next t ∧ same t ∧
       (sem ≠ .rel → ∀ q, q ∈ s.gsys.ld → q.finished = false → q.id ∈ t.gsys.acqAfter) ∧
       (sem ≠ .acq → ∀ q, opened q → q.id ∈ t.gsys.relAfter)) ∧
     (s.Issues Instr.ifence.facts → ∃ t, exec .ifence s = .next t ∧ t.core.icache = [] ∧ t.core.kcache = [] ∧ t.gsys = s.gsys ∧
       (∀ k n y, k / 16 = s.cur.core → (k, n) ≠ (s.gkey, s.cur.split) → s.groups.at? k ≠ none →
         (s.groupAt k).splits.at? n = some y → y.word = 0 → ((t.groupAt k).splitAt n).packet = none) ∧ s.SameMemory t) ∧
     (s.Issues (Instr.publish base).facts →
       let a : Int := (s.readPair base).toNat
       let verdict := s.globalVerdict a 8 8 .atomic fun _ _ => true
       (∀ cls b, verdict = .fails cls b → exec (.publish base) s = .next (s.fault cls b none)) ∧
       (∀ pages, verdict = .absent pages → exec (.publish base) s = .next (s.suspend pages 3)) ∧
       (verdict = .passes → (∀ pa, s.globalPlace .atomic a ≠ .mem pa) →
         exec (.publish base) s = .next (s.fault .permission (s.readPair base) none)) ∧
       (verdict = .passes → ∀ pa, s.globalPlace .atomic a = .mem pa →
         (s.inCoherentWindow pa = false → exec (.publish base) s = .next (s.fault .permission (s.readPair base) none)) ∧
         (s.inCoherentWindow pa = true → (s.afterRelease fun t => t.publishAt pa).last = .held → ∃ t h,
           exec (.publish base) s = .next t ∧ t.last = .held ∧ t.split.hold = some h ∧ h.publish = some pa) ∧
         (s.inCoherentWindow pa = true → GroupSys.waiting s.gsys = [] → s.poisonedAt pa 8 = false →
           ∃ t, exec (.publish base) s = .next t ∧ t.mem.read pa 8 = (s.mem.read pa 8 + 1) % 2 ^ 64 ∧
             (∀ b, b < pa ∨ pa + 8 ≤ b → t.mem.byte b = s.mem.byte b) ∧ (∀ b, t.spad.byte b = s.spad.byte b) ∧
             t.last = .done))) ∧
     (s.Issues (Instr.flushh base len).facts →
       let b := (s.readPair base).toNat
       let n := (s.readS len).toNat
       (2 ^ 60 < b + n → exec (.flushh base len) s = .next (s.fault .segmentBounds (s.readPair base) none)) ∧
       (b + n ≤ 2 ^ 60 → ∃ t, exec (.flushh base len) s = .next t ∧ same t ∧
         (n = 0 → ∀ i, i ∈ t.gsys.relAfter ↔ i ∈ s.gsys.relAfter) ∧
         ∀ q a, 0 < n → opened q → q.act.writes = true → a ∈ q.accesses → (∀ c off, a.place ≠ .spad c off) →
           b < a.va / 128 * 128 + 128 → a.va / 128 * 128 < b + n → q.id ∈ t.gsys.relAfter)))

/-- R292 to R305: the copy words. COPY's checks in the order of R296 and its request; PERSIST's entry; a collective copy begun by
one slice, joined by later ones and started by its final one. A word that needs an entry of a full queue waits. Where the spec
leaves a choice the model's is stated: log entries 15, 42, 49. -/
def Obligations.CopyWords : Prop :=
  (∀ (s : State) (r : SReg) (dir : CopyDir) (bm : BitVec 5) (b : Bool) (ch : Chan), s.snap = none →
    s.Issues (Instr.copy r dir bm b ch).facts →
    let src := (s.readPair r).toNat
    let dst := (s.readPair (r + 2)).toNat
    let n := (s.readS (r + 4)).toNat
    let fine := fun (sp : CopySpace) => if sp = .f then 4096 else 16
    let sBase := (s.gsys.seg.s.extractLsb' 0 64).toNat
    let past := fun (sp : CopySpace) (a : Nat) => match sp with
      | .g => 2 ^ 60 < a + n
      | .s => (s.gsys.seg.s.extractLsb' 64 64).toNat < a + n
      | .c => 2 ^ 24 < a + n ∨ 3 * 2 ^ 20 < a % 2 ^ 22 + n
      | .f => s.psize s.block.context < a + n
    let side := fun (sp : CopySpace) (a : Nat) => match sp with
      | .g => Side.global a
      | .s => .pad s.cur.core (sBase + a)
      | .c => .pad (4 * (s.cur.core / 4) + a / 2 ^ 22) (a % 2 ^ 22)
      | .f => .flash a
    let go := exec (.copy r dir bm b ch) s
    let chk := fun k x => s.checkPage s.cur.core s.block.context s.split.rejected x k
    let reads := if dir.source = .g then pageFirsts src n else []
    let writes := if dir.dest = .g then pageFirsts dst n else []
    let row1 := src % fine dir.source = 0 ∧ dst % fine dir.dest = 0 ∧ n % fine dir.source = 0 ∧ n % fine dir.dest = 0
    let row3 := past dir.dest dst ∨ (b = true ∧ 32 < bm.toNat + (n + 32767) / 32768)
    let inside := row1 ∧ ¬ past dir.source src ∧ ¬ row3
    let busy := ∃ x, x ∈ reads ++ writes ∧ s.missHeld s.cur.core s.block.context x = true
    let gone := fun x k => chk k x = .absent
    let missing := (∃ x, x ∈ reads ∧ gone x .read) ∨ ∃ x, x ∈ writes ∧ gone x .write
    let row5 := fun x => (x ∈ reads ∧ ∃ c, chk .read x = .fails c) ∨ (x ∈ writes ∧ ∃ c, chk .write x = .fails c) ∨
      s.slotDenied dir.source src n = some x ∨ s.slotDenied dir.dest dst n = some x
    let row6 := fun x => (x ∈ reads ∧ ∃ e l, chk .read x = .page e l ∧ e.getLsbD 11 = true) ∨
      (x ∈ writes ∧ ∃ e l, chk .write x = .page e l ∧ e.getLsbD 11 = true)
    let row7 := ch ≠ 63 ∧ (s.relayOpen ch.toNat true = false ∨ s.readS (r + 5) = 0xFFFFFFFF)
    (32 ≤ s.core.copies.length → go = .next s.stalled) ∧
    (s.core.copies.length < 32 →
      (src % fine dir.source ≠ 0 → go = .next (s.fault .misalignment (BitVec.ofNat 64 src) none)) ∧
      (src % fine dir.source = 0 → dst % fine dir.dest ≠ 0 →
        go = .next (s.fault .misalignment (BitVec.ofNat 64 dst) none)) ∧
      (src % fine dir.source = 0 → dst % fine dir.dest = 0 → n % fine dir.source ≠ 0 ∨ n % fine dir.dest ≠ 0 →
        go = .next (s.fault .misalignment 0 none)) ∧
      (row1 → past dir.source src → go = .next (s.fault .segmentBounds (BitVec.ofNat 64 src) none)) ∧
      (row1 → ¬ past dir.source src → past dir.dest dst → go = .next (s.fault .copyBounds (BitVec.ofNat 64 dst) none)) ∧
      (row1 → ¬ past dir.source src → ¬ past dir.dest dst → row3 → go = .next (s.fault .copyBounds 0 none)) ∧
      (inside → busy → go = .next s.stalled) ∧
      (inside → ¬ busy → missing → ∃ pages, go = .next (s.suspendFor pages 0xFF) ∧
        ∀ p k, (p, k) ∈ pages ↔ (k = 9 ∧ ∃ x, x ∈ reads ∧ gone x .read ∧ p = x / 65536) ∨
          (k = 10 ∧ ∃ x, x ∈ writes ∧ gone x .write ∧ p = x / 65536)) ∧
      (inside → ¬ busy → ¬ missing → (∃ x, row5 x) →
        ∃ x, row5 x ∧ go = .next (s.fault .permission (BitVec.ofNat 64 x) none)) ∧
      (inside → ¬ busy → ¬ missing → ¬ (∃ x, row5 x) → (∃ x, row6 x) →
        ∃ x, row6 x ∧ go = .next (s.fault .latticeType (BitVec.ofNat 64 x) none)) ∧
      (inside → ¬ busy → ¬ missing → ¬ (∃ x, row5 x) → ¬ (∃ x, row6 x) → row7 →
        go = .next (s.fault .permission 0 none)) ∧
      (inside → ¬ busy → ¬ missing → ¬ (∃ x, row5 x) → ¬ (∃ x, row6 x) → ¬ row7 → ∃ t q p, go = .next t ∧
        t.core.copies = s.core.copies ++ [q] ∧
        q.source = side dir.source src ∧ q.dest = side dir.dest dst ∧ q.len = n ∧ q.tensor = none ∧
        q.bm = (if b then some bm.toNat else none) ∧ q.ch = ch ∧ q.baton = s.readS (r + 5) ∧
        q.entries = [(s.gkey, p.id)] ∧ q.left = List.range (n / 16) ∧ q.started = false ∧
        (∀ y, y ∈ s.gsys.ld ++ s.gsys.st → y.finished = false → y.id ∈ q.after) ∧
        t.gsys.cp = s.gsys.cp ++ [p] ∧ p.act = .copy q.id ∧ p.finished = false ∧ s.SameMemory t ∧
        { t.group with splits := s.group.splits } = s.group ∧ t.last = .done))) ∧
  (∀ s : State, s.Issues Instr.persist.facts → ∃ units, s.Enters .persist .cp (.persist units) [] ∧
    ∀ u f, s.flashOf s.block.context = some f → (u ∈ units ↔ ∃ w, w ∈ f.late ∧ u = (w.copy, w.unit) ∧
      ∀ c k q, (c, k) ∈ s.cores → q ∈ k.copies → q.id ≠ w.copy)) ∧
  ∀ (s : State) (r : SReg) (id : BitVec 4) (bm : BitVec 5) (ch : Chan), s.snap = none →
    s.Issues (Instr.tcopy r id bm ch).facts →
    let l := s.sliceBlock r
    let a := recOf l
    let go := exec (.tcopy r id bm ch) s
    let record := s.readRecord a
    let rows := (firstRowOf l, rowCountOf l)
    (s.block.gathers.at? id.toNat = none → 32 ≤ s.core.copies.length → go = .next s.stalled) ∧
    (s.block.gathers.at? id.toNat = none → s.core.copies.length < 32 →
      (∀ cls x, s.recordCheck a true = .fails cls x → go = .next (s.fault cls (BitVec.ofNat 64 x) none)) ∧
      (∀ pages, s.recordCheck a true = .absent pages → go = .next (s.suspendFor pages 0xFF)) ∧
      (s.recordCheck a true = .passes → GroupSys.waiting s.gsys = [] →
        s.engineHazard s.cur.core s.block.context a 64 .read = none →
        (∃ pa, s.placeAt s.cur.core s.block.context a .read = .mem pa) →
        let t := tensorOf l record (rowSet [rows])
        (∀ cls x, s.tileCheck l record bm = .fails cls x → go = .next (s.fault cls (BitVec.ofNat 64 x) none)) ∧
        (∀ cls x, s.tileCheck l record bm = .passes → s.sliceCheck l t (slicesOf l = 1) ch = .fails cls x →
          go = .next (s.fault cls (BitVec.ofNat 64 x) none)) ∧
        (∀ pages, s.tileCheck l record bm = .passes → s.sliceCheck l t (slicesOf l = 1) ch = .absent pages →
          go = .next (s.suspendFor pages 0xFF)) ∧
        (s.tileCheck l record bm = .passes → s.sliceCheck l t (slicesOf l = 1) ch = .passes →
          ∃ u p, go = .next u ∧ u.gsys.cp = s.gsys.cp ++ [p] ∧ p.act = .copy s.nextId ∧ u.last = .done ∧
            (∀ q, q ∈ u.core.copies → q.id = s.nextId → q.ready = decide (slicesOf l = 1)) ∧
            (∃ q, q ∈ u.core.copies ∧ q.id = s.nextId ∧ (slicesOf l = 1 → q.tensor = some t ∧ q.left = t.units) ∧
              q.dest = .pad s.cur.core ((s.gsys.seg.s.extractLsb' 0 64).toNat + (regOf l 2).toNat) ∧
              q.bm = (if setsBits l then some bm.toNat else none) ∧ q.ch = ch ∧ q.baton = regOf l 11) ∧
            (slicesOf l ≠ 1 → ∃ g, u.block.gathers.at? id.toNat = some g ∧ g.request = s.nextId ∧ g.record = record ∧
              g.rows = [rows] ∧ g.slices = [(s.gkey, p.id)]) ∧
            (slicesOf l = 1 → u.block.gathers.at? id.toNat = none)))) ∧
    (∀ g, s.block.gathers.at? id.toNat = some g →
      (a % 64 ≠ 0 → go = .next (s.fault .misalignment (BitVec.ofNat 64 a) none)) ∧
      (a % 64 = 0 → g.fields ≠ sliceFields l ∨ g.bm ≠ bm ∨ g.ch ≠ ch → go = .next (s.fault .permission 0 none)) ∧
      (a % 64 = 0 → g.fields = sliceFields l → g.bm = bm → g.ch = ch →
        let t := tensorOf l g.record (rowSet (g.rows ++ [rows]))
        let final := g.slices.length + 1 = slicesOf l
        (tileRowsOf l < firstRowOf l + rowCountOf l → go = .next (s.fault .copyBounds 0 none)) ∧
        (∀ cls x, s.sliceCheck l t final ch = .fails cls x → go = .next (s.fault cls (BitVec.ofNat 64 x) none)) ∧
        (∀ pages, s.sliceCheck l t final ch = .absent pages → go = .next (s.suspendFor pages 0xFF)) ∧
        (∀ r, s.sliceCheck l t final ch = .passes → s.core.copies.find? (fun q => q.id == g.request) = some r →
          ∃ u p, go = .next u ∧ u.gsys.cp = s.gsys.cp ++ [p] ∧ p.act = .copy r.id ∧ u.last = .done ∧
            (¬ final → (∃ h, u.block.gathers.at? id.toNat = some h ∧ h.rows = g.rows ++ [rows] ∧
                h.slices = g.slices ++ [(s.gkey, p.id)] ∧ h.request = g.request ∧ h.record = g.record ∧ h.fields = g.fields) ∧
              ∃ q, q ∈ u.core.copies ∧ q.id = r.id ∧ q.entries = r.entries ++ [(s.gkey, p.id)] ∧ q.ready = r.ready ∧
                q.tensor = r.tensor) ∧
            (final → u.block.gathers.at? id.toNat = none ∧ ∃ q rest, u.core.copies = rest ++ [q] ∧ q.id = r.id ∧
              q.ready = true ∧ q.tensor = some t ∧ q.left = t.units ∧ q.len = tileRowsOf l * t.rowBytes ∧
              q.entries = r.entries ++ [(s.gkey, p.id)]))))

/-- R306 to R315: bitmaps and relays. BMCLR comes before bits that are set on its own clock. TRYW waits for its bits and ends after
256 × 2^K clocks; RSTAT's fields, read in a step that changes no relay. Where the spec leaves a choice the model's is stated:
log entries 35, 39. -/
def Obligations.BitmapsAndRelays : Prop :=
  ∀ (s : State) (bm : BitVec 5) (mask d a : SReg) (p : PReg) (k : BitVec 4) (ch : Chan) (x : SSrc), s.snap = none →
    let bits := s.block.bitmaps.get bm.toNat 0
    let m := s.readPair mask
    let full := bits &&& m = m
    let fresh : DWord := match s.block.setAt.at? bm.toNat with
      | some (t, b) => if t = s.now then b else 0
      | none => 0
    (s.Issues (Instr.tryw bm mask p k).facts →
      let since := ((s.split.hold.map Hold.since).getD s.now)
      let late := since + 256 * 2 ^ k.toNat ≤ s.now
      (full → exec (.tryw bm mask p k) s = .next (s.writePAll p true).done) ∧
      (¬ full → late → exec (.tryw bm mask p k) s = .next (s.writePAll p false).done) ∧
      (¬ full → ¬ late → ∃ t h, exec (.tryw bm mask p k) s = .next t ∧ t.last = .held ∧ t.split.hold = some h ∧ h.since = since ∧
        t.split.pc = s.split.pc ∧ t.split.word = s.split.word ∧ t.group.p = s.group.p ∧ t.blocks = s.blocks)) ∧
    (s.Issues (Instr.bmtest bm mask p).facts → exec (.bmtest bm mask p) s = .next (s.writePAll p (bits &&& m == m)).done) ∧
    (s.Issues (Instr.bmclr bm mask).facts → ∃ t, exec (.bmclr bm mask) s = .next t ∧ t.last = .done ∧
      t.block.bitmaps.get bm.toNat 0 = bits &&& ~~~ (m &&& ~~~ fresh) ∧
      (∀ j, j ≠ bm.toNat → t.block.bitmaps.get j 0 = s.block.bitmaps.get j 0) ∧
      { t.block with bitmaps := s.block.bitmaps, changes := s.block.changes } = s.block ∧ s.SameMemory t) ∧
    GivesScalar (.rpush ch x) s (.chan ch) [x] (s.srcValue x) ∧
    GivesScalar (.rpop d ch true) s (.reg d) [.pop ch] (s.srcValue (.pop ch)) ∧
    GivesScalar (.rpop d ch false) s (.reg d) [.peek ch] (s.srcValue (.peek ch)) ∧
    (s.Issues (Instr.rfree d ch a).facts →
      let r := s.block.relays.get ch.toNat Relay.unbound
      let n := min (s.readS a).toNat r.held
      (r.desc.strict = true → s.group.stage.toNat ≠ r.desc.cons → exec (.rfree d ch a) s = .next (s.fault .permission 0 none)) ∧
      (r.desc.strict = false ∨ s.group.stage.toNat = r.desc.cons → GroupSys.waiting s.gsys = [] → ∃ t,
        exec (.rfree d ch a) s = .next t ∧ t.last = .done ∧
        t.block.relays.get ch.toNat Relay.unbound = { r with held := r.held - n } ∧
        (∀ c, c ≠ ch.toNat → t.block.relays.at? c = s.block.relays.at? c) ∧
        (d.toNat < 61 → t.group.s.get d.toNat 0 = BitVec.ofNat 32 n) ∧ s.SameMemory t)) ∧
    (s.Issues (Instr.rstat d ch).facts →
      let r := s.block.relays.get ch.toNat Relay.unbound
      exec (.rstat d ch) s = .next (s.writeS d (BitVec.ofNat 32
        (r.filled + 2 ^ 8 * (r.desc.cap - r.filled - r.held) + 2 ^ 16 * r.held + 2 ^ 24 * r.desc.cap))).done)

/-- R318 to R324, R331 to R339: the matrix and accumulator words. Where the spec leaves a choice the model's is stated: log entries
42, 51, 100. -/
def Obligations.MatrixWords : Prop :=
  ∀ (s : State), s.snap = none →
    let sBase := (s.gsys.seg.s.extractLsb' 0 64).toNat
    let sLimit := (s.gsys.seg.s.extractLsb' 64 64).toNat
    let aBase := (s.gsys.seg.a.extractLsb' 0 64).toNat
    let aLimit := (s.gsys.seg.a.extractLsb' 64 64).toNat
    let far := fun (w : Word) => w.getLsbD 31 = true
    let loc := fun (w : Word) => if w.getLsbD 31 then (4 * (s.cur.core / 4) + w.toNat / 2 ^ 22 % 4, w.toNat % 2 ^ 22)
      else (s.cur.core, sBase + w.toNat)
    let past := fun (w : Word) (n : Nat) => (far w ∧ (w.toNat / 2 ^ 24 % 128 ≠ 0 ∨ 3 * 2 ^ 20 < w.toNat % 2 ^ 22 + n)) ∨
      (¬ far w ∧ sLimit < w.toNat + n)
    let held := fun (w : Word) (n : Nat) => far w → ∀ k, w.toNat % 2 ^ 22 / 16384 ≤ k → k ≤ (w.toNat % 2 ^ 22 + n - 1) / 16384 →
      ∃ e, e ∈ s.blocks ∧ e.2.context = s.block.context ∧ e.2.holdsPad (loc w).1 (16384 * k) = true
    let given := fun (x n : Nat) => ∀ k, x / 1024 ≤ k → k ≤ (x + n - 1) / 1024 → s.block.units.at? k ≠ none
    (∀ (r : VReg) (af bf : Fmt) (sparse : Bool) (i : Instr),
      (i = .mma r af bf ∧ sparse = false) ∨ (i = .mmas r af bf ∧ sparse = true) → s.Issues i.facts →
      let octets := s.octets
      let oa := fun l => s.readV r l
      let ob := fun l => s.readV (r + 1) l
      let ea := fun l => (s.readV (r + 2) l).toNat
      let na := tileBytesA af bf sparse
      let nb := tileBytesB bf sparse
      let cols := if bf = .f64 then 32 else 128
      let fine := fun l => ¬ past (oa l) na ∧ ¬ past (ob l) nb ∧ ea l + 8 * cols ≤ aLimit ∧ (loc (oa l)).2 % 64 = 0 ∧
        (loc (ob l)).2 % 64 = 0 ∧ ea l % cols = 0 ∧ held (oa l) na ∧ held (ob l) nb ∧ given (aBase + ea l) (8 * cols)
      (∀ o l, (o, l) ∈ octets ↔ o < 12 ∧ l ∈ s.lanes ∧ l / 8 = o ∧ ∀ m, m ∈ s.lanes → m / 8 = o → l ≤ m) ∧
      ((∀ o l, (o, l) ∈ octets → fine l) →
        (s.tableRoom octets.length = false → exec i s = .next { s with last := .held }) ∧
        (s.tableRoom octets.length = true → ∃ t p new, exec i s = .next t ∧ t.gsys.tm = s.gsys.tm ++ [p] ∧
          p.act = .matrix (new.map MatrixEntry.id) ∧ p.finished = false ∧
          (t.clusterAt (s.cur.core / 4)).entries.drop (s.clusterAt (s.cur.core / 4)).entries.length = new ∧
          (new.map fun e => (e.octet, e.core, e.slot, e.key.fmt, e.key.sparse, e.afmt)) =
            octets.map (fun o => (o.1, s.cur.core, s.cur.slot, bf, sparse, af)) ∧
          (new.map fun e => ((e.aCore, e.aOff), (e.key.core, e.key.off), e.acc)) =
            octets.map (fun o => (loc (oa o.2), loc (ob o.2), aBase + ea o.2)) ∧
          (∀ e, e ∈ new → e.prio = s.block.header.prio ∧ e.posted = s.now + 2 ∧ e.block = s.group.block ∧ e.running = none ∧
            e.finished = false ∧ ∀ q, q ∈ s.gsys.tm → q.act = .opfence → q.finished = false → q.id ∈ e.after) ∧
          { t.group with splits := s.group.splits } = s.group ∧ s.SameMemory t ∧ t.last = .done)) ∧
      (∀ o l pre rest, octets = pre ++ (o, l) :: rest → (∀ x, x ∈ pre → fine x.2) → ¬ fine l →
        let inA := ¬ past (oa l) na
        let inB := ¬ past (ob l) nb
        let inE := ea l + 8 * cols ≤ aLimit
        let bounds := inA ∧ inB ∧ inE
        let evenA := (loc (oa l)).2 % 64 = 0
        let evenB := (loc (ob l)).2 % 64 = 0
        let even := evenA ∧ evenB ∧ ea l % cols = 0
        ∃ cls w, exec i s = .next (s.fault cls (w.setWidth 64) (some l)) ∧
          (¬ inA → cls = .segmentBounds ∧ w = oa l) ∧ (inA → ¬ inB → cls = .segmentBounds ∧ w = ob l) ∧
          (inA → inB → ¬ inE → cls = .segmentBounds ∧ w = s.readV (r + 2) l) ∧
          (bounds → ¬ evenA → cls = .misalignment ∧ w = oa l) ∧
          (bounds → evenA → ¬ evenB → cls = .misalignment ∧ w = ob l) ∧
          (bounds → evenA → evenB → ¬ even → cls = .misalignment ∧ w = s.readV (r + 2) l) ∧
          (bounds → even → ¬ held (oa l) na → cls = .permission ∧ w = oa l) ∧
          (bounds → even → held (oa l) na → ¬ held (ob l) nb → cls = .permission ∧ w = ob l) ∧
          (bounds → even → held (oa l) na → held (ob l) nb → cls = .permission ∧ w = s.readV (r + 2) l))) ∧
    (∀ (p : PReg) (d c : SReg), s.Issues (Instr.accalloc p d c).facts →
      let n := (s.readS c).toNat
      let go := exec (.accalloc p d c) s
      let run := fun k => k + n ≤ s.block.header.acc ∧ ∀ j, k ≤ j → j < k + n → s.block.units.at? j = none
      let others := s.otherBlocks
      (n = 0 ∨ 32 < n → go = .next (s.fault .permission 0 none)) ∧
      (0 < n → n ≤ 32 → (∀ k, ¬ run k) → go = .next ((s.writeS d 0xFFFFFFFF).writePAll p false).done) ∧
      (∀ k, 0 < n → n ≤ 32 → run k → (∀ j, j < k → ¬ run j) →
        (n ≤ (s.freeUnits s.cur.core).length → (∀ e, e ∈ others → s.olderBlock e.2 s.block = true → s.waitsForUnits e.1 = false) →
          ∃ t, go = .next t ∧ (d.toNat < 61 → t.group.s.get d.toNat 0 = BitVec.ofNat 32 (1024 * k)) ∧
            (p ≠ 7 → ∀ l, l < 96 → (t.group.p.get p.toNat 0).getLsbD l = true) ∧
            (∀ j, k ≤ j → j < k + n → ∃ u, t.block.units.at? j = some u ∧ u ∈ s.freeUnits s.cur.core ∧
              ∀ x, x < 1024 → t.acc.get (1024 * (32 * s.cur.core + u) + x) 0 = 0) ∧
            (∀ j, j < k ∨ k + n ≤ j → t.block.units.at? j = s.block.units.at? j) ∧ t.last = .done ∧ t.mem = s.mem ∧
            t.spad = s.spad) ∧
        (¬ (n ≤ (s.freeUnits s.cur.core).length ∧
            ∀ e, e ∈ others → s.olderBlock e.2 s.block = true → s.waitsForUnits e.1 = false) →
          (s.block.units = [] ∨ (∀ e, e ∈ others → e.2.units = [] ∨ s.olderBlock s.block e.2 = true) →
            ∃ t, go = .next t ∧ t.last = .held ∧ t.blocks = s.blocks ∧ t.group.s = s.group.s ∧ t.acc = s.acc) ∧
          (s.block.units ≠ [] → (∃ e, e ∈ others ∧ e.2.units ≠ [] ∧ s.olderBlock s.block e.2 = false) →
            go = .next ((s.writeS d 0xFFFFFFFF).writePAll p false).done)))) ∧
    (∀ (a c : SReg), s.Issues (Instr.accfree a c).facts →
      let x := (s.readS a).toNat
      let n := (s.readS c).toNat
      let slot := (aBase + x) / 1024
      let go := exec (.accfree a c) s
      (x % 1024 ≠ 0 → go = .next (s.fault .misalignment ((s.readS a).setWidth 64) none)) ∧
      (x % 1024 = 0 → n = 0 ∨ 32 < n ∨ (∃ k, k < n ∧ s.block.units.at? (slot + k) = none) →
        go = .next (s.fault .permission ((s.readS a).setWidth 64) none)) ∧
      (x % 1024 = 0 → 0 < n → n ≤ 32 → (∀ k, k < n → s.block.units.at? (slot + k) ≠ none) →
        (s.blockTouches s.group.block [(aBase + x, 1024 * n)] = true → go = .next { s with last := .held }) ∧
        (s.blockTouches s.group.block [(aBase + x, 1024 * n)] = false → ∃ t, go = .next t ∧
          (∀ j, t.block.units.at? j = if slot ≤ j ∧ j < slot + n then none else s.block.units.at? j) ∧
          { t.block with units := s.block.units } = s.block ∧ s.SameMemory t ∧ t.last = .done))) ∧
    (∀ (a c : SReg), s.Issues (Instr.accz a c).facts →
      let x := (s.readS a).toNat
      let n := (s.readS c).toNat
      (n ≠ 0 → aLimit < x + n → exec (.accz a c) s = .next (s.fault .segmentBounds ((s.readS a).setWidth 64) none)) ∧
      (n ≠ 0 → x + n ≤ aLimit → ¬ given (aBase + x) n →
        exec (.accz a c) s = .next (s.fault .permission ((s.readS a).setWidth 64) none)) ∧
      (n = 0 ∨ (x + n ≤ aLimit ∧ given (aBase + x) n) → s.Enters (.accz a c) .tm (.accz (aBase + x) n) [])) ∧
    (∀ (x o d : VReg) (form : AccForm) (fmt : Fmt) (rnd : Rnd),
      let entry := fun l => (s.readV o l).toNat
      let verdict := fun l => if aLimit < entry l + 1 then LaneCheck.fails .segmentBounds (BitVec.ofNat 64 (entry l))
        else if s.block.units.at? ((aBase + entry l) / 1024) = none then .fails .permission (BitVec.ofNat 64 (entry l)) else .passes
      Checked (.accwr x o form) s 0 verdict (∃ value : Nat → QWord,
        s.Enters (.accwr x o form) .tm (.accwr (s.lanes.map fun l => (aBase + entry l, value l))) [] ∧
        ∀ l, l ∈ s.lanes → value l = match form with
          | .f32 => BitVec.ofNat 128 (Bin.f128.deliver .rne (Bin.f32.decode (s.readV x l).toNat)).1
          | .f64 => BitVec.ofNat 128 (Bin.f128.deliver .rne (Bin.f64.decode (s.readVPair x l).toNat)).1
          | .b128 => s.readVPair (x + 2) l ++ s.readVPair x l) ∧
      let reads := s.lanes.map fun l => (l, aBase + entry l, s.readV (o + 1) l, s.readV (o + 2) l)
      Checked (.accrdSat d o fmt rnd) s 0 verdict
        (s.Enters (.accrdSat d o fmt rnd) .tm (.accrd false d fmt rnd s.group.tensor reads) []) ∧
      Checked (.accrdInf d o fmt rnd) s 0 verdict
        (s.Enters (.accrdInf d o fmt rnd) .tm (.accrd true d fmt rnd s.group.tensor reads) [])) ∧
    (∀ (p : PReg) (a : SReg) (fmt : Fmt) (sparse : Bool),
      let w := s.readS a
      let n := tileBytesB fmt sparse
      let key : BKey := { core := (loc w).1, off := (loc w).2, fmt, sparse }
      (s.Issues (Instr.wpin p a fmt sparse).facts → 0 < n →
        (past w n → exec (.wpin p a fmt sparse) s = .next (s.fault .segmentBounds (w.setWidth 64) none)) ∧
        (¬ past w n → (loc w).2 % 64 ≠ 0 → exec (.wpin p a fmt sparse) s = .next (s.fault .misalignment (w.setWidth 64) none)) ∧
        (¬ past w n → (loc w).2 % 64 = 0 → ¬ held w n →
          exec (.wpin p a fmt sparse) s = .next (s.fault .permission (w.setWidth 64) none)) ∧
        (¬ past w n → (loc w).2 % 64 = 0 → held w n → s.Enters (.wpin p a fmt sparse) .tm (.wpin p key) [])) ∧
      (s.Issues (Instr.wunpin a fmt sparse).facts → s.Enters (.wunpin a fmt sparse) .tm (.wunpin key) [])) ∧
    (s.Issues Instr.opfence.facts → s.Enters .opfence .tm .opfence [] ∧ ∃ t p, exec .opfence s = .next t ∧
      t.gsys.tm = s.gsys.tm ++ [p] ∧
      ∀ q a c off, q ∈ s.gsys.ld ++ s.gsys.st → q.finished = false → q.act.writes = true → a ∈ q.accesses → a.place = .spad c off →
        q.id ∈ p.after)

/-- R233, R348, R349, R360 to R363, R373, R374, R382: the SYS words other than RFT, at level S. A TLBINV issues at once; its split
issues no more until the drop that it has begun is complete. Where the spec leaves a choice the model's is stated: log entries
42, 52, 76. -/
def Obligations.SystemWords : Prop :=
  ∀ (s : State), s.snap = none →
    (∀ (seg : Seg) (r : SReg), s.Issues (Instr.segrd seg r).facts →
      let q := match seg with
        | .g => s.gsys.seg.g | .s => s.gsys.seg.s | .c => s.gsys.seg.c | .a => s.gsys.seg.a | .p => s.gsys.seg.p
      exec (.segrd seg r) s = .next ((s.writePair r (q.extractLsb' 0 64)).writePair (r + 2) (q.extractLsb' 64 64)).done) ∧
    (∀ (seg : Seg) (r : SReg), s.Issues (Instr.segld seg r).facts →
      let base := (s.readPair r).toNat
      let limit := (s.readPair (r + 2)).toNat
      let q := s.readPair (r + 2) ++ s.readPair r
      let a := s.gsys.segAttach
      let inside := fun (o : QWord) => (o.extractLsb' 0 64).toNat ≤ base ∧
        base + limit ≤ (o.extractLsb' 0 64).toNat + (o.extractLsb' 64 64).toNat
      let ok := match seg with
        | .g => q = a.g
        | .c => q = a.c
        | .s => inside a.s ∧ base % 4 = 0
        | .a => inside a.a ∧ base % 1024 = 0 ∧ limit % 1024 = 0
        | .p => base % 16 = 0 ∧ limit % 16 = 0 ∧ base + 96 * limit ≤ 2 ^ 60
      (¬ ok → exec (.segld seg r) s = .next (s.fault .permission 0 none)) ∧
      (ok → ∃ t, exec (.segld seg r) s = .next t ∧ t.gsys.seg = (match seg with
          | .g => { s.gsys.seg with g := q } | .s => { s.gsys.seg with s := q } | .c => { s.gsys.seg with c := q }
          | .a => { s.gsys.seg with a := q } | .p => { s.gsys.seg with p := q }) ∧
        { t.gsys with seg := s.gsys.seg } = s.gsys ∧ { t.group with splits := s.group.splits } = s.group ∧ s.SameMemory t ∧
        t.last = .done)) ∧
    (∀ (d : SReg) (n : BitVec 12), s.Issues (Instr.csrr d n).facts → ∃ v : DWord,
      exec (.csrr d n) s = .next (s.writePair d v).done ∧
      (n = 0x00 → v = s.context.tvec) ∧
      (n = 0x01 → (v.getLsbD 0 = true ↔ s.group.level = .s) ∧ (v.getLsbD 1 = true ↔ s.gsys.pendingFault ≠ none) ∧
        (v.getLsbD 2 = true ↔ s.gsys.csr.lost = true) ∧ v.toNat < 8) ∧
      (n = 0x02 → v = s.gsys.csr.epc) ∧ (n = 0x03 → v = s.gsys.csr.ecause) ∧ (n = 0x04 → v = s.gsys.csr.eaddr) ∧
      (n = 0x05 → v = s.gsys.csr.elane) ∧
      (∀ k, k < 6 → n.toNat = 0x08 + k → v = s.gsys.csr.earg.toArray.getD k 0) ∧
      (∀ k, k < 4 → n.toNat = 0x0E + k → v = s.gsys.csr.ssave.toArray.getD k 0) ∧
      (n = 0x12 → v = BitVec.ofNat 64 (s.psize s.block.context)) ∧
      (n = 0x13 → v = BitVec.ofNat 64 s.block.context) ∧
      (n = 0x14 → v = BitVec.ofNat 64 (s.context.dbg.toNat + 2 * (s.context.prot && (s.partitionAt s.context.partition).sealed).toNat)) ∧ (n = 0x15 → v = s.context.pmiss) ∧
      (∀ k, k < 4 → n.toNat = 0x20 + k → s.context.dbg = false ∨ s.context.dbgHeld = false →
        v = s.core.bkpt.toArray.getD k 0) ∧
      (0x20 ≤ n.toNat → n.toNat ≤ 0x25 → s.context.dbg = true → s.context.dbgHeld = true → v = 0) ∧
      (n = 0x24 → s.context.dbg = false → v = s.core.dctl) ∧ (n = 0x25 → s.context.dbg = false → v = s.core.dstat) ∧
      (∀ w k, w < 16 → k < 4 → n.toNat = 0x40 + 4 * w + k → v = (s.context.windows.get w 0).extractLsb' (64 * k) 64) ∧
      (∀ w k, w < 16 → k < 2 → n.toNat = 0x80 + 2 * w + k → v = (s.context.regions.get w 0).extractLsb' (64 * k) 64)) ∧
    (∀ (a : SReg) (n : BitVec 12), s.Issues (Instr.csrw a n).facts →
      let v := s.readPair a
      (n = 0x00 → ∃ t, exec (.csrw a n) s = .next t ∧ t.context.tvec.toNat % 2 ^ 60 = v.toNat % 2 ^ 60 ∧
        (t.context.tvec.getLsbD 63 = true ↔ v.getLsbD 63 = true ∧ v.toNat % 64 = 0) ∧
        { t.context with tvec := s.context.tvec } = s.context ∧ t.gsys = s.gsys ∧ t.last = .done) ∧
      (n = 0x02 → ∃ t, exec (.csrw a n) s = .next t ∧ epcPc t.gsys.csr.epc = v.toNat % 2 ^ 21 ∧
        epcWord t.gsys.csr.epc = (if v.toNat / 2 ^ 21 % 4 = 3 then 0 else v.toNat / 2 ^ 21 % 4) ∧
        t.gsys.csr.epc.extractLsb' 23 2 = s.gsys.csr.epc.extractLsb' 23 2 ∧
        { t.gsys with csr := s.gsys.csr } = s.gsys ∧ t.contexts = s.contexts ∧ t.last = .done) ∧
      (∀ k, k < 4 → n.toNat = 0x0E + k → ∃ t, exec (.csrw a n) s = .next t ∧ t.gsys.csr.ssave.toArray.getD k 0 = v ∧
        (∀ j, j ≠ k → t.gsys.csr.ssave.toArray.getD j 0 = s.gsys.csr.ssave.toArray.getD j 0) ∧ t.contexts = s.contexts ∧
        t.last = .done) ∧
      (∀ k, k < 4 → n.toNat = 0x20 + k → s.context.dbg = false ∨ s.context.dbgHeld = false → ∃ t, exec (.csrw a n) s = .next t ∧
        t.core.bkpt.toArray.getD k 0 = v &&& 0x8FFFFFFFFFFFFFFF ∧
        (∀ j, j ≠ k → t.core.bkpt.toArray.getD j 0 = s.core.bkpt.toArray.getD j 0) ∧ t.core.dctl = s.core.dctl ∧ t.last = .done) ∧
      (n = 0x24 → s.context.dbg = false → v.getLsbD 8 = false → ∃ t, exec (.csrw a n) s = .next t ∧
        t.core.dctl = v &&& 0xFF ∧ t.core.bkpt = s.core.bkpt ∧ t.last = .done) ∧
      (∀ w k, w < 16 → k < 4 → n.toNat = 0x40 + 4 * w + k → ∃ t, exec (.csrw a n) s = .next t ∧
        let x := t.context.windows.get w 0
        (∀ j, j ≠ w → t.context.windows.get j 0 = s.context.windows.get j 0) ∧ t.context.regions = s.context.regions ∧
        (winV x = true → s.windowFine s.cur.core s.block.context x = true) ∧ (k = 0 → winBase x = v.toNat % 2 ^ 60) ∧
        (k = 3 → winDone x = v.toNat % 2 ^ 60) ∧ t.gsys = s.gsys ∧ t.last = .done)) ∧
    (∀ (i : Instr) (pages : Option (Nat × Nat)), (∃ b c, i = .tlbinv b c ∧
          pages = some ((s.readPair b).toNat / 65536, (s.readS c).toNat)) ∨ (i = .tlbinvAll ∧ pages = none) →
      s.Issues i.facts →
      ((∃ first, pages = some (first, 0)) → exec i s = .next s.done) ∧
      ((∀ first, pages ≠ some (first, 0)) →
        exec i s = .next (s.done.setSplit { s.done.split with drop := some pages }))) ∧
    (∀ k : BitVec 4, s.Issues (Instr.idle k).facts →
      let since := (s.split.hold.map Hold.since).getD s.now
      let changed := ∃ h, s.split.hold = some h ∧ h.changes ≠ some s.block.changes
      (since + 256 * 2 ^ k.toNat ≤ s.now ∨ s.gsys.pendingFault ≠ none ∨ changed → exec (.idle k) s = .next s.done) ∧
      (¬ (since + 256 * 2 ^ k.toNat ≤ s.now ∨ s.gsys.pendingFault ≠ none ∨ changed) → ∃ t h, exec (.idle k) s = .next t ∧
        t.last = .held ∧ t.split.hold = some h ∧ h.since = since ∧ t.split.pc = s.split.pc ∧ t.gsys = s.gsys))

/-! ## Events -/

/-- R65, R84, R113, R114, R233, R281, R308, R311, R331, R337, R338, R339, R349, R358, R362, R363, R371 to R376: the events of one
core, where they can happen. Where the spec leaves a choice the model's is stated: log entries 32, 52, 62, 77, 100, 103. -/
def Obligations.CoreEvents : Prop :=
  ∀ (s : State) (core slot n : Nat), s.snap = none → slot < 16 →
    let gk := 16 * core + slot
    let g := s.groupAt gk
    let y := s.sysAt gk
    let u := s.onSplit core slot n
    let onlyContext := fun (t : State) (c : Nat) => { t with contexts := s.contexts, tick := s.tick } = s ∧
      ∀ d, d ≠ c → t.contextAt d = s.contextAt d
    let onlySplit := fun (t : State) => { t with groups := s.groups, tick := s.tick } = s ∧
      (∀ k, k ≠ gk → t.groupAt k = s.groupAt k) ∧ { t.groupAt gk with splits := g.splits } = g ∧
      ∀ m, m ≠ n → (t.groupAt gk).splits.at? m = g.splits.at? m
    let ready := fun (p : Pending) => p.finished = false ∧ ∀ q, q ∈ y.all → q.id ∈ p.after → q.finished = true
    (∀ c v, s.contexts.at? c ≠ none → Happens (.tvecWrite c v) s fun t => onlyContext t c ∧
      (t.contextAt c).tvec.toNat % 2 ^ 60 = v.toNat % 2 ^ 60 ∧
      ((t.contextAt c).tvec.getLsbD 63 = true ↔ v.getLsbD 63 = true ∧ v.toNat % 64 = 0)) ∧
    (∀ v, g.phase ≠ .free → Happens (.epcWrite core slot v) s fun t =>
      let e := (t.sysAt gk).csr.epc
      epcPc e = v.toNat % 2 ^ 21 ∧ epcWord e = (if v.toNat / 2 ^ 21 % 4 = 3 then 0 else v.toNat / 2 ^ 21 % 4) ∧
        e.extractLsb' 23 2 = y.csr.epc.extractLsb' 23 2 ∧ { t with sys := s.sys, tick := s.tick } = s) ∧
    (∀ c w k v, s.contexts.at? c ≠ none → w < 16 → k < 4 → Happens (.reductionWindowWrite core c w k v) s fun t =>
      let x := (t.contextAt c).windows.get w 0
      onlyContext t c ∧ (∀ j, j ≠ w → (t.contextAt c).windows.get j 0 = (s.contextAt c).windows.get j 0) ∧
      (winV x = true → s.windowFine core c x = true) ∧
      (k = 0 → winBase x = v.toNat % 2 ^ 60) ∧ (k = 3 → winDone x = v.toNat % 2 ^ 60)) ∧
    (∀ st, y.stop = some st → Happens (.debugGoRelease core slot) s fun t => (t.sysAt gk).stop = none ∧
      { t.sysAt gk with stop := y.stop } = y ∧
      (∀ m x, g.splits.at? m = some x → ∃ z, (t.groupAt gk).splits.at? m = some z ∧ z.mask = x.mask ∧ z.pc = x.pc ∧ z.word = x.word ∧
        z.passBreak = x.passBreak) ∧ s.SameMemory t) ∧
    (∀ st m x, y.stop = some st → g.splits.at? m = some x → Happens (.debugGoStep core slot (some m)) s fun t =>
      (t.sysAt gk).stop = some { st with step := some m, packet := some (x.pc, x.handler), ended := false } ∧ s.SameMemory t) ∧
    (∀ p v, u.free = true → u.split.packet = none → u.atBreakpoint = false → u.packetAt = .packet p v →
      Happens (.packetFetch core slot ⟨n, 0⟩) s fun t => t = { v with cur := s.cur, tick := v.tick + 1 } ∧
        ((t.groupAt gk).splitAt n).packet = some p) ∧
    (∀ ahead, ahead % 2 ^ 20 ≠ 0 → u.free = true → Happens (.packetFetch core slot ⟨n, ahead⟩) s fun t =>
      { t with cores := s.cores, tick := s.tick } = s ∧ ∀ pa w, (t.coreAt core).icache.at? pa = some w →
        (s.coreAt core).icache.at? pa = some w ∨ w = BitVec.ofNat 32 (s.mem.read pa 4)) ∧
    (∀ x, g.splits.at? n = some x → s.mayAct core slot n = true → starving x = true →
      Happens (.splitStarvation core slot n) s fun t => onlySplit t ∧
        (t.groupAt gk).splits.at? n = some { x with starved := true }) ∧
    (∀ x, g.splits.at? n = some x → 256 ≤ x.back → Happens (.backwardBranchYield core slot n) s fun t => onlySplit t ∧
      (t.groupAt gk).splits.at? n = some { x with back := 0, giveWay := true }) ∧
    (∀ r x, s.mayAct core slot n = true → g.level = .u → y.before = none → u.clockLeft = true → s.soleChoice core slot n = true → u.aboutToIssue = true →
      y.pendingFault = some r → g.splits.at? n = some x →
      (s.contextAt (s.blockAt g.block).context).tvec.getLsbD 63 = true → x.word < 3 → n < 4 →
      Happens (.recoverableFaultDelivery core slot n) s fun t =>
        let c := (t.sysAt gk).csr
        (t.groupAt gk).level = .s ∧ (t.sysAt gk).pendingFault = none ∧ c.ecause = 0x30 ∧ c.eaddr = r.addr ∧
        c.elane.toNat = r.lane % 2 ^ 64 ∧ c.earg.toArray.getD 2 0 = r.stored ∧ c.earg.toArray.getD 3 0 = r.current ∧
        epcPc c.epc = x.pc.toNat ∧ epcWord c.epc = x.word ∧ ((t.groupAt gk).splitAt n).pc = 0 ∧
        ((t.groupAt gk).splitAt n).handler = true ∧ s.SameMemory t) ∧
    (∀ d c, u.free = true → u.clockLeft = true → s.soleChoice core slot n = true → u.shrinkHeld = true →
      u.heldWords = [.plain (.rpop d c true)] → u.Issues (Instr.rpop d c true).facts →
      u.relayOpen c.toNat false = true → (u.vrelay c.toNat).filled = 0 → u.split.hold ≠ none → d.toNat < 61 →
      Happens (.shrinkPop core slot n) s fun t => (t.groupAt gk).s.get d.toNat 0 = 0xFFFFFFFF ∧ t.blocks = s.blocks) ∧
    (∀ bm m p k h, u.free = true → u.clockLeft = true → s.soleChoice core slot n = true → u.split.hold = some h → h.since + 256 * 2 ^ k.toNat ≤ s.now →
      u.heldWords = [.plain (.tryw bm m p k)] → u.Issues (Instr.tryw bm m p k).facts → p ≠ 7 →
      Happens (.trywExpiry core slot n) s fun t => ∀ l, l < 96 →
        ((t.groupAt gk).p.get p.toNat 0).getLsbD l = u.bitsSet bm.toNat (u.readPair m)) ∧
    (∀ k h, u.free = true → u.clockLeft = true → s.soleChoice core slot n = true → u.split.hold = some h →
      h.since + 256 * 2 ^ k.toNat ≤ s.now → u.heldWords = [.sys (.idle k)] →
      u.Issues (Instr.idle k).facts → Happens (.idleExpiry core slot n) s fun t =>
        ((t.groupAt gk).splitAt n).hold = none ∧ s.SameMemory t) ∧
    (∀ x pages, g.splits.at? n = some x → x.drop = some pages →
      s.usesEntries (s.blockAt g.block).context pages = false → Happens (.tlbinvCompletion core slot n) s fun t =>
        (∀ k e, e ∈ (t.coreAt k).tlb ↔ e ∈ (s.coreAt k).tlb ∧ e.named (s.blockAt g.block).context pages = false) ∧
        (∀ d e, e ∈ (t.dieAt d).tlb ↔ e ∈ (s.dieAt d).tlb ∧ e.named (s.blockAt g.block).context pages = false) ∧
        ((t.groupAt gk).splitAt n).drop = none ∧ s.SameMemory t) ∧
    (∀ st m, y.stop = some st → st.ended = true → st.step = some m → Happens (.stepEnd core slot) s fun t =>
      ((t.sysAt gk).stop.map fun z => (z.why, z.step, z.ended)) = some (3, none, false) ∧
      (t.sysAt gk).ld = y.ld) ∧
    (∀ (p : Pending) array, y.tm = [p] → ready p → (∀ c, (s.clusterAt c).entries = []) → p.failed = [] →
      (∀ first k, p.act = .accz first k → Happens (.tmCompletion core slot p.id array) s fun t => (t.sysAt gk).tm = [] ∧
        (∀ x, first ≤ x → x < first + k → t.accOf g.block x = 0) ∧ t.mem = s.mem ∧ t.spad = s.spad ∧ t.groupAt gk = g) ∧
      (∀ x v, p.act = .accwr [(x, v)] → (s.blockAt g.block).accKey x ≠ none →
        Happens (.tmCompletion core slot p.id array) s fun t => (t.sysAt gk).tm = [] ∧ t.accOf g.block x = v ∧
          (∀ k, (s.blockAt g.block).accKey x ≠ some k → t.accAt k = s.accAt k) ∧ t.mem = s.mem ∧ t.groupAt gk = g) ∧
      (p.act = .opfence → Happens (.tmCompletion core slot p.id array) s fun t => (t.sysAt gk).tm = [] ∧ t.groupAt gk = g ∧
        s.SameMemory t) ∧
      (∀ d key, p.act = .wpin d key → d ≠ 7 → p.spoiledPreds = [] → arrayOf (s.clusterAt (core / 4)) key = none → array < 4 →
        (pinnedArrays (s.clusterAt (core / 4))).length < 3 → mayTake (s.clusterAt (core / 4)) array = true →
        Happens (.tmCompletion core slot p.id array) s fun t => (t.sysAt gk).tm = [] ∧
          (Cluster.array (t.clusterAt (core / 4)) array).key = some key ∧
          g.block ∈ (Cluster.array (t.clusterAt (core / 4)) array).pins ∧
          ∀ l, l < 96 → ((t.groupAt gk).p.get d.toNat 0).getLsbD l = true) ∧
      (∀ d key, p.act = .wpin d key → d ≠ 7 → p.spoiledPreds = [] → 3 ≤ (pinnedArrays (s.clusterAt (core / 4))).length →
        (∀ i, arrayOf (s.clusterAt (core / 4)) key = some i → (Cluster.array (s.clusterAt (core / 4)) i).pins = []) →
        Happens (.tmCompletion core slot p.id array) s fun t => (t.sysAt gk).tm = [] ∧ (∀ j, t.clusterAt j = s.clusterAt j) ∧
          ∀ l, l < 96 → ((t.groupAt gk).p.get d.toNat 0).getLsbD l = false) ∧
      (∀ key, p.act = .wunpin key → Happens (.tmCompletion core slot p.id array) s fun t => (t.sysAt gk).tm = [] ∧
        t.groupAt gk = g ∧ s.SameMemory t ∧ ∀ j,
          let a := Cluster.array (s.clusterAt (core / 4)) j
          Cluster.array (t.clusterAt (core / 4)) j =
            if arrayOf (s.clusterAt (core / 4)) key = some j then { a with pins := a.pins.filter (· ≠ g.block) } else a) ∧
      (∀ inf d fmt rnd tensor reads, p.act = .accrd inf d fmt rnd tensor reads → p.results = [] → p.spoiled = [] →
        (reads.map fun r => r.1).Nodup → (∀ r, r ∈ reads → r.1 < 96 ∧ p.mask.getLsbD r.1 = true) →
        d.toNat + (if fmt.wide then 2 else 1) ≤ 128 →
        let x := fun (r : Nat × Nat × Word × Word) =>
          let q := Bin.f128.decode (s.accOf g.block r.2.1).toNat
          let z := Fmt.sc12.decode (r.2.2.1.toNat % 65536)
          if q.isNan = true ∨ z.isNan = true then (.nan q.signals, 0) else q.product z
        let o := fun r => fmt.convert inf rnd r.2.2.2 (x r).1
        Happens (.tmCompletion core slot p.id array) s fun t => (t.sysAt gk).tm = [] ∧ s.SameMemory t ∧
          (∀ r, r ∈ reads → (vectorOf (t.groupAt gk) d.toNat).lane r.1 = BitVec.ofNat 32 (fmt.extend (o r).bits) ∧
            (fmt.wide = true → (vectorOf (t.groupAt gk) (d.toNat + 1)).lane r.1 = BitVec.ofNat 32 (fmt.extend (o r).bits / 2 ^ 32))) ∧
          (∀ k, k < 5 → ((t.groupAt gk).fps.getLsbD k = true ↔ g.fps.getLsbD k = true ∨
            ∃ r, r ∈ reads ∧ ((o r).flags.getLsbD k = true ∨ (x r).2.getLsbD k = true))) ∧
          (∀ c : Stat, ((t.blockAt g.block).stats.get (4 * tensor.toNat + c.code) 0).toNat = min (2 ^ 32 - 1)
            (((s.blockAt g.block).stats.get (4 * tensor.toNat + c.code) 0).toNat + (reads.filter fun r => (o r).stat == some c).length)) ∧
          (∀ k, (∀ c : Stat, k ≠ 4 * tensor.toNat + c.code) → (t.blockAt g.block).stats.get k 0 = (s.blockAt g.block).stats.get k 0) ∧
          { t.groupAt gk with v := g.v, fps := g.fps } = g)) ∧
    (∀ (p : Pending) wide x pd (a : Access) pa, y.ld = [p] → p.act = .latTry wide x pd → ready p →
      y.freeLanes p (BitVec.allOnes 96) = true → p.issued + 1024 ≤ s.now →
      p.accesses = [a] → a.place = .mem pa → a.dead = false → a.lane < 96 → p.mask.getLsbD a.lane = true → p.spoiled = [] →
      p.spoiledPreds = [] → pd ≠ 7 → (tryType a).wide = false → wide = false → tryType a ≠ .cnt8x32 → a.n = 4 →
      s.hazardOf (s.blockAt g.block).context true a = none →
      Happens (.ltryExpiry core slot p.id) s fun t => (t.sysAt gk).ld = [] ∧ s.SameMemory t ∧
        (vectorOf (t.groupAt gk) x.toNat).lane a.lane = BitVec.ofNat 32 (s.mem.read pa 4) ∧
        ((t.groupAt gk).p.get pd.toNat 0).getLsbD a.lane = (tryType a).atLeast (s.mem.read pa 4) (tryThreshold a)) ∧
    ((s.coreAt core).paused = false → s.pastThreshold core = true → (s.dieAt (core / 64)).spareUsed = false →
      Happens (.hotSpareTakeover core) s fun t => (t.coreAt core).paused = true ∧ (t.dieAt (core / 64)).spareUsed = true ∧
        t.groups = s.groups) ∧
    ((s.coreAt core).paused = true → Happens (.hotSpareResume core) s fun t => (t.coreAt core).paused = false ∧
      { t with cores := s.cores, tick := s.tick } = s)

/-- R112, R117, R119, R123 to R126, R129, R130: the events of launches and blocks. Where the spec leaves a choice the model's is
stated: log entries 57, 58, 97, 105. -/
def Obligations.LaunchEvents : Prop :=
  ∀ (s : State) (p q id : Nat),
    let l := s.launchAt id
    let core := s.launchCore l.context
    let die := s.partitionCore p / 64
    let va := l.header.afterva
    let is := fun (t u : State) => { t with cur := u.cur, tick := u.tick } = u
    let refused := fun (status : Nat) (t : State) =>
      is t ((s.dropLaunch id).postEvent l.context (eventOf l.context 6 status 0 (BitVec.ofNat 64 l.headerAddr))) ∧
        t.launches.at? id = none ∧ t.blocks = s.blocks ∧ t.groups = s.groups
    let onlyLaunch := fun (t : State) (m : Launch) =>
      t.launches.at? id = some m ∧ { t with launches := s.launches, tick := s.tick } = s ∧
        ∀ k, k ≠ id → t.launches.at? k = s.launches.at? k
    let depends := fun (i : Instr) =>
      (va % 8 ≠ 0 → Happens i s (refused 9)) ∧
      (va % 8 = 0 → va + 8 ≤ 2 ^ 60 → s.checkPage core l.context [] va .read = .absent →
        (s.dieAt die).faults.length < 512 →
        Happens i s fun t => ∃ e, e ∈ (t.dieAt die).faults ∧ e.vpage = va / 65536 ∧ e.context = l.context ∧
          e.kind.getLsbD 3 = true ∧ .launch id ∈ e.wake ∧ (t.launchAt id).missing = [va / 65536] ∧
          (t.launchAt id).phase = .waiting) ∧
      (∀ f, va % 8 = 0 → va + 8 ≤ 2 ^ 60 → s.checkPage core l.context [] va .read = .fails f → Happens i s (refused 9)) ∧
      (∀ e lv, va % 8 = 0 → va + 8 ≤ 2 ^ 60 → s.checkPage core l.context [] va .read = .page e lv → leafLat e = true →
        let places := (s.contextAt l.context).vdies.map fun d => s.physical d e 0 va
        let good := (s.contextAt l.context).regionAt va ≠ none ∧ ∀ pa, pa ∈ places → s.frameUsable l.context (pa / 65536) = true
        (¬ good → Happens i s (refused 9)) ∧
        (good → (∃ pa, pa ∈ places ∧ s.poisonedAt pa 8 = true) → Happens i s fun t =>
          t.launches.at? id = none ∧ t.blocks = s.blocks ∧ t.groups = s.groups) ∧
        (good → (∀ pa, pa ∈ places → s.poisonedAt pa 8 = false) →
          let v := s.joinedReplicas l.context e va
          (l.header.afterv ≤ v → Happens i s fun t => onlyLaunch t { l with phase := .ready }) ∧
          (v < l.header.afterv → Happens i s fun t => onlyLaunch t { l with recheckAt := s.now + 65536 }))) ∧
      ∀ e lv pa, va % 8 = 0 → va + 8 ≤ 2 ^ 60 → s.checkPage core l.context [] va .read = .page e lv → leafPeer e = false →
        leafLat e = false → s.placeFor core e lv va = .mem pa →
        (s.frameUsable l.context (pa / 65536) = false → Happens i s (refused 9)) ∧
        (s.frameUsable l.context (pa / 65536) = true → s.poisonedAt pa 8 = true → Happens i s fun t =>
          t.launches.at? id = none ∧ t.blocks = s.blocks ∧ t.groups = s.groups) ∧
        (s.frameUsable l.context (pa / 65536) = true → s.poisonedAt pa 8 = false →
        (l.header.afterv ≤ s.mem.read pa 8 → Happens i s fun t => onlyLaunch t { l with phase := .ready }) ∧
        (s.mem.read pa 8 < l.header.afterv → Happens i s fun t => onlyLaunch t { l with recheckAt := s.now + 65536 }))
    (s.headIn p q .queued = some id → l.partition = p → l.command = none →
      (s.launchRead core l.context l.headerAddr 128 = .fails → Happens (.launchHeaderCheck p q) s (refused 8)) ∧
      (∀ h, s.launchRead core l.context l.headerAddr 128 = .stops h → Happens (.launchHeaderCheck p q) s fun t =>
        t.contexts.at? l.context = none ∧ t.launches.at? id = none) ∧
      ∀ b, s.launchRead core l.context l.headerAddr 128 = .bytes b →
        s.launchAsk core l.context l.headerAddr 128 id = s →
        let w := State.dwordsOf b 16
        let h := headerOf w
        (h.relays ≠ 0 → s.launchAsk core l.context h.relaytab (8 * h.relays) id = s) →
        ∀ r, (h.relays = 0 ∧ r = []) ∨
            (h.relays ≠ 0 ∧ ∃ c, s.launchRead core l.context h.relaytab (8 * h.relays) = .bytes c ∧ r = State.dwordsOf c h.relays) →
          (∀ status, (true, status) ∈ headerFaults w r → (∀ k, k < status → (true, k) ∉ headerFaults w r) →
            Happens (.launchHeaderCheck p q) s (refused status)) ∧
          ((∀ e, e ∈ headerFaults w r → e.1 = false) → Happens (.launchHeaderCheck p q) s fun t =>
            onlyLaunch t { l with header := h, relays := r.map relayOfWord, recheckAt := s.now,
                                  phase := if h.afterva = 0 then .ready else .waiting })) ∧
    (∀ reply, s.headIn p q .waiting = some id → l.partition = p → l.command = none →
      depends (.dependenceRead p q reply) ∧ (l.recheckAt ≤ s.now → depends (.dependenceRecheckTimer p q reply))) ∧
    (∀ c slot0 stack b, s.headIn p q .ready = some id → s.hw.power.computeUp = true → s.queueInTurn p c = some q →
      nextBlock l = some b → s.mayPlace l b c = true → s.blockFits c l.header slot0 = true →
      s.privateFree l.context l.header stack = true →
      Happens (.blockResidency p q c slot0 stack) s fun t =>
        let k := t.blockAt s.nextId
        k.launch = id ∧ k.number = b ∧ k.core = c ∧ k.context = l.context ∧ k.slot0 = slot0 ∧ k.stackBase = stack ∧
        k.units = [] ∧ (t.launchAt id).order.isSome = true ∧ t.mem = s.mem ∧
        (∀ a, a < l.header.scratch / 16384 * 16384 → t.spad.byte (padKey c (16384 * slot0) + a) = 0) ∧
        (∀ g, (s.groupAt g).phase ≠ .free → t.groupAt g = s.groupAt g) ∧
        (∀ x slot, l.header.stages = [x] → x.min = 1 → slot < 16 → (s.groupAt (16 * c + slot)).phase = .free →
          (∀ o, o ∈ s.blocksOn c → slot ∉ (s.blockAt o).reserved) →
          (∀ j, j < slot → (s.groupAt (16 * c + j)).phase ≠ .free) →
          let g := t.groupAt (16 * c + slot)
          g.phase = .spawned ∧ g.block = s.nextId ∧ g.stage = 0 ∧ (g.splits.map Prod.fst) = [0] ∧
          (g.splits.get 0 Split.none).pc = x.entry ∧ (g.splits.get 0 Split.none).mask = BitVec.allOnes 96)) ∧
    (∀ k, (s.blocks.at? k).isSome = true → s.groupsIn k = [] → (s.blockAt k).launch = id →
      (l.ended + 1 ≠ l.header.blocks → Happens (.blockEnd k) s fun t =>
        t.blocks.at? k = none ∧ (t.launchAt id).ended = l.ended + 1 ∧ (t.launchAt id).phase = l.phase ∧ s.SameMemory t) ∧
      (l.ended + 1 = l.header.blocks → l.header.stats = false → l.header.doneva = 0 → l.command = none →
        Happens (.blockEnd k) s fun t => t.blocks.at? k = none ∧ t.launches.at? id = none ∧ s.SameMemory t) ∧
      (∀ e lv, l.ended + 1 = l.header.blocks → l.header.stats = false → l.header.doneva ≠ 0 → l.header.doneva + 8 ≤ 2 ^ 60 →
        l.command = none → s.checkPage core l.context [] l.header.doneva .write = .page e lv →
        leafPeer e = false → leafLat e = false →
        let pa := s.physical (dieOf (s.blockAt k).core) e lv l.header.doneva
        s.frameUsable l.context (pa / 65536) = true → s.poisonedAt pa 8 = false → Happens (.blockEnd k) s fun t => t.blocks.at? k = none ∧ t.launches.at? id = none ∧
          t.mem.read pa 8 = max (s.mem.read pa 8) l.header.donev % 2 ^ 64 ∧
          ∀ a, a < pa ∨ pa + 8 ≤ a → t.mem.byte a = s.mem.byte a)) ∧
    (∀ k stage slot, (s.blocks.at? k).isSome = true → s.wantsGroup k stage = true → s.hasGroupRoom k stage = true → slot < 16 →
      let gk := fun j => 16 * (s.blockAt k).core + j
      (s.groupAt (gk slot)).phase = .free → (∀ o, o ∈ s.blocksOn (s.blockAt k).core → o ≠ k → slot ∉ (s.blockAt o).reserved) →
      (∀ j, j < slot → (s.groupAt (gk j)).phase ≠ .free) →
      Happens (.stageGrowth k stage) s fun t =>
        let g := t.groupAt (gk slot)
        g.phase = .spawned ∧ g.block = k ∧ g.stage.toNat = stage % 4 ∧
        (g.splits.map Prod.fst) = [0] ∧ (g.splits.get 0 Split.none).mask = BitVec.allOnes 96 ∧
        (g.splits.get 0 Split.none).pc = ((s.blockAt k).header.stages.getD stage Stage.none).entry ∧
        (t.blockAt k).growFrom.get stage 0 = s.now ∧ (∀ j, j ≠ gk slot → t.groupAt j = s.groupAt j) ∧ s.SameMemory t) ∧
    (∀ k stage g, (s.blocks.at? k).isSome = true → s.mayShrink k stage = true →
      g ∈ s.stageGroups k stage → (s.groupAt g).phase = .attached →
      (∀ j, j ∈ s.stageGroups k stage → (s.groupAt j).phase = .attached → j ≠ g → (s.sysAt j).attachAge < (s.sysAt g).attachAge) →
      Happens (.stageShrink k stage) s fun t => (t.groupAt g).shrink = true ∧ { t.groupAt g with shrink := (s.groupAt g).shrink } =
        s.groupAt g ∧ ∀ j, j ≠ g → t.groupAt j = s.groupAt j) ∧
    (∀ c slot, slot < 16 → (s.groupAt (16 * c + slot)).phase = .ended →
      let y := s.sysAt (16 * c + slot)
      y.st = [] → y.cp = [] → y.tm = [] →
      Happens (.groupSlotRelease c slot) s fun t => (t.groupAt (16 * c + slot)).phase = .free ∧ t.blocks = s.blocks ∧
        (∀ j, j ≠ 16 * c + slot → t.groupAt j = s.groupAt j) ∧ s.SameMemory t)

/-- R27, R365 to R370, R403 to R405: pre-emption and checkpoints: the choice of the method in hardware mode, its effect on a block
with nothing outstanding, the restore of a saved block, the cut and the commit of a checkpoint, whose page map and new pages are
sealed where the context is. Where the spec leaves a choice the model's is stated: log entries 17, 59, 60, 63, 95. -/
def Obligations.PreemptionEvents : Prop :=
  ∀ (s : State) (k bound named : Nat),
    let b := s.blockAt k
    let l := s.launchAt b.launch
    let gs := s.groupsIn k
    let ts := 2000 + (16384 * ((List.range b.slots).filter fun j => b.dirty.getLsbD j).length +
      (gs.map fun j => 384 * vectorWindow b (s.groupAt j)).sum + 16384 * b.units.length + 4096) / 128
    let tf := s.now - b.since
    let td := l.runTime / l.ended - tf
    let flushes := b.header.restart = true ∧ b.wroteOut = false
    let limit := if b.header.latbound = 0 then bound else if bound = 0 then 1024 * b.header.latbound
      else min (1024 * b.header.latbound) bound
    let unbound := b.header.latbound = 0 ∧ bound = 0
    let gone := fun (t : State) => t.blocks.at? k = none ∧ (∀ j, j ∈ gs → (t.groupAt j).phase = .free) ∧
      (∀ r, r ∈ (t.coreAt b.core).copies → r.block ≠ k) ∧ s.SameMemory t
    let idle := (∀ j, j ∈ gs → (s.sysAt j).all = [] ∧ (s.sysAt j).before = none) ∧
      (∀ r, r ∈ (s.coreAt b.core).copies → r.block ≠ k) ∧
      (∀ e, e ∈ (s.clusterAt (b.core / 4)).entries → e.block ≠ k) ∧
      ∀ j, j ∈ gs → ∀ e, e ∈ (s.groupAt j).splits → e.2.drop = none ∧ e.2.hold.bind Hold.publish = none
    let saved := fun (drained miss : Bool) (t : State) => gone t ∧ ∃ i,
      (t.firmAt b.context).images = (s.firmAt b.context).images ++ [i] ∧ i.launch = b.launch ∧ i.number = b.number ∧
      i.seq = s.hw.imageSeqs.get b.context 0 + 1 ∧ t.hw.imageSeqs.get b.context 0 = i.seq ∧ i.saved = true ∧ i.queued = true ∧
      i.drained = drained ∧ i.miss = miss ∧ (∀ a, a < 16384 * b.slots →
        i.pads.byte a = s.spad.byte (padKey b.core (16384 * b.slot0) + a)) ∧ ∀ j, j ∈ i.groups.map Prod.fst ↔ j ∈ gs
    let asks := Instr.preemptionRequest k bound named
    let may := s.engineFree b.core = true ∧ (s.sealedOf b.context = false ∨ s.hw.votes.headD true = true)
    (s.blocks.at? k).isSome = true → (s.coreAt b.core).paused = false → (∀ j, j ∈ gs → (s.sysAt j).before = none) →
    (s.assisted b.partition 3 = false →
      (flushes → tf ≤ ts → s.methodFor k bound named = .flush) ∧
      (¬ (flushes ∧ tf ≤ ts) → unbound → s.methodFor k bound named = if l.ended ≠ 0 ∧ td ≤ ts then .drain else .save) ∧
      (¬ (flushes ∧ tf ≤ ts) → ¬ unbound → s.methodFor k bound named =
        if ts ≤ limit then .save else if l.ended ≠ 0 ∧ td ≤ limit then .drain else .miss)) ∧
    (s.assisted b.partition 3 = true → s.methodFor k bound named =
      if named = 1 ∧ flushes then .flush else if named = 3 then .drain else .save) ∧
    (s.methodFor k bound named = .flush → Happens asks s fun t => gone t ∧ b.number ∈ (t.launchAt b.launch).requeued) ∧
    (s.methodFor k bound named = .drain → Happens asks s fun t =>
      (t.blockAt k).drain = some (if unbound then 0 else s.now + limit) ∧ t.groups = s.groups ∧ s.SameMemory t) ∧
    (s.methodFor k bound named = .save → idle → may → Happens asks s (saved false false)) ∧
    (s.methodFor k bound named = .save → idle → s.engineFree b.core = true → s.sealedOf b.context = true →
      s.hw.votes.headD true = false → Happens asks s fun t => (t.blocks.at? k).isSome = true ∧
        (t.firmAt b.context).images = (s.firmAt b.context).images ∧ t.hw.errorLog = s.disagree.hw.errorLog ∧ s.SameMemory t) ∧
    (s.methodFor k bound named = .miss → idle → may → Happens asks s fun t => t.blocks.at? k = none ∧
      (∀ j, j ∈ gs → (t.groupAt j).phase = .free) ∧ (t.contextAt b.context).pmiss.toNat =
        min (2 ^ 64 - 1) ((s.contextAt b.context).pmiss.toNat + 1) ∧
      ∃ i, i ∈ (t.firmAt b.context).images ∧ i.number = b.number ∧ i.miss = true ∧ i.seq = s.hw.imageSeqs.get b.context 0 + 1) ∧
    (∀ d, b.drain = some d → d ≠ 0 → d ≤ s.now → idle → may → Happens (.drainToSave k) s (saved true false)) ∧
    (∀ c seq core slot0 i, (s.firmAt c).images.find? (fun i => i.seq == seq) = some i → (s.contexts.at? c).isSome = true →
      let latest := (((s.firmAt c).latest.find? fun e => e.1 == i.launch && e.2.1 == i.number).map fun e => e.2.2).getD 0
      (∀ intact, intact = false ∨ (i.sealed = true ∧ i.seq ≠ latest) → Happens (.blockRestore c seq core slot0 intact) s fun t =>
        t.contexts.at? c = none ∧ ∀ j x, t.blocks.at? j = some x → x.context ≠ c) ∧
      (i.sealed = false ∨ i.seq = latest → i.saved = true → i.queued = true → s.hw.power.computeUp = true →
        s.mayRestore c i core slot0 = true → i.pads.wf = true → Happens (.blockRestore c seq core slot0 true) s fun t =>
          let x := t.blockAt s.nextId
          x.launch = i.block.launch ∧ x.number = i.block.number ∧ x.core = core ∧ x.slot0 = slot0 ∧ x.since = s.now ∧
          x.drain = none ∧ x.dirty = i.block.dirty ∧ x.bitmaps = i.block.bitmaps ∧ t.mem = s.mem ∧
          (∀ a, a < 16384 * i.block.slots → t.spad.byte (padKey core (16384 * slot0) + a) = i.pads.byte a))) ∧
    (∀ c, let f := s.firmAt c
      f.ckint ≠ 0 → f.ckAt + 2500000 * f.ckint ≤ s.now → s.assisted (s.contextAt c).partition 4 = false → s.mayCut c = true →
      s.blocksOf c = [] → s.badPage c = none → Happens (.checkpointTimer c) s fun t =>
        (t.firmAt c).ckNumber = f.ckNumber + 1 ∧ (t.firmAt c).ckAt = s.now ∧ t.mem = s.mem ∧ t.groups = s.groups ∧
        ∃ x, t.hw.checkpoints.get c [] = s.hw.checkpoints.get c [] ++ [x] ∧ x.seq = f.ckNumber + 1 ∧ x.firm.ckNumber = x.seq ∧ x.complete = false ∧
          x.hostTriggered = false ∧ x.context = s.contextAt c) ∧
    (∀ c m i x, (s.hw.checkpoints.get c []).find? (fun y => !y.complete) = some x → x.command = none →
      (x.sealed = true → s.hw.votes.headD true = false → Happens (.checkpointCommit c m i) s fun t =>
        t.hw.checkpoints = s.hw.checkpoints ∧ t.hw.errorLog = s.disagree.hw.errorLog ∧ s.SameMemory t) ∧
      (x.sealed = false ∨ s.hw.votes.headD true = true → Happens (.checkpointCommit c m i) s fun t => ∃ y, t.hw.checkpoints.get c [] = [y] ∧ y.complete = true ∧
        (x.sealed = false → { y with complete := x.complete, manifest := x.manifest } = x) ∧
        (x.sealed = true → (y.coded, y.tag) = Config.sealed c 2 (x.seq * 2 ^ 28) y.manifest (pageMap x) ∧
          { y with complete := x.complete, manifest := x.manifest, coded := x.coded, tag := x.tag, pages := x.pages } = x ∧
          y.pages.map (fun p => { p with coded := [], tag := [] }) = x.pages.map (fun p => { p with coded := [], tag := [] }) ∧
          ∀ p, p ∈ y.pages → p.item / 2 ^ 28 = x.seq →
            (p.coded, p.tag) = Config.sealed c 2 p.item y.manifest (p.data.bytes 0 65536)) ∧
        y.manifest.length = 128 ∧
        y.manifest.take 2 = [0x43, 0x5A] ∧ ((y.manifest.drop 8).take 8) = toBytes 8 x.seq ∧ t.mem = s.mem))

/-- R292, R293, R297, R298, R306, R310, R312, R321, R324 to R330: the events of the copy engines and of the matrix engines. An
engine acts before its core issues on a clock. A matrix operation, dense or sparse, scaled or not, whose operands no store is
still to write leaves its sums in its entries; a column with a nibble that names no pair is undefined. Where the spec leaves a
choice the model's is stated: log entries 36, 50, 101. -/
def Obligations.EngineEvents : Prop :=
  (∀ (s : State) (core id chunk u : Nat) (units bytes : BitVec 32) (r : CopyRequest),
    let k := s.coreAt core
    let b := s.blockAt r.block
    let with_ := fun (q : CopyRequest) => k.copies.map fun x => if x.id == r.id then q else x
    let relay := fun (t : State) => t.relayOf r.block r.ch.toNat
    let plain := ∀ gk q, q ∈ (s.sysAt gk).cp → q.record = none
    let leaves := fun (t : State) => (∀ x, x ∈ (t.coreAt core).copies ↔ x ∈ k.copies ∧ x.id ≠ id) ∧
      ∀ gk p, r.entries = [(gk, p)] → (s.sysAt gk).cp.map Pending.id = [p] → (t.sysAt gk).cp = []
    let pushes := fun (t : State) => leaves t ∧ (relay t).filled = (relay s).filled + 1 ∧ (relay t).held = (relay s).held ∧
      (relay t).head = (relay s).head ∧ t.mem = s.mem ∧
      ((s.clusterAt (b.core / 4)).entries = [] →
        t.spad.read (padKey b.core (ringOffset b (relay s) ((relay s).head + (relay s).filled))) 4 = r.baton.toNat)
    (k.copies.find? (fun x => x.ready && !x.started) = some r → (∀ x, x ∈ k.copies → x.pushSince = none) →
      (k.copies.filter CopyRequest.started).length < 4 → (∀ j, j ∈ r.after → s.opOpen j = false) →
      Happens (.copyTransferStart core) s fun t => (t.coreAt core).copies = with_ { r with started := true } ∧ s.SameMemory t) ∧
    ((∃ x, x ∈ k.copies ∧ x.pushSince ≠ none) ∨ 4 ≤ (k.copies.filter CopyRequest.started).length →
      exec (.copyTransferStart core) s = .next s) ∧
    let free := (s.coreAt core).turnAt ≠ some s.now
    (free → s.requestOf core id = some r → r.started = true → r.tensor = none → s.mayMove core id chunk units = true →
      s.flashBad r u = false → (r.left.filter fun x => x / 32 == chunk && units.getLsbD (x % 32)) = [u] →
      let happens := Happens (.copyChunkDone core id chunk ⟨units, bytes⟩) s
      let reads := fun (src : Nat → Byte) (t : State) => s.SameMemory t ∧ t.blocks = s.blocks ∧
        ∃ q : CopyRequest, (t.coreAt core).copies = with_ q ∧ { q with read := r.read, held := r.held } = r ∧
          (∀ v, v ≠ u → q.read.get v 0 = r.read.get v 0) ∧
          q.read.get u 0 = r.read.get u 0 ||| bytes &&& 0xFFFF ∧ ∀ i, i < 16 → q.held.byte (32 * u + i) =
            if bytes.getLsbD i ∧ (r.read.get u 0).getLsbD i = false then src i else r.held.byte (32 * u + i)
      (r.isRead u = false →
        (∀ c a, r.source = .pad c a → happens (reads fun i => s.spad.byte (padKey c (a + 16 * u + i)))) ∧
        (∀ a pa, r.source = .global a → (∀ i, i < 16 → s.placeAt core r.context (a + 16 * u + i) .read = .mem (pa + i)) →
          s.engineHazard core r.context (a + 16 * u) 16 .read = none → happens (reads fun i => s.mem.byte (pa + i))) ∧
        ∀ a f, r.source = .flash a → s.flashOf r.context = some f → happens
          (reads fun i => (f.unit ((a + 16 * u + i) / 4096)).byte ((a + 16 * u + i) % 4096))) ∧
      (r.isRead u = true → (∀ i, i < 16 → inSource r (16 * u + i) = false) →
      let left := r.left.filter (· ≠ u)
      let moved := fun (t : State) => (t.coreAt core).copies = with_ { r with left := left } ∧
        ∀ m, r.bm = some m → (t.blockAt r.block).bitmaps = if ∃ x, x ∈ left ∧ x / 32 = chunk then b.bitmaps
          else b.bitmaps.set (m + chunk / 64) (b.bitmaps.get (m + chunk / 64) 0 ||| BitVec.ofNat 64 (2 ^ (chunk % 64)))
      (∀ d z, r.dest = .pad d z → (s.clusterAt (d / 4)).entries = [] → happens fun t =>
        moved t ∧ t.mem = s.mem ∧ ∀ x, t.spad.byte x = if padKey d (z + 16 * u) ≤ x ∧ x < padKey d (z + 16 * u) + 16
          then r.held.byte (32 * u + (x - padKey d (z + 16 * u))) else s.spad.byte x) ∧
      (∀ z pa, r.dest = .global z → s.placeAt core r.context (z + 16 * u) .write = .mem pa →
        s.engineHazard core r.context (z + 16 * u) 16 .write = none → happens fun t =>
        moved t ∧ t.spad = s.spad ∧ ∀ x, t.mem.byte x = if pa ≤ x ∧ x < pa + 16
          then r.held.byte (32 * u + (x - pa)) else s.mem.byte x) ∧
      ∀ z f, r.dest = .flash z → s.flashOf r.context = some f → happens fun t => moved t ∧ t.mem = s.mem ∧ t.spad = s.spad ∧
        t.flashOf r.context = some (f.put r.id (z + 16 * u) ((List.range 16).map fun i => r.held.byte (32 * u + i))))) ∧
    (free → plain → s.requestOf core id = some r → r.started = true → r.tensor = none → r.left = [] → r.pushSince = none → r.id = id →
      let happens := Happens (.copyCompletion core id) s
      (r.ch = 63 → happens fun t => leaves t ∧ t.blocks = s.blocks ∧ s.SameMemory t) ∧
      (r.ch ≠ 63 → 1 ≤ (relay s).allow → s.laterPushed r = false → s.splitsWaiting r.block r.ch.toNat true s.now (2 ^ 32) none = false →
        (∀ x, x ∈ k.copies → x.pushSince = none) → (∀ x, x ∈ (s.coreAt b.core).copies → x.pushSince = none) → happens pushes) ∧
      (r.ch ≠ 63 → (relay s).allow = 0 → happens fun t => (t.coreAt core).copies = with_ { r with pushSince := some s.now } ∧
        t.blocks = s.blocks ∧ s.SameMemory t)) ∧
    (∀ since, free → plain → s.requestOf core id = some r → r.pushSince = some since → r.id = id → s.copyMayPush core r since = true →
      1 ≤ (relay s).allow ∧ Happens (.copyPushGrant core id) s pushes) ∧
    ∀ slot (p : Pending) l x, slot < 16 → (s.sysAt (16 * core + slot)).cp = [p] → p.act = .persist l → p.finished = false →
      let c := (s.blockAt (s.groupAt (16 * core + slot)).block).context
      s.flashOf c = some x → Happens (.persistDurable core slot p.id) s fun t => (t.sysAt (16 * core + slot)).cp = [] ∧
        s.SameMemory t ∧ ∀ y, x.late = [y] → ∃ z, t.flashOf c = some z ∧
          (((y.copy, y.unit) ∉ l → z = x) ∧
           ((y.copy, y.unit) ∈ l → z.late = [] ∧ ∀ a, z.data.byte a = if 4096 * y.unit ≤ a ∧ a < 4096 * (y.unit + 1)
             then y.data.byte (a - 4096 * y.unit) else x.data.byte a))) ∧
  ∀ (s : State) (cluster array : Nat),
    let k := s.clusterAt cluster
    (∀ x l, s.nextPass cluster array = x :: l → array < 4 →
      (∀ y, y ∈ s.waitingEntries cluster → servable k y = true → grantsBefore y x = false) ∧ l.length < 12 ∧
      (∀ y, y ∈ l → y.key = x.key ∧ y.running = none ∧ y.finished = false) ∧
      Happens (.matrixPassGrant cluster array) s fun t =>
        let a := Cluster.array (t.clusterAt cluster) array
        a.key = some x.key ∧ a.stale = false ∧ a.busy = (x :: l).map MatrixEntry.id ∧ a.pins = (Cluster.array k array).pins ∧
        (∀ y, y ∈ k.entries → y.id ∈ a.busy → ∃ z, z ∈ (t.clusterAt cluster).entries ∧ z.running = some array ∧
          { z with running := y.running, grant := y.grant } = y) ∧
        (∀ y, y ∈ k.entries → y.id ∉ a.busy → y ∈ (t.clusterAt cluster).entries) ∧ s.SameMemory t) ∧
    ∀ (e : MatrixEntry) (p : Pending),
      let cols := e.key.fmt.tileN
      let b := s.blockAt e.block
      let kk := e.key.fmt.tileK e.key.sparse
      let gk := 16 * e.core + e.slot
      let row := kk * e.afmt.element / 8
      let blocks := kk / 32
      let scale := fun (core off : Nat) => Fmt.sc12.decode (s.spad.read (padKey core off) 2)
      let pair := fun (g n : Nat) => s.spad.read (padKey e.key.core (e.key.off + 12288 + 64 * g + n / 2)) 1 / 16 ^ (n % 2) % 16
      let rows := if e.key.sparse then 15360 else kk * (cols * e.key.fmt.element / 8)
      let A := fun (r i : Nat) => s.padElement e.aCore (e.aOff + r * row) e.afmt i
      let B := fun (i n : Nat) =>
        if e.key.sparse = true then
          if i % 4 = pair (i / 4) n % 4 then s.padElement e.key.core (e.key.off + 256 * (i / 4)) e.key.fmt n
          else if i % 4 = pair (i / 4) n / 4 then s.padElement e.key.core (e.key.off + 256 * (i / 4) + 128) e.key.fmt n
          else .num (Dy.ofNat 0)
        else s.padElement e.key.core (e.key.off + i * (cols * e.key.fmt.element / 8)) e.key.fmt n
      let term := fun (r n j : Nat) => exactMul (exactMul
        (blockSum ((List.range 32).map fun i => exactMul (A r (32 * j + i)) (B (32 * j + i) n)))
        (scale e.aCore (e.aOff + 8 * row + 2 * (r * blocks + j)))) (scale e.key.core (e.key.off + rows + 2 * (j * cols + n)))
      k.entries.find? (fun x => x.id == e.id) = some e → mayFinish k e = true → e.spoiled = false → s.openStores e = [] →
      (∀ i, i < 8 * cols → b.accKey (e.acc + i) ≠ none ∧ ∀ j, j < i → b.accKey (e.acc + j) ≠ b.accKey (e.acc + i)) →
      (s.sysAt gk).tm = [p] → p.act = .matrix [e.id] → p.after = [] → p.finished = false → e.slot < 16 → cluster = e.core / 4 →
      (k.entries.filter fun x => x.id == e.id) = [e] →
      Happens (.matrixOperationComplete cluster e.id) s fun t =>
        (t.sysAt gk).tm = [] ∧ t.mem = s.mem ∧ t.spad = s.spad ∧
        (∀ a, a < 4 → e.id ∉ (Cluster.array (t.clusterAt cluster) a).busy) ∧
        (∀ r n, r < 8 → n < cols → (e.key.sparse = true → ∀ g, g < 48 → pair g n % 4 < pair g n / 4) →
          let q := (s.accOf e.block (e.acc + r * cols + n)).toNat
          t.accOf e.block (e.acc + r * cols + n) = BitVec.ofNat 128
            (if e.key.fmt.scaledB = true then (List.range blocks).foldl (fun q j => add128 q (term r n j)) q
             else (List.range kk).foldl (fun q i => add128 q (exactMul (A r i) (B i n))) q)) ∧
        (∀ x, (∀ i, i < 8 * cols → b.accKey (e.acc + i) ≠ some x) → t.accAt x = s.accAt x)

/-- R219, R23, R27, R235, R267, R270 to R272, R274: region descriptors, laps, exchanges and their partners, snapshots and merged
lines that arrive, accesses of peer devices, rosters. A die whose replica an exchange raises takes its partner's values of every
region in force, so that what was held before a join is held with it (R287, R288). Where the spec leaves a choice the model's is
stated: log entries 32, 34, 76, 88, 95, 96, 98, 102. -/
def Obligations.LatticeEvents : Prop :=
  (∀ k n v w, n ≤ 4 →
    let pair := fun (sched : BitVec 2) => w ∈ lapPartners sched k n v
    (pair 0 ↔ v < n ∧ w < n ∧ v ≠ w ∧ (if k % 2 = 0 then v / 2 = w / 2 else v + w = 3)) ∧
    (pair 1 ↔ v < n ∧ w < n ∧ v ≠ w ∧ (if k % 2 = 0 then v / 2 = w / 2 else v % 2 = w % 2)) ∧
    (pair 2 ↔ v < n ∧ w < n ∧ v ≠ w)) ∧
  ∀ (s : State) (c region a b : Nat),
    let x := s.contextAt c
    let q := x.regions.get region 0
    let ty := (latTypeOf (regionType q)).getD .maxN32
    let n := if ty.wide then 8 else 4
    let l := s.lapAt c region
    let lap := fun (t : State) (d : Nat) (old : LapState) (number begun : Nat) (pending : List Nat) =>
      let m := t.lapAt c region d
      m.number = number ∧ m.begun = begun ∧ m.pending = pending ∧ m.inLap = !pending.isEmpty ∧
        m.ends = if pending = [] then old.ends + 1 else old.ends
    let still := x.roster = [] ∨ s.hw.poisoned = []
    let only := fun (t : State) => { t with contexts := s.contexts, hw := s.hw, tick := s.tick } = s
    (∀ v : QWord, (s.contexts.at? c).isSome = true → region < 16 → x.vdies.Nodup → (∀ d, d ∈ x.vdies → d < 4) →
      (v.getLsbD 83 = true → regionFine x region (regionBits v) = true → s.regionMapped c v = true) → still →
      Happens (.regionDescriptorWrite c region v) s fun t =>
        let r := (t.contextAt c).regions.get region 0
        let fine := (v.extractLsb' 0 16 = 0 ∧ regionBase v + 65536 * regionPages v ≤ 2 ^ 60 ∧ regionPages v ≠ 0 ∧
          regionLap v ≠ 0 ∧ (regionType v).toNat ≤ 8 ∧ regionSched v ≠ 3 ∧ ¬ (regionType v = 8 ∧ v.getLsbD 80 = true) ∧
          ∀ e, e ∈ x.regions → e.1 ≠ region → e.2.getLsbD 83 = true →
            regionBase v + 65536 * regionPages v ≤ regionBase e.2 ∨ regionBase e.2 + 65536 * regionPages e.2 ≤ regionBase v)
        only t ∧ r.extractLsb' 0 83 = v.extractLsb' 0 83 ∧ r.extractLsb' 84 32 = v.extractLsb' 84 32 ∧ r.extractLsb' 116 12 = 0 ∧
        (r.getLsbD 83 = true ↔ v.getLsbD 83 = true ∧ fine) ∧
        (r.getLsbD 83 = true → ∀ d, d ∈ x.vdies →
          lap t d LapState.none 0 s.now (lapPartners (regionSched v) 0 x.vdies.length (vdieOf x d)))) ∧
    (q.getLsbD 83 = true → a ∈ x.vdies → a < 4 → (l a).inLap = false → (l a).begun + 256 * regionLap q ≤ s.now → still →
      Happens (.lapBegin c region a) s fun t => only t ∧
        lap t a (l a) ((l a).number + 1) s.now (lapPartners (regionSched q) ((l a).number + 1) x.vdies.length (vdieOf x a)) ∧
        ∀ d, d ≠ a → d < 4 → t.lapAt c region d = l d) ∧
    (∀ fa fb : Nat → Nat → Nat, s.mayExchange c region a b = true → a < 4 → b < 4 → a ≠ b →
      s.badReplica c region a = none → s.badReplica c region b = none → still → (s.contexts.at? c).isSome = true → (x.regions.map Prod.fst).Nodup →
      let has := fun r p => (∃ e, x.regions.at? r = some e ∧ e.getLsbD 83 = true) ∧ p < regionPages (x.regions.get r 0)
      (∀ r p, has r p → s.replicaFrame c r a p = some (fa r p) ∧ s.replicaFrame c r b p = some (fb r p)) →
      (∀ r p i j, has r p → has i j → fa r p ≠ fb i j ∧ ((r, p) ≠ (i, j) → fa r p ≠ fa i j ∧ fb r p ≠ fb i j)) →
      let kind := fun r => (latTypeOf (regionType (x.regions.get r 0))).getD .maxN32
      let size := fun r => if (kind r).wide then 8 else 4
      let cell := fun (m : Memory) (r f k : Nat) => m.read (65536 * f + size r * k) (size r)
      let joined := fun r p k => (kind r).join (cell s.mem r (fa r p) k) (cell s.mem r (fb r p) k) % 2 ^ (8 * size r)
      let rises := fun (f : Nat → Nat → Nat) => ∃ p k, has region p ∧ k < 65536 / n ∧
        joined region p k ≠ cell s.mem region (f region p) k
      Happens (.latticeExchange c region a b) s fun t =>
        (∀ f, f = fa ∨ f = fb → ∀ r p k, has r p → k < 65536 / size r →
          (r = region ∨ rises f → cell t.mem r (f r p) k = joined r p k) ∧
          (r ≠ region → ¬ rises f → cell t.mem r (f r p) k = cell s.mem r (f r p) k)) ∧
        (∀ z, (∀ r p, has r p → z / 65536 ≠ fa r p ∧ z / 65536 ≠ fb r p) → t.mem.byte z = s.mem.byte z) ∧
        t.spad = s.spad ∧
        lap t a (l a) (l a).number (l a).begun ((l a).pending.filter (· ≠ vdieOf x b)) ∧
        lap t b (l b) (l b).number (l b).begun ((l b).pending.filter (· ≠ vdieOf x a))) ∧
    (∀ device v off f (bytes : List Byte), q.getLsbD 83 = true → q.getLsbD 80 = true → device ∈ x.roster → v < x.vdies.length →
      off % n = 0 → bytes.length = n → s.replicaFrame c region (x.vdies.getD v 0) (off / 65536) = some f →
      (s.contexts.at? c).isSome = true →
      let pa := 65536 * f + off % 65536
      let i := Instr.fabricSnapshotArrival c region device v [(off, bytes)]
      (s.poisonedAt pa n = false → Happens i s fun t =>
        t.mem.read pa n = ty.join (s.mem.read pa n) (ofBytes bytes) % 2 ^ (8 * n) ∧
        (∀ z, z < pa ∨ pa + n ≤ z → t.mem.byte z = s.mem.byte z) ∧
        ((s.firm.at? c).isSome = true → f ∈ (t.firmAt c).written) ∧
        { t with mem := s.mem, firm := s.firm, hw := s.hw, tick := s.tick } = s) ∧
      (s.poisonedAt pa n = true → Happens i s fun t => t.contexts.at? c = none)) ∧
    (∀ (window line pa : Nat) (fn : AtomFn) (elements : List Byte),
      let w := x.windows.get window 0
      let n := fn.bytes
      w.getLsbD 60 = true → w.getLsbD 61 = true → windowFn (winOp w) = some fn → 128 * line < winSize w → elements.length = 128 →
      s.homePlace c (winBase w + 128 * line) = some pa → s.poisonedAt pa 128 = false →
      let sums := fun (m : Memory) => ∀ k, k < 128 / n → m.read (pa + n * k) n =
        fn.apply (s.mem.read (pa + n * k) n) (BitVec.ofNat 128 (ofBytes ((elements.drop (n * k)).take n))) % 2 ^ (8 * n)
      (winDone w = 0 → Happens (.reductionLineDelivery c window line elements) s fun t => sums t.mem ∧
        (∀ z, z < pa ∨ pa + 128 ≤ z → t.mem.byte z = s.mem.byte z) ∧ t.spad = s.spad ∧ t.groups = s.groups) ∧
      (∀ e, winDone w ≠ 0 → (∀ u : State, { u with mem := s.mem, hw := s.hw, firm := s.firm } = s → { u.hw with hostOut := s.hw.hostOut } = s.hw →
          (∀ z, z < pa ∨ pa + 128 ≤ z → u.mem.byte z = s.mem.byte z) → u.homePlace c (winDone w) = some e) →
        e + 8 ≤ pa ∨ pa + 128 ≤ e → s.poisonedAt e 8 = false →
        Happens (.reductionLineDelivery c window line elements) s fun t => sums t.mem ∧
          t.mem.read e 8 = (s.mem.read e 8 + 1) % 2 ^ 64 ∧
          (∀ z, z < pa ∨ pa + 128 ≤ z → z < e ∨ e + 8 ≤ z → t.mem.byte z = s.mem.byte z) ∧ t.spad = s.spad)) ∧
    (∀ (device f off n : Nat) (op : Option AtomFn) (write : Bool) (data : QWord),
      let pa := 65536 * f + off
      let answer := FabricMessage.answer device f off n (BitVec.ofNat 128 (s.mem.read pa n))
      let asks := Instr.peerFabricRequest c device f off n op write data
      (device ∉ x.roster ∨ s.frameUsable c f = false ∨ 65536 < off + n ∨ s.poisonedAt pa n = true → exec asks s = .next s) ∧
      (device ∈ x.roster → s.frameUsable c f = true → off + n ≤ 65536 → s.poisonedAt pa n = false →
        (op = none → write = false → Happens asks s fun t => t.hw.fabricOut = s.hw.fabricOut ++ [answer] ∧ t.mem = s.mem) ∧
        (op = none → write = true → Happens asks s fun t => t.mem.read pa n = data.toNat % 2 ^ (8 * n) ∧
          ∀ z, z < pa ∨ pa + n ≤ z → t.mem.byte z = s.mem.byte z) ∧
        (∀ fn, op = some fn → fn.swaps = false → n = fn.bytes → Happens asks s fun t =>
          t.mem.read pa n = fn.apply (s.mem.read pa n) data % 2 ^ (8 * n) ∧
          (∃ l, t.hw.fabricOut = l ++ [answer]) ∧ ∀ z, z < pa ∨ pa + n ≤ z → t.mem.byte z = s.mem.byte z))) ∧
    (∀ devices, (s.contexts.at? c).isSome = true →
      (Happens (.rosterTableWrite c devices true) s fun t => (t.contextAt c).roster = devices ∧
        { t.contextAt c with roster := x.roster } = x ∧ only t ∧ ∀ d, d ≠ c → t.contextAt d = s.contextAt d) ∧
      (Happens (.rosterTableWrite c devices false) s fun t => t.contexts = s.contexts ∧
        (t.hw.errorLog.getLast?.map LogEntry.type) = some 8))

/-- R357, R380, R382, R384, R395 to R403, R426: the TLBs, the fault queues and their service, the pacer, call rings from the host.
Where the spec leaves a choice the model's is stated: log entries 24, 25, 65, 66, 82, 93, 95. -/
def Obligations.ServiceEvents : Prop :=
  (∀ (s : State) (core die c page out outer : Nat),
    let va := 65536 * page
    let here := fun (m : MissEntry) => m.context == c && m.vpage == page
    let only := fun (t : State) => { t with cores := s.cores, dies := s.dies, tick := s.tick } = s
    let dk := s.dieAt (core / 64)
    ((s.contexts.at? c).isSome = true → core < 256 → (∀ e, e ∈ (s.coreAt core).tlb → e.covers c va = false) →
      Happens (.tlbMiss core c page out) s fun t => only t ∧
        (∀ e, dk.tlb.find? (fun e => e.covers c va) = some e → t.dies = s.dies ∧
          (e ∈ (t.coreAt core).tlb ∨ ∃ y, y ∈ (s.coreAt core).tlb ∧ y.covers e.context e.va = true)) ∧
        ((∀ e, e ∈ dk.tlb → e.covers c va = false) → t.cores = s.cores ∧
          ((∃ m, m ∈ dk.misses ∧ here m = true) → ∃ m, m ∈ (t.dieAt (core / 64)).misses ∧ here m = true ∧ core ∈ m.waiters) ∧
          ((∀ m, m ∈ dk.misses → here m = false) → dk.misses.length < 64 →
            (t.dieAt (core / 64)).misses = dk.misses ++ [{ context := c, vpage := page, waiters := [core] }]))) ∧
    (∀ m a, (s.dieAt die).misses.find? here = some m → s.badEntry c va = some a → Happens (.tlbFill die c page out outer) s fun t =>
      t.contexts.at? c = none) ∧
    (∀ m, (s.dieAt die).misses.find? here = some m → s.badEntry c va = none → Happens (.tlbFill die c page out outer) s fun t => only t ∧
      (∀ k, k ∈ (t.dieAt die).misses → here k = false) ∧
      (∀ e lv, walk s.mem (s.contextAt c).tbase va = .leaf e lv →
        (leafPeer e = true ∨ s.fillPasses (s.contextAt c) c e (s.frameOf die e lv va) = true) →
        (∃ k, k ∈ (t.dieAt die).tlb ∧ k.covers c va = true) ∧
        ∀ j, j ∈ m.waiters → ∃ k, k ∈ (t.coreAt j).tlb ∧ k.covers c va = true) ∧
      ((∀ e lv, walk s.mem (s.contextAt c).tbase va ≠ .leaf e lv) → t.cores = s.cores))) ∧
  (∀ (s : State) (die seq : Nat) (e : FaultEntry),
    let k := s.dieAt die
    let c := e.context
    let x := s.contextAt c
    let f := s.firmAt c
    let va := 65536 * e.vpage
    let tables := fun (frame a : Nat) => a / 65536 ≠ frame ∧ (a + 7) / 65536 ≠ frame ∧
      ∀ m : Memory, (∀ b, b / 65536 ≠ frame → m.byte b = s.mem.byte b) → entryFrom m va 0 4 x.tbase = some a
    let resumed := fun (t : State) (rejected : Bool) => (∀ y, y ∈ (t.dieAt die).faults → y.seq ≠ e.seq) ∧
      ∀ gk n z, e.wake = [.split gk n] → (s.groupAt gk).splits.at? n = some z → (s.blockAt (s.groupAt gk).block).context = c →
        z.missing = [e.vpage] → (t.groupAt gk).splits.at? n = some { z with
          missing := [], rejected := if rejected then z.rejected ++ [e.vpage] else z.rejected }
    let mapped := fun (t : State) (frame a : Nat) (data : List Byte) (r : Reservation) => resumed t false ∧
      t.mem.read a 8 = (serviceLeaf r frame).toNat ∧ t.frameAt frame = ownedFrame x c (leafPclass (serviceLeaf r frame)) ∧
      (t.firmAt c).allowance = f.allowance - 1 ∧
      (∀ i, i < 65536 → t.mem.byte (65536 * frame + i) = data.getD i 0) ∧
      ∀ b, b < a ∨ a + 8 ≤ b → b / 65536 ≠ frame → t.mem.byte b = s.mem.byte b
    let plain := e.wake = [] ∨ ∃ gk n, e.wake = [.split gk n]
    let asked := ∀ y, y ∈ s.hw.spaces → ∀ z, z ∈ y.2.extents → z.1 = 0 ∨ z ∈ y.2.asked
    let picked := fun r choice => s.pickFrame x.partition (r.attrs.extractLsb' 6 2).toNat (leafPclass (serviceLeaf r 0)) choice
    let refused := fun (t : State) => t.mem = s.mem ∧ t.groups = s.groups ∧ (t.hw.errorLog.getLast?.map LogEntry.type) = some 8 ∧
      ∀ y, y ∈ (t.dieAt die).faults → y.seq = e.seq → y.forwarded = false
    (∀ r rest, k.held = r :: rest → k.faults.length < 512 → Happens (.faultQueueHeldPost die) s fun t =>
      (t.dieAt die).held = rest ∧
      ((∀ y, y ∈ k.faults → ¬ (y.context = r.context ∧ y.vpage = r.vpage)) →
        (t.dieAt die).faults = k.faults ++ [{ r with seq := k.faultSeq }] ∧ (t.dieAt die).faultSeq = k.faultSeq + 1) ∧
      ((∃ y, y ∈ k.faults ∧ y.context = r.context ∧ y.vpage = r.vpage) →
        (t.dieAt die).faults.length = k.faults.length ∧ ∃ y z, y ∈ k.faults ∧ z ∈ (t.dieAt die).faults ∧
          z.context = r.context ∧ z.vpage = r.vpage ∧ z.seq = y.seq ∧ z.kind = y.kind ||| r.kind ∧ z.wake = y.wake ++ r.wake ∧
          z.count = min (y.count + r.count) 0xFFFFFFFF)) ∧
    (∀ core choice micros, s.firstFault die seq = some e → (servingDie die == farDieOf core) = true →
      s.serviceDue core e.part micros = true → s.mayService e = true → plain →
      let asks := fun agree => Instr.faultServiceEntry core die seq ⟨choice, agree⟩ micros
      (∀ agree, e.assisted = true → Happens (asks agree) s fun t => t.groups = s.groups ∧ t.contexts = s.contexts ∧
        ∀ y, y ∈ (t.dieAt die).faults → y.seq = seq → y.forwarded = true) ∧
      (e.assisted = false →
        (∀ agree, s.latticeFault e = true ∨ s.reservationOf c e.vpage = none → Happens (asks agree) s fun t => resumed t true ∧ t.mem = s.mem ∧
          t.hw.budgets.get (24 * core + e.part) 0 = s.hw.budgets.get (24 * core + e.part) 0 - micros) ∧
        ∀ r, s.latticeFault e = false → s.reservationOf c e.vpage = some r →
          (∀ agree, walk s.mem x.tbase va ≠ .absent → Happens (asks agree) s fun t => resumed t false ∧ t.mem = s.mem ∧ t.firm = s.firm) ∧
          (∀ agree, walk s.mem x.tbase va = .absent → r.attrs.getLsbD 8 = true → Happens (asks agree) s fun t => t.groups = s.groups ∧
            ∃ y, y ∈ t.hw.fetches ∧ y.server = core ∧ y.die = die ∧ y.seq = e.seq) ∧
          (∀ agree, walk s.mem x.tbase va = .absent → r.attrs.getLsbD 8 = false → f.allowance = 0 → Happens (asks agree) s fun t =>
            t.contexts.at? c = none) ∧
          (∀ frame a, walk s.mem x.tbase va = .absent → r.attrs.getLsbD 8 = false → f.allowance ≠ 0 → x.prot = false →
            picked r choice = some frame → tables frame a → Happens (asks false) s refused ∧
            (asked → Happens (asks true) s fun t => mapped t frame a [] r)))) ∧
    (∀ service data z, s.hw.fetches.find? (fun y => y.die == die && y.seq == seq) = some z → s.faultAt die seq = none →
      Happens (.hostFileFetchReply die seq service data) s fun t => (∀ y, y ∈ t.hw.fetches → ¬ (y.die = die ∧ y.seq = seq)) ∧
        { t with hw := s.hw, tick := s.tick } = s) ∧
    ∀ choice micros data r frame a z, s.hw.fetches.find? (fun y => y.die == die && y.seq == seq) = some z → s.faultAt die seq = some e →
      s.resumeDue z.server e.part micros = true → plain → asked → s.reservationOf c e.vpage = some r → walk s.mem x.tbase va = .absent → f.allowance ≠ 0 → x.prot = false →
      picked r choice = some frame → tables frame a → Happens (.hostFileFetchReply die seq ⟨⟨choice, micros⟩, false⟩ data) s refused ∧
      Happens (.hostFileFetchReply die seq ⟨⟨choice, micros⟩, true⟩ data) s fun t => mapped t frame a (data.take 65536) r ∧
        t.budgetOf z.server e.part = s.budgetOf z.server e.part - micros ∧ ∀ y, y ∈ t.hw.fetches → ¬ (y.die = die ∧ y.seq = seq)) ∧
  (∀ (s : State) (core tenant : Nat) (value : DWord),
    let w := value &&& 0x1FF7F
    let sum := ((List.range 24).map fun k =>
      let e := if k = tenant then w else s.pacer core k
      if e.getLsbD 16 then (e.extractLsb' 0 7).toNat else 0).sum
    (core < 16 → tenant < 24 → sum ≤ 100 → (w.extractLsb' 0 7).toNat ≤ 100 → w.extractLsb' 8 8 ≠ 0 →
      Happens (.pacerEntryWrite core tenant value) s fun t => t.pacer core tenant = w ∧
        (∀ j k, k < 24 → (j, k) ≠ (core, tenant) → t.pacer j k = s.pacer j k) ∧ { t with hw := s.hw, tick := s.tick } = s) ∧
    (100 < sum → exec (.pacerEntryWrite core tenant value) s = .next s) ∧
    (core < 16 → Happens (.pacerWindow core) s fun t => ∀ k, k < 24 → t.budgetOf core k =
      if (s.pacer core k).getLsbD 16 then ((s.pacer core k).extractLsb' 0 7).toNat else s.budgetOf core k) ∧
    (s.inService core = true → s.tenantInTurn core = some tenant → 0 < s.budgetOf core tenant →
      Happens (.pacerBudgetExhausted core tenant) s fun t => t.budgetOf core tenant = 0 ∧ t.lastTurn core = (tenant, 0)) ∧
    (s.inService core = true → Happens (.serviceCoreTakeover core) s fun t => core ∈ t.hw.serviceDown ∧
      (∀ y, y ∈ t.hw.fetches ↔ y ∈ s.hw.fetches ∧ y.server ≠ core) ∧ t.groups = s.groups) ∧
    ∀ c r rest g, (s.firmAt c).backlog = r :: rest → (s.spaceAt (s.contextAt c).space).rings.at? (s.firmAt c).ring = some g →
      s.ringHasRoom (s.contextAt c).space g = true → g.logSize ≤ 20 → s.hw.ended.find? (fun e => e.2.2.context == c) = none →
      Happens (.eventBacklogDrain c) s fun t => (t.firmAt c).backlog = rest ∧
        t.mem.read (windowBase (s.contextAt c).space + g.base) 4 = (g.head + 1).toNat ∧
        t.mem.bytes (windowBase (s.contextAt c).space + g.base + 64 + 64 * (g.head.toNat % 2 ^ g.logSize)) 32 = State.recordBytes r) ∧
  (∀ (s : State) (c space ring : Nat) (r : EventRecord) (g : Ring),
    s.hw.ended.find? (fun e => e.2.2.context == c) = some (space, ring, r) → (s.spaceAt space).rings.at? ring = some g →
    s.ringHasRoom space g = true → g.logSize ≤ 20 → Happens (.eventBacklogDrain c) s fun t =>
      t.hw.ended = s.hw.ended.erase (space, ring, r) ∧ t.firm = s.firm ∧
      t.mem.read (windowBase space + g.base) 4 = (g.head + 1).toNat ∧
      t.mem.bytes (windowBase space + g.base + 64 + 64 * (g.head.toNat % 2 ^ g.logSize)) 32 = State.recordBytes r) ∧
  ∀ (s : State) (core space ring micros die seq c : Nat) (g : Ring),
    let u := (s.charge core (16 + space) micros).consume space ring
    let called := fun (i : Instr) => Happens i s
    let is := fun (t v : State) => { t with cur := v.cur, tick := v.tick } = v
    let mine := s.boundTo space c
    space < 8 → (s.pendingRings space).head? = some ring → (s.spaceAt space).rings.at? ring = some g →
    (portDie (s.spaceAt space).port == farDieOf core) = true → s.serviceDue core (16 + space) micros = true →
    ((u.spaceAt space).rings.at? ring = some { g with tail := g.tail + 1 } ∧
      u.mem.read (windowBase space + g.base + 32) 4 = (g.tail + 1).toNat ∧
      u.budgetOf core (16 + space) = s.budgetOf core (16 + space) - micros ∧ u.groups = s.groups) ∧
    (∀ e, s.faultAt die seq = some e → e.assisted = false →
      (called (.hostCallReplay core space ring micros die seq) fun t => is t u) ∧
      called (.hostCallReject core space ring micros die seq) fun t => is t u) ∧
    (∀ e gk n z, s.faultAt die seq = some e → s.boundTo space e.context = true → e.assisted = true → e.forwarded = true → e.wake = [.split gk n] →
      (s.groupAt gk).splits.at? n = some z → (s.blockAt (s.groupAt gk).block).context = e.context → z.missing = [e.vpage] →
      (called (.hostCallReplay core space ring micros die seq) fun t => t.faultAt die seq = none ∧
        (t.groupAt gk).splits.at? n = some { z with missing := [] }) ∧
      (called (.hostCallReject core space ring micros die seq) fun t => t.faultAt die seq = none ∧
        (t.groupAt gk).splits.at? n = some { z with missing := [], rejected := z.rejected ++ [e.vpage] })) ∧
    (∀ cls sub, (mine = true → called (.hostCallKill core space ring micros c cls sub) fun t => t.contexts.at? c = none) ∧
      (mine = false → called (.hostCallKill core space ring micros c cls sub) fun t => is t u)) ∧
    (∀ k bound method, let i := Instr.hostCallPreempt core space ring micros k bound method
      (s.boundTo space (s.blockAt k).context = false → called i fun t => is t u) ∧
      (s.boundTo space (s.blockAt k).context = true → s.mayPreempt k (s.methodFor k bound method) = true →
        called i fun t => is t (u.request k bound method false))) ∧
    (∀ page dest, let i := Instr.hostCallMove core space ring micros c page dest
      (mine = true → s.assisted (s.contextAt c).partition 1 = true → u.mayMovePage c page dest = true →
        called i fun t => ∃ m, t.hw.tierMoves = s.hw.tierMoves ++ [m] ∧ m.context = c ∧ m.vpage = page ∧ m.dest = dest ∧
          m.host = true) ∧
      (mine = false ∨ s.assisted (s.contextAt c).partition 1 = false → called i fun t => is t u)) ∧
    (∀ page, let p := (s.spaceAt space).page page
      (s.spaceAt space).moveOf page = none → (s.spaceAt space).holds (65536 * page) = true → p.form = .plain → p.shared = false →
      (s.hintedSpace space = false → called (.hostCallCompressionHint core space ring micros page) fun t => is t u) ∧
      (s.hintedSpace space = true → called (.hostCallCompressionHint core space ring micros page) fun t => ((t.spaceAt space).page page).moving = true ∧
        ((t.spaceAt space).moveOf page).map TenantMove.compress = some true ∧ t.mem = u.mem)) ∧
    (mine = true → s.mayCut c = true → s.blocksOf c = [] → u.badPage c = none → called (.hostCallCheckpoint core space ring micros c) fun t =>
      ∃ x, t.hw.checkpoints.get c [] = s.hw.checkpoints.get c [] ++ [x] ∧ x.hostTriggered = true ∧ x.complete = false ∧
        x.seq = (s.firmAt c).ckNumber + 1) ∧
    (mine = false → called (.hostCallCheckpoint core space ring micros c) fun t => is t u)

/-- R27, R233, R261, R383 to R387, R389, R391, R393, R394, R411, R414, R418, R438: the tables of the security cores, measured code
and its report, and pages on the move. Where the spec leaves a choice the model's is stated: log entries 26, 71, 73, 86, 93, 95. -/
def Obligations.SecurityAndMoveEvents : Prop :=
  (∀ (s : State) (f : Nat) (w : DWord),
    let r := recordOfBits w
    let rest := fun (t : State) => ∀ d, d ≠ f → t.frameAt d = s.frameAt d
    let zero := fun (t : State) => ∀ a, t.mem.byte a = if a / 65536 = f then 0 else s.mem.byte a
    let asked := ∀ y, y ∈ s.hw.spaces → ∀ z, z ∈ y.2.extents → z.1 = 0 ∨ z ∈ y.2.asked
    (∀ agree, s.holdsTable f = true → w.extractLsb' 30 2 ≠ 3 → exec (.frameRecordChange f w agree) s = .next s) ∧
    (s.frameBusy f = false → s.poolMapped f = false → s.holdsTable f = false ∨ w.extractLsb' 30 2 = 3 →
      (Happens (.frameRecordChange f w false) s fun t => t.hw.frames = s.hw.frames ∧ t.mem = s.mem ∧
        (t.hw.errorLog.getLast?.map LogEntry.type) = some 8) ∧
      (w.extractLsb' 30 2 = 0 → Happens (.frameRecordChange f w true) s fun t => t.frameAt f = FrameRecord.free ∧ rest t ∧ zero t) ∧
      (w.extractLsb' 30 2 = 3 → Happens (.frameRecordChange f w true) s fun t =>
        t.frameAt f = { s.frameAt f with state := .quarantined } ∧ rest t ∧ t.mem = s.mem ∧
        ∀ k e, (s.frameAt f).owner ≠ 0xFFFE → e ∈ (t.coreAt k).tlb → e.context ≠ (s.frameAt f).owner.toNat) ∧
      (w.extractLsb' 30 2 = 1 → s.recordFine f r = true → asked → Happens (.frameRecordChange f w true) s fun t =>
        t.frameAt f = r ∧ r.owner = w.extractLsb' 0 16 ∧ r.part = w.extractLsb' 16 4 ∧ r.pclass = w.extractLsb' 20 2 ∧
        r.scok = w.getLsbD 22 ∧ r.code = w.getLsbD 23 ∧ r.lat = w.getLsbD 24 ∧ r.ltype = w.extractLsb' 25 4 ∧
        r.key = w.extractLsb' 32 32 ∧ rest t ∧ zero t) ∧
      (w.extractLsb' 30 2 = 1 → s.recordFine f r = false → Happens (.frameRecordChange f w true) s fun t =>
        t.hw = s.hw ∧ t.mem = s.mem))) ∧
  (∀ (s : State) (n : Nat) (q : QWord),
    let p := partitionOfBits q
    let all := fun k => if k = n then p else s.partitionAt k
    let held := fun (p : Partition) (g : Nat) => p.valid = true ∧ p.gran.getLsbD g = true
    let protected_ := ∃ e, e ∈ s.contexts ∧ e.2.prot = true ∧ e.2.partition = n
    let fine := (∀ k g, k < 16 → k ≠ n → g < 16 → ¬ (held (s.partitionAt k) g ∧ held p g)) ∧
      ¬ ((q.getLsbD 17 = true ∨ protected_) ∧ q.getLsbD 25 = true) ∧
      (∀ g, g < 16 → held (s.partitionAt n) g → ¬ held p g → s.granuleUsed n g = false) ∧
      ((List.range 16).map fun k => (all k).farshare.toNat).sum ≤ 2048
    n < 16 →
      (Happens (.partitionTableWrite n q false) s fun t => t.hw.partitions = s.hw.partitions ∧
        (t.hw.errorLog.getLast?.map LogEntry.type) = some 8) ∧
      (fine → Happens (.partitionTableWrite n q true) s fun t => t.partitionAt n = p ∧ p.gran = q.extractLsb' 0 16 ∧
        p.valid = q.getLsbD 16 ∧ p.prot = q.getLsbD 17 ∧ p.checked = q.getLsbD 18 ∧ p.sealed = q.getLsbD 19 ∧
        p.mode = q.extractLsb' 20 6 ∧ p.farshare = q.extractLsb' 32 16 ∧ ∀ k, k ≠ n → t.partitionAt k = s.partitionAt k) ∧
      (¬ fine → Happens (.partitionTableWrite n q true) s fun t => t.hw = s.hw)) ∧
  (∀ (s : State) (c : Nat), (s.contexts.at? c).isSome = true →
    (∀ (nonce : BitVec 256), (Happens (.attestationRequest c ⟨nonce, false⟩) s fun t => t.hw.reports = s.hw.reports ∧
        (t.hw.errorLog.getLast?.map LogEntry.type) = some 8) ∧
      Happens (.attestationRequest c ⟨nonce, true⟩) s fun t => ∃ r, t.hw.reports = s.hw.reports ++ [r] ∧
      let x := s.contextAt c
      let p := s.partitionAt x.partition
      r.length = 280 ∧ r.take 2 = [1, 0] ∧ ((r.drop 2).take 2) = toBytes 2 (x.prot.toNat + 2 * (x.prot && p.sealed).toNat +
        4 * x.dbg.toNat + 8 * (!x.prot).toNat + 16 * p.checked.toNat) ∧
      ((r.drop 4).take 2) = toBytes 2 c ∧
      ((r.drop 8).take 32) = toBytes 32 nonce.toNat ∧ ((r.drop 40).take 48) = toBytes 48 (s.firmAt c).digest.toNat) ∧
    ∀ frames len, len ≤ 65536 * frames.length → s.usesEntries c none = false →
      (∀ f, f ∈ frames → (s.frameAt f).owner.toNat = c ∧ (s.frameAt f).usable c (s.contextAt c).partition = true) →
      (Happens (.codeImageMeasure c frames ⟨len, false⟩) s fun t => t.hw.frames = s.hw.frames ∧ t.firm = s.firm ∧ t.mem = s.mem ∧
        (t.hw.errorLog.getLast?.map LogEntry.type) = some 8) ∧
      Happens (.codeImageMeasure c frames ⟨len, true⟩) s fun t =>
        (∀ f, (t.frameAt f).code = ((s.frameAt f).code || frames.contains f)) ∧ t.mem = s.mem ∧
        (t.firmAt c).measured = (s.firmAt c).measured ++ [(frames, len)] ∧
        (t.firmAt c).digest = Config.measure (s.firmAt c).digest
          (((frames.map fun f => s.mem.bytes (65536 * f) 65536).flatten).take len)) ∧
  (∀ (s : State) (c page dest : Nat) (l : LeafAt),
    (∀ y, y ∈ s.hw.spaces → ∀ z, z ∈ y.2.extents → z.1 = 0 ∨ z ∈ y.2.asked) → s.assisted (s.contextAt c).partition 1 = false →
    s.mayMovePage c page dest = true → s.leafAtPage c page = some l →
    (s.hw.votes.headD true = false → Happens (.tierMigrationStart c page dest) s fun t => t.hw.frames = s.hw.frames ∧
      t.hw.tierMoves = s.hw.tierMoves ∧ t.mem = s.mem ∧ (t.hw.errorLog.getLast?.map LogEntry.type) = some 8) ∧
    (s.hw.votes.headD true = true → Happens (.tierMigrationStart c page dest) s fun t =>
      (∃ m, t.hw.tierMoves = s.hw.tierMoves ++ [m] ∧ m.context = c ∧ m.vpage = page ∧ m.source = leafAddr l.leaf ∧ m.dest = dest ∧
        m.frames = 2 ^ (pageBits l.level - 16)) ∧
      (∀ i, i < 2 ^ (pageBits l.level - 16) → t.frameAt (dest + i) = s.frameAt (leafAddr l.leaf + i)) ∧ t.mem = s.mem)) ∧
  (∀ (s : State) (a b : Nat), s.mem.wf = true →
    let v := s.switchFrame a b
    let leaves := v.leavesTo a
    let apart := a ≠ b ∧ ((leaves = []) ∨ ∃ e, leaves = [e] ∧ leafAddr e.2.leaf = a ∧ e.2.level = 0 ∧
      ∀ f, f = a ∨ f = b → e.2.pa / 65536 ≠ f ∧ (e.2.pa + 7) / 65536 ≠ f)
    let moved := fun (t : State) => (∀ i, i < 65536 → t.mem.byte (65536 * b + i) = s.mem.byte (65536 * a + i)) ∧
      t.frameAt b = s.frameAt a ∧
      ∀ e, leaves = [e] → t.mem.read e.2.pa 8 = (movedLeaf e.2.leaf b).toNat ∧
        ∀ k y, y ∈ (t.coreAt k).tlb → y.named e.1 (some (e.2.va / 65536, 1)) = false
    (∀ m, s.hw.tierMoves.find? (fun m' => m'.id == m.id) = some m → m.source = a → m.dest = b → m.frames = 1 →
      s.rangeIdle a 1 = true → m.host = false → s.moveUsable m = true → s.moveHeld m = false → apart →
      Happens (.migrationSwitchCommit m.id) s fun t => moved t ∧
        (s.hw.votes.headD true = true → t.frameAt a = FrameRecord.free ∧ ∀ i, i < 65536 → t.mem.byte (65536 * a + i) = 0) ∧
        (s.hw.votes.headD true = false → t.frameAt a = s.frameAt a ∧ (t.hw.errorLog.getLast?.map LogEntry.type) = some 8) ∧
        ∀ m', m' ∈ t.hw.tierMoves → m'.id ≠ m.id) ∧
    (∀ m, s.hw.tierMoves.find? (fun m' => m'.id == m.id) = some m → m.source = a → m.dest = b → m.frames = 1 →
      s.rangeIdle a 1 = true → m.host = false → s.moveUsable m = false ∨ s.moveHeld m = true → Happens (.migrationSwitchCommit m.id) s fun t =>
        (∀ z, z / 65536 ≠ b → t.mem.byte z = s.mem.byte z) ∧ ∀ m', m' ∈ t.hw.tierMoves → m'.id ≠ m.id) ∧
    (∀ c, (s.runOf a).table = some (c, none) → s.mayLeave a b = true → (s.frameAt a).state ≠ .free → s.hw.votes.headD true = true →
      Happens (.frameErrorThreshold a b) s fun t => (t.contextAt c).tbase = 65536 * b ∧ (t.frameAt a).state = .quarantined) ∧
    ((s.runOf a).first = a → (s.runOf a).count = 1 → (s.runOf a).table = none →
      s.mayLeave a b = true → (s.frameAt a).state ≠ .free → s.hw.votes.headD true = true → apart → Happens (.frameErrorThreshold a b) s fun t => moved t ∧
      (t.frameAt a).state = .quarantined) ∧
    (s.mayLeave a b = true → (s.frameAt a).state = .free → s.hw.votes.headD true = true → Happens (.frameErrorThreshold a b) s fun t =>
      (t.frameAt a).state = .quarantined ∧ t.mem = s.mem) ∧
    (s.mayLeave a b = true → s.hw.votes.headD true = false → Happens (.frameErrorThreshold a b) s fun t =>
      t.hw.frames = s.hw.frames ∧ t.mem = s.mem ∧ (t.hw.errorLog.getLast?.map LogEntry.type) = some 8)) ∧
  ∀ (s : State) (space n : Nat), s.mem.wf = true →
    let x := s.spaceAt space
    let p := x.page n
    let asked := ∀ y, y ∈ s.hw.spaces → ∀ z, z ∈ y.2.extents → z.1 = 0 ∨ z ∈ y.2.asked
    space < 8 → x.holds (65536 * n) = true →
    (x.moveOf n = none → p.form = .plain →
      (∀ choice, p.shared = false → s.hintedSpace space = false → Happens (.tenantPageMoveStart space n true choice) s fun t =>
        ((t.spaceAt space).page n) = { p with moving := true } ∧ t.mem = s.mem ∧
        (t.spaceAt space).moveOf n = some { page := n, compress := true, dest := 0, remark := [] }) ∧
      (∀ choice, s.hintedSpace space = true → exec (.tenantPageMoveStart space n true choice) s = .next s) ∧
      (∀ choice f, s.pickFar choice = some f → p.shared = false → s.hw.votes.headD true = false →
        Happens (.tenantPageMoveStart space n false choice) s fun t => t.hw.spaces = s.hw.spaces ∧ t.hw.frames = s.hw.frames ∧
          t.mem = s.mem ∧ (t.hw.errorLog.getLast?.map LogEntry.type) = some 8) ∧
      (∀ choice f, s.pickFar choice = some f → f ≠ p.loc → asked → p.shared = false → s.hw.votes.headD true = true →
        Happens (.tenantPageMoveStart space n false choice) s fun t => ((t.spaceAt space).page n) = { p with moving := true } ∧ t.frameAt f = s.frameAt p.loc ∧
        (t.spaceAt space).moveOf n = some { page := n, compress := false, dest := f, remark := [] } ∧
        ∀ i, i < 65536 → t.mem.byte (65536 * f + i) = s.mem.byte (65536 * p.loc + i))) ∧
    (∀ choice, p.form = .compressed → s.hintedSpace space = true → exec (.tenantPageMoveStart space n false choice) s = .next s) ∧
    ∀ m loc sectors, x.moveOf n = some m → loc < 1024 * farFrames → sectors ≠ [] →
      let i := Instr.tenantPageMoveCommit space n loc sectors
      let settled := fun (t : State) (q : TenantPage) => (t.spaceAt space).page n = q ∧ (t.spaceAt space).moveOf n = none
      let within := fun (l : List Nat) (a : Nat) => ∃ z, z ∈ l ∧ a / 65536 = z / 16
      let taken := fun (t : State) => ∀ z, z ∈ sectors → s.isFree (z / 16) = true → t.frameAt (z / 16) = State.hostFrame
      (m.compress = true → sectors.length = 16 → (p.form = .plain ∧ s.frameBusy p.loc = false) ∨ p.form = .compressed →
        Happens i s fun t => settled t { p with moving := false } ∧ t.mem = s.mem) ∧
      (m.compress = true → sectors.length ≤ 15 → s.sectorsFine space n sectors = true → s.hw.votes = [] → asked →
        (p.form = .plain → s.frameBusy p.loc = false → p.sectors = [] → (∀ z, z ∈ sectors → z / 16 ≠ p.loc) → Happens i s fun t =>
          let q := (t.spaceAt space).page n
          settled t q ∧ q.form = .compressed ∧ q.loc = loc ∧ q.sectors = sectors ∧ q.moving = false ∧ taken t ∧
          (∀ i, i < 65536 → q.packed.byte i = s.mem.byte (65536 * p.loc + i)) ∧ t.frameAt p.loc = FrameRecord.free ∧
          ∀ i, i < 65536 → t.mem.byte (65536 * p.loc + i) = 0) ∧
        (p.form = .compressed → Happens i s fun t => settled t { p with loc, sectors, moving := false } ∧ taken t ∧
          ∀ a, ¬ within sectors a → ¬ within p.sectors a → t.mem.byte a = s.mem.byte a)) ∧
      (m.compress = true → sectors.length ≤ 15 → s.sectorsFine space n sectors = true → s.hw.votes.headD true = false →
        (∃ z, z ∈ sectors ∧ s.isFree (z / 16) = true) → (p.form = .plain ∧ s.frameBusy p.loc = false) →
        Happens i s fun t => settled t { p with moving := false } ∧ t.mem = s.mem ∧ t.hw.frames = s.hw.frames) ∧
      (m.compress = false → sectors.length ≤ 16 → p.form = .compressed → p.shared = false → (∀ e, e ∈ x.buffer → e.1 / 1024 ≠ n) →
        (∀ z, z ∈ p.sectors → z / 16 ≠ m.dest) → Happens i s fun t =>
        let q := (t.spaceAt space).page n
        settled t q ∧ q.form = .plain ∧ q.loc = m.dest ∧ q.sectors = [] ∧ q.moving = false ∧
        (p.packed.wf = true → ∀ i, i < 65536 → t.mem.byte (65536 * m.dest + i) = p.packed.byte i))

/-- R245, R390, R421 to R425, R431: the commands of hosts: a slot accepted, a command that is turned away, what launches, copies,
map proposals, waits and publications do, with the final status in the completion record. Where the spec leaves a choice the
model's is stated: log entries 27, 28, 67, 68, 84, 95. -/
def Obligations.CommandEvents : Prop :=
  ∀ (s : State) (space : Nat) (c : Command),
    let x := s.spaceAt space
    let base := windowBase space
    let k := c.context
    let cx := s.contextAt k
    let final := fun (t : State) (status result : Nat) =>
      (∃ d, t.commandAt space c.seq = some d ∧ d.phase = .done ∧ d.status = status ∧ d.result = result) ∧
      t.mem.read (base + 16 * (c.seq.toNat % 4096) + 4) 1 = status % 256 ∧
      t.mem.read (base + 16 * (c.seq.toNat % 4096) + 6) 2 = result % 65536
    let ends := fun (i : Instr) (status : Nat) => Happens i s fun t => final t status 0
    let rest := fun (t : State) => t.groups = s.groups ∧ t.blocks = s.blocks ∧ t.spad = s.spad ∧ t.acc = s.acc
    let table : List (Instr × Prop) := [(.launchCommand space, c.kind = 1), (.hostCopy space c.seq [] 0, c.kind = 2),
      (.mapProposal ⟨space, true⟩, c.kind = 3), (.waitValue space, c.kind = 4), (.publishRequest space c.seq, c.kind = 5)]
    -- a slot accepted, and a command released
    (s.mayAccept space = true → s.offered space = c → x.commands.length < 4096 →
      (∀ d, d ∈ x.commands → d.seq ≠ c.seq) →
      let back := (c.seq - c.after).toNat
      let accepted := fun (t : State) => (t.spaceAt space).next = c.seq + 1 ∧
        (t.spaceAt space).commands.map Command.seq = x.commands.map Command.seq ++ [c.seq] ∧ rest t ∧
        t.mem.read (base + 16 * (c.seq.toNat % 4096)) 4 = c.seq.toNat ∧
        t.mem.read (base + 16 * (c.seq.toNat % 4096) + 8) 8 = c.field 8 8
      (c.kind = 0 ∨ 6 < c.kind → Happens (.commandSlotAccept space) s fun t =>
        accepted t ∧ (t.spaceAt space).halt = true ∧ t.commandAt space c.seq = some { c with phase := .done, status := 0x20 }) ∧
      (1 ≤ c.kind → c.kind ≤ 6 → c.av = true → back = 0 ∨ 4096 ≤ back → Happens (.commandSlotAccept space) s fun t =>
        accepted t ∧ final t 0x25 0) ∧
      (1 ≤ c.kind → c.kind ≤ 6 → (c.av = true → 1 ≤ back ∧ back ≤ 4095) → (c.kind = 6 → 1 ≤ c.sub ∧ c.sub ≤ 12) →
        Happens (.commandSlotAccept space) s fun t => accepted t ∧ t.commandAt space c.seq = some c ∧ c.phase = .accepted ∧
          t.mem.read (base + 16 * (c.seq.toNat % 4096) + 4) 1 = 0xFF)) ∧
    (∀ d, s.heldCommand space = some c → c.phase = .accepted → c.av = true → s.commandAt space c.after = some d → d.phase = .done →
      Happens (.afterRelease space) s fun t => t.commandAt space c.seq = some { c with phase := .released } ∧ t.mem = s.mem) ∧
    -- a command that starts
    (s.startable space = some c → s.commandAt space c.seq = some c →
      (∀ e, e ∈ table → e.2 → c.failsInReset = true → c.inReset = true → Happens e.1 s fun t => final t 0x23 0 ∧ rest t) ∧
      (∀ e, e ∈ table → e.2 → (c.failsInReset = true → c.inReset = false) → (c.needsCompute = true ∧ s.hw.power.computeUp = false) ∨
        s.namesResumed space c = true → exec e.1 s = .next s) ∧
      let open_ := (c.failsInReset = true → c.inReset = false) ∧ (c.needsCompute = true → s.hw.power.computeUp = true) ∧
        s.namesResumed space c = false
      (∀ e, e ∈ table → e.2 → open_ → c.namesContext = true →
        s.boundTo space k = false → Happens e.1 s fun t => final t 0x21 0 ∧ rest t) ∧
      (open_ → (c.namesContext = true → s.boundTo space k = true) →
        (c.kind = 1 →
          let q := 16 * cx.partition + c.sub
          (16 ≤ c.sub ∨ c.a0 % 128 ≠ 0 → ends (.launchCommand space) 0x21) ∧
          (c.sub < 16 → c.a0 % 128 = 0 → 64 ≤ (s.queues.get q []).length → ends (.launchCommand space) 0x24) ∧
          (c.sub < 16 → c.a0 % 128 = 0 → (s.queues.get q []).length < 64 → Happens (.launchCommand space) s fun t =>
            t.queues.get q [] = s.queues.get q [] ++ [s.nextId] ∧ (t.launchAt s.nextId).headerAddr = c.a0 ∧
            (t.launchAt s.nextId).context = k ∧ (t.launchAt s.nextId).phase = .queued ∧ rest t ∧ t.mem = s.mem ∧
            (t.commandAt space c.seq).map Command.phase = some .started)) ∧
        (c.kind = 2 →
          let fine := c.sub ≤ 1 ∧ c.a0 % 64 = 0 ∧ c.a1 % 64 = 0 ∧ c.a2 % 64 = 0 ∧ c.a0 + c.a2 ≤ 2 ^ 42 ∧ c.a1 + c.a2 ≤ 2 ^ 60
          (∀ l choice, ¬ fine → ends (.hostCopy space c.seq l choice) 0x21) ∧
          (∀ choice i e lv pa bytes, fine → 64 * i < c.a2 → c.copied = [] →
            s.checkPage (s.launchCore k) k [] (c.a1 + 64 * i) (if c.sub = 0 then .write else .read) = .page e lv →
            leafLat e = false → s.placeFor (s.launchCore k) e lv (c.a1 + 64 * i) = .mem pa → s.badEntry k (c.a1 + 64 * i) = none →
            s.poisonedAt pa 64 = false → s.frameUsable k (pa / 65536) = true → s.tenantLine space (c.a0 + 64 * i) = .bytes bytes → bytes.length = 64 →
            (c.sub = 0 → Happens (.hostCopy space c.seq [i] choice) s fun t => t.mem.bytes pa 64 = bytes ∧
              (∀ a, a < pa ∨ pa + 64 ≤ a → t.mem.byte a = s.mem.byte a) ∧
              (t.commandAt space c.seq).map Command.copied = some [i]) ∧
            (∀ q, c.sub = 1 → x.holds (c.a0 + 64 * i) = true → q = x.page ((c.a0 + 64 * i) / 65536) → q.form = .plain →
              x.moveOf ((c.a0 + 64 * i) / 65536) = none → c.a0 + 64 * i < tenantPages →
              s.poisonedAt (65536 * q.loc + (c.a0 + 64 * i) % 65536) 64 = false →
              Happens (.hostCopy space c.seq [i] choice) s fun t =>
                t.mem.bytes (65536 * q.loc + (c.a0 + 64 * i) % 65536) 64 = s.mem.bytes pa 64))) ∧
        (c.kind = 3 →
          let e := BitVec.ofNat 64 c.a1
          (¬ (c.sub ≤ 2 ∧ c.a0 < 2 ^ 60 ∧ (cx.prot = true → (s.partitionAt cx.partition).checked = true)) → ends (.mapProposal ⟨space, true⟩) 0x21) ∧
          (s.mayPropose c = true → s.mayMap k c.a0 c.sub = true → Happens (.mapProposal ⟨space, false⟩) s fun t => final t 0x21 0 ∧
            rest t ∧ (t.hw.errorLog.getLast?.map LogEntry.type) = some 8) ∧
          (s.mayPropose c = true → s.mayMap k c.a0 c.sub = true → leafV e = true → s.mapStatus k c.a0 e c.sub ≠ 0 →
            Happens (.mapProposal ⟨space, true⟩) s fun t => final t (0x10 + s.mapStatus k c.a0 e c.sub) 0 ∧ rest t ∧
              ∀ a, a < base ∨ base + 0x40000 ≤ a → t.mem.byte a = s.mem.byte a) ∧
          ∀ a, s.mayPropose c = true → s.mayMap k c.a0 c.sub = true → leafV e = true → s.mapStatus k c.a0 e c.sub = 0 →
            (∀ y, y ∈ s.hw.spaces → ∀ z, z ∈ y.2.extents → z.1 = 0 ∨ z ∈ y.2.asked) →
            leafLat e = false → entryFrom s.mem c.a0 c.sub 4 cx.tbase = some a → a + 8 ≤ base ∨ base + 0x40000 ≤ a →
            (∀ g, g ∈ leafFrames e c.sub → s.isFree g = false) →
            Happens (.mapProposal ⟨space, true⟩) s fun t => final t 0x10 0 ∧ t.mem.read a 8 = c.a1 % 2 ^ 64) ∧
        (c.kind = 4 → (¬ (c.sub ≤ 1 ∧ c.a0 % 8 = 0 ∧ c.a0 < if c.sub = 0 then 0x40000 else 2 ^ 60) → ends (.waitValue space) 0x21) ∧
          (c.sub = 0 → c.a0 % 8 = 0 → c.a0 < 0x40000 → Happens (.waitValue space) s fun t => t.mem = s.mem ∧
            t.commandAt space c.seq = some { c with phase := .started, startedAt := s.now })) ∧
        (c.kind = 5 → ∀ l, s.commandAt space (BitVec.ofNat 32 (c.field 16 4)) = some l → l.kind = 1 → l.phase = .done →
          c.a0 % 8 = 0 → 0x11040 ≤ c.a0 → c.a0 + 8 ≤ 0x40000 → l.seq ≠ c.seq →
          (l.status = 0 → Happens (.publishRequest space c.seq) s fun t => final t 0 0 ∧
            t.mem.read (base + c.a0) 8 = (s.mem.read (base + c.a0) 8 + 1) % 2 ^ 64) ∧
          (l.status ≠ 0 → ends (.publishRequest space c.seq) l.status)))) ∧
    -- a command that has started
    (s.commandAt space c.seq = some c → c.phase = .started →
      (c.kind = 2 → 64 * c.copied.length = c.a2 → ends (.hostCopyComplete space c.seq) 0) ∧
      (c.kind = 2 → s.namesResumed space c = true → ∀ l choice, exec (.hostCopy space c.seq l choice) s = .next s) ∧
      (c.kind = 4 → (∀ reply, c.sub = 0 → c.a1 ≤ s.mem.read (base + c.a0) 8 → ends (.waitValueSatisfied space c.seq reply) 0) ∧
        (c.field 40 4 ≠ 0 → c.startedAt + 2500 * c.field 40 4 ≤ s.now → ends (.waitValueTimeout space c.seq) 0x22)))

/-- R356, R377, R401, R404, R423, R425, R426, R429: the subcodes of context control, with the final status in the completion record.
Where the spec leaves a choice the model's is stated: log entries 20, 68, 69, 70, 95. -/
def Obligations.ControlEvents : Prop :=
  ∀ (s : State) (space : Nat) (c : Command),
    let x := s.spaceAt space
    let base := windowBase space
    let k := c.context
    let cx := s.contextAt k
    let f := s.firmAt k
    let final := fun (t : State) (status result : Nat) =>
      (∃ d, t.commandAt space c.seq = some d ∧ d.phase = .done ∧ d.status = status ∧ d.result = result) ∧
      t.mem.read (base + 16 * (c.seq.toNat % 4096) + 4) 1 = status % 256 ∧
      t.mem.read (base + 16 * (c.seq.toNat % 4096) + 6) 2 = result % 65536
    let ends := fun (i : Instr) (status : Nat) => Happens i s fun t => final t status 0
    let rest := fun (t : State) => t.groups = s.groups ∧ t.blocks = s.blocks ∧ t.spad = s.spad ∧ t.acc = s.acc
    let control := fun (sub : Nat) => c.kind = 6 ∧ c.sub = sub
    let debugs := c.kind = 6 ∧ c.sub = 9
    let regions := c.kind = 6 ∧ c.sub = 11
    let name := BitVec.ofNat 64 c.a1
    let table : List (Instr × Prop) := [(.contextCreate space 1 ⟨[0], true⟩, control 1), (.contextDestroy space, control 2),
      (.contextPreempt space, control 3), (.contextResume space, control 4), (.setCheckpointInterval space, control 5),
      (.setFrameAllowance space, control 6), (.registerReservation space, control 7), (.registerCallRing space, control 8),
      (.debugClaim space, debugs ∧ c.a0 = 0), (.debugRelease space, debugs ∧ c.a0 = 1), (.debugRead space, debugs ∧ c.a0 = 2),
      (.debugWrite space, debugs ∧ c.a0 = 3), (.checkpointNow space, control 10),
      (.persistentRegionCreate space false, regions ∧ c.a0 = 0), (.persistentRegionAttach space, regions ∧ c.a0 = 1),
      (.persistentRegionDetach space, regions ∧ c.a0 = 2), (.persistentRegionDestroy space, regions ∧ c.a0 = 3),
      (.frontEndResume space, control 12)]
    s.startable space = some c → s.commandAt space c.seq = some c →
      s.preempted space = none →
      (∀ e, e ∈ table → e.2 → c.failsInReset = true → c.inReset = true → Happens e.1 s fun t => final t 0x23 0 ∧ rest t) ∧
      (∀ e, e ∈ table → e.2 → (c.failsInReset = true → c.inReset = false) → (c.needsCompute = true ∧ s.hw.power.computeUp = false) ∨
        s.namesResumed space c = true → exec e.1 s = .next s) ∧
      let open_ := (c.failsInReset = true → c.inReset = false) ∧ (c.needsCompute = true → s.hw.power.computeUp = true) ∧
        s.namesResumed space c = false
      (∀ e, e ∈ table → e.2 → open_ → c.namesContext = true →
        s.boundTo space k = false → Happens e.1 s fun t => final t 0x21 0 ∧ rest t) ∧
      (open_ → (c.namesContext = true → s.boundTo space k = true) →
        (control 1 → ∀ n dies,
          let p := s.partitionAt c.a0
          let prot := c.a1 % 2 = 1
          let fine := c.a0 < 16 ∧ p.valid = true ∧ (prot → p.prot = true) ∧ ¬ (prot ∧ p.sealed = true ∧ c.a1 / 2 % 2 = 1) ∧ c.a3 < 256
          let root := if c.a1 % 2 = 1 then s.pickRun c.a0 0 1 4 else s.freeRun 0xC00000 farFrames s.farUsed 4
          (∀ agree, ¬ fine → ends (.contextCreate space n ⟨dies, agree⟩) 0x21) ∧
          (fine → s.mayCreate c n dies = true →
            (Happens (.contextCreate space n ⟨dies, false⟩) s fun t => final t 0x21 0 ∧ t.contexts = s.contexts ∧
              (t.hw.errorLog.getLast?.map LogEntry.type) = some 8) ∧
            (root = none → Happens (.contextCreate space n ⟨dies, true⟩) s fun t => final t 0x21 0 ∧ t.contexts = s.contexts) ∧
            ∀ r, root = some r → (∀ y, y ∈ s.hw.spaces → ∀ z, z ∈ y.2.extents → z.1 = 0 ∨ z ∈ y.2.asked) →
              Happens (.contextCreate space n ⟨dies, true⟩) s fun t => final t 0 n ∧ (t.contexts.at? n).isSome = true ∧
                let y := t.contextAt n
                y.partition = c.a0 ∧ y.space = space ∧ (y.prot = true ↔ prot) ∧ (y.dbg = true ↔ c.a1 / 2 % 2 = 1) ∧ y.vdies = dies ∧
                y.tbase = 65536 * r ∧ t.checkedOf n = p.checked ∧ (t.firmAt n).allowance = c.a2 ∧ (t.firmAt n).ring = c.a3)) ∧
        (control 2 → Happens (.contextDestroy space) s fun t => t.contexts.at? k = none ∧ final t 0 0) ∧
        (control 3 → (s.namedBlocks c = [] → ends (.contextPreempt space) 0) ∧
          (∀ b, s.namedBlocks c = [b] → s.mayPreempt b .flush = true → s.methodFor b c.a1 c.a2 = .flush →
            Happens (.contextPreempt space) s fun t => t.blocks.at? b = none ∧ final t 0 0) ∧
          ∀ b, s.namedBlocks c = [b] → s.mayPreempt b .drain = true → s.methodFor b c.a1 c.a2 = .drain →
            Happens (.contextPreempt space) s fun t => (t.blockAt b).drain.isSome = true ∧
              t.commandAt space c.seq = some { c with phase := .started, copied := [b] }) ∧
        (control 4 → Happens (.contextResume space) s fun t => final t 0 0 ∧ rest t ∧ (t.firmAt k).images = f.images.map fun i =>
          { i with queued := i.queued || (i.saved && (c.a0 == 2 ^ 64 - 1 || i.number == c.a0)) }) ∧
        (control 5 → Happens (.setCheckpointInterval space) s fun t => final t 0 0 ∧ rest t ∧
          t.firmAt k = { f with ckint := c.a0, ckAt := s.now }) ∧
        (control 6 → Happens (.setFrameAllowance space) s fun t => final t 0 0 ∧ rest t ∧ t.firmAt k = { f with allowance := c.a0 }) ∧
        (control 7 →
          let fine := c.a0 % 65536 = 0 ∧ c.a1 % 65536 = 0 ∧ c.a0 + c.a1 ≤ 2 ^ 60 ∧ c.a2 / 2 ^ 11 % 2 = 0
          (¬ fine → ends (.registerReservation space) 0x21) ∧
          (fine → Happens (.registerReservation space) s fun t => final t 0 0 ∧ (t.firmAt k).reservations =
            f.reservations ++ [{ va := c.a0, len := c.a1, attrs := BitVec.ofNat 16 (c.a2 / 4) }])) ∧
        (control 8 → let number := c.a2 / 256 % 256
          (State.ringFine x c = false → ends (.registerCallRing space) 0x21) ∧
          (State.ringFine x c = true → Happens (.registerCallRing space) s fun t => final t 0 0 ∧
            (t.spaceAt space).rings.at? number = some
              { base := c.a0, logSize := c.a1, fromHost := c.a2 % 2 = 1, purpose := c.a2 / 2 ^ 16 % 16, head := 0, tail := 0 } ∧
            t.mem.read (base + c.a0 + if c.a2 % 2 = 1 then 32 else 0) 4 = 0)) ∧
        (debugs → cx.dbg = false → (c.a0 = 0 → ends (.debugClaim space) 0x21) ∧ (c.a0 = 1 → ends (.debugRelease space) 0x21) ∧
          (c.a0 = 2 → ends (.debugRead space) 0x21) ∧ (c.a0 = 3 → ends (.debugWrite space) 0x21)) ∧
        (debugs → cx.dbg = true →
          (c.a0 = 0 → Happens (.debugClaim space) s fun t => final t 0 0 ∧ t.contextAt k = { cx with dbgHeld := true }) ∧
          (c.a0 = 1 → Happens (.debugRelease space) s fun t => final t 0 0 ∧ t.contextAt k = { cx with dbgHeld := false }) ∧
          (∀ core v, c.a0 = 2 → s.debugCore c = some core → c.a2 < 256 → s.debugCsr k core c.a2 = some v → c.a3 % 8 = 0 →
            0x11040 ≤ c.a3 → c.a3 + 8 ≤ 0x40000 → Happens (.debugRead space) s fun t => final t 0 0 ∧
              t.mem.read (base + c.a3) 8 = v.toNat) ∧
          (∀ core j, c.a0 = 3 → s.debugCore c = some core → c.a2 = 0x20 + j → (hj : j < 4) → Happens (.debugWrite space) s fun t =>
            final t 0 0 ∧ (t.coreAt core).bkpt[j] = bkptStored (BitVec.ofNat 64 c.a3) ∧ rest t) ∧
          (∀ core, c.a0 = 3 → s.debugCore c = some core → c.a2 = 0 → Happens (.debugWrite space) s fun t =>
            final t 0 0 ∧ t.contextAt k = (s.writeTvec k (BitVec.ofNat 64 c.a3)).contextAt k ∧ rest t) ∧
          (c.a0 = 3 → ¬ (c.a2 = 0 ∨ 0x20 ≤ c.a2 ∧ c.a2 ≤ 0x24 ∨ 0x40 ≤ c.a2 ∧ c.a2 ≤ 0x7F) → ends (.debugWrite space) 0x21)) ∧
        (control 10 → s.mayCut k = true → s.blocksOf k = [] → s.badPage k = none → Happens (.checkpointNow space) s fun t =>
          ∃ y, t.hw.checkpoints.get k [] = s.hw.checkpoints.get k [] ++ [y] ∧ y.seq = f.ckNumber + 1 ∧ y.hostTriggered = true ∧
            y.complete = false ∧ y.command = some (space, c.seq)) ∧
        (regions → c.a0 = 0 → ∀ full,
          let size := (c.a2 + 4095) / 4096 * 4096
          let fresh := (∀ r, r ∈ s.hw.flash → r.name ≠ name) ∧ s.flashOf k = none
          (¬ fresh → s.flashBusy k = false → ends (.persistentRegionCreate space full) 0x21) ∧
          (fresh → s.flashBusy k = false → full = true ∨ 2 ^ 44 < (s.hw.flash.map FlashRegion.size).sum + size →
            ends (.persistentRegionCreate space full) 0x26) ∧
          (fresh → s.flashBusy k = false → full = false → (s.hw.flash.map FlashRegion.size).sum + size ≤ 2 ^ 44 →
            Happens (.persistentRegionCreate space full) s fun t => final t 0 0 ∧ ∃ r, t.hw.flash = s.hw.flash ++ [r] ∧
              r.name = name ∧ r.size = size ∧ r.context = some k ∧ r.data = [] ∧
              r.measure = if cx.prot then some f.digest else none)) ∧
        (∀ r, regions → s.flashBusy k = false → s.regionNamed name = some r →
          (c.a0 = 1 → r.context.isSome = true ∨ (s.flashOf k).isSome = true ∨
              (r.measure ≠ none ∧ ¬ (cx.prot = true ∧ r.measure = some f.digest)) → ends (.persistentRegionAttach space) 0x21) ∧
          (c.a0 = 1 → r.context = none → s.flashOf k = none → r.measure = none ∨ (cx.prot = true ∧ r.measure = some f.digest) →
            r.late = [] → Happens (.persistentRegionAttach space) s fun t => final t 0 0 ∧ { r with context := some k } ∈ t.hw.flash) ∧
          (c.a0 = 3 → r.context ≠ none → ends (.persistentRegionDestroy space) 0x21) ∧
          (c.a0 = 3 → r.context = none → Happens (.persistentRegionDestroy space) s fun t => final t 0 0 ∧
            ∀ q, q ∈ t.hw.flash ↔ q ∈ s.hw.flash ∧ q.name ≠ r.name)) ∧
        (∀ r, regions → c.a0 = 2 → s.flashBusy k = false → s.flashOf k = some r → r.late = [] →
          Happens (.persistentRegionDetach space) s fun t => final t 0 0 ∧ { r with context := none } ∈ t.hw.flash) ∧
        (control 12 → Happens (.frontEndResume space) s fun t => final t 0 0 ∧ (t.spaceAt space).halt = false ∧ rest t))

/-- R391, R408, R409, R412, R413, R415, R416, R419, R427, R430: what hosts read, write and hold, extents, links, packages. Where the
spec leaves a choice the model's is stated: log entries 16, 43, 55, 74, 94, 95. -/
def Obligations.HostEvents : Prop :=
  (∀ (s : State) (space a : Nat),
    let x := s.spaceAt space
    let line := a / 64 * 64
    let p := x.page (line / 65536)
    let base := windowBase space
    let told := fun (t : State) (kind cause addr len : Nat) => x.backlog = [] → s.eventRoom space = true →
      let r := base + 0x10100 + 32 * (x.events.toNat % 120)
      (t.spaceAt space).events = x.events + 1 ∧ t.mem.read r 1 = kind ∧ t.mem.read (r + 1) 1 = cause ∧
        t.mem.read (r + 4) 4 = (x.events + 1).toNat ∧ t.mem.read (r + 8) 8 = addr % 2 ^ 64 ∧ t.mem.read (r + 16) 8 = len
    let reads := Happens (.hostRead space a) s
    let gives := fun (l : List Byte) (t : State) => t.hw.hostOut = s.hw.hostOut ++ [.data space line l] ∧ t.mem = s.mem
    let poison := fun (cause : Nat) (t : State) => told t 1 cause line 64 ∧ HostMessage.poison space line ∈ t.hw.hostOut
    let writes := fun (bytes : List Byte) (choice : Nat) => Happens (.hostWrite space a bytes choice) s
    let put := fun (pa : Nat) (bytes : List Byte) (t : State) => t.mem.bytes pa bytes.length = bytes ∧
      (∀ z, z < pa ∨ pa + bytes.length ≤ z → t.mem.byte z = s.mem.byte z) ∧
      t.hw.hostOut = s.hw.hostOut ++ [.written space a]
    (s.hostUp space = false → exec (.hostRead space a) s = .next s ∧ ∀ l c, exec (.hostWrite space a l c) s = .next s) ∧
    (s.hostUp space = true →
      (2 ^ 42 ≤ line ∨ (line < tenantPages ∧ x.holds line = false) → reads (poison 1)) ∧
      (line < tenantPages → x.holds line = true →
        (p.form = .zero → reads (gives (List.replicate 64 0))) ∧
        (p.form = .poisoned → reads (poison (if p.lost then 5 else 2))) ∧
        (p.form = .plain → s.poisonedAt (65536 * p.loc + line % 65536) 64 = false →
          reads (gives (s.mem.bytes (65536 * p.loc + line % 65536) 64))) ∧
        (p.form = .plain → s.poisonedAt (65536 * p.loc + line % 65536) 64 = true → reads (poison 3)) ∧
        (p.form = .compressed → x.buffer.at? (line / 64) = none →
          (line % 65536 / 4096 ∉ p.bad → line % 65536 / 64 ∉ p.badLines → reads (gives (p.packed.bytes (line % 65536) 64))) ∧
          (line % 65536 / 4096 ∉ p.bad → line % 65536 / 64 ∈ p.badLines → reads (poison 3)) ∧
          (line % 65536 / 4096 ∈ p.bad → reads (poison 4)))) ∧
      (∀ pa, (tenantPages ≤ line ∧ line < 2 ^ 42 - 0x100000 ∧ pa = base + (line - tenantPages)) ∨
          (2 ^ 42 - 0x100000 ≤ line ∧ line < 2 ^ 42 ∧ pa = commandBase space + (line - (2 ^ 42 - 0x100000))) →
        (s.poisonedAt pa 64 = false → reads (gives (s.mem.bytes pa 64))) ∧ (s.poisonedAt pa 64 = true → reads (poison 3))) ∧
      ∀ bytes choice, a % 64 + bytes.length ≤ 64 →
        let q := x.page (a / 65536)
        (a < tenantPages → x.holds a = false ∨ q.form = .poisoned → writes bytes choice fun t => t.mem = s.mem ∧
          t.hw.hostOut = s.hw.hostOut ++ [.written space a]) ∧
        let good := fun (pa : Nat) => s.poisonedAt pa bytes.length = false
        (a < tenantPages → x.holds a = true → q.form = .plain → x.moveOf (a / 65536) = none →
          (good (65536 * q.loc + a % 65536) → writes bytes choice (put (65536 * q.loc + a % 65536) bytes)) ∧
          (¬ good (65536 * q.loc + a % 65536) → writes bytes choice fun t => t.mem = s.mem)) ∧
        (∀ f, a < tenantPages → x.holds a = true → q.form = .zero → x.moveOf (a / 65536) = none → s.pickFar choice = some f →
          s.hw.votes.headD true = true → writes bytes choice fun t =>
            let r := (t.spaceAt space).page (a / 65536)
            r.form = .plain ∧ r.loc = f ∧ (t.frameAt f).state = .owned ∧ (t.frameAt f).host = true ∧
            (s.farUsed + 2 ^ 17 < 2 ^ 25 → ∀ i, i < 65536 → t.mem.byte (65536 * f + i) =
                if a % 65536 ≤ i ∧ i < a % 65536 + bytes.length then bytes.getD (i - a % 65536) 0 else 0)) ∧
        (∀ f, a < tenantPages → x.holds a = true → q.form = .zero → s.pickFar choice = some f → s.hw.votes.headD true = false →
          writes bytes choice fun t => t.frameAt f = s.frameAt f ∧ ((t.spaceAt space).page (a / 65536)).form = .poisoned ∧
            (t.hw.errorLog.getLast?.map LogEntry.type) = some 8) ∧
        (2 ^ 42 - 0x100000 ≤ a → a < 2 ^ 42 → good (commandBase space + (a - (2 ^ 42 - 0x100000))) →
          writes bytes choice (put (commandBase space + (a - (2 ^ 42 - 0x100000))) bytes)) ∧
        (tenantPages + 0x11040 ≤ a → a + bytes.length ≤ tenantPages + 0x40000 → x.backlog = [] → good (base + (a - tenantPages)) →
          writes bytes choice (put (base + (a - tenantPages)) bytes))) ∧
    (∀ value : Word, s.hostUp space = true → x.backlog = [] → s.poisonedAt (base + 0x11000) 4 = false → Happens (.evackWrite space value) s fun t =>
      t.mem.read (base + 0x11000) 4 = value.toNat) ∧
    (∀ first pool, space < 8 → s.mayOffer space first = true → (∀ f, pool = some f → s.poolRun f = true) →
      Happens (.extentAdd space ⟨first, pool⟩) s fun t => (t.spaceAt space).offers = x.offers ++ [(first, 2 ^ 28)] ∧
        (t.spaceAt space).extents = x.extents ∧ ∀ f, pool = some f → (t.spaceAt space).pools.at? first = some f) ∧
    (∀ first, s.hostUp space = true → x.offers.any (fun e => e.1 == first) = true →
      (∀ f, x.pools.at? first = some f → s.poolRun f = true) → Happens (.extentAccept space first) s fun t =>
      (t.spaceAt space).extents = x.extents ++ [(first, 2 ^ 28)] ∧ (∀ e, e ∈ (t.spaceAt space).offers → e.1 ≠ first) ∧
        told t 5 0 first (2 ^ 28) ∧ ∀ f i, x.pools.at? first = some f → i < 4096 →
          let p := (t.spaceAt space).page (first / 65536 + i)
          p.form = .plain ∧ p.shared = true ∧ p.loc = f + i) ∧
    (∀ first, s.hostUp space = true → first ≠ 0 → x.extents.any (fun e => e.1 == first) = true →
      Happens (.extentRelease space first) s fun t => (∀ e, e ∈ (t.spaceAt space).extents ↔ e ∈ x.extents ∧ e.1 ≠ first) ∧
        ∀ n, first ≤ 65536 * n → 65536 * n < first + 2 ^ 28 → ((t.spaceAt space).page n).form = .zero ∧
          (s.hw.votes = [] → (x.page n).form = .plain → (x.page n).shared = false → x.pages.at? n ≠ none → (t.frameAt (x.page n).loc).state = .free)) ∧
    (exec (.extentRelease space 0) s = .next s)) ∧
  (∀ (s : State) (port : Nat),
    (Happens (.linkDown port) s fun t => ∀ n x, s.hw.spaces.at? n = some x →
      t.hw.spaces.at? n = some (if x.port = port then { x with linkUp := false } else x)) ∧
    (Happens (.linkRetrain port) s fun t => ∀ n x, s.hw.spaces.at? n = some x →
      t.hw.spaces.at? n = some (if x.port = port then { x with linkUp := true } else x))) ∧
  ∀ (s : State) (package : Nat),
    let failed := s.hw.packages.get (package / 9) []
    let fails := fun (P : State → Prop) => ∀ die half k, die < 2 → half < 2 → k < 9 → package = 18 * die + 9 * half + k →
      Happens (.packageFailure die half k) s P
    (failed = [] → fails fun t =>
      t.hw.packages.get (package / 9) [] = [package] ∧ (t.hw.errorLog.getLast?.map LogEntry.type) = some 3 ∧ t.hw.frames = s.hw.frames ∧
        t.hw.spaces = s.hw.spaces) ∧
    (failed ≠ [] → package ∉ failed → fails fun t =>
      t.hw.packages.get (package / 9) [] = failed ++ [package] ∧
      (∀ space n x p, s.hw.spaces.at? space = some x → x.pages.at? n = some p →
        (p.form = .compressed ∧ ∃ f, (f = 0xC00000 + p.loc / 1024 ∨ ∃ u, u ∈ p.sectors ∧ f = u / 16) ∧ s.groupOf f = some (package / 9)) ∨
        (p.form = .plain ∧ s.groupOf p.loc = some (package / 9) ∧ (s.frameAt p.loc).state ≠ .free) →
        let q := (t.spaceAt space).page n
        q.form = .poisoned ∧ q.lost = true) ∧
      (∀ choice f, s.groupOf f = some (package / 9) → t.pickFar choice ≠ some f) ∧
      ∀ f, s.groupOf f = some (package / 9) → (s.frameAt f).state ≠ .free → t.contexts.at? (s.frameAt f).owner.toNat = none) ∧
    (failed = [package] → Happens (.parityRebuildDone package) s fun t => t.hw.packages.get (package / 9) [] = [] ∧
      (t.hw.errorLog.getLast?.map LogEntry.type) = some 4)

/-- R298, R371, R391, R405, R415, R431 to R442: resets, loss of power and power-up, errors corrected and not, the power limit. Where
the spec leaves a choice the model's is stated: log entries 29, 30, 64, 77, 87, 95. -/
def Obligations.ReliabilityEvents : Prop :=
  ∀ (s : State),
    let logged := fun (t : State) (type : Nat) => (t.hw.errorLog.getLast?.map LogEntry.type) = some type
    let found := fun (altered : List Nat) (c : Nat) (k : Checkpoint) => { k with bad := k.bad || (k.sealed && altered.contains c) }
    let cleared := fun (altered : List Nat) (t : State) => t.groups = [] ∧ t.blocks = [] ∧ t.spad = [] ∧ t.acc = [] ∧ t.cores = [] ∧
      (∀ c, t.contexts.at? c = none) ∧ (∀ a, a < 65536 * 0xC00000 → t.mem.byte a = 0) ∧
      (s.hw.votes = [] → ∀ f, f < 0xC00000 → t.frameAt f = FrameRecord.free) ∧
      (∀ c x k, s.contexts.at? c = some x → s.lastCheckpoint c = some k → ∃ l, (c, found altered c k, l) ∈ t.hw.toResume) ∧ t.hw.power.computeUp = false ∧ t.hw.power.resetting = true
    let dark := fun (kept : List (Nat × Nat)) (t : State) => t.hw.power.moduleUp = false ∧ t.groups = [] ∧ t.contexts = [] ∧
      t.mem = [] ∧ t.spad = [] ∧ t.acc = [] ∧ t.hw.partitions = s.hw.partitions ∧ t.hw.frames = [] ∧
      (∀ c l, s.hw.checkpoints = [(c, l)] → t.hw.checkpoints.get c [] = l.filter Checkpoint.complete) ∧
      t.hw.flash.length = s.hw.flash.length ∧
      ∀ r, s.hw.flash = [r] → ∃ q, t.hw.flash = [q] ∧ q.name = r.name ∧ q.size = r.size ∧ q.context = none ∧ q.late = [] ∧
        ∀ y, r.late = [y] → ((y.copy, y.unit) ∉ kept ∨ s.wholeUnit y = false → q.data = r.data) ∧
          ((y.copy, y.unit) ∈ kept → s.wholeUnit y = true → ∀ a, q.data.byte a =
          if 4096 * y.unit ≤ a ∧ a < 4096 * (y.unit + 1) then y.data.byte (a - 4096 * y.unit) else r.data.byte a)
    let killed := fun (c : Nat) (t : State) => t.contexts.at? c = none ∧ ∀ k x, t.blocks.at? k = some x → x.context ≠ c
    let fails := fun (site : ErrorSite) (P : State → Prop) => ∀ altered, Happens (.uncorrectableError site altered) s P
    let p := s.hw.power
    (∀ altered, Happens (.computeReset altered) s (cleared altered) ∧
      (∀ die, die < 4 → p.computeUp = true → Happens (.nearTierWatchdog die altered) s (cleared altered)) ∧
      ∀ die, Happens (.uncorrectableError (.nearControl die) altered) s (cleared altered)) ∧
    (p.moduleUp = true → p.computeUp = false → Happens .computeDomainUp s fun t =>
      t.hw.power = { p with computeUp := true, resetting := false } ∧ t.hw.toResume = [] ∧
      (s.hw.toResume = [] → t.contexts = s.contexts) ∧ ∀ c k l, s.hw.toResume = [(c, k, l)] →
        savedMeasure k ≠ k.firm.digest ∨ k.bad = true → t.contexts.at? c = none) ∧
    (∀ kept, p.moduleUp = true → (Happens (.powerLoss kept) s fun t => dark kept t ∧ t.hw.errorLog = s.hw.errorLog) ∧
      Happens (.moduleReset kept) s fun t => dark kept t ∧ logged t 6) ∧
    (∀ altered, p.moduleUp = false → Happens (.powerUp altered) s fun t =>
      (∀ c l k, s.hw.checkpoints = [(c, l)] → l.getLast? = some k → t.hw.toResume = [(c, found altered c k, [])]) ∧ t.contexts = s.contexts ∧
      t.hw.power.moduleUp = true ∧ t.hw.power.computeUp = false ∧ t.hw.power.upSince = s.now ∧
      ∀ n x, s.hw.spaces.at? n = some x → n < 8 → ∃ y, t.hw.spaces.at? n = some y ∧ y.extents = [(0, 2 ^ 32)] ∧ y.next = 1 ∧
        y.commands = [] ∧ y.events = 0 ∧ y.linkUp = true ∧ t.mem.read (windowBase n + 0x10000) 4 = 1 ∧
        t.mem.read (windowBase n + 0x11000) 4 = 0) ∧
    (∀ core frame package, Happens (.correctedError (some core) frame package) s fun t => s.now ∈ (t.coreAt core).corrected ∧
      (∀ y, y ∈ (t.coreAt core).corrected → y = s.now ∨ (y ∈ (s.coreAt core).corrected ∧ s.now ≤ y + 2500000000)) ∧
      (64 ≤ (t.coreAt core).corrected.length → logged t 1)) ∧
    (∀ frame package, Happens (.correctedError none frame package) s fun t =>
      t.hw.frameErrors.get frame [] = s.hw.frameErrors.get frame [] ++ [s.now] ∧ (t.recentErrors frame = 3 → logged t 1) ∧
        t.mem = s.mem) ∧
    (∀ line, s.frameBusy (line / 1024) = false →
      let r := s.frameAt (line / 1024)
      (line ∈ s.hw.poisoned → s.contexts.at? r.owner.toNat ≠ none → s.hw.votes.headD true = true →
        Happens (.patrolScrub line) s fun t => t.frameAt (line / 1024) = { r with state := .quarantined } ∧ t.mem = s.mem) ∧
      (line ∈ s.hw.poisoned → s.contexts.at? r.owner.toNat ≠ none → s.hw.votes.headD true = false →
        Happens (.patrolScrub line) s fun t => t.frameAt (line / 1024) = r ∧ t.mem = s.mem ∧ logged t 8) ∧
      (line ∉ s.hw.poisoned → Happens (.patrolScrub line) s fun t => t.hw = s.hw ∧ t.mem = s.mem)) ∧
    (∀ pa, fails (.memory pa) fun t => pa / 64 ∈ t.hw.poisoned ∧ t.contexts = s.contexts ∧ logged t 2) ∧
    (∀ space n block, ((s.spaceAt space).page n).form = .compressed → fails (.packed space n block) fun t =>
      block ∈ ((t.spaceAt space).page n).bad ∧ logged t 2) ∧
    (∀ core off b, s.padOwner core off = some b → fails (.scratchpad core off) (killed (s.blockAt b).context)) ∧
    (∀ core slot reg, slot < 16 → (s.groupAt (16 * core + slot)).phase ≠ .free →
      fails (.vector core slot reg) (killed (s.blockAt (s.groupAt (16 * core + slot)).block).context)) ∧
    (∀ core entry k b, s.blocks = [(k, b)] → b.core = core → ((∃ u, u ∈ b.units ∧ u.2 = entry / 1024) →
        fails (.accumulator core entry) (killed b.context)) ∧
      (b.slot0 ≤ entry → entry < b.slot0 + b.slots → fails (.tag core entry) (killed b.context))) ∧
    (∀ core k b, s.blocks = [(k, b)] → b.core = core → (s.dieAt (core / 64)).spareUsed = false → fails (.coreControl core) fun t =>
      killed b.context t ∧ (t.coreAt core).paused = true ∧ (t.dieAt (core / 64)).spareUsed = true) ∧
    (∀ c k, s.hw.checkpoints = [(c, [k])] → fails (.checkpoint c) fun t => t.hw.checkpoints = [(c, [{ k with bad := true }])] ∧ logged t 2) ∧
    (∀ name unit r, s.hw.flash = [r] → r.name = name → fails (.flash name unit) fun t => ∃ q, t.hw.flash = [q] ∧ unit ∈ q.bad ∧
      { q with bad := r.bad } = r ∧ logged t 2) ∧
    (∀ core pa, ((s.coreAt core).icache.at? pa).isSome = true → s.contexts.at? (s.frameAt (pa / 65536)).owner.toNat ≠ none →
      fails (.instructions core pa) (killed (s.frameAt (pa / 65536)).owner.toNat)) ∧
    (∀ f, (s.frameAt f).pclass = 2 → s.contexts.at? (s.frameAt f).owner.toNat = none → (s.frameAt f).state ≠ .free →
      s.hw.votes.headD true = true → fails (.mac f) fun t => (t.frameAt f).state = .quarantined) ∧
    (∀ f, (s.frameAt f).pclass = 2 → s.contexts.at? (s.frameAt f).owner.toNat ≠ none →
      fails (.mac f) (killed (s.frameAt f).owner.toNat)) ∧
    (fails (.farControl false) fun t => logged t 2 ∧ t.mem = s.mem ∧ t.contexts = s.contexts ∧ t.groups = s.groups) ∧
    (fails (.farControl true) fun t => dark [] t ∧ logged t 6) ∧
    (fails (.mirror false) fun t => t = { s with tick := s.tick + 1 }) ∧
    (fails (.mirror true) fun t => dark [] t ∧ logged t 6) ∧
    (∀ watts, (p.cap < watts → Happens (.powerSample watts) s fun t => t.hw.power =
        { p with gated := min 63 (p.gated + 1), gatedSince := some (p.gatedSince.getD s.now) }) ∧
      (watts ≤ p.cap → Happens (.powerSample watts) s fun t => t.hw.power =
        { p with gated := 0, gatedSince := none, logged := false }) ∧
      (1200 ≤ watts → watts ≤ 3600 → Happens (.powerCapSet watts) s fun t => t.hw.power = { p with cap := watts }) ∧
      (watts < 1200 ∨ 3600 < watts → exec (.powerCapSet watts) s = .next s)) ∧
    (∀ since, p.logged = false → p.gatedSince = some since → since + 2500000000 < s.now → Happens .powerLimitLog s fun t =>
      logged t 7 ∧ t.hw.power.logged = true)
end

