-- ==== Sys2Proof/Laws/Table.lean ====
section
/-!
SUPPORT. Laws of tables and memories: reading after writing, what a write leaves alone, and the canonical form of a memory
that every operation keeps.
-/

set_option Elab.async false

namespace Sys2Proof.Machine

/-! ## Tables -/

@[simp] theorem Table.at?_nil (k : Nat) : Table.at? ([] : Table α) k = none := rfl

@[simp] theorem Table.get_nil (k : Nat) (d : α) : Table.get ([] : Table α) k d = d := rfl

@[simp] theorem Table.at?_set_self (t : Table α) (k : Nat) (v : α) : (t.set k v).at? k = some v := by
  induction t with
  | nil => simp [Table.set, Table.at?]
  | cons e t ih =>
      obtain ⟨j, w⟩ := e
      simp only [Table.set]
      split
      · simp [Table.at?]
      · split
        · simp [Table.at?]
        · simp [Table.at?, *]

@[simp] theorem Table.at?_set_of_ne (t : Table α) {j k : Nat} (v : α) (h : k ≠ j) :
    (t.set j v).at? k = t.at? k := by
  induction t with
  | nil => simp [Table.set, Table.at?, h.symm]
  | cons e t ih =>
      obtain ⟨i, w⟩ := e
      simp only [Table.set]
      split
      · simp [Table.at?, h.symm]
      · split
        · subst_vars; simp [Table.at?, h.symm]
        · simp only [Table.at?, ih]

@[simp] theorem Table.get_set_self (t : Table α) (k : Nat) (v d : α) : (t.set k v).get k d = v := by simp [Table.get]

@[simp] theorem Table.get_set_of_ne (t : Table α) {j k : Nat} (v d : α) (h : k ≠ j) :
    (t.set j v).get k d = t.get k d := by simp [Table.get, h]

theorem Table.get_set (t : Table α) (j k : Nat) (v d : α) :
    (t.set j v).get k d = if k = j then v else t.get k d := by
  split
  · subst_vars; simp
  · simp [*]

theorem Table.at?_mapVal (t : Table α) (f : Nat → α → β) (k : Nat) : (t.mapVal f).at? k = (t.at? k).map (f k) := by
  induction t with
  | nil => rfl
  | cons e t ih =>
      obtain ⟨j, w⟩ := e
      have ih' : Table.at? (List.map (fun e => (e.1, f e.1 e.2)) t) k = (Table.at? t k).map (f k) := ih
      simp only [Table.mapVal, List.map_cons, Table.at?]
      split
      · simp [*]
      · exact ih'

theorem Table.get_of_at? {t : Table α} {k : Nat} {v : α} (h : t.at? k = some v) (d : α) : t.get k d = v := by
  simp [Table.get, h]

@[simp] theorem Table.at?_erase_self (t : Table α) (k : Nat) : (t.erase k).at? k = none := by
  induction t with
  | nil => rfl
  | cons e t ih =>
      obtain ⟨j, w⟩ := e
      simp only [Table.erase]
      split
      · exact ih
      · rename_i h
        simp only [Table.at?, if_neg h, ih]

@[simp] theorem Table.at?_erase_of_ne (t : Table α) {j k : Nat} (h : k ≠ j) : (t.erase j).at? k = t.at? k := by
  induction t with
  | nil => rfl
  | cons e t ih =>
      obtain ⟨i, w⟩ := e
      simp only [Table.erase]
      split
      · simp only [Table.at?]
        rw [if_neg (by omega), ih]
      · simp only [Table.at?, ih]

/-! ## Memories -/

@[simp] theorem Memory.byte_drop_self (m : Memory) (a : Nat) : (m.drop a).byte a = Memory.unlisted := by
  induction m with
  | nil => rfl
  | cons e m ih =>
      obtain ⟨j, b⟩ := e
      simp only [Memory.drop]
      split
      · exact ih
      · rename_i h
        simp only [Memory.byte, if_neg h, ih]

@[simp] theorem Memory.byte_drop_of_ne (m : Memory) {a c : Nat} (h : c ≠ a) : (m.drop a).byte c = m.byte c := by
  induction m with
  | nil => rfl
  | cons e m ih =>
      obtain ⟨j, b⟩ := e
      simp only [Memory.drop]
      split
      · simp only [Memory.byte]
        rw [if_neg (by omega), ih]
      · simp only [Memory.byte, ih]

@[simp] theorem Memory.byte_insert_self (m : Memory) (a : Nat) (v : Byte) : (m.insert a v).byte a = v := by
  induction m with
  | nil => simp [Memory.insert, Memory.byte]
  | cons e m ih =>
      obtain ⟨j, b⟩ := e
      simp only [Memory.insert]
      split
      · simp [Memory.byte]
      · split
        · simp [Memory.byte]
        · simp only [Memory.byte, ih]
          rw [if_neg (by omega)]

@[simp] theorem Memory.byte_insert_of_ne (m : Memory) {a c : Nat} (v : Byte) (h : c ≠ a) :
    (m.insert a v).byte c = m.byte c := by
  induction m with
  | nil => simp [Memory.insert, Memory.byte, h.symm]
  | cons e m ih =>
      obtain ⟨j, b⟩ := e
      simp only [Memory.insert]
      split
      · simp only [Memory.byte]
        rw [if_neg (by omega)]
      · split
        · simp only [Memory.byte]
          rw [if_neg (by omega), if_neg (by omega)]
        · simp only [Memory.byte, ih]

/-- A byte reads as last written (R4). -/
@[simp] theorem Memory.byte_setByte_self (m : Memory) (a : Nat) (v : Byte) : (m.setByte a v).byte a = v := by
  unfold Memory.setByte
  split
  · simp [*]
  · simp

/-- A write leaves every other byte alone. -/
@[simp] theorem Memory.byte_setByte_of_ne (m : Memory) {a c : Nat} (v : Byte) (h : c ≠ a) :
    (m.setByte a v).byte c = m.byte c := by
  unfold Memory.setByte
  split <;> simp [h]

theorem Memory.byte_setBytes_of_outside (m : Memory) (a c : Nat) (l : List Byte) (h : c < a ∨ a + l.length ≤ c) :
    (m.setBytes a l).byte c = m.byte c := by
  induction l generalizing m a with
  | nil => rfl
  | cons v l ih =>
      simp only [List.length_cons] at h
      simp only [Memory.setBytes]
      rw [ih _ _ (by omega), Memory.byte_setByte_of_ne _ _ (by omega)]

/-! ### The canonical form -/

theorem Memory.wfFrom_mono {m : Memory} {i j : Nat} (h : m.wfFrom j = true) (hij : i ≤ j) : m.wfFrom i = true := by
  cases m with
  | nil => rfl
  | cons e m =>
      simp only [Memory.wfFrom, Bool.and_eq_true, decide_eq_true_eq] at h ⊢
      exact ⟨⟨by omega, h.1.2⟩, h.2⟩

theorem Memory.wfFrom_drop (m : Memory) (a low : Nat) (h : m.wfFrom low = true) : (m.drop a).wfFrom low = true := by
  induction m generalizing low with
  | nil => rfl
  | cons e m ih =>
      obtain ⟨j, b⟩ := e
      simp only [Memory.wfFrom, Bool.and_eq_true, decide_eq_true_eq] at h
      simp only [Memory.drop]
      split
      · exact ih _ (Memory.wfFrom_mono h.2 (by omega))
      · simp only [Memory.wfFrom, Bool.and_eq_true, decide_eq_true_eq]
        exact ⟨h.1, ih _ h.2⟩

theorem Memory.wfFrom_insert (m : Memory) (a low : Nat) (v : Byte) (hv : v ≠ Memory.unlisted) (hl : low ≤ a)
    (h : m.wfFrom low = true) : (m.insert a v).wfFrom low = true := by
  induction m generalizing low with
  | nil => simp [Memory.insert, Memory.wfFrom, hv, hl]
  | cons e m ih =>
      obtain ⟨j, b⟩ := e
      simp only [Memory.wfFrom, Bool.and_eq_true, decide_eq_true_eq] at h
      simp only [Memory.insert]
      split
      · simp only [Memory.wfFrom, Bool.and_eq_true, decide_eq_true_eq, bne_iff_ne]
        exact ⟨⟨hl, hv⟩, ⟨⟨by omega, by simpa using h.1.2⟩, h.2⟩⟩
      · split
        · subst_vars
          simp only [Memory.wfFrom, Bool.and_eq_true, decide_eq_true_eq, bne_iff_ne]
          exact ⟨⟨h.1.1, hv⟩, h.2⟩
        · simp only [Memory.wfFrom, Bool.and_eq_true, decide_eq_true_eq]
          exact ⟨h.1, ih _ (by omega) h.2⟩

/-- Writing a byte keeps the canonical form. -/
@[simp] theorem Memory.wf_setByte (m : Memory) (a : Nat) (v : Byte) (h : m.wf = true) : (m.setByte a v).wf = true := by
  unfold Memory.setByte
  split
  · exact Memory.wfFrom_drop m a 0 h
  · exact Memory.wfFrom_insert m a 0 v (by assumption) (Nat.zero_le a) h

/-- Writing bytes keeps the canonical form. -/
theorem Memory.wf_setBytes (m : Memory) (a : Nat) (l : List Byte) (h : m.wf = true) : (m.setBytes a l).wf = true := by
  induction l generalizing m a with
  | nil => exact h
  | cons v l ih => exact ih _ _ (Memory.wf_setByte m a v h)

/-- Writing a number keeps the canonical form. -/
theorem Memory.wf_write (m : Memory) (a n x : Nat) (h : m.wf = true) : (m.write a n x).wf = true :=
  Memory.wf_setBytes m a _ h

theorem Memory.wfFrom_filter (m : Memory) (p : Host.Cell → Bool) (low : Nat) (h : m.wfFrom low = true) :
    Memory.wfFrom low (m.filter p) = true := by
  induction m generalizing low with
  | nil => rfl
  | cons e m ih =>
      simp only [Memory.wfFrom, Bool.and_eq_true, decide_eq_true_eq] at h
      rw [List.filter_cons]
      split
      · simp only [Memory.wfFrom, Bool.and_eq_true, decide_eq_true_eq]
        exact ⟨h.1, ih _ h.2⟩
      · exact Memory.wfFrom_mono (ih _ h.2) (by omega)

/-- Zero-filling a range keeps the canonical form. -/
theorem Memory.wf_clear (m : Memory) (a n : Nat) (h : m.wf = true) : (m.clear a n).wf = true :=
  Memory.wfFrom_filter m _ 0 h

/-- Zero-filling leaves every byte outside the range alone. -/
theorem Memory.byte_clear_of_outside (m : Memory) (a n c : Nat) (h : c < a ∨ a + n ≤ c) :
    (m.clear a n).byte c = m.byte c := by
  unfold Memory.clear
  induction m with
  | nil => rfl
  | cons e m ih =>
      obtain ⟨j, b⟩ := e
      rw [List.filter_cons]
      split
      · simp only [Memory.byte, ih]
      · rename_i hp
        simp only [Bool.not_eq_true', Bool.and_eq_false_iff, decide_eq_false_iff_not, not_le, not_lt, not_or] at hp
        simp only [Memory.byte]
        rw [if_neg (by omega)]
        exact ih

/-- A zero-filled byte reads 0. -/
theorem Memory.byte_clear_of_inside (m : Memory) (a n c : Nat) (h : a ≤ c ∧ c < a + n) : (m.clear a n).byte c = 0 := by
  unfold Memory.clear
  induction m with
  | nil => rfl
  | cons e m ih =>
      obtain ⟨j, b⟩ := e
      rw [List.filter_cons]
      split
      · rename_i hp
        simp only [Bool.not_eq_true', Bool.and_eq_false_iff, decide_eq_false_iff_not, not_le, not_lt] at hp
        simp only [Memory.byte]
        rw [if_neg (by omega)]
        exact ih
      · exact ih

/-! ### Numbers in memory (R4) -/

@[simp] theorem length_toBytes (n x : Nat) : (toBytes n x).length = n := by
  induction n generalizing x with
  | zero => rfl
  | succ n ih => simp [toBytes, ih]

theorem ofBytes_toBytes (n x : Nat) : ofBytes (toBytes n x) = x % 256 ^ n := by
  induction n generalizing x with
  | zero => simp [toBytes, ofBytes, Nat.mod_one]
  | succ n ih =>
      have h : x % 256 ^ (n + 1) = x % 256 + 256 * (x / 256 % 256 ^ n) := by rw [Nat.pow_succ', Nat.mod_mul]
      rw [h, ← ih, toBytes, ofBytes, BitVec.toNat_ofNat]

theorem Memory.bytes_setBytes_self (m : Memory) (a : Nat) (l : List Byte) :
    (m.setBytes a l).bytes a l.length = l := by
  induction l generalizing m a with
  | nil => rfl
  | cons v l ih =>
      simp only [Memory.setBytes, List.length_cons, Memory.bytes]
      rw [ih, Memory.byte_setBytes_of_outside _ _ _ _ (by omega), Memory.byte_setByte_self]

/-- A number reads back as written, cut to its bytes (R4). -/
theorem Memory.read_write_self (m : Memory) (a n x : Nat) :
    (m.write a n x).read a n = x % 256 ^ n := by
  unfold Memory.read Memory.write
  have := Memory.bytes_setBytes_self m a (toBytes n x)
  rw [length_toBytes] at this
  rw [this, ofBytes_toBytes]

theorem Memory.byte_write_of_outside (m : Memory) (a n x c : Nat) (h : c < a ∨ a + n ≤ c) :
    (m.write a n x).byte c = m.byte c :=
  Memory.byte_setBytes_of_outside m a c _ (by simpa using h)

/-! ### Bytes and numbers among written ones -/

/-- A byte after a write of several: one of them inside their range, else what it was. -/
theorem Memory.byte_setBytes (m : Memory) (a c : Nat) (l : List Byte) :
    (m.setBytes a l).byte c = if a ≤ c ∧ c < a + l.length then l.getD (c - a) 0 else m.byte c := by
  induction l generalizing m a with
  | nil => simp [Memory.setBytes]
  | cons v l ih =>
      simp only [Memory.setBytes, ih, List.length_cons]
      by_cases h : c = a
      · subst h; simp
      · by_cases h1 : a + 1 ≤ c ∧ c < a + 1 + l.length
        · rw [if_pos h1, if_pos (by omega)]
          obtain ⟨k, hk⟩ : ∃ k, c - a = k + 1 := ⟨c - a - 1, by omega⟩
          rw [hk, List.getD_cons_succ, show c - (a + 1) = k by omega]
        · rw [if_neg h1, if_neg (by omega), Memory.byte_setByte_of_ne _ _ h]

@[simp] theorem Memory.length_bytes (m : Memory) (a n : Nat) : (m.bytes a n).length = n := by
  induction n generalizing a with
  | zero => rfl
  | succ n ih => simp [Memory.bytes, ih]

theorem Memory.bytes_congr {m k : Memory} {a n : Nat} (h : ∀ c, a ≤ c → c < a + n → m.byte c = k.byte c) :
    m.bytes a n = k.bytes a n := by
  induction n generalizing a with
  | zero => rfl
  | succ n ih =>
      simp only [Memory.bytes]
      rw [h a (by omega) (by omega), ih fun c h1 h2 => h c (by omega) (by omega)]

theorem Memory.read_congr {m k : Memory} {a n : Nat} (h : ∀ c, a ≤ c → c < a + n → m.byte c = k.byte c) :
    m.read a n = k.read a n := by rw [Memory.read, Memory.read, Memory.bytes_congr h]

/-- What stands where bytes have been written before, between and after others. -/
theorem Memory.bytes_setBytes_mid (m : Memory) (a : Nat) (p r q : List Byte) :
    (m.setBytes a (p ++ (r ++ q))).bytes (a + p.length) r.length = r := by
  have gen : ∀ (l : List Byte) (k : Memory) (b : Nat), (∀ i, i < l.length → k.byte (b + i) = l.getD i 0) → k.bytes b l.length = l := by
    intro l
    induction l with
    | nil => intros; rfl
    | cons v l ih =>
        intro k b h
        simp only [List.length_cons, Memory.bytes]
        rw [ih]
        · have := h 0 (by simp); simpa using this
        · intro i hi
          have := h (i + 1) (by simpa using hi)
          rw [show b + 1 + i = b + (i + 1) by omega, this, List.getD_cons_succ]
  apply gen
  intro i hi
  rw [Memory.byte_setBytes, if_pos (by simp only [List.length_append]; omega)]
  rw [show a + p.length + i - a = p.length + i by omega]
  simp [List.getD_eq_getElem?_getD, List.getElem?_append_right, List.getElem?_append_left hi]

theorem Memory.read_setBytes_mid {m : Memory} {a b n : Nat} (p r q : List Byte) {l : List Byte} (hl : l = p ++ (r ++ q))
    (hb : b = a + p.length) (hn : n = r.length) : (m.setBytes a l).read b n = ofBytes r := by
  subst hl; subst hb; subst hn
  rw [Memory.read, Memory.bytes_setBytes_mid]

/-- A number that stands among written bytes reads as it was written. -/
theorem Memory.read_setBytes_num {m : Memory} {a b n x : Nat} (p q : List Byte) {l : List Byte} (hl : l = p ++ (toBytes n x ++ q))
    (hb : b = a + p.length) : (m.setBytes a l).read b n = x % 256 ^ n := by
  rw [Memory.read_setBytes_mid p (toBytes n x) q hl hb (by simp), ofBytes_toBytes]

end Sys2Proof.Machine
end

