-- ==== Sys2Proof/Laws/State.lean ====
section
/-!
SUPPORT. One lemma for each field of the state under each update, and what an accessor reads after an update.
-/

set_option Elab.async false

namespace Sys2Proof.Machine.State


/-! ### setGroupAt -/

@[simp] theorem setGroupAt_cur (s : State) (k : Nat) (g : Group) : (s.setGroupAt k g).cur = s.cur := rfl
@[simp] theorem setGroupAt_schedule (s : State) (k : Nat) (g : Group) : (s.setGroupAt k g).schedule = s.schedule := rfl
@[simp] theorem setGroupAt_now (s : State) (k : Nat) (g : Group) : (s.setGroupAt k g).now = s.now := rfl
@[simp] theorem setGroupAt_tick (s : State) (k : Nat) (g : Group) : (s.setGroupAt k g).tick = s.tick := rfl
@[simp] theorem setGroupAt_last (s : State) (k : Nat) (g : Group) : (s.setGroupAt k g).last = s.last := rfl
@[simp] theorem setGroupAt_snap (s : State) (k : Nat) (g : Group) : (s.setGroupAt k g).snap = s.snap := rfl
@[simp] theorem setGroupAt_nextId (s : State) (k : Nat) (g : Group) : (s.setGroupAt k g).nextId = s.nextId := rfl
@[simp] theorem setGroupAt_groups (s : State) (k : Nat) (g : Group) : (s.setGroupAt k g).groups = s.groups.set k g := rfl
@[simp] theorem setGroupAt_sys (s : State) (k : Nat) (g : Group) : (s.setGroupAt k g).sys = s.sys := rfl
@[simp] theorem setGroupAt_blocks (s : State) (k : Nat) (g : Group) : (s.setGroupAt k g).blocks = s.blocks := rfl
@[simp] theorem setGroupAt_launches (s : State) (k : Nat) (g : Group) : (s.setGroupAt k g).launches = s.launches := rfl
@[simp] theorem setGroupAt_queues (s : State) (k : Nat) (g : Group) : (s.setGroupAt k g).queues = s.queues := rfl
@[simp] theorem setGroupAt_dispatched (s : State) (k : Nat) (g : Group) : (s.setGroupAt k g).dispatched = s.dispatched := rfl
@[simp] theorem setGroupAt_served (s : State) (k : Nat) (g : Group) : (s.setGroupAt k g).served = s.served := rfl
@[simp] theorem setGroupAt_cores (s : State) (k : Nat) (g : Group) : (s.setGroupAt k g).cores = s.cores := rfl
@[simp] theorem setGroupAt_clusters (s : State) (k : Nat) (g : Group) : (s.setGroupAt k g).clusters = s.clusters := rfl
@[simp] theorem setGroupAt_dies (s : State) (k : Nat) (g : Group) : (s.setGroupAt k g).dies = s.dies := rfl
@[simp] theorem setGroupAt_contexts (s : State) (k : Nat) (g : Group) : (s.setGroupAt k g).contexts = s.contexts := rfl
@[simp] theorem setGroupAt_firm (s : State) (k : Nat) (g : Group) : (s.setGroupAt k g).firm = s.firm := rfl
@[simp] theorem setGroupAt_mem (s : State) (k : Nat) (g : Group) : (s.setGroupAt k g).mem = s.mem := rfl
@[simp] theorem setGroupAt_spad (s : State) (k : Nat) (g : Group) : (s.setGroupAt k g).spad = s.spad := rfl
@[simp] theorem setGroupAt_acc (s : State) (k : Nat) (g : Group) : (s.setGroupAt k g).acc = s.acc := rfl
@[simp] theorem setGroupAt_hw (s : State) (k : Nat) (g : Group) : (s.setGroupAt k g).hw = s.hw := rfl

/-! ### setSysAt -/

@[simp] theorem setSysAt_cur (s : State) (k : Nat) (g : GroupSys) : (s.setSysAt k g).cur = s.cur := rfl
@[simp] theorem setSysAt_schedule (s : State) (k : Nat) (g : GroupSys) : (s.setSysAt k g).schedule = s.schedule := rfl
@[simp] theorem setSysAt_now (s : State) (k : Nat) (g : GroupSys) : (s.setSysAt k g).now = s.now := rfl
@[simp] theorem setSysAt_tick (s : State) (k : Nat) (g : GroupSys) : (s.setSysAt k g).tick = s.tick := rfl
@[simp] theorem setSysAt_last (s : State) (k : Nat) (g : GroupSys) : (s.setSysAt k g).last = s.last := rfl
@[simp] theorem setSysAt_snap (s : State) (k : Nat) (g : GroupSys) : (s.setSysAt k g).snap = s.snap := rfl
@[simp] theorem setSysAt_nextId (s : State) (k : Nat) (g : GroupSys) : (s.setSysAt k g).nextId = s.nextId := rfl
@[simp] theorem setSysAt_groups (s : State) (k : Nat) (g : GroupSys) : (s.setSysAt k g).groups = s.groups := rfl
@[simp] theorem setSysAt_sys (s : State) (k : Nat) (g : GroupSys) : (s.setSysAt k g).sys = s.sys.set k g := rfl
@[simp] theorem setSysAt_blocks (s : State) (k : Nat) (g : GroupSys) : (s.setSysAt k g).blocks = s.blocks := rfl
@[simp] theorem setSysAt_launches (s : State) (k : Nat) (g : GroupSys) : (s.setSysAt k g).launches = s.launches := rfl
@[simp] theorem setSysAt_queues (s : State) (k : Nat) (g : GroupSys) : (s.setSysAt k g).queues = s.queues := rfl
@[simp] theorem setSysAt_dispatched (s : State) (k : Nat) (g : GroupSys) : (s.setSysAt k g).dispatched = s.dispatched := rfl
@[simp] theorem setSysAt_served (s : State) (k : Nat) (g : GroupSys) : (s.setSysAt k g).served = s.served := rfl
@[simp] theorem setSysAt_cores (s : State) (k : Nat) (g : GroupSys) : (s.setSysAt k g).cores = s.cores := rfl
@[simp] theorem setSysAt_clusters (s : State) (k : Nat) (g : GroupSys) : (s.setSysAt k g).clusters = s.clusters := rfl
@[simp] theorem setSysAt_dies (s : State) (k : Nat) (g : GroupSys) : (s.setSysAt k g).dies = s.dies := rfl
@[simp] theorem setSysAt_contexts (s : State) (k : Nat) (g : GroupSys) : (s.setSysAt k g).contexts = s.contexts := rfl
@[simp] theorem setSysAt_firm (s : State) (k : Nat) (g : GroupSys) : (s.setSysAt k g).firm = s.firm := rfl
@[simp] theorem setSysAt_mem (s : State) (k : Nat) (g : GroupSys) : (s.setSysAt k g).mem = s.mem := rfl
@[simp] theorem setSysAt_spad (s : State) (k : Nat) (g : GroupSys) : (s.setSysAt k g).spad = s.spad := rfl
@[simp] theorem setSysAt_acc (s : State) (k : Nat) (g : GroupSys) : (s.setSysAt k g).acc = s.acc := rfl
@[simp] theorem setSysAt_hw (s : State) (k : Nat) (g : GroupSys) : (s.setSysAt k g).hw = s.hw := rfl

/-! ### setBlockAt -/

@[simp] theorem setBlockAt_cur (s : State) (k : Nat) (b : Block) : (s.setBlockAt k b).cur = s.cur := rfl
@[simp] theorem setBlockAt_schedule (s : State) (k : Nat) (b : Block) : (s.setBlockAt k b).schedule = s.schedule := rfl
@[simp] theorem setBlockAt_now (s : State) (k : Nat) (b : Block) : (s.setBlockAt k b).now = s.now := rfl
@[simp] theorem setBlockAt_tick (s : State) (k : Nat) (b : Block) : (s.setBlockAt k b).tick = s.tick := rfl
@[simp] theorem setBlockAt_last (s : State) (k : Nat) (b : Block) : (s.setBlockAt k b).last = s.last := rfl
@[simp] theorem setBlockAt_snap (s : State) (k : Nat) (b : Block) : (s.setBlockAt k b).snap = s.snap := rfl
@[simp] theorem setBlockAt_nextId (s : State) (k : Nat) (b : Block) : (s.setBlockAt k b).nextId = s.nextId := rfl
@[simp] theorem setBlockAt_groups (s : State) (k : Nat) (b : Block) : (s.setBlockAt k b).groups = s.groups := rfl
@[simp] theorem setBlockAt_sys (s : State) (k : Nat) (b : Block) : (s.setBlockAt k b).sys = s.sys := rfl
@[simp] theorem setBlockAt_blocks (s : State) (k : Nat) (b : Block) : (s.setBlockAt k b).blocks = s.blocks.set k b := rfl
@[simp] theorem setBlockAt_launches (s : State) (k : Nat) (b : Block) : (s.setBlockAt k b).launches = s.launches := rfl
@[simp] theorem setBlockAt_queues (s : State) (k : Nat) (b : Block) : (s.setBlockAt k b).queues = s.queues := rfl
@[simp] theorem setBlockAt_dispatched (s : State) (k : Nat) (b : Block) : (s.setBlockAt k b).dispatched = s.dispatched := rfl
@[simp] theorem setBlockAt_served (s : State) (k : Nat) (b : Block) : (s.setBlockAt k b).served = s.served := rfl
@[simp] theorem setBlockAt_cores (s : State) (k : Nat) (b : Block) : (s.setBlockAt k b).cores = s.cores := rfl
@[simp] theorem setBlockAt_clusters (s : State) (k : Nat) (b : Block) : (s.setBlockAt k b).clusters = s.clusters := rfl
@[simp] theorem setBlockAt_dies (s : State) (k : Nat) (b : Block) : (s.setBlockAt k b).dies = s.dies := rfl
@[simp] theorem setBlockAt_contexts (s : State) (k : Nat) (b : Block) : (s.setBlockAt k b).contexts = s.contexts := rfl
@[simp] theorem setBlockAt_firm (s : State) (k : Nat) (b : Block) : (s.setBlockAt k b).firm = s.firm := rfl
@[simp] theorem setBlockAt_mem (s : State) (k : Nat) (b : Block) : (s.setBlockAt k b).mem = s.mem := rfl
@[simp] theorem setBlockAt_spad (s : State) (k : Nat) (b : Block) : (s.setBlockAt k b).spad = s.spad := rfl
@[simp] theorem setBlockAt_acc (s : State) (k : Nat) (b : Block) : (s.setBlockAt k b).acc = s.acc := rfl
@[simp] theorem setBlockAt_hw (s : State) (k : Nat) (b : Block) : (s.setBlockAt k b).hw = s.hw := rfl

/-! ### setLaunchAt -/

@[simp] theorem setLaunchAt_cur (s : State) (k : Nat) (l : Launch) : (s.setLaunchAt k l).cur = s.cur := rfl
@[simp] theorem setLaunchAt_schedule (s : State) (k : Nat) (l : Launch) : (s.setLaunchAt k l).schedule = s.schedule := rfl
@[simp] theorem setLaunchAt_now (s : State) (k : Nat) (l : Launch) : (s.setLaunchAt k l).now = s.now := rfl
@[simp] theorem setLaunchAt_tick (s : State) (k : Nat) (l : Launch) : (s.setLaunchAt k l).tick = s.tick := rfl
@[simp] theorem setLaunchAt_last (s : State) (k : Nat) (l : Launch) : (s.setLaunchAt k l).last = s.last := rfl
@[simp] theorem setLaunchAt_snap (s : State) (k : Nat) (l : Launch) : (s.setLaunchAt k l).snap = s.snap := rfl
@[simp] theorem setLaunchAt_nextId (s : State) (k : Nat) (l : Launch) : (s.setLaunchAt k l).nextId = s.nextId := rfl
@[simp] theorem setLaunchAt_groups (s : State) (k : Nat) (l : Launch) : (s.setLaunchAt k l).groups = s.groups := rfl
@[simp] theorem setLaunchAt_sys (s : State) (k : Nat) (l : Launch) : (s.setLaunchAt k l).sys = s.sys := rfl
@[simp] theorem setLaunchAt_blocks (s : State) (k : Nat) (l : Launch) : (s.setLaunchAt k l).blocks = s.blocks := rfl
@[simp] theorem setLaunchAt_launches (s : State) (k : Nat) (l : Launch) : (s.setLaunchAt k l).launches = s.launches.set k l := rfl
@[simp] theorem setLaunchAt_queues (s : State) (k : Nat) (l : Launch) : (s.setLaunchAt k l).queues = s.queues := rfl
@[simp] theorem setLaunchAt_dispatched (s : State) (k : Nat) (l : Launch) : (s.setLaunchAt k l).dispatched = s.dispatched := rfl
@[simp] theorem setLaunchAt_served (s : State) (k : Nat) (l : Launch) : (s.setLaunchAt k l).served = s.served := rfl
@[simp] theorem setLaunchAt_cores (s : State) (k : Nat) (l : Launch) : (s.setLaunchAt k l).cores = s.cores := rfl
@[simp] theorem setLaunchAt_clusters (s : State) (k : Nat) (l : Launch) : (s.setLaunchAt k l).clusters = s.clusters := rfl
@[simp] theorem setLaunchAt_dies (s : State) (k : Nat) (l : Launch) : (s.setLaunchAt k l).dies = s.dies := rfl
@[simp] theorem setLaunchAt_contexts (s : State) (k : Nat) (l : Launch) : (s.setLaunchAt k l).contexts = s.contexts := rfl
@[simp] theorem setLaunchAt_firm (s : State) (k : Nat) (l : Launch) : (s.setLaunchAt k l).firm = s.firm := rfl
@[simp] theorem setLaunchAt_mem (s : State) (k : Nat) (l : Launch) : (s.setLaunchAt k l).mem = s.mem := rfl
@[simp] theorem setLaunchAt_spad (s : State) (k : Nat) (l : Launch) : (s.setLaunchAt k l).spad = s.spad := rfl
@[simp] theorem setLaunchAt_acc (s : State) (k : Nat) (l : Launch) : (s.setLaunchAt k l).acc = s.acc := rfl
@[simp] theorem setLaunchAt_hw (s : State) (k : Nat) (l : Launch) : (s.setLaunchAt k l).hw = s.hw := rfl

/-! ### setCoreAt -/

@[simp] theorem setCoreAt_cur (s : State) (k : Nat) (c : CoreState) : (s.setCoreAt k c).cur = s.cur := rfl
@[simp] theorem setCoreAt_schedule (s : State) (k : Nat) (c : CoreState) : (s.setCoreAt k c).schedule = s.schedule := rfl
@[simp] theorem setCoreAt_now (s : State) (k : Nat) (c : CoreState) : (s.setCoreAt k c).now = s.now := rfl
@[simp] theorem setCoreAt_tick (s : State) (k : Nat) (c : CoreState) : (s.setCoreAt k c).tick = s.tick := rfl
@[simp] theorem setCoreAt_last (s : State) (k : Nat) (c : CoreState) : (s.setCoreAt k c).last = s.last := rfl
@[simp] theorem setCoreAt_snap (s : State) (k : Nat) (c : CoreState) : (s.setCoreAt k c).snap = s.snap := rfl
@[simp] theorem setCoreAt_nextId (s : State) (k : Nat) (c : CoreState) : (s.setCoreAt k c).nextId = s.nextId := rfl
@[simp] theorem setCoreAt_groups (s : State) (k : Nat) (c : CoreState) : (s.setCoreAt k c).groups = s.groups := rfl
@[simp] theorem setCoreAt_sys (s : State) (k : Nat) (c : CoreState) : (s.setCoreAt k c).sys = s.sys := rfl
@[simp] theorem setCoreAt_blocks (s : State) (k : Nat) (c : CoreState) : (s.setCoreAt k c).blocks = s.blocks := rfl
@[simp] theorem setCoreAt_launches (s : State) (k : Nat) (c : CoreState) : (s.setCoreAt k c).launches = s.launches := rfl
@[simp] theorem setCoreAt_queues (s : State) (k : Nat) (c : CoreState) : (s.setCoreAt k c).queues = s.queues := rfl
@[simp] theorem setCoreAt_dispatched (s : State) (k : Nat) (c : CoreState) : (s.setCoreAt k c).dispatched = s.dispatched := rfl
@[simp] theorem setCoreAt_served (s : State) (k : Nat) (c : CoreState) : (s.setCoreAt k c).served = s.served := rfl
@[simp] theorem setCoreAt_cores (s : State) (k : Nat) (c : CoreState) : (s.setCoreAt k c).cores = s.cores.set k c := rfl
@[simp] theorem setCoreAt_clusters (s : State) (k : Nat) (c : CoreState) : (s.setCoreAt k c).clusters = s.clusters := rfl
@[simp] theorem setCoreAt_dies (s : State) (k : Nat) (c : CoreState) : (s.setCoreAt k c).dies = s.dies := rfl
@[simp] theorem setCoreAt_contexts (s : State) (k : Nat) (c : CoreState) : (s.setCoreAt k c).contexts = s.contexts := rfl
@[simp] theorem setCoreAt_firm (s : State) (k : Nat) (c : CoreState) : (s.setCoreAt k c).firm = s.firm := rfl
@[simp] theorem setCoreAt_mem (s : State) (k : Nat) (c : CoreState) : (s.setCoreAt k c).mem = s.mem := rfl
@[simp] theorem setCoreAt_spad (s : State) (k : Nat) (c : CoreState) : (s.setCoreAt k c).spad = s.spad := rfl
@[simp] theorem setCoreAt_acc (s : State) (k : Nat) (c : CoreState) : (s.setCoreAt k c).acc = s.acc := rfl
@[simp] theorem setCoreAt_hw (s : State) (k : Nat) (c : CoreState) : (s.setCoreAt k c).hw = s.hw := rfl

/-! ### setClusterAt -/

@[simp] theorem setClusterAt_cur (s : State) (k : Nat) (c : Cluster) : (s.setClusterAt k c).cur = s.cur := rfl
@[simp] theorem setClusterAt_schedule (s : State) (k : Nat) (c : Cluster) : (s.setClusterAt k c).schedule = s.schedule := rfl
@[simp] theorem setClusterAt_now (s : State) (k : Nat) (c : Cluster) : (s.setClusterAt k c).now = s.now := rfl
@[simp] theorem setClusterAt_tick (s : State) (k : Nat) (c : Cluster) : (s.setClusterAt k c).tick = s.tick := rfl
@[simp] theorem setClusterAt_last (s : State) (k : Nat) (c : Cluster) : (s.setClusterAt k c).last = s.last := rfl
@[simp] theorem setClusterAt_snap (s : State) (k : Nat) (c : Cluster) : (s.setClusterAt k c).snap = s.snap := rfl
@[simp] theorem setClusterAt_nextId (s : State) (k : Nat) (c : Cluster) : (s.setClusterAt k c).nextId = s.nextId := rfl
@[simp] theorem setClusterAt_groups (s : State) (k : Nat) (c : Cluster) : (s.setClusterAt k c).groups = s.groups := rfl
@[simp] theorem setClusterAt_sys (s : State) (k : Nat) (c : Cluster) : (s.setClusterAt k c).sys = s.sys := rfl
@[simp] theorem setClusterAt_blocks (s : State) (k : Nat) (c : Cluster) : (s.setClusterAt k c).blocks = s.blocks := rfl
@[simp] theorem setClusterAt_launches (s : State) (k : Nat) (c : Cluster) : (s.setClusterAt k c).launches = s.launches := rfl
@[simp] theorem setClusterAt_queues (s : State) (k : Nat) (c : Cluster) : (s.setClusterAt k c).queues = s.queues := rfl
@[simp] theorem setClusterAt_dispatched (s : State) (k : Nat) (c : Cluster) : (s.setClusterAt k c).dispatched = s.dispatched := rfl
@[simp] theorem setClusterAt_served (s : State) (k : Nat) (c : Cluster) : (s.setClusterAt k c).served = s.served := rfl
@[simp] theorem setClusterAt_cores (s : State) (k : Nat) (c : Cluster) : (s.setClusterAt k c).cores = s.cores := rfl
@[simp] theorem setClusterAt_clusters (s : State) (k : Nat) (c : Cluster) : (s.setClusterAt k c).clusters = s.clusters.set k c := rfl
@[simp] theorem setClusterAt_dies (s : State) (k : Nat) (c : Cluster) : (s.setClusterAt k c).dies = s.dies := rfl
@[simp] theorem setClusterAt_contexts (s : State) (k : Nat) (c : Cluster) : (s.setClusterAt k c).contexts = s.contexts := rfl
@[simp] theorem setClusterAt_firm (s : State) (k : Nat) (c : Cluster) : (s.setClusterAt k c).firm = s.firm := rfl
@[simp] theorem setClusterAt_mem (s : State) (k : Nat) (c : Cluster) : (s.setClusterAt k c).mem = s.mem := rfl
@[simp] theorem setClusterAt_spad (s : State) (k : Nat) (c : Cluster) : (s.setClusterAt k c).spad = s.spad := rfl
@[simp] theorem setClusterAt_acc (s : State) (k : Nat) (c : Cluster) : (s.setClusterAt k c).acc = s.acc := rfl
@[simp] theorem setClusterAt_hw (s : State) (k : Nat) (c : Cluster) : (s.setClusterAt k c).hw = s.hw := rfl

/-! ### setDieAt -/

@[simp] theorem setDieAt_cur (s : State) (k : Nat) (d : Die) : (s.setDieAt k d).cur = s.cur := rfl
@[simp] theorem setDieAt_schedule (s : State) (k : Nat) (d : Die) : (s.setDieAt k d).schedule = s.schedule := rfl
@[simp] theorem setDieAt_now (s : State) (k : Nat) (d : Die) : (s.setDieAt k d).now = s.now := rfl
@[simp] theorem setDieAt_tick (s : State) (k : Nat) (d : Die) : (s.setDieAt k d).tick = s.tick := rfl
@[simp] theorem setDieAt_last (s : State) (k : Nat) (d : Die) : (s.setDieAt k d).last = s.last := rfl
@[simp] theorem setDieAt_snap (s : State) (k : Nat) (d : Die) : (s.setDieAt k d).snap = s.snap := rfl
@[simp] theorem setDieAt_nextId (s : State) (k : Nat) (d : Die) : (s.setDieAt k d).nextId = s.nextId := rfl
@[simp] theorem setDieAt_groups (s : State) (k : Nat) (d : Die) : (s.setDieAt k d).groups = s.groups := rfl
@[simp] theorem setDieAt_sys (s : State) (k : Nat) (d : Die) : (s.setDieAt k d).sys = s.sys := rfl
@[simp] theorem setDieAt_blocks (s : State) (k : Nat) (d : Die) : (s.setDieAt k d).blocks = s.blocks := rfl
@[simp] theorem setDieAt_launches (s : State) (k : Nat) (d : Die) : (s.setDieAt k d).launches = s.launches := rfl
@[simp] theorem setDieAt_queues (s : State) (k : Nat) (d : Die) : (s.setDieAt k d).queues = s.queues := rfl
@[simp] theorem setDieAt_dispatched (s : State) (k : Nat) (d : Die) : (s.setDieAt k d).dispatched = s.dispatched := rfl
@[simp] theorem setDieAt_served (s : State) (k : Nat) (d : Die) : (s.setDieAt k d).served = s.served := rfl
@[simp] theorem setDieAt_cores (s : State) (k : Nat) (d : Die) : (s.setDieAt k d).cores = s.cores := rfl
@[simp] theorem setDieAt_clusters (s : State) (k : Nat) (d : Die) : (s.setDieAt k d).clusters = s.clusters := rfl
@[simp] theorem setDieAt_dies (s : State) (k : Nat) (d : Die) : (s.setDieAt k d).dies = s.dies.set k d := rfl
@[simp] theorem setDieAt_contexts (s : State) (k : Nat) (d : Die) : (s.setDieAt k d).contexts = s.contexts := rfl
@[simp] theorem setDieAt_firm (s : State) (k : Nat) (d : Die) : (s.setDieAt k d).firm = s.firm := rfl
@[simp] theorem setDieAt_mem (s : State) (k : Nat) (d : Die) : (s.setDieAt k d).mem = s.mem := rfl
@[simp] theorem setDieAt_spad (s : State) (k : Nat) (d : Die) : (s.setDieAt k d).spad = s.spad := rfl
@[simp] theorem setDieAt_acc (s : State) (k : Nat) (d : Die) : (s.setDieAt k d).acc = s.acc := rfl
@[simp] theorem setDieAt_hw (s : State) (k : Nat) (d : Die) : (s.setDieAt k d).hw = s.hw := rfl

/-! ### setContextAt -/

@[simp] theorem setContextAt_cur (s : State) (k : Nat) (c : Context) : (s.setContextAt k c).cur = s.cur := rfl
@[simp] theorem setContextAt_schedule (s : State) (k : Nat) (c : Context) : (s.setContextAt k c).schedule = s.schedule := rfl
@[simp] theorem setContextAt_now (s : State) (k : Nat) (c : Context) : (s.setContextAt k c).now = s.now := rfl
@[simp] theorem setContextAt_tick (s : State) (k : Nat) (c : Context) : (s.setContextAt k c).tick = s.tick := rfl
@[simp] theorem setContextAt_last (s : State) (k : Nat) (c : Context) : (s.setContextAt k c).last = s.last := rfl
@[simp] theorem setContextAt_snap (s : State) (k : Nat) (c : Context) : (s.setContextAt k c).snap = s.snap := rfl
@[simp] theorem setContextAt_nextId (s : State) (k : Nat) (c : Context) : (s.setContextAt k c).nextId = s.nextId := rfl
@[simp] theorem setContextAt_groups (s : State) (k : Nat) (c : Context) : (s.setContextAt k c).groups = s.groups := rfl
@[simp] theorem setContextAt_sys (s : State) (k : Nat) (c : Context) : (s.setContextAt k c).sys = s.sys := rfl
@[simp] theorem setContextAt_blocks (s : State) (k : Nat) (c : Context) : (s.setContextAt k c).blocks = s.blocks := rfl
@[simp] theorem setContextAt_launches (s : State) (k : Nat) (c : Context) : (s.setContextAt k c).launches = s.launches := rfl
@[simp] theorem setContextAt_queues (s : State) (k : Nat) (c : Context) : (s.setContextAt k c).queues = s.queues := rfl
@[simp] theorem setContextAt_dispatched (s : State) (k : Nat) (c : Context) : (s.setContextAt k c).dispatched = s.dispatched := rfl
@[simp] theorem setContextAt_served (s : State) (k : Nat) (c : Context) : (s.setContextAt k c).served = s.served := rfl
@[simp] theorem setContextAt_cores (s : State) (k : Nat) (c : Context) : (s.setContextAt k c).cores = s.cores := rfl
@[simp] theorem setContextAt_clusters (s : State) (k : Nat) (c : Context) : (s.setContextAt k c).clusters = s.clusters := rfl
@[simp] theorem setContextAt_dies (s : State) (k : Nat) (c : Context) : (s.setContextAt k c).dies = s.dies := rfl
@[simp] theorem setContextAt_contexts (s : State) (k : Nat) (c : Context) : (s.setContextAt k c).contexts = s.contexts.set k c := rfl
@[simp] theorem setContextAt_firm (s : State) (k : Nat) (c : Context) : (s.setContextAt k c).firm = s.firm := rfl
@[simp] theorem setContextAt_mem (s : State) (k : Nat) (c : Context) : (s.setContextAt k c).mem = s.mem := rfl
@[simp] theorem setContextAt_spad (s : State) (k : Nat) (c : Context) : (s.setContextAt k c).spad = s.spad := rfl
@[simp] theorem setContextAt_acc (s : State) (k : Nat) (c : Context) : (s.setContextAt k c).acc = s.acc := rfl
@[simp] theorem setContextAt_hw (s : State) (k : Nat) (c : Context) : (s.setContextAt k c).hw = s.hw := rfl

/-! ### setFirmAt -/

@[simp] theorem setFirmAt_cur (s : State) (k : Nat) (c : ContextFirm) : (s.setFirmAt k c).cur = s.cur := rfl
@[simp] theorem setFirmAt_schedule (s : State) (k : Nat) (c : ContextFirm) : (s.setFirmAt k c).schedule = s.schedule := rfl
@[simp] theorem setFirmAt_now (s : State) (k : Nat) (c : ContextFirm) : (s.setFirmAt k c).now = s.now := rfl
@[simp] theorem setFirmAt_tick (s : State) (k : Nat) (c : ContextFirm) : (s.setFirmAt k c).tick = s.tick := rfl
@[simp] theorem setFirmAt_last (s : State) (k : Nat) (c : ContextFirm) : (s.setFirmAt k c).last = s.last := rfl
@[simp] theorem setFirmAt_snap (s : State) (k : Nat) (c : ContextFirm) : (s.setFirmAt k c).snap = s.snap := rfl
@[simp] theorem setFirmAt_nextId (s : State) (k : Nat) (c : ContextFirm) : (s.setFirmAt k c).nextId = s.nextId := rfl
@[simp] theorem setFirmAt_groups (s : State) (k : Nat) (c : ContextFirm) : (s.setFirmAt k c).groups = s.groups := rfl
@[simp] theorem setFirmAt_sys (s : State) (k : Nat) (c : ContextFirm) : (s.setFirmAt k c).sys = s.sys := rfl
@[simp] theorem setFirmAt_blocks (s : State) (k : Nat) (c : ContextFirm) : (s.setFirmAt k c).blocks = s.blocks := rfl
@[simp] theorem setFirmAt_launches (s : State) (k : Nat) (c : ContextFirm) : (s.setFirmAt k c).launches = s.launches := rfl
@[simp] theorem setFirmAt_queues (s : State) (k : Nat) (c : ContextFirm) : (s.setFirmAt k c).queues = s.queues := rfl
@[simp] theorem setFirmAt_dispatched (s : State) (k : Nat) (c : ContextFirm) : (s.setFirmAt k c).dispatched = s.dispatched := rfl
@[simp] theorem setFirmAt_served (s : State) (k : Nat) (c : ContextFirm) : (s.setFirmAt k c).served = s.served := rfl
@[simp] theorem setFirmAt_cores (s : State) (k : Nat) (c : ContextFirm) : (s.setFirmAt k c).cores = s.cores := rfl
@[simp] theorem setFirmAt_clusters (s : State) (k : Nat) (c : ContextFirm) : (s.setFirmAt k c).clusters = s.clusters := rfl
@[simp] theorem setFirmAt_dies (s : State) (k : Nat) (c : ContextFirm) : (s.setFirmAt k c).dies = s.dies := rfl
@[simp] theorem setFirmAt_contexts (s : State) (k : Nat) (c : ContextFirm) : (s.setFirmAt k c).contexts = s.contexts := rfl
@[simp] theorem setFirmAt_firm (s : State) (k : Nat) (c : ContextFirm) : (s.setFirmAt k c).firm = s.firm.set k c := rfl
@[simp] theorem setFirmAt_mem (s : State) (k : Nat) (c : ContextFirm) : (s.setFirmAt k c).mem = s.mem := rfl
@[simp] theorem setFirmAt_spad (s : State) (k : Nat) (c : ContextFirm) : (s.setFirmAt k c).spad = s.spad := rfl
@[simp] theorem setFirmAt_acc (s : State) (k : Nat) (c : ContextFirm) : (s.setFirmAt k c).acc = s.acc := rfl
@[simp] theorem setFirmAt_hw (s : State) (k : Nat) (c : ContextFirm) : (s.setFirmAt k c).hw = s.hw := rfl

/-! ### setHw -/

@[simp] theorem setHw_cur (s : State) (h : Module) : (s.setHw h).cur = s.cur := rfl
@[simp] theorem setHw_schedule (s : State) (h : Module) : (s.setHw h).schedule = s.schedule := rfl
@[simp] theorem setHw_now (s : State) (h : Module) : (s.setHw h).now = s.now := rfl
@[simp] theorem setHw_tick (s : State) (h : Module) : (s.setHw h).tick = s.tick := rfl
@[simp] theorem setHw_last (s : State) (h : Module) : (s.setHw h).last = s.last := rfl
@[simp] theorem setHw_snap (s : State) (h : Module) : (s.setHw h).snap = s.snap := rfl
@[simp] theorem setHw_nextId (s : State) (h : Module) : (s.setHw h).nextId = s.nextId := rfl
@[simp] theorem setHw_groups (s : State) (h : Module) : (s.setHw h).groups = s.groups := rfl
@[simp] theorem setHw_sys (s : State) (h : Module) : (s.setHw h).sys = s.sys := rfl
@[simp] theorem setHw_blocks (s : State) (h : Module) : (s.setHw h).blocks = s.blocks := rfl
@[simp] theorem setHw_launches (s : State) (h : Module) : (s.setHw h).launches = s.launches := rfl
@[simp] theorem setHw_queues (s : State) (h : Module) : (s.setHw h).queues = s.queues := rfl
@[simp] theorem setHw_dispatched (s : State) (h : Module) : (s.setHw h).dispatched = s.dispatched := rfl
@[simp] theorem setHw_served (s : State) (h : Module) : (s.setHw h).served = s.served := rfl
@[simp] theorem setHw_cores (s : State) (h : Module) : (s.setHw h).cores = s.cores := rfl
@[simp] theorem setHw_clusters (s : State) (h : Module) : (s.setHw h).clusters = s.clusters := rfl
@[simp] theorem setHw_dies (s : State) (h : Module) : (s.setHw h).dies = s.dies := rfl
@[simp] theorem setHw_contexts (s : State) (h : Module) : (s.setHw h).contexts = s.contexts := rfl
@[simp] theorem setHw_firm (s : State) (h : Module) : (s.setHw h).firm = s.firm := rfl
@[simp] theorem setHw_mem (s : State) (h : Module) : (s.setHw h).mem = s.mem := rfl
@[simp] theorem setHw_spad (s : State) (h : Module) : (s.setHw h).spad = s.spad := rfl
@[simp] theorem setHw_acc (s : State) (h : Module) : (s.setHw h).acc = s.acc := rfl
@[simp] theorem setHw_hw (s : State) (h : Module) : (s.setHw h).hw = h := rfl

/-! ### setMem -/

@[simp] theorem setMem_cur (s : State) (m : Memory) : (s.setMem m).cur = s.cur := rfl
@[simp] theorem setMem_schedule (s : State) (m : Memory) : (s.setMem m).schedule = s.schedule := rfl
@[simp] theorem setMem_now (s : State) (m : Memory) : (s.setMem m).now = s.now := rfl
@[simp] theorem setMem_tick (s : State) (m : Memory) : (s.setMem m).tick = s.tick := rfl
@[simp] theorem setMem_last (s : State) (m : Memory) : (s.setMem m).last = s.last := rfl
@[simp] theorem setMem_snap (s : State) (m : Memory) : (s.setMem m).snap = s.snap := rfl
@[simp] theorem setMem_nextId (s : State) (m : Memory) : (s.setMem m).nextId = s.nextId := rfl
@[simp] theorem setMem_groups (s : State) (m : Memory) : (s.setMem m).groups = s.groups := rfl
@[simp] theorem setMem_sys (s : State) (m : Memory) : (s.setMem m).sys = s.sys := rfl
@[simp] theorem setMem_blocks (s : State) (m : Memory) : (s.setMem m).blocks = s.blocks := rfl
@[simp] theorem setMem_launches (s : State) (m : Memory) : (s.setMem m).launches = s.launches := rfl
@[simp] theorem setMem_queues (s : State) (m : Memory) : (s.setMem m).queues = s.queues := rfl
@[simp] theorem setMem_dispatched (s : State) (m : Memory) : (s.setMem m).dispatched = s.dispatched := rfl
@[simp] theorem setMem_served (s : State) (m : Memory) : (s.setMem m).served = s.served := rfl
@[simp] theorem setMem_cores (s : State) (m : Memory) : (s.setMem m).cores = s.cores := rfl
@[simp] theorem setMem_clusters (s : State) (m : Memory) : (s.setMem m).clusters = s.clusters := rfl
@[simp] theorem setMem_dies (s : State) (m : Memory) : (s.setMem m).dies = s.dies := rfl
@[simp] theorem setMem_contexts (s : State) (m : Memory) : (s.setMem m).contexts = s.contexts := rfl
@[simp] theorem setMem_firm (s : State) (m : Memory) : (s.setMem m).firm = s.firm := rfl
@[simp] theorem setMem_mem (s : State) (m : Memory) : (s.setMem m).mem = m := rfl
@[simp] theorem setMem_spad (s : State) (m : Memory) : (s.setMem m).spad = s.spad := rfl
@[simp] theorem setMem_acc (s : State) (m : Memory) : (s.setMem m).acc = s.acc := rfl
@[simp] theorem setMem_hw (s : State) (m : Memory) : (s.setMem m).hw = s.hw := rfl

/-! ### setSpad -/

@[simp] theorem setSpad_cur (s : State) (m : Memory) : (s.setSpad m).cur = s.cur := rfl
@[simp] theorem setSpad_schedule (s : State) (m : Memory) : (s.setSpad m).schedule = s.schedule := rfl
@[simp] theorem setSpad_now (s : State) (m : Memory) : (s.setSpad m).now = s.now := rfl
@[simp] theorem setSpad_tick (s : State) (m : Memory) : (s.setSpad m).tick = s.tick := rfl
@[simp] theorem setSpad_last (s : State) (m : Memory) : (s.setSpad m).last = s.last := rfl
@[simp] theorem setSpad_snap (s : State) (m : Memory) : (s.setSpad m).snap = s.snap := rfl
@[simp] theorem setSpad_nextId (s : State) (m : Memory) : (s.setSpad m).nextId = s.nextId := rfl
@[simp] theorem setSpad_groups (s : State) (m : Memory) : (s.setSpad m).groups = s.groups := rfl
@[simp] theorem setSpad_sys (s : State) (m : Memory) : (s.setSpad m).sys = s.sys := rfl
@[simp] theorem setSpad_blocks (s : State) (m : Memory) : (s.setSpad m).blocks = s.blocks := rfl
@[simp] theorem setSpad_launches (s : State) (m : Memory) : (s.setSpad m).launches = s.launches := rfl
@[simp] theorem setSpad_queues (s : State) (m : Memory) : (s.setSpad m).queues = s.queues := rfl
@[simp] theorem setSpad_dispatched (s : State) (m : Memory) : (s.setSpad m).dispatched = s.dispatched := rfl
@[simp] theorem setSpad_served (s : State) (m : Memory) : (s.setSpad m).served = s.served := rfl
@[simp] theorem setSpad_cores (s : State) (m : Memory) : (s.setSpad m).cores = s.cores := rfl
@[simp] theorem setSpad_clusters (s : State) (m : Memory) : (s.setSpad m).clusters = s.clusters := rfl
@[simp] theorem setSpad_dies (s : State) (m : Memory) : (s.setSpad m).dies = s.dies := rfl
@[simp] theorem setSpad_contexts (s : State) (m : Memory) : (s.setSpad m).contexts = s.contexts := rfl
@[simp] theorem setSpad_firm (s : State) (m : Memory) : (s.setSpad m).firm = s.firm := rfl
@[simp] theorem setSpad_mem (s : State) (m : Memory) : (s.setSpad m).mem = s.mem := rfl
@[simp] theorem setSpad_spad (s : State) (m : Memory) : (s.setSpad m).spad = m := rfl
@[simp] theorem setSpad_acc (s : State) (m : Memory) : (s.setSpad m).acc = s.acc := rfl
@[simp] theorem setSpad_hw (s : State) (m : Memory) : (s.setSpad m).hw = s.hw := rfl

/-! ### setLast -/

@[simp] theorem setLast_cur (s : State) (l : Last) : (s.setLast l).cur = s.cur := rfl
@[simp] theorem setLast_schedule (s : State) (l : Last) : (s.setLast l).schedule = s.schedule := rfl
@[simp] theorem setLast_now (s : State) (l : Last) : (s.setLast l).now = s.now := rfl
@[simp] theorem setLast_tick (s : State) (l : Last) : (s.setLast l).tick = s.tick := rfl
@[simp] theorem setLast_last (s : State) (l : Last) : (s.setLast l).last = l := rfl
@[simp] theorem setLast_snap (s : State) (l : Last) : (s.setLast l).snap = s.snap := rfl
@[simp] theorem setLast_nextId (s : State) (l : Last) : (s.setLast l).nextId = s.nextId := rfl
@[simp] theorem setLast_groups (s : State) (l : Last) : (s.setLast l).groups = s.groups := rfl
@[simp] theorem setLast_sys (s : State) (l : Last) : (s.setLast l).sys = s.sys := rfl
@[simp] theorem setLast_blocks (s : State) (l : Last) : (s.setLast l).blocks = s.blocks := rfl
@[simp] theorem setLast_launches (s : State) (l : Last) : (s.setLast l).launches = s.launches := rfl
@[simp] theorem setLast_queues (s : State) (l : Last) : (s.setLast l).queues = s.queues := rfl
@[simp] theorem setLast_dispatched (s : State) (l : Last) : (s.setLast l).dispatched = s.dispatched := rfl
@[simp] theorem setLast_served (s : State) (l : Last) : (s.setLast l).served = s.served := rfl
@[simp] theorem setLast_cores (s : State) (l : Last) : (s.setLast l).cores = s.cores := rfl
@[simp] theorem setLast_clusters (s : State) (l : Last) : (s.setLast l).clusters = s.clusters := rfl
@[simp] theorem setLast_dies (s : State) (l : Last) : (s.setLast l).dies = s.dies := rfl
@[simp] theorem setLast_contexts (s : State) (l : Last) : (s.setLast l).contexts = s.contexts := rfl
@[simp] theorem setLast_firm (s : State) (l : Last) : (s.setLast l).firm = s.firm := rfl
@[simp] theorem setLast_mem (s : State) (l : Last) : (s.setLast l).mem = s.mem := rfl
@[simp] theorem setLast_spad (s : State) (l : Last) : (s.setLast l).spad = s.spad := rfl
@[simp] theorem setLast_acc (s : State) (l : Last) : (s.setLast l).acc = s.acc := rfl
@[simp] theorem setLast_hw (s : State) (l : Last) : (s.setLast l).hw = s.hw := rfl

/-! ### bumpId -/

@[simp] theorem bumpId_cur (s : State) : (s.bumpId).cur = s.cur := rfl
@[simp] theorem bumpId_schedule (s : State) : (s.bumpId).schedule = s.schedule := rfl
@[simp] theorem bumpId_now (s : State) : (s.bumpId).now = s.now := rfl
@[simp] theorem bumpId_tick (s : State) : (s.bumpId).tick = s.tick := rfl
@[simp] theorem bumpId_last (s : State) : (s.bumpId).last = s.last := rfl
@[simp] theorem bumpId_snap (s : State) : (s.bumpId).snap = s.snap := rfl
@[simp] theorem bumpId_nextId (s : State) : (s.bumpId).nextId = s.nextId + 1 := rfl
@[simp] theorem bumpId_groups (s : State) : (s.bumpId).groups = s.groups := rfl
@[simp] theorem bumpId_sys (s : State) : (s.bumpId).sys = s.sys := rfl
@[simp] theorem bumpId_blocks (s : State) : (s.bumpId).blocks = s.blocks := rfl
@[simp] theorem bumpId_launches (s : State) : (s.bumpId).launches = s.launches := rfl
@[simp] theorem bumpId_queues (s : State) : (s.bumpId).queues = s.queues := rfl
@[simp] theorem bumpId_dispatched (s : State) : (s.bumpId).dispatched = s.dispatched := rfl
@[simp] theorem bumpId_served (s : State) : (s.bumpId).served = s.served := rfl
@[simp] theorem bumpId_cores (s : State) : (s.bumpId).cores = s.cores := rfl
@[simp] theorem bumpId_clusters (s : State) : (s.bumpId).clusters = s.clusters := rfl
@[simp] theorem bumpId_dies (s : State) : (s.bumpId).dies = s.dies := rfl
@[simp] theorem bumpId_contexts (s : State) : (s.bumpId).contexts = s.contexts := rfl
@[simp] theorem bumpId_firm (s : State) : (s.bumpId).firm = s.firm := rfl
@[simp] theorem bumpId_mem (s : State) : (s.bumpId).mem = s.mem := rfl
@[simp] theorem bumpId_spad (s : State) : (s.bumpId).spad = s.spad := rfl
@[simp] theorem bumpId_acc (s : State) : (s.bumpId).acc = s.acc := rfl
@[simp] theorem bumpId_hw (s : State) : (s.bumpId).hw = s.hw := rfl

/-! ### setGroup -/

@[simp] theorem setGroup_cur (s : State) (g : Group) : (s.setGroup g).cur = s.cur := rfl
@[simp] theorem setGroup_schedule (s : State) (g : Group) : (s.setGroup g).schedule = s.schedule := rfl
@[simp] theorem setGroup_now (s : State) (g : Group) : (s.setGroup g).now = s.now := rfl
@[simp] theorem setGroup_tick (s : State) (g : Group) : (s.setGroup g).tick = s.tick := rfl
@[simp] theorem setGroup_last (s : State) (g : Group) : (s.setGroup g).last = s.last := rfl
@[simp] theorem setGroup_snap (s : State) (g : Group) : (s.setGroup g).snap = s.snap := rfl
@[simp] theorem setGroup_nextId (s : State) (g : Group) : (s.setGroup g).nextId = s.nextId := rfl
@[simp] theorem setGroup_groups (s : State) (g : Group) : (s.setGroup g).groups = s.groups.set s.gkey g := rfl
@[simp] theorem setGroup_sys (s : State) (g : Group) : (s.setGroup g).sys = s.sys := rfl
@[simp] theorem setGroup_blocks (s : State) (g : Group) : (s.setGroup g).blocks = s.blocks := rfl
@[simp] theorem setGroup_launches (s : State) (g : Group) : (s.setGroup g).launches = s.launches := rfl
@[simp] theorem setGroup_queues (s : State) (g : Group) : (s.setGroup g).queues = s.queues := rfl
@[simp] theorem setGroup_dispatched (s : State) (g : Group) : (s.setGroup g).dispatched = s.dispatched := rfl
@[simp] theorem setGroup_served (s : State) (g : Group) : (s.setGroup g).served = s.served := rfl
@[simp] theorem setGroup_cores (s : State) (g : Group) : (s.setGroup g).cores = s.cores := rfl
@[simp] theorem setGroup_clusters (s : State) (g : Group) : (s.setGroup g).clusters = s.clusters := rfl
@[simp] theorem setGroup_dies (s : State) (g : Group) : (s.setGroup g).dies = s.dies := rfl
@[simp] theorem setGroup_contexts (s : State) (g : Group) : (s.setGroup g).contexts = s.contexts := rfl
@[simp] theorem setGroup_firm (s : State) (g : Group) : (s.setGroup g).firm = s.firm := rfl
@[simp] theorem setGroup_mem (s : State) (g : Group) : (s.setGroup g).mem = s.mem := rfl
@[simp] theorem setGroup_spad (s : State) (g : Group) : (s.setGroup g).spad = s.spad := rfl
@[simp] theorem setGroup_acc (s : State) (g : Group) : (s.setGroup g).acc = s.acc := rfl
@[simp] theorem setGroup_hw (s : State) (g : Group) : (s.setGroup g).hw = s.hw := rfl

/-! ### setSys -/

@[simp] theorem setSys_cur (s : State) (g : GroupSys) : (s.setSys g).cur = s.cur := rfl
@[simp] theorem setSys_schedule (s : State) (g : GroupSys) : (s.setSys g).schedule = s.schedule := rfl
@[simp] theorem setSys_now (s : State) (g : GroupSys) : (s.setSys g).now = s.now := rfl
@[simp] theorem setSys_tick (s : State) (g : GroupSys) : (s.setSys g).tick = s.tick := rfl
@[simp] theorem setSys_last (s : State) (g : GroupSys) : (s.setSys g).last = s.last := rfl
@[simp] theorem setSys_snap (s : State) (g : GroupSys) : (s.setSys g).snap = s.snap := rfl
@[simp] theorem setSys_nextId (s : State) (g : GroupSys) : (s.setSys g).nextId = s.nextId := rfl
@[simp] theorem setSys_groups (s : State) (g : GroupSys) : (s.setSys g).groups = s.groups := rfl
@[simp] theorem setSys_sys (s : State) (g : GroupSys) : (s.setSys g).sys = s.sys.set s.gkey g := rfl
@[simp] theorem setSys_blocks (s : State) (g : GroupSys) : (s.setSys g).blocks = s.blocks := rfl
@[simp] theorem setSys_launches (s : State) (g : GroupSys) : (s.setSys g).launches = s.launches := rfl
@[simp] theorem setSys_queues (s : State) (g : GroupSys) : (s.setSys g).queues = s.queues := rfl
@[simp] theorem setSys_dispatched (s : State) (g : GroupSys) : (s.setSys g).dispatched = s.dispatched := rfl
@[simp] theorem setSys_served (s : State) (g : GroupSys) : (s.setSys g).served = s.served := rfl
@[simp] theorem setSys_cores (s : State) (g : GroupSys) : (s.setSys g).cores = s.cores := rfl
@[simp] theorem setSys_clusters (s : State) (g : GroupSys) : (s.setSys g).clusters = s.clusters := rfl
@[simp] theorem setSys_dies (s : State) (g : GroupSys) : (s.setSys g).dies = s.dies := rfl
@[simp] theorem setSys_contexts (s : State) (g : GroupSys) : (s.setSys g).contexts = s.contexts := rfl
@[simp] theorem setSys_firm (s : State) (g : GroupSys) : (s.setSys g).firm = s.firm := rfl
@[simp] theorem setSys_mem (s : State) (g : GroupSys) : (s.setSys g).mem = s.mem := rfl
@[simp] theorem setSys_spad (s : State) (g : GroupSys) : (s.setSys g).spad = s.spad := rfl
@[simp] theorem setSys_acc (s : State) (g : GroupSys) : (s.setSys g).acc = s.acc := rfl
@[simp] theorem setSys_hw (s : State) (g : GroupSys) : (s.setSys g).hw = s.hw := rfl

/-! ### setBlock -/

@[simp] theorem setBlock_cur (s : State) (b : Block) : (s.setBlock b).cur = s.cur := rfl
@[simp] theorem setBlock_schedule (s : State) (b : Block) : (s.setBlock b).schedule = s.schedule := rfl
@[simp] theorem setBlock_now (s : State) (b : Block) : (s.setBlock b).now = s.now := rfl
@[simp] theorem setBlock_tick (s : State) (b : Block) : (s.setBlock b).tick = s.tick := rfl
@[simp] theorem setBlock_last (s : State) (b : Block) : (s.setBlock b).last = s.last := rfl
@[simp] theorem setBlock_snap (s : State) (b : Block) : (s.setBlock b).snap = s.snap := rfl
@[simp] theorem setBlock_nextId (s : State) (b : Block) : (s.setBlock b).nextId = s.nextId := rfl
@[simp] theorem setBlock_groups (s : State) (b : Block) : (s.setBlock b).groups = s.groups := rfl
@[simp] theorem setBlock_sys (s : State) (b : Block) : (s.setBlock b).sys = s.sys := rfl
@[simp] theorem setBlock_blocks (s : State) (b : Block) : (s.setBlock b).blocks = s.blocks.set s.group.block b := rfl
@[simp] theorem setBlock_launches (s : State) (b : Block) : (s.setBlock b).launches = s.launches := rfl
@[simp] theorem setBlock_queues (s : State) (b : Block) : (s.setBlock b).queues = s.queues := rfl
@[simp] theorem setBlock_dispatched (s : State) (b : Block) : (s.setBlock b).dispatched = s.dispatched := rfl
@[simp] theorem setBlock_served (s : State) (b : Block) : (s.setBlock b).served = s.served := rfl
@[simp] theorem setBlock_cores (s : State) (b : Block) : (s.setBlock b).cores = s.cores := rfl
@[simp] theorem setBlock_clusters (s : State) (b : Block) : (s.setBlock b).clusters = s.clusters := rfl
@[simp] theorem setBlock_dies (s : State) (b : Block) : (s.setBlock b).dies = s.dies := rfl
@[simp] theorem setBlock_contexts (s : State) (b : Block) : (s.setBlock b).contexts = s.contexts := rfl
@[simp] theorem setBlock_firm (s : State) (b : Block) : (s.setBlock b).firm = s.firm := rfl
@[simp] theorem setBlock_mem (s : State) (b : Block) : (s.setBlock b).mem = s.mem := rfl
@[simp] theorem setBlock_spad (s : State) (b : Block) : (s.setBlock b).spad = s.spad := rfl
@[simp] theorem setBlock_acc (s : State) (b : Block) : (s.setBlock b).acc = s.acc := rfl
@[simp] theorem setBlock_hw (s : State) (b : Block) : (s.setBlock b).hw = s.hw := rfl

/-! ### setSplit -/

@[simp] theorem setSplit_cur (s : State) (x : Split) : (s.setSplit x).cur = s.cur := rfl
@[simp] theorem setSplit_schedule (s : State) (x : Split) : (s.setSplit x).schedule = s.schedule := rfl
@[simp] theorem setSplit_now (s : State) (x : Split) : (s.setSplit x).now = s.now := rfl
@[simp] theorem setSplit_tick (s : State) (x : Split) : (s.setSplit x).tick = s.tick := rfl
@[simp] theorem setSplit_last (s : State) (x : Split) : (s.setSplit x).last = s.last := rfl
@[simp] theorem setSplit_snap (s : State) (x : Split) : (s.setSplit x).snap = s.snap := rfl
@[simp] theorem setSplit_nextId (s : State) (x : Split) : (s.setSplit x).nextId = s.nextId := rfl
@[simp] theorem setSplit_groups (s : State) (x : Split) : (s.setSplit x).groups = s.groups.set s.gkey { s.group with splits := s.group.splits.set s.cur.split x } := rfl
@[simp] theorem setSplit_sys (s : State) (x : Split) : (s.setSplit x).sys = s.sys := rfl
@[simp] theorem setSplit_blocks (s : State) (x : Split) : (s.setSplit x).blocks = s.blocks := rfl
@[simp] theorem setSplit_launches (s : State) (x : Split) : (s.setSplit x).launches = s.launches := rfl
@[simp] theorem setSplit_queues (s : State) (x : Split) : (s.setSplit x).queues = s.queues := rfl
@[simp] theorem setSplit_dispatched (s : State) (x : Split) : (s.setSplit x).dispatched = s.dispatched := rfl
@[simp] theorem setSplit_served (s : State) (x : Split) : (s.setSplit x).served = s.served := rfl
@[simp] theorem setSplit_cores (s : State) (x : Split) : (s.setSplit x).cores = s.cores := rfl
@[simp] theorem setSplit_clusters (s : State) (x : Split) : (s.setSplit x).clusters = s.clusters := rfl
@[simp] theorem setSplit_dies (s : State) (x : Split) : (s.setSplit x).dies = s.dies := rfl
@[simp] theorem setSplit_contexts (s : State) (x : Split) : (s.setSplit x).contexts = s.contexts := rfl
@[simp] theorem setSplit_firm (s : State) (x : Split) : (s.setSplit x).firm = s.firm := rfl
@[simp] theorem setSplit_mem (s : State) (x : Split) : (s.setSplit x).mem = s.mem := rfl
@[simp] theorem setSplit_spad (s : State) (x : Split) : (s.setSplit x).spad = s.spad := rfl
@[simp] theorem setSplit_acc (s : State) (x : Split) : (s.setSplit x).acc = s.acc := rfl
@[simp] theorem setSplit_hw (s : State) (x : Split) : (s.setSplit x).hw = s.hw := rfl

/-! ## Accessors after updates -/

@[simp] theorem groupAt_setGroupAt (s : State) (k : Nat) (x : Group) : (s.setGroupAt k x).groupAt k = x := by simp [groupAt]
@[simp] theorem groupAt_setGroupAt_of_ne (s : State) {j k : Nat} (x : Group) (h : j ≠ k) : (s.setGroupAt k x).groupAt j = s.groupAt j := by simp [groupAt, h]
@[simp] theorem groupAt_setSysAt (s : State) (i : Nat) (g : GroupSys) (k : Nat) : (s.setSysAt i g).groupAt k = s.groupAt k := rfl
@[simp] theorem groupAt_setBlockAt (s : State) (i : Nat) (b : Block) (k : Nat) : (s.setBlockAt i b).groupAt k = s.groupAt k := rfl
@[simp] theorem groupAt_setLaunchAt (s : State) (i : Nat) (l : Launch) (k : Nat) : (s.setLaunchAt i l).groupAt k = s.groupAt k := rfl
@[simp] theorem groupAt_setCoreAt (s : State) (i : Nat) (c : CoreState) (k : Nat) : (s.setCoreAt i c).groupAt k = s.groupAt k := rfl
@[simp] theorem groupAt_setClusterAt (s : State) (i : Nat) (c : Cluster) (k : Nat) : (s.setClusterAt i c).groupAt k = s.groupAt k := rfl
@[simp] theorem groupAt_setDieAt (s : State) (i : Nat) (d : Die) (k : Nat) : (s.setDieAt i d).groupAt k = s.groupAt k := rfl
@[simp] theorem groupAt_setContextAt (s : State) (i : Nat) (c : Context) (k : Nat) : (s.setContextAt i c).groupAt k = s.groupAt k := rfl
@[simp] theorem groupAt_setFirmAt (s : State) (i : Nat) (c : ContextFirm) (k : Nat) : (s.setFirmAt i c).groupAt k = s.groupAt k := rfl
@[simp] theorem groupAt_setHw (s : State) (h : Module) (k : Nat) : (s.setHw h).groupAt k = s.groupAt k := rfl
@[simp] theorem groupAt_setMem (s : State) (m : Memory) (k : Nat) : (s.setMem m).groupAt k = s.groupAt k := rfl
@[simp] theorem groupAt_setSpad (s : State) (m : Memory) (k : Nat) : (s.setSpad m).groupAt k = s.groupAt k := rfl
@[simp] theorem groupAt_setLast (s : State) (l : Last) (k : Nat) : (s.setLast l).groupAt k = s.groupAt k := rfl
@[simp] theorem groupAt_bumpId (s : State) (k : Nat) : (s.bumpId).groupAt k = s.groupAt k := rfl
@[simp] theorem groupAt_setSys (s : State) (g : GroupSys) (k : Nat) : (s.setSys g).groupAt k = s.groupAt k := rfl
@[simp] theorem groupAt_setBlock (s : State) (b : Block) (k : Nat) : (s.setBlock b).groupAt k = s.groupAt k := rfl
@[simp] theorem sysAt_setSysAt (s : State) (k : Nat) (x : GroupSys) : (s.setSysAt k x).sysAt k = x := by simp [sysAt]
@[simp] theorem sysAt_setSysAt_of_ne (s : State) {j k : Nat} (x : GroupSys) (h : j ≠ k) : (s.setSysAt k x).sysAt j = s.sysAt j := by simp [sysAt, h]
@[simp] theorem sysAt_setGroupAt (s : State) (i : Nat) (g : Group) (k : Nat) : (s.setGroupAt i g).sysAt k = s.sysAt k := rfl
@[simp] theorem sysAt_setBlockAt (s : State) (i : Nat) (b : Block) (k : Nat) : (s.setBlockAt i b).sysAt k = s.sysAt k := rfl
@[simp] theorem sysAt_setLaunchAt (s : State) (i : Nat) (l : Launch) (k : Nat) : (s.setLaunchAt i l).sysAt k = s.sysAt k := rfl
@[simp] theorem sysAt_setCoreAt (s : State) (i : Nat) (c : CoreState) (k : Nat) : (s.setCoreAt i c).sysAt k = s.sysAt k := rfl
@[simp] theorem sysAt_setClusterAt (s : State) (i : Nat) (c : Cluster) (k : Nat) : (s.setClusterAt i c).sysAt k = s.sysAt k := rfl
@[simp] theorem sysAt_setDieAt (s : State) (i : Nat) (d : Die) (k : Nat) : (s.setDieAt i d).sysAt k = s.sysAt k := rfl
@[simp] theorem sysAt_setContextAt (s : State) (i : Nat) (c : Context) (k : Nat) : (s.setContextAt i c).sysAt k = s.sysAt k := rfl
@[simp] theorem sysAt_setFirmAt (s : State) (i : Nat) (c : ContextFirm) (k : Nat) : (s.setFirmAt i c).sysAt k = s.sysAt k := rfl
@[simp] theorem sysAt_setHw (s : State) (h : Module) (k : Nat) : (s.setHw h).sysAt k = s.sysAt k := rfl
@[simp] theorem sysAt_setMem (s : State) (m : Memory) (k : Nat) : (s.setMem m).sysAt k = s.sysAt k := rfl
@[simp] theorem sysAt_setSpad (s : State) (m : Memory) (k : Nat) : (s.setSpad m).sysAt k = s.sysAt k := rfl
@[simp] theorem sysAt_setLast (s : State) (l : Last) (k : Nat) : (s.setLast l).sysAt k = s.sysAt k := rfl
@[simp] theorem sysAt_bumpId (s : State) (k : Nat) : (s.bumpId).sysAt k = s.sysAt k := rfl
@[simp] theorem sysAt_setGroup (s : State) (g : Group) (k : Nat) : (s.setGroup g).sysAt k = s.sysAt k := rfl
@[simp] theorem sysAt_setBlock (s : State) (b : Block) (k : Nat) : (s.setBlock b).sysAt k = s.sysAt k := rfl
@[simp] theorem sysAt_setSplit (s : State) (x : Split) (k : Nat) : (s.setSplit x).sysAt k = s.sysAt k := rfl
@[simp] theorem blockAt_setBlockAt (s : State) (k : Nat) (x : Block) : (s.setBlockAt k x).blockAt k = x := by simp [blockAt]
@[simp] theorem blockAt_setBlockAt_of_ne (s : State) {j k : Nat} (x : Block) (h : j ≠ k) : (s.setBlockAt k x).blockAt j = s.blockAt j := by simp [blockAt, h]
@[simp] theorem blockAt_setGroupAt (s : State) (i : Nat) (g : Group) (k : Nat) : (s.setGroupAt i g).blockAt k = s.blockAt k := rfl
@[simp] theorem blockAt_setSysAt (s : State) (i : Nat) (g : GroupSys) (k : Nat) : (s.setSysAt i g).blockAt k = s.blockAt k := rfl
@[simp] theorem blockAt_setLaunchAt (s : State) (i : Nat) (l : Launch) (k : Nat) : (s.setLaunchAt i l).blockAt k = s.blockAt k := rfl
@[simp] theorem blockAt_setCoreAt (s : State) (i : Nat) (c : CoreState) (k : Nat) : (s.setCoreAt i c).blockAt k = s.blockAt k := rfl
@[simp] theorem blockAt_setClusterAt (s : State) (i : Nat) (c : Cluster) (k : Nat) : (s.setClusterAt i c).blockAt k = s.blockAt k := rfl
@[simp] theorem blockAt_setDieAt (s : State) (i : Nat) (d : Die) (k : Nat) : (s.setDieAt i d).blockAt k = s.blockAt k := rfl
@[simp] theorem blockAt_setContextAt (s : State) (i : Nat) (c : Context) (k : Nat) : (s.setContextAt i c).blockAt k = s.blockAt k := rfl
@[simp] theorem blockAt_setFirmAt (s : State) (i : Nat) (c : ContextFirm) (k : Nat) : (s.setFirmAt i c).blockAt k = s.blockAt k := rfl
@[simp] theorem blockAt_setHw (s : State) (h : Module) (k : Nat) : (s.setHw h).blockAt k = s.blockAt k := rfl
@[simp] theorem blockAt_setMem (s : State) (m : Memory) (k : Nat) : (s.setMem m).blockAt k = s.blockAt k := rfl
@[simp] theorem blockAt_setSpad (s : State) (m : Memory) (k : Nat) : (s.setSpad m).blockAt k = s.blockAt k := rfl
@[simp] theorem blockAt_setLast (s : State) (l : Last) (k : Nat) : (s.setLast l).blockAt k = s.blockAt k := rfl
@[simp] theorem blockAt_bumpId (s : State) (k : Nat) : (s.bumpId).blockAt k = s.blockAt k := rfl
@[simp] theorem blockAt_setGroup (s : State) (g : Group) (k : Nat) : (s.setGroup g).blockAt k = s.blockAt k := rfl
@[simp] theorem blockAt_setSys (s : State) (g : GroupSys) (k : Nat) : (s.setSys g).blockAt k = s.blockAt k := rfl
@[simp] theorem blockAt_setSplit (s : State) (x : Split) (k : Nat) : (s.setSplit x).blockAt k = s.blockAt k := rfl
@[simp] theorem launchAt_setLaunchAt (s : State) (k : Nat) (x : Launch) : (s.setLaunchAt k x).launchAt k = x := by simp [launchAt]
@[simp] theorem launchAt_setLaunchAt_of_ne (s : State) {j k : Nat} (x : Launch) (h : j ≠ k) : (s.setLaunchAt k x).launchAt j = s.launchAt j := by simp [launchAt, h]
@[simp] theorem launchAt_setGroupAt (s : State) (i : Nat) (g : Group) (k : Nat) : (s.setGroupAt i g).launchAt k = s.launchAt k := rfl
@[simp] theorem launchAt_setSysAt (s : State) (i : Nat) (g : GroupSys) (k : Nat) : (s.setSysAt i g).launchAt k = s.launchAt k := rfl
@[simp] theorem launchAt_setBlockAt (s : State) (i : Nat) (b : Block) (k : Nat) : (s.setBlockAt i b).launchAt k = s.launchAt k := rfl
@[simp] theorem launchAt_setCoreAt (s : State) (i : Nat) (c : CoreState) (k : Nat) : (s.setCoreAt i c).launchAt k = s.launchAt k := rfl
@[simp] theorem launchAt_setClusterAt (s : State) (i : Nat) (c : Cluster) (k : Nat) : (s.setClusterAt i c).launchAt k = s.launchAt k := rfl
@[simp] theorem launchAt_setDieAt (s : State) (i : Nat) (d : Die) (k : Nat) : (s.setDieAt i d).launchAt k = s.launchAt k := rfl
@[simp] theorem launchAt_setContextAt (s : State) (i : Nat) (c : Context) (k : Nat) : (s.setContextAt i c).launchAt k = s.launchAt k := rfl
@[simp] theorem launchAt_setFirmAt (s : State) (i : Nat) (c : ContextFirm) (k : Nat) : (s.setFirmAt i c).launchAt k = s.launchAt k := rfl
@[simp] theorem launchAt_setHw (s : State) (h : Module) (k : Nat) : (s.setHw h).launchAt k = s.launchAt k := rfl
@[simp] theorem launchAt_setMem (s : State) (m : Memory) (k : Nat) : (s.setMem m).launchAt k = s.launchAt k := rfl
@[simp] theorem launchAt_setSpad (s : State) (m : Memory) (k : Nat) : (s.setSpad m).launchAt k = s.launchAt k := rfl
@[simp] theorem launchAt_setLast (s : State) (l : Last) (k : Nat) : (s.setLast l).launchAt k = s.launchAt k := rfl
@[simp] theorem launchAt_bumpId (s : State) (k : Nat) : (s.bumpId).launchAt k = s.launchAt k := rfl
@[simp] theorem launchAt_setGroup (s : State) (g : Group) (k : Nat) : (s.setGroup g).launchAt k = s.launchAt k := rfl
@[simp] theorem launchAt_setSys (s : State) (g : GroupSys) (k : Nat) : (s.setSys g).launchAt k = s.launchAt k := rfl
@[simp] theorem launchAt_setBlock (s : State) (b : Block) (k : Nat) : (s.setBlock b).launchAt k = s.launchAt k := rfl
@[simp] theorem launchAt_setSplit (s : State) (x : Split) (k : Nat) : (s.setSplit x).launchAt k = s.launchAt k := rfl
@[simp] theorem coreAt_setCoreAt (s : State) (k : Nat) (x : CoreState) : (s.setCoreAt k x).coreAt k = x := by simp [coreAt]
@[simp] theorem coreAt_setCoreAt_of_ne (s : State) {j k : Nat} (x : CoreState) (h : j ≠ k) : (s.setCoreAt k x).coreAt j = s.coreAt j := by simp [coreAt, h]
@[simp] theorem coreAt_setGroupAt (s : State) (i : Nat) (g : Group) (k : Nat) : (s.setGroupAt i g).coreAt k = s.coreAt k := rfl
@[simp] theorem coreAt_setSysAt (s : State) (i : Nat) (g : GroupSys) (k : Nat) : (s.setSysAt i g).coreAt k = s.coreAt k := rfl
@[simp] theorem coreAt_setBlockAt (s : State) (i : Nat) (b : Block) (k : Nat) : (s.setBlockAt i b).coreAt k = s.coreAt k := rfl
@[simp] theorem coreAt_setLaunchAt (s : State) (i : Nat) (l : Launch) (k : Nat) : (s.setLaunchAt i l).coreAt k = s.coreAt k := rfl
@[simp] theorem coreAt_setClusterAt (s : State) (i : Nat) (c : Cluster) (k : Nat) : (s.setClusterAt i c).coreAt k = s.coreAt k := rfl
@[simp] theorem coreAt_setDieAt (s : State) (i : Nat) (d : Die) (k : Nat) : (s.setDieAt i d).coreAt k = s.coreAt k := rfl
@[simp] theorem coreAt_setContextAt (s : State) (i : Nat) (c : Context) (k : Nat) : (s.setContextAt i c).coreAt k = s.coreAt k := rfl
@[simp] theorem coreAt_setFirmAt (s : State) (i : Nat) (c : ContextFirm) (k : Nat) : (s.setFirmAt i c).coreAt k = s.coreAt k := rfl
@[simp] theorem coreAt_setHw (s : State) (h : Module) (k : Nat) : (s.setHw h).coreAt k = s.coreAt k := rfl
@[simp] theorem coreAt_setMem (s : State) (m : Memory) (k : Nat) : (s.setMem m).coreAt k = s.coreAt k := rfl
@[simp] theorem coreAt_setSpad (s : State) (m : Memory) (k : Nat) : (s.setSpad m).coreAt k = s.coreAt k := rfl
@[simp] theorem coreAt_setLast (s : State) (l : Last) (k : Nat) : (s.setLast l).coreAt k = s.coreAt k := rfl
@[simp] theorem coreAt_bumpId (s : State) (k : Nat) : (s.bumpId).coreAt k = s.coreAt k := rfl
@[simp] theorem coreAt_setGroup (s : State) (g : Group) (k : Nat) : (s.setGroup g).coreAt k = s.coreAt k := rfl
@[simp] theorem coreAt_setSys (s : State) (g : GroupSys) (k : Nat) : (s.setSys g).coreAt k = s.coreAt k := rfl
@[simp] theorem coreAt_setBlock (s : State) (b : Block) (k : Nat) : (s.setBlock b).coreAt k = s.coreAt k := rfl
@[simp] theorem coreAt_setSplit (s : State) (x : Split) (k : Nat) : (s.setSplit x).coreAt k = s.coreAt k := rfl
@[simp] theorem clusterAt_setClusterAt (s : State) (k : Nat) (x : Cluster) : (s.setClusterAt k x).clusterAt k = x := by simp [clusterAt]
@[simp] theorem clusterAt_setClusterAt_of_ne (s : State) {j k : Nat} (x : Cluster) (h : j ≠ k) : (s.setClusterAt k x).clusterAt j = s.clusterAt j := by simp [clusterAt, h]
@[simp] theorem clusterAt_setGroupAt (s : State) (i : Nat) (g : Group) (k : Nat) : (s.setGroupAt i g).clusterAt k = s.clusterAt k := rfl
@[simp] theorem clusterAt_setSysAt (s : State) (i : Nat) (g : GroupSys) (k : Nat) : (s.setSysAt i g).clusterAt k = s.clusterAt k := rfl
@[simp] theorem clusterAt_setBlockAt (s : State) (i : Nat) (b : Block) (k : Nat) : (s.setBlockAt i b).clusterAt k = s.clusterAt k := rfl
@[simp] theorem clusterAt_setLaunchAt (s : State) (i : Nat) (l : Launch) (k : Nat) : (s.setLaunchAt i l).clusterAt k = s.clusterAt k := rfl
@[simp] theorem clusterAt_setCoreAt (s : State) (i : Nat) (c : CoreState) (k : Nat) : (s.setCoreAt i c).clusterAt k = s.clusterAt k := rfl
@[simp] theorem clusterAt_setDieAt (s : State) (i : Nat) (d : Die) (k : Nat) : (s.setDieAt i d).clusterAt k = s.clusterAt k := rfl
@[simp] theorem clusterAt_setContextAt (s : State) (i : Nat) (c : Context) (k : Nat) : (s.setContextAt i c).clusterAt k = s.clusterAt k := rfl
@[simp] theorem clusterAt_setFirmAt (s : State) (i : Nat) (c : ContextFirm) (k : Nat) : (s.setFirmAt i c).clusterAt k = s.clusterAt k := rfl
@[simp] theorem clusterAt_setHw (s : State) (h : Module) (k : Nat) : (s.setHw h).clusterAt k = s.clusterAt k := rfl
@[simp] theorem clusterAt_setMem (s : State) (m : Memory) (k : Nat) : (s.setMem m).clusterAt k = s.clusterAt k := rfl
@[simp] theorem clusterAt_setSpad (s : State) (m : Memory) (k : Nat) : (s.setSpad m).clusterAt k = s.clusterAt k := rfl
@[simp] theorem clusterAt_setLast (s : State) (l : Last) (k : Nat) : (s.setLast l).clusterAt k = s.clusterAt k := rfl
@[simp] theorem clusterAt_bumpId (s : State) (k : Nat) : (s.bumpId).clusterAt k = s.clusterAt k := rfl
@[simp] theorem clusterAt_setGroup (s : State) (g : Group) (k : Nat) : (s.setGroup g).clusterAt k = s.clusterAt k := rfl
@[simp] theorem clusterAt_setSys (s : State) (g : GroupSys) (k : Nat) : (s.setSys g).clusterAt k = s.clusterAt k := rfl
@[simp] theorem clusterAt_setBlock (s : State) (b : Block) (k : Nat) : (s.setBlock b).clusterAt k = s.clusterAt k := rfl
@[simp] theorem clusterAt_setSplit (s : State) (x : Split) (k : Nat) : (s.setSplit x).clusterAt k = s.clusterAt k := rfl
@[simp] theorem dieAt_setDieAt (s : State) (k : Nat) (x : Die) : (s.setDieAt k x).dieAt k = x := by simp [dieAt]
@[simp] theorem dieAt_setDieAt_of_ne (s : State) {j k : Nat} (x : Die) (h : j ≠ k) : (s.setDieAt k x).dieAt j = s.dieAt j := by simp [dieAt, h]
@[simp] theorem dieAt_setGroupAt (s : State) (i : Nat) (g : Group) (k : Nat) : (s.setGroupAt i g).dieAt k = s.dieAt k := rfl
@[simp] theorem dieAt_setSysAt (s : State) (i : Nat) (g : GroupSys) (k : Nat) : (s.setSysAt i g).dieAt k = s.dieAt k := rfl
@[simp] theorem dieAt_setBlockAt (s : State) (i : Nat) (b : Block) (k : Nat) : (s.setBlockAt i b).dieAt k = s.dieAt k := rfl
@[simp] theorem dieAt_setLaunchAt (s : State) (i : Nat) (l : Launch) (k : Nat) : (s.setLaunchAt i l).dieAt k = s.dieAt k := rfl
@[simp] theorem dieAt_setCoreAt (s : State) (i : Nat) (c : CoreState) (k : Nat) : (s.setCoreAt i c).dieAt k = s.dieAt k := rfl
@[simp] theorem dieAt_setClusterAt (s : State) (i : Nat) (c : Cluster) (k : Nat) : (s.setClusterAt i c).dieAt k = s.dieAt k := rfl
@[simp] theorem dieAt_setContextAt (s : State) (i : Nat) (c : Context) (k : Nat) : (s.setContextAt i c).dieAt k = s.dieAt k := rfl
@[simp] theorem dieAt_setFirmAt (s : State) (i : Nat) (c : ContextFirm) (k : Nat) : (s.setFirmAt i c).dieAt k = s.dieAt k := rfl
@[simp] theorem dieAt_setHw (s : State) (h : Module) (k : Nat) : (s.setHw h).dieAt k = s.dieAt k := rfl
@[simp] theorem dieAt_setMem (s : State) (m : Memory) (k : Nat) : (s.setMem m).dieAt k = s.dieAt k := rfl
@[simp] theorem dieAt_setSpad (s : State) (m : Memory) (k : Nat) : (s.setSpad m).dieAt k = s.dieAt k := rfl
@[simp] theorem dieAt_setLast (s : State) (l : Last) (k : Nat) : (s.setLast l).dieAt k = s.dieAt k := rfl
@[simp] theorem dieAt_bumpId (s : State) (k : Nat) : (s.bumpId).dieAt k = s.dieAt k := rfl
@[simp] theorem dieAt_setGroup (s : State) (g : Group) (k : Nat) : (s.setGroup g).dieAt k = s.dieAt k := rfl
@[simp] theorem dieAt_setSys (s : State) (g : GroupSys) (k : Nat) : (s.setSys g).dieAt k = s.dieAt k := rfl
@[simp] theorem dieAt_setBlock (s : State) (b : Block) (k : Nat) : (s.setBlock b).dieAt k = s.dieAt k := rfl
@[simp] theorem dieAt_setSplit (s : State) (x : Split) (k : Nat) : (s.setSplit x).dieAt k = s.dieAt k := rfl
@[simp] theorem contextAt_setContextAt (s : State) (k : Nat) (x : Context) : (s.setContextAt k x).contextAt k = x := by simp [contextAt]
@[simp] theorem contextAt_setContextAt_of_ne (s : State) {j k : Nat} (x : Context) (h : j ≠ k) : (s.setContextAt k x).contextAt j = s.contextAt j := by simp [contextAt, h]
@[simp] theorem contextAt_setGroupAt (s : State) (i : Nat) (g : Group) (k : Nat) : (s.setGroupAt i g).contextAt k = s.contextAt k := rfl
@[simp] theorem contextAt_setSysAt (s : State) (i : Nat) (g : GroupSys) (k : Nat) : (s.setSysAt i g).contextAt k = s.contextAt k := rfl
@[simp] theorem contextAt_setBlockAt (s : State) (i : Nat) (b : Block) (k : Nat) : (s.setBlockAt i b).contextAt k = s.contextAt k := rfl
@[simp] theorem contextAt_setLaunchAt (s : State) (i : Nat) (l : Launch) (k : Nat) : (s.setLaunchAt i l).contextAt k = s.contextAt k := rfl
@[simp] theorem contextAt_setCoreAt (s : State) (i : Nat) (c : CoreState) (k : Nat) : (s.setCoreAt i c).contextAt k = s.contextAt k := rfl
@[simp] theorem contextAt_setClusterAt (s : State) (i : Nat) (c : Cluster) (k : Nat) : (s.setClusterAt i c).contextAt k = s.contextAt k := rfl
@[simp] theorem contextAt_setDieAt (s : State) (i : Nat) (d : Die) (k : Nat) : (s.setDieAt i d).contextAt k = s.contextAt k := rfl
@[simp] theorem contextAt_setFirmAt (s : State) (i : Nat) (c : ContextFirm) (k : Nat) : (s.setFirmAt i c).contextAt k = s.contextAt k := rfl
@[simp] theorem contextAt_setHw (s : State) (h : Module) (k : Nat) : (s.setHw h).contextAt k = s.contextAt k := rfl
@[simp] theorem contextAt_setMem (s : State) (m : Memory) (k : Nat) : (s.setMem m).contextAt k = s.contextAt k := rfl
@[simp] theorem contextAt_setSpad (s : State) (m : Memory) (k : Nat) : (s.setSpad m).contextAt k = s.contextAt k := rfl
@[simp] theorem contextAt_setLast (s : State) (l : Last) (k : Nat) : (s.setLast l).contextAt k = s.contextAt k := rfl
@[simp] theorem contextAt_bumpId (s : State) (k : Nat) : (s.bumpId).contextAt k = s.contextAt k := rfl
@[simp] theorem contextAt_setGroup (s : State) (g : Group) (k : Nat) : (s.setGroup g).contextAt k = s.contextAt k := rfl
@[simp] theorem contextAt_setSys (s : State) (g : GroupSys) (k : Nat) : (s.setSys g).contextAt k = s.contextAt k := rfl
@[simp] theorem contextAt_setBlock (s : State) (b : Block) (k : Nat) : (s.setBlock b).contextAt k = s.contextAt k := rfl
@[simp] theorem contextAt_setSplit (s : State) (x : Split) (k : Nat) : (s.setSplit x).contextAt k = s.contextAt k := rfl
@[simp] theorem firmAt_setFirmAt (s : State) (k : Nat) (x : ContextFirm) : (s.setFirmAt k x).firmAt k = x := by simp [firmAt]
@[simp] theorem firmAt_setFirmAt_of_ne (s : State) {j k : Nat} (x : ContextFirm) (h : j ≠ k) : (s.setFirmAt k x).firmAt j = s.firmAt j := by simp [firmAt, h]
@[simp] theorem firmAt_setGroupAt (s : State) (i : Nat) (g : Group) (k : Nat) : (s.setGroupAt i g).firmAt k = s.firmAt k := rfl
@[simp] theorem firmAt_setSysAt (s : State) (i : Nat) (g : GroupSys) (k : Nat) : (s.setSysAt i g).firmAt k = s.firmAt k := rfl
@[simp] theorem firmAt_setBlockAt (s : State) (i : Nat) (b : Block) (k : Nat) : (s.setBlockAt i b).firmAt k = s.firmAt k := rfl
@[simp] theorem firmAt_setLaunchAt (s : State) (i : Nat) (l : Launch) (k : Nat) : (s.setLaunchAt i l).firmAt k = s.firmAt k := rfl
@[simp] theorem firmAt_setCoreAt (s : State) (i : Nat) (c : CoreState) (k : Nat) : (s.setCoreAt i c).firmAt k = s.firmAt k := rfl
@[simp] theorem firmAt_setClusterAt (s : State) (i : Nat) (c : Cluster) (k : Nat) : (s.setClusterAt i c).firmAt k = s.firmAt k := rfl
@[simp] theorem firmAt_setDieAt (s : State) (i : Nat) (d : Die) (k : Nat) : (s.setDieAt i d).firmAt k = s.firmAt k := rfl
@[simp] theorem firmAt_setContextAt (s : State) (i : Nat) (c : Context) (k : Nat) : (s.setContextAt i c).firmAt k = s.firmAt k := rfl
@[simp] theorem firmAt_setHw (s : State) (h : Module) (k : Nat) : (s.setHw h).firmAt k = s.firmAt k := rfl
@[simp] theorem firmAt_setMem (s : State) (m : Memory) (k : Nat) : (s.setMem m).firmAt k = s.firmAt k := rfl
@[simp] theorem firmAt_setSpad (s : State) (m : Memory) (k : Nat) : (s.setSpad m).firmAt k = s.firmAt k := rfl
@[simp] theorem firmAt_setLast (s : State) (l : Last) (k : Nat) : (s.setLast l).firmAt k = s.firmAt k := rfl
@[simp] theorem firmAt_bumpId (s : State) (k : Nat) : (s.bumpId).firmAt k = s.firmAt k := rfl
@[simp] theorem firmAt_setGroup (s : State) (g : Group) (k : Nat) : (s.setGroup g).firmAt k = s.firmAt k := rfl
@[simp] theorem firmAt_setSys (s : State) (g : GroupSys) (k : Nat) : (s.setSys g).firmAt k = s.firmAt k := rfl
@[simp] theorem firmAt_setBlock (s : State) (b : Block) (k : Nat) : (s.setBlock b).firmAt k = s.firmAt k := rfl
@[simp] theorem firmAt_setSplit (s : State) (x : Split) (k : Nat) : (s.setSplit x).firmAt k = s.firmAt k := rfl

@[simp] theorem setGroupAt_gkey (s : State) (k : Nat) (g : Group) : (s.setGroupAt k g).gkey = s.gkey := rfl
@[simp] theorem setSysAt_gkey (s : State) (k : Nat) (g : GroupSys) : (s.setSysAt k g).gkey = s.gkey := rfl
@[simp] theorem setGroup_gkey (s : State) (g : Group) : (s.setGroup g).gkey = s.gkey := rfl
@[simp] theorem setSys_gkey (s : State) (g : GroupSys) : (s.setSys g).gkey = s.gkey := rfl
@[simp] theorem setSplit_gkey (s : State) (x : Split) : (s.setSplit x).gkey = s.gkey := rfl
@[simp] theorem setBlock_gkey (s : State) (b : Block) : (s.setBlock b).gkey = s.gkey := rfl

@[simp] theorem setGroup_group (s : State) (g : Group) : (s.setGroup g).group = g := by
  simp [group, setGroup]

@[simp] theorem setGroup_groupAt_of_ne (s : State) (g : Group) {k : Nat} (h : k ≠ s.gkey) :
    (s.setGroup g).groupAt k = s.groupAt k := by
  simp [setGroup, h]

@[simp] theorem setGroup_gsys (s : State) (g : Group) : (s.setGroup g).gsys = s.gsys := rfl

@[simp] theorem setSys_group (s : State) (g : GroupSys) : (s.setSys g).group = s.group := rfl

@[simp] theorem setSys_gsys (s : State) (g : GroupSys) : (s.setSys g).gsys = g := by
  simp [gsys, setSys]

@[simp] theorem setSys_sysAt_of_ne (s : State) (g : GroupSys) {k : Nat} (h : k ≠ s.gkey) :
    (s.setSys g).sysAt k = s.sysAt k := by
  simp [setSys, h]

@[simp] theorem setSplit_split (s : State) (x : Split) : (s.setSplit x).split = x := by
  simp [split, setSplit, Group.splitAt]

@[simp] theorem setSplit_group (s : State) (x : Split) :
    (s.setSplit x).group = { s.group with splits := s.group.splits.set s.cur.split x } := by
  simp [setSplit]

@[simp] theorem setSplit_groupAt_of_ne (s : State) (x : Split) {k : Nat} (h : k ≠ s.gkey) :
    (s.setSplit x).groupAt k = s.groupAt k := by
  simp [setSplit, h]

/-! Outside a chain words read the state as it stands (R67). -/

theorem vgroup_of_none {s : State} (h : s.snap = none) : s.vgroup = s.group := by simp [vgroup, h]
theorem vsys_of_none {s : State} (h : s.snap = none) : s.vsys = s.gsys := by simp [vsys, h]
theorem vblock_of_none {s : State} (h : s.snap = none) : s.vblock = s.block := by simp [vblock, h]
theorem vcontext_of_none {s : State} (h : s.snap = none) : s.vcontext = s.context := by simp [vcontext, h]

end Sys2Proof.Machine.State
end

