-- ==== Sys2Proof/Laws/Registers.lean ====
section
/-!
SUPPORT. What the operations on registers do: lanes and masks built from functions, and for each write what it leaves
everywhere (R67, R85, R89, R91, R146, R148), the end of a word (R63, R64, R66).
-/

set_option Elab.async false

namespace Sys2Proof

theorem testBit_bits (f : Nat → Bool) (n : Nat) : ∀ k i : Nat,
    ((List.range' k n).foldr (fun l m => 2 * m + (f l).toNat) 0).testBit i = (decide (i < n) && f (k + i)) := by
  induction n with
  | zero => intro k i; simp
  | succ n ih =>
    intro k i
    rw [List.range'_succ, List.foldr_cons]
    cases i with
    | zero => cases h : f k <;> simp [Nat.testBit_zero]
    | succ i =>
      have h2 : (2 * (List.range' (k + 1) n).foldr (fun l m => 2 * m + (f l).toNat) 0 + (f k).toNat) / 2 =
          (List.range' (k + 1) n).foldr (fun l m => 2 * m + (f l).toNat) 0 := by
        have : (f k).toNat ≤ 1 := by cases f k <;> simp
        omega
      rw [Nat.testBit_succ, h2, ih]
      simp [Nat.add_comm, Nat.add_left_comm]

/-- Bit `l` of the mask that a function gives. -/
@[simp] theorem LaneMask.getLsbD_ofFn (f : Nat → Bool) (l : Nat) : (LaneMask.ofFn f).getLsbD l = (decide (l < 96) && f l) := by
  simp only [LaneMask.ofFn, BitVec.getLsbD_ofNat, lanes, List.range_eq_range', testBit_bits, Nat.zero_add]
  by_cases h : l < 96 <;> simp [h]

@[simp] theorem LaneMask.getElem_ofFn (f : Nat → Bool) (l : Nat) (h : l < 96) : (LaneMask.ofFn f)[l] = f l := by
  rw [← BitVec.getLsbD_eq_getElem, LaneMask.getLsbD_ofFn]; simp [h]

/-- Lane `l` of the vector that a function gives. -/
theorem LaneWords.lane_ofFn (f : Nat → Word) {l : Nat} (h : l < 96) : (LaneWords.ofFn f).lane l = f l := by
  simp [LaneWords.lane, LaneWords.ofFn, h]

theorem LaneMask.mem_list {m : LaneMask} {l : Nat} : l ∈ LaneMask.list m ↔ l < 96 ∧ m.getLsbD l = true := by
  simp [LaneMask.list, lanes]

namespace Machine.State

/-! ## What the writes leave -/

/-! ### spoilS -/

@[simp] theorem spoilS_cur (s : State) (r : Nat) : (s.spoilS r).cur = s.cur := by unfold spoilS; split <;> rfl
@[simp] theorem spoilS_schedule (s : State) (r : Nat) : (s.spoilS r).schedule = s.schedule := by unfold spoilS; split <;> rfl
@[simp] theorem spoilS_now (s : State) (r : Nat) : (s.spoilS r).now = s.now := by unfold spoilS; split <;> rfl
@[simp] theorem spoilS_tick (s : State) (r : Nat) : (s.spoilS r).tick = s.tick := by unfold spoilS; split <;> rfl
@[simp] theorem spoilS_last (s : State) (r : Nat) : (s.spoilS r).last = s.last := by unfold spoilS; split <;> rfl
@[simp] theorem spoilS_snap (s : State) (r : Nat) : (s.spoilS r).snap = s.snap := by unfold spoilS; split <;> rfl
@[simp] theorem spoilS_nextId (s : State) (r : Nat) : (s.spoilS r).nextId = s.nextId := by unfold spoilS; split <;> rfl
@[simp] theorem spoilS_blocks (s : State) (r : Nat) : (s.spoilS r).blocks = s.blocks := by unfold spoilS; split <;> rfl
@[simp] theorem spoilS_launches (s : State) (r : Nat) : (s.spoilS r).launches = s.launches := by unfold spoilS; split <;> rfl
@[simp] theorem spoilS_queues (s : State) (r : Nat) : (s.spoilS r).queues = s.queues := by unfold spoilS; split <;> rfl
@[simp] theorem spoilS_dispatched (s : State) (r : Nat) : (s.spoilS r).dispatched = s.dispatched := by unfold spoilS; split <;> rfl
@[simp] theorem spoilS_served (s : State) (r : Nat) : (s.spoilS r).served = s.served := by unfold spoilS; split <;> rfl
@[simp] theorem spoilS_cores (s : State) (r : Nat) : (s.spoilS r).cores = s.cores := by unfold spoilS; split <;> rfl
@[simp] theorem spoilS_clusters (s : State) (r : Nat) : (s.spoilS r).clusters = s.clusters := by unfold spoilS; split <;> rfl
@[simp] theorem spoilS_dies (s : State) (r : Nat) : (s.spoilS r).dies = s.dies := by unfold spoilS; split <;> rfl
@[simp] theorem spoilS_contexts (s : State) (r : Nat) : (s.spoilS r).contexts = s.contexts := by unfold spoilS; split <;> rfl
@[simp] theorem spoilS_firm (s : State) (r : Nat) : (s.spoilS r).firm = s.firm := by unfold spoilS; split <;> rfl
@[simp] theorem spoilS_mem (s : State) (r : Nat) : (s.spoilS r).mem = s.mem := by unfold spoilS; split <;> rfl
@[simp] theorem spoilS_spad (s : State) (r : Nat) : (s.spoilS r).spad = s.spad := by unfold spoilS; split <;> rfl
@[simp] theorem spoilS_acc (s : State) (r : Nat) : (s.spoilS r).acc = s.acc := by unfold spoilS; split <;> rfl
@[simp] theorem spoilS_hw (s : State) (r : Nat) : (s.spoilS r).hw = s.hw := by unfold spoilS; split <;> rfl

@[simp] theorem spoilS_groups (s : State) (r : Nat) : (s.spoilS r).groups = s.groups := by unfold spoilS; split <;> rfl
@[simp] theorem spoilS_gkey (s : State) (r : Nat) : (s.spoilS r).gkey = s.gkey := by simp [gkey]
@[simp] theorem spoilS_group (s : State) (r : Nat) : (s.spoilS r).group = s.group := by simp [group, groupAt]

/-! ### spoilV -/

@[simp] theorem spoilV_cur (s : State) (r : Nat) (m : LaneMask) : (s.spoilV r m).cur = s.cur := by unfold spoilV; split <;> rfl
@[simp] theorem spoilV_schedule (s : State) (r : Nat) (m : LaneMask) : (s.spoilV r m).schedule = s.schedule := by unfold spoilV; split <;> rfl
@[simp] theorem spoilV_now (s : State) (r : Nat) (m : LaneMask) : (s.spoilV r m).now = s.now := by unfold spoilV; split <;> rfl
@[simp] theorem spoilV_tick (s : State) (r : Nat) (m : LaneMask) : (s.spoilV r m).tick = s.tick := by unfold spoilV; split <;> rfl
@[simp] theorem spoilV_last (s : State) (r : Nat) (m : LaneMask) : (s.spoilV r m).last = s.last := by unfold spoilV; split <;> rfl
@[simp] theorem spoilV_snap (s : State) (r : Nat) (m : LaneMask) : (s.spoilV r m).snap = s.snap := by unfold spoilV; split <;> rfl
@[simp] theorem spoilV_nextId (s : State) (r : Nat) (m : LaneMask) : (s.spoilV r m).nextId = s.nextId := by unfold spoilV; split <;> rfl
@[simp] theorem spoilV_blocks (s : State) (r : Nat) (m : LaneMask) : (s.spoilV r m).blocks = s.blocks := by unfold spoilV; split <;> rfl
@[simp] theorem spoilV_launches (s : State) (r : Nat) (m : LaneMask) : (s.spoilV r m).launches = s.launches := by unfold spoilV; split <;> rfl
@[simp] theorem spoilV_queues (s : State) (r : Nat) (m : LaneMask) : (s.spoilV r m).queues = s.queues := by unfold spoilV; split <;> rfl
@[simp] theorem spoilV_dispatched (s : State) (r : Nat) (m : LaneMask) : (s.spoilV r m).dispatched = s.dispatched := by unfold spoilV; split <;> rfl
@[simp] theorem spoilV_served (s : State) (r : Nat) (m : LaneMask) : (s.spoilV r m).served = s.served := by unfold spoilV; split <;> rfl
@[simp] theorem spoilV_cores (s : State) (r : Nat) (m : LaneMask) : (s.spoilV r m).cores = s.cores := by unfold spoilV; split <;> rfl
@[simp] theorem spoilV_clusters (s : State) (r : Nat) (m : LaneMask) : (s.spoilV r m).clusters = s.clusters := by unfold spoilV; split <;> rfl
@[simp] theorem spoilV_dies (s : State) (r : Nat) (m : LaneMask) : (s.spoilV r m).dies = s.dies := by unfold spoilV; split <;> rfl
@[simp] theorem spoilV_contexts (s : State) (r : Nat) (m : LaneMask) : (s.spoilV r m).contexts = s.contexts := by unfold spoilV; split <;> rfl
@[simp] theorem spoilV_firm (s : State) (r : Nat) (m : LaneMask) : (s.spoilV r m).firm = s.firm := by unfold spoilV; split <;> rfl
@[simp] theorem spoilV_mem (s : State) (r : Nat) (m : LaneMask) : (s.spoilV r m).mem = s.mem := by unfold spoilV; split <;> rfl
@[simp] theorem spoilV_spad (s : State) (r : Nat) (m : LaneMask) : (s.spoilV r m).spad = s.spad := by unfold spoilV; split <;> rfl
@[simp] theorem spoilV_acc (s : State) (r : Nat) (m : LaneMask) : (s.spoilV r m).acc = s.acc := by unfold spoilV; split <;> rfl
@[simp] theorem spoilV_hw (s : State) (r : Nat) (m : LaneMask) : (s.spoilV r m).hw = s.hw := by unfold spoilV; split <;> rfl

@[simp] theorem spoilV_groups (s : State) (r : Nat) (m : LaneMask) : (s.spoilV r m).groups = s.groups := by unfold spoilV; split <;> rfl
@[simp] theorem spoilV_gkey (s : State) (r : Nat) (m : LaneMask) : (s.spoilV r m).gkey = s.gkey := by simp [gkey]
@[simp] theorem spoilV_group (s : State) (r : Nat) (m : LaneMask) : (s.spoilV r m).group = s.group := by simp [group, groupAt]

/-! ### spoilP -/

@[simp] theorem spoilP_cur (s : State) (r : Nat) (m : LaneMask) : (s.spoilP r m).cur = s.cur := by unfold spoilP; split <;> rfl
@[simp] theorem spoilP_schedule (s : State) (r : Nat) (m : LaneMask) : (s.spoilP r m).schedule = s.schedule := by unfold spoilP; split <;> rfl
@[simp] theorem spoilP_now (s : State) (r : Nat) (m : LaneMask) : (s.spoilP r m).now = s.now := by unfold spoilP; split <;> rfl
@[simp] theorem spoilP_tick (s : State) (r : Nat) (m : LaneMask) : (s.spoilP r m).tick = s.tick := by unfold spoilP; split <;> rfl
@[simp] theorem spoilP_last (s : State) (r : Nat) (m : LaneMask) : (s.spoilP r m).last = s.last := by unfold spoilP; split <;> rfl
@[simp] theorem spoilP_snap (s : State) (r : Nat) (m : LaneMask) : (s.spoilP r m).snap = s.snap := by unfold spoilP; split <;> rfl
@[simp] theorem spoilP_nextId (s : State) (r : Nat) (m : LaneMask) : (s.spoilP r m).nextId = s.nextId := by unfold spoilP; split <;> rfl
@[simp] theorem spoilP_blocks (s : State) (r : Nat) (m : LaneMask) : (s.spoilP r m).blocks = s.blocks := by unfold spoilP; split <;> rfl
@[simp] theorem spoilP_launches (s : State) (r : Nat) (m : LaneMask) : (s.spoilP r m).launches = s.launches := by unfold spoilP; split <;> rfl
@[simp] theorem spoilP_queues (s : State) (r : Nat) (m : LaneMask) : (s.spoilP r m).queues = s.queues := by unfold spoilP; split <;> rfl
@[simp] theorem spoilP_dispatched (s : State) (r : Nat) (m : LaneMask) : (s.spoilP r m).dispatched = s.dispatched := by unfold spoilP; split <;> rfl
@[simp] theorem spoilP_served (s : State) (r : Nat) (m : LaneMask) : (s.spoilP r m).served = s.served := by unfold spoilP; split <;> rfl
@[simp] theorem spoilP_cores (s : State) (r : Nat) (m : LaneMask) : (s.spoilP r m).cores = s.cores := by unfold spoilP; split <;> rfl
@[simp] theorem spoilP_clusters (s : State) (r : Nat) (m : LaneMask) : (s.spoilP r m).clusters = s.clusters := by unfold spoilP; split <;> rfl
@[simp] theorem spoilP_dies (s : State) (r : Nat) (m : LaneMask) : (s.spoilP r m).dies = s.dies := by unfold spoilP; split <;> rfl
@[simp] theorem spoilP_contexts (s : State) (r : Nat) (m : LaneMask) : (s.spoilP r m).contexts = s.contexts := by unfold spoilP; split <;> rfl
@[simp] theorem spoilP_firm (s : State) (r : Nat) (m : LaneMask) : (s.spoilP r m).firm = s.firm := by unfold spoilP; split <;> rfl
@[simp] theorem spoilP_mem (s : State) (r : Nat) (m : LaneMask) : (s.spoilP r m).mem = s.mem := by unfold spoilP; split <;> rfl
@[simp] theorem spoilP_spad (s : State) (r : Nat) (m : LaneMask) : (s.spoilP r m).spad = s.spad := by unfold spoilP; split <;> rfl
@[simp] theorem spoilP_acc (s : State) (r : Nat) (m : LaneMask) : (s.spoilP r m).acc = s.acc := by unfold spoilP; split <;> rfl
@[simp] theorem spoilP_hw (s : State) (r : Nat) (m : LaneMask) : (s.spoilP r m).hw = s.hw := by unfold spoilP; split <;> rfl

@[simp] theorem spoilP_groups (s : State) (r : Nat) (m : LaneMask) : (s.spoilP r m).groups = s.groups := by unfold spoilP; split <;> rfl
@[simp] theorem spoilP_gkey (s : State) (r : Nat) (m : LaneMask) : (s.spoilP r m).gkey = s.gkey := by simp [gkey]
@[simp] theorem spoilP_group (s : State) (r : Nat) (m : LaneMask) : (s.spoilP r m).group = s.group := by simp [group, groupAt]

/-! ### setMask -/

@[simp] theorem setMask_cur (s : State) (m : LaneMask) : (s.setMask m).cur = s.cur := by rfl
@[simp] theorem setMask_schedule (s : State) (m : LaneMask) : (s.setMask m).schedule = s.schedule := by rfl
@[simp] theorem setMask_now (s : State) (m : LaneMask) : (s.setMask m).now = s.now := by rfl
@[simp] theorem setMask_tick (s : State) (m : LaneMask) : (s.setMask m).tick = s.tick := by rfl
@[simp] theorem setMask_last (s : State) (m : LaneMask) : (s.setMask m).last = s.last := by rfl
@[simp] theorem setMask_snap (s : State) (m : LaneMask) : (s.setMask m).snap = s.snap := by rfl
@[simp] theorem setMask_nextId (s : State) (m : LaneMask) : (s.setMask m).nextId = s.nextId := by rfl
@[simp] theorem setMask_blocks (s : State) (m : LaneMask) : (s.setMask m).blocks = s.blocks := by rfl
@[simp] theorem setMask_launches (s : State) (m : LaneMask) : (s.setMask m).launches = s.launches := by rfl
@[simp] theorem setMask_queues (s : State) (m : LaneMask) : (s.setMask m).queues = s.queues := by rfl
@[simp] theorem setMask_dispatched (s : State) (m : LaneMask) : (s.setMask m).dispatched = s.dispatched := by rfl
@[simp] theorem setMask_served (s : State) (m : LaneMask) : (s.setMask m).served = s.served := by rfl
@[simp] theorem setMask_cores (s : State) (m : LaneMask) : (s.setMask m).cores = s.cores := by rfl
@[simp] theorem setMask_clusters (s : State) (m : LaneMask) : (s.setMask m).clusters = s.clusters := by rfl
@[simp] theorem setMask_dies (s : State) (m : LaneMask) : (s.setMask m).dies = s.dies := by rfl
@[simp] theorem setMask_contexts (s : State) (m : LaneMask) : (s.setMask m).contexts = s.contexts := by rfl
@[simp] theorem setMask_firm (s : State) (m : LaneMask) : (s.setMask m).firm = s.firm := by rfl
@[simp] theorem setMask_mem (s : State) (m : LaneMask) : (s.setMask m).mem = s.mem := by rfl
@[simp] theorem setMask_spad (s : State) (m : LaneMask) : (s.setMask m).spad = s.spad := by rfl
@[simp] theorem setMask_acc (s : State) (m : LaneMask) : (s.setMask m).acc = s.acc := by rfl
@[simp] theorem setMask_hw (s : State) (m : LaneMask) : (s.setMask m).hw = s.hw := by rfl

/-! ### writeS -/

@[simp] theorem writeS_cur (s : State) (r : SReg) (w : Word) : (s.writeS r w).cur = s.cur := by unfold writeS; split <;> simp
@[simp] theorem writeS_schedule (s : State) (r : SReg) (w : Word) : (s.writeS r w).schedule = s.schedule := by unfold writeS; split <;> simp
@[simp] theorem writeS_now (s : State) (r : SReg) (w : Word) : (s.writeS r w).now = s.now := by unfold writeS; split <;> simp
@[simp] theorem writeS_tick (s : State) (r : SReg) (w : Word) : (s.writeS r w).tick = s.tick := by unfold writeS; split <;> simp
@[simp] theorem writeS_last (s : State) (r : SReg) (w : Word) : (s.writeS r w).last = s.last := by unfold writeS; split <;> simp
@[simp] theorem writeS_snap (s : State) (r : SReg) (w : Word) : (s.writeS r w).snap = s.snap := by unfold writeS; split <;> simp
@[simp] theorem writeS_nextId (s : State) (r : SReg) (w : Word) : (s.writeS r w).nextId = s.nextId := by unfold writeS; split <;> simp
@[simp] theorem writeS_blocks (s : State) (r : SReg) (w : Word) : (s.writeS r w).blocks = s.blocks := by unfold writeS; split <;> simp
@[simp] theorem writeS_launches (s : State) (r : SReg) (w : Word) : (s.writeS r w).launches = s.launches := by unfold writeS; split <;> simp
@[simp] theorem writeS_queues (s : State) (r : SReg) (w : Word) : (s.writeS r w).queues = s.queues := by unfold writeS; split <;> simp
@[simp] theorem writeS_dispatched (s : State) (r : SReg) (w : Word) : (s.writeS r w).dispatched = s.dispatched := by unfold writeS; split <;> simp
@[simp] theorem writeS_served (s : State) (r : SReg) (w : Word) : (s.writeS r w).served = s.served := by unfold writeS; split <;> simp
@[simp] theorem writeS_cores (s : State) (r : SReg) (w : Word) : (s.writeS r w).cores = s.cores := by unfold writeS; split <;> simp
@[simp] theorem writeS_clusters (s : State) (r : SReg) (w : Word) : (s.writeS r w).clusters = s.clusters := by unfold writeS; split <;> simp
@[simp] theorem writeS_dies (s : State) (r : SReg) (w : Word) : (s.writeS r w).dies = s.dies := by unfold writeS; split <;> simp
@[simp] theorem writeS_contexts (s : State) (r : SReg) (w : Word) : (s.writeS r w).contexts = s.contexts := by unfold writeS; split <;> simp
@[simp] theorem writeS_firm (s : State) (r : SReg) (w : Word) : (s.writeS r w).firm = s.firm := by unfold writeS; split <;> simp
@[simp] theorem writeS_mem (s : State) (r : SReg) (w : Word) : (s.writeS r w).mem = s.mem := by unfold writeS; split <;> simp
@[simp] theorem writeS_spad (s : State) (r : SReg) (w : Word) : (s.writeS r w).spad = s.spad := by unfold writeS; split <;> simp
@[simp] theorem writeS_acc (s : State) (r : SReg) (w : Word) : (s.writeS r w).acc = s.acc := by unfold writeS; split <;> simp
@[simp] theorem writeS_hw (s : State) (r : SReg) (w : Word) : (s.writeS r w).hw = s.hw := by unfold writeS; split <;> simp

/-! ### writeLanes -/

@[simp] theorem writeLanes_cur (s : State) (m : LaneMask) (r : VReg) (f : Nat → Word) : (s.writeLanes m r f).cur = s.cur := by simp [writeLanes]
@[simp] theorem writeLanes_schedule (s : State) (m : LaneMask) (r : VReg) (f : Nat → Word) : (s.writeLanes m r f).schedule = s.schedule := by simp [writeLanes]
@[simp] theorem writeLanes_now (s : State) (m : LaneMask) (r : VReg) (f : Nat → Word) : (s.writeLanes m r f).now = s.now := by simp [writeLanes]
@[simp] theorem writeLanes_tick (s : State) (m : LaneMask) (r : VReg) (f : Nat → Word) : (s.writeLanes m r f).tick = s.tick := by simp [writeLanes]
@[simp] theorem writeLanes_last (s : State) (m : LaneMask) (r : VReg) (f : Nat → Word) : (s.writeLanes m r f).last = s.last := by simp [writeLanes]
@[simp] theorem writeLanes_snap (s : State) (m : LaneMask) (r : VReg) (f : Nat → Word) : (s.writeLanes m r f).snap = s.snap := by simp [writeLanes]
@[simp] theorem writeLanes_nextId (s : State) (m : LaneMask) (r : VReg) (f : Nat → Word) : (s.writeLanes m r f).nextId = s.nextId := by simp [writeLanes]
@[simp] theorem writeLanes_blocks (s : State) (m : LaneMask) (r : VReg) (f : Nat → Word) : (s.writeLanes m r f).blocks = s.blocks := by simp [writeLanes]
@[simp] theorem writeLanes_launches (s : State) (m : LaneMask) (r : VReg) (f : Nat → Word) : (s.writeLanes m r f).launches = s.launches := by simp [writeLanes]
@[simp] theorem writeLanes_queues (s : State) (m : LaneMask) (r : VReg) (f : Nat → Word) : (s.writeLanes m r f).queues = s.queues := by simp [writeLanes]
@[simp] theorem writeLanes_dispatched (s : State) (m : LaneMask) (r : VReg) (f : Nat → Word) : (s.writeLanes m r f).dispatched = s.dispatched := by simp [writeLanes]
@[simp] theorem writeLanes_served (s : State) (m : LaneMask) (r : VReg) (f : Nat → Word) : (s.writeLanes m r f).served = s.served := by simp [writeLanes]
@[simp] theorem writeLanes_cores (s : State) (m : LaneMask) (r : VReg) (f : Nat → Word) : (s.writeLanes m r f).cores = s.cores := by simp [writeLanes]
@[simp] theorem writeLanes_clusters (s : State) (m : LaneMask) (r : VReg) (f : Nat → Word) : (s.writeLanes m r f).clusters = s.clusters := by simp [writeLanes]
@[simp] theorem writeLanes_dies (s : State) (m : LaneMask) (r : VReg) (f : Nat → Word) : (s.writeLanes m r f).dies = s.dies := by simp [writeLanes]
@[simp] theorem writeLanes_contexts (s : State) (m : LaneMask) (r : VReg) (f : Nat → Word) : (s.writeLanes m r f).contexts = s.contexts := by simp [writeLanes]
@[simp] theorem writeLanes_firm (s : State) (m : LaneMask) (r : VReg) (f : Nat → Word) : (s.writeLanes m r f).firm = s.firm := by simp [writeLanes]
@[simp] theorem writeLanes_mem (s : State) (m : LaneMask) (r : VReg) (f : Nat → Word) : (s.writeLanes m r f).mem = s.mem := by simp [writeLanes]
@[simp] theorem writeLanes_spad (s : State) (m : LaneMask) (r : VReg) (f : Nat → Word) : (s.writeLanes m r f).spad = s.spad := by simp [writeLanes]
@[simp] theorem writeLanes_acc (s : State) (m : LaneMask) (r : VReg) (f : Nat → Word) : (s.writeLanes m r f).acc = s.acc := by simp [writeLanes]
@[simp] theorem writeLanes_hw (s : State) (m : LaneMask) (r : VReg) (f : Nat → Word) : (s.writeLanes m r f).hw = s.hw := by simp [writeLanes]

/-! ### writeV -/

@[simp] theorem writeV_cur (s : State) (r : VReg) (f : Nat → Word) : (s.writeV r f).cur = s.cur := by simp [writeV]
@[simp] theorem writeV_schedule (s : State) (r : VReg) (f : Nat → Word) : (s.writeV r f).schedule = s.schedule := by simp [writeV]
@[simp] theorem writeV_now (s : State) (r : VReg) (f : Nat → Word) : (s.writeV r f).now = s.now := by simp [writeV]
@[simp] theorem writeV_tick (s : State) (r : VReg) (f : Nat → Word) : (s.writeV r f).tick = s.tick := by simp [writeV]
@[simp] theorem writeV_last (s : State) (r : VReg) (f : Nat → Word) : (s.writeV r f).last = s.last := by simp [writeV]
@[simp] theorem writeV_snap (s : State) (r : VReg) (f : Nat → Word) : (s.writeV r f).snap = s.snap := by simp [writeV]
@[simp] theorem writeV_nextId (s : State) (r : VReg) (f : Nat → Word) : (s.writeV r f).nextId = s.nextId := by simp [writeV]
@[simp] theorem writeV_blocks (s : State) (r : VReg) (f : Nat → Word) : (s.writeV r f).blocks = s.blocks := by simp [writeV]
@[simp] theorem writeV_launches (s : State) (r : VReg) (f : Nat → Word) : (s.writeV r f).launches = s.launches := by simp [writeV]
@[simp] theorem writeV_queues (s : State) (r : VReg) (f : Nat → Word) : (s.writeV r f).queues = s.queues := by simp [writeV]
@[simp] theorem writeV_dispatched (s : State) (r : VReg) (f : Nat → Word) : (s.writeV r f).dispatched = s.dispatched := by simp [writeV]
@[simp] theorem writeV_served (s : State) (r : VReg) (f : Nat → Word) : (s.writeV r f).served = s.served := by simp [writeV]
@[simp] theorem writeV_cores (s : State) (r : VReg) (f : Nat → Word) : (s.writeV r f).cores = s.cores := by simp [writeV]
@[simp] theorem writeV_clusters (s : State) (r : VReg) (f : Nat → Word) : (s.writeV r f).clusters = s.clusters := by simp [writeV]
@[simp] theorem writeV_dies (s : State) (r : VReg) (f : Nat → Word) : (s.writeV r f).dies = s.dies := by simp [writeV]
@[simp] theorem writeV_contexts (s : State) (r : VReg) (f : Nat → Word) : (s.writeV r f).contexts = s.contexts := by simp [writeV]
@[simp] theorem writeV_firm (s : State) (r : VReg) (f : Nat → Word) : (s.writeV r f).firm = s.firm := by simp [writeV]
@[simp] theorem writeV_mem (s : State) (r : VReg) (f : Nat → Word) : (s.writeV r f).mem = s.mem := by simp [writeV]
@[simp] theorem writeV_spad (s : State) (r : VReg) (f : Nat → Word) : (s.writeV r f).spad = s.spad := by simp [writeV]
@[simp] theorem writeV_acc (s : State) (r : VReg) (f : Nat → Word) : (s.writeV r f).acc = s.acc := by simp [writeV]
@[simp] theorem writeV_hw (s : State) (r : VReg) (f : Nat → Word) : (s.writeV r f).hw = s.hw := by simp [writeV]

/-! ### writePLanes -/

@[simp] theorem writePLanes_cur (s : State) (m : LaneMask) (p : PReg) (f : Nat → Bool) : (s.writePLanes m p f).cur = s.cur := by unfold writePLanes; split <;> simp
@[simp] theorem writePLanes_schedule (s : State) (m : LaneMask) (p : PReg) (f : Nat → Bool) : (s.writePLanes m p f).schedule = s.schedule := by unfold writePLanes; split <;> simp
@[simp] theorem writePLanes_now (s : State) (m : LaneMask) (p : PReg) (f : Nat → Bool) : (s.writePLanes m p f).now = s.now := by unfold writePLanes; split <;> simp
@[simp] theorem writePLanes_tick (s : State) (m : LaneMask) (p : PReg) (f : Nat → Bool) : (s.writePLanes m p f).tick = s.tick := by unfold writePLanes; split <;> simp
@[simp] theorem writePLanes_last (s : State) (m : LaneMask) (p : PReg) (f : Nat → Bool) : (s.writePLanes m p f).last = s.last := by unfold writePLanes; split <;> simp
@[simp] theorem writePLanes_snap (s : State) (m : LaneMask) (p : PReg) (f : Nat → Bool) : (s.writePLanes m p f).snap = s.snap := by unfold writePLanes; split <;> simp
@[simp] theorem writePLanes_nextId (s : State) (m : LaneMask) (p : PReg) (f : Nat → Bool) : (s.writePLanes m p f).nextId = s.nextId := by unfold writePLanes; split <;> simp
@[simp] theorem writePLanes_blocks (s : State) (m : LaneMask) (p : PReg) (f : Nat → Bool) : (s.writePLanes m p f).blocks = s.blocks := by unfold writePLanes; split <;> simp
@[simp] theorem writePLanes_launches (s : State) (m : LaneMask) (p : PReg) (f : Nat → Bool) : (s.writePLanes m p f).launches = s.launches := by unfold writePLanes; split <;> simp
@[simp] theorem writePLanes_queues (s : State) (m : LaneMask) (p : PReg) (f : Nat → Bool) : (s.writePLanes m p f).queues = s.queues := by unfold writePLanes; split <;> simp
@[simp] theorem writePLanes_dispatched (s : State) (m : LaneMask) (p : PReg) (f : Nat → Bool) : (s.writePLanes m p f).dispatched = s.dispatched := by unfold writePLanes; split <;> simp
@[simp] theorem writePLanes_served (s : State) (m : LaneMask) (p : PReg) (f : Nat → Bool) : (s.writePLanes m p f).served = s.served := by unfold writePLanes; split <;> simp
@[simp] theorem writePLanes_cores (s : State) (m : LaneMask) (p : PReg) (f : Nat → Bool) : (s.writePLanes m p f).cores = s.cores := by unfold writePLanes; split <;> simp
@[simp] theorem writePLanes_clusters (s : State) (m : LaneMask) (p : PReg) (f : Nat → Bool) : (s.writePLanes m p f).clusters = s.clusters := by unfold writePLanes; split <;> simp
@[simp] theorem writePLanes_dies (s : State) (m : LaneMask) (p : PReg) (f : Nat → Bool) : (s.writePLanes m p f).dies = s.dies := by unfold writePLanes; split <;> simp
@[simp] theorem writePLanes_contexts (s : State) (m : LaneMask) (p : PReg) (f : Nat → Bool) : (s.writePLanes m p f).contexts = s.contexts := by unfold writePLanes; split <;> simp
@[simp] theorem writePLanes_firm (s : State) (m : LaneMask) (p : PReg) (f : Nat → Bool) : (s.writePLanes m p f).firm = s.firm := by unfold writePLanes; split <;> simp
@[simp] theorem writePLanes_mem (s : State) (m : LaneMask) (p : PReg) (f : Nat → Bool) : (s.writePLanes m p f).mem = s.mem := by unfold writePLanes; split <;> simp
@[simp] theorem writePLanes_spad (s : State) (m : LaneMask) (p : PReg) (f : Nat → Bool) : (s.writePLanes m p f).spad = s.spad := by unfold writePLanes; split <;> simp
@[simp] theorem writePLanes_acc (s : State) (m : LaneMask) (p : PReg) (f : Nat → Bool) : (s.writePLanes m p f).acc = s.acc := by unfold writePLanes; split <;> simp
@[simp] theorem writePLanes_hw (s : State) (m : LaneMask) (p : PReg) (f : Nat → Bool) : (s.writePLanes m p f).hw = s.hw := by unfold writePLanes; split <;> simp

/-! ### writeP -/

@[simp] theorem writeP_cur (s : State) (p : PReg) (f : Nat → Bool) : (s.writeP p f).cur = s.cur := by simp [writeP]
@[simp] theorem writeP_schedule (s : State) (p : PReg) (f : Nat → Bool) : (s.writeP p f).schedule = s.schedule := by simp [writeP]
@[simp] theorem writeP_now (s : State) (p : PReg) (f : Nat → Bool) : (s.writeP p f).now = s.now := by simp [writeP]
@[simp] theorem writeP_tick (s : State) (p : PReg) (f : Nat → Bool) : (s.writeP p f).tick = s.tick := by simp [writeP]
@[simp] theorem writeP_last (s : State) (p : PReg) (f : Nat → Bool) : (s.writeP p f).last = s.last := by simp [writeP]
@[simp] theorem writeP_snap (s : State) (p : PReg) (f : Nat → Bool) : (s.writeP p f).snap = s.snap := by simp [writeP]
@[simp] theorem writeP_nextId (s : State) (p : PReg) (f : Nat → Bool) : (s.writeP p f).nextId = s.nextId := by simp [writeP]
@[simp] theorem writeP_blocks (s : State) (p : PReg) (f : Nat → Bool) : (s.writeP p f).blocks = s.blocks := by simp [writeP]
@[simp] theorem writeP_launches (s : State) (p : PReg) (f : Nat → Bool) : (s.writeP p f).launches = s.launches := by simp [writeP]
@[simp] theorem writeP_queues (s : State) (p : PReg) (f : Nat → Bool) : (s.writeP p f).queues = s.queues := by simp [writeP]
@[simp] theorem writeP_dispatched (s : State) (p : PReg) (f : Nat → Bool) : (s.writeP p f).dispatched = s.dispatched := by simp [writeP]
@[simp] theorem writeP_served (s : State) (p : PReg) (f : Nat → Bool) : (s.writeP p f).served = s.served := by simp [writeP]
@[simp] theorem writeP_cores (s : State) (p : PReg) (f : Nat → Bool) : (s.writeP p f).cores = s.cores := by simp [writeP]
@[simp] theorem writeP_clusters (s : State) (p : PReg) (f : Nat → Bool) : (s.writeP p f).clusters = s.clusters := by simp [writeP]
@[simp] theorem writeP_dies (s : State) (p : PReg) (f : Nat → Bool) : (s.writeP p f).dies = s.dies := by simp [writeP]
@[simp] theorem writeP_contexts (s : State) (p : PReg) (f : Nat → Bool) : (s.writeP p f).contexts = s.contexts := by simp [writeP]
@[simp] theorem writeP_firm (s : State) (p : PReg) (f : Nat → Bool) : (s.writeP p f).firm = s.firm := by simp [writeP]
@[simp] theorem writeP_mem (s : State) (p : PReg) (f : Nat → Bool) : (s.writeP p f).mem = s.mem := by simp [writeP]
@[simp] theorem writeP_spad (s : State) (p : PReg) (f : Nat → Bool) : (s.writeP p f).spad = s.spad := by simp [writeP]
@[simp] theorem writeP_acc (s : State) (p : PReg) (f : Nat → Bool) : (s.writeP p f).acc = s.acc := by simp [writeP]
@[simp] theorem writeP_hw (s : State) (p : PReg) (f : Nat → Bool) : (s.writeP p f).hw = s.hw := by simp [writeP]

/-! ### writePAll -/

@[simp] theorem writePAll_cur (s : State) (p : PReg) (b : Bool) : (s.writePAll p b).cur = s.cur := by simp [writePAll]
@[simp] theorem writePAll_schedule (s : State) (p : PReg) (b : Bool) : (s.writePAll p b).schedule = s.schedule := by simp [writePAll]
@[simp] theorem writePAll_now (s : State) (p : PReg) (b : Bool) : (s.writePAll p b).now = s.now := by simp [writePAll]
@[simp] theorem writePAll_tick (s : State) (p : PReg) (b : Bool) : (s.writePAll p b).tick = s.tick := by simp [writePAll]
@[simp] theorem writePAll_last (s : State) (p : PReg) (b : Bool) : (s.writePAll p b).last = s.last := by simp [writePAll]
@[simp] theorem writePAll_snap (s : State) (p : PReg) (b : Bool) : (s.writePAll p b).snap = s.snap := by simp [writePAll]
@[simp] theorem writePAll_nextId (s : State) (p : PReg) (b : Bool) : (s.writePAll p b).nextId = s.nextId := by simp [writePAll]
@[simp] theorem writePAll_blocks (s : State) (p : PReg) (b : Bool) : (s.writePAll p b).blocks = s.blocks := by simp [writePAll]
@[simp] theorem writePAll_launches (s : State) (p : PReg) (b : Bool) : (s.writePAll p b).launches = s.launches := by simp [writePAll]
@[simp] theorem writePAll_queues (s : State) (p : PReg) (b : Bool) : (s.writePAll p b).queues = s.queues := by simp [writePAll]
@[simp] theorem writePAll_dispatched (s : State) (p : PReg) (b : Bool) : (s.writePAll p b).dispatched = s.dispatched := by simp [writePAll]
@[simp] theorem writePAll_served (s : State) (p : PReg) (b : Bool) : (s.writePAll p b).served = s.served := by simp [writePAll]
@[simp] theorem writePAll_cores (s : State) (p : PReg) (b : Bool) : (s.writePAll p b).cores = s.cores := by simp [writePAll]
@[simp] theorem writePAll_clusters (s : State) (p : PReg) (b : Bool) : (s.writePAll p b).clusters = s.clusters := by simp [writePAll]
@[simp] theorem writePAll_dies (s : State) (p : PReg) (b : Bool) : (s.writePAll p b).dies = s.dies := by simp [writePAll]
@[simp] theorem writePAll_contexts (s : State) (p : PReg) (b : Bool) : (s.writePAll p b).contexts = s.contexts := by simp [writePAll]
@[simp] theorem writePAll_firm (s : State) (p : PReg) (b : Bool) : (s.writePAll p b).firm = s.firm := by simp [writePAll]
@[simp] theorem writePAll_mem (s : State) (p : PReg) (b : Bool) : (s.writePAll p b).mem = s.mem := by simp [writePAll]
@[simp] theorem writePAll_spad (s : State) (p : PReg) (b : Bool) : (s.writePAll p b).spad = s.spad := by simp [writePAll]
@[simp] theorem writePAll_acc (s : State) (p : PReg) (b : Bool) : (s.writePAll p b).acc = s.acc := by simp [writePAll]
@[simp] theorem writePAll_hw (s : State) (p : PReg) (b : Bool) : (s.writePAll p b).hw = s.hw := by simp [writePAll]

/-! ### raiseFlags -/

@[simp] theorem raiseFlags_cur (s : State) (f : BitVec 5) : (s.raiseFlags f).cur = s.cur := by unfold raiseFlags; dsimp only; split <;> rfl
@[simp] theorem raiseFlags_schedule (s : State) (f : BitVec 5) : (s.raiseFlags f).schedule = s.schedule := by unfold raiseFlags; dsimp only; split <;> rfl
@[simp] theorem raiseFlags_now (s : State) (f : BitVec 5) : (s.raiseFlags f).now = s.now := by unfold raiseFlags; dsimp only; split <;> rfl
@[simp] theorem raiseFlags_tick (s : State) (f : BitVec 5) : (s.raiseFlags f).tick = s.tick := by unfold raiseFlags; dsimp only; split <;> rfl
@[simp] theorem raiseFlags_last (s : State) (f : BitVec 5) : (s.raiseFlags f).last = s.last := by unfold raiseFlags; dsimp only; split <;> rfl
@[simp] theorem raiseFlags_nextId (s : State) (f : BitVec 5) : (s.raiseFlags f).nextId = s.nextId := by unfold raiseFlags; dsimp only; split <;> rfl
@[simp] theorem raiseFlags_blocks (s : State) (f : BitVec 5) : (s.raiseFlags f).blocks = s.blocks := by unfold raiseFlags; dsimp only; split <;> rfl
@[simp] theorem raiseFlags_launches (s : State) (f : BitVec 5) : (s.raiseFlags f).launches = s.launches := by unfold raiseFlags; dsimp only; split <;> rfl
@[simp] theorem raiseFlags_queues (s : State) (f : BitVec 5) : (s.raiseFlags f).queues = s.queues := by unfold raiseFlags; dsimp only; split <;> rfl
@[simp] theorem raiseFlags_dispatched (s : State) (f : BitVec 5) : (s.raiseFlags f).dispatched = s.dispatched := by unfold raiseFlags; dsimp only; split <;> rfl
@[simp] theorem raiseFlags_served (s : State) (f : BitVec 5) : (s.raiseFlags f).served = s.served := by unfold raiseFlags; dsimp only; split <;> rfl
@[simp] theorem raiseFlags_cores (s : State) (f : BitVec 5) : (s.raiseFlags f).cores = s.cores := by unfold raiseFlags; dsimp only; split <;> rfl
@[simp] theorem raiseFlags_clusters (s : State) (f : BitVec 5) : (s.raiseFlags f).clusters = s.clusters := by unfold raiseFlags; dsimp only; split <;> rfl
@[simp] theorem raiseFlags_dies (s : State) (f : BitVec 5) : (s.raiseFlags f).dies = s.dies := by unfold raiseFlags; dsimp only; split <;> rfl
@[simp] theorem raiseFlags_contexts (s : State) (f : BitVec 5) : (s.raiseFlags f).contexts = s.contexts := by unfold raiseFlags; dsimp only; split <;> rfl
@[simp] theorem raiseFlags_firm (s : State) (f : BitVec 5) : (s.raiseFlags f).firm = s.firm := by unfold raiseFlags; dsimp only; split <;> rfl
@[simp] theorem raiseFlags_mem (s : State) (f : BitVec 5) : (s.raiseFlags f).mem = s.mem := by unfold raiseFlags; dsimp only; split <;> rfl
@[simp] theorem raiseFlags_spad (s : State) (f : BitVec 5) : (s.raiseFlags f).spad = s.spad := by unfold raiseFlags; dsimp only; split <;> rfl
@[simp] theorem raiseFlags_acc (s : State) (f : BitVec 5) : (s.raiseFlags f).acc = s.acc := by unfold raiseFlags; dsimp only; split <;> rfl
@[simp] theorem raiseFlags_hw (s : State) (f : BitVec 5) : (s.raiseFlags f).hw = s.hw := by unfold raiseFlags; dsimp only; split <;> rfl

/-! ### done -/

@[simp] theorem done_cur (s : State)  : s.done.cur = s.cur := by unfold done; dsimp only; split <;> rfl
@[simp] theorem done_schedule (s : State)  : s.done.schedule = s.schedule := by unfold done; dsimp only; split <;> rfl
@[simp] theorem done_now (s : State)  : s.done.now = s.now := by unfold done; dsimp only; split <;> rfl
@[simp] theorem done_nextId (s : State)  : s.done.nextId = s.nextId := by unfold done; dsimp only; split <;> rfl
@[simp] theorem done_blocks (s : State)  : s.done.blocks = s.blocks := by unfold done; dsimp only; split <;> rfl
@[simp] theorem done_launches (s : State)  : s.done.launches = s.launches := by unfold done; dsimp only; split <;> rfl
@[simp] theorem done_queues (s : State)  : s.done.queues = s.queues := by unfold done; dsimp only; split <;> rfl
@[simp] theorem done_dispatched (s : State)  : s.done.dispatched = s.dispatched := by unfold done; dsimp only; split <;> rfl
@[simp] theorem done_served (s : State)  : s.done.served = s.served := by unfold done; dsimp only; split <;> rfl
@[simp] theorem done_cores (s : State)  : s.done.cores = s.cores := by unfold done; dsimp only; split <;> rfl
@[simp] theorem done_clusters (s : State)  : s.done.clusters = s.clusters := by unfold done; dsimp only; split <;> rfl
@[simp] theorem done_dies (s : State)  : s.done.dies = s.dies := by unfold done; dsimp only; split <;> rfl
@[simp] theorem done_contexts (s : State)  : s.done.contexts = s.contexts := by unfold done; dsimp only; split <;> rfl
@[simp] theorem done_firm (s : State)  : s.done.firm = s.firm := by unfold done; dsimp only; split <;> rfl
@[simp] theorem done_mem (s : State)  : s.done.mem = s.mem := by unfold done; dsimp only; split <;> rfl
@[simp] theorem done_spad (s : State)  : s.done.spad = s.spad := by unfold done; dsimp only; split <;> rfl
@[simp] theorem done_acc (s : State)  : s.done.acc = s.acc := by unfold done; dsimp only; split <;> rfl
@[simp] theorem done_hw (s : State)  : s.done.hw = s.hw := by unfold done; dsimp only; split <;> rfl

/-! ## Busy registers -/

theorem spoilV_gsys (s : State) (r : Nat) (m : LaneMask) :
    (s.spoilV r m).gsys = { s.gsys with
      ld := if s.gsys.busyV r &&& m = 0 then s.gsys.ld else s.gsys.ld.map (Pending.spoilV r m)
      tm := if s.gsys.busyV r &&& m = 0 then s.gsys.tm else s.gsys.tm.map (Pending.spoilV r m) } := by
  unfold spoilV; split <;> simp

theorem spoilS_gsys (s : State) (r : Nat) :
    (s.spoilS r).gsys = { s.gsys with
      ld := if s.gsys.busyS r then s.gsys.ld.map (Pending.spoilS r) else s.gsys.ld } := by
  unfold spoilS; split <;> simp

theorem spoilP_gsys (s : State) (r : Nat) (m : LaneMask) :
    (s.spoilP r m).gsys = { s.gsys with
      ld := if s.gsys.busyP r &&& m = 0 then s.gsys.ld else s.gsys.ld.map (Pending.spoilP r m)
      tm := if s.gsys.busyP r &&& m = 0 then s.gsys.tm else s.gsys.tm.map (Pending.spoilP r m) } := by
  unfold spoilP; split <;> simp

@[simp] theorem act_spoilS (r : Nat) (p : Pending) : (Pending.spoilS r p).act = p.act := by
  unfold Pending.spoilS; split <;> rfl
@[simp] theorem mask_spoilS (r : Nat) (p : Pending) : (Pending.spoilS r p).mask = p.mask := by
  unfold Pending.spoilS; split <;> rfl

/-- What a list of loads has still to bring depends on their destinations and masks alone. -/
theorem vlanes_map (f : Pending → Pending) (ha : ∀ p, (f p).act = p.act) (hm : ∀ p, (f p).mask = p.mask) (l : List Pending)
    (q : Nat) (z : LaneMask) :
    (l.map f).foldl (fun m p => m ||| p.vlanes q) z = l.foldl (fun m p => m ||| p.vlanes q) z := by
  simp [List.foldl_map, Pending.vlanes, ha, hm]
theorem planes_map (f : Pending → Pending) (ha : ∀ p, (f p).act = p.act) (hm : ∀ p, (f p).mask = p.mask) (l : List Pending)
    (q : Nat) (z : LaneMask) :
    (l.map f).foldl (fun m p => m ||| p.planes q) z = l.foldl (fun m p => m ||| p.planes q) z := by
  simp [List.foldl_map, Pending.planes, ha, hm]
theorem any_sdests (f : Pending → Pending) (hf : ∀ p, (f p).act = p.act) (l : List Pending) (q : Nat) :
    ((l.map f).any fun p => p.act.sdests.contains q) = l.any fun p => p.act.sdests.contains q := by
  simp [List.any_map, Function.comp_def, hf]

@[simp] theorem spoilS_busyS (s : State) (r q : Nat) : (s.spoilS r).gsys.busyS q = s.gsys.busyS q := by
  rw [spoilS_gsys]; simp only [GroupSys.busyS, GroupSys.loads, List.any_append]
  split <;> simp only [any_sdests (Pending.spoilS r) (act_spoilS r)]
@[simp] theorem spoilS_busyV (s : State) (r q : Nat) : (s.spoilS r).gsys.busyV q = s.gsys.busyV q := by
  rw [spoilS_gsys]; simp only [GroupSys.busyV, GroupSys.loads, List.foldl_append]
  split <;> simp only [vlanes_map (Pending.spoilS r) (act_spoilS r) (mask_spoilS r)]
@[simp] theorem spoilS_busyP (s : State) (r q : Nat) : (s.spoilS r).gsys.busyP q = s.gsys.busyP q := by
  rw [spoilS_gsys]; simp only [GroupSys.busyP, GroupSys.loads, List.foldl_append]
  split <;> simp only [planes_map (Pending.spoilS r) (act_spoilS r) (mask_spoilS r)]
@[simp] theorem spoilV_busyS (s : State) (r q : Nat) (m : LaneMask) : (s.spoilV r m).gsys.busyS q = s.gsys.busyS q := by
  rw [spoilV_gsys]; simp only [GroupSys.busyS, GroupSys.loads, List.any_append]
  split <;> simp only [any_sdests (Pending.spoilV r m) (fun _ => rfl)]
@[simp] theorem spoilV_busyV (s : State) (r q : Nat) (m : LaneMask) : (s.spoilV r m).gsys.busyV q = s.gsys.busyV q := by
  rw [spoilV_gsys]; simp only [GroupSys.busyV, GroupSys.loads, List.foldl_append]
  split <;> simp only [vlanes_map (Pending.spoilV r m) (fun _ => rfl) (fun _ => rfl)]
@[simp] theorem spoilV_busyP (s : State) (r q : Nat) (m : LaneMask) : (s.spoilV r m).gsys.busyP q = s.gsys.busyP q := by
  rw [spoilV_gsys]; simp only [GroupSys.busyP, GroupSys.loads, List.foldl_append]
  split <;> simp only [planes_map (Pending.spoilV r m) (fun _ => rfl) (fun _ => rfl)]
@[simp] theorem spoilP_busyS (s : State) (r q : Nat) (m : LaneMask) : (s.spoilP r m).gsys.busyS q = s.gsys.busyS q := by
  rw [spoilP_gsys]; simp only [GroupSys.busyS, GroupSys.loads, List.any_append]
  split <;> simp only [any_sdests (Pending.spoilP r m) (fun _ => rfl)]
@[simp] theorem spoilP_busyV (s : State) (r q : Nat) (m : LaneMask) : (s.spoilP r m).gsys.busyV q = s.gsys.busyV q := by
  rw [spoilP_gsys]; simp only [GroupSys.busyV, GroupSys.loads, List.foldl_append]
  split <;> simp only [vlanes_map (Pending.spoilP r m) (fun _ => rfl) (fun _ => rfl)]
@[simp] theorem spoilP_busyP (s : State) (r q : Nat) (m : LaneMask) : (s.spoilP r m).gsys.busyP q = s.gsys.busyP q := by
  rw [spoilP_gsys]; simp only [GroupSys.busyP, GroupSys.loads, List.foldl_append]
  split <;> simp only [planes_map (Pending.spoilP r m) (fun _ => rfl) (fun _ => rfl)]

/-! ## The group after a write -/

theorem writeS_group (s : State) {r : SReg} (w : Word) (h : r.toNat < 61) :
    (s.writeS r w).group = { s.group with s := s.group.s.set r.toNat w } := by simp [writeS, h]

theorem writeS_gsys (s : State) {r : SReg} (w : Word) (h : r.toNat < 61) : (s.writeS r w).gsys = (s.spoilS r.toNat).gsys := by
  simp [writeS, h]

theorem writeS_mask (s : State) {r : SReg} (w : Word) (h : 61 ≤ r.toNat) :
    s.writeS r w = s.setMask (maskWord s.split.mask (r.toNat - 61) w) := by simp [writeS, Nat.not_lt.mpr h]

theorem writeLanes_group (s : State) (m : LaneMask) (r : VReg) (f : Nat → Word) :
    (s.writeLanes m r f).group = { s.group with
      v := s.group.v.set r.toNat
        (LaneWords.ofFn fun l => if m.getLsbD l then f l else (vectorOf s.group r.toNat).lane l) } := by simp [writeLanes]

@[simp] theorem writeLanes_gsys (s : State) (m : LaneMask) (r : VReg) (f : Nat → Word) :
    (s.writeLanes m r f).gsys = (s.spoilV r.toNat m).gsys := by simp [writeLanes]

@[simp] theorem writePLanes_seven (s : State) (m : LaneMask) (f : Nat → Bool) : s.writePLanes m 7 f = s := by
  simp [writePLanes]

theorem writePLanes_group (s : State) (m : LaneMask) {p : PReg} (f : Nat → Bool) (h : p ≠ 7) :
    (s.writePLanes m p f).group = { s.group with
      p := s.group.p.set p.toNat
        (LaneMask.ofFn fun l => if m.getLsbD l then f l else (s.group.p.get p.toNat 0).getLsbD l) } := by
  unfold writePLanes; rw [if_neg h]; simp

theorem writePLanes_gsys (s : State) (m : LaneMask) {p : PReg} (f : Nat → Bool) (h : p ≠ 7) :
    (s.writePLanes m p f).gsys = (s.spoilP p.toNat m).gsys := by
  unfold writePLanes; rw [if_neg h]; simp

theorem setMask_group (s : State) (m : LaneMask) :
    (s.setMask m).group = { s.group with splits := s.group.splits.mapVal fun n x =>
      if n = s.cur.split then { x with mask := m &&& (s.group.dormant ||| x.mask) } else x } := by simp [setMask]

@[simp] theorem setMask_gsys (s : State) (m : LaneMask) : (s.setMask m).gsys = s.gsys := rfl

theorem raiseFlags_group (s : State) (f : BitVec 5) :
    (s.raiseFlags f).group = { s.group with fps := s.group.fps ||| f } := by
  unfold raiseFlags
  cases h : s.snap with
  | none => simp [h]
  | some k => simp only [setGroup_snap, h]; exact setGroup_group s _

@[simp] theorem raiseFlags_gsys (s : State) (f : BitVec 5) : (s.raiseFlags f).gsys = s.gsys := by
  unfold raiseFlags
  cases h : s.snap with
  | none => simp [h]
  | some k => simp only [setGroup_snap, h]; rfl

end Machine.State

end Sys2Proof
end

