-- ==== Sys2Proof/Laws/Access.lean ====
section
/-!
SUPPORT. What a word's checks come to (R218), and what the entry of a counted access does (R83, R85).
-/

set_option Elab.async false

namespace Sys2Proof.Machine

/-! ## A word's checks (R218) -/

/-- The first lane of a list that fails decides. -/
theorem wordCheck_fails {f : Nat → LaneCheck} {l : Nat} {cls : FaultClass} {a : DWord} (hf : f l = .fails cls a) :
    ∀ {pre post : List Nat}, (∀ m ∈ pre, ∀ c b, f m ≠ .fails c b) →
      wordCheck ((pre ++ l :: post).map fun m => (m, f m)) = .fails cls a l := by
  intro pre
  induction pre with
  | nil => intro post _; simp [wordCheck, hf]
  | cons m pre ih =>
      intro post h
      have h1 := ih (post := post) fun m hm => h m (List.mem_cons_of_mem _ hm)
      simp only [List.cons_append, List.map_cons, wordCheck, h1]
      cases hm : f m with
      | fails c b => exact absurd hm (h m List.mem_cons_self c b)
      | absent ps => rfl
      | busy => rfl
      | passes => rfl

/-- Without a lane that fails, the missing pages of the lanes, in order. -/
theorem wordCheck_absent {f : Nat → LaneCheck} : ∀ {L : List Nat}, (∀ m ∈ L, f m ≠ .busy) → (∀ m ∈ L, ∀ c b, f m ≠ .fails c b) →
    wordCheck (L.map fun m => (m, f m)) =
      if ∀ m ∈ L, f m = .passes then .passes
      else .absent (L.map fun m => match f m with
        | .absent ps => ps
        | _ => []).flatten := by
  intro L
  induction L with
  | nil => intro _ _; simp [wordCheck]
  | cons m L ih =>
      intro hb h
      have h1 := ih (fun m hm => hb m (List.mem_cons_of_mem _ hm)) fun m hm => h m (List.mem_cons_of_mem _ hm)
      simp only [List.map_cons, wordCheck, h1]
      cases hm : f m with
      | fails c b => exact absurd hm (h m List.mem_cons_self c b)
      | busy => exact absurd hm (hb m List.mem_cons_self)
      | absent ps =>
          have : ¬ ∀ k ∈ m :: L, f k = .passes := fun hk => by
            have := hk m List.mem_cons_self
            rw [hm] at this; cases this
          rw [if_neg this]
          by_cases hall : ∀ k ∈ L, f k = .passes
          · rw [if_pos hall]
            have h2 : (L.map fun m => match f m with
                | .absent ps => ps
                | _ => []).flatten = [] := by
              simp only [List.flatten_eq_nil_iff, List.mem_map]
              rintro _ ⟨k, hk, rfl⟩
              rw [hall k hk]
            simp [h2]
          · rw [if_neg hall]
            simp
      | passes =>
          by_cases hall : ∀ k ∈ L, f k = .passes
          · have h2 : ∀ k ∈ m :: L, f k = .passes := by
              intro k hk
              rcases List.mem_cons.mp hk with rfl | hk
              · exact hm
              · exact hall k hk
            rw [if_pos hall, if_pos h2]
          · have h2 : ¬ ∀ k ∈ m :: L, f k = .passes := fun h => hall fun k hk => h k (List.mem_cons_of_mem _ hk)
            rw [if_neg hall, if_neg h2]
            simp

namespace State

/-- A lane that a walk holds up stalls the word (R382). -/
theorem laneWord_busy {s : State} {kind : BitVec 5} {go : Nat → LaneGo} {effect : State → State} {l : Nat}
    (hl : l ∈ LaneMask.list s.active) (hb : (go l).check = .busy) : s.laneWord kind go effect = s.stalled := by
  have : ((LaneMask.list s.active).any fun l => (go l).check == .busy) = true :=
    List.any_eq_true.mpr ⟨l, hl, by simp [hb]⟩
  rw [laneWord, if_pos this]

/-- Where no walk holds up a lane, the checks decide. -/
theorem laneWord_free {s : State} {kind : BitVec 5} {go : Nat → LaneGo} {effect : State → State}
    (h : ∀ l, l ∈ LaneMask.list s.active → (go l).check ≠ .busy) :
    s.laneWord kind go effect = match wordCheck ((LaneMask.list s.active).map fun l => (l, (go l).check)) with
      | .fails cls addr l => s.fault cls addr (some l)
      | .absent pages => s.suspend pages kind
      | .passes => effect s := by
  have : ((LaneMask.list s.active).any fun l => (go l).check == .busy) = false :=
    List.any_eq_false.mpr fun l hl => by simp [h l hl]
  rw [laneWord, this]
  rfl

/-- The lowest active lane that fails decides what becomes of the word (R218). -/
theorem laneWord_fails {s : State} {kind : BitVec 5} {go : Nat → LaneGo} {effect : State → State} {l : Nat} {cls : FaultClass}
    {a : DWord} (hb : ∀ m, m ∈ LaneMask.list s.active → (go m).check ≠ .busy) (hl : l ∈ LaneMask.list s.active) (hf : (go l).check = .fails cls a)
    (hlow : ∀ m, m ∈ LaneMask.list s.active → m < l → ∀ c b, (go m).check ≠ .fails c b) :
    s.laneWord kind go effect = s.fault cls a (some l) := by
  obtain ⟨pre, post, hp⟩ := List.append_of_mem hl
  have hsort : (LaneMask.list s.active).Pairwise (· < ·) :=
    List.pairwise_lt_range.filter _
  rw [hp, List.pairwise_append] at hsort
  have hpre : ∀ m ∈ pre, m < l := fun m hm => hsort.2.2 m hm l List.mem_cons_self
  have : wordCheck ((LaneMask.list s.active).map fun l => (l, (go l).check)) = .fails cls a l := by
    show wordCheck ((LaneMask.list s.active).map fun l => (l, (go l).check)) = _
    rw [hp]
    exact wordCheck_fails (f := fun m => (go m).check) hf fun m hm =>
      hlow m (by rw [hp]; exact List.mem_append_left _ hm) (hpre m hm)
  rw [laneWord_free hb, this]

/-- Without a lane that fails, missing pages suspend the word, and with none missing it has its effect (R218). -/
theorem laneWord_of_no_fault {s : State} {kind : BitVec 5} {go : Nat → LaneGo} {effect : State → State}
    (hb : ∀ l, l ∈ LaneMask.list s.active → (go l).check ≠ .busy) (h : ∀ l, l ∈ LaneMask.list s.active → ∀ c b, (go l).check ≠ .fails c b) :
    s.laneWord kind go effect =
      if ∀ l ∈ LaneMask.list s.active, (go l).check = .passes then effect s
      else s.suspend (((LaneMask.list s.active).map fun l => match (go l).check with
        | .absent pages => pages
        | _ => []).flatten) kind := by
  have : wordCheck ((LaneMask.list s.active).map fun l => (l, (go l).check)) = _ :=
    wordCheck_absent (f := fun m => (go m).check) hb h
  rw [laneWord_free hb, this]
  by_cases hall : ∀ l ∈ LaneMask.list s.active, (go l).check = .passes
  · rw [if_pos hall, if_pos hall]
  · rw [if_neg hall, if_neg hall]

/-! ## The entry of an operation (R83, R85) -/

/-- The operation that `post` enters. -/
def enteredOp (s : State) (act : OpAct) (accs : List Access) (release : Bool) : Pending :=
  { id := s.nextId, act, accesses := accs, after := mustPrecede s.gsys act.writes release, behind := touching s.gsys accs,
    results := [], failed := [], spoiled := [], spoiledPreds := [], mask := s.active, issued := s.now, finished := false }

theorem post_gsys (s : State) (c : Counter) (act : OpAct) (accs : List Access) (acq rel : Bool) :
    (s.post c act accs acq rel).gsys =
      { s.gsys.setList c (s.gsys.list c ++ [s.enteredOp act accs rel]) with
        acqAfter := (s.post c act accs acq rel).gsys.acqAfter, relAfter := (s.post c act accs acq rel).gsys.relAfter } := by
  have key : ∀ (b : Bool) (x : State) (blk : Block), (if b = true then x.setBlock blk else x).gsys = x.gsys := by
    intro b x blk
    cases b <;> rfl
  unfold post
  simp only [key]
  cases c <;> simp [setSys, gsys, gkey, sysAt, setSysAt, bumpId, GroupSys.setList, GroupSys.list, enteredOp, freshId]

@[simp] theorem post_groups (s : State) (c : Counter) (act : OpAct) (accs : List Access) (acq rel : Bool) :
    (s.post c act accs acq rel).groups = s.groups := by
  have key : ∀ (b : Bool) (x : State) (blk : Block), (if b = true then x.setBlock blk else x).groups = x.groups := by
    intro b x blk
    cases b <;> rfl
  unfold post
  simp only [key]
  rfl

@[simp] theorem post_mem (s : State) (c : Counter) (act : OpAct) (accs : List Access) (acq rel : Bool) :
    (s.post c act accs acq rel).mem = s.mem := by
  have key : ∀ (b : Bool) (x : State) (blk : Block), (if b = true then x.setBlock blk else x).mem = x.mem := by
    intro b x blk
    cases b <;> rfl
  unfold post
  simp only [key]
  rfl

@[simp] theorem post_spad (s : State) (c : Counter) (act : OpAct) (accs : List Access) (acq rel : Bool) :
    (s.post c act accs acq rel).spad = s.spad := by
  have key : ∀ (b : Bool) (x : State) (blk : Block), (if b = true then x.setBlock blk else x).spad = x.spad := by
    intro b x blk
    cases b <;> rfl
  unfold post
  simp only [key]
  rfl

@[simp] theorem post_acc (s : State) (c : Counter) (act : OpAct) (accs : List Access) (acq rel : Bool) :
    (s.post c act accs acq rel).acc = s.acc := by
  have key : ∀ (b : Bool) (x : State) (blk : Block), (if b = true then x.setBlock blk else x).acc = x.acc := by
    intro b x blk
    cases b <;> rfl
  unfold post
  simp only [key]
  rfl

@[simp] theorem post_cur (s : State) (c : Counter) (act : OpAct) (accs : List Access) (acq rel : Bool) :
    (s.post c act accs acq rel).cur = s.cur := by
  have key : ∀ (b : Bool) (x : State) (blk : Block), (if b = true then x.setBlock blk else x).cur = x.cur := by
    intro b x blk
    cases b <;> rfl
  unfold post
  simp only [key]
  rfl

@[simp] theorem post_snap (s : State) (c : Counter) (act : OpAct) (accs : List Access) (acq rel : Bool) :
    (s.post c act accs acq rel).snap = s.snap := by
  have key : ∀ (b : Bool) (x : State) (blk : Block), (if b = true then x.setBlock blk else x).snap = x.snap := by
    intro b x blk
    cases b <;> rfl
  unfold post
  simp only [key]
  rfl

@[simp] theorem post_now (s : State) (c : Counter) (act : OpAct) (accs : List Access) (acq rel : Bool) :
    (s.post c act accs acq rel).now = s.now := by
  have key : ∀ (b : Bool) (x : State) (blk : Block), (if b = true then x.setBlock blk else x).now = x.now := by
    intro b x blk
    cases b <;> rfl
  unfold post
  simp only [key]
  rfl

@[simp] theorem post_tick (s : State) (c : Counter) (act : OpAct) (accs : List Access) (acq rel : Bool) :
    (s.post c act accs acq rel).tick = s.tick := by
  have key : ∀ (b : Bool) (x : State) (blk : Block), (if b = true then x.setBlock blk else x).tick = x.tick := by
    intro b x blk
    cases b <;> rfl
  unfold post
  simp only [key]
  rfl

@[simp] theorem post_last (s : State) (c : Counter) (act : OpAct) (accs : List Access) (acq rel : Bool) :
    (s.post c act accs acq rel).last = s.last := by
  have key : ∀ (b : Bool) (x : State) (blk : Block), (if b = true then x.setBlock blk else x).last = x.last := by
    intro b x blk
    cases b <;> rfl
  unfold post
  simp only [key]
  rfl

end State

end Sys2Proof.Machine
end

