-- ==== Sys2Proof/Laws/Dispatch.lean ====
section
/-!
SUPPORT. One equation for each constructor: what `exec` calls.
-/

set_option Elab.async false

namespace Sys2Proof.Machine

theorem exec_nop (s) : exec (.nop) s = execNop s := rfl
theorem exec_add (d a b s) : exec (.add d a b) s = execAdd d a b s := rfl
theorem exec_sub (d a b s) : exec (.sub d a b) s = execSub d a b s := rfl
theorem exec_and (d a b s) : exec (.and d a b) s = execAnd d a b s := rfl
theorem exec_or (d a b s) : exec (.or d a b) s = execOr d a b s := rfl
theorem exec_xor (d a b s) : exec (.xor d a b) s = execXor d a b s := rfl
theorem exec_shl (d a b s) : exec (.shl d a b) s = execShl d a b s := rfl
theorem exec_shrN (d a b s) : exec (.shrN d a b) s = execShrN d a b s := rfl
theorem exec_shrI (d a b s) : exec (.shrI d a b) s = execShrI d a b s := rfl
theorem exec_minI (d a b s) : exec (.minI d a b) s = execMinI d a b s := rfl
theorem exec_maxI (d a b s) : exec (.maxI d a b) s = execMaxI d a b s := rfl
theorem exec_minN (d a b s) : exec (.minN d a b) s = execMinN d a b s := rfl
theorem exec_maxN (d a b s) : exec (.maxN d a b) s = execMaxN d a b s := rfl
theorem exec_mul (d a b s) : exec (.mul d a b) s = execMul d a b s := rfl
theorem exec_mulhI (d a b s) : exec (.mulhI d a b) s = execMulhI d a b s := rfl
theorem exec_mulhN (d a b s) : exec (.mulhN d a b) s = execMulhN d a b s := rfl
theorem exec_cmpEq (d a b s) : exec (.cmpEq d a b) s = execCmpEq d a b s := rfl
theorem exec_cmpNe (d a b s) : exec (.cmpNe d a b) s = execCmpNe d a b s := rfl
theorem exec_cmpLtI (d a b s) : exec (.cmpLtI d a b) s = execCmpLtI d a b s := rfl
theorem exec_cmpLtN (d a b s) : exec (.cmpLtN d a b) s = execCmpLtN d a b s := rfl
theorem exec_add64 (d a b s) : exec (.add64 d a b) s = execAdd64 d a b s := rfl
theorem exec_sub64 (d a b s) : exec (.sub64 d a b) s = execSub64 d a b s := rfl
theorem exec_shl64 (d a b s) : exec (.shl64 d a b) s = execShl64 d a b s := rfl
theorem exec_shr64N (d a b s) : exec (.shr64N d a b) s = execShr64N d a b s := rfl
theorem exec_movi (d imm s) : exec (.movi d imm) s = execMovi d imm s := rfl
theorem exec_movh (d imm s) : exec (.movh d imm) s = execMovh d imm s := rfl
theorem exec_addi (d imm s) : exec (.addi d imm) s = execAddi d imm s := rfl
theorem exec_andi (d imm s) : exec (.andi d imm) s = execAndi d imm s := rfl
theorem exec_ori (d imm s) : exec (.ori d imm) s = execOri d imm s := rfl
theorem exec_xori (d imm s) : exec (.xori d imm) s = execXori d imm s := rfl
theorem exec_cmpiEq (d imm s) : exec (.cmpiEq d imm) s = execCmpiEq d imm s := rfl
theorem exec_cmpiLtI (d imm s) : exec (.cmpiLtI d imm) s = execCmpiLtI d imm s := rfl
theorem exec_sld32 (d base imm s) : exec (.sld32 d base imm) s = execSld32 d base imm s := rfl
theorem exec_sld64 (d base imm s) : exec (.sld64 d base imm) s = execSld64 d base imm s := rfl
theorem exec_sldK (d base imm s) : exec (.sldK d base imm) s = execSldK d base imm s := rfl
theorem exec_sst (src base imm s) : exec (.sst src base imm) s = execSst src base imm s := rfl
theorem exec_srd (d special s) : exec (.srd d special) s = execSrd d special s := rfl
theorem exec_swr (a special s) : exec (.swr a special) s = execSwr a special s := rfl
theorem exec_bra (off s) : exec (.bra off) s = execBra off s := rfl
theorem exec_bz (sr off s) : exec (.bz sr off) s = execBz sr off s := rfl
theorem exec_bnz (sr off s) : exec (.bnz sr off) s = execBnz sr off s := rfl
theorem exec_bany (p off s) : exec (.bany p off) s = execBany p off s := rfl
theorem exec_ball (p off s) : exec (.ball p off) s = execBall p off s := rfl
theorem exec_bnone (p off s) : exec (.bnone p off) s = execBnone p off s := rfl
theorem exec_bdiv (p off s) : exec (.bdiv p off) s = execBdiv p off s := rfl
theorem exec_call (target s) : exec (.call target) s = execCall target s := rfl
theorem exec_ret (s) : exec (.ret) s = execRet s := rfl
theorem exec_jmpr (a s) : exec (.jmpr a) s = execJmpr a s := rfl
theorem exec_mfromp (d s) : exec (.mfromp d) s = execMfromp d s := rfl
theorem exec_mtop (a s) : exec (.mtop a) s = execMtop a s := rfl
theorem exec_wait (ld st cp tm s) : exec (.wait ld st cp tm) s = execWait ld st cp tm s := rfl
theorem exec_yield (s) : exec (.yield) s = execYield s := rfl
theorem exec_exit (s) : exec (.exit) s = execExit s := rfl
theorem exec_trap (n s) : exec (.trap n) s = execTrap n s := rfl
theorem exec_brk (s) : exec (.brk) s = execBrk s := rfl
theorem exec_attach (s) : exec (.attach) s = execAttach s := rfl
theorem exec_detach (d s) : exec (.detach d) s = execDetach d s := rfl
theorem exec_regroup (d partner first more s) : exec (.regroup d partner first more) s = execRegroup d partner first more s := rfl
theorem exec_launch (d base queue s) : exec (.launch d base queue) s = execLaunch d base queue s := rfl
theorem exec_hops (d a b s) : exec (.hops d a b) s = execHops d a b s := rfl
theorem exec_barArrive (bar d s) : exec (.barArrive bar d) s = execBarArrive bar d s := rfl
theorem exec_barWait (bar a s) : exec (.barWait bar a) s = execBarWait bar a s := rfl
theorem exec_barSync (bar s) : exec (.barSync bar) s = execBarSync bar s := rfl
theorem exec_barTry (bar a d s) : exec (.barTry bar a d) s = execBarTry bar a d s := rfl
theorem exec_vaddI32 (d a b s) : exec (.vaddI32 d a b) s = execVaddI32 d a b s := rfl
theorem exec_vsubI32 (d a b s) : exec (.vsubI32 d a b) s = execVsubI32 d a b s := rfl
theorem exec_vmulI32 (d a b s) : exec (.vmulI32 d a b) s = execVmulI32 d a b s := rfl
theorem exec_vmulhI32 (d a b s) : exec (.vmulhI32 d a b) s = execVmulhI32 d a b s := rfl
theorem exec_vmulhN32 (d a b s) : exec (.vmulhN32 d a b) s = execVmulhN32 d a b s := rfl
theorem exec_vminI32 (d a b s) : exec (.vminI32 d a b) s = execVminI32 d a b s := rfl
theorem exec_vmaxI32 (d a b s) : exec (.vmaxI32 d a b) s = execVmaxI32 d a b s := rfl
theorem exec_vminN32 (d a b s) : exec (.vminN32 d a b) s = execVminN32 d a b s := rfl
theorem exec_vmaxN32 (d a b s) : exec (.vmaxN32 d a b) s = execVmaxN32 d a b s := rfl
theorem exec_vandB32 (d a b s) : exec (.vandB32 d a b) s = execVandB32 d a b s := rfl
theorem exec_vorB32 (d a b s) : exec (.vorB32 d a b) s = execVorB32 d a b s := rfl
theorem exec_vxorB32 (d a b s) : exec (.vxorB32 d a b) s = execVxorB32 d a b s := rfl
theorem exec_vshlB32 (d a b s) : exec (.vshlB32 d a b) s = execVshlB32 d a b s := rfl
theorem exec_vshrN32 (d a b s) : exec (.vshrN32 d a b) s = execVshrN32 d a b s := rfl
theorem exec_vshrI32 (d a b s) : exec (.vshrI32 d a b) s = execVshrI32 d a b s := rfl
theorem exec_vabsdI32 (d a b s) : exec (.vabsdI32 d a b) s = execVabsdI32 d a b s := rfl
theorem exec_vaddsI32 (d a b s) : exec (.vaddsI32 d a b) s = execVaddsI32 d a b s := rfl
theorem exec_vsubsI32 (d a b s) : exec (.vsubsI32 d a b) s = execVsubsI32 d a b s := rfl
theorem exec_vaddsN32 (d a b s) : exec (.vaddsN32 d a b) s = execVaddsN32 d a b s := rfl
theorem exec_vsubsN32 (d a b s) : exec (.vsubsN32 d a b) s = execVsubsN32 d a b s := rfl
theorem exec_vbfeN32 (d a b s) : exec (.vbfeN32 d a b) s = execVbfeN32 d a b s := rfl
theorem exec_vbfeI32 (d a b s) : exec (.vbfeI32 d a b) s = execVbfeI32 d a b s := rfl
theorem exec_vbfiB32 (d a b s) : exec (.vbfiB32 d a b) s = execVbfiB32 d a b s := rfl
theorem exec_vpopcB32 (d a s) : exec (.vpopcB32 d a) s = execVpopcB32 d a s := rfl
theorem exec_vclzB32 (d a s) : exec (.vclzB32 d a) s = execVclzB32 d a s := rfl
theorem exec_vbrevB32 (d a s) : exec (.vbrevB32 d a) s = execVbrevB32 d a s := rfl
theorem exec_vaddI64 (d a b s) : exec (.vaddI64 d a b) s = execVaddI64 d a b s := rfl
theorem exec_vsubI64 (d a b s) : exec (.vsubI64 d a b) s = execVsubI64 d a b s := rfl
theorem exec_vshlB64 (d a b s) : exec (.vshlB64 d a b) s = execVshlB64 d a b s := rfl
theorem exec_vshrN64 (d a b s) : exec (.vshrN64 d a b) s = execVshrN64 d a b s := rfl
theorem exec_vshrI64 (d a b s) : exec (.vshrI64 d a b) s = execVshrI64 d a b s := rfl
theorem exec_vaddI32Vi (d a imm s) : exec (.vaddI32Vi d a imm) s = execVaddI32Vi d a imm s := rfl
theorem exec_vandB32Vi (d a imm s) : exec (.vandB32Vi d a imm) s = execVandB32Vi d a imm s := rfl
theorem exec_vshlB32Vi (d a imm s) : exec (.vshlB32Vi d a imm) s = execVshlB32Vi d a imm s := rfl
theorem exec_vshrN32Vi (d a imm s) : exec (.vshrN32Vi d a imm) s = execVshrN32Vi d a imm s := rfl
theorem exec_vaddI32Vs (d a sr s) : exec (.vaddI32Vs d a sr) s = execVaddI32Vs d a sr s := rfl
theorem exec_vsubI32Vs (d a sr s) : exec (.vsubI32Vs d a sr) s = execVsubI32Vs d a sr s := rfl
theorem exec_vmulI32Vs (d a sr s) : exec (.vmulI32Vs d a sr) s = execVmulI32Vs d a sr s := rfl
theorem exec_vmulhI32Vs (d a sr s) : exec (.vmulhI32Vs d a sr) s = execVmulhI32Vs d a sr s := rfl
theorem exec_vmulhN32Vs (d a sr s) : exec (.vmulhN32Vs d a sr) s = execVmulhN32Vs d a sr s := rfl
theorem exec_vminI32Vs (d a sr s) : exec (.vminI32Vs d a sr) s = execVminI32Vs d a sr s := rfl
theorem exec_vmaxI32Vs (d a sr s) : exec (.vmaxI32Vs d a sr) s = execVmaxI32Vs d a sr s := rfl
theorem exec_vminN32Vs (d a sr s) : exec (.vminN32Vs d a sr) s = execVminN32Vs d a sr s := rfl
theorem exec_vmaxN32Vs (d a sr s) : exec (.vmaxN32Vs d a sr) s = execVmaxN32Vs d a sr s := rfl
theorem exec_vandB32Vs (d a sr s) : exec (.vandB32Vs d a sr) s = execVandB32Vs d a sr s := rfl
theorem exec_vorB32Vs (d a sr s) : exec (.vorB32Vs d a sr) s = execVorB32Vs d a sr s := rfl
theorem exec_vxorB32Vs (d a sr s) : exec (.vxorB32Vs d a sr) s = execVxorB32Vs d a sr s := rfl
theorem exec_vshlB32Vs (d a sr s) : exec (.vshlB32Vs d a sr) s = execVshlB32Vs d a sr s := rfl
theorem exec_vshrN32Vs (d a sr s) : exec (.vshrN32Vs d a sr) s = execVshrN32Vs d a sr s := rfl
theorem exec_vshrI32Vs (d a sr s) : exec (.vshrI32Vs d a sr) s = execVshrI32Vs d a sr s := rfl
theorem exec_vabsdI32Vs (d a sr s) : exec (.vabsdI32Vs d a sr) s = execVabsdI32Vs d a sr s := rfl
theorem exec_vaddsI32Vs (d a sr s) : exec (.vaddsI32Vs d a sr) s = execVaddsI32Vs d a sr s := rfl
theorem exec_vsubsI32Vs (d a sr s) : exec (.vsubsI32Vs d a sr) s = execVsubsI32Vs d a sr s := rfl
theorem exec_vaddsN32Vs (d a sr s) : exec (.vaddsN32Vs d a sr) s = execVaddsN32Vs d a sr s := rfl
theorem exec_vsubsN32Vs (d a sr s) : exec (.vsubsN32Vs d a sr) s = execVsubsN32Vs d a sr s := rfl
theorem exec_vbfeN32Vs (d a sr s) : exec (.vbfeN32Vs d a sr) s = execVbfeN32Vs d a sr s := rfl
theorem exec_vbfeI32Vs (d a sr s) : exec (.vbfeI32Vs d a sr) s = execVbfeI32Vs d a sr s := rfl
theorem exec_vbfiB32Vs (d a sr s) : exec (.vbfiB32Vs d a sr) s = execVbfiB32Vs d a sr s := rfl
theorem exec_vaddI64Vs (d a sr s) : exec (.vaddI64Vs d a sr) s = execVaddI64Vs d a sr s := rfl
theorem exec_vsubI64Vs (d a sr s) : exec (.vsubI64Vs d a sr) s = execVsubI64Vs d a sr s := rfl
theorem exec_vshlB64Vs (d a sr s) : exec (.vshlB64Vs d a sr) s = execVshlB64Vs d a sr s := rfl
theorem exec_vshrN64Vs (d a sr s) : exec (.vshrN64Vs d a sr) s = execVshrN64Vs d a sr s := rfl
theorem exec_vshrI64Vs (d a sr s) : exec (.vshrI64Vs d a sr) s = execVshrI64Vs d a sr s := rfl
theorem exec_vbcastB32 (d sr s) : exec (.vbcastB32 d sr) s = execVbcastB32 d sr s := rfl
theorem exec_vcmp (d a b cc ty s) : exec (.vcmp d a b cc ty) s = execVcmp d a b cc ty s := rfl
theorem exec_pand (d a b s) : exec (.pand d a b) s = execPand d a b s := rfl
theorem exec_por (d a b s) : exec (.por d a b) s = execPor d a b s := rfl
theorem exec_pxor (d a b s) : exec (.pxor d a b) s = execPxor d a b s := rfl
theorem exec_pnot (d a s) : exec (.pnot d a) s = execPnot d a s := rfl
theorem exec_pmov (d a s) : exec (.pmov d a) s = execPmov d a s := rfl
theorem exec_vfromp (d a s) : exec (.vfromp d a) s = execVfromp d a s := rfl
theorem exec_vtop (d a s) : exec (.vtop d a) s = execVtop d a s := rfl
theorem exec_shflIdx (d a p w s) : exec (.shflIdx d a p w) s = execShflIdx d a p w s := rfl
theorem exec_shflUp (d a p w s) : exec (.shflUp d a p w) s = execShflUp d a p w s := rfl
theorem exec_shflDown (d a p w s) : exec (.shflDown d a p w) s = execShflDown d a p w s := rfl
theorem exec_shflXor (d a p w s) : exec (.shflXor d a p w) s = execShflXor d a p w s := rfl
theorem exec_voteAny (d a s) : exec (.voteAny d a) s = execVoteAny d a s := rfl
theorem exec_voteAll (d a s) : exec (.voteAll d a) s = execVoteAll d a s := rfl
theorem exec_ballot (d a s) : exec (.ballot d a) s = execBallot d a s := rfl
theorem exec_vscanIncl (d a op w s) : exec (.vscanIncl d a op w) s = execVscanIncl d a op w s := rfl
theorem exec_vscanExcl (d a op w s) : exec (.vscanExcl d a op w) s = execVscanExcl d a op w s := rfl
theorem exec_vred (d a op s) : exec (.vred d a op) s = execVred d a op s := rfl
theorem exec_vfaddF32 (d a b s) : exec (.vfaddF32 d a b) s = execVfaddF32 d a b s := rfl
theorem exec_vfsubF32 (d a b s) : exec (.vfsubF32 d a b) s = execVfsubF32 d a b s := rfl
theorem exec_vfmulF32 (d a b s) : exec (.vfmulF32 d a b) s = execVfmulF32 d a b s := rfl
theorem exec_vffmaF32 (d a b s) : exec (.vffmaF32 d a b) s = execVffmaF32 d a b s := rfl
theorem exec_vffnmaF32 (d a b s) : exec (.vffnmaF32 d a b) s = execVffnmaF32 d a b s := rfl
theorem exec_vfminF32 (d a b s) : exec (.vfminF32 d a b) s = execVfminF32 d a b s := rfl
theorem exec_vfmaxF32 (d a b s) : exec (.vfmaxF32 d a b) s = execVfmaxF32 d a b s := rfl
theorem exec_vfabsF32 (d a s) : exec (.vfabsF32 d a) s = execVfabsF32 d a s := rfl
theorem exec_vfnegF32 (d a s) : exec (.vfnegF32 d a) s = execVfnegF32 d a s := rfl
theorem exec_vfcopysignF32 (d a b s) : exec (.vfcopysignF32 d a b) s = execVfcopysignF32 d a b s := rfl
theorem exec_vfrintF32 (d a s) : exec (.vfrintF32 d a) s = execVfrintF32 d a s := rfl
theorem exec_vfaddF64 (d a b s) : exec (.vfaddF64 d a b) s = execVfaddF64 d a b s := rfl
theorem exec_vfsubF64 (d a b s) : exec (.vfsubF64 d a b) s = execVfsubF64 d a b s := rfl
theorem exec_vfmulF64 (d a b s) : exec (.vfmulF64 d a b) s = execVfmulF64 d a b s := rfl
theorem exec_vffmaF64 (d a b s) : exec (.vffmaF64 d a b) s = execVffmaF64 d a b s := rfl
theorem exec_vffnmaF64 (d a b s) : exec (.vffnmaF64 d a b) s = execVffnmaF64 d a b s := rfl
theorem exec_vfminF64 (d a b s) : exec (.vfminF64 d a b) s = execVfminF64 d a b s := rfl
theorem exec_vfmaxF64 (d a b s) : exec (.vfmaxF64 d a b) s = execVfmaxF64 d a b s := rfl
theorem exec_vfabsF64 (d a s) : exec (.vfabsF64 d a) s = execVfabsF64 d a s := rfl
theorem exec_vfnegF64 (d a s) : exec (.vfnegF64 d a) s = execVfnegF64 d a s := rfl
theorem exec_vfcopysignF64 (d a b s) : exec (.vfcopysignF64 d a b) s = execVfcopysignF64 d a b s := rfl
theorem exec_vfrintF64 (d a s) : exec (.vfrintF64 d a) s = execVfrintF64 d a s := rfl
theorem exec_vfdivF32 (d a b s) : exec (.vfdivF32 d a b) s = execVfdivF32 d a b s := rfl
theorem exec_vfsqrtF32 (d a s) : exec (.vfsqrtF32 d a) s = execVfsqrtF32 d a s := rfl
theorem exec_vfrcpF32 (d a s) : exec (.vfrcpF32 d a) s = execVfrcpF32 d a s := rfl
theorem exec_vfrsqF32 (d a s) : exec (.vfrsqF32 d a) s = execVfrsqF32 d a s := rfl
theorem exec_vfexp2F32 (d a s) : exec (.vfexp2F32 d a) s = execVfexp2F32 d a s := rfl
theorem exec_vflog2F32 (d a s) : exec (.vflog2F32 d a) s = execVflog2F32 d a s := rfl
theorem exec_vfsinF32 (d a s) : exec (.vfsinF32 d a) s = execVfsinF32 d a s := rfl
theorem exec_vfcosF32 (d a s) : exec (.vfcosF32 d a) s = execVfcosF32 d a s := rfl
theorem exec_vftanhF32 (d a s) : exec (.vftanhF32 d a) s = execVftanhF32 d a s := rfl
theorem exec_vfdivF64 (d a b s) : exec (.vfdivF64 d a b) s = execVfdivF64 d a b s := rfl
theorem exec_vfsqrtF64 (d a s) : exec (.vfsqrtF64 d a) s = execVfsqrtF64 d a s := rfl
theorem exec_vfrcpF64 (d a s) : exec (.vfrcpF64 d a) s = execVfrcpF64 d a s := rfl
theorem exec_vfrsqF64 (d a s) : exec (.vfrsqF64 d a) s = execVfrsqF64 d a s := rfl
theorem exec_vfaddBf16 (d a b s) : exec (.vfaddBf16 d a b) s = execVfaddBf16 d a b s := rfl
theorem exec_vfsubBf16 (d a b s) : exec (.vfsubBf16 d a b) s = execVfsubBf16 d a b s := rfl
theorem exec_vfmulBf16 (d a b s) : exec (.vfmulBf16 d a b) s = execVfmulBf16 d a b s := rfl
theorem exec_vffmaBf16 (d a b s) : exec (.vffmaBf16 d a b) s = execVffmaBf16 d a b s := rfl
theorem exec_vffnmaBf16 (d a b s) : exec (.vffnmaBf16 d a b) s = execVffnmaBf16 d a b s := rfl
theorem exec_vfminBf16 (d a b s) : exec (.vfminBf16 d a b) s = execVfminBf16 d a b s := rfl
theorem exec_vfmaxBf16 (d a b s) : exec (.vfmaxBf16 d a b) s = execVfmaxBf16 d a b s := rfl
theorem exec_vfabsBf16 (d a s) : exec (.vfabsBf16 d a) s = execVfabsBf16 d a s := rfl
theorem exec_vfnegBf16 (d a s) : exec (.vfnegBf16 d a) s = execVfnegBf16 d a s := rfl
theorem exec_vfcmp (d a b cc ty s) : exec (.vfcmp d a b cc ty) s = execVfcmp d a b cc ty s := rfl
theorem exec_cvts (d a dst src rnd s) : exec (.cvts d a dst src rnd) s = execCvts d a dst src rnd s := rfl
theorem exec_cvti (d a dst src rnd s) : exec (.cvti d a dst src rnd) s = execCvti d a dst src rnd s := rfl
theorem exec_pack4 (d a s) : exec (.pack4 d a) s = execPack4 d a s := rfl
theorem exec_unpack4 (d a sx s) : exec (.unpack4 d a sx) s = execUnpack4 d a sx s := rfl
theorem exec_pack6 (d a s) : exec (.pack6 d a) s = execPack6 d a s := rfl
theorem exec_unpack6 (d a sx s) : exec (.unpack6 d a sx) s = execUnpack6 d a sx s := rfl
theorem exec_pack8 (d a s) : exec (.pack8 d a) s = execPack8 d a s := rfl
theorem exec_unpack8 (d a sx s) : exec (.unpack8 d a sx) s = execUnpack8 d a sx s := rfl
theorem exec_bscale (d a fmt s) : exec (.bscale d a fmt) s = execBscale d a fmt s := rfl
theorem exec_scapplyMul (d a b s) : exec (.scapplyMul d a b) s = execScapplyMul d a b s := rfl
theorem exec_scapplyDiv (d a b s) : exec (.scapplyDiv d a b) s = execScapplyDiv d a b s := rfl
theorem exec_compress (d a fmt s) : exec (.compress d a fmt) s = execCompress d a fmt s := rfl
theorem exec_tidsetImm (imm s) : exec (.tidsetImm imm) s = execTidsetImm imm s := rfl
theorem exec_tidsetReg (a s) : exec (.tidsetReg a) s = execTidsetReg a s := rfl
theorem exec_ldg (x o base w form s) : exec (.ldg x o base w form) s = execLdg x o base w form s := rfl
theorem exec_stg (x o base w form s) : exec (.stg x o base w form) s = execStg x o base w form s := rfl
theorem exec_lds (x o base w form s) : exec (.lds x o base w form) s = execLds x o base w form s := rfl
theorem exec_sts (x o base w form s) : exec (.sts x o base w form) s = execSts x o base w form s := rfl
theorem exec_ldc (x o base w form s) : exec (.ldc x o base w form) s = execLdc x o base w form s := rfl
theorem exec_stc (x o base w form s) : exec (.stc x o base w form) s = execStc x o base w form s := rfl
theorem exec_lda (x o base wide scope s) : exec (.lda x o base wide scope) s = execLda x o base wide scope s := rfl
theorem exec_stl (x o base wide scope s) : exec (.stl x o base wide scope) s = execStl x o base wide scope s := rfl
theorem exec_atom (x o base fn s) : exec (.atom x o base fn) s = execAtom x o base fn s := rfl
theorem exec_atoma (x o base fn s) : exec (.atoma x o base fn) s = execAtoma x o base fn s := rfl
theorem exec_atoms (x o base fn s) : exec (.atoms x o base fn) s = execAtoms x o base fn s := rfl
theorem exec_red (x o base fn s) : exec (.red x o base fn) s = execRed x o base fn s := rfl
theorem exec_tagl (d a p s) : exec (.tagl d a p) s = execTagl d a p s := rfl
theorem exec_tags (slot key s) : exec (.tags slot key) s = execTags slot key s := rfl
theorem exec_tagi (slot s) : exec (.tagi slot) s = execTagi slot s := rfl
theorem exec_fence (sem scope s) : exec (.fence sem scope) s = execFence sem scope s := rfl
theorem exec_ifence (s) : exec (.ifence) s = execIfence s := rfl
theorem exec_publish (base s) : exec (.publish base) s = execPublish base s := rfl
theorem exec_flushh (base len s) : exec (.flushh base len) s = execFlushh base len s := rfl
theorem exec_ljoin (x o base rel ty s) : exec (.ljoin x o base rel ty) s = execLjoin x o base rel ty s := rfl
theorem exec_lld (x o base w s) : exec (.lld x o base w) s = execLld x o base w s := rfl
theorem exec_lldAcq (x o base w s) : exec (.lldAcq x o base w) s = execLldAcq x o base w s := rfl
theorem exec_lldge (x o base w s) : exec (.lldge x o base w) s = execLldge x o base w s := rfl
theorem exec_ltry (x o base p s) : exec (.ltry x o base p) s = execLtry x o base p s := rfl
theorem exec_lsta (x o base ty s) : exec (.lsta x o base ty) s = execLsta x o base ty s := rfl
theorem exec_linc (o base s) : exec (.linc o base) s = execLinc o base s := rfl
theorem exec_lsync (base s) : exec (.lsync base) s = execLsync base s := rfl
theorem exec_tcopy (block id bm ch s) : exec (.tcopy block id bm ch) s = execTcopy block id bm ch s := rfl
theorem exec_copy (block dir bm setBits ch s) : exec (.copy block dir bm setBits ch) s = execCopy block dir bm setBits ch s := rfl
theorem exec_persist (s) : exec (.persist) s = execPersist s := rfl
theorem exec_tryw (bm mask p k s) : exec (.tryw bm mask p k) s = execTryw bm mask p k s := rfl
theorem exec_bmtest (bm mask p s) : exec (.bmtest bm mask p) s = execBmtest bm mask p s := rfl
theorem exec_bmclr (bm mask s) : exec (.bmclr bm mask) s = execBmclr bm mask s := rfl
theorem exec_rpush (ch a s) : exec (.rpush ch a) s = execRpush ch a s := rfl
theorem exec_rpop (d ch pop s) : exec (.rpop d ch pop) s = execRpop d ch pop s := rfl
theorem exec_rfree (d ch count s) : exec (.rfree d ch count) s = execRfree d ch count s := rfl
theorem exec_rstat (d ch s) : exec (.rstat d ch) s = execRstat d ch s := rfl
theorem exec_mma (r afmt bfmt s) : exec (.mma r afmt bfmt) s = execMma r afmt bfmt s := rfl
theorem exec_mmas (r afmt bfmt s) : exec (.mmas r afmt bfmt) s = execMmas r afmt bfmt s := rfl
theorem exec_accalloc (p d count s) : exec (.accalloc p d count) s = execAccalloc p d count s := rfl
theorem exec_accfree (first count s) : exec (.accfree first count) s = execAccfree first count s := rfl
theorem exec_accz (first count s) : exec (.accz first count) s = execAccz first count s := rfl
theorem exec_accrdSat (d o fmt rnd s) : exec (.accrdSat d o fmt rnd) s = execAccrdSat d o fmt rnd s := rfl
theorem exec_accrdInf (d o fmt rnd s) : exec (.accrdInf d o fmt rnd) s = execAccrdInf d o fmt rnd s := rfl
theorem exec_accwr (x o form s) : exec (.accwr x o form) s = execAccwr x o form s := rfl
theorem exec_wpin (p a fmt sparse s) : exec (.wpin p a fmt sparse) s = execWpin p a fmt sparse s := rfl
theorem exec_wunpin (a fmt sparse s) : exec (.wunpin a fmt sparse) s = execWunpin a fmt sparse s := rfl
theorem exec_opfence (s) : exec (.opfence) s = execOpfence s := rfl
theorem exec_rft (s) : exec (.rft) s = execRft s := rfl
theorem exec_rftKill (s) : exec (.rftKill) s = execRftKill s := rfl
theorem exec_segld (seg r s) : exec (.segld seg r) s = execSegld seg r s := rfl
theorem exec_segrd (seg r s) : exec (.segrd seg r) s = execSegrd seg r s := rfl
theorem exec_csrr (d csr s) : exec (.csrr d csr) s = execCsrr d csr s := rfl
theorem exec_csrw (a csr s) : exec (.csrw a csr) s = execCsrw a csr s := rfl
theorem exec_tvecWrite (context value s) : exec (.tvecWrite context value) s = execTvecWrite context value s := rfl
theorem exec_epcWrite (core slot value s) : exec (.epcWrite core slot value) s = execEpcWrite core slot value s := rfl
theorem exec_reductionWindowWrite (core context window word value s) : exec (.reductionWindowWrite core context window word value) s = execReductionWindowWrite core context window word value s := rfl
theorem exec_debugGoRelease (core slot s) : exec (.debugGoRelease core slot) s = execDebugGoRelease core slot s := rfl
theorem exec_debugGoStep (core slot split s) : exec (.debugGoStep core slot split) s = execDebugGoStep core slot split s := rfl
theorem exec_tlbinv (base count s) : exec (.tlbinv base count) s = execTlbinv base count s := rfl
theorem exec_tlbinvAll (s) : exec (.tlbinvAll) s = execTlbinvAll s := rfl
theorem exec_idle (k s) : exec (.idle k) s = execIdle k s := rfl
theorem exec_packetFetch (core slot place s) : exec (.packetFetch core slot place) s = execPacketFetch core slot place s := rfl
theorem exec_splitStarvation (core slot split s) : exec (.splitStarvation core slot split) s = execSplitStarvation core slot split s := rfl
theorem exec_backwardBranchYield (core slot split s) : exec (.backwardBranchYield core slot split) s = execBackwardBranchYield core slot split s := rfl
theorem exec_loadCompletion (core slot id lanes replies s) : exec (.loadCompletion core slot id lanes replies) s = execLoadCompletion core slot id lanes replies s := rfl
theorem exec_storeCompletion (core slot id lanes replies s) : exec (.storeCompletion core slot id lanes replies) s = execStoreCompletion core slot id lanes replies s := rfl
theorem exec_tmCompletion (core slot id array s) : exec (.tmCompletion core slot id array) s = execTmCompletion core slot id array s := rfl
theorem exec_recoverableFaultDelivery (core slot split s) : exec (.recoverableFaultDelivery core slot split) s = execRecoverableFaultDelivery core slot split s := rfl
theorem exec_groupSlotRelease (core slot s) : exec (.groupSlotRelease core slot) s = execGroupSlotRelease core slot s := rfl
theorem exec_launchHeaderCheck (partition queue s) : exec (.launchHeaderCheck partition queue) s = execLaunchHeaderCheck partition queue s := rfl
theorem exec_dependenceRead (partition queue reply s) : exec (.dependenceRead partition queue reply) s = execDependenceRead partition queue reply s := rfl
theorem exec_dependenceRecheckTimer (partition queue reply s) : exec (.dependenceRecheckTimer partition queue reply) s = execDependenceRecheckTimer partition queue reply s := rfl
theorem exec_blockResidency (partition queue core slot0 stack s) : exec (.blockResidency partition queue core slot0 stack) s = execBlockResidency partition queue core slot0 stack s := rfl
theorem exec_blockEnd (block s) : exec (.blockEnd block) s = execBlockEnd block s := rfl
theorem exec_stageGrowth (block stage s) : exec (.stageGrowth block stage) s = execStageGrowth block stage s := rfl
theorem exec_stageShrink (block stage s) : exec (.stageShrink block stage) s = execStageShrink block stage s := rfl
theorem exec_shrinkPop (core slot split s) : exec (.shrinkPop core slot split) s = execShrinkPop core slot split s := rfl
theorem exec_eventBacklogDrain (context s) : exec (.eventBacklogDrain context) s = execEventBacklogDrain context s := rfl
theorem exec_faultQueueHeldPost (die s) : exec (.faultQueueHeldPost die) s = execFaultQueueHeldPost die s := rfl
theorem exec_faultServiceEntry (core die seq choice micros s) : exec (.faultServiceEntry core die seq choice micros) s = execFaultServiceEntry core die seq choice micros s := rfl
theorem exec_reductionLineDelivery (context window line elements s) : exec (.reductionLineDelivery context window line elements) s = execReductionLineDelivery context window line elements s := rfl
theorem exec_lapBegin (context region die s) : exec (.lapBegin context region die) s = execLapBegin context region die s := rfl
theorem exec_latticeExchange (context region a b s) : exec (.latticeExchange context region a b) s = execLatticeExchange context region a b s := rfl
theorem exec_fabricSnapshotArrival (context region device vdie runs s) : exec (.fabricSnapshotArrival context region device vdie runs) s = execFabricSnapshotArrival context region device vdie runs s := rfl
theorem exec_ltryExpiry (core slot id s) : exec (.ltryExpiry core slot id) s = execLtryExpiry core slot id s := rfl
theorem exec_copyTransferStart (core s) : exec (.copyTransferStart core) s = execCopyTransferStart core s := rfl
theorem exec_copyChunkDone (core id chunk part s) : exec (.copyChunkDone core id chunk part) s = execCopyChunkDone core id chunk part s := rfl
theorem exec_copyCompletion (core id s) : exec (.copyCompletion core id) s = execCopyCompletion core id s := rfl
theorem exec_copyPushGrant (core id s) : exec (.copyPushGrant core id) s = execCopyPushGrant core id s := rfl
theorem exec_persistDurable (core slot id s) : exec (.persistDurable core slot id) s = execPersistDurable core slot id s := rfl
theorem exec_trywExpiry (core slot split s) : exec (.trywExpiry core slot split) s = execTrywExpiry core slot split s := rfl
theorem exec_matrixPassGrant (cluster array s) : exec (.matrixPassGrant cluster array) s = execMatrixPassGrant cluster array s := rfl
theorem exec_matrixOperationComplete (cluster entry s) : exec (.matrixOperationComplete cluster entry) s = execMatrixOperationComplete cluster entry s := rfl
theorem exec_preemptionRequest (block bound method s) : exec (.preemptionRequest block bound method) s = execPreemptionRequest block bound method s := rfl
theorem exec_drainToSave (block s) : exec (.drainToSave block) s = execDrainToSave block s := rfl
theorem exec_blockRestore (context seq core slot0 intact s) : exec (.blockRestore context seq core slot0 intact) s = execBlockRestore context seq core slot0 intact s := rfl
theorem exec_hotSpareTakeover (core s) : exec (.hotSpareTakeover core) s = execHotSpareTakeover core s := rfl
theorem exec_hotSpareResume (core s) : exec (.hotSpareResume core) s = execHotSpareResume core s := rfl
theorem exec_stepEnd (core slot s) : exec (.stepEnd core slot) s = execStepEnd core slot s := rfl
theorem exec_idleExpiry (core slot split s) : exec (.idleExpiry core slot split) s = execIdleExpiry core slot split s := rfl
theorem exec_tlbMiss (core context page out s) : exec (.tlbMiss core context page out) s = execTlbMiss core context page out s := rfl
theorem exec_tlbFill (die context page out dieOut s) : exec (.tlbFill die context page out dieOut) s = execTlbFill die context page out dieOut s := rfl
theorem exec_frameRecordChange (frame record agree s) : exec (.frameRecordChange frame record agree) s = execFrameRecordChange frame record agree s := rfl
theorem exec_partitionTableWrite (partition entry agree s) : exec (.partitionTableWrite partition entry agree) s = execPartitionTableWrite partition entry agree s := rfl
theorem exec_rosterTableWrite (context devices agree s) : exec (.rosterTableWrite context devices agree) s = execRosterTableWrite context devices agree s := rfl
theorem exec_pacerEntryWrite (core tenant value s) : exec (.pacerEntryWrite core tenant value) s = execPacerEntryWrite core tenant value s := rfl
theorem exec_regionDescriptorWrite (context region value s) : exec (.regionDescriptorWrite context region value) s = execRegionDescriptorWrite context region value s := rfl
theorem exec_codeImageMeasure (context frames len s) : exec (.codeImageMeasure context frames len) s = execCodeImageMeasure context frames len s := rfl
theorem exec_attestationRequest (context nonce s) : exec (.attestationRequest context nonce) s = execAttestationRequest context nonce s := rfl
theorem exec_serviceCoreTakeover (core s) : exec (.serviceCoreTakeover core) s = execServiceCoreTakeover core s := rfl
theorem exec_pacerWindow (core s) : exec (.pacerWindow core) s = execPacerWindow core s := rfl
theorem exec_pacerBudgetExhausted (core tenant s) : exec (.pacerBudgetExhausted core tenant) s = execPacerBudgetExhausted core tenant s := rfl
theorem exec_checkpointTimer (context s) : exec (.checkpointTimer context) s = execCheckpointTimer context s := rfl
theorem exec_checkpointCommit (context mapOff imgOff s) : exec (.checkpointCommit context mapOff imgOff) s = execCheckpointCommit context mapOff imgOff s := rfl
theorem exec_hostCallReplay (core space ring micros die seq s) : exec (.hostCallReplay core space ring micros die seq) s = execHostCallReplay core space ring micros die seq s := rfl
theorem exec_hostCallReject (core space ring micros die seq s) : exec (.hostCallReject core space ring micros die seq) s = execHostCallReject core space ring micros die seq s := rfl
theorem exec_hostCallKill (core space ring micros context cls sub s) : exec (.hostCallKill core space ring micros context cls sub) s = execHostCallKill core space ring micros context cls sub s := rfl
theorem exec_hostCallMove (core space ring micros context page dest s) : exec (.hostCallMove core space ring micros context page dest) s = execHostCallMove core space ring micros context page dest s := rfl
theorem exec_hostCallCompressionHint (core space ring micros page s) : exec (.hostCallCompressionHint core space ring micros page) s = execHostCallCompressionHint core space ring micros page s := rfl
theorem exec_hostCallCheckpoint (core space ring micros context s) : exec (.hostCallCheckpoint core space ring micros context) s = execHostCallCheckpoint core space ring micros context s := rfl
theorem exec_hostCallPreempt (core space ring micros block bound method s) : exec (.hostCallPreempt core space ring micros block bound method) s = execHostCallPreempt core space ring micros block bound method s := rfl
theorem exec_hostRead (space addr s) : exec (.hostRead space addr) s = execHostRead space addr s := rfl
theorem exec_hostWrite (space addr bytes choice s) : exec (.hostWrite space addr bytes choice) s = execHostWrite space addr bytes choice s := rfl
theorem exec_commandSlotAccept (space s) : exec (.commandSlotAccept space) s = execCommandSlotAccept space s := rfl
theorem exec_afterRelease (space s) : exec (.afterRelease space) s = execAfterRelease space s := rfl
theorem exec_launchCommand (space s) : exec (.launchCommand space) s = execLaunchCommand space s := rfl
theorem exec_hostCopy (space seq lines choice s) : exec (.hostCopy space seq lines choice) s = execHostCopy space seq lines choice s := rfl
theorem exec_hostCopyComplete (space seq s) : exec (.hostCopyComplete space seq) s = execHostCopyComplete space seq s := rfl
theorem exec_mapProposal (space s) : exec (.mapProposal space) s = execMapProposal space s := rfl
theorem exec_waitValue (space s) : exec (.waitValue space) s = execWaitValue space s := rfl
theorem exec_waitValueSatisfied (space seq reply s) : exec (.waitValueSatisfied space seq reply) s = execWaitValueSatisfied space seq reply s := rfl
theorem exec_waitValueTimeout (space seq s) : exec (.waitValueTimeout space seq) s = execWaitValueTimeout space seq s := rfl
theorem exec_publishRequest (space seq s) : exec (.publishRequest space seq) s = execPublishRequest space seq s := rfl
theorem exec_contextCreate (space context dies s) : exec (.contextCreate space context dies) s = execContextCreate space context dies s := rfl
theorem exec_contextDestroy (space s) : exec (.contextDestroy space) s = execContextDestroy space s := rfl
theorem exec_contextPreempt (space s) : exec (.contextPreempt space) s = execContextPreempt space s := rfl
theorem exec_contextResume (space s) : exec (.contextResume space) s = execContextResume space s := rfl
theorem exec_setCheckpointInterval (space s) : exec (.setCheckpointInterval space) s = execSetCheckpointInterval space s := rfl
theorem exec_setFrameAllowance (space s) : exec (.setFrameAllowance space) s = execSetFrameAllowance space s := rfl
theorem exec_registerReservation (space s) : exec (.registerReservation space) s = execRegisterReservation space s := rfl
theorem exec_registerCallRing (space s) : exec (.registerCallRing space) s = execRegisterCallRing space s := rfl
theorem exec_debugClaim (space s) : exec (.debugClaim space) s = execDebugClaim space s := rfl
theorem exec_debugRelease (space s) : exec (.debugRelease space) s = execDebugRelease space s := rfl
theorem exec_debugRead (space s) : exec (.debugRead space) s = execDebugRead space s := rfl
theorem exec_debugWrite (space s) : exec (.debugWrite space) s = execDebugWrite space s := rfl
theorem exec_checkpointNow (space s) : exec (.checkpointNow space) s = execCheckpointNow space s := rfl
theorem exec_persistentRegionCreate (space full s) : exec (.persistentRegionCreate space full) s = execPersistentRegionCreate space full s := rfl
theorem exec_persistentRegionAttach (space s) : exec (.persistentRegionAttach space) s = execPersistentRegionAttach space s := rfl
theorem exec_persistentRegionDetach (space s) : exec (.persistentRegionDetach space) s = execPersistentRegionDetach space s := rfl
theorem exec_persistentRegionDestroy (space s) : exec (.persistentRegionDestroy space) s = execPersistentRegionDestroy space s := rfl
theorem exec_frontEndResume (space s) : exec (.frontEndResume space) s = execFrontEndResume space s := rfl
theorem exec_evackWrite (space value s) : exec (.evackWrite space value) s = execEvackWrite space value s := rfl
theorem exec_tenantPageMoveStart (space page compress choice s) : exec (.tenantPageMoveStart space page compress choice) s = execTenantPageMoveStart space page compress choice s := rfl
theorem exec_tenantPageMoveCommit (space page loc sectors s) : exec (.tenantPageMoveCommit space page loc sectors) s = execTenantPageMoveCommit space page loc sectors s := rfl
theorem exec_extentAdd (space offer s) : exec (.extentAdd space offer) s = execExtentAdd space offer s := rfl
theorem exec_extentRelease (space base s) : exec (.extentRelease space base) s = execExtentRelease space base s := rfl
theorem exec_linkDown (port s) : exec (.linkDown port) s = execLinkDown port s := rfl
theorem exec_linkRetrain (port s) : exec (.linkRetrain port) s = execLinkRetrain port s := rfl
theorem exec_packageFailure (die half package s) : exec (.packageFailure die half package) s = execPackageFailure die half package s := rfl
theorem exec_parityRebuildDone (package s) : exec (.parityRebuildDone package) s = execParityRebuildDone package s := rfl
theorem exec_computeReset (altered s) : exec (.computeReset altered) s = execComputeReset altered s := rfl
theorem exec_nearTierWatchdog (die altered s) : exec (.nearTierWatchdog die altered) s = execNearTierWatchdog die altered s := rfl
theorem exec_computeDomainUp (s) : exec (.computeDomainUp) s = execComputeDomainUp s := rfl
theorem exec_moduleReset (kept s) : exec (.moduleReset kept) s = execModuleReset kept s := rfl
theorem exec_powerUp (altered s) : exec (.powerUp altered) s = execPowerUp altered s := rfl
theorem exec_correctedError (core frame package s) : exec (.correctedError core frame package) s = execCorrectedError core frame package s := rfl
theorem exec_frameErrorThreshold (frame dest s) : exec (.frameErrorThreshold frame dest) s = execFrameErrorThreshold frame dest s := rfl
theorem exec_patrolScrub (line s) : exec (.patrolScrub line) s = execPatrolScrub line s := rfl
theorem exec_uncorrectableError (site altered s) : exec (.uncorrectableError site altered) s = execUncorrectableError site altered s := rfl
theorem exec_powerSample (watts s) : exec (.powerSample watts) s = execPowerSample watts s := rfl
theorem exec_powerLimitLog (s) : exec (.powerLimitLog) s = execPowerLimitLog s := rfl
theorem exec_powerCapSet (watts s) : exec (.powerCapSet watts) s = execPowerCapSet watts s := rfl
theorem exec_powerLoss (kept s) : exec (.powerLoss kept) s = execPowerLoss kept s := rfl
theorem exec_tierMigrationStart (context page dest s) : exec (.tierMigrationStart context page dest) s = execTierMigrationStart context page dest s := rfl
theorem exec_migrationSwitchCommit (id s) : exec (.migrationSwitchCommit id) s = execMigrationSwitchCommit id s := rfl
theorem exec_peerFabricRequest (context device frame off n op write data s) : exec (.peerFabricRequest context device frame off n op write data) s = execPeerFabricRequest context device frame off n op write data s := rfl
theorem exec_tlbinvCompletion (core slot split s) : exec (.tlbinvCompletion core slot split) s = execTlbinvCompletion core slot split s := rfl
theorem exec_hostFileFetchReply (die seq service data s) : exec (.hostFileFetchReply die seq service data) s = execHostFileFetchReply die seq service data s := rfl
theorem exec_extentAccept (space base s) : exec (.extentAccept space base) s = execExtentAccept space base s := rfl

end Sys2Proof.Machine
end

