-- ==== Sys2Proof/Laws/Early.lean ====
section
/-!
SUPPORT. What an early read, the words after it and a joint act of the security cores can change.
-/

set_option Elab.async false

namespace Sys2Proof.Machine.State

/-- An early read changes nothing but what stands beside the groups. -/
theorem takeEarly_only_sys (s : State) (e : EarlyPick) : { s.takeEarly e with sys := s.sys } = s := by
  unfold takeEarly; dsimp only; split
  · split <;> rfl
  · rfl

/-- What a group has read early changes nothing but what stands beside the groups. -/
theorem afterWords_only_sys (s : State) (l : List Reading) (t : State) : { s.afterWords l t with sys := t.sys } = t := by
  unfold afterWords; dsimp only; split <;> rfl

/-- Words keep what an early read has read; they mark registers only. -/
theorem EarlyRead.after_some {l : List Instr} {full : Bool} {posted : List (Access × Bool)} {e x : EarlyRead}
    (h : EarlyRead.after l full posted e = some x) : ∃ d, x = { e with dirty := d } := by
  simp only [EarlyRead.after] at h
  split at h
  · cases h
  · exact ⟨_, (Option.some.inj h).symm⟩

/-- A joint act of the security cores happens where they agree, and is only logged where they do not (R27). -/
theorem decided_cases (s : State) (act : State → State) :
    (s.agreed = true ∧ s.decided act = act s.voted) ∨ (s.agreed = false ∧ s.decided act = s.voted.disagree) := by
  unfold decided; cases s.agreed <;> simp

@[simp] theorem voted_mem (s : State) : s.voted.mem = s.mem := rfl
@[simp] theorem voted_groups (s : State) : s.voted.groups = s.groups := rfl
@[simp] theorem voted_contexts (s : State) : s.voted.contexts = s.contexts := rfl
@[simp] theorem voted_frames (s : State) : s.voted.hw.frames = s.hw.frames := rfl
@[simp] theorem disagree_mem (s : State) : s.disagree.mem = s.mem := rfl
@[simp] theorem disagree_groups (s : State) : s.disagree.groups = s.groups := rfl
@[simp] theorem disagree_contexts (s : State) : s.disagree.contexts = s.contexts := rfl
@[simp] theorem disagree_frames (s : State) : s.disagree.hw.frames = s.hw.frames := rfl

end Sys2Proof.Machine.State
end

