-- ==== Sys2Proof/Laws/Hosts.lean ====
section
/-!
SUPPORT. What the operations between the module and its hosts do (R357, R391, R421 to R427, R441): one lemma for each part of the
state that they leave alone, and what the window holds after them.
-/

set_option Elab.async false

namespace Sys2Proof.Machine.State


/-! ### setSpaceAt -/

@[simp] theorem setSpaceAt_cur (s : State) (n : Nat) (x : Space) : (s.setSpaceAt n x).cur = s.cur := rfl
@[simp] theorem setSpaceAt_schedule (s : State) (n : Nat) (x : Space) : (s.setSpaceAt n x).schedule = s.schedule := rfl
@[simp] theorem setSpaceAt_now (s : State) (n : Nat) (x : Space) : (s.setSpaceAt n x).now = s.now := rfl
@[simp] theorem setSpaceAt_tick (s : State) (n : Nat) (x : Space) : (s.setSpaceAt n x).tick = s.tick := rfl
@[simp] theorem setSpaceAt_last (s : State) (n : Nat) (x : Space) : (s.setSpaceAt n x).last = s.last := rfl
@[simp] theorem setSpaceAt_snap (s : State) (n : Nat) (x : Space) : (s.setSpaceAt n x).snap = s.snap := rfl
@[simp] theorem setSpaceAt_nextId (s : State) (n : Nat) (x : Space) : (s.setSpaceAt n x).nextId = s.nextId := rfl
@[simp] theorem setSpaceAt_groups (s : State) (n : Nat) (x : Space) : (s.setSpaceAt n x).groups = s.groups := rfl
@[simp] theorem setSpaceAt_sys (s : State) (n : Nat) (x : Space) : (s.setSpaceAt n x).sys = s.sys := rfl
@[simp] theorem setSpaceAt_blocks (s : State) (n : Nat) (x : Space) : (s.setSpaceAt n x).blocks = s.blocks := rfl
@[simp] theorem setSpaceAt_launches (s : State) (n : Nat) (x : Space) : (s.setSpaceAt n x).launches = s.launches := rfl
@[simp] theorem setSpaceAt_queues (s : State) (n : Nat) (x : Space) : (s.setSpaceAt n x).queues = s.queues := rfl
@[simp] theorem setSpaceAt_dispatched (s : State) (n : Nat) (x : Space) : (s.setSpaceAt n x).dispatched = s.dispatched := rfl
@[simp] theorem setSpaceAt_served (s : State) (n : Nat) (x : Space) : (s.setSpaceAt n x).served = s.served := rfl
@[simp] theorem setSpaceAt_cores (s : State) (n : Nat) (x : Space) : (s.setSpaceAt n x).cores = s.cores := rfl
@[simp] theorem setSpaceAt_clusters (s : State) (n : Nat) (x : Space) : (s.setSpaceAt n x).clusters = s.clusters := rfl
@[simp] theorem setSpaceAt_dies (s : State) (n : Nat) (x : Space) : (s.setSpaceAt n x).dies = s.dies := rfl
@[simp] theorem setSpaceAt_contexts (s : State) (n : Nat) (x : Space) : (s.setSpaceAt n x).contexts = s.contexts := rfl
@[simp] theorem setSpaceAt_firm (s : State) (n : Nat) (x : Space) : (s.setSpaceAt n x).firm = s.firm := rfl
@[simp] theorem setSpaceAt_mem (s : State) (n : Nat) (x : Space) : (s.setSpaceAt n x).mem = s.mem := rfl
@[simp] theorem setSpaceAt_spad (s : State) (n : Nat) (x : Space) : (s.setSpaceAt n x).spad = s.spad := rfl
@[simp] theorem setSpaceAt_acc (s : State) (n : Nat) (x : Space) : (s.setSpaceAt n x).acc = s.acc := rfl
@[simp] theorem setSpaceAt_hw_partitions (s : State) (n : Nat) (x : Space) : (s.setSpaceAt n x).hw.partitions = s.hw.partitions := rfl
@[simp] theorem setSpaceAt_hw_frames (s : State) (n : Nat) (x : Space) : (s.setSpaceAt n x).hw.frames = s.hw.frames := rfl
@[simp] theorem setSpaceAt_hw_addrMap (s : State) (n : Nat) (x : Space) : (s.setSpaceAt n x).hw.addrMap = s.hw.addrMap := rfl
@[simp] theorem setSpaceAt_hw_frameSets (s : State) (n : Nat) (x : Space) : (s.setSpaceAt n x).hw.frameSets = s.hw.frameSets := rfl
@[simp] theorem setSpaceAt_hw_poisoned (s : State) (n : Nat) (x : Space) : (s.setSpaceAt n x).hw.poisoned = s.hw.poisoned := rfl
@[simp] theorem setSpaceAt_hw_tierMoves (s : State) (n : Nat) (x : Space) : (s.setSpaceAt n x).hw.tierMoves = s.hw.tierMoves := rfl
@[simp] theorem setSpaceAt_hw_frameErrors (s : State) (n : Nat) (x : Space) : (s.setSpaceAt n x).hw.frameErrors = s.hw.frameErrors := rfl
@[simp] theorem setSpaceAt_hw_counts (s : State) (n : Nat) (x : Space) : (s.setSpaceAt n x).hw.counts = s.hw.counts := rfl
@[simp] theorem setSpaceAt_hw_hostOut (s : State) (n : Nat) (x : Space) : (s.setSpaceAt n x).hw.hostOut = s.hw.hostOut := rfl
@[simp] theorem setSpaceAt_hw_flash (s : State) (n : Nat) (x : Space) : (s.setSpaceAt n x).hw.flash = s.hw.flash := rfl
@[simp] theorem setSpaceAt_hw_fetches (s : State) (n : Nat) (x : Space) : (s.setSpaceAt n x).hw.fetches = s.hw.fetches := rfl
@[simp] theorem setSpaceAt_hw_checkpoints (s : State) (n : Nat) (x : Space) : (s.setSpaceAt n x).hw.checkpoints = s.hw.checkpoints := rfl
@[simp] theorem setSpaceAt_hw_pacers (s : State) (n : Nat) (x : Space) : (s.setSpaceAt n x).hw.pacers = s.hw.pacers := rfl
@[simp] theorem setSpaceAt_hw_budgets (s : State) (n : Nat) (x : Space) : (s.setSpaceAt n x).hw.budgets = s.hw.budgets := rfl
@[simp] theorem setSpaceAt_hw_turns (s : State) (n : Nat) (x : Space) : (s.setSpaceAt n x).hw.turns = s.hw.turns := rfl
@[simp] theorem setSpaceAt_hw_serviceDown (s : State) (n : Nat) (x : Space) : (s.setSpaceAt n x).hw.serviceDown = s.hw.serviceDown := rfl
@[simp] theorem setSpaceAt_hw_errorLog (s : State) (n : Nat) (x : Space) : (s.setSpaceAt n x).hw.errorLog = s.hw.errorLog := rfl
@[simp] theorem setSpaceAt_hw_reports (s : State) (n : Nat) (x : Space) : (s.setSpaceAt n x).hw.reports = s.hw.reports := rfl
@[simp] theorem setSpaceAt_hw_fabricOut (s : State) (n : Nat) (x : Space) : (s.setSpaceAt n x).hw.fabricOut = s.hw.fabricOut := rfl
@[simp] theorem setSpaceAt_hw_packages (s : State) (n : Nat) (x : Space) : (s.setSpaceAt n x).hw.packages = s.hw.packages := rfl
@[simp] theorem setSpaceAt_hw_imageSeqs (s : State) (n : Nat) (x : Space) : (s.setSpaceAt n x).hw.imageSeqs = s.hw.imageSeqs := rfl
@[simp] theorem setSpaceAt_hw_ended (s : State) (n : Nat) (x : Space) : (s.setSpaceAt n x).hw.ended = s.hw.ended := rfl
@[simp] theorem setSpaceAt_hw_toResume (s : State) (n : Nat) (x : Space) : (s.setSpaceAt n x).hw.toResume = s.hw.toResume := rfl
@[simp] theorem setSpaceAt_hw_power (s : State) (n : Nat) (x : Space) : (s.setSpaceAt n x).hw.power = s.hw.power := rfl

/-! ### setFrameAt -/

@[simp] theorem setFrameAt_cur (s : State) (f : Nat) (r : FrameRecord) : (s.setFrameAt f r).cur = s.cur := rfl
@[simp] theorem setFrameAt_schedule (s : State) (f : Nat) (r : FrameRecord) : (s.setFrameAt f r).schedule = s.schedule := rfl
@[simp] theorem setFrameAt_now (s : State) (f : Nat) (r : FrameRecord) : (s.setFrameAt f r).now = s.now := rfl
@[simp] theorem setFrameAt_tick (s : State) (f : Nat) (r : FrameRecord) : (s.setFrameAt f r).tick = s.tick := rfl
@[simp] theorem setFrameAt_last (s : State) (f : Nat) (r : FrameRecord) : (s.setFrameAt f r).last = s.last := rfl
@[simp] theorem setFrameAt_snap (s : State) (f : Nat) (r : FrameRecord) : (s.setFrameAt f r).snap = s.snap := rfl
@[simp] theorem setFrameAt_nextId (s : State) (f : Nat) (r : FrameRecord) : (s.setFrameAt f r).nextId = s.nextId := rfl
@[simp] theorem setFrameAt_groups (s : State) (f : Nat) (r : FrameRecord) : (s.setFrameAt f r).groups = s.groups := rfl
@[simp] theorem setFrameAt_sys (s : State) (f : Nat) (r : FrameRecord) : (s.setFrameAt f r).sys = s.sys := rfl
@[simp] theorem setFrameAt_blocks (s : State) (f : Nat) (r : FrameRecord) : (s.setFrameAt f r).blocks = s.blocks := rfl
@[simp] theorem setFrameAt_launches (s : State) (f : Nat) (r : FrameRecord) : (s.setFrameAt f r).launches = s.launches := rfl
@[simp] theorem setFrameAt_queues (s : State) (f : Nat) (r : FrameRecord) : (s.setFrameAt f r).queues = s.queues := rfl
@[simp] theorem setFrameAt_dispatched (s : State) (f : Nat) (r : FrameRecord) : (s.setFrameAt f r).dispatched = s.dispatched := rfl
@[simp] theorem setFrameAt_served (s : State) (f : Nat) (r : FrameRecord) : (s.setFrameAt f r).served = s.served := rfl
@[simp] theorem setFrameAt_cores (s : State) (f : Nat) (r : FrameRecord) : (s.setFrameAt f r).cores = s.cores := rfl
@[simp] theorem setFrameAt_clusters (s : State) (f : Nat) (r : FrameRecord) : (s.setFrameAt f r).clusters = s.clusters := rfl
@[simp] theorem setFrameAt_dies (s : State) (f : Nat) (r : FrameRecord) : (s.setFrameAt f r).dies = s.dies := rfl
@[simp] theorem setFrameAt_contexts (s : State) (f : Nat) (r : FrameRecord) : (s.setFrameAt f r).contexts = s.contexts := rfl
@[simp] theorem setFrameAt_firm (s : State) (f : Nat) (r : FrameRecord) : (s.setFrameAt f r).firm = s.firm := rfl
@[simp] theorem setFrameAt_mem (s : State) (f : Nat) (r : FrameRecord) : (s.setFrameAt f r).mem = s.mem := rfl
@[simp] theorem setFrameAt_spad (s : State) (f : Nat) (r : FrameRecord) : (s.setFrameAt f r).spad = s.spad := rfl
@[simp] theorem setFrameAt_acc (s : State) (f : Nat) (r : FrameRecord) : (s.setFrameAt f r).acc = s.acc := rfl
@[simp] theorem setFrameAt_hw_partitions (s : State) (f : Nat) (r : FrameRecord) : (s.setFrameAt f r).hw.partitions = s.hw.partitions := rfl
@[simp] theorem setFrameAt_hw_addrMap (s : State) (f : Nat) (r : FrameRecord) : (s.setFrameAt f r).hw.addrMap = s.hw.addrMap := rfl
@[simp] theorem setFrameAt_hw_frameSets (s : State) (f : Nat) (r : FrameRecord) : (s.setFrameAt f r).hw.frameSets = s.hw.frameSets := rfl
@[simp] theorem setFrameAt_hw_poisoned (s : State) (f : Nat) (r : FrameRecord) : (s.setFrameAt f r).hw.poisoned = s.hw.poisoned := rfl
@[simp] theorem setFrameAt_hw_tierMoves (s : State) (f : Nat) (r : FrameRecord) : (s.setFrameAt f r).hw.tierMoves = s.hw.tierMoves := rfl
@[simp] theorem setFrameAt_hw_frameErrors (s : State) (f : Nat) (r : FrameRecord) : (s.setFrameAt f r).hw.frameErrors = s.hw.frameErrors := rfl
@[simp] theorem setFrameAt_hw_counts (s : State) (f : Nat) (r : FrameRecord) : (s.setFrameAt f r).hw.counts = s.hw.counts := rfl
@[simp] theorem setFrameAt_hw_spaces (s : State) (f : Nat) (r : FrameRecord) : (s.setFrameAt f r).hw.spaces = s.hw.spaces := rfl
@[simp] theorem setFrameAt_hw_hostOut (s : State) (f : Nat) (r : FrameRecord) : (s.setFrameAt f r).hw.hostOut = s.hw.hostOut := rfl
@[simp] theorem setFrameAt_hw_flash (s : State) (f : Nat) (r : FrameRecord) : (s.setFrameAt f r).hw.flash = s.hw.flash := rfl
@[simp] theorem setFrameAt_hw_fetches (s : State) (f : Nat) (r : FrameRecord) : (s.setFrameAt f r).hw.fetches = s.hw.fetches := rfl
@[simp] theorem setFrameAt_hw_checkpoints (s : State) (f : Nat) (r : FrameRecord) : (s.setFrameAt f r).hw.checkpoints = s.hw.checkpoints := rfl
@[simp] theorem setFrameAt_hw_pacers (s : State) (f : Nat) (r : FrameRecord) : (s.setFrameAt f r).hw.pacers = s.hw.pacers := rfl
@[simp] theorem setFrameAt_hw_budgets (s : State) (f : Nat) (r : FrameRecord) : (s.setFrameAt f r).hw.budgets = s.hw.budgets := rfl
@[simp] theorem setFrameAt_hw_turns (s : State) (f : Nat) (r : FrameRecord) : (s.setFrameAt f r).hw.turns = s.hw.turns := rfl
@[simp] theorem setFrameAt_hw_serviceDown (s : State) (f : Nat) (r : FrameRecord) : (s.setFrameAt f r).hw.serviceDown = s.hw.serviceDown := rfl
@[simp] theorem setFrameAt_hw_errorLog (s : State) (f : Nat) (r : FrameRecord) : (s.setFrameAt f r).hw.errorLog = s.hw.errorLog := rfl
@[simp] theorem setFrameAt_hw_reports (s : State) (f : Nat) (r : FrameRecord) : (s.setFrameAt f r).hw.reports = s.hw.reports := rfl
@[simp] theorem setFrameAt_hw_fabricOut (s : State) (f : Nat) (r : FrameRecord) : (s.setFrameAt f r).hw.fabricOut = s.hw.fabricOut := rfl
@[simp] theorem setFrameAt_hw_packages (s : State) (f : Nat) (r : FrameRecord) : (s.setFrameAt f r).hw.packages = s.hw.packages := rfl
@[simp] theorem setFrameAt_hw_imageSeqs (s : State) (f : Nat) (r : FrameRecord) : (s.setFrameAt f r).hw.imageSeqs = s.hw.imageSeqs := rfl
@[simp] theorem setFrameAt_hw_ended (s : State) (f : Nat) (r : FrameRecord) : (s.setFrameAt f r).hw.ended = s.hw.ended := rfl
@[simp] theorem setFrameAt_hw_toResume (s : State) (f : Nat) (r : FrameRecord) : (s.setFrameAt f r).hw.toResume = s.hw.toResume := rfl
@[simp] theorem setFrameAt_hw_power (s : State) (f : Nat) (r : FrameRecord) : (s.setFrameAt f r).hw.power = s.hw.power := rfl

/-! ### windowPut -/

@[simp] theorem windowPut_cur (s : State) (n off : Nat) (l : List Byte) : (s.windowPut n off l).cur = s.cur := rfl
@[simp] theorem windowPut_schedule (s : State) (n off : Nat) (l : List Byte) : (s.windowPut n off l).schedule = s.schedule := rfl
@[simp] theorem windowPut_now (s : State) (n off : Nat) (l : List Byte) : (s.windowPut n off l).now = s.now := rfl
@[simp] theorem windowPut_tick (s : State) (n off : Nat) (l : List Byte) : (s.windowPut n off l).tick = s.tick := rfl
@[simp] theorem windowPut_last (s : State) (n off : Nat) (l : List Byte) : (s.windowPut n off l).last = s.last := rfl
@[simp] theorem windowPut_snap (s : State) (n off : Nat) (l : List Byte) : (s.windowPut n off l).snap = s.snap := rfl
@[simp] theorem windowPut_nextId (s : State) (n off : Nat) (l : List Byte) : (s.windowPut n off l).nextId = s.nextId := rfl
@[simp] theorem windowPut_groups (s : State) (n off : Nat) (l : List Byte) : (s.windowPut n off l).groups = s.groups := rfl
@[simp] theorem windowPut_sys (s : State) (n off : Nat) (l : List Byte) : (s.windowPut n off l).sys = s.sys := rfl
@[simp] theorem windowPut_blocks (s : State) (n off : Nat) (l : List Byte) : (s.windowPut n off l).blocks = s.blocks := rfl
@[simp] theorem windowPut_launches (s : State) (n off : Nat) (l : List Byte) : (s.windowPut n off l).launches = s.launches := rfl
@[simp] theorem windowPut_queues (s : State) (n off : Nat) (l : List Byte) : (s.windowPut n off l).queues = s.queues := rfl
@[simp] theorem windowPut_dispatched (s : State) (n off : Nat) (l : List Byte) : (s.windowPut n off l).dispatched = s.dispatched := rfl
@[simp] theorem windowPut_served (s : State) (n off : Nat) (l : List Byte) : (s.windowPut n off l).served = s.served := rfl
@[simp] theorem windowPut_cores (s : State) (n off : Nat) (l : List Byte) : (s.windowPut n off l).cores = s.cores := rfl
@[simp] theorem windowPut_clusters (s : State) (n off : Nat) (l : List Byte) : (s.windowPut n off l).clusters = s.clusters := rfl
@[simp] theorem windowPut_dies (s : State) (n off : Nat) (l : List Byte) : (s.windowPut n off l).dies = s.dies := rfl
@[simp] theorem windowPut_contexts (s : State) (n off : Nat) (l : List Byte) : (s.windowPut n off l).contexts = s.contexts := rfl
@[simp] theorem windowPut_firm (s : State) (n off : Nat) (l : List Byte) : (s.windowPut n off l).firm = s.firm := rfl
@[simp] theorem windowPut_spad (s : State) (n off : Nat) (l : List Byte) : (s.windowPut n off l).spad = s.spad := rfl
@[simp] theorem windowPut_acc (s : State) (n off : Nat) (l : List Byte) : (s.windowPut n off l).acc = s.acc := rfl
@[simp] theorem windowPut_hw_partitions (s : State) (n off : Nat) (l : List Byte) : (s.windowPut n off l).hw.partitions = s.hw.partitions := rfl
@[simp] theorem windowPut_hw_frames (s : State) (n off : Nat) (l : List Byte) : (s.windowPut n off l).hw.frames = s.hw.frames := rfl
@[simp] theorem windowPut_hw_addrMap (s : State) (n off : Nat) (l : List Byte) : (s.windowPut n off l).hw.addrMap = s.hw.addrMap := rfl
@[simp] theorem windowPut_hw_frameSets (s : State) (n off : Nat) (l : List Byte) : (s.windowPut n off l).hw.frameSets = s.hw.frameSets := rfl
@[simp] theorem windowPut_hw_poisoned (s : State) (n off : Nat) (l : List Byte) : (s.windowPut n off l).hw.poisoned = s.hw.poisoned := rfl
@[simp] theorem windowPut_hw_tierMoves (s : State) (n off : Nat) (l : List Byte) : (s.windowPut n off l).hw.tierMoves = s.hw.tierMoves := rfl
@[simp] theorem windowPut_hw_frameErrors (s : State) (n off : Nat) (l : List Byte) : (s.windowPut n off l).hw.frameErrors = s.hw.frameErrors := rfl
@[simp] theorem windowPut_hw_counts (s : State) (n off : Nat) (l : List Byte) : (s.windowPut n off l).hw.counts = s.hw.counts := rfl
@[simp] theorem windowPut_hw_spaces (s : State) (n off : Nat) (l : List Byte) : (s.windowPut n off l).hw.spaces = s.hw.spaces := rfl
@[simp] theorem windowPut_hw_flash (s : State) (n off : Nat) (l : List Byte) : (s.windowPut n off l).hw.flash = s.hw.flash := rfl
@[simp] theorem windowPut_hw_fetches (s : State) (n off : Nat) (l : List Byte) : (s.windowPut n off l).hw.fetches = s.hw.fetches := rfl
@[simp] theorem windowPut_hw_checkpoints (s : State) (n off : Nat) (l : List Byte) : (s.windowPut n off l).hw.checkpoints = s.hw.checkpoints := rfl
@[simp] theorem windowPut_hw_pacers (s : State) (n off : Nat) (l : List Byte) : (s.windowPut n off l).hw.pacers = s.hw.pacers := rfl
@[simp] theorem windowPut_hw_budgets (s : State) (n off : Nat) (l : List Byte) : (s.windowPut n off l).hw.budgets = s.hw.budgets := rfl
@[simp] theorem windowPut_hw_turns (s : State) (n off : Nat) (l : List Byte) : (s.windowPut n off l).hw.turns = s.hw.turns := rfl
@[simp] theorem windowPut_hw_serviceDown (s : State) (n off : Nat) (l : List Byte) : (s.windowPut n off l).hw.serviceDown = s.hw.serviceDown := rfl
@[simp] theorem windowPut_hw_errorLog (s : State) (n off : Nat) (l : List Byte) : (s.windowPut n off l).hw.errorLog = s.hw.errorLog := rfl
@[simp] theorem windowPut_hw_reports (s : State) (n off : Nat) (l : List Byte) : (s.windowPut n off l).hw.reports = s.hw.reports := rfl
@[simp] theorem windowPut_hw_fabricOut (s : State) (n off : Nat) (l : List Byte) : (s.windowPut n off l).hw.fabricOut = s.hw.fabricOut := rfl
@[simp] theorem windowPut_hw_packages (s : State) (n off : Nat) (l : List Byte) : (s.windowPut n off l).hw.packages = s.hw.packages := rfl
@[simp] theorem windowPut_hw_imageSeqs (s : State) (n off : Nat) (l : List Byte) : (s.windowPut n off l).hw.imageSeqs = s.hw.imageSeqs := rfl
@[simp] theorem windowPut_hw_ended (s : State) (n off : Nat) (l : List Byte) : (s.windowPut n off l).hw.ended = s.hw.ended := rfl
@[simp] theorem windowPut_hw_toResume (s : State) (n off : Nat) (l : List Byte) : (s.windowPut n off l).hw.toResume = s.hw.toResume := rfl
@[simp] theorem windowPut_hw_power (s : State) (n off : Nat) (l : List Byte) : (s.windowPut n off l).hw.power = s.hw.power := rfl

/-! ### sendHost -/

@[simp] theorem sendHost_cur (s : State) (m : HostMessage) : (s.sendHost m).cur = s.cur := rfl
@[simp] theorem sendHost_schedule (s : State) (m : HostMessage) : (s.sendHost m).schedule = s.schedule := rfl
@[simp] theorem sendHost_now (s : State) (m : HostMessage) : (s.sendHost m).now = s.now := rfl
@[simp] theorem sendHost_tick (s : State) (m : HostMessage) : (s.sendHost m).tick = s.tick := rfl
@[simp] theorem sendHost_last (s : State) (m : HostMessage) : (s.sendHost m).last = s.last := rfl
@[simp] theorem sendHost_snap (s : State) (m : HostMessage) : (s.sendHost m).snap = s.snap := rfl
@[simp] theorem sendHost_nextId (s : State) (m : HostMessage) : (s.sendHost m).nextId = s.nextId := rfl
@[simp] theorem sendHost_groups (s : State) (m : HostMessage) : (s.sendHost m).groups = s.groups := rfl
@[simp] theorem sendHost_sys (s : State) (m : HostMessage) : (s.sendHost m).sys = s.sys := rfl
@[simp] theorem sendHost_blocks (s : State) (m : HostMessage) : (s.sendHost m).blocks = s.blocks := rfl
@[simp] theorem sendHost_launches (s : State) (m : HostMessage) : (s.sendHost m).launches = s.launches := rfl
@[simp] theorem sendHost_queues (s : State) (m : HostMessage) : (s.sendHost m).queues = s.queues := rfl
@[simp] theorem sendHost_dispatched (s : State) (m : HostMessage) : (s.sendHost m).dispatched = s.dispatched := rfl
@[simp] theorem sendHost_served (s : State) (m : HostMessage) : (s.sendHost m).served = s.served := rfl
@[simp] theorem sendHost_cores (s : State) (m : HostMessage) : (s.sendHost m).cores = s.cores := rfl
@[simp] theorem sendHost_clusters (s : State) (m : HostMessage) : (s.sendHost m).clusters = s.clusters := rfl
@[simp] theorem sendHost_dies (s : State) (m : HostMessage) : (s.sendHost m).dies = s.dies := rfl
@[simp] theorem sendHost_contexts (s : State) (m : HostMessage) : (s.sendHost m).contexts = s.contexts := rfl
@[simp] theorem sendHost_firm (s : State) (m : HostMessage) : (s.sendHost m).firm = s.firm := rfl
@[simp] theorem sendHost_mem (s : State) (m : HostMessage) : (s.sendHost m).mem = s.mem := rfl
@[simp] theorem sendHost_spad (s : State) (m : HostMessage) : (s.sendHost m).spad = s.spad := rfl
@[simp] theorem sendHost_acc (s : State) (m : HostMessage) : (s.sendHost m).acc = s.acc := rfl
@[simp] theorem sendHost_hw_partitions (s : State) (m : HostMessage) : (s.sendHost m).hw.partitions = s.hw.partitions := rfl
@[simp] theorem sendHost_hw_frames (s : State) (m : HostMessage) : (s.sendHost m).hw.frames = s.hw.frames := rfl
@[simp] theorem sendHost_hw_addrMap (s : State) (m : HostMessage) : (s.sendHost m).hw.addrMap = s.hw.addrMap := rfl
@[simp] theorem sendHost_hw_frameSets (s : State) (m : HostMessage) : (s.sendHost m).hw.frameSets = s.hw.frameSets := rfl
@[simp] theorem sendHost_hw_poisoned (s : State) (m : HostMessage) : (s.sendHost m).hw.poisoned = s.hw.poisoned := rfl
@[simp] theorem sendHost_hw_tierMoves (s : State) (m : HostMessage) : (s.sendHost m).hw.tierMoves = s.hw.tierMoves := rfl
@[simp] theorem sendHost_hw_frameErrors (s : State) (m : HostMessage) : (s.sendHost m).hw.frameErrors = s.hw.frameErrors := rfl
@[simp] theorem sendHost_hw_counts (s : State) (m : HostMessage) : (s.sendHost m).hw.counts = s.hw.counts := rfl
@[simp] theorem sendHost_hw_spaces (s : State) (m : HostMessage) : (s.sendHost m).hw.spaces = s.hw.spaces := rfl
@[simp] theorem sendHost_hw_flash (s : State) (m : HostMessage) : (s.sendHost m).hw.flash = s.hw.flash := rfl
@[simp] theorem sendHost_hw_fetches (s : State) (m : HostMessage) : (s.sendHost m).hw.fetches = s.hw.fetches := rfl
@[simp] theorem sendHost_hw_checkpoints (s : State) (m : HostMessage) : (s.sendHost m).hw.checkpoints = s.hw.checkpoints := rfl
@[simp] theorem sendHost_hw_pacers (s : State) (m : HostMessage) : (s.sendHost m).hw.pacers = s.hw.pacers := rfl
@[simp] theorem sendHost_hw_budgets (s : State) (m : HostMessage) : (s.sendHost m).hw.budgets = s.hw.budgets := rfl
@[simp] theorem sendHost_hw_turns (s : State) (m : HostMessage) : (s.sendHost m).hw.turns = s.hw.turns := rfl
@[simp] theorem sendHost_hw_serviceDown (s : State) (m : HostMessage) : (s.sendHost m).hw.serviceDown = s.hw.serviceDown := rfl
@[simp] theorem sendHost_hw_errorLog (s : State) (m : HostMessage) : (s.sendHost m).hw.errorLog = s.hw.errorLog := rfl
@[simp] theorem sendHost_hw_reports (s : State) (m : HostMessage) : (s.sendHost m).hw.reports = s.hw.reports := rfl
@[simp] theorem sendHost_hw_fabricOut (s : State) (m : HostMessage) : (s.sendHost m).hw.fabricOut = s.hw.fabricOut := rfl
@[simp] theorem sendHost_hw_packages (s : State) (m : HostMessage) : (s.sendHost m).hw.packages = s.hw.packages := rfl
@[simp] theorem sendHost_hw_imageSeqs (s : State) (m : HostMessage) : (s.sendHost m).hw.imageSeqs = s.hw.imageSeqs := rfl
@[simp] theorem sendHost_hw_ended (s : State) (m : HostMessage) : (s.sendHost m).hw.ended = s.hw.ended := rfl
@[simp] theorem sendHost_hw_toResume (s : State) (m : HostMessage) : (s.sendHost m).hw.toResume = s.hw.toResume := rfl
@[simp] theorem sendHost_hw_power (s : State) (m : HostMessage) : (s.sendHost m).hw.power = s.hw.power := rfl

/-! ### logError -/

@[simp] theorem logError_cur (s : State) (e : LogEntry) : (s.logError e).cur = s.cur := rfl
@[simp] theorem logError_schedule (s : State) (e : LogEntry) : (s.logError e).schedule = s.schedule := rfl
@[simp] theorem logError_now (s : State) (e : LogEntry) : (s.logError e).now = s.now := rfl
@[simp] theorem logError_tick (s : State) (e : LogEntry) : (s.logError e).tick = s.tick := rfl
@[simp] theorem logError_last (s : State) (e : LogEntry) : (s.logError e).last = s.last := rfl
@[simp] theorem logError_snap (s : State) (e : LogEntry) : (s.logError e).snap = s.snap := rfl
@[simp] theorem logError_nextId (s : State) (e : LogEntry) : (s.logError e).nextId = s.nextId := rfl
@[simp] theorem logError_groups (s : State) (e : LogEntry) : (s.logError e).groups = s.groups := rfl
@[simp] theorem logError_sys (s : State) (e : LogEntry) : (s.logError e).sys = s.sys := rfl
@[simp] theorem logError_blocks (s : State) (e : LogEntry) : (s.logError e).blocks = s.blocks := rfl
@[simp] theorem logError_launches (s : State) (e : LogEntry) : (s.logError e).launches = s.launches := rfl
@[simp] theorem logError_queues (s : State) (e : LogEntry) : (s.logError e).queues = s.queues := rfl
@[simp] theorem logError_dispatched (s : State) (e : LogEntry) : (s.logError e).dispatched = s.dispatched := rfl
@[simp] theorem logError_served (s : State) (e : LogEntry) : (s.logError e).served = s.served := rfl
@[simp] theorem logError_cores (s : State) (e : LogEntry) : (s.logError e).cores = s.cores := rfl
@[simp] theorem logError_clusters (s : State) (e : LogEntry) : (s.logError e).clusters = s.clusters := rfl
@[simp] theorem logError_dies (s : State) (e : LogEntry) : (s.logError e).dies = s.dies := rfl
@[simp] theorem logError_contexts (s : State) (e : LogEntry) : (s.logError e).contexts = s.contexts := rfl
@[simp] theorem logError_firm (s : State) (e : LogEntry) : (s.logError e).firm = s.firm := rfl
@[simp] theorem logError_mem (s : State) (e : LogEntry) : (s.logError e).mem = s.mem := rfl
@[simp] theorem logError_spad (s : State) (e : LogEntry) : (s.logError e).spad = s.spad := rfl
@[simp] theorem logError_acc (s : State) (e : LogEntry) : (s.logError e).acc = s.acc := rfl
@[simp] theorem logError_hw_partitions (s : State) (e : LogEntry) : (s.logError e).hw.partitions = s.hw.partitions := rfl
@[simp] theorem logError_hw_frames (s : State) (e : LogEntry) : (s.logError e).hw.frames = s.hw.frames := rfl
@[simp] theorem logError_hw_addrMap (s : State) (e : LogEntry) : (s.logError e).hw.addrMap = s.hw.addrMap := rfl
@[simp] theorem logError_hw_frameSets (s : State) (e : LogEntry) : (s.logError e).hw.frameSets = s.hw.frameSets := rfl
@[simp] theorem logError_hw_poisoned (s : State) (e : LogEntry) : (s.logError e).hw.poisoned = s.hw.poisoned := rfl
@[simp] theorem logError_hw_tierMoves (s : State) (e : LogEntry) : (s.logError e).hw.tierMoves = s.hw.tierMoves := rfl
@[simp] theorem logError_hw_frameErrors (s : State) (e : LogEntry) : (s.logError e).hw.frameErrors = s.hw.frameErrors := rfl
@[simp] theorem logError_hw_counts (s : State) (e : LogEntry) : (s.logError e).hw.counts = s.hw.counts := rfl
@[simp] theorem logError_hw_spaces (s : State) (e : LogEntry) : (s.logError e).hw.spaces = s.hw.spaces := rfl
@[simp] theorem logError_hw_hostOut (s : State) (e : LogEntry) : (s.logError e).hw.hostOut = s.hw.hostOut := rfl
@[simp] theorem logError_hw_flash (s : State) (e : LogEntry) : (s.logError e).hw.flash = s.hw.flash := rfl
@[simp] theorem logError_hw_fetches (s : State) (e : LogEntry) : (s.logError e).hw.fetches = s.hw.fetches := rfl
@[simp] theorem logError_hw_checkpoints (s : State) (e : LogEntry) : (s.logError e).hw.checkpoints = s.hw.checkpoints := rfl
@[simp] theorem logError_hw_pacers (s : State) (e : LogEntry) : (s.logError e).hw.pacers = s.hw.pacers := rfl
@[simp] theorem logError_hw_budgets (s : State) (e : LogEntry) : (s.logError e).hw.budgets = s.hw.budgets := rfl
@[simp] theorem logError_hw_turns (s : State) (e : LogEntry) : (s.logError e).hw.turns = s.hw.turns := rfl
@[simp] theorem logError_hw_serviceDown (s : State) (e : LogEntry) : (s.logError e).hw.serviceDown = s.hw.serviceDown := rfl
@[simp] theorem logError_hw_reports (s : State) (e : LogEntry) : (s.logError e).hw.reports = s.hw.reports := rfl
@[simp] theorem logError_hw_fabricOut (s : State) (e : LogEntry) : (s.logError e).hw.fabricOut = s.hw.fabricOut := rfl
@[simp] theorem logError_hw_packages (s : State) (e : LogEntry) : (s.logError e).hw.packages = s.hw.packages := rfl
@[simp] theorem logError_hw_imageSeqs (s : State) (e : LogEntry) : (s.logError e).hw.imageSeqs = s.hw.imageSeqs := rfl
@[simp] theorem logError_hw_ended (s : State) (e : LogEntry) : (s.logError e).hw.ended = s.hw.ended := rfl
@[simp] theorem logError_hw_toResume (s : State) (e : LogEntry) : (s.logError e).hw.toResume = s.hw.toResume := rfl
@[simp] theorem logError_hw_power (s : State) (e : LogEntry) : (s.logError e).hw.power = s.hw.power := rfl

/-! ### writeEvent -/

@[simp] theorem writeEvent_cur (s : State) (n : Nat) (e : HostEvent) : (s.writeEvent n e).cur = s.cur := by simp only [writeEvent, windowPut_cur, setSpaceAt_cur]
@[simp] theorem writeEvent_schedule (s : State) (n : Nat) (e : HostEvent) : (s.writeEvent n e).schedule = s.schedule := by simp only [writeEvent, windowPut_schedule, setSpaceAt_schedule]
@[simp] theorem writeEvent_now (s : State) (n : Nat) (e : HostEvent) : (s.writeEvent n e).now = s.now := by simp only [writeEvent, windowPut_now, setSpaceAt_now]
@[simp] theorem writeEvent_tick (s : State) (n : Nat) (e : HostEvent) : (s.writeEvent n e).tick = s.tick := by simp only [writeEvent, windowPut_tick, setSpaceAt_tick]
@[simp] theorem writeEvent_last (s : State) (n : Nat) (e : HostEvent) : (s.writeEvent n e).last = s.last := by simp only [writeEvent, windowPut_last, setSpaceAt_last]
@[simp] theorem writeEvent_snap (s : State) (n : Nat) (e : HostEvent) : (s.writeEvent n e).snap = s.snap := by simp only [writeEvent, windowPut_snap, setSpaceAt_snap]
@[simp] theorem writeEvent_nextId (s : State) (n : Nat) (e : HostEvent) : (s.writeEvent n e).nextId = s.nextId := by simp only [writeEvent, windowPut_nextId, setSpaceAt_nextId]
@[simp] theorem writeEvent_groups (s : State) (n : Nat) (e : HostEvent) : (s.writeEvent n e).groups = s.groups := by simp only [writeEvent, windowPut_groups, setSpaceAt_groups]
@[simp] theorem writeEvent_sys (s : State) (n : Nat) (e : HostEvent) : (s.writeEvent n e).sys = s.sys := by simp only [writeEvent, windowPut_sys, setSpaceAt_sys]
@[simp] theorem writeEvent_blocks (s : State) (n : Nat) (e : HostEvent) : (s.writeEvent n e).blocks = s.blocks := by simp only [writeEvent, windowPut_blocks, setSpaceAt_blocks]
@[simp] theorem writeEvent_launches (s : State) (n : Nat) (e : HostEvent) : (s.writeEvent n e).launches = s.launches := by simp only [writeEvent, windowPut_launches, setSpaceAt_launches]
@[simp] theorem writeEvent_queues (s : State) (n : Nat) (e : HostEvent) : (s.writeEvent n e).queues = s.queues := by simp only [writeEvent, windowPut_queues, setSpaceAt_queues]
@[simp] theorem writeEvent_dispatched (s : State) (n : Nat) (e : HostEvent) : (s.writeEvent n e).dispatched = s.dispatched := by simp only [writeEvent, windowPut_dispatched, setSpaceAt_dispatched]
@[simp] theorem writeEvent_served (s : State) (n : Nat) (e : HostEvent) : (s.writeEvent n e).served = s.served := by simp only [writeEvent, windowPut_served, setSpaceAt_served]
@[simp] theorem writeEvent_cores (s : State) (n : Nat) (e : HostEvent) : (s.writeEvent n e).cores = s.cores := by simp only [writeEvent, windowPut_cores, setSpaceAt_cores]
@[simp] theorem writeEvent_clusters (s : State) (n : Nat) (e : HostEvent) : (s.writeEvent n e).clusters = s.clusters := by simp only [writeEvent, windowPut_clusters, setSpaceAt_clusters]
@[simp] theorem writeEvent_dies (s : State) (n : Nat) (e : HostEvent) : (s.writeEvent n e).dies = s.dies := by simp only [writeEvent, windowPut_dies, setSpaceAt_dies]
@[simp] theorem writeEvent_contexts (s : State) (n : Nat) (e : HostEvent) : (s.writeEvent n e).contexts = s.contexts := by simp only [writeEvent, windowPut_contexts, setSpaceAt_contexts]
@[simp] theorem writeEvent_firm (s : State) (n : Nat) (e : HostEvent) : (s.writeEvent n e).firm = s.firm := by simp only [writeEvent, windowPut_firm, setSpaceAt_firm]
@[simp] theorem writeEvent_spad (s : State) (n : Nat) (e : HostEvent) : (s.writeEvent n e).spad = s.spad := by simp only [writeEvent, windowPut_spad, setSpaceAt_spad]
@[simp] theorem writeEvent_acc (s : State) (n : Nat) (e : HostEvent) : (s.writeEvent n e).acc = s.acc := by simp only [writeEvent, windowPut_acc, setSpaceAt_acc]
@[simp] theorem writeEvent_hw_partitions (s : State) (n : Nat) (e : HostEvent) : (s.writeEvent n e).hw.partitions = s.hw.partitions := by simp only [writeEvent, windowPut_hw_partitions, setSpaceAt_hw_partitions]
@[simp] theorem writeEvent_hw_frames (s : State) (n : Nat) (e : HostEvent) : (s.writeEvent n e).hw.frames = s.hw.frames := by simp only [writeEvent, windowPut_hw_frames, setSpaceAt_hw_frames]
@[simp] theorem writeEvent_hw_addrMap (s : State) (n : Nat) (e : HostEvent) : (s.writeEvent n e).hw.addrMap = s.hw.addrMap := by simp only [writeEvent, windowPut_hw_addrMap, setSpaceAt_hw_addrMap]
@[simp] theorem writeEvent_hw_frameSets (s : State) (n : Nat) (e : HostEvent) : (s.writeEvent n e).hw.frameSets = s.hw.frameSets := by simp only [writeEvent, windowPut_hw_frameSets, setSpaceAt_hw_frameSets]
@[simp] theorem writeEvent_hw_poisoned (s : State) (n : Nat) (e : HostEvent) : (s.writeEvent n e).hw.poisoned = s.hw.poisoned := by simp only [writeEvent, windowPut_hw_poisoned, setSpaceAt_hw_poisoned]
@[simp] theorem writeEvent_hw_tierMoves (s : State) (n : Nat) (e : HostEvent) : (s.writeEvent n e).hw.tierMoves = s.hw.tierMoves := by simp only [writeEvent, windowPut_hw_tierMoves, setSpaceAt_hw_tierMoves]
@[simp] theorem writeEvent_hw_frameErrors (s : State) (n : Nat) (e : HostEvent) : (s.writeEvent n e).hw.frameErrors = s.hw.frameErrors := by simp only [writeEvent, windowPut_hw_frameErrors, setSpaceAt_hw_frameErrors]
@[simp] theorem writeEvent_hw_counts (s : State) (n : Nat) (e : HostEvent) : (s.writeEvent n e).hw.counts = s.hw.counts := by simp only [writeEvent, windowPut_hw_counts, setSpaceAt_hw_counts]
@[simp] theorem writeEvent_hw_flash (s : State) (n : Nat) (e : HostEvent) : (s.writeEvent n e).hw.flash = s.hw.flash := by simp only [writeEvent, windowPut_hw_flash, setSpaceAt_hw_flash]
@[simp] theorem writeEvent_hw_fetches (s : State) (n : Nat) (e : HostEvent) : (s.writeEvent n e).hw.fetches = s.hw.fetches := by simp only [writeEvent, windowPut_hw_fetches, setSpaceAt_hw_fetches]
@[simp] theorem writeEvent_hw_checkpoints (s : State) (n : Nat) (e : HostEvent) : (s.writeEvent n e).hw.checkpoints = s.hw.checkpoints := by simp only [writeEvent, windowPut_hw_checkpoints, setSpaceAt_hw_checkpoints]
@[simp] theorem writeEvent_hw_pacers (s : State) (n : Nat) (e : HostEvent) : (s.writeEvent n e).hw.pacers = s.hw.pacers := by simp only [writeEvent, windowPut_hw_pacers, setSpaceAt_hw_pacers]
@[simp] theorem writeEvent_hw_budgets (s : State) (n : Nat) (e : HostEvent) : (s.writeEvent n e).hw.budgets = s.hw.budgets := by simp only [writeEvent, windowPut_hw_budgets, setSpaceAt_hw_budgets]
@[simp] theorem writeEvent_hw_turns (s : State) (n : Nat) (e : HostEvent) : (s.writeEvent n e).hw.turns = s.hw.turns := by simp only [writeEvent, windowPut_hw_turns, setSpaceAt_hw_turns]
@[simp] theorem writeEvent_hw_serviceDown (s : State) (n : Nat) (e : HostEvent) : (s.writeEvent n e).hw.serviceDown = s.hw.serviceDown := by simp only [writeEvent, windowPut_hw_serviceDown, setSpaceAt_hw_serviceDown]
@[simp] theorem writeEvent_hw_errorLog (s : State) (n : Nat) (e : HostEvent) : (s.writeEvent n e).hw.errorLog = s.hw.errorLog := by simp only [writeEvent, windowPut_hw_errorLog, setSpaceAt_hw_errorLog]
@[simp] theorem writeEvent_hw_reports (s : State) (n : Nat) (e : HostEvent) : (s.writeEvent n e).hw.reports = s.hw.reports := by simp only [writeEvent, windowPut_hw_reports, setSpaceAt_hw_reports]
@[simp] theorem writeEvent_hw_fabricOut (s : State) (n : Nat) (e : HostEvent) : (s.writeEvent n e).hw.fabricOut = s.hw.fabricOut := by simp only [writeEvent, windowPut_hw_fabricOut, setSpaceAt_hw_fabricOut]
@[simp] theorem writeEvent_hw_packages (s : State) (n : Nat) (e : HostEvent) : (s.writeEvent n e).hw.packages = s.hw.packages := by simp only [writeEvent, windowPut_hw_packages, setSpaceAt_hw_packages]
@[simp] theorem writeEvent_hw_imageSeqs (s : State) (n : Nat) (e : HostEvent) : (s.writeEvent n e).hw.imageSeqs = s.hw.imageSeqs := by simp only [writeEvent, windowPut_hw_imageSeqs, setSpaceAt_hw_imageSeqs]
@[simp] theorem writeEvent_hw_ended (s : State) (n : Nat) (e : HostEvent) : (s.writeEvent n e).hw.ended = s.hw.ended := by simp only [writeEvent, windowPut_hw_ended, setSpaceAt_hw_ended]
@[simp] theorem writeEvent_hw_toResume (s : State) (n : Nat) (e : HostEvent) : (s.writeEvent n e).hw.toResume = s.hw.toResume := by simp only [writeEvent, windowPut_hw_toResume, setSpaceAt_hw_toResume]
@[simp] theorem writeEvent_hw_power (s : State) (n : Nat) (e : HostEvent) : (s.writeEvent n e).hw.power = s.hw.power := by simp only [writeEvent, windowPut_hw_power, setSpaceAt_hw_power]

/-! ### showStatus -/

@[simp] theorem showStatus_cur (s : State) (n : Nat) : (s.showStatus n).cur = s.cur := by simp only [showStatus, windowPut_cur]
@[simp] theorem showStatus_schedule (s : State) (n : Nat) : (s.showStatus n).schedule = s.schedule := by simp only [showStatus, windowPut_schedule]
@[simp] theorem showStatus_now (s : State) (n : Nat) : (s.showStatus n).now = s.now := by simp only [showStatus, windowPut_now]
@[simp] theorem showStatus_tick (s : State) (n : Nat) : (s.showStatus n).tick = s.tick := by simp only [showStatus, windowPut_tick]
@[simp] theorem showStatus_last (s : State) (n : Nat) : (s.showStatus n).last = s.last := by simp only [showStatus, windowPut_last]
@[simp] theorem showStatus_snap (s : State) (n : Nat) : (s.showStatus n).snap = s.snap := by simp only [showStatus, windowPut_snap]
@[simp] theorem showStatus_nextId (s : State) (n : Nat) : (s.showStatus n).nextId = s.nextId := by simp only [showStatus, windowPut_nextId]
@[simp] theorem showStatus_groups (s : State) (n : Nat) : (s.showStatus n).groups = s.groups := by simp only [showStatus, windowPut_groups]
@[simp] theorem showStatus_sys (s : State) (n : Nat) : (s.showStatus n).sys = s.sys := by simp only [showStatus, windowPut_sys]
@[simp] theorem showStatus_blocks (s : State) (n : Nat) : (s.showStatus n).blocks = s.blocks := by simp only [showStatus, windowPut_blocks]
@[simp] theorem showStatus_launches (s : State) (n : Nat) : (s.showStatus n).launches = s.launches := by simp only [showStatus, windowPut_launches]
@[simp] theorem showStatus_queues (s : State) (n : Nat) : (s.showStatus n).queues = s.queues := by simp only [showStatus, windowPut_queues]
@[simp] theorem showStatus_dispatched (s : State) (n : Nat) : (s.showStatus n).dispatched = s.dispatched := by simp only [showStatus, windowPut_dispatched]
@[simp] theorem showStatus_served (s : State) (n : Nat) : (s.showStatus n).served = s.served := by simp only [showStatus, windowPut_served]
@[simp] theorem showStatus_cores (s : State) (n : Nat) : (s.showStatus n).cores = s.cores := by simp only [showStatus, windowPut_cores]
@[simp] theorem showStatus_clusters (s : State) (n : Nat) : (s.showStatus n).clusters = s.clusters := by simp only [showStatus, windowPut_clusters]
@[simp] theorem showStatus_dies (s : State) (n : Nat) : (s.showStatus n).dies = s.dies := by simp only [showStatus, windowPut_dies]
@[simp] theorem showStatus_contexts (s : State) (n : Nat) : (s.showStatus n).contexts = s.contexts := by simp only [showStatus, windowPut_contexts]
@[simp] theorem showStatus_firm (s : State) (n : Nat) : (s.showStatus n).firm = s.firm := by simp only [showStatus, windowPut_firm]
@[simp] theorem showStatus_spad (s : State) (n : Nat) : (s.showStatus n).spad = s.spad := by simp only [showStatus, windowPut_spad]
@[simp] theorem showStatus_acc (s : State) (n : Nat) : (s.showStatus n).acc = s.acc := by simp only [showStatus, windowPut_acc]
@[simp] theorem showStatus_hw_partitions (s : State) (n : Nat) : (s.showStatus n).hw.partitions = s.hw.partitions := by simp only [showStatus, windowPut_hw_partitions]
@[simp] theorem showStatus_hw_frames (s : State) (n : Nat) : (s.showStatus n).hw.frames = s.hw.frames := by simp only [showStatus, windowPut_hw_frames]
@[simp] theorem showStatus_hw_addrMap (s : State) (n : Nat) : (s.showStatus n).hw.addrMap = s.hw.addrMap := by simp only [showStatus, windowPut_hw_addrMap]
@[simp] theorem showStatus_hw_frameSets (s : State) (n : Nat) : (s.showStatus n).hw.frameSets = s.hw.frameSets := by simp only [showStatus, windowPut_hw_frameSets]
@[simp] theorem showStatus_hw_poisoned (s : State) (n : Nat) : (s.showStatus n).hw.poisoned = s.hw.poisoned := by simp only [showStatus, windowPut_hw_poisoned]
@[simp] theorem showStatus_hw_tierMoves (s : State) (n : Nat) : (s.showStatus n).hw.tierMoves = s.hw.tierMoves := by simp only [showStatus, windowPut_hw_tierMoves]
@[simp] theorem showStatus_hw_frameErrors (s : State) (n : Nat) : (s.showStatus n).hw.frameErrors = s.hw.frameErrors := by simp only [showStatus, windowPut_hw_frameErrors]
@[simp] theorem showStatus_hw_counts (s : State) (n : Nat) : (s.showStatus n).hw.counts = s.hw.counts := by simp only [showStatus, windowPut_hw_counts]
@[simp] theorem showStatus_hw_spaces (s : State) (n : Nat) : (s.showStatus n).hw.spaces = s.hw.spaces := by simp only [showStatus, windowPut_hw_spaces]
@[simp] theorem showStatus_hw_flash (s : State) (n : Nat) : (s.showStatus n).hw.flash = s.hw.flash := by simp only [showStatus, windowPut_hw_flash]
@[simp] theorem showStatus_hw_fetches (s : State) (n : Nat) : (s.showStatus n).hw.fetches = s.hw.fetches := by simp only [showStatus, windowPut_hw_fetches]
@[simp] theorem showStatus_hw_checkpoints (s : State) (n : Nat) : (s.showStatus n).hw.checkpoints = s.hw.checkpoints := by simp only [showStatus, windowPut_hw_checkpoints]
@[simp] theorem showStatus_hw_pacers (s : State) (n : Nat) : (s.showStatus n).hw.pacers = s.hw.pacers := by simp only [showStatus, windowPut_hw_pacers]
@[simp] theorem showStatus_hw_budgets (s : State) (n : Nat) : (s.showStatus n).hw.budgets = s.hw.budgets := by simp only [showStatus, windowPut_hw_budgets]
@[simp] theorem showStatus_hw_turns (s : State) (n : Nat) : (s.showStatus n).hw.turns = s.hw.turns := by simp only [showStatus, windowPut_hw_turns]
@[simp] theorem showStatus_hw_serviceDown (s : State) (n : Nat) : (s.showStatus n).hw.serviceDown = s.hw.serviceDown := by simp only [showStatus, windowPut_hw_serviceDown]
@[simp] theorem showStatus_hw_errorLog (s : State) (n : Nat) : (s.showStatus n).hw.errorLog = s.hw.errorLog := by simp only [showStatus, windowPut_hw_errorLog]
@[simp] theorem showStatus_hw_reports (s : State) (n : Nat) : (s.showStatus n).hw.reports = s.hw.reports := by simp only [showStatus, windowPut_hw_reports]
@[simp] theorem showStatus_hw_fabricOut (s : State) (n : Nat) : (s.showStatus n).hw.fabricOut = s.hw.fabricOut := by simp only [showStatus, windowPut_hw_fabricOut]
@[simp] theorem showStatus_hw_packages (s : State) (n : Nat) : (s.showStatus n).hw.packages = s.hw.packages := by simp only [showStatus, windowPut_hw_packages]
@[simp] theorem showStatus_hw_imageSeqs (s : State) (n : Nat) : (s.showStatus n).hw.imageSeqs = s.hw.imageSeqs := by simp only [showStatus, windowPut_hw_imageSeqs]
@[simp] theorem showStatus_hw_ended (s : State) (n : Nat) : (s.showStatus n).hw.ended = s.hw.ended := by simp only [showStatus, windowPut_hw_ended]
@[simp] theorem showStatus_hw_toResume (s : State) (n : Nat) : (s.showStatus n).hw.toResume = s.hw.toResume := by simp only [showStatus, windowPut_hw_toResume]
@[simp] theorem showStatus_hw_power (s : State) (n : Nat) : (s.showStatus n).hw.power = s.hw.power := by simp only [showStatus, windowPut_hw_power]

/-! ### tellHost -/

/-- What an event told may do. -/
theorem tellHost_cases (s : State) (n k c a l : Nat) : ∃ x e, s.tellHost n k c a l = s.writeEvent n e ∨
    s.tellHost n k c a l = s.setSpaceAt n x ∨ s.tellHost n k c a l = (s.setSpaceAt n x).showStatus n := by
  unfold tellHost; dsimp only; split
  · exact ⟨s.spaceAt n, _, .inl rfl⟩
  · split
    · exact ⟨_, { kind := 0, cause := 0, addr := 0, len := 0, time := 0 }, .inr (.inl rfl)⟩
    · exact ⟨_, { kind := 0, cause := 0, addr := 0, len := 0, time := 0 }, .inr (.inr rfl)⟩

@[simp] theorem tellHost_cur (s : State) (n k c a l : Nat) : (s.tellHost n k c a l).cur = s.cur := by
  obtain ⟨x, e, h | h | h⟩ := tellHost_cases s n k c a l <;> simp only [h, writeEvent_cur, setSpaceAt_cur, showStatus_cur]
@[simp] theorem tellHost_schedule (s : State) (n k c a l : Nat) : (s.tellHost n k c a l).schedule = s.schedule := by
  obtain ⟨x, e, h | h | h⟩ := tellHost_cases s n k c a l <;> simp only [h, writeEvent_schedule, setSpaceAt_schedule, showStatus_schedule]
@[simp] theorem tellHost_now (s : State) (n k c a l : Nat) : (s.tellHost n k c a l).now = s.now := by
  obtain ⟨x, e, h | h | h⟩ := tellHost_cases s n k c a l <;> simp only [h, writeEvent_now, setSpaceAt_now, showStatus_now]
@[simp] theorem tellHost_tick (s : State) (n k c a l : Nat) : (s.tellHost n k c a l).tick = s.tick := by
  obtain ⟨x, e, h | h | h⟩ := tellHost_cases s n k c a l <;> simp only [h, writeEvent_tick, setSpaceAt_tick, showStatus_tick]
@[simp] theorem tellHost_last (s : State) (n k c a l : Nat) : (s.tellHost n k c a l).last = s.last := by
  obtain ⟨x, e, h | h | h⟩ := tellHost_cases s n k c a l <;> simp only [h, writeEvent_last, setSpaceAt_last, showStatus_last]
@[simp] theorem tellHost_snap (s : State) (n k c a l : Nat) : (s.tellHost n k c a l).snap = s.snap := by
  obtain ⟨x, e, h | h | h⟩ := tellHost_cases s n k c a l <;> simp only [h, writeEvent_snap, setSpaceAt_snap, showStatus_snap]
@[simp] theorem tellHost_nextId (s : State) (n k c a l : Nat) : (s.tellHost n k c a l).nextId = s.nextId := by
  obtain ⟨x, e, h | h | h⟩ := tellHost_cases s n k c a l <;> simp only [h, writeEvent_nextId, setSpaceAt_nextId, showStatus_nextId]
@[simp] theorem tellHost_groups (s : State) (n k c a l : Nat) : (s.tellHost n k c a l).groups = s.groups := by
  obtain ⟨x, e, h | h | h⟩ := tellHost_cases s n k c a l <;> simp only [h, writeEvent_groups, setSpaceAt_groups, showStatus_groups]
@[simp] theorem tellHost_sys (s : State) (n k c a l : Nat) : (s.tellHost n k c a l).sys = s.sys := by
  obtain ⟨x, e, h | h | h⟩ := tellHost_cases s n k c a l <;> simp only [h, writeEvent_sys, setSpaceAt_sys, showStatus_sys]
@[simp] theorem tellHost_blocks (s : State) (n k c a l : Nat) : (s.tellHost n k c a l).blocks = s.blocks := by
  obtain ⟨x, e, h | h | h⟩ := tellHost_cases s n k c a l <;> simp only [h, writeEvent_blocks, setSpaceAt_blocks, showStatus_blocks]
@[simp] theorem tellHost_launches (s : State) (n k c a l : Nat) : (s.tellHost n k c a l).launches = s.launches := by
  obtain ⟨x, e, h | h | h⟩ := tellHost_cases s n k c a l <;> simp only [h, writeEvent_launches, setSpaceAt_launches, showStatus_launches]
@[simp] theorem tellHost_queues (s : State) (n k c a l : Nat) : (s.tellHost n k c a l).queues = s.queues := by
  obtain ⟨x, e, h | h | h⟩ := tellHost_cases s n k c a l <;> simp only [h, writeEvent_queues, setSpaceAt_queues, showStatus_queues]
@[simp] theorem tellHost_dispatched (s : State) (n k c a l : Nat) : (s.tellHost n k c a l).dispatched = s.dispatched := by
  obtain ⟨x, e, h | h | h⟩ := tellHost_cases s n k c a l <;> simp only [h, writeEvent_dispatched, setSpaceAt_dispatched, showStatus_dispatched]
@[simp] theorem tellHost_served (s : State) (n k c a l : Nat) : (s.tellHost n k c a l).served = s.served := by
  obtain ⟨x, e, h | h | h⟩ := tellHost_cases s n k c a l <;> simp only [h, writeEvent_served, setSpaceAt_served, showStatus_served]
@[simp] theorem tellHost_cores (s : State) (n k c a l : Nat) : (s.tellHost n k c a l).cores = s.cores := by
  obtain ⟨x, e, h | h | h⟩ := tellHost_cases s n k c a l <;> simp only [h, writeEvent_cores, setSpaceAt_cores, showStatus_cores]
@[simp] theorem tellHost_clusters (s : State) (n k c a l : Nat) : (s.tellHost n k c a l).clusters = s.clusters := by
  obtain ⟨x, e, h | h | h⟩ := tellHost_cases s n k c a l <;> simp only [h, writeEvent_clusters, setSpaceAt_clusters, showStatus_clusters]
@[simp] theorem tellHost_dies (s : State) (n k c a l : Nat) : (s.tellHost n k c a l).dies = s.dies := by
  obtain ⟨x, e, h | h | h⟩ := tellHost_cases s n k c a l <;> simp only [h, writeEvent_dies, setSpaceAt_dies, showStatus_dies]
@[simp] theorem tellHost_contexts (s : State) (n k c a l : Nat) : (s.tellHost n k c a l).contexts = s.contexts := by
  obtain ⟨x, e, h | h | h⟩ := tellHost_cases s n k c a l <;> simp only [h, writeEvent_contexts, setSpaceAt_contexts, showStatus_contexts]
@[simp] theorem tellHost_firm (s : State) (n k c a l : Nat) : (s.tellHost n k c a l).firm = s.firm := by
  obtain ⟨x, e, h | h | h⟩ := tellHost_cases s n k c a l <;> simp only [h, writeEvent_firm, setSpaceAt_firm, showStatus_firm]
@[simp] theorem tellHost_spad (s : State) (n k c a l : Nat) : (s.tellHost n k c a l).spad = s.spad := by
  obtain ⟨x, e, h | h | h⟩ := tellHost_cases s n k c a l <;> simp only [h, writeEvent_spad, setSpaceAt_spad, showStatus_spad]
@[simp] theorem tellHost_acc (s : State) (n k c a l : Nat) : (s.tellHost n k c a l).acc = s.acc := by
  obtain ⟨x, e, h | h | h⟩ := tellHost_cases s n k c a l <;> simp only [h, writeEvent_acc, setSpaceAt_acc, showStatus_acc]
@[simp] theorem tellHost_hw_partitions (s : State) (n k c a l : Nat) : (s.tellHost n k c a l).hw.partitions = s.hw.partitions := by
  obtain ⟨x, e, h | h | h⟩ := tellHost_cases s n k c a l <;> simp only [h, writeEvent_hw_partitions, setSpaceAt_hw_partitions, showStatus_hw_partitions]
@[simp] theorem tellHost_hw_frames (s : State) (n k c a l : Nat) : (s.tellHost n k c a l).hw.frames = s.hw.frames := by
  obtain ⟨x, e, h | h | h⟩ := tellHost_cases s n k c a l <;> simp only [h, writeEvent_hw_frames, setSpaceAt_hw_frames, showStatus_hw_frames]
@[simp] theorem tellHost_hw_addrMap (s : State) (n k c a l : Nat) : (s.tellHost n k c a l).hw.addrMap = s.hw.addrMap := by
  obtain ⟨x, e, h | h | h⟩ := tellHost_cases s n k c a l <;> simp only [h, writeEvent_hw_addrMap, setSpaceAt_hw_addrMap, showStatus_hw_addrMap]
@[simp] theorem tellHost_hw_frameSets (s : State) (n k c a l : Nat) : (s.tellHost n k c a l).hw.frameSets = s.hw.frameSets := by
  obtain ⟨x, e, h | h | h⟩ := tellHost_cases s n k c a l <;> simp only [h, writeEvent_hw_frameSets, setSpaceAt_hw_frameSets, showStatus_hw_frameSets]
@[simp] theorem tellHost_hw_poisoned (s : State) (n k c a l : Nat) : (s.tellHost n k c a l).hw.poisoned = s.hw.poisoned := by
  obtain ⟨x, e, h | h | h⟩ := tellHost_cases s n k c a l <;> simp only [h, writeEvent_hw_poisoned, setSpaceAt_hw_poisoned, showStatus_hw_poisoned]
@[simp] theorem tellHost_hw_tierMoves (s : State) (n k c a l : Nat) : (s.tellHost n k c a l).hw.tierMoves = s.hw.tierMoves := by
  obtain ⟨x, e, h | h | h⟩ := tellHost_cases s n k c a l <;> simp only [h, writeEvent_hw_tierMoves, setSpaceAt_hw_tierMoves, showStatus_hw_tierMoves]
@[simp] theorem tellHost_hw_frameErrors (s : State) (n k c a l : Nat) : (s.tellHost n k c a l).hw.frameErrors = s.hw.frameErrors := by
  obtain ⟨x, e, h | h | h⟩ := tellHost_cases s n k c a l <;> simp only [h, writeEvent_hw_frameErrors, setSpaceAt_hw_frameErrors, showStatus_hw_frameErrors]
@[simp] theorem tellHost_hw_counts (s : State) (n k c a l : Nat) : (s.tellHost n k c a l).hw.counts = s.hw.counts := by
  obtain ⟨x, e, h | h | h⟩ := tellHost_cases s n k c a l <;> simp only [h, writeEvent_hw_counts, setSpaceAt_hw_counts, showStatus_hw_counts]
@[simp] theorem tellHost_hw_flash (s : State) (n k c a l : Nat) : (s.tellHost n k c a l).hw.flash = s.hw.flash := by
  obtain ⟨x, e, h | h | h⟩ := tellHost_cases s n k c a l <;> simp only [h, writeEvent_hw_flash, setSpaceAt_hw_flash, showStatus_hw_flash]
@[simp] theorem tellHost_hw_fetches (s : State) (n k c a l : Nat) : (s.tellHost n k c a l).hw.fetches = s.hw.fetches := by
  obtain ⟨x, e, h | h | h⟩ := tellHost_cases s n k c a l <;> simp only [h, writeEvent_hw_fetches, setSpaceAt_hw_fetches, showStatus_hw_fetches]
@[simp] theorem tellHost_hw_checkpoints (s : State) (n k c a l : Nat) : (s.tellHost n k c a l).hw.checkpoints = s.hw.checkpoints := by
  obtain ⟨x, e, h | h | h⟩ := tellHost_cases s n k c a l <;> simp only [h, writeEvent_hw_checkpoints, setSpaceAt_hw_checkpoints, showStatus_hw_checkpoints]
@[simp] theorem tellHost_hw_pacers (s : State) (n k c a l : Nat) : (s.tellHost n k c a l).hw.pacers = s.hw.pacers := by
  obtain ⟨x, e, h | h | h⟩ := tellHost_cases s n k c a l <;> simp only [h, writeEvent_hw_pacers, setSpaceAt_hw_pacers, showStatus_hw_pacers]
@[simp] theorem tellHost_hw_budgets (s : State) (n k c a l : Nat) : (s.tellHost n k c a l).hw.budgets = s.hw.budgets := by
  obtain ⟨x, e, h | h | h⟩ := tellHost_cases s n k c a l <;> simp only [h, writeEvent_hw_budgets, setSpaceAt_hw_budgets, showStatus_hw_budgets]
@[simp] theorem tellHost_hw_turns (s : State) (n k c a l : Nat) : (s.tellHost n k c a l).hw.turns = s.hw.turns := by
  obtain ⟨x, e, h | h | h⟩ := tellHost_cases s n k c a l <;> simp only [h, writeEvent_hw_turns, setSpaceAt_hw_turns, showStatus_hw_turns]
@[simp] theorem tellHost_hw_serviceDown (s : State) (n k c a l : Nat) : (s.tellHost n k c a l).hw.serviceDown = s.hw.serviceDown := by
  obtain ⟨x, e, h | h | h⟩ := tellHost_cases s n k c a l <;> simp only [h, writeEvent_hw_serviceDown, setSpaceAt_hw_serviceDown, showStatus_hw_serviceDown]
@[simp] theorem tellHost_hw_errorLog (s : State) (n k c a l : Nat) : (s.tellHost n k c a l).hw.errorLog = s.hw.errorLog := by
  obtain ⟨x, e, h | h | h⟩ := tellHost_cases s n k c a l <;> simp only [h, writeEvent_hw_errorLog, setSpaceAt_hw_errorLog, showStatus_hw_errorLog]
@[simp] theorem tellHost_hw_reports (s : State) (n k c a l : Nat) : (s.tellHost n k c a l).hw.reports = s.hw.reports := by
  obtain ⟨x, e, h | h | h⟩ := tellHost_cases s n k c a l <;> simp only [h, writeEvent_hw_reports, setSpaceAt_hw_reports, showStatus_hw_reports]
@[simp] theorem tellHost_hw_fabricOut (s : State) (n k c a l : Nat) : (s.tellHost n k c a l).hw.fabricOut = s.hw.fabricOut := by
  obtain ⟨x, e, h | h | h⟩ := tellHost_cases s n k c a l <;> simp only [h, writeEvent_hw_fabricOut, setSpaceAt_hw_fabricOut, showStatus_hw_fabricOut]
@[simp] theorem tellHost_hw_packages (s : State) (n k c a l : Nat) : (s.tellHost n k c a l).hw.packages = s.hw.packages := by
  obtain ⟨x, e, h | h | h⟩ := tellHost_cases s n k c a l <;> simp only [h, writeEvent_hw_packages, setSpaceAt_hw_packages, showStatus_hw_packages]
@[simp] theorem tellHost_hw_imageSeqs (s : State) (n k c a l : Nat) : (s.tellHost n k c a l).hw.imageSeqs = s.hw.imageSeqs := by
  obtain ⟨x, e, h | h | h⟩ := tellHost_cases s n k c a l <;> simp only [h, writeEvent_hw_imageSeqs, setSpaceAt_hw_imageSeqs, showStatus_hw_imageSeqs]
@[simp] theorem tellHost_hw_ended (s : State) (n k c a l : Nat) : (s.tellHost n k c a l).hw.ended = s.hw.ended := by
  obtain ⟨x, e, h | h | h⟩ := tellHost_cases s n k c a l <;> simp only [h, writeEvent_hw_ended, setSpaceAt_hw_ended, showStatus_hw_ended]
@[simp] theorem tellHost_hw_toResume (s : State) (n k c a l : Nat) : (s.tellHost n k c a l).hw.toResume = s.hw.toResume := by
  obtain ⟨x, e, h | h | h⟩ := tellHost_cases s n k c a l <;> simp only [h, writeEvent_hw_toResume, setSpaceAt_hw_toResume, showStatus_hw_toResume]
@[simp] theorem tellHost_hw_power (s : State) (n k c a l : Nat) : (s.tellHost n k c a l).hw.power = s.hw.power := by
  obtain ⟨x, e, h | h | h⟩ := tellHost_cases s n k c a l <;> simp only [h, writeEvent_hw_power, setSpaceAt_hw_power, showStatus_hw_power]

/-! ### setCommand -/

@[simp] theorem setCommand_cur (s : State) (n : Nat) (c : Command) : (s.setCommand n c).cur = s.cur := rfl
@[simp] theorem setCommand_schedule (s : State) (n : Nat) (c : Command) : (s.setCommand n c).schedule = s.schedule := rfl
@[simp] theorem setCommand_now (s : State) (n : Nat) (c : Command) : (s.setCommand n c).now = s.now := rfl
@[simp] theorem setCommand_tick (s : State) (n : Nat) (c : Command) : (s.setCommand n c).tick = s.tick := rfl
@[simp] theorem setCommand_last (s : State) (n : Nat) (c : Command) : (s.setCommand n c).last = s.last := rfl
@[simp] theorem setCommand_snap (s : State) (n : Nat) (c : Command) : (s.setCommand n c).snap = s.snap := rfl
@[simp] theorem setCommand_nextId (s : State) (n : Nat) (c : Command) : (s.setCommand n c).nextId = s.nextId := rfl
@[simp] theorem setCommand_groups (s : State) (n : Nat) (c : Command) : (s.setCommand n c).groups = s.groups := rfl
@[simp] theorem setCommand_sys (s : State) (n : Nat) (c : Command) : (s.setCommand n c).sys = s.sys := rfl
@[simp] theorem setCommand_blocks (s : State) (n : Nat) (c : Command) : (s.setCommand n c).blocks = s.blocks := rfl
@[simp] theorem setCommand_launches (s : State) (n : Nat) (c : Command) : (s.setCommand n c).launches = s.launches := rfl
@[simp] theorem setCommand_queues (s : State) (n : Nat) (c : Command) : (s.setCommand n c).queues = s.queues := rfl
@[simp] theorem setCommand_dispatched (s : State) (n : Nat) (c : Command) : (s.setCommand n c).dispatched = s.dispatched := rfl
@[simp] theorem setCommand_served (s : State) (n : Nat) (c : Command) : (s.setCommand n c).served = s.served := rfl
@[simp] theorem setCommand_cores (s : State) (n : Nat) (c : Command) : (s.setCommand n c).cores = s.cores := rfl
@[simp] theorem setCommand_clusters (s : State) (n : Nat) (c : Command) : (s.setCommand n c).clusters = s.clusters := rfl
@[simp] theorem setCommand_dies (s : State) (n : Nat) (c : Command) : (s.setCommand n c).dies = s.dies := rfl
@[simp] theorem setCommand_contexts (s : State) (n : Nat) (c : Command) : (s.setCommand n c).contexts = s.contexts := rfl
@[simp] theorem setCommand_firm (s : State) (n : Nat) (c : Command) : (s.setCommand n c).firm = s.firm := rfl
@[simp] theorem setCommand_mem (s : State) (n : Nat) (c : Command) : (s.setCommand n c).mem = s.mem := rfl
@[simp] theorem setCommand_spad (s : State) (n : Nat) (c : Command) : (s.setCommand n c).spad = s.spad := rfl
@[simp] theorem setCommand_acc (s : State) (n : Nat) (c : Command) : (s.setCommand n c).acc = s.acc := rfl
@[simp] theorem setCommand_hw_partitions (s : State) (n : Nat) (c : Command) : (s.setCommand n c).hw.partitions = s.hw.partitions := rfl
@[simp] theorem setCommand_hw_frames (s : State) (n : Nat) (c : Command) : (s.setCommand n c).hw.frames = s.hw.frames := rfl
@[simp] theorem setCommand_hw_addrMap (s : State) (n : Nat) (c : Command) : (s.setCommand n c).hw.addrMap = s.hw.addrMap := rfl
@[simp] theorem setCommand_hw_frameSets (s : State) (n : Nat) (c : Command) : (s.setCommand n c).hw.frameSets = s.hw.frameSets := rfl
@[simp] theorem setCommand_hw_poisoned (s : State) (n : Nat) (c : Command) : (s.setCommand n c).hw.poisoned = s.hw.poisoned := rfl
@[simp] theorem setCommand_hw_tierMoves (s : State) (n : Nat) (c : Command) : (s.setCommand n c).hw.tierMoves = s.hw.tierMoves := rfl
@[simp] theorem setCommand_hw_frameErrors (s : State) (n : Nat) (c : Command) : (s.setCommand n c).hw.frameErrors = s.hw.frameErrors := rfl
@[simp] theorem setCommand_hw_counts (s : State) (n : Nat) (c : Command) : (s.setCommand n c).hw.counts = s.hw.counts := rfl
@[simp] theorem setCommand_hw_hostOut (s : State) (n : Nat) (c : Command) : (s.setCommand n c).hw.hostOut = s.hw.hostOut := rfl
@[simp] theorem setCommand_hw_flash (s : State) (n : Nat) (c : Command) : (s.setCommand n c).hw.flash = s.hw.flash := rfl
@[simp] theorem setCommand_hw_fetches (s : State) (n : Nat) (c : Command) : (s.setCommand n c).hw.fetches = s.hw.fetches := rfl
@[simp] theorem setCommand_hw_checkpoints (s : State) (n : Nat) (c : Command) : (s.setCommand n c).hw.checkpoints = s.hw.checkpoints := rfl
@[simp] theorem setCommand_hw_pacers (s : State) (n : Nat) (c : Command) : (s.setCommand n c).hw.pacers = s.hw.pacers := rfl
@[simp] theorem setCommand_hw_budgets (s : State) (n : Nat) (c : Command) : (s.setCommand n c).hw.budgets = s.hw.budgets := rfl
@[simp] theorem setCommand_hw_turns (s : State) (n : Nat) (c : Command) : (s.setCommand n c).hw.turns = s.hw.turns := rfl
@[simp] theorem setCommand_hw_serviceDown (s : State) (n : Nat) (c : Command) : (s.setCommand n c).hw.serviceDown = s.hw.serviceDown := rfl
@[simp] theorem setCommand_hw_errorLog (s : State) (n : Nat) (c : Command) : (s.setCommand n c).hw.errorLog = s.hw.errorLog := rfl
@[simp] theorem setCommand_hw_reports (s : State) (n : Nat) (c : Command) : (s.setCommand n c).hw.reports = s.hw.reports := rfl
@[simp] theorem setCommand_hw_fabricOut (s : State) (n : Nat) (c : Command) : (s.setCommand n c).hw.fabricOut = s.hw.fabricOut := rfl
@[simp] theorem setCommand_hw_packages (s : State) (n : Nat) (c : Command) : (s.setCommand n c).hw.packages = s.hw.packages := rfl
@[simp] theorem setCommand_hw_imageSeqs (s : State) (n : Nat) (c : Command) : (s.setCommand n c).hw.imageSeqs = s.hw.imageSeqs := rfl
@[simp] theorem setCommand_hw_ended (s : State) (n : Nat) (c : Command) : (s.setCommand n c).hw.ended = s.hw.ended := rfl
@[simp] theorem setCommand_hw_toResume (s : State) (n : Nat) (c : Command) : (s.setCommand n c).hw.toResume = s.hw.toResume := rfl
@[simp] theorem setCommand_hw_power (s : State) (n : Nat) (c : Command) : (s.setCommand n c).hw.power = s.hw.power := rfl

/-! ### finishCommand -/

/-- What the end of a command may do. -/
theorem finishCommand_cases (s : State) (n : Nat) (q : Word) (st r : Nat) : s.finishCommand n q st r = s ∨ ∃ d x o l,
    s.finishCommand n q st r = ((((s.setCommand n d).setSpaceAt n x).windowPut n o l).showStatus n) ∨
    ∃ m, s.finishCommand n q st r = ((((s.setCommand n d).setSpaceAt n x).windowPut n o l).showStatus n).sendHost m := by
  unfold finishCommand; split
  · exact .inl rfl
  · split
    · exact .inl rfl
    · dsimp only; split
      · exact .inr ⟨_, _, _, _, .inr ⟨_, rfl⟩⟩
      · exact .inr ⟨_, _, _, _, .inl rfl⟩

@[simp] theorem finishCommand_cur (s : State) (n : Nat) (q : Word) (st r : Nat) : (s.finishCommand n q st r).cur = s.cur := by
  obtain h | ⟨d, x, o, l, h | ⟨m, h⟩⟩ := finishCommand_cases s n q st r <;>
    simp only [h, setCommand_cur, setSpaceAt_cur, windowPut_cur, showStatus_cur, sendHost_cur]
@[simp] theorem finishCommand_schedule (s : State) (n : Nat) (q : Word) (st r : Nat) : (s.finishCommand n q st r).schedule = s.schedule := by
  obtain h | ⟨d, x, o, l, h | ⟨m, h⟩⟩ := finishCommand_cases s n q st r <;>
    simp only [h, setCommand_schedule, setSpaceAt_schedule, windowPut_schedule, showStatus_schedule, sendHost_schedule]
@[simp] theorem finishCommand_now (s : State) (n : Nat) (q : Word) (st r : Nat) : (s.finishCommand n q st r).now = s.now := by
  obtain h | ⟨d, x, o, l, h | ⟨m, h⟩⟩ := finishCommand_cases s n q st r <;>
    simp only [h, setCommand_now, setSpaceAt_now, windowPut_now, showStatus_now, sendHost_now]
@[simp] theorem finishCommand_tick (s : State) (n : Nat) (q : Word) (st r : Nat) : (s.finishCommand n q st r).tick = s.tick := by
  obtain h | ⟨d, x, o, l, h | ⟨m, h⟩⟩ := finishCommand_cases s n q st r <;>
    simp only [h, setCommand_tick, setSpaceAt_tick, windowPut_tick, showStatus_tick, sendHost_tick]
@[simp] theorem finishCommand_last (s : State) (n : Nat) (q : Word) (st r : Nat) : (s.finishCommand n q st r).last = s.last := by
  obtain h | ⟨d, x, o, l, h | ⟨m, h⟩⟩ := finishCommand_cases s n q st r <;>
    simp only [h, setCommand_last, setSpaceAt_last, windowPut_last, showStatus_last, sendHost_last]
@[simp] theorem finishCommand_snap (s : State) (n : Nat) (q : Word) (st r : Nat) : (s.finishCommand n q st r).snap = s.snap := by
  obtain h | ⟨d, x, o, l, h | ⟨m, h⟩⟩ := finishCommand_cases s n q st r <;>
    simp only [h, setCommand_snap, setSpaceAt_snap, windowPut_snap, showStatus_snap, sendHost_snap]
@[simp] theorem finishCommand_nextId (s : State) (n : Nat) (q : Word) (st r : Nat) : (s.finishCommand n q st r).nextId = s.nextId := by
  obtain h | ⟨d, x, o, l, h | ⟨m, h⟩⟩ := finishCommand_cases s n q st r <;>
    simp only [h, setCommand_nextId, setSpaceAt_nextId, windowPut_nextId, showStatus_nextId, sendHost_nextId]
@[simp] theorem finishCommand_groups (s : State) (n : Nat) (q : Word) (st r : Nat) : (s.finishCommand n q st r).groups = s.groups := by
  obtain h | ⟨d, x, o, l, h | ⟨m, h⟩⟩ := finishCommand_cases s n q st r <;>
    simp only [h, setCommand_groups, setSpaceAt_groups, windowPut_groups, showStatus_groups, sendHost_groups]
@[simp] theorem finishCommand_sys (s : State) (n : Nat) (q : Word) (st r : Nat) : (s.finishCommand n q st r).sys = s.sys := by
  obtain h | ⟨d, x, o, l, h | ⟨m, h⟩⟩ := finishCommand_cases s n q st r <;>
    simp only [h, setCommand_sys, setSpaceAt_sys, windowPut_sys, showStatus_sys, sendHost_sys]
@[simp] theorem finishCommand_blocks (s : State) (n : Nat) (q : Word) (st r : Nat) : (s.finishCommand n q st r).blocks = s.blocks := by
  obtain h | ⟨d, x, o, l, h | ⟨m, h⟩⟩ := finishCommand_cases s n q st r <;>
    simp only [h, setCommand_blocks, setSpaceAt_blocks, windowPut_blocks, showStatus_blocks, sendHost_blocks]
@[simp] theorem finishCommand_launches (s : State) (n : Nat) (q : Word) (st r : Nat) : (s.finishCommand n q st r).launches = s.launches := by
  obtain h | ⟨d, x, o, l, h | ⟨m, h⟩⟩ := finishCommand_cases s n q st r <;>
    simp only [h, setCommand_launches, setSpaceAt_launches, windowPut_launches, showStatus_launches, sendHost_launches]
@[simp] theorem finishCommand_queues (s : State) (n : Nat) (q : Word) (st r : Nat) : (s.finishCommand n q st r).queues = s.queues := by
  obtain h | ⟨d, x, o, l, h | ⟨m, h⟩⟩ := finishCommand_cases s n q st r <;>
    simp only [h, setCommand_queues, setSpaceAt_queues, windowPut_queues, showStatus_queues, sendHost_queues]
@[simp] theorem finishCommand_dispatched (s : State) (n : Nat) (q : Word) (st r : Nat) : (s.finishCommand n q st r).dispatched = s.dispatched := by
  obtain h | ⟨d, x, o, l, h | ⟨m, h⟩⟩ := finishCommand_cases s n q st r <;>
    simp only [h, setCommand_dispatched, setSpaceAt_dispatched, windowPut_dispatched, showStatus_dispatched, sendHost_dispatched]
@[simp] theorem finishCommand_served (s : State) (n : Nat) (q : Word) (st r : Nat) : (s.finishCommand n q st r).served = s.served := by
  obtain h | ⟨d, x, o, l, h | ⟨m, h⟩⟩ := finishCommand_cases s n q st r <;>
    simp only [h, setCommand_served, setSpaceAt_served, windowPut_served, showStatus_served, sendHost_served]
@[simp] theorem finishCommand_cores (s : State) (n : Nat) (q : Word) (st r : Nat) : (s.finishCommand n q st r).cores = s.cores := by
  obtain h | ⟨d, x, o, l, h | ⟨m, h⟩⟩ := finishCommand_cases s n q st r <;>
    simp only [h, setCommand_cores, setSpaceAt_cores, windowPut_cores, showStatus_cores, sendHost_cores]
@[simp] theorem finishCommand_clusters (s : State) (n : Nat) (q : Word) (st r : Nat) : (s.finishCommand n q st r).clusters = s.clusters := by
  obtain h | ⟨d, x, o, l, h | ⟨m, h⟩⟩ := finishCommand_cases s n q st r <;>
    simp only [h, setCommand_clusters, setSpaceAt_clusters, windowPut_clusters, showStatus_clusters, sendHost_clusters]
@[simp] theorem finishCommand_dies (s : State) (n : Nat) (q : Word) (st r : Nat) : (s.finishCommand n q st r).dies = s.dies := by
  obtain h | ⟨d, x, o, l, h | ⟨m, h⟩⟩ := finishCommand_cases s n q st r <;>
    simp only [h, setCommand_dies, setSpaceAt_dies, windowPut_dies, showStatus_dies, sendHost_dies]
@[simp] theorem finishCommand_contexts (s : State) (n : Nat) (q : Word) (st r : Nat) : (s.finishCommand n q st r).contexts = s.contexts := by
  obtain h | ⟨d, x, o, l, h | ⟨m, h⟩⟩ := finishCommand_cases s n q st r <;>
    simp only [h, setCommand_contexts, setSpaceAt_contexts, windowPut_contexts, showStatus_contexts, sendHost_contexts]
@[simp] theorem finishCommand_firm (s : State) (n : Nat) (q : Word) (st r : Nat) : (s.finishCommand n q st r).firm = s.firm := by
  obtain h | ⟨d, x, o, l, h | ⟨m, h⟩⟩ := finishCommand_cases s n q st r <;>
    simp only [h, setCommand_firm, setSpaceAt_firm, windowPut_firm, showStatus_firm, sendHost_firm]
@[simp] theorem finishCommand_spad (s : State) (n : Nat) (q : Word) (st r : Nat) : (s.finishCommand n q st r).spad = s.spad := by
  obtain h | ⟨d, x, o, l, h | ⟨m, h⟩⟩ := finishCommand_cases s n q st r <;>
    simp only [h, setCommand_spad, setSpaceAt_spad, windowPut_spad, showStatus_spad, sendHost_spad]
@[simp] theorem finishCommand_acc (s : State) (n : Nat) (q : Word) (st r : Nat) : (s.finishCommand n q st r).acc = s.acc := by
  obtain h | ⟨d, x, o, l, h | ⟨m, h⟩⟩ := finishCommand_cases s n q st r <;>
    simp only [h, setCommand_acc, setSpaceAt_acc, windowPut_acc, showStatus_acc, sendHost_acc]
@[simp] theorem finishCommand_hw_partitions (s : State) (n : Nat) (q : Word) (st r : Nat) : (s.finishCommand n q st r).hw.partitions = s.hw.partitions := by
  obtain h | ⟨d, x, o, l, h | ⟨m, h⟩⟩ := finishCommand_cases s n q st r <;>
    simp only [h, setCommand_hw_partitions, setSpaceAt_hw_partitions, windowPut_hw_partitions, showStatus_hw_partitions, sendHost_hw_partitions]
@[simp] theorem finishCommand_hw_frames (s : State) (n : Nat) (q : Word) (st r : Nat) : (s.finishCommand n q st r).hw.frames = s.hw.frames := by
  obtain h | ⟨d, x, o, l, h | ⟨m, h⟩⟩ := finishCommand_cases s n q st r <;>
    simp only [h, setCommand_hw_frames, setSpaceAt_hw_frames, windowPut_hw_frames, showStatus_hw_frames, sendHost_hw_frames]
@[simp] theorem finishCommand_hw_addrMap (s : State) (n : Nat) (q : Word) (st r : Nat) : (s.finishCommand n q st r).hw.addrMap = s.hw.addrMap := by
  obtain h | ⟨d, x, o, l, h | ⟨m, h⟩⟩ := finishCommand_cases s n q st r <;>
    simp only [h, setCommand_hw_addrMap, setSpaceAt_hw_addrMap, windowPut_hw_addrMap, showStatus_hw_addrMap, sendHost_hw_addrMap]
@[simp] theorem finishCommand_hw_frameSets (s : State) (n : Nat) (q : Word) (st r : Nat) : (s.finishCommand n q st r).hw.frameSets = s.hw.frameSets := by
  obtain h | ⟨d, x, o, l, h | ⟨m, h⟩⟩ := finishCommand_cases s n q st r <;>
    simp only [h, setCommand_hw_frameSets, setSpaceAt_hw_frameSets, windowPut_hw_frameSets, showStatus_hw_frameSets, sendHost_hw_frameSets]
@[simp] theorem finishCommand_hw_poisoned (s : State) (n : Nat) (q : Word) (st r : Nat) : (s.finishCommand n q st r).hw.poisoned = s.hw.poisoned := by
  obtain h | ⟨d, x, o, l, h | ⟨m, h⟩⟩ := finishCommand_cases s n q st r <;>
    simp only [h, setCommand_hw_poisoned, setSpaceAt_hw_poisoned, windowPut_hw_poisoned, showStatus_hw_poisoned, sendHost_hw_poisoned]
@[simp] theorem finishCommand_hw_tierMoves (s : State) (n : Nat) (q : Word) (st r : Nat) : (s.finishCommand n q st r).hw.tierMoves = s.hw.tierMoves := by
  obtain h | ⟨d, x, o, l, h | ⟨m, h⟩⟩ := finishCommand_cases s n q st r <;>
    simp only [h, setCommand_hw_tierMoves, setSpaceAt_hw_tierMoves, windowPut_hw_tierMoves, showStatus_hw_tierMoves, sendHost_hw_tierMoves]
@[simp] theorem finishCommand_hw_frameErrors (s : State) (n : Nat) (q : Word) (st r : Nat) : (s.finishCommand n q st r).hw.frameErrors = s.hw.frameErrors := by
  obtain h | ⟨d, x, o, l, h | ⟨m, h⟩⟩ := finishCommand_cases s n q st r <;>
    simp only [h, setCommand_hw_frameErrors, setSpaceAt_hw_frameErrors, windowPut_hw_frameErrors, showStatus_hw_frameErrors, sendHost_hw_frameErrors]
@[simp] theorem finishCommand_hw_counts (s : State) (n : Nat) (q : Word) (st r : Nat) : (s.finishCommand n q st r).hw.counts = s.hw.counts := by
  obtain h | ⟨d, x, o, l, h | ⟨m, h⟩⟩ := finishCommand_cases s n q st r <;>
    simp only [h, setCommand_hw_counts, setSpaceAt_hw_counts, windowPut_hw_counts, showStatus_hw_counts, sendHost_hw_counts]
@[simp] theorem finishCommand_hw_flash (s : State) (n : Nat) (q : Word) (st r : Nat) : (s.finishCommand n q st r).hw.flash = s.hw.flash := by
  obtain h | ⟨d, x, o, l, h | ⟨m, h⟩⟩ := finishCommand_cases s n q st r <;>
    simp only [h, setCommand_hw_flash, setSpaceAt_hw_flash, windowPut_hw_flash, showStatus_hw_flash, sendHost_hw_flash]
@[simp] theorem finishCommand_hw_fetches (s : State) (n : Nat) (q : Word) (st r : Nat) : (s.finishCommand n q st r).hw.fetches = s.hw.fetches := by
  obtain h | ⟨d, x, o, l, h | ⟨m, h⟩⟩ := finishCommand_cases s n q st r <;>
    simp only [h, setCommand_hw_fetches, setSpaceAt_hw_fetches, windowPut_hw_fetches, showStatus_hw_fetches, sendHost_hw_fetches]
@[simp] theorem finishCommand_hw_checkpoints (s : State) (n : Nat) (q : Word) (st r : Nat) : (s.finishCommand n q st r).hw.checkpoints = s.hw.checkpoints := by
  obtain h | ⟨d, x, o, l, h | ⟨m, h⟩⟩ := finishCommand_cases s n q st r <;>
    simp only [h, setCommand_hw_checkpoints, setSpaceAt_hw_checkpoints, windowPut_hw_checkpoints, showStatus_hw_checkpoints, sendHost_hw_checkpoints]
@[simp] theorem finishCommand_hw_pacers (s : State) (n : Nat) (q : Word) (st r : Nat) : (s.finishCommand n q st r).hw.pacers = s.hw.pacers := by
  obtain h | ⟨d, x, o, l, h | ⟨m, h⟩⟩ := finishCommand_cases s n q st r <;>
    simp only [h, setCommand_hw_pacers, setSpaceAt_hw_pacers, windowPut_hw_pacers, showStatus_hw_pacers, sendHost_hw_pacers]
@[simp] theorem finishCommand_hw_budgets (s : State) (n : Nat) (q : Word) (st r : Nat) : (s.finishCommand n q st r).hw.budgets = s.hw.budgets := by
  obtain h | ⟨d, x, o, l, h | ⟨m, h⟩⟩ := finishCommand_cases s n q st r <;>
    simp only [h, setCommand_hw_budgets, setSpaceAt_hw_budgets, windowPut_hw_budgets, showStatus_hw_budgets, sendHost_hw_budgets]
@[simp] theorem finishCommand_hw_turns (s : State) (n : Nat) (q : Word) (st r : Nat) : (s.finishCommand n q st r).hw.turns = s.hw.turns := by
  obtain h | ⟨d, x, o, l, h | ⟨m, h⟩⟩ := finishCommand_cases s n q st r <;>
    simp only [h, setCommand_hw_turns, setSpaceAt_hw_turns, windowPut_hw_turns, showStatus_hw_turns, sendHost_hw_turns]
@[simp] theorem finishCommand_hw_serviceDown (s : State) (n : Nat) (q : Word) (st r : Nat) : (s.finishCommand n q st r).hw.serviceDown = s.hw.serviceDown := by
  obtain h | ⟨d, x, o, l, h | ⟨m, h⟩⟩ := finishCommand_cases s n q st r <;>
    simp only [h, setCommand_hw_serviceDown, setSpaceAt_hw_serviceDown, windowPut_hw_serviceDown, showStatus_hw_serviceDown, sendHost_hw_serviceDown]
@[simp] theorem finishCommand_hw_errorLog (s : State) (n : Nat) (q : Word) (st r : Nat) : (s.finishCommand n q st r).hw.errorLog = s.hw.errorLog := by
  obtain h | ⟨d, x, o, l, h | ⟨m, h⟩⟩ := finishCommand_cases s n q st r <;>
    simp only [h, setCommand_hw_errorLog, setSpaceAt_hw_errorLog, windowPut_hw_errorLog, showStatus_hw_errorLog, sendHost_hw_errorLog]
@[simp] theorem finishCommand_hw_reports (s : State) (n : Nat) (q : Word) (st r : Nat) : (s.finishCommand n q st r).hw.reports = s.hw.reports := by
  obtain h | ⟨d, x, o, l, h | ⟨m, h⟩⟩ := finishCommand_cases s n q st r <;>
    simp only [h, setCommand_hw_reports, setSpaceAt_hw_reports, windowPut_hw_reports, showStatus_hw_reports, sendHost_hw_reports]
@[simp] theorem finishCommand_hw_fabricOut (s : State) (n : Nat) (q : Word) (st r : Nat) : (s.finishCommand n q st r).hw.fabricOut = s.hw.fabricOut := by
  obtain h | ⟨d, x, o, l, h | ⟨m, h⟩⟩ := finishCommand_cases s n q st r <;>
    simp only [h, setCommand_hw_fabricOut, setSpaceAt_hw_fabricOut, windowPut_hw_fabricOut, showStatus_hw_fabricOut, sendHost_hw_fabricOut]
@[simp] theorem finishCommand_hw_packages (s : State) (n : Nat) (q : Word) (st r : Nat) : (s.finishCommand n q st r).hw.packages = s.hw.packages := by
  obtain h | ⟨d, x, o, l, h | ⟨m, h⟩⟩ := finishCommand_cases s n q st r <;>
    simp only [h, setCommand_hw_packages, setSpaceAt_hw_packages, windowPut_hw_packages, showStatus_hw_packages, sendHost_hw_packages]
@[simp] theorem finishCommand_hw_imageSeqs (s : State) (n : Nat) (q : Word) (st r : Nat) : (s.finishCommand n q st r).hw.imageSeqs = s.hw.imageSeqs := by
  obtain h | ⟨d, x, o, l, h | ⟨m, h⟩⟩ := finishCommand_cases s n q st r <;>
    simp only [h, setCommand_hw_imageSeqs, setSpaceAt_hw_imageSeqs, windowPut_hw_imageSeqs, showStatus_hw_imageSeqs, sendHost_hw_imageSeqs]
@[simp] theorem finishCommand_hw_ended (s : State) (n : Nat) (q : Word) (st r : Nat) : (s.finishCommand n q st r).hw.ended = s.hw.ended := by
  obtain h | ⟨d, x, o, l, h | ⟨m, h⟩⟩ := finishCommand_cases s n q st r <;>
    simp only [h, setCommand_hw_ended, setSpaceAt_hw_ended, windowPut_hw_ended, showStatus_hw_ended, sendHost_hw_ended]
@[simp] theorem finishCommand_hw_toResume (s : State) (n : Nat) (q : Word) (st r : Nat) : (s.finishCommand n q st r).hw.toResume = s.hw.toResume := by
  obtain h | ⟨d, x, o, l, h | ⟨m, h⟩⟩ := finishCommand_cases s n q st r <;>
    simp only [h, setCommand_hw_toResume, setSpaceAt_hw_toResume, windowPut_hw_toResume, showStatus_hw_toResume, sendHost_hw_toResume]
@[simp] theorem finishCommand_hw_power (s : State) (n : Nat) (q : Word) (st r : Nat) : (s.finishCommand n q st r).hw.power = s.hw.power := by
  obtain h | ⟨d, x, o, l, h | ⟨m, h⟩⟩ := finishCommand_cases s n q st r <;>
    simp only [h, setCommand_hw_power, setSpaceAt_hw_power, windowPut_hw_power, showStatus_hw_power, sendHost_hw_power]

/-! ### ringPut -/

@[simp] theorem ringPut_cur (s : State) (n k : Nat) (g : Ring) (l : List Byte) : (s.ringPut n k g l).cur = s.cur := by simp only [ringPut, windowPut_cur, setSpaceAt_cur]
@[simp] theorem ringPut_schedule (s : State) (n k : Nat) (g : Ring) (l : List Byte) : (s.ringPut n k g l).schedule = s.schedule := by simp only [ringPut, windowPut_schedule, setSpaceAt_schedule]
@[simp] theorem ringPut_now (s : State) (n k : Nat) (g : Ring) (l : List Byte) : (s.ringPut n k g l).now = s.now := by simp only [ringPut, windowPut_now, setSpaceAt_now]
@[simp] theorem ringPut_tick (s : State) (n k : Nat) (g : Ring) (l : List Byte) : (s.ringPut n k g l).tick = s.tick := by simp only [ringPut, windowPut_tick, setSpaceAt_tick]
@[simp] theorem ringPut_last (s : State) (n k : Nat) (g : Ring) (l : List Byte) : (s.ringPut n k g l).last = s.last := by simp only [ringPut, windowPut_last, setSpaceAt_last]
@[simp] theorem ringPut_snap (s : State) (n k : Nat) (g : Ring) (l : List Byte) : (s.ringPut n k g l).snap = s.snap := by simp only [ringPut, windowPut_snap, setSpaceAt_snap]
@[simp] theorem ringPut_nextId (s : State) (n k : Nat) (g : Ring) (l : List Byte) : (s.ringPut n k g l).nextId = s.nextId := by simp only [ringPut, windowPut_nextId, setSpaceAt_nextId]
@[simp] theorem ringPut_groups (s : State) (n k : Nat) (g : Ring) (l : List Byte) : (s.ringPut n k g l).groups = s.groups := by simp only [ringPut, windowPut_groups, setSpaceAt_groups]
@[simp] theorem ringPut_sys (s : State) (n k : Nat) (g : Ring) (l : List Byte) : (s.ringPut n k g l).sys = s.sys := by simp only [ringPut, windowPut_sys, setSpaceAt_sys]
@[simp] theorem ringPut_blocks (s : State) (n k : Nat) (g : Ring) (l : List Byte) : (s.ringPut n k g l).blocks = s.blocks := by simp only [ringPut, windowPut_blocks, setSpaceAt_blocks]
@[simp] theorem ringPut_launches (s : State) (n k : Nat) (g : Ring) (l : List Byte) : (s.ringPut n k g l).launches = s.launches := by simp only [ringPut, windowPut_launches, setSpaceAt_launches]
@[simp] theorem ringPut_queues (s : State) (n k : Nat) (g : Ring) (l : List Byte) : (s.ringPut n k g l).queues = s.queues := by simp only [ringPut, windowPut_queues, setSpaceAt_queues]
@[simp] theorem ringPut_dispatched (s : State) (n k : Nat) (g : Ring) (l : List Byte) : (s.ringPut n k g l).dispatched = s.dispatched := by simp only [ringPut, windowPut_dispatched, setSpaceAt_dispatched]
@[simp] theorem ringPut_served (s : State) (n k : Nat) (g : Ring) (l : List Byte) : (s.ringPut n k g l).served = s.served := by simp only [ringPut, windowPut_served, setSpaceAt_served]
@[simp] theorem ringPut_cores (s : State) (n k : Nat) (g : Ring) (l : List Byte) : (s.ringPut n k g l).cores = s.cores := by simp only [ringPut, windowPut_cores, setSpaceAt_cores]
@[simp] theorem ringPut_clusters (s : State) (n k : Nat) (g : Ring) (l : List Byte) : (s.ringPut n k g l).clusters = s.clusters := by simp only [ringPut, windowPut_clusters, setSpaceAt_clusters]
@[simp] theorem ringPut_dies (s : State) (n k : Nat) (g : Ring) (l : List Byte) : (s.ringPut n k g l).dies = s.dies := by simp only [ringPut, windowPut_dies, setSpaceAt_dies]
@[simp] theorem ringPut_contexts (s : State) (n k : Nat) (g : Ring) (l : List Byte) : (s.ringPut n k g l).contexts = s.contexts := by simp only [ringPut, windowPut_contexts, setSpaceAt_contexts]
@[simp] theorem ringPut_firm (s : State) (n k : Nat) (g : Ring) (l : List Byte) : (s.ringPut n k g l).firm = s.firm := by simp only [ringPut, windowPut_firm, setSpaceAt_firm]
@[simp] theorem ringPut_spad (s : State) (n k : Nat) (g : Ring) (l : List Byte) : (s.ringPut n k g l).spad = s.spad := by simp only [ringPut, windowPut_spad, setSpaceAt_spad]
@[simp] theorem ringPut_acc (s : State) (n k : Nat) (g : Ring) (l : List Byte) : (s.ringPut n k g l).acc = s.acc := by simp only [ringPut, windowPut_acc, setSpaceAt_acc]
@[simp] theorem ringPut_hw_partitions (s : State) (n k : Nat) (g : Ring) (l : List Byte) : (s.ringPut n k g l).hw.partitions = s.hw.partitions := by simp only [ringPut, windowPut_hw_partitions, setSpaceAt_hw_partitions]
@[simp] theorem ringPut_hw_frames (s : State) (n k : Nat) (g : Ring) (l : List Byte) : (s.ringPut n k g l).hw.frames = s.hw.frames := by simp only [ringPut, windowPut_hw_frames, setSpaceAt_hw_frames]
@[simp] theorem ringPut_hw_addrMap (s : State) (n k : Nat) (g : Ring) (l : List Byte) : (s.ringPut n k g l).hw.addrMap = s.hw.addrMap := by simp only [ringPut, windowPut_hw_addrMap, setSpaceAt_hw_addrMap]
@[simp] theorem ringPut_hw_frameSets (s : State) (n k : Nat) (g : Ring) (l : List Byte) : (s.ringPut n k g l).hw.frameSets = s.hw.frameSets := by simp only [ringPut, windowPut_hw_frameSets, setSpaceAt_hw_frameSets]
@[simp] theorem ringPut_hw_poisoned (s : State) (n k : Nat) (g : Ring) (l : List Byte) : (s.ringPut n k g l).hw.poisoned = s.hw.poisoned := by simp only [ringPut, windowPut_hw_poisoned, setSpaceAt_hw_poisoned]
@[simp] theorem ringPut_hw_tierMoves (s : State) (n k : Nat) (g : Ring) (l : List Byte) : (s.ringPut n k g l).hw.tierMoves = s.hw.tierMoves := by simp only [ringPut, windowPut_hw_tierMoves, setSpaceAt_hw_tierMoves]
@[simp] theorem ringPut_hw_frameErrors (s : State) (n k : Nat) (g : Ring) (l : List Byte) : (s.ringPut n k g l).hw.frameErrors = s.hw.frameErrors := by simp only [ringPut, windowPut_hw_frameErrors, setSpaceAt_hw_frameErrors]
@[simp] theorem ringPut_hw_counts (s : State) (n k : Nat) (g : Ring) (l : List Byte) : (s.ringPut n k g l).hw.counts = s.hw.counts := by simp only [ringPut, windowPut_hw_counts, setSpaceAt_hw_counts]
@[simp] theorem ringPut_hw_flash (s : State) (n k : Nat) (g : Ring) (l : List Byte) : (s.ringPut n k g l).hw.flash = s.hw.flash := by simp only [ringPut, windowPut_hw_flash, setSpaceAt_hw_flash]
@[simp] theorem ringPut_hw_fetches (s : State) (n k : Nat) (g : Ring) (l : List Byte) : (s.ringPut n k g l).hw.fetches = s.hw.fetches := by simp only [ringPut, windowPut_hw_fetches, setSpaceAt_hw_fetches]
@[simp] theorem ringPut_hw_checkpoints (s : State) (n k : Nat) (g : Ring) (l : List Byte) : (s.ringPut n k g l).hw.checkpoints = s.hw.checkpoints := by simp only [ringPut, windowPut_hw_checkpoints, setSpaceAt_hw_checkpoints]
@[simp] theorem ringPut_hw_pacers (s : State) (n k : Nat) (g : Ring) (l : List Byte) : (s.ringPut n k g l).hw.pacers = s.hw.pacers := by simp only [ringPut, windowPut_hw_pacers, setSpaceAt_hw_pacers]
@[simp] theorem ringPut_hw_budgets (s : State) (n k : Nat) (g : Ring) (l : List Byte) : (s.ringPut n k g l).hw.budgets = s.hw.budgets := by simp only [ringPut, windowPut_hw_budgets, setSpaceAt_hw_budgets]
@[simp] theorem ringPut_hw_turns (s : State) (n k : Nat) (g : Ring) (l : List Byte) : (s.ringPut n k g l).hw.turns = s.hw.turns := by simp only [ringPut, windowPut_hw_turns, setSpaceAt_hw_turns]
@[simp] theorem ringPut_hw_serviceDown (s : State) (n k : Nat) (g : Ring) (l : List Byte) : (s.ringPut n k g l).hw.serviceDown = s.hw.serviceDown := by simp only [ringPut, windowPut_hw_serviceDown, setSpaceAt_hw_serviceDown]
@[simp] theorem ringPut_hw_errorLog (s : State) (n k : Nat) (g : Ring) (l : List Byte) : (s.ringPut n k g l).hw.errorLog = s.hw.errorLog := by simp only [ringPut, windowPut_hw_errorLog, setSpaceAt_hw_errorLog]
@[simp] theorem ringPut_hw_reports (s : State) (n k : Nat) (g : Ring) (l : List Byte) : (s.ringPut n k g l).hw.reports = s.hw.reports := by simp only [ringPut, windowPut_hw_reports, setSpaceAt_hw_reports]
@[simp] theorem ringPut_hw_fabricOut (s : State) (n k : Nat) (g : Ring) (l : List Byte) : (s.ringPut n k g l).hw.fabricOut = s.hw.fabricOut := by simp only [ringPut, windowPut_hw_fabricOut, setSpaceAt_hw_fabricOut]
@[simp] theorem ringPut_hw_packages (s : State) (n k : Nat) (g : Ring) (l : List Byte) : (s.ringPut n k g l).hw.packages = s.hw.packages := by simp only [ringPut, windowPut_hw_packages, setSpaceAt_hw_packages]
@[simp] theorem ringPut_hw_imageSeqs (s : State) (n k : Nat) (g : Ring) (l : List Byte) : (s.ringPut n k g l).hw.imageSeqs = s.hw.imageSeqs := by simp only [ringPut, windowPut_hw_imageSeqs, setSpaceAt_hw_imageSeqs]
@[simp] theorem ringPut_hw_ended (s : State) (n k : Nat) (g : Ring) (l : List Byte) : (s.ringPut n k g l).hw.ended = s.hw.ended := by simp only [ringPut, windowPut_hw_ended, setSpaceAt_hw_ended]
@[simp] theorem ringPut_hw_toResume (s : State) (n k : Nat) (g : Ring) (l : List Byte) : (s.ringPut n k g l).hw.toResume = s.hw.toResume := by simp only [ringPut, windowPut_hw_toResume, setSpaceAt_hw_toResume]
@[simp] theorem ringPut_hw_power (s : State) (n k : Nat) (g : Ring) (l : List Byte) : (s.ringPut n k g l).hw.power = s.hw.power := by simp only [ringPut, windowPut_hw_power, setSpaceAt_hw_power]

/-! ### zeroFrame -/

@[simp] theorem zeroFrame_cur (s : State) (f : Nat) : (s.zeroFrame f).cur = s.cur := rfl
@[simp] theorem zeroFrame_schedule (s : State) (f : Nat) : (s.zeroFrame f).schedule = s.schedule := rfl
@[simp] theorem zeroFrame_now (s : State) (f : Nat) : (s.zeroFrame f).now = s.now := rfl
@[simp] theorem zeroFrame_tick (s : State) (f : Nat) : (s.zeroFrame f).tick = s.tick := rfl
@[simp] theorem zeroFrame_last (s : State) (f : Nat) : (s.zeroFrame f).last = s.last := rfl
@[simp] theorem zeroFrame_snap (s : State) (f : Nat) : (s.zeroFrame f).snap = s.snap := rfl
@[simp] theorem zeroFrame_nextId (s : State) (f : Nat) : (s.zeroFrame f).nextId = s.nextId := rfl
@[simp] theorem zeroFrame_groups (s : State) (f : Nat) : (s.zeroFrame f).groups = s.groups := rfl
@[simp] theorem zeroFrame_sys (s : State) (f : Nat) : (s.zeroFrame f).sys = s.sys := rfl
@[simp] theorem zeroFrame_blocks (s : State) (f : Nat) : (s.zeroFrame f).blocks = s.blocks := rfl
@[simp] theorem zeroFrame_launches (s : State) (f : Nat) : (s.zeroFrame f).launches = s.launches := rfl
@[simp] theorem zeroFrame_queues (s : State) (f : Nat) : (s.zeroFrame f).queues = s.queues := rfl
@[simp] theorem zeroFrame_dispatched (s : State) (f : Nat) : (s.zeroFrame f).dispatched = s.dispatched := rfl
@[simp] theorem zeroFrame_served (s : State) (f : Nat) : (s.zeroFrame f).served = s.served := rfl
@[simp] theorem zeroFrame_clusters (s : State) (f : Nat) : (s.zeroFrame f).clusters = s.clusters := rfl
@[simp] theorem zeroFrame_dies (s : State) (f : Nat) : (s.zeroFrame f).dies = s.dies := rfl
@[simp] theorem zeroFrame_contexts (s : State) (f : Nat) : (s.zeroFrame f).contexts = s.contexts := rfl
@[simp] theorem zeroFrame_firm (s : State) (f : Nat) : (s.zeroFrame f).firm = s.firm := rfl
@[simp] theorem zeroFrame_spad (s : State) (f : Nat) : (s.zeroFrame f).spad = s.spad := rfl
@[simp] theorem zeroFrame_acc (s : State) (f : Nat) : (s.zeroFrame f).acc = s.acc := rfl
@[simp] theorem zeroFrame_hw_partitions (s : State) (f : Nat) : (s.zeroFrame f).hw.partitions = s.hw.partitions := rfl
@[simp] theorem zeroFrame_hw_frames (s : State) (f : Nat) : (s.zeroFrame f).hw.frames = s.hw.frames := rfl
@[simp] theorem zeroFrame_hw_addrMap (s : State) (f : Nat) : (s.zeroFrame f).hw.addrMap = s.hw.addrMap := rfl
@[simp] theorem zeroFrame_hw_frameSets (s : State) (f : Nat) : (s.zeroFrame f).hw.frameSets = s.hw.frameSets := rfl
@[simp] theorem zeroFrame_hw_tierMoves (s : State) (f : Nat) : (s.zeroFrame f).hw.tierMoves = s.hw.tierMoves := rfl
@[simp] theorem zeroFrame_hw_frameErrors (s : State) (f : Nat) : (s.zeroFrame f).hw.frameErrors = s.hw.frameErrors := rfl
@[simp] theorem zeroFrame_hw_counts (s : State) (f : Nat) : (s.zeroFrame f).hw.counts = s.hw.counts := rfl
@[simp] theorem zeroFrame_hw_spaces (s : State) (f : Nat) : (s.zeroFrame f).hw.spaces = s.hw.spaces := rfl
@[simp] theorem zeroFrame_hw_hostOut (s : State) (f : Nat) : (s.zeroFrame f).hw.hostOut = s.hw.hostOut := rfl
@[simp] theorem zeroFrame_hw_flash (s : State) (f : Nat) : (s.zeroFrame f).hw.flash = s.hw.flash := rfl
@[simp] theorem zeroFrame_hw_fetches (s : State) (f : Nat) : (s.zeroFrame f).hw.fetches = s.hw.fetches := rfl
@[simp] theorem zeroFrame_hw_checkpoints (s : State) (f : Nat) : (s.zeroFrame f).hw.checkpoints = s.hw.checkpoints := rfl
@[simp] theorem zeroFrame_hw_pacers (s : State) (f : Nat) : (s.zeroFrame f).hw.pacers = s.hw.pacers := rfl
@[simp] theorem zeroFrame_hw_budgets (s : State) (f : Nat) : (s.zeroFrame f).hw.budgets = s.hw.budgets := rfl
@[simp] theorem zeroFrame_hw_turns (s : State) (f : Nat) : (s.zeroFrame f).hw.turns = s.hw.turns := rfl
@[simp] theorem zeroFrame_hw_serviceDown (s : State) (f : Nat) : (s.zeroFrame f).hw.serviceDown = s.hw.serviceDown := rfl
@[simp] theorem zeroFrame_hw_errorLog (s : State) (f : Nat) : (s.zeroFrame f).hw.errorLog = s.hw.errorLog := rfl
@[simp] theorem zeroFrame_hw_reports (s : State) (f : Nat) : (s.zeroFrame f).hw.reports = s.hw.reports := rfl
@[simp] theorem zeroFrame_hw_fabricOut (s : State) (f : Nat) : (s.zeroFrame f).hw.fabricOut = s.hw.fabricOut := rfl
@[simp] theorem zeroFrame_hw_packages (s : State) (f : Nat) : (s.zeroFrame f).hw.packages = s.hw.packages := rfl
@[simp] theorem zeroFrame_hw_imageSeqs (s : State) (f : Nat) : (s.zeroFrame f).hw.imageSeqs = s.hw.imageSeqs := rfl
@[simp] theorem zeroFrame_hw_ended (s : State) (f : Nat) : (s.zeroFrame f).hw.ended = s.hw.ended := rfl
@[simp] theorem zeroFrame_hw_toResume (s : State) (f : Nat) : (s.zeroFrame f).hw.toResume = s.hw.toResume := rfl
@[simp] theorem zeroFrame_hw_power (s : State) (f : Nat) : (s.zeroFrame f).hw.power = s.hw.power := rfl

/-! ### freeFrames -/

@[simp] theorem freeFrames_cur (s : State) (fs : List Nat) : (s.freeFrames fs).cur = s.cur := by
  unfold freeFrames
  induction fs generalizing s with
  | nil => rfl
  | cons f fs ih => rw [List.foldl_cons, ih]; unfold decided; split <;> simp [voted, disagree]
@[simp] theorem freeFrames_schedule (s : State) (fs : List Nat) : (s.freeFrames fs).schedule = s.schedule := by
  unfold freeFrames
  induction fs generalizing s with
  | nil => rfl
  | cons f fs ih => rw [List.foldl_cons, ih]; unfold decided; split <;> simp [voted, disagree]
@[simp] theorem freeFrames_now (s : State) (fs : List Nat) : (s.freeFrames fs).now = s.now := by
  unfold freeFrames
  induction fs generalizing s with
  | nil => rfl
  | cons f fs ih => rw [List.foldl_cons, ih]; unfold decided; split <;> simp [voted, disagree]
@[simp] theorem freeFrames_tick (s : State) (fs : List Nat) : (s.freeFrames fs).tick = s.tick := by
  unfold freeFrames
  induction fs generalizing s with
  | nil => rfl
  | cons f fs ih => rw [List.foldl_cons, ih]; unfold decided; split <;> simp [voted, disagree]
@[simp] theorem freeFrames_last (s : State) (fs : List Nat) : (s.freeFrames fs).last = s.last := by
  unfold freeFrames
  induction fs generalizing s with
  | nil => rfl
  | cons f fs ih => rw [List.foldl_cons, ih]; unfold decided; split <;> simp [voted, disagree]
@[simp] theorem freeFrames_snap (s : State) (fs : List Nat) : (s.freeFrames fs).snap = s.snap := by
  unfold freeFrames
  induction fs generalizing s with
  | nil => rfl
  | cons f fs ih => rw [List.foldl_cons, ih]; unfold decided; split <;> simp [voted, disagree]
@[simp] theorem freeFrames_nextId (s : State) (fs : List Nat) : (s.freeFrames fs).nextId = s.nextId := by
  unfold freeFrames
  induction fs generalizing s with
  | nil => rfl
  | cons f fs ih => rw [List.foldl_cons, ih]; unfold decided; split <;> simp [voted, disagree]
@[simp] theorem freeFrames_groups (s : State) (fs : List Nat) : (s.freeFrames fs).groups = s.groups := by
  unfold freeFrames
  induction fs generalizing s with
  | nil => rfl
  | cons f fs ih => rw [List.foldl_cons, ih]; unfold decided; split <;> simp [voted, disagree]
@[simp] theorem freeFrames_sys (s : State) (fs : List Nat) : (s.freeFrames fs).sys = s.sys := by
  unfold freeFrames
  induction fs generalizing s with
  | nil => rfl
  | cons f fs ih => rw [List.foldl_cons, ih]; unfold decided; split <;> simp [voted, disagree]
@[simp] theorem freeFrames_blocks (s : State) (fs : List Nat) : (s.freeFrames fs).blocks = s.blocks := by
  unfold freeFrames
  induction fs generalizing s with
  | nil => rfl
  | cons f fs ih => rw [List.foldl_cons, ih]; unfold decided; split <;> simp [voted, disagree]
@[simp] theorem freeFrames_launches (s : State) (fs : List Nat) : (s.freeFrames fs).launches = s.launches := by
  unfold freeFrames
  induction fs generalizing s with
  | nil => rfl
  | cons f fs ih => rw [List.foldl_cons, ih]; unfold decided; split <;> simp [voted, disagree]
@[simp] theorem freeFrames_queues (s : State) (fs : List Nat) : (s.freeFrames fs).queues = s.queues := by
  unfold freeFrames
  induction fs generalizing s with
  | nil => rfl
  | cons f fs ih => rw [List.foldl_cons, ih]; unfold decided; split <;> simp [voted, disagree]
@[simp] theorem freeFrames_dispatched (s : State) (fs : List Nat) : (s.freeFrames fs).dispatched = s.dispatched := by
  unfold freeFrames
  induction fs generalizing s with
  | nil => rfl
  | cons f fs ih => rw [List.foldl_cons, ih]; unfold decided; split <;> simp [voted, disagree]
@[simp] theorem freeFrames_served (s : State) (fs : List Nat) : (s.freeFrames fs).served = s.served := by
  unfold freeFrames
  induction fs generalizing s with
  | nil => rfl
  | cons f fs ih => rw [List.foldl_cons, ih]; unfold decided; split <;> simp [voted, disagree]
@[simp] theorem freeFrames_clusters (s : State) (fs : List Nat) : (s.freeFrames fs).clusters = s.clusters := by
  unfold freeFrames
  induction fs generalizing s with
  | nil => rfl
  | cons f fs ih => rw [List.foldl_cons, ih]; unfold decided; split <;> simp [voted, disagree]
@[simp] theorem freeFrames_dies (s : State) (fs : List Nat) : (s.freeFrames fs).dies = s.dies := by
  unfold freeFrames
  induction fs generalizing s with
  | nil => rfl
  | cons f fs ih => rw [List.foldl_cons, ih]; unfold decided; split <;> simp [voted, disagree]
@[simp] theorem freeFrames_contexts (s : State) (fs : List Nat) : (s.freeFrames fs).contexts = s.contexts := by
  unfold freeFrames
  induction fs generalizing s with
  | nil => rfl
  | cons f fs ih => rw [List.foldl_cons, ih]; unfold decided; split <;> simp [voted, disagree]
@[simp] theorem freeFrames_firm (s : State) (fs : List Nat) : (s.freeFrames fs).firm = s.firm := by
  unfold freeFrames
  induction fs generalizing s with
  | nil => rfl
  | cons f fs ih => rw [List.foldl_cons, ih]; unfold decided; split <;> simp [voted, disagree]
@[simp] theorem freeFrames_spad (s : State) (fs : List Nat) : (s.freeFrames fs).spad = s.spad := by
  unfold freeFrames
  induction fs generalizing s with
  | nil => rfl
  | cons f fs ih => rw [List.foldl_cons, ih]; unfold decided; split <;> simp [voted, disagree]
@[simp] theorem freeFrames_acc (s : State) (fs : List Nat) : (s.freeFrames fs).acc = s.acc := by
  unfold freeFrames
  induction fs generalizing s with
  | nil => rfl
  | cons f fs ih => rw [List.foldl_cons, ih]; unfold decided; split <;> simp [voted, disagree]
@[simp] theorem freeFrames_hw_partitions (s : State) (fs : List Nat) : (s.freeFrames fs).hw.partitions = s.hw.partitions := by
  unfold freeFrames
  induction fs generalizing s with
  | nil => rfl
  | cons f fs ih => rw [List.foldl_cons, ih]; unfold decided; split <;> simp [voted, disagree]
@[simp] theorem freeFrames_hw_addrMap (s : State) (fs : List Nat) : (s.freeFrames fs).hw.addrMap = s.hw.addrMap := by
  unfold freeFrames
  induction fs generalizing s with
  | nil => rfl
  | cons f fs ih => rw [List.foldl_cons, ih]; unfold decided; split <;> simp [voted, disagree]
@[simp] theorem freeFrames_hw_frameSets (s : State) (fs : List Nat) : (s.freeFrames fs).hw.frameSets = s.hw.frameSets := by
  unfold freeFrames
  induction fs generalizing s with
  | nil => rfl
  | cons f fs ih => rw [List.foldl_cons, ih]; unfold decided; split <;> simp [voted, disagree]
@[simp] theorem freeFrames_hw_tierMoves (s : State) (fs : List Nat) : (s.freeFrames fs).hw.tierMoves = s.hw.tierMoves := by
  unfold freeFrames
  induction fs generalizing s with
  | nil => rfl
  | cons f fs ih => rw [List.foldl_cons, ih]; unfold decided; split <;> simp [voted, disagree]
@[simp] theorem freeFrames_hw_frameErrors (s : State) (fs : List Nat) : (s.freeFrames fs).hw.frameErrors = s.hw.frameErrors := by
  unfold freeFrames
  induction fs generalizing s with
  | nil => rfl
  | cons f fs ih => rw [List.foldl_cons, ih]; unfold decided; split <;> simp [voted, disagree]
@[simp] theorem freeFrames_hw_counts (s : State) (fs : List Nat) : (s.freeFrames fs).hw.counts = s.hw.counts := by
  unfold freeFrames
  induction fs generalizing s with
  | nil => rfl
  | cons f fs ih => rw [List.foldl_cons, ih]; unfold decided; split <;> simp [voted, disagree]
@[simp] theorem freeFrames_hw_spaces (s : State) (fs : List Nat) : (s.freeFrames fs).hw.spaces = s.hw.spaces := by
  unfold freeFrames
  induction fs generalizing s with
  | nil => rfl
  | cons f fs ih => rw [List.foldl_cons, ih]; unfold decided; split <;> simp [voted, disagree]
@[simp] theorem freeFrames_hw_hostOut (s : State) (fs : List Nat) : (s.freeFrames fs).hw.hostOut = s.hw.hostOut := by
  unfold freeFrames
  induction fs generalizing s with
  | nil => rfl
  | cons f fs ih => rw [List.foldl_cons, ih]; unfold decided; split <;> simp [voted, disagree]
@[simp] theorem freeFrames_hw_flash (s : State) (fs : List Nat) : (s.freeFrames fs).hw.flash = s.hw.flash := by
  unfold freeFrames
  induction fs generalizing s with
  | nil => rfl
  | cons f fs ih => rw [List.foldl_cons, ih]; unfold decided; split <;> simp [voted, disagree]
@[simp] theorem freeFrames_hw_fetches (s : State) (fs : List Nat) : (s.freeFrames fs).hw.fetches = s.hw.fetches := by
  unfold freeFrames
  induction fs generalizing s with
  | nil => rfl
  | cons f fs ih => rw [List.foldl_cons, ih]; unfold decided; split <;> simp [voted, disagree]
@[simp] theorem freeFrames_hw_checkpoints (s : State) (fs : List Nat) : (s.freeFrames fs).hw.checkpoints = s.hw.checkpoints := by
  unfold freeFrames
  induction fs generalizing s with
  | nil => rfl
  | cons f fs ih => rw [List.foldl_cons, ih]; unfold decided; split <;> simp [voted, disagree]
@[simp] theorem freeFrames_hw_pacers (s : State) (fs : List Nat) : (s.freeFrames fs).hw.pacers = s.hw.pacers := by
  unfold freeFrames
  induction fs generalizing s with
  | nil => rfl
  | cons f fs ih => rw [List.foldl_cons, ih]; unfold decided; split <;> simp [voted, disagree]
@[simp] theorem freeFrames_hw_budgets (s : State) (fs : List Nat) : (s.freeFrames fs).hw.budgets = s.hw.budgets := by
  unfold freeFrames
  induction fs generalizing s with
  | nil => rfl
  | cons f fs ih => rw [List.foldl_cons, ih]; unfold decided; split <;> simp [voted, disagree]
@[simp] theorem freeFrames_hw_turns (s : State) (fs : List Nat) : (s.freeFrames fs).hw.turns = s.hw.turns := by
  unfold freeFrames
  induction fs generalizing s with
  | nil => rfl
  | cons f fs ih => rw [List.foldl_cons, ih]; unfold decided; split <;> simp [voted, disagree]
@[simp] theorem freeFrames_hw_serviceDown (s : State) (fs : List Nat) : (s.freeFrames fs).hw.serviceDown = s.hw.serviceDown := by
  unfold freeFrames
  induction fs generalizing s with
  | nil => rfl
  | cons f fs ih => rw [List.foldl_cons, ih]; unfold decided; split <;> simp [voted, disagree]
@[simp] theorem freeFrames_hw_reports (s : State) (fs : List Nat) : (s.freeFrames fs).hw.reports = s.hw.reports := by
  unfold freeFrames
  induction fs generalizing s with
  | nil => rfl
  | cons f fs ih => rw [List.foldl_cons, ih]; unfold decided; split <;> simp [voted, disagree]
@[simp] theorem freeFrames_hw_fabricOut (s : State) (fs : List Nat) : (s.freeFrames fs).hw.fabricOut = s.hw.fabricOut := by
  unfold freeFrames
  induction fs generalizing s with
  | nil => rfl
  | cons f fs ih => rw [List.foldl_cons, ih]; unfold decided; split <;> simp [voted, disagree]
@[simp] theorem freeFrames_hw_packages (s : State) (fs : List Nat) : (s.freeFrames fs).hw.packages = s.hw.packages := by
  unfold freeFrames
  induction fs generalizing s with
  | nil => rfl
  | cons f fs ih => rw [List.foldl_cons, ih]; unfold decided; split <;> simp [voted, disagree]
@[simp] theorem freeFrames_hw_imageSeqs (s : State) (fs : List Nat) : (s.freeFrames fs).hw.imageSeqs = s.hw.imageSeqs := by
  unfold freeFrames
  induction fs generalizing s with
  | nil => rfl
  | cons f fs ih => rw [List.foldl_cons, ih]; unfold decided; split <;> simp [voted, disagree]
@[simp] theorem freeFrames_hw_ended (s : State) (fs : List Nat) : (s.freeFrames fs).hw.ended = s.hw.ended := by
  unfold freeFrames
  induction fs generalizing s with
  | nil => rfl
  | cons f fs ih => rw [List.foldl_cons, ih]; unfold decided; split <;> simp [voted, disagree]
@[simp] theorem freeFrames_hw_toResume (s : State) (fs : List Nat) : (s.freeFrames fs).hw.toResume = s.hw.toResume := by
  unfold freeFrames
  induction fs generalizing s with
  | nil => rfl
  | cons f fs ih => rw [List.foldl_cons, ih]; unfold decided; split <;> simp [voted, disagree]
@[simp] theorem freeFrames_hw_power (s : State) (fs : List Nat) : (s.freeFrames fs).hw.power = s.hw.power := by
  unfold freeFrames
  induction fs generalizing s with
  | nil => rfl
  | cons f fs ih => rw [List.foldl_cons, ih]; unfold decided; split <;> simp [voted, disagree]

/-! ### Accessors -/

@[simp] theorem spaceAt_setSpaceAt (s : State) (n : Nat) (x : Space) : (s.setSpaceAt n x).spaceAt n = x := by
  simp [spaceAt, setSpaceAt]
@[simp] theorem spaceAt_setSpaceAt_of_ne (s : State) {n m : Nat} (x : Space) (h : m ≠ n) :
    (s.setSpaceAt n x).spaceAt m = s.spaceAt m := by simp [spaceAt, setSpaceAt, h]
@[simp] theorem frameAt_setFrameAt (s : State) (f : Nat) (r : FrameRecord) : (s.setFrameAt f r).frameAt f = r := by
  simp [frameAt, setFrameAt]
@[simp] theorem frameAt_setFrameAt_of_ne (s : State) {f g : Nat} (r : FrameRecord) (h : g ≠ f) :
    (s.setFrameAt f r).frameAt g = s.frameAt g := by simp [frameAt, setFrameAt, h]
@[simp] theorem spaceAt_setFrameAt (s : State) (f : Nat) (r : FrameRecord) (n : Nat) : (s.setFrameAt f r).spaceAt n = s.spaceAt n := rfl
@[simp] theorem spaceAt_setMem (s : State) (m : Memory) (n : Nat) : (s.setMem m).spaceAt n = s.spaceAt n := rfl
@[simp] theorem spaceAt_windowPut (s : State) (k off : Nat) (l : List Byte) (n : Nat) : (s.windowPut k off l).spaceAt n = s.spaceAt n := rfl
@[simp] theorem spaceAt_sendHost (s : State) (m : HostMessage) (n : Nat) : (s.sendHost m).spaceAt n = s.spaceAt n := rfl
@[simp] theorem spaceAt_logError (s : State) (e : LogEntry) (n : Nat) : (s.logError e).spaceAt n = s.spaceAt n := rfl
@[simp] theorem spaceAt_showStatus (s : State) (k n : Nat) : (s.showStatus k).spaceAt n = s.spaceAt n := rfl
@[simp] theorem spaceAt_zeroFrame (s : State) (f n : Nat) : (s.zeroFrame f).spaceAt n = s.spaceAt n := rfl
@[simp] theorem spaceAt_freeFrames (s : State) (fs : List Nat) (n : Nat) : (s.freeFrames fs).spaceAt n = s.spaceAt n := by
  unfold spaceAt; rw [freeFrames_hw_spaces]

@[simp] theorem setSpaceAt_spaces (s : State) (n : Nat) (x : Space) : (s.setSpaceAt n x).hw.spaces = s.hw.spaces.set n x := rfl
@[simp] theorem setFrameAt_frames (s : State) (f : Nat) (r : FrameRecord) : (s.setFrameAt f r).hw.frames = s.hw.frames.set f r := rfl
@[simp] theorem windowPut_mem (s : State) (n off : Nat) (l : List Byte) :
    (s.windowPut n off l).mem = s.mem.setBytes (windowBase n + off) l := rfl
@[simp] theorem sendHost_hostOut (s : State) (m : HostMessage) : (s.sendHost m).hw.hostOut = s.hw.hostOut ++ [m] := rfl
@[simp] theorem zeroFrame_mem (s : State) (f : Nat) : (s.zeroFrame f).mem = s.mem.clear (65536 * f) 65536 := rfl

/-- The newest entry of the log is the one just made (R441). -/
theorem logError_newest (s : State) (e : LogEntry) : (s.logError e).hw.errorLog.getLast? = some e := by
  simp only [logError, setHw_hw]
  split
  · rename_i h
    rw [List.getLast?_drop, if_neg (by omega)]; simp
  · simp

/-! ### Frames given back (R391) -/

/-- Where no vote is against it, a joint act of the security cores has its effect (R27). -/
theorem decided_eq {s : State} (h : s.hw.votes = []) (act : State → State) : s.decided act = act s := by
  have e : s.voted = s := by
    have hv : ({ s.hw with votes := s.hw.votes.drop 1 } : Module) = s.hw := by
      rw [show s.hw.votes.drop 1 = s.hw.votes by simp [h]]
    rw [voted, hv]; rfl
  simp [decided, agreed, h, e]

/-- Frames given back, where no vote is against it. -/
theorem freeFrames_eq {s : State} (h : s.hw.votes = []) (fs : List Nat) :
    s.freeFrames fs = fs.foldl (fun s f => (s.zeroFrame f).setFrameAt f FrameRecord.free) s := by
  unfold freeFrames
  induction fs generalizing s with
  | nil => rfl
  | cons g fs ih =>
      rw [List.foldl_cons, List.foldl_cons, decided_eq h]
      exact ih (s := (s.zeroFrame g).setFrameAt g FrameRecord.free) h

/-- A frame given back is free. -/
theorem freeFrames_frameAt {s : State} (h : s.hw.votes = []) (fs : List Nat) (f : Nat) :
    (s.freeFrames fs).frameAt f = if f ∈ fs then FrameRecord.free else s.frameAt f := by
  rw [freeFrames_eq h]; clear h
  induction fs generalizing s with
  | nil => simp
  | cons g fs ih =>
      rw [List.foldl_cons, ih]
      by_cases h : f ∈ fs
      · simp [h]
      · by_cases hg : f = g
        · subst hg; simp
        · rw [if_neg h, if_neg (by simp [h, hg]), frameAt_setFrameAt_of_ne _ _ hg]; rfl

/-- A byte of a frame given back reads 0; every other byte is left alone. -/
theorem freeFrames_byte {s : State} (h : s.hw.votes = []) (fs : List Nat) (a : Nat) :
    (s.freeFrames fs).mem.byte a = if a / 65536 ∈ fs then 0 else s.mem.byte a := by
  rw [freeFrames_eq h]; clear h
  induction fs generalizing s with
  | nil => simp
  | cons g fs ih =>
      rw [List.foldl_cons, ih, setFrameAt_mem, zeroFrame_mem]
      by_cases h : a / 65536 ∈ fs
      · simp [h]
      · rw [if_neg h]
        by_cases hg : a / 65536 = g
        · rw [if_pos (by simp [hg]), Memory.byte_clear_of_inside _ _ _ _ (by omega)]
        · rw [if_neg (by simp [h, hg]), Memory.byte_clear_of_outside _ _ _ _ (by omega)]

/-! ### Events told to a host (R427) -/

theorem tellHost_room {s : State} {n k c a l : Nat} (hb : (s.spaceAt n).backlog = []) (hr : s.eventRoom n = true) :
    s.tellHost n k c a l = s.writeEvent n { kind := k, cause := c, addr := a, len := l, time := s.micros } := by
  simp [tellHost, hb, hr]

/-- An event that finds room stands in its record, under the next number. -/
theorem tellHost_told {s : State} {n k c a l : Nat} (hb : (s.spaceAt n).backlog = []) (hr : s.eventRoom n = true) :
    let x := s.spaceAt n
    let t := s.tellHost n k c a l
    let r := windowBase n + 0x10100 + 32 * (x.events.toNat % 120)
    (t.spaceAt n).events = x.events + 1 ∧ t.mem.read r 1 = k % 256 ∧ t.mem.read (r + 1) 1 = c % 256 ∧
      t.mem.read (r + 4) 4 = (x.events + 1).toNat ∧ t.mem.read (r + 8) 8 = a % 2 ^ 64 ∧ t.mem.read (r + 16) 8 = l % 2 ^ 64 := by
  intro x t r
  have ht : t = _ := tellHost_room hb hr
  have hm : t.mem = s.mem.setBytes r (eventBytes { kind := k, cause := c, addr := a, len := l, time := s.micros } (x.events + 1)) := by
    rw [ht, writeEvent]
    simp only [setSpaceAt_mem, windowPut_mem, r, x, add_sub_cancel_right]
    congr 1; omega
  have e : eventBytes { kind := k, cause := c, addr := a, len := l, time := s.micros } (x.events + 1) =
     toBytes 1 k ++ (toBytes 1 c ++ (toBytes 2 0 ++ (toBytes 4 (x.events + 1).toNat ++ (toBytes 8 a ++ (toBytes 8 l ++
       toBytes 8 s.micros))))) := by simp only [eventBytes, List.append_assoc]
  rw [hm, e]
  refine ⟨by rw [ht]; simp [writeEvent, x], ?_, ?_, ?_, ?_, ?_⟩
  · exact Memory.read_setBytes_num [] _ rfl rfl
  · exact Memory.read_setBytes_num (toBytes 1 k) _ rfl (by simp)
  · rw [Memory.read_setBytes_num (x := (x.events + 1).toNat) (toBytes 1 k ++ (toBytes 1 c ++ toBytes 2 0))
      (toBytes 8 a ++ (toBytes 8 l ++ toBytes 8 s.micros)) (by simp only [List.append_assoc]) (by simp)]
    exact Nat.mod_eq_of_lt (x.events + 1).isLt
  · exact Memory.read_setBytes_num (toBytes 1 k ++ (toBytes 1 c ++ (toBytes 2 0 ++ (toBytes 4 (x.events + 1).toNat))))
      (toBytes 8 l ++ toBytes 8 s.micros) (by simp only [List.append_assoc]) (by simp)
  · exact Memory.read_setBytes_num (toBytes 1 k ++ (toBytes 1 c ++ (toBytes 2 0 ++ (toBytes 4 (x.events + 1).toNat ++ toBytes 8 a))))
      (toBytes 8 s.micros) (by simp only [List.append_assoc]) (by simp)

/-- Of the spaces it changes the event fields of the one told only. -/
theorem tellHost_spaceAt (s : State) (n k c a l : Nat) : ∃ e b v, (s.tellHost n k c a l).spaceAt n =
    { s.spaceAt n with events := e, backlog := b, evlost := v } := by
  unfold tellHost; dsimp only; split
  · exact ⟨_, (s.spaceAt n).backlog, (s.spaceAt n).evlost, spaceAt_setSpaceAt _ _ _⟩
  · split
    · exact ⟨(s.spaceAt n).events, _, (s.spaceAt n).evlost, spaceAt_setSpaceAt _ _ _⟩
    · exact ⟨(s.spaceAt n).events, (s.spaceAt n).backlog, _, spaceAt_setSpaceAt _ _ _⟩

@[simp] theorem tellHost_spaceAt_of_ne (s : State) {n m : Nat} (k c a l : Nat) (h : m ≠ n) :
    (s.tellHost n k c a l).spaceAt m = s.spaceAt m := by
  unfold tellHost; dsimp only; split
  · simp [writeEvent, h]
  · split <;> simp [h]

/-- What the hosts have been sent stays sent. -/
theorem tellHost_hostOut (s : State) (n k c a l : Nat) : ∃ o, (s.tellHost n k c a l).hw.hostOut = s.hw.hostOut ++ o := by
  unfold tellHost; dsimp only; split
  · exact ⟨_, rfl⟩
  · split
    · exact ⟨[], by simp⟩
    · exact ⟨_, rfl⟩

/-- Memory outside the window of the space is left alone. -/
theorem tellHost_byte (s : State) (n k c a l : Nat) {z : Nat} (h : z < windowBase n + 0x10000 ∨ windowBase n + 0x11000 ≤ z) :
    (s.tellHost n k c a l).mem.byte z = s.mem.byte z := by
  have hl : ∀ e no, (eventBytes e no).length = 32 := fun e no => by simp [eventBytes]
  unfold tellHost; dsimp only; split
  · simp only [writeEvent, setSpaceAt_mem, windowPut_mem]
    apply Memory.byte_setBytes_of_outside; rw [hl]; omega
  · split
    · rfl
    · simp only [showStatus, windowPut_mem, setSpaceAt_mem]
      apply Memory.byte_setBytes_of_outside; simp [statusBytes]; omega

end Sys2Proof.Machine.State
end

