-- ==== Sys2Proof/Laws/Issue.lean ====
section
/-!
SUPPORT. When a word comes to its effect, and what a word that does not becomes (R81, R83, R87, R132).
-/

set_option Elab.async false

namespace Sys2Proof.Machine.State

/-- The conditions of `Issues` are those under which nothing stops a word. -/
theorem stopped_eq_none {s : State} {f : Facts} (h : s.Issues f) : s.stopped f = none := by
  obtain ⟨hc, hv, hch, ht, hsys, hm, hn, ho⟩ := h
  have h1 : s.beyondWindow f = false := by simpa [beyondWindow] using hv
  have h2 : s.unbound f = false := by
    simp only [unbound, List.any_eq_false, decide_eq_true_eq, not_le]
    exact hch
  have h3 : s.farTarget f = false := by
    simp only [farTarget]
    split
    · rename_i t h
      have := ht t h
      simp; omega
    · rfl
  have h4 : s.causeOf f = none := by
    unfold causeOf
    rw [if_neg, h1, h2, h3, hc]
    · rfl
    · simp only [Bool.and_eq_true, decide_eq_true_eq, not_and]
      intro hs hu
      rw [hsys hs] at hu
      cases hu
  have h5 : s.counterFull f = false := by
    simp only [counterFull]
    split
    · rename_i c h
      simpa using hn c h
    · rfl
  simp [stopped, h4, h5, hm, ho]

/-- A word that comes to its effect has it. -/
theorem issueWord_eq {s : State} {f : Facts} (h : s.Issues f) (effect : State → State) :
    s.issueWord f effect = .next (effect s) := by
  simp [issueWord, stopped_eq_none h]

theorem issue_eq {s : State} {i : Instr} (h : s.Issues i.facts) (effect : State → State) :
    s.issue i effect = .next (effect s) := issueWord_eq h effect

theorem issueSys_eq {s : State} {w : SysWord} (h : s.Issues w.facts) (effect : State → State) :
    s.issueSys w effect = .next (effect s) := issueWord_eq h effect

/-- A word always answers a next state: its effect, a fault taken, a kill or a stall. -/
theorem issue_next (s : State) (i : Instr) (effect : State → State) : ∃ t, s.issue i effect = .next t := ⟨_, rfl⟩

/-- A SYS word at U raises cause 0x0A (R81). -/
theorem causeOf_sys {s : State} {f : Facts} (h : f.isSys = true) (hu : s.vgroup.level = .u) :
    s.causeOf f = some .sysAtU := by simp [causeOf, h, hu]

/-- The facts of a SYS word are those of the instruction it is. -/
theorem facts_instr (w : SysWord) : w.instr.facts = w.facts := by cases w <;> rfl

theorem issueSys_eq_issue (w : SysWord) (f : State → State) (s : State) : s.issueSys w f = s.issue w.instr f := by
  rw [issueSys, issue, facts_instr]

/-- What a word reads as has the meaning of the instruction it is. -/
theorem execReading_eq (r : Reading) (s : State) : execReading r s = exec r.instr s := by
  cases r with
  | plain i => rfl
  | sys w => cases w <;> rfl

/-- Every word's meaning is `issue` of some effect. -/
theorem exec_issues (i : Instr) (h : i.pipe ≠ .none ∨ i = .nop) : ∃ f, ∀ s, exec i s = s.issue i f := by
  cases i
  case nop => exact ⟨_, fun s => exec_nop ..⟩
  case add d a b => exact ⟨_, fun s => exec_add ..⟩
  case sub d a b => exact ⟨_, fun s => exec_sub ..⟩
  case and d a b => exact ⟨_, fun s => exec_and ..⟩
  case or d a b => exact ⟨_, fun s => exec_or ..⟩
  case xor d a b => exact ⟨_, fun s => exec_xor ..⟩
  case shl d a b => exact ⟨_, fun s => exec_shl ..⟩
  case shrN d a b => exact ⟨_, fun s => exec_shrN ..⟩
  case shrI d a b => exact ⟨_, fun s => exec_shrI ..⟩
  case minI d a b => exact ⟨_, fun s => exec_minI ..⟩
  case maxI d a b => exact ⟨_, fun s => exec_maxI ..⟩
  case minN d a b => exact ⟨_, fun s => exec_minN ..⟩
  case maxN d a b => exact ⟨_, fun s => exec_maxN ..⟩
  case mul d a b => exact ⟨_, fun s => exec_mul ..⟩
  case mulhI d a b => exact ⟨_, fun s => exec_mulhI ..⟩
  case mulhN d a b => exact ⟨_, fun s => exec_mulhN ..⟩
  case cmpEq d a b => exact ⟨_, fun s => exec_cmpEq ..⟩
  case cmpNe d a b => exact ⟨_, fun s => exec_cmpNe ..⟩
  case cmpLtI d a b => exact ⟨_, fun s => exec_cmpLtI ..⟩
  case cmpLtN d a b => exact ⟨_, fun s => exec_cmpLtN ..⟩
  case add64 d a b => exact ⟨_, fun s => exec_add64 ..⟩
  case sub64 d a b => exact ⟨_, fun s => exec_sub64 ..⟩
  case shl64 d a b => exact ⟨_, fun s => exec_shl64 ..⟩
  case shr64N d a b => exact ⟨_, fun s => exec_shr64N ..⟩
  case movi d imm => exact ⟨_, fun s => exec_movi ..⟩
  case movh d imm => exact ⟨_, fun s => exec_movh ..⟩
  case addi d imm => exact ⟨_, fun s => exec_addi ..⟩
  case andi d imm => exact ⟨_, fun s => exec_andi ..⟩
  case ori d imm => exact ⟨_, fun s => exec_ori ..⟩
  case xori d imm => exact ⟨_, fun s => exec_xori ..⟩
  case cmpiEq d imm => exact ⟨_, fun s => exec_cmpiEq ..⟩
  case cmpiLtI d imm => exact ⟨_, fun s => exec_cmpiLtI ..⟩
  case sld32 d base imm => exact ⟨_, fun s => exec_sld32 ..⟩
  case sld64 d base imm => exact ⟨_, fun s => exec_sld64 ..⟩
  case sldK d base imm => exact ⟨_, fun s => exec_sldK ..⟩
  case sst src base imm => exact ⟨_, fun s => exec_sst ..⟩
  case srd d special => exact ⟨_, fun s => exec_srd ..⟩
  case swr a special => exact ⟨_, fun s => exec_swr ..⟩
  case bra off => exact ⟨_, fun s => exec_bra ..⟩
  case bz sr off => exact ⟨_, fun s => exec_bz ..⟩
  case bnz sr off => exact ⟨_, fun s => exec_bnz ..⟩
  case bany p off => exact ⟨_, fun s => exec_bany ..⟩
  case ball p off => exact ⟨_, fun s => exec_ball ..⟩
  case bnone p off => exact ⟨_, fun s => exec_bnone ..⟩
  case bdiv p off => exact ⟨_, fun s => exec_bdiv ..⟩
  case call target => exact ⟨_, fun s => exec_call ..⟩
  case ret => exact ⟨_, fun s => exec_ret ..⟩
  case jmpr a => exact ⟨_, fun s => exec_jmpr ..⟩
  case mfromp d => exact ⟨_, fun s => exec_mfromp ..⟩
  case mtop a => exact ⟨_, fun s => exec_mtop ..⟩
  case wait ld st cp tm => exact ⟨_, fun s => exec_wait ..⟩
  case yield => exact ⟨_, fun s => exec_yield ..⟩
  case exit => exact ⟨_, fun s => exec_exit ..⟩
  case trap n => exact ⟨_, fun s => exec_trap ..⟩
  case brk => exact ⟨_, fun s => exec_brk ..⟩
  case attach => exact ⟨_, fun s => exec_attach ..⟩
  case detach d => exact ⟨_, fun s => exec_detach ..⟩
  case regroup d partner first more => exact ⟨_, fun s => exec_regroup ..⟩
  case launch d base queue => exact ⟨_, fun s => exec_launch ..⟩
  case hops d a b => exact ⟨_, fun s => exec_hops ..⟩
  case barArrive bar d => exact ⟨_, fun s => exec_barArrive ..⟩
  case barWait bar a => exact ⟨_, fun s => exec_barWait ..⟩
  case barSync bar => exact ⟨_, fun s => exec_barSync ..⟩
  case barTry bar a d => exact ⟨_, fun s => exec_barTry ..⟩
  case vaddI32 d a b => exact ⟨_, fun s => exec_vaddI32 ..⟩
  case vsubI32 d a b => exact ⟨_, fun s => exec_vsubI32 ..⟩
  case vmulI32 d a b => exact ⟨_, fun s => exec_vmulI32 ..⟩
  case vmulhI32 d a b => exact ⟨_, fun s => exec_vmulhI32 ..⟩
  case vmulhN32 d a b => exact ⟨_, fun s => exec_vmulhN32 ..⟩
  case vminI32 d a b => exact ⟨_, fun s => exec_vminI32 ..⟩
  case vmaxI32 d a b => exact ⟨_, fun s => exec_vmaxI32 ..⟩
  case vminN32 d a b => exact ⟨_, fun s => exec_vminN32 ..⟩
  case vmaxN32 d a b => exact ⟨_, fun s => exec_vmaxN32 ..⟩
  case vandB32 d a b => exact ⟨_, fun s => exec_vandB32 ..⟩
  case vorB32 d a b => exact ⟨_, fun s => exec_vorB32 ..⟩
  case vxorB32 d a b => exact ⟨_, fun s => exec_vxorB32 ..⟩
  case vshlB32 d a b => exact ⟨_, fun s => exec_vshlB32 ..⟩
  case vshrN32 d a b => exact ⟨_, fun s => exec_vshrN32 ..⟩
  case vshrI32 d a b => exact ⟨_, fun s => exec_vshrI32 ..⟩
  case vabsdI32 d a b => exact ⟨_, fun s => exec_vabsdI32 ..⟩
  case vaddsI32 d a b => exact ⟨_, fun s => exec_vaddsI32 ..⟩
  case vsubsI32 d a b => exact ⟨_, fun s => exec_vsubsI32 ..⟩
  case vaddsN32 d a b => exact ⟨_, fun s => exec_vaddsN32 ..⟩
  case vsubsN32 d a b => exact ⟨_, fun s => exec_vsubsN32 ..⟩
  case vbfeN32 d a b => exact ⟨_, fun s => exec_vbfeN32 ..⟩
  case vbfeI32 d a b => exact ⟨_, fun s => exec_vbfeI32 ..⟩
  case vbfiB32 d a b => exact ⟨_, fun s => exec_vbfiB32 ..⟩
  case vpopcB32 d a => exact ⟨_, fun s => exec_vpopcB32 ..⟩
  case vclzB32 d a => exact ⟨_, fun s => exec_vclzB32 ..⟩
  case vbrevB32 d a => exact ⟨_, fun s => exec_vbrevB32 ..⟩
  case vaddI64 d a b => exact ⟨_, fun s => exec_vaddI64 ..⟩
  case vsubI64 d a b => exact ⟨_, fun s => exec_vsubI64 ..⟩
  case vshlB64 d a b => exact ⟨_, fun s => exec_vshlB64 ..⟩
  case vshrN64 d a b => exact ⟨_, fun s => exec_vshrN64 ..⟩
  case vshrI64 d a b => exact ⟨_, fun s => exec_vshrI64 ..⟩
  case vaddI32Vi d a imm => exact ⟨_, fun s => exec_vaddI32Vi ..⟩
  case vandB32Vi d a imm => exact ⟨_, fun s => exec_vandB32Vi ..⟩
  case vshlB32Vi d a imm => exact ⟨_, fun s => exec_vshlB32Vi ..⟩
  case vshrN32Vi d a imm => exact ⟨_, fun s => exec_vshrN32Vi ..⟩
  case vaddI32Vs d a sr => exact ⟨_, fun s => exec_vaddI32Vs ..⟩
  case vsubI32Vs d a sr => exact ⟨_, fun s => exec_vsubI32Vs ..⟩
  case vmulI32Vs d a sr => exact ⟨_, fun s => exec_vmulI32Vs ..⟩
  case vmulhI32Vs d a sr => exact ⟨_, fun s => exec_vmulhI32Vs ..⟩
  case vmulhN32Vs d a sr => exact ⟨_, fun s => exec_vmulhN32Vs ..⟩
  case vminI32Vs d a sr => exact ⟨_, fun s => exec_vminI32Vs ..⟩
  case vmaxI32Vs d a sr => exact ⟨_, fun s => exec_vmaxI32Vs ..⟩
  case vminN32Vs d a sr => exact ⟨_, fun s => exec_vminN32Vs ..⟩
  case vmaxN32Vs d a sr => exact ⟨_, fun s => exec_vmaxN32Vs ..⟩
  case vandB32Vs d a sr => exact ⟨_, fun s => exec_vandB32Vs ..⟩
  case vorB32Vs d a sr => exact ⟨_, fun s => exec_vorB32Vs ..⟩
  case vxorB32Vs d a sr => exact ⟨_, fun s => exec_vxorB32Vs ..⟩
  case vshlB32Vs d a sr => exact ⟨_, fun s => exec_vshlB32Vs ..⟩
  case vshrN32Vs d a sr => exact ⟨_, fun s => exec_vshrN32Vs ..⟩
  case vshrI32Vs d a sr => exact ⟨_, fun s => exec_vshrI32Vs ..⟩
  case vabsdI32Vs d a sr => exact ⟨_, fun s => exec_vabsdI32Vs ..⟩
  case vaddsI32Vs d a sr => exact ⟨_, fun s => exec_vaddsI32Vs ..⟩
  case vsubsI32Vs d a sr => exact ⟨_, fun s => exec_vsubsI32Vs ..⟩
  case vaddsN32Vs d a sr => exact ⟨_, fun s => exec_vaddsN32Vs ..⟩
  case vsubsN32Vs d a sr => exact ⟨_, fun s => exec_vsubsN32Vs ..⟩
  case vbfeN32Vs d a sr => exact ⟨_, fun s => exec_vbfeN32Vs ..⟩
  case vbfeI32Vs d a sr => exact ⟨_, fun s => exec_vbfeI32Vs ..⟩
  case vbfiB32Vs d a sr => exact ⟨_, fun s => exec_vbfiB32Vs ..⟩
  case vaddI64Vs d a sr => exact ⟨_, fun s => exec_vaddI64Vs ..⟩
  case vsubI64Vs d a sr => exact ⟨_, fun s => exec_vsubI64Vs ..⟩
  case vshlB64Vs d a sr => exact ⟨_, fun s => exec_vshlB64Vs ..⟩
  case vshrN64Vs d a sr => exact ⟨_, fun s => exec_vshrN64Vs ..⟩
  case vshrI64Vs d a sr => exact ⟨_, fun s => exec_vshrI64Vs ..⟩
  case vbcastB32 d sr => exact ⟨_, fun s => exec_vbcastB32 ..⟩
  case vcmp d a b cc ty => exact ⟨_, fun s => exec_vcmp ..⟩
  case pand d a b => exact ⟨_, fun s => exec_pand ..⟩
  case por d a b => exact ⟨_, fun s => exec_por ..⟩
  case pxor d a b => exact ⟨_, fun s => exec_pxor ..⟩
  case pnot d a => exact ⟨_, fun s => exec_pnot ..⟩
  case pmov d a => exact ⟨_, fun s => exec_pmov ..⟩
  case vfromp d a => exact ⟨_, fun s => exec_vfromp ..⟩
  case vtop d a => exact ⟨_, fun s => exec_vtop ..⟩
  case shflIdx d a p w => exact ⟨_, fun s => exec_shflIdx ..⟩
  case shflUp d a p w => exact ⟨_, fun s => exec_shflUp ..⟩
  case shflDown d a p w => exact ⟨_, fun s => exec_shflDown ..⟩
  case shflXor d a p w => exact ⟨_, fun s => exec_shflXor ..⟩
  case voteAny d a => exact ⟨_, fun s => exec_voteAny ..⟩
  case voteAll d a => exact ⟨_, fun s => exec_voteAll ..⟩
  case ballot d a => exact ⟨_, fun s => exec_ballot ..⟩
  case vscanIncl d a op w => exact ⟨_, fun s => exec_vscanIncl ..⟩
  case vscanExcl d a op w => exact ⟨_, fun s => exec_vscanExcl ..⟩
  case vred d a op => exact ⟨_, fun s => exec_vred ..⟩
  case vfaddF32 d a b => exact ⟨_, fun s => exec_vfaddF32 ..⟩
  case vfsubF32 d a b => exact ⟨_, fun s => exec_vfsubF32 ..⟩
  case vfmulF32 d a b => exact ⟨_, fun s => exec_vfmulF32 ..⟩
  case vffmaF32 d a b => exact ⟨_, fun s => exec_vffmaF32 ..⟩
  case vffnmaF32 d a b => exact ⟨_, fun s => exec_vffnmaF32 ..⟩
  case vfminF32 d a b => exact ⟨_, fun s => exec_vfminF32 ..⟩
  case vfmaxF32 d a b => exact ⟨_, fun s => exec_vfmaxF32 ..⟩
  case vfabsF32 d a => exact ⟨_, fun s => exec_vfabsF32 ..⟩
  case vfnegF32 d a => exact ⟨_, fun s => exec_vfnegF32 ..⟩
  case vfcopysignF32 d a b => exact ⟨_, fun s => exec_vfcopysignF32 ..⟩
  case vfrintF32 d a => exact ⟨_, fun s => exec_vfrintF32 ..⟩
  case vfaddF64 d a b => exact ⟨_, fun s => exec_vfaddF64 ..⟩
  case vfsubF64 d a b => exact ⟨_, fun s => exec_vfsubF64 ..⟩
  case vfmulF64 d a b => exact ⟨_, fun s => exec_vfmulF64 ..⟩
  case vffmaF64 d a b => exact ⟨_, fun s => exec_vffmaF64 ..⟩
  case vffnmaF64 d a b => exact ⟨_, fun s => exec_vffnmaF64 ..⟩
  case vfminF64 d a b => exact ⟨_, fun s => exec_vfminF64 ..⟩
  case vfmaxF64 d a b => exact ⟨_, fun s => exec_vfmaxF64 ..⟩
  case vfabsF64 d a => exact ⟨_, fun s => exec_vfabsF64 ..⟩
  case vfnegF64 d a => exact ⟨_, fun s => exec_vfnegF64 ..⟩
  case vfcopysignF64 d a b => exact ⟨_, fun s => exec_vfcopysignF64 ..⟩
  case vfrintF64 d a => exact ⟨_, fun s => exec_vfrintF64 ..⟩
  case vfdivF32 d a b => exact ⟨_, fun s => exec_vfdivF32 ..⟩
  case vfsqrtF32 d a => exact ⟨_, fun s => exec_vfsqrtF32 ..⟩
  case vfrcpF32 d a => exact ⟨_, fun s => exec_vfrcpF32 ..⟩
  case vfrsqF32 d a => exact ⟨_, fun s => exec_vfrsqF32 ..⟩
  case vfexp2F32 d a => exact ⟨_, fun s => exec_vfexp2F32 ..⟩
  case vflog2F32 d a => exact ⟨_, fun s => exec_vflog2F32 ..⟩
  case vfsinF32 d a => exact ⟨_, fun s => exec_vfsinF32 ..⟩
  case vfcosF32 d a => exact ⟨_, fun s => exec_vfcosF32 ..⟩
  case vftanhF32 d a => exact ⟨_, fun s => exec_vftanhF32 ..⟩
  case vfdivF64 d a b => exact ⟨_, fun s => exec_vfdivF64 ..⟩
  case vfsqrtF64 d a => exact ⟨_, fun s => exec_vfsqrtF64 ..⟩
  case vfrcpF64 d a => exact ⟨_, fun s => exec_vfrcpF64 ..⟩
  case vfrsqF64 d a => exact ⟨_, fun s => exec_vfrsqF64 ..⟩
  case vfaddBf16 d a b => exact ⟨_, fun s => exec_vfaddBf16 ..⟩
  case vfsubBf16 d a b => exact ⟨_, fun s => exec_vfsubBf16 ..⟩
  case vfmulBf16 d a b => exact ⟨_, fun s => exec_vfmulBf16 ..⟩
  case vffmaBf16 d a b => exact ⟨_, fun s => exec_vffmaBf16 ..⟩
  case vffnmaBf16 d a b => exact ⟨_, fun s => exec_vffnmaBf16 ..⟩
  case vfminBf16 d a b => exact ⟨_, fun s => exec_vfminBf16 ..⟩
  case vfmaxBf16 d a b => exact ⟨_, fun s => exec_vfmaxBf16 ..⟩
  case vfabsBf16 d a => exact ⟨_, fun s => exec_vfabsBf16 ..⟩
  case vfnegBf16 d a => exact ⟨_, fun s => exec_vfnegBf16 ..⟩
  case vfcmp d a b cc ty => exact ⟨_, fun s => exec_vfcmp ..⟩
  case cvts d a dst src rnd => exact ⟨_, fun s => exec_cvts ..⟩
  case cvti d a dst src rnd => exact ⟨_, fun s => exec_cvti ..⟩
  case pack4 d a => exact ⟨_, fun s => exec_pack4 ..⟩
  case unpack4 d a sx => exact ⟨_, fun s => exec_unpack4 ..⟩
  case pack6 d a => exact ⟨_, fun s => exec_pack6 ..⟩
  case unpack6 d a sx => exact ⟨_, fun s => exec_unpack6 ..⟩
  case pack8 d a => exact ⟨_, fun s => exec_pack8 ..⟩
  case unpack8 d a sx => exact ⟨_, fun s => exec_unpack8 ..⟩
  case bscale d a fmt => exact ⟨_, fun s => exec_bscale ..⟩
  case scapplyMul d a b => exact ⟨_, fun s => exec_scapplyMul ..⟩
  case scapplyDiv d a b => exact ⟨_, fun s => exec_scapplyDiv ..⟩
  case compress d a fmt => exact ⟨_, fun s => exec_compress ..⟩
  case tidsetImm imm => exact ⟨_, fun s => exec_tidsetImm ..⟩
  case tidsetReg a => exact ⟨_, fun s => exec_tidsetReg ..⟩
  case ldg x o base w form => exact ⟨_, fun s => exec_ldg ..⟩
  case stg x o base w form => exact ⟨_, fun s => exec_stg ..⟩
  case lds x o base w form => exact ⟨_, fun s => exec_lds ..⟩
  case sts x o base w form => exact ⟨_, fun s => exec_sts ..⟩
  case ldc x o base w form => exact ⟨_, fun s => exec_ldc ..⟩
  case stc x o base w form => exact ⟨_, fun s => exec_stc ..⟩
  case lda x o base wide scope => exact ⟨_, fun s => exec_lda ..⟩
  case stl x o base wide scope => exact ⟨_, fun s => exec_stl ..⟩
  case atom x o base fn => exact ⟨_, fun s => exec_atom ..⟩
  case atoma x o base fn => exact ⟨_, fun s => exec_atoma ..⟩
  case atoms x o base fn => exact ⟨_, fun s => exec_atoms ..⟩
  case red x o base fn => exact ⟨_, fun s => exec_red ..⟩
  case tagl d a p => exact ⟨_, fun s => exec_tagl ..⟩
  case tags slot key => exact ⟨_, fun s => exec_tags ..⟩
  case tagi slot => exact ⟨_, fun s => exec_tagi ..⟩
  case fence sem scope => exact ⟨_, fun s => exec_fence ..⟩
  case ifence => exact ⟨_, fun s => exec_ifence ..⟩
  case publish base => exact ⟨_, fun s => exec_publish ..⟩
  case flushh base len => exact ⟨_, fun s => exec_flushh ..⟩
  case ljoin x o base rel ty => exact ⟨_, fun s => exec_ljoin ..⟩
  case lld x o base w => exact ⟨_, fun s => exec_lld ..⟩
  case lldAcq x o base w => exact ⟨_, fun s => exec_lldAcq ..⟩
  case lldge x o base w => exact ⟨_, fun s => exec_lldge ..⟩
  case ltry x o base p => exact ⟨_, fun s => exec_ltry ..⟩
  case lsta x o base ty => exact ⟨_, fun s => exec_lsta ..⟩
  case linc o base => exact ⟨_, fun s => exec_linc ..⟩
  case lsync base => exact ⟨_, fun s => exec_lsync ..⟩
  case tcopy block id bm ch => exact ⟨_, fun s => exec_tcopy ..⟩
  case copy block dir bm setBits ch => exact ⟨_, fun s => exec_copy ..⟩
  case persist => exact ⟨_, fun s => exec_persist ..⟩
  case tryw bm mask p k => exact ⟨_, fun s => exec_tryw ..⟩
  case bmtest bm mask p => exact ⟨_, fun s => exec_bmtest ..⟩
  case bmclr bm mask => exact ⟨_, fun s => exec_bmclr ..⟩
  case rpush ch a => exact ⟨_, fun s => exec_rpush ..⟩
  case rpop d ch pop => exact ⟨_, fun s => exec_rpop ..⟩
  case rfree d ch count => exact ⟨_, fun s => exec_rfree ..⟩
  case rstat d ch => exact ⟨_, fun s => exec_rstat ..⟩
  case mma r afmt bfmt => exact ⟨_, fun s => exec_mma ..⟩
  case mmas r afmt bfmt => exact ⟨_, fun s => exec_mmas ..⟩
  case accalloc p d count => exact ⟨_, fun s => exec_accalloc ..⟩
  case accfree first count => exact ⟨_, fun s => exec_accfree ..⟩
  case accz first count => exact ⟨_, fun s => exec_accz ..⟩
  case accrdSat d o fmt rnd => exact ⟨_, fun s => exec_accrdSat ..⟩
  case accrdInf d o fmt rnd => exact ⟨_, fun s => exec_accrdInf ..⟩
  case accwr x o form => exact ⟨_, fun s => exec_accwr ..⟩
  case wpin p a fmt sparse => exact ⟨_, fun s => exec_wpin ..⟩
  case wunpin a fmt sparse => exact ⟨_, fun s => exec_wunpin ..⟩
  case opfence => exact ⟨_, fun s => exec_opfence ..⟩
  case rft => exact ⟨_, fun s => exec_rft ..⟩
  case rftKill => exact ⟨_, fun s => exec_rftKill ..⟩
  case segld seg r => exact ⟨_, fun s => (exec_segld ..).trans (issueSys_eq_issue (.segld seg r) _ s)⟩
  case segrd seg r => exact ⟨_, fun s => (exec_segrd ..).trans (issueSys_eq_issue (.segrd seg r) _ s)⟩
  case csrr d csr => exact ⟨_, fun s => (exec_csrr ..).trans (issueSys_eq_issue (.csrr d csr) _ s)⟩
  case csrw a csr => exact ⟨_, fun s => (exec_csrw ..).trans (issueSys_eq_issue (.csrw a csr) _ s)⟩
  case tlbinv base count => exact ⟨_, fun s => (exec_tlbinv ..).trans (issueSys_eq_issue (.tlbinv base count) _ s)⟩
  case tlbinvAll => exact ⟨_, fun s => exec_tlbinvAll ..⟩
  case idle k => exact ⟨_, fun s => (exec_idle ..).trans (issueSys_eq_issue (.idle k) _ s)⟩
  all_goals exact (h.elim (fun h => h rfl) (fun h => nomatch h)).elim

end Sys2Proof.Machine.State
end

