-- ==== Sys2Proof/Tests/Slice0.lean ====
section
/-!
SUPPORT. Tests: words written out from the encoding tables of spec/, worked examples of spec/, and for every statement that has
hypotheses a state and operands that meet them.
-/

set_option Elab.async false

open Sys2Proof Sys2Proof.Machine Sys2Proof.Machine.State

namespace Sys2Proof.Tests

/-! ## A small state

Context 1 of partition 0 on die 0; block 1 of launch 1 on core 0 with two scratchpad slots, three relays and two barriers; one
attached group in slot 0 with one split at packet 10. Page 0 maps frame 0 for all accesses, page 1 is a lattice page of type
max.n32 in frame 1, page 2 is absent. -/

def leafPlain : DWord := 0x1F
def leafLattice : DWord := BitVec.ofNat 64 (0x80F + 3 * 2 ^ 20)

def labSplit : Split := { Split.none with mask := BitVec.allOnes 96, pc := 10 }

def labGroup : Group :=
  { Group.free with phase := .attached, block := 1, splits := [(0, labSplit)], s := [(1, 5), (2, 7), (4, 100), (8, 0x40000000)] }

def labSegments : Segments :=
  { g := segment 0 (2 ^ 60), s := segment 0 32768, c := segment 0 (2 ^ 24), a := segment 0 2048, p := segment 0x4000 64 }

def labSys : GroupSys :=
  { GroupSys.free with seg := labSegments, segAttach := labSegments, bars := [(0, { BarFlags.none with member := true, counted := true })] }

def labRelay : Relay :=
  { desc := { cap := 4, prod := 0, cons := 0, strict := false, autofree := false, ring := 256 }, head := 3, filled := 1, held := 1,
    spoiled := [], fullSince := none, emptySince := none, copyAt := none }

def labHeader : Header :=
  { Header.none with
    stages := [{ entry := 4, min := 1, max := 2, vregs := 7, barmask := 1 }], blocks := 3, scratch := 32768, acc := 2, relays := 3,
    barriers := 1, priv := 4, blklvl := 1, widths := [7, 4], code := 0x1000 }

def labBlock : Block :=
  { Block.none with
    launch := 1, context := 1, header := labHeader, relays := [(0, labRelay), (1, labRelay)], stackBase := 0x4000,
    barriers := [(0, { members := 1, expected := 1, arrived := 0, phase := 0 })], units := [(0, 0), (1, 1)] }

def labTlb : List TlbEntry :=
  [{ context := 1, va := 0, level := 0, leaf := leafPlain }, { context := 1, va := 0x10000, level := 0, leaf := leafLattice }]

def lab : State :=
  { State.reset with
    now := 5000, nextId := 10, groups := [(0, labGroup)], sys := [(0, labSys)], blocks := [(1, labBlock)],
    launches := [(1, { Launch.none with context := 1, phase := .ready, header := labHeader, next := 1 })],
    cores := [(0, { CoreState.reset with tlb := labTlb })],
    contexts := [(1, { Context.none with vdies := [0, 1], regions := [(0, BitVec.ofNat 128 (0x10000 + 2 ^ 64 + 2 ^ 83))] })],
    firm := [(1, { ContextFirm.none with allowance := 5 })],
    hw := { State.reset.hw with
      frames := [(0, { FrameRecord.free with owner := 1, state := .owned }),
                 (1, { FrameRecord.free with owner := 1, state := .owned, lat := true })],
      frameSets := [(3, [1, 1, 1, 1])], partitions := [(0, { Partition.none with valid := true })] } }

/-- The small state with another group, what stands beside it, split or block. -/
def labWith (g : Group) : State := { lab with groups := [(0, g)] }
def labSysWith (y : GroupSys) : State := { lab with sys := [(0, y)] }
def labAt (x : Split) : State := labWith { labGroup with splits := [(0, x)] }
def labS : State := labWith { labGroup with level := .s }
def labBlockWith (b : Block) : State := { lab with blocks := [(1, b)] }

/-- Every condition of `State.Issues`, computed. -/
def issuesB (s : State) (i : Instr) : Bool :=
  let f := i.facts
  f.cause == none && decide (f.vneed ≤ vectorWindow s.vblock s.vgroup) && f.chans.all (fun c => decide (c < s.vblock.header.relays)) &&
  (match f.target s.vsplit.pc.toNat with
    | some t => decide (0 ≤ t ∧ t < 2 ^ 20)
    | none => true) && (!f.isSys || decide (s.vgroup.level = .s)) && s.mayIssue f &&
  (match f.counted with
    | some c => decide ((s.vsys.list c).length ≤ 62)
    | none => true) && !s.orderHeld f

theorem issues_of_issuesB {s : State} {i : Instr} (h : issuesB s i = true) : s.Issues i.facts := by
  simp only [issuesB, Bool.and_eq_true, decide_eq_true_eq, beq_iff_eq, List.all_eq_true, Bool.or_eq_true, Bool.not_eq_true'] at h
  obtain ⟨⟨⟨⟨⟨⟨⟨h1, h2⟩, h3⟩, h4⟩, h5⟩, h6⟩, h7⟩, h8⟩ := h
  refine ⟨h1, h2, h3, ?_, fun x => h5.resolve_left (by simp [x]), h6, ?_, h8⟩
  · intro t ht; simpa [ht] using h4
  · intro c hc; simpa [hc] using h7

/-- The state after a word or an event. -/
def after (i : Instr) (s : State) : State :=
  match exec i s with
  | .next t => t
  | _ => s

def snapOf (s : State) : Snap := { group := s.group, sys := s.gsys, block := s.block, context := s.context, flags := 0, moved := false }

/-- A split held by a blocking word since clock 100. -/
def heldSince : Hold :=
  { since := 100, changes := none, regroup := none, lap := none, accUnits := none, chans := [], publish := none }

def rel (n : Nat) (r : Relay) : State := labBlockWith { labBlock with relays := [(n, r)] }
def labShrink : State :=
  { rel 0 { labRelay with filled := 0 } with groups := [(0, { labGroup with shrink := true, splits := [(0, { labSplit with hold := some heldSince })] })] }
def regionOp (k : Nat) : Pending :=
  { id := k, act := .load .b32 3, accesses := [{ lane := 0, place := .mem 0x20, va := 0x20, n := 4, data := 0, dead := false }], after := [],
    behind := [], results := [], failed := [], spoiled := [], spoiledPreds := [], mask := 1, issued := 0, finished := false }
def ops (n : Nat) : List Pending := (List.range n).map regionOp

/-! ## Witnesses: registers and scalar words -/

/-- R89 at the last plain register and the first mask register; R97 to R99, R102, R107 to R111 words that come to their effect. -/
theorem test_scalar_registers : lab.snap = none ∧ (60 : SReg).toNat < 61 ∧ (0 : SReg) ≠ 60 ∧ lab.gsys.busyS 60 = false ∧
    61 ≤ (61 : SReg).toNat ∧ ({ lab with snap := some (snapOf lab) } : State).snap ≠ none ∧
    issuesB lab (.call 0xFFFFF) = true := by decide

theorem test_lane_registers : lab.active.getLsbD 95 = true ∧ lab.gsys.busyV 127 = 0 ∧ lab.gsys.busyP 6 = 0 ∧ (6 : PReg) ≠ 7 ∧
    (labAt { labSplit with mask := 1 }).active.getLsbD 95 = false ∧ lab.group.splits.at? lab.cur.split = some labSplit := by decide

/-- A mask write beside another split that holds lanes and one whose record holds them. -/
theorem test_mask_write :
    let s := labWith { labGroup with splits := [(0, { labSplit with mask := 0x0F }), (1, { labSplit with mask := 0xF0 }),
      (2, { labSplit with mask := 0, record := some (3, false, 0xF00) })] }
    (s.setMask 0xFFFF).split.mask = 0xF00F := by decide

theorem test_scalar_words : ([.add (.reg 3) (.reg 1) (.reg 2), .sub (.chan 1) (.pop 0) (.peek 1), .and (.reg 3) (.reg 1) (.reg 2),
    .or (.reg 3) (.reg 1) (.reg 2), .xor (.reg 3) (.reg 1) (.reg 2), .shl (.reg 3) (.reg 1) (.reg 2), .shrN (.reg 3) (.reg 1) (.reg 2),
    .shrI (.reg 3) (.reg 1) (.reg 2), .minI (.reg 3) (.reg 1) (.reg 2), .maxI (.reg 3) (.reg 1) (.reg 2),
    .minN (.reg 3) (.reg 1) (.reg 2), .maxN (.reg 3) (.reg 1) (.reg 2), .mul (.reg 3) (.reg 1) (.reg 2),
    .mulhI (.reg 3) (.reg 1) (.reg 2), .mulhN (.reg 3) (.reg 1) (.reg 2), .cmpEq (.reg 3) (.reg 1) (.reg 2),
    .cmpNe (.reg 3) (.reg 1) (.reg 2), .cmpLtI (.reg 3) (.reg 1) (.reg 2), .cmpLtN (.reg 3) (.reg 1) (.reg 2),
    .add64 4 6 8, .sub64 4 6 8, .shl64 4 6 8, .shr64N 4 6 8, .movi (.reg 3) 0x8000, .movh 3 1, .addi 3 1, .andi 3 1, .ori 3 1,
    .xori 3 1, .cmpiEq 3 1, .cmpiLtI 3 1] : List Instr).all (issuesB lab) = true := by decide

theorem test_operands_ready : lab.srcOpen (.pop 0) = true ∧ lab.srcReady (.pop 0) = true ∧ lab.dstOpen (.chan 1) = true ∧
    lab.dstReady (.chan 1) [some 0, none] = true := by decide

theorem test_operands_not_ready :
    let strict : Relay := { labRelay with desc := { labRelay.desc with strict := true, cons := 3 } }
    (rel 0 strict).srcOpen (.pop 0) = false ∧ (rel 0 { labRelay with filled := 0 }).srcReady (.pop 0) = false ∧
    (rel 1 { labRelay with filled := 3 }).dstReady (.chan 1) [none, none] = false ∧
    labShrink.shrinkDue 0 = true ∧ lab.shrinkDue 0 = false ∧ labShrink.srcReady (.pop 0) = true ∧
    issuesB labShrink (.add (.chan 1) (.pop 0) (.reg 1)) = true ∧ (lab.clusterAt 0).entries = [] ∧
    (labWith { labGroup with s := [(1, 0xFFFFFFFF)] }).srcValue (.reg 1) = 0xFFFFFFFF ∧
    ([.movi (.chan 1) 7, .rpush 1 (.reg 1), .rpop 3 0 true, .rpop 3 0 false] : List Instr).all (issuesB lab) = true := by decide

theorem test_special_registers : ([.srd 4 0x000, .srd 4 0x004, .srd 4 0x006, .srd 4 0x00C, .srd 4 0x100, .srd 4 0x102, .swr 4 8, .swr 4 9,
    .tidsetImm 255, .tidsetReg 4] : List Instr).all (issuesB lab) = true ∧ lab.context.vdies[0]? = some (lab.cur.core / 64) := by decide

/-- R167, R195: an ACCRD that has not raised its flags, and none. -/
theorem test_flags_open :
    let p := { regionOp 4 with act := .accrd false 3 .f32 .rne 0 [] }
    let s := labSysWith { labSys with tm := [p] }
    p ∈ s.gsys.tm ∧ p.finished = false ∧ issuesB s (.srd 4 9) = true ∧ issuesB s (.swr 4 9) = true ∧ lab.gsys.tm = [] := by decide

/-! ## Witnesses: control -/

theorem test_branches : ([.bra 0xFFF6, .bz 1 5, .bnz 1 5, .bany 1 5, .ball 1 5, .bnone 1 5, .bdiv 1 5, .call 0, .ret, .jmpr 1, .nop,
    .mfromp 1, .mtop 1, .wait 0 0 0 0, .yield, .exit, .trap 255, .brk] : List Instr).all (issuesB lab) = true ∧
    lab.readS 1 ≠ 0 ∧ lab.readS 0 = 0 ∧ lab.gsys.busyS 59 = false := by decide

def labDivided (n : Nat) (r : Option (BitVec 20 × Bool × LaneMask)) : State :=
  labWith { labGroup with
    p := [(1, 0x3), (2, 0)], splits := (0, { labSplit with mask := 0x7, record := r }) :: (List.range n).map fun k => (k + 1, { labSplit with mask := 0 }) }

/-- R104 at its edges: no lane takes, all take, three splits and four, with and without a record. -/
theorem test_division :
    let d := labDivided 2 none
    let e := labDivided 3 none
    let f := labDivided 3 (some (4, false, 0x8))
    (d.split.mask &&& d.readP 2 = 0) ∧ (d.split.mask &&& d.readP 7 ≠ 0 ∧ d.split.mask &&& ~~~ d.readP 7 = 0) ∧
    (d.split.mask &&& d.readP 1 ≠ 0 ∧ d.split.mask &&& ~~~ d.readP 1 ≠ 0 ∧ d.group.splits.at? d.cur.split ≠ none ∧ d.group.splits.length < 4) ∧
    (e.split.mask &&& ~~~ e.readP 1 ≠ 0 ∧ ¬ e.group.splits.length < 4 ∧ e.split.record = none) ∧ f.split.record ≠ none ∧
    issuesB d (.bdiv 1 5) = true ∧ issuesB e (.bdiv 1 5) = true ∧ issuesB f (.bdiv 1 5) = true := by decide

theorem test_calls :
    let s := labWith { labGroup with s := [(59, 0xFFFFF), (1, 0x100000)] }
    (s.readS 59).toNat < 2 ^ 20 ∧ 2 ^ 20 ≤ (s.readS 1).toNat ∧ issuesB s .ret = true ∧ issuesB s (.jmpr 1) = true ∧
    2 ^ 20 ≤ ((labWith { labGroup with s := [(59, 0xFFFFFFFF)] }).readS 59).toNat := by decide

theorem test_wait :
    let s := labSysWith { labSys with ld := ops 2 }
    (s.gsys.ld.length ≤ (2 : BitVec 6).toNat ∧ s.gsys.st.length ≤ (0 : BitVec 6).toNat) ∧ ¬ s.gsys.ld.length ≤ (1 : BitVec 6).toNat ∧
    issuesB s (.wait 1 0 0 0) = true := by decide

/-- R106: a split with a record, one of two splits, the last split of a group that is attached and of one that is detached. -/
theorem test_exit :
    let d := labDivided 0 (some (4, false, 0x8))
    (d.split.record = some (4, false, 0x8)) ∧ issuesB d .exit = true ∧
    (labDivided 1 none).group.splits.erase 0 ≠ [] ∧ lab.split.record = none ∧ lab.group.splits.erase lab.cur.split = [] ∧
    lab.gsys.pendingFault = none ∧ lab.group.phase = .attached ∧ lab.slicePosted lab.gkey = false ∧
    (labWith { labGroup with phase := .detached }).group.phase ≠ .attached := by decide

def labDbg : State := { lab with contexts := [(1, { lab.context with dbg := true })] }
def labTvec : State := { lab with contexts := [(1, { lab.context with tvec := 0x8000000000004000 })] }

theorem test_traps : issuesB lab (.trap 0) = true ∧ lab.vcontext.dbg = false ∧ issuesB labDbg .brk = true ∧ labDbg.vcontext.dbg = true ∧
    labTvec.context.tvec.getLsbD 63 = true ∧ labTvec.group.level = .u ∧ labS.group.level = .s ∧ lab.context.tvec.getLsbD 63 = false ∧
    labTvec.cur.split < 4 := by decide

def labReturn (epc : DWord) (other : Option Bool) : State :=
  { labS with
    sys := [(0, { labSys with csr := { labSys.csr with epc } })]
    groups := [(0, { labGroup with
      level := .s, splits := (0, labSplit) :: (other.map fun b => (1, { labSplit with mask := 0, frozen := b })).toList })] }

/-- R355: a resume point outside the range, RFT.KILL, a second handler split that still runs, the return itself. -/
theorem test_return : issuesB (labReturn 0x100000 none) .rft = true ∧ 2 ^ 20 ≤ epcPc (labReturn 0x100000 none).gsys.csr.epc ∧
    issuesB (labReturn 0xFFFFF none) .rftKill = true ∧ epcPc (labReturn 0xFFFFF none).gsys.csr.epc < 2 ^ 20 ∧
    (1, { labSplit with mask := 0, frozen := false }) ∈ (labReturn 0xFFFFF (some false)).group.splits := by decide

theorem test_return_alone : ∀ n x, (n, x) ∈ (labReturn 0xFFFFF (some true)).group.splits → n ≠ (labReturn 0xFFFFF (some true)).cur.split →
    x.frozen = true := by
  intro n x h hn
  have : (n, x) = (0, labSplit) ∨ (n, x) = (1, { labSplit with mask := 0, frozen := true }) := by
    change (n, x) ∈ [(0, labSplit), (1, { labSplit with mask := 0, frozen := true })] at h
    simpa using h
  rcases this with h | h
  · cases h; exact absurd rfl hn
  · cases h; rfl

/-- R87: a register of a pair beyond v127, a spawned group's word before ATTACH, a counter at its limit; R81 at U. -/
theorem test_stopped : lab.causeOf (Instr.ldg 127 1 2 .b64 .zx).facts ≠ none ∧
    (labWith { labGroup with phase := .spawned }).causeOf Instr.exit.facts = none ∧
    (labWith { labGroup with phase := .spawned }).mayIssue Instr.exit.facts = false ∧
    lab.causeOf (Instr.ldg 3 1 2 .b32 .zx).facts = none ∧ lab.mayIssue (Instr.ldg 3 1 2 .b32 .zx).facts = true ∧
    (labSysWith { labSys with ld := ops 63 }).counterFull (Instr.ldg 3 1 2 .b32 .zx).facts = true ∧
    (labWith { labGroup with splits := [(0, labSplit), (1, { labSplit with mask := 0, hold := some { heldSince with publish := some 200 } })] }).orderHeld
      (Instr.ldg 3 1 2 .b32 .zx).facts = true ∧
    (Instr.ldg 3 1 2 .b32 .zx).pipe ≠ .none ∧ Instr.rft.isSys = true ∧ lab.vgroup.level = .u := by decide

/-! ## Witnesses: blocks and barriers -/

def labSpawned : State := labWith { labGroup with phase := .spawned, s := [] }

theorem test_attach : issuesB labSpawned .attach = true ∧ labSpawned.alone = true ∧
    (labWith { labGroup with phase := .spawned, splits := [(0, { labSplit with record := some (4, false, 0x8) })] }).alone = false ∧
    labSpawned.block.slot0 * slotBytes < 2 ^ 64 ∧ labSpawned.block.header.scratch < 2 ^ 64 ∧
    labSpawned.block.stackBase + 0 * 96 * (16 * labSpawned.block.header.priv) < 2 ^ 64 := by decide

def labBar (m e a : Nat) (f : BarFlags) : State :=
  { lab with
    blocks := [(1, { labBlock with barriers := [(0, { members := m, expected := e, arrived := a, phase := 7 })] })]
    sys := [(0, { labSys with bars := [(0, f)] })] }

/-- R139's worked example: four members, three have arrived, a fifth joins and is not counted; the fourth arrival completes the
phase, and the next one expects five. -/
theorem test_barrier_example :
    let b : BarFlags := { BarFlags.none with member := true, counted := true }
    (((labBar 4 4 3 BarFlags.none).memberJoin 0 0).blockAt 1).barrier 0 = { members := 5, expected := 4, arrived := 3, phase := 7 } ∧
    (((labBar 5 4 3 b).arrive 0 0).blockAt 1).barrier 0 = { members := 5, expected := 5, arrived := 0, phase := 8 } := by decide

theorem test_barrier_rules :
    let b : BarFlags := { BarFlags.none with member := true, counted := true }
    let s := labBar 2 2 1 { b with arrived := true }
    let t := labBar 2 2 1 b
    (s.blockAt 1).barrier 0 = { members := 2, expected := 2, arrived := 1, phase := 7 } ∧
    ((s.sysAt 0).bar 0).arrived = true ∧ ((t.sysAt 0).bar 0).counted = true ∧ ((t.sysAt 0).bar 0).arrived = false ∧
    (((labBar 2 2 2 { b with arrived := true }).blockAt 1).barrier 0).arrived =
      (((labBar 2 2 2 { b with arrived := true }).blockAt 1).barrier 0).expected ∧
    (lab.barMembers 1 0) = [0] ∧ ((labBar 3 3 2 BarFlags.none).sysAt 0).bar 0 = BarFlags.none := by decide

theorem test_barrier_words : ([.barArrive 0 3, .barWait 0 3, .barSync 0, .barTry 0 3 1] : List Instr).all (issuesB lab) = true ∧
    0 < lab.block.barrierCount ∧ ¬ 15 < lab.block.barrierCount ∧ (lab.block.stageOf lab.group).barmask.getLsbD 0 = true ∧
    GroupSys.waiting lab.gsys = [] ∧ lab.split.hold = none ∧
    (labAt { labSplit with arrivals := [{ pc := 10, word := 0, handler := false, token := 0xFFFFFFFF }] }).split.arrivalHere = some 0xFFFFFFFF ∧
    lab.split.arrivalHere = none := by decide

def labGather : Gather :=
  { request := 1, fields := [], record := [], bm := 0, ch := 63, rows := [], slices := [(0, 3)] }

theorem test_detach_launch_hops : issuesB lab (.detach 1) = true ∧ lab.alone = true ∧ (labDivided 1 none).alone = false ∧
    (labBlockWith { labBlock with gathers := [(0, labGather)] }).slicePosted 0 = true ∧
    issuesB lab (.launch 3 4 2) = true ∧ (lab.readPair 4).toNat % 128 = 100 ∧ (lab.readPair 0).toNat % 128 = 0 ∧
    16 ≤ (lab.readS 4).toNat ∧ (lab.readS 2).toNat < 16 ∧ (lab.queues.get (queueKey 0 7) []).length < 64 ∧
    64 ≤ (({ lab with queues := [(queueKey 0 7, List.replicate 64 0)] } : State).queues.get (queueKey 0 7) []).length ∧
    issuesB lab (.hops 3 0 0) = true ∧ lab.context.vdies[(lab.readS 0).toNat]? = some 0 ∧ lab.context.vdies[(lab.readS 2).toNat]? = none := by
  decide

/-- A partner that waits in a REGROUP with the issuing group, and members 0 and 1 of a block. -/
def labPair (mine theirs : LaneMask) (held : Option (Nat × VReg × Nat)) : State :=
  { lab with
    groups := [(0, { labGroup with splits := [(0, { labSplit with mask := mine })], s := [(1, 1)] }),
               (1, { labGroup with member := 1, splits := [(0, { labSplit with
                  mask := theirs, hold := held.map fun r => { heldSince with regroup := some r } })] })]
    sys := [(0, labSys), (1, labSys)] }

/-- R135: no partner, a partner that does not wait yet, a rendezvous with dormant lanes enough and with too few. -/
theorem test_regroup :
    let s := labPair 0xF 0x3 (some (0, 4, 2))
    issuesB s (.regroup 1 1 4 1) = true ∧ s.alone = true ∧ s.split.hold = none ∧ s.memberSlot 1 = some 1 ∧ s.memberSlot 2 = none ∧
    (labPair 0xF 0x3 none).regroupHeld 1 = none ∧ s.regroupHeld 1 = some (0, 4, 2) ∧ (labPair 0xF 0x3 (some (0, 5, 2))).regroupHeld 1 = some (0, 5, 2) ∧
    (labPair 0xF 0x3 (some (7, 4, 2))).regroupHeld 1 = some (7, 4, 2) ∧ s.group.splits.at? s.cur.split ≠ none ∧ 4 + 2 ≤ vectorWindow s.block (s.groupAt 1) ∧
    (LaneMask.list (labPair (BitVec.allOnes 96) 0x3 (some (0, 4, 2))).group.dormant).length < 2 ∧
    (after (.regroup 1 1 4 1) s).split.mask = 0x3F := by decide +kernel
/-! ## Decoding: words written out from the encoding tables, and the worked encodings of the class chapters -/

theorem test_decode_salu : decodeReading 0b0_000001_0_000011_0_0_000001_0_0_000010_00 = .ok (.plain (.add (.reg 3) (.reg 1) (.reg 2))) ∧
    decodeReading 0b0_000011_1_000101_1_1_000100_1_0_000100_10 = .ok (.plain (.minN (.chan 5) (.pop 4) (.peek 4))) ∧
    decodeReading 0b0_000110_0_000100_0_0_000110_0_0_001000_11 = .ok (.plain (.shr64N 4 6 8)) := by decide

/-- R99, R100: the worked words of the chapter. -/
theorem test_decode_simm : decodeReading 0x0E111234 = .ok (.plain (.movh 4 0x1234)) ∧ decodeReading 0x10105678 = .ok (.plain (.ori 4 0x5678)) ∧
    decodeReading 0x12404803 = .ok (.plain (.sld64 8 2 3)) := by decide

theorem test_decode_control : decodeReading 0b0_001011_110_000001_1111111111111110 = .ok (.plain (.bdiv 1 (-2))) ∧
    decodeReading 0b0_001100_0000_0_11111111111111111111 = .ok (.plain (.call 0xFFFFF)) ∧
    decodeReading 0b0_001100_0010_000111_000000000000000 = .ok (.plain (.jmpr 7)) ∧
    decodeReading 0b0_001101_0001_011_000000000000000000 = .ok (.plain (.mtop 3)) ∧
    decodeReading 0b0_001110_000000_111111_111111_000001_0 = .ok (.plain (.wait 0 63 63 1)) ∧
    decodeReading 0b0_001111_0010_0000000000000_11111111 = .ok (.plain (.trap 255)) := by decide

/-- R131, R141: detach p1; regroup p1, s5, v8, 4; bar.sync 2. -/
theorem test_decode_block : decodeReading 0x20240000 = .ok (.plain (.detach 1)) ∧
    decodeReading 0x20445103 = .ok (.plain (.regroup 1 5 8 3)) ∧ decodeReading 0x22440000 = .ok (.plain (.barSync 2)) ∧
    decodeReading 0b0_010000_0011_000011_000100_000101_000 = .ok (.plain (.launch 3 4 5)) := by decide

/-- R153, R154, R158, and words of VINT1, VCMP, PRED and XLANE. -/
theorem test_decode_vector : decodeReading 0x28041000 = .ok (.plain (.vaddI32Vi 1 2 0)) ∧
    decodeReading 0x2A2440C0 = .ok (.plain (.vaddI32Vs 9 8 6)) ∧ decodeReading 0x30428212 = .ok (.plain (.shflDown 10 4 1 .w32)) ∧
    decodeReading 0b0_010110_010_0000001_0000010_0011_0001 = .ok (.plain (.vcmp 2 1 2 .le .n32)) ∧
    decodeReading 0b0_010111_0110_101_0000011_00000000000 = .ok (.plain (.vtop 5 3)) ∧
    decodeReading 0b0_011000_1001_010100_0000101_011_00000 = .ok (.plain (.vred 20 5 .minN32)) := by decide

/-- R171, R179: vffma.f32 v12, v4, v5; vfsqrt.f32 v2, v9; vfdiv.f64 v8, v4, v6; vfcmp.lt.f32 p2, v3, v7. -/
theorem test_decode_float : decodeReading 0x32302053 = .ok (.plain (.vffmaF32 12 4 5)) ∧
    decodeReading 0x34084801 = .ok (.plain (.vfsqrtF32 2 9)) ∧ decodeReading 0x38202060 = .ok (.plain (.vfdivF64 8 4 6)) ∧
    decodeReading 0x3C818720 = .ok (.plain (.vfcmp 2 3 7 .lt .f32)) := by decide

/-- R196, R200, R202: the worked words of the chapter. -/
theorem test_decode_formats : decodeReading 0x3E5020C8 = .ok (.plain (.cvts 20 4 .e4m3 .f32 .rne)) ∧
    decodeReading 0x4054314D = .ok (.plain (.cvti 21 6 .e5m2 .f32 .rsr)) ∧ decodeReading 0x42030400 = .ok (.plain (.pack4 12 8)) ∧
    decodeReading 0x42240600 = .ok (.plain (.unpack4 16 12 false)) ∧ decodeReading 0x44018208 = .ok (.plain (.bscale 6 4 .e4m3)) ∧
    decodeReading 0x44414206 = .ok (.plain (.scapplyDiv 5 4 6)) ∧ decodeReading 0x44624408 = .ok (.plain (.compress 9 8 .e4m3)) ∧
    decodeReading 0x44907000 = .ok (.plain (.tidsetImm 7)) := by decide

/-- R223, R226, R232, R238, R242: the worked words of the chapters. -/
theorem test_decode_memory : decodeReading 0x46200850 = .ok (.plain (.ldg 8 1 2 .b32 .zx)) ∧
    decodeReading 0x5210084B = .ok (.plain (.lda 4 1 2 true .pkg)) ∧ decodeReading 0x5C1C0854 = .ok (.plain (.red 7 1 2 .addF32)) ∧
    decodeReading 0x5E050880 = .ok (.plain (.tagl 10 4 2)) ∧ decodeReading 0x5E228800 = .ok (.plain (.tags 5 4)) ∧
    decodeReading 0x601B0000 = .ok (.plain (.fence .ar .pkg)) ∧ decodeReading 0x60140000 = .ok (.plain (.fence .rel .sys)) ∧
    decodeReading 0x60200000 = .ok (.plain .ifence) ∧ decodeReading 0x60440000 = .ok (.plain (.publish 8)) := by decide

/-- R276, R278, R284, R294, R301, R307, R314: the worked words of the chapters. -/
theorem test_decode_engines : decodeReading 0x620C0854 = .ok (.plain (.ljoin 3 1 2 true .orB32)) ∧
    decodeReading 0x64140850 = .ok (.plain (.lldge 5 1 2 .b32)) ∧ decodeReading 0x661C0040 = .ok (.plain (.lsta 7 0 2 .maxN32)) ∧
    decodeReading 0x6A0A01C2 = .ok (.plain (.copy 20 .gs 3 true 2)) ∧ decodeReading 0x6A200000 = .ok (.plain .persist) ∧
    decodeReading 0x6808083F = .ok (.plain (.tcopy 16 1 0 63)) ∧ decodeReading 0x6C032090 = .ok (.plain (.tryw 3 8 1 2)) ∧
    decodeReading 0x6C232100 = .ok (.plain (.bmtest 3 8 2)) ∧ decodeReading 0x6C432000 = .ok (.plain (.bmclr 3 8)) ∧
    decodeReading 0x6F081400 = .ok (.plain (.rpush 2 (.reg 5))) ∧ decodeReading 0x6E2B0801 = .ok (.plain (.rpop 10 2 true)) ∧
    decodeReading 0x6E2E0832 = .ok (.plain (.rfree 11 2 12)) ∧ decodeReading 0x6E360803 = .ok (.plain (.rstat 13 2)) := by decide

/-- R322, R333: the worked words of the chapter. -/
theorem test_decode_matrix : decodeReading 0x70050440 = .ok (.plain (.mma 20 .e4m3 .e4m3)) ∧
    decodeReading 0x72050440 = .ok (.plain (.mmas 20 .e4m3 .e4m3)) ∧ decodeReading 0x70012A80 = .ok (.plain (.mma 4 .f64 .f64)) ∧
    decodeReading 0x7404A2C0 = .ok (.plain (.accalloc 1 10 11)) ∧ decodeReading 0x74251800 = .ok (.plain (.accfree 10 12)) ∧
    decodeReading 0x74441200 = .ok (.plain (.accz 8 9)) ∧ decodeReading 0x74678E38 = .ok (.plain (.accrdSat 30 28 .bf16 .rne)) ∧
    decodeReading 0x7487CE08 = .ok (.plain (.accrdInf 31 28 .e4m3 .rne)) ∧ decodeReading 0x74AA0E00 = .ok (.plain (.accwr 40 28 .f32)) ∧
    decodeReading 0x74C86100 = .ok (.plain (.wpin 2 6 .e4m3 false)) ∧ decodeReading 0x74E06100 = .ok (.plain (.wunpin 6 .e4m3 false)) ∧
    decodeReading 0x75000000 = .ok (.plain .opfence) := by decide

/-- R359: the worked words of the chapter. -/
theorem test_decode_system : decodeReading 0x76000000 = .ok (.plain .rft) ∧ decodeReading 0x76100000 = .ok (.plain .rftKill) ∧
    decodeReading 0x76248000 = .ok (.sys (.segld .s 8)) ∧ decodeReading 0x7650C000 = .ok (.sys (.segrd .p 12)) ∧
    decodeReading 0x76620010 = .ok (.sys (.csrr 4 2)) ∧ decodeReading 0x76830000 = .ok (.sys (.csrw 6 0)) ∧
    decodeReading 0x76A10A00 = .ok (.sys (.tlbinv 2 5)) ∧ decodeReading 0x76A00100 = .ok (.plain .tlbinvAll) ∧
    decodeReading 0x76C60000 = .ok (.sys (.idle 3)) := by decide

/-- R87, causes 0x01 to 0x04: a reserved major, a NOP with a bit, a reserved function, a bit that must be zero. -/
theorem test_decode_refused : decodeReading 0b0_111100_0000000000000000000000000 = .error .reservedMajor ∧
    decodeReading 1 = .error .nopBits ∧ decodeReading 0b0_000101_0_000011_0_0_000001_0_0_000010_11 = .error .reservedCode ∧
    decodeReading 0b0_001111_0001_0000000000001_00000000 = .error .nonzeroBits := by decide

/-! ## WellFormed: an ill-formed term for each check, with the cause of R87 that refuses it -/

theorem test_ill_formed_scalar : staticCause (.add (.reg 1) (.pop 2) (.peek 2)) = some .forbiddenChain ∧
    staticCause (.add64 1 2 4) = some .registerRange ∧ staticCause (.shl64 2 3 4) = some .registerRange ∧
    staticCause (.sld32 1 3 0) = some .registerRange ∧ staticCause (.sld64 1 2 0) = some .registerRange ∧
    staticCause (.srd 3 6) = some .registerRange ∧ staticCause (.srd 3 7) = some .specialRegister ∧
    staticCause (.swr 3 0) = some .specialRegister ∧ staticCause (.regroup 1 1 127 1) = some .registerRange ∧
    staticCause (.launch 1 3 0) = some .registerRange := by decide

theorem test_ill_formed_vector : staticCause (.vaddI64 1 2 4) = some .registerRange ∧ staticCause (.vshlB64 2 1 3) = some .registerRange ∧
    staticCause (.vaddI64Vs 2 4 1) = some .registerRange ∧ staticCause (.vshlB64Vs 1 2 3) = some .registerRange ∧
    staticCause (.vcmp 1 1 2 .eq .i64) = some .registerRange ∧ staticCause (.vfcmp 1 1 2 .eq .f64) = some .registerRange ∧
    staticCause (.shflIdx 5 4 1 .w96) = some .forbiddenChain ∧ staticCause (.shflIdx 5 127 1 .w96) = some .registerRange ∧
    staticCause (.ballot 59 1) = some .registerRange ∧ staticCause (.vfaddF64 2 4 5) = some .registerRange ∧
    staticCause (.vfsqrtF64 2 5) = some .registerRange := by decide

theorem test_ill_formed_formats : staticCause (.cvts 1 2 .f64 .f32 .rne) = some .registerRange ∧
    staticCause (.cvts 1 127 .e4m3 .f32 .rsr) = some .registerRange ∧ staticCause (.cvts 1 2 .f32 .f32 .rne) = some .formatCode ∧
    staticCause (.cvti 1 2 .i8 .f32 .rne) = some .formatCode ∧ staticCause (.cvts 1 2 .i8 .e4m3 .rne) = some .formatCode ∧
    staticCause (.pack4 1 125) = some .registerRange ∧ staticCause (.pack8 1 121) = some .registerRange ∧
    staticCause (.unpack6 125 1 false) = some .registerRange ∧ staticCause (.unpack8 121 1 false) = some .registerRange ∧
    staticCause (.bscale 1 2 .d2p8) = some .formatCode ∧ staticCause (.compress 1 2 .e3m2) = some .formatCode := by decide

theorem test_ill_formed_memory : staticCause (.ldg 5 1 3 .b32 .zx) = some .registerRange ∧ staticCause (.ldg 6 1 2 .b128 .zx) = some .registerRange ∧
    staticCause (.stg 5 1 2 .b64 .zx) = some .registerRange ∧ staticCause (.lds 4 1 2 .b32 .prv) = some .reservedCode ∧
    staticCause (.sts 4 1 2 .b32 .x64) = some .registerRange ∧ staticCause (.lda 5 1 2 true .pkg) = some .registerRange ∧
    staticCause (.atom 126 1 2 .casB64) = some .registerRange ∧ staticCause (.red 4 1 2 .exchB32) = some .reservedCode ∧
    staticCause (.publish 3) = some .registerRange ∧ staticCause (.flushh 3 2) = some .registerRange := by decide

theorem test_ill_formed_engines : staticCause (.ljoin 3 1 2 false .orB64) = some .registerRange ∧
    staticCause (.lld 3 1 2 .b64) = some .registerRange ∧ staticCause (.ltry 3 1 2 1) = some .registerRange ∧
    staticCause (.lsta 2 1 2 .cnt8x32) = some .reservedCode ∧ staticCause (.linc 1 3) = some .registerRange ∧
    staticCause (.lsync 3) = some .registerRange ∧ staticCause (.tcopy 48 1 0 63) = some .registerRange ∧
    staticCause (.copy 54 .gs 0 false 63) = some .registerRange ∧ staticCause (.tryw 1 3 1 0) = some .registerRange ∧
    staticCause (.rpush 1 (.peek 2)) = some .nonzeroBits ∧ staticCause (.mma 126 .i8 .i8) = some .registerRange ∧
    staticCause (.mma 4 .i8 .e4m3) = some .formatCode ∧ staticCause (.mmas 4 .bf16 .bf16) = some .formatCode := by decide

theorem test_ill_formed_acc : staticCause (.accrdSat 1 2 .f64 .rne) = some .registerRange ∧
    staticCause (.accrdSat 1 126 .f32 .rne) = some .registerRange ∧ staticCause (.accrdInf 1 2 .i8 .rne) = some .formatCode ∧
    staticCause (.accwr 1 2 .f64) = some .registerRange ∧ staticCause (.accwr 2 2 .b128) = some .registerRange ∧
    staticCause (.wpin 1 2 .i16 false) = some .formatCode ∧ staticCause (.wunpin 2 .bf16 true) = some .formatCode ∧
    staticCause (.segld .s 2) = some .registerRange ∧ staticCause (.csrr 1 0) = some .registerRange ∧
    staticCause (.csrw 2 3) = some .specialRegister ∧ staticCause (.tlbinv 1 2) = some .registerRange := by decide

/-! ## Witnesses and worked examples: vectors -/

/-- The words of R152 to R160, R201 to R206: each comes to its effect in the small state. -/
theorem test_vector_words : ([.vaddI32 3 1 2, .vsubI32 3 1 2, .vmulI32 3 1 2, .vmulhI32 3 1 2, .vmulhN32 3 1 2, .vminI32 3 1 2, .vmaxI32 3 1 2,
    .vminN32 3 1 2, .vmaxN32 3 1 2, .vandB32 3 1 2, .vorB32 3 1 2, .vxorB32 3 1 2, .vshlB32 3 1 2, .vshrN32 3 1 2, .vshrI32 3 1 2,
    .vabsdI32 3 1 2, .vaddsI32 3 1 2, .vsubsI32 3 1 2, .vaddsN32 3 1 2, .vsubsN32 3 1 2, .vbfeN32 3 1 2, .vbfeI32 3 1 2, .vbfiB32 3 1 2,
    .vpopcB32 3 1, .vclzB32 3 1, .vbrevB32 3 1, .vaddI32Vi 3 1 5, .vandB32Vi 3 1 5, .vshlB32Vi 3 1 31, .vshrN32Vi 3 1 31,
    .vaddI64 126 2 4, .vsubI64 126 2 4, .vshlB64 2 4 5, .vshrN64 2 4 5, .vshrI64 2 4 5] : List Instr).all (issuesB lab) = true := by decide

theorem test_vector_scalar_words : ([.vaddI32Vs 3 1 2, .vsubI32Vs 3 1 2, .vmulI32Vs 3 1 2, .vmulhI32Vs 3 1 2, .vmulhN32Vs 3 1 2,
    .vminI32Vs 3 1 2, .vmaxI32Vs 3 1 2, .vminN32Vs 3 1 2, .vmaxN32Vs 3 1 2, .vandB32Vs 3 1 2, .vorB32Vs 3 1 2, .vxorB32Vs 3 1 2,
    .vshlB32Vs 3 1 2, .vshrN32Vs 3 1 2, .vshrI32Vs 3 1 2, .vabsdI32Vs 3 1 2, .vaddsI32Vs 3 1 2, .vsubsI32Vs 3 1 2, .vaddsN32Vs 3 1 2,
    .vsubsN32Vs 3 1 2, .vbfeN32Vs 3 1 2, .vbfeI32Vs 3 1 2, .vbfiB32Vs 3 1 2, .vbcastB32 3 1, .vaddI64Vs 2 4 6, .vsubI64Vs 2 4 6,
    .vshlB64Vs 2 4 5, .vshrN64Vs 2 4 5, .vshrI64Vs 2 4 5] : List Instr).all (issuesB lab) = true := by decide

theorem test_lane_words : ([.vcmp 1 2 3 .ge .i32, .vcmp 1 2 4 .lt .n64, .pand 1 2 3, .por 1 2 3, .pxor 1 2 3, .pnot 1 2, .pmov 1 2, .vfromp 3 1, .vtop 1 3,
    .voteAny 3 1, .voteAll 3 1, .ballot 58 1, .shflIdx 3 126 1 .w96, .shflUp 3 1 1 .w2, .shflDown 3 1 1 .w32, .shflXor 3 1 1 .w4,
    .vscanIncl 3 1 .maxI32 .w96, .vscanExcl 3 1 .addI32 .w8, .vred 3 1 .andB32, .pack4 3 124, .unpack4 124 3 true, .pack6 3 4,
    .unpack6 4 3 false, .pack8 3 120, .unpack8 120 3 true, .bscale 3 1 .e4m3, .scapplyMul 3 1 2, .scapplyDiv 3 1 2, .compress 3 1 .i8,
    .tidsetImm 7] : List Instr).all (issuesB lab) = true := by decide

theorem test_vcmp_operands : ∃ x y : Nat → Int, ∀ l, (x l, y l) = ((lab.readV 2 l).toInt, (lab.readV 3 l).toInt) :=
  ⟨fun l => (lab.readV 2 l).toInt, fun l => (lab.readV 3 l).toInt, fun _ => rfl⟩

/-- R152's worked bit fields: b = 0xC1C has position 28 and length 12, so four bits of 0xA0000000. -/
theorem test_bit_fields :
    let s := labWith { labGroup with s := [(2, 0xC1C)], v := [(1, Vector.replicate 96 0xA0000000)] }
    (after (.vbfeI32Vs 3 1 2) s).readV 3 95 = 0xFFFFFFFA ∧ (after (.vbfeN32Vs 3 1 2) s).readV 3 0 = 0x0000000A := by decide +kernel

/-- R158's worked shuffle: down by one within 32 lanes, lane 30 inactive. -/
theorem test_shuffle_example :
    let s := labWith { labGroup with
      v := [(5, Vector.replicate 96 1), (4, Vector.ofFn fun l => BitVec.ofNat 32 (100 + l)), (10, Vector.replicate 96 7)]
      splits := [(0, { labSplit with mask := BitVec.allOnes 96 ^^^ BitVec.ofNat 96 (2 ^ 30) })] }
    let t := after (.shflDown 10 4 1 .w32) s
    t.readV 10 0 = 101 ∧ t.readV 10 29 = 130 ∧ t.readV 10 30 = 7 ∧ t.readV 10 31 = 131 ∧ (t.readP 1).getLsbD 29 = true ∧
    (t.readP 1).getLsbD 31 = false := by decide +kernel

/-- R172, R178, R203, R205: worked examples of the chapters. -/
theorem test_compress_example : compressed .e4m3 0x3038C038 = 0x0004C038 := by decide +kernel

theorem test_bscale_example : leastScale Bin.e4m3.largest (Dy.ofNat 1000) = 0x802 := by decide +kernel

/-! ## Witnesses: floating point -/

theorem test_float_words : ([.vfaddF32 3 1 2, .vfsubF32 3 1 2, .vfmulF32 3 1 2, .vffmaF32 3 1 2, .vffnmaF32 3 1 2, .vfminF32 3 1 2, .vfmaxF32 3 1 2,
    .vfabsF32 3 1, .vfnegF32 3 1, .vfcopysignF32 3 1 2, .vfrintF32 3 1, .vfaddF64 126 2 4, .vfsubF64 6 2 4, .vfmulF64 6 2 4,
    .vffmaF64 6 2 4, .vffnmaF64 6 2 4, .vfminF64 6 2 4, .vfmaxF64 6 2 4, .vfabsF64 6 2, .vfnegF64 6 2, .vfcopysignF64 6 2 4,
    .vfrintF64 6 2, .vfdivF32 3 1 2, .vfsqrtF32 3 1, .vfrcpF32 3 1, .vfrsqF32 3 1, .vfexp2F32 3 1, .vflog2F32 3 1, .vfsinF32 3 1,
    .vfcosF32 3 1, .vftanhF32 3 1, .vfdivF64 6 2 4, .vfsqrtF64 6 2, .vfrcpF64 6 2, .vfrsqF64 6 2, .vfaddBf16 3 1 2, .vfsubBf16 3 1 2,
    .vfmulBf16 3 1 2, .vffmaBf16 3 1 2, .vffnmaBf16 3 1 2, .vfminBf16 3 1 2, .vfmaxBf16 3 1 2, .vfabsBf16 3 1, .vfnegBf16 3 1,
    .vfcmp 1 2 3 .un .bf16hi, .vfcmp 1 2 4 .ge .f64, .cvts 3 1 .e4m3 .f32 .rne, .cvti 3 1 .e5m2 .f32 .rsr, .cvts 2 1 .f64 .f32 .rtz] :
    List Instr).all (issuesB lab) = true := by decide

/-- R178's worked word: 1.0 + 0.0078125 is inexact to even, and twice the largest overflows to infinity. -/
theorem test_bf16_example : Bin.bf16.addOp .rne 0x7F7F 0x7F7F = (0x7F80, flagOF ||| flagNX) := by decide +kernel

/-- R164, R174: a quotient's 25 leading bits with a rest below them stand for a number between them and the next. -/
theorem test_stands_for : ∃ (d : Dy) (q : ℝ), d.man ≠ 0 ∧ d.sticky = true ∧ 2 ^ (Bin.f32.frac + 1) ≤ d.man ∧ d.StandsFor q ∧ q ≠ 0 := by
  refine ⟨{ neg := false, man := 2 ^ 24, exp := 0, sticky := true }, 2 ^ 24 + 1 / 2, by decide, rfl, by decide, ?_, by norm_num⟩
  norm_num [Dy.StandsFor, Dy.val, abs_of_pos]

theorem test_rounded : ∃ q y : ℝ, q ≠ 0 ∧ Bin.f32.Rounded .rne 0 q y := by
  refine ⟨1, 1, one_ne_zero, 2 ^ 23, ?_⟩
  have h : Bin.f32.ulp 1 = 1 / 2 ^ 23 := by
    norm_num [Bin.ulp, Bin.f32, Bin.emin, Int.log_one_right, zpow_neg]
  rw [h]
  refine ⟨⟨fun n e => ?_, by norm_num, by norm_num, fun e => absurd e (by norm_num)⟩, by norm_num⟩
  have e : (2 ^ 23 : ℝ) = n := by rw [← e]; norm_num
  exact_mod_cast e

/-- The value of an encoding that is a number. -/
def valueOf (f : Bin) (x : Nat) : Option ℚ :=
  match f.decode x with
  | .num d => some d.val
  | _ => none

/-- Operands of the floating-point statements: 1, 3, -1, 128, -150, 1/2, 2^21, 10, the least subnormal, both zeros. -/
theorem test_float_operands : [0x3F800000, 0x40400000, 0xBF800000, 0x43000000, 0xC3160000, 0x3F000000, 0x4A000000, 0x41200000, 1, 0,
    0x80000000].map (valueOf .f32) = [1, 3, -1, 128, -150, 1 / 2, 2 ^ 21, 10, 1 / 2 ^ 149, 0, 0].map some ∧
    valueOf .f64 0x3FF0000000000000 = some 1 ∧ valueOf .f64 0x4008000000000000 = some 3 ∧ valueOf .bf16 0x3F80 = some 1 := by
  decide +kernel

/-- R176: 1 is a power of two and of four and an integer, 3 and 1/2 are not all of these. -/
theorem test_float_ranges : (∀ k : Int, (1 : ℝ) = 2 ^ k → k = 0) ∧ ((1 : ℝ) = 4 ^ (0 : Int)) ∧ (∀ k : Int, (3 : ℝ) ≠ 2 ^ k) ∧
    ∀ k : Int, (1 / 2 : ℝ) ≠ k := by
  have p : ∀ k : Int, (1 : ℝ) = 2 ^ k → k = 0 := fun k h => by
    rcases lt_trichotomy k 0 with h0 | h0 | h0
    · exact absurd h (ne_of_gt (zpow_lt_one_of_neg₀ (by norm_num) h0))
    · exact h0
    · exact absurd h (ne_of_lt (one_lt_zpow₀ (by norm_num) h0))
  refine ⟨p, by norm_num, fun k h => ?_, fun k h => ?_⟩
  · rcases lt_or_ge k 2 with h2 | h2
    · have : (2 : ℝ) ^ k ≤ 2 ^ (1 : Int) := zpow_le_zpow_right₀ (by norm_num) (by omega)
      norm_num at this; linarith
    · have : (2 : ℝ) ^ (2 : Int) ≤ 2 ^ k := zpow_le_zpow_right₀ (by norm_num) h2
      norm_num at this; linarith
  · have : (1 : ℝ) = ((2 * k : Int) : ℝ) := by push_cast; linarith
    have : (1 : Int) = 2 * k := by exact_mod_cast this
    omega

/-- A tie between two neighbours, an overflow, a subnormal result, a value that a format holds. -/
theorem test_rounding : ∃ d e : Dy, d.man ≠ 0 ∧ d.sticky = false ∧ (Bin.f32.round .rne 0 d).val - d.val = -(1 / 2) ∧ e.man ≠ 0 ∧
    e.sticky = false ∧ (Bin.f32.round .rup 0 e).val = e.val :=
  ⟨{ neg := false, man := 2 ^ 25 + 1, exp := -1, sticky := false }, Dy.ofNat 3, by decide, by decide, by decide +kernel, by decide, by decide,
    by decide +kernel⟩

theorem test_delivery :
    let big : Dy := { neg := true, man := 1, exp := 200, sticky := false }
    let small : Dy := { neg := false, man := 3, exp := -150, sticky := false }
    (big.man ≠ 0 ∧ Bin.f32.largest.val < |(Bin.f32.round .rne 0 big).val|) ∧
    |(Bin.f32.round .rne 0 small).val| ≤ Bin.f32.largest.val ∧ (Bin.f32.round .rne 0 small).val ≠ small.val ∧
    Bin.f32.tiny .rne 0 small = true := by decide +kernel

/-- The special operands of R163 to R176: signalling and quiet NaNs, infinities, zeros, a negative number. -/
theorem test_float_specials : (Bin.f32.decode 0x7F800001).signals = true ∧ (Bin.f32.decode 0x7FC00000).signals = false ∧
    (Bin.f32.decode 0x7FC00000).isNan = true ∧ Bin.f32.decode 0x7F800000 = .inf false ∧ Bin.f32.decode 0xFF800000 = .inf true ∧
    (∃ d, Bin.f32.decode 0x80000000 = .num d ∧ d.man = 0) ∧ (∃ d, Bin.f32.decode 0xBF800000 = .num d ∧ d.man ≠ 0 ∧ d.neg = true) := by
  refine ⟨by decide, by decide, by decide, by decide, by decide, ⟨_, rfl, by decide⟩, ⟨_, rfl, by decide, by decide⟩⟩

/-- R173, R174: 0 × infinity, infinity less infinity, one by zero, the root of a negative number. -/
theorem test_float_invalid : Bin.f32.mulOp .rne 0 0x7F800000 = (0x7FC00000, 16) ∧ Bin.f32.addOp .rne 0x7F800000 0xFF800000 = (0x7FC00000, 16) ∧
    Bin.f32.divOp .rne 0x3F800000 0 = (0x7F800000, 8) ∧ Bin.f32.sqrtOp .rne 0xBF800000 = (0x7FC00000, 16) := by decide +kernel

/-- R197: a conversion above the largest of E4M3 saturates, one to infinity gives it, one below half the least subnormal flushes. -/
theorem test_conversion :
    let d : Dy := { neg := false, man := 1, exp := 40, sticky := false }
    let e : Dy := { neg := true, man := 1, exp := -40, sticky := false }
    (d.man ≠ 0 ∧ Bin.e5m2.largest.val < |(Bin.e5m2.round .rne 0 d).val|) ∧ (|(Bin.e5m2.round .rne 0 e).val| ≤ Bin.e5m2.largest.val ∧
      (Bin.e5m2.round .rne 0 e).val = 0) := by decide +kernel

/-- R193, R194: the rows of the chapter's table of conversions at the boundaries, and its stochastic rounding of 1.0625. -/
theorem test_conversion_table :
    let c := fun (f : Fmt) (inf : Bool) (m : Rnd) (b : Word) (x : Nat) => f.convert inf m b (Bin.f32.decode x)
    c .e4m3 false .rne 0 0x43E80000 = { bits := 0x7E, flags := 1, stat := none } ∧
    c .e4m3 true .rne 0 0x43E88000 = { bits := 0x7F, flags := 5, stat := some .inf } ∧
    c .e4m3 false .rne 0 0x7F800000 = { bits := 0x7E, flags := 16, stat := some .sat } ∧
    c .e4m3 false .rne 0 0x3A800000 = { bits := 0, flags := 3, stat := some .ftz } ∧
    c .e5m2 true .rtz 0 0x47700000 = { bits := 0x7B, flags := 1, stat := none } ∧
    c .e2m1 false .rna 0 0x40A00000 = { bits := 7, flags := 1, stat := none } ∧
    c .e2m1 false .rne 0 0x7FC00000 = { bits := 0, flags := 16, stat := some .nan } ∧
    c .i8 false .rne 0 0xC3960000 = { bits := 0x80, flags := 16, stat := some .sat } ∧
    c .i8 false .rne 0 0x40200000 = { bits := 2, flags := 1, stat := none } ∧
    c .d2p8 false .rne 0 0x3F300000 = { bits := 0x24, flags := 1, stat := none } ∧
    c .d2p8 false .rne 0 0x40200000 = { bits := 0x11, flags := 5, stat := some .sat } ∧
    c .sc12 false .rne 0 0xC0466666 = { bits := 0x809, flags := 1, stat := none } ∧
    c .e4m3 false .rsr 0x7FFFFFFF 0x3F880000 = { bits := 0x38, flags := 1, stat := none } ∧
    c .e4m3 false .rsr 0x80000000 0x3F880000 = { bits := 0x39, flags := 1, stat := none } := by decide +kernel

/-- R203: a beat with a NaN, one of zeros, and one of numbers. -/
theorem test_bscale_beats : (∃ l, l ∈ [0] ∧ ∀ x, Bin.f32.decode 0x7FC00000 ≠ .num x) ∧ (∃ x, Bin.f32.decode 0 = .num x ∧ x.man = 0) ∧
    ∃ x, Bin.f32.decode 0x447A0000 = .num x ∧ x.man ≠ 0 :=
  ⟨⟨0, by decide, fun x h => absurd (h.symm.trans (show Bin.f32.decode 0x7FC00000 = .nan false by decide)) (by simp)⟩,
    ⟨_, rfl, by decide⟩, ⟨_, rfl, by decide⟩⟩

/-! ## Witnesses: steps, frames, memory words -/

/-- ADD s3, s1, s2 with NOPs after it, as the packet of the one split. -/
def labPacket : Packet := { w0 := 0b0_000001_0_000011_0_0_000001_0_0_000010_00, w1 := 0, w2 := 0 }
def labFetched : State := labAt { labSplit with packet := some labPacket }
def addWord : Instr := .add (.reg 3) (.reg 1) (.reg 2)

theorem test_step_conditions : let s := labFetched
    let v := { s.advanced.readied 0 with cur := { core := 0, slot := 0, split := 0 } }
    s.hw.power.moduleUp = true ∧ s.hw.power.computeUp = true ∧ s.turn.core = 0 ∧ s.turn.event = none ∧ (s.coreAt 0).paused = false ∧
    (s.coreAt 0).turnAt ≠ some s.advanced.now ∧
    (∃ x, (s.advanced.readied 0).arbiterOrder 0 = [(0, 0, x)]) ∧ (s.advanced.readied 0).arrives 0 0 0 = false ∧
    v.recoverableDue = none ∧ v.atBreakpoint = false ∧
    v.packetAt = .packet labPacket v ∧ firstWord labPacket v.split.word = 0 ∧ chainBit (labPacket.word 0) = false ∧
    (after addWord (v.setSplit { v.split with word := 0 })).last = .done ∧
    (after addWord (v.setSplit { v.split with word := 0 })).metPartner 0 = none :=
  ⟨by decide, by decide, by decide, by decide, by decide, by decide, ⟨_, rfl⟩, by decide, by decide, by decide, rfl, by decide, by decide,
    by decide, by decide⟩

theorem test_step_decodes : decode (labPacket.word 0) = .ok addWord := by
  rw [decode, show decodeReading (labPacket.word 0) = .ok (.plain addWord) by decide]; rfl

/-- The step of that split: 5 + 7; the NOPs after it take no clock (R66), so the next packet is next. -/
theorem test_step_adds : (match step labFetched with
    | .next t => (t.readS 3, t.split.pc, t.split.word)
    | _ => (0, 0, 0)) = (12, 11, 0) := by decide +kernel

theorem test_step_event : let s := { lab with schedule := [{ clocks := 2, core := 0, event := some (.powerCapSet 2000) }] }
    s.powered = true ∧ s.turn.event = some (.powerCapSet 2000) := by decide

/-- R62: the packet of the small state lies at 0x1000 + 12 × 10. -/
theorem test_fetch : lab.split.packet = none ∧ lab.core.icache = [] ∧ lab.split.handler = false ∧ lab.block.header.code % 64 = 0 ∧
    lab.checkPage 0 1 [] (0x1000 + 12 * 10) .fetch = .page leafPlain 0 ∧ lab.checkPage 0 1 [] (0x1000 + 12 * 10 + 11) .fetch = .page leafPlain 0 ∧
    lab.missHeld 0 1 (0x1000 + 12 * 10) = false ∧ leafLat leafPlain = false ∧ lab.frameUsable 1 0 = true ∧ (∀ k, k < 3 → lab.poisonedAt (0x1000 + 12 * 10 + 4 * k) 4 = false) := by decide

/-- R62: what lies at that address runs. -/
theorem test_fetch_runs : (match step { lab with mem := State.reset.mem.write (0x1000 + 12 * 10) 4 labPacket.w0.toNat } with
    | .next t => (t.readS 3, t.split.word)
    | _ => (0, 0)) = (12, 0) := by decide +kernel

theorem test_frame : addWord.pipe ∈ [Pipe.s, Pipe.v, Pipe.x] ∧ addWord.facts.control = false ∧ addWord.isSys = false ∧
    addWord.facts.chans = [] ∧ encode false addWord = some labPacket.w0 ∧ (after addWord lab).last = .done ∧ Reg.s 1 ∉ addWord.dests ∧
    Reg.special 8 ∉ addWord.dests := by decide

/-- Lanes 0 and 1 with byte offsets `a` and `b` in v1 (and pairs v2:v3), base pair s20:s21 zero. -/
def labLanes (a b : Word) : State :=
  labWith { labGroup with
    splits := [(0, { labSplit with mask := 3 })]
    v := [(1, Vector.ofFn fun l => if l = 0 then a else b), (2, Vector.ofFn fun l => if l = 0 then a else b), (3, Vector.replicate 96 0),
          (8, Vector.replicate 96 9), (9, Vector.replicate 96 8), (10, Vector.replicate 96 7), (11, Vector.replicate 96 6)] }

theorem test_memory_words : ([.sld32 4 20 0, .sld64 4 20 0x7FF, .sldK 4 20 0, .sst 4 20 0, .ldg 8 1 20 .b128 .zx, .ldg 8 1 20 .i8 .sx,
    .ldg 8 2 20 .b64 .x64, .ldg 8 1 20 .n16 .prv, .stg 8 1 20 .b8 .zx, .stg 8 1 20 .b128 .prv, .lds 8 1 20 .b32 .zx, .sts 8 1 20 .b64 .sx,
    .ldc 8 1 20 .n8 .zx, .stc 8 1 20 .b16 .zx, .lda 8 1 20 true .fab, .lda 8 1 20 false .grp, .stl 8 1 20 true .sys, .stl 8 1 20 false .blk,
    .atom 8 1 20 .casB64, .atoma 8 1 20 .addF32, .atoms 8 1 20 .exchB32, .red 8 1 20 .addB64, .ljoin 8 1 20 true .cnt8x32,
    .lld 8 1 20 .b64, .lldAcq 8 1 20 .cnt, .lldge 8 1 20 .b32, .ltry 8 1 20 1, .lsta 8 1 20 .maxN32, .linc 1 20, .lsync 20] :
    List Instr).all (issuesB (labLanes 0 4)) = true := by decide

/-- A lane that passes, and the first lane stopped at each check, at the edge of its range (R218). -/
theorem test_global_lanes : (labLanes 0xFFFC 0).globalVerdict 0xFFFC 4 4 .read (fun _ _ => true) = .passes ∧
    (lab.globalVerdict (2 ^ 60 - 3) 4 4 .read fun _ _ => true) = .fails .segmentBounds (BitVec.ofNat 64 (2 ^ 60 - 3)) ∧
    (lab.globalVerdict (-1) 4 4 .read fun _ _ => true) = .fails .segmentBounds (-1) ∧
    (lab.globalVerdict 0xFFFE 4 4 .read fun _ _ => true) = .fails .misalignment 0xFFFE ∧
    (lab.globalVerdict 0x20000 4 4 .read fun _ _ => true) = .absent [2] ∧
    (lab.globalVerdict 0x10000 4 4 .read fun e _ => !e.getLsbD 11) = .fails .latticeType 0x10000 ∧
    (labLanes 0 4).lanes = [0, 1] := by decide

/-- R211 to R213 at the edges of the scratchpad segment, of the cluster window and of a lane's stack. -/
theorem test_segment_edges : (lab.vsys.seg.s.extractLsb' 64 64).toNat = 32768 ∧ (lab.vsys.seg.p.extractLsb' 0 64).toNat = 0x4000 ∧
    (lab.vsys.seg.p.extractLsb' 64 64).toNat = 64 ∧ (∃ e, e ∈ lab.blocks ∧ e.2.context = lab.block.context ∧ e.2.holdsPad 0 32764 = true) ∧
    lab.block.holdsPad 0 32768 = false := by
  refine ⟨by decide, by decide, by decide, ⟨(1, labBlock), by decide, by decide, by decide⟩, by decide⟩

/-- A load of the last word of the segment enters; one byte further it faults (R214). -/
theorem test_segment_limit : (after (.lds 8 1 20 .b32 .zx) (labLanes 32764 0)).gsys.ld.length = 1 ∧
    (after (.lds 8 1 20 .b32 .zx) (labLanes 32768 0)).contexts.at? 1 = none := by decide +kernel

def labWindow : State :=
  { labLanes 0x4000 0x4004 with
    contexts := [(1, { lab.context with
      windows := [(2, BitVec.ofNat 256 (0x4000 + 2 ^ 60 + 2 ^ 61 + 2 ^ 64 * 0x80 + 2 ^ 104 * 0 + 2 ^ 112 * 2))] })] }

/-- R234: lanes in a reduction window that names the word's operation, and a context without windows. -/
theorem test_red_windows : labWindow.lanes = [0, 1] ∧ windowAt labWindow.vcontext 0x4004 = some (2, 4) ∧
    winOp (labWindow.vcontext.windows.get 2 0) = AtomFn.addB32.code ∧ issuesB labWindow (.red 8 1 20 .addB32) = true ∧
    lab.vcontext.windows = [] := by decide

theorem test_no_windows : ∀ va, windowAt lab.vcontext va = none := fun _ => rfl

/-! ## Witnesses: lattices and completions -/

theorem test_lattice_lanes :
    let t := fun (e : DWord) (va : Nat) => lab.usable e va
    lab.globalVerdict 0x10000 4 4 .write t = .passes ∧ lab.globalVerdict 0x1FFFC 4 4 .read t = .passes ∧
    lab.globalVerdict 0x20 4 4 .read t = .fails .latticeType 0x20 ∧ lab.translate 0 1 0x10000 = .leaf leafLattice 0 ∧
    lab.passedPage .read 0x10000 = (leafLattice, 0) ∧ lab.globalPlace .read 0x10000 = .mem 65536 := by decide

/-- A cell at its threshold and one below it (R279, R280). -/
theorem test_lldge : (after (.lldge 8 1 20 .b32) { labLanes 0x10000 0x10004 with mem := (State.reset.mem.write 65536 8 (9 + 2 ^ 32 * 9)) }).gsys.ld.length = 1 ∧
    (after (.lldge 8 1 20 .b32) { labLanes 0x10000 0x10004 with mem := (State.reset.mem.write 65536 8 (9 + 2 ^ 32 * 8)) }).last = .held := by
  decide +kernel

/-- R286: a group with nothing outstanding at the region, before it waits and after the lap has ended. -/
theorem test_lsync : let s := { labLanes 0 0 with groups := [(0, { labGroup with s := [(20, 0x10000)], splits := [(0, labSplit)] })] }
    issuesB s (.lsync 20) = true ∧ s.globalVerdict 0x10000 1 1 .read (fun e va => s.usable e va) = .passes ∧
    s.vcontext.regionAt 0x10000 = some 0 ∧ s.gsys.st = [] ∧ (s.split.hold.bind Hold.lap) = none ∧
    ((labAt { labSplit with hold := some { heldSince with lap := some 2 } }).split.hold.bind Hold.lap) = some 2 ∧
    (({ lab with contexts := [(1, { lab.context with laps := [(lapKey 0 0, { LapState.none with ends := 3 })] })] } : State).lapAt 1 0 0).ends = 3 := by
  decide

def pendingOf (act : OpAct) (accs : List Access) : Pending := { regionOp 4 with act, accesses := accs, mask := 3 }
def memAccess (l pa n : Nat) (x : QWord) : Access := { lane := l, place := .mem pa, va := pa, n, data := x, dead := false }
def padAccess (l off n : Nat) (x : QWord) : Access := { lane := l, place := .spad 0 off, va := off, n, data := x, dead := false }

/-- Operations alone in their counters, ready, over memory and a scratchpad that meet no error. -/
theorem test_completions : (∀ q, q ∈ (labSysWith { labSys with ld := [pendingOf (.load .b64 8) []] }).gsys.all → q.id ∈ ([] : List Nat) → q.finished = true) ∧
    lab.frameUsable 1 0 = true ∧ lab.poisonedAt 0x20 8 = false ∧ (lab.clusterAt 0).entries = [] ∧ 126 + LoadWidth.b64.regs ≤ 128 ∧
    ([memAccess 0 0x20 8 0, padAccess 1 4 8 0].map Access.lane).Nodup ∧ (59 : SReg).toNat + 8 / 4 ≤ 64 ∧
    findOp [pendingOf .store []] 4 = some (pendingOf .store []) ∧ (pendingOf .store []).behind = [] ∧
    lab.heldByTlb 1 0x20 = true ∧ AtomFn.casB64.swaps = true ∧ AtomFn.casB64.bytes = 8 := by decide

/-- R229's worked example in small: two lanes add 1 to a word that holds 10. -/
theorem test_atom_example : let s := { labSysWith { labSys with ld := [pendingOf (.atom .addB32 8) [memAccess 0 0x20 4 1, memAccess 1 0x20 4 1]] } with
      mem := State.reset.mem.write 0x20 4 10 }
    let t := after (.loadCompletion 0 0 4 (BitVec.allOnes 96) []) s
    t.mem.read 0x20 4 = 12 ∧ t.readV 8 0 = 10 ∧ t.readV 8 1 = 11 ∧ t.gsys.ld = [] := by decide +kernel

/-- R225: of two lanes that store to one word of a scratchpad the higher remains. -/
theorem test_store_example : let s := labSysWith { labSys with st := [pendingOf .store [padAccess 0 8 4 1, padAccess 1 8 4 0x01020304]] }
    let t := after (.storeCompletion 0 0 4 (BitVec.allOnes 96) []) s
    t.spad.read 8 4 = 0x01020304 ∧ t.spad.byte 8 = 4 ∧ t.gsys.st = [] := by decide +kernel

/-- R215: a signed byte, an unsigned half-word and the second word of a pair as a load delivers them. -/
theorem test_load_widths : let s := fun (w : LoadWidth) (n : Nat) => { labSysWith { labSys with
      ld := [pendingOf (.load w 8) [memAccess 0 0x20 n 0]] } with mem := State.reset.mem.write 0x20 8 0x1122334455668899 }
    let t := fun w n => after (.loadCompletion 0 0 4 (BitVec.allOnes 96) []) (s w n)
    (t .i8 1).readV 8 0 = 0xFFFFFF99 ∧ (t .n16 2).readV 8 0 = 0x8899 ∧ (t .b64 8).readV 9 0 = 0x11223344 := by decide +kernel

/-- Every value an atomic of 64 bits and a lattice cell can hold satisfies the ranges of the statement; here its ends. -/
theorem test_operation_ranges : (2 : Nat) ^ 64 - 1 < 2 ^ 64 ∧ LatType.maxF32 ≠ .cnt8x32 ∧ (2 : Nat) ^ 32 - 1 < 2 ^ (8 * LatType.maxF32.bytes) ∧
    AtomFn.minI64.apply (2 ^ 63) (BitVec.ofNat 128 (2 ^ 63 - 1)) = 2 ^ 63 ∧ LatType.minN32.join 3 4 = 3 := by decide

/-! ## Witnesses: tags, ordering, copies, relays, matrices, system words -/

def labTags (l : Table Word) : State := { lab with cores := [(0, { lab.core with tags := l })] }
def withS (l : Table Word) : State := labWith { labGroup with s := l }

/-- R237 to R239: a key at one slot, at none, the last slot of the block and the one past it. -/
theorem test_tags : ([.tagl 3 4 1, .tags 1 4, .tagi 1] : List Instr).all (issuesB lab) = true ∧ ((labTags [(1, 100)]).core.tags.map Prod.fst).Nodup ∧
    (labTags [(1, 100)]).core.tags.at? (lab.block.slot0 + 1) = some (lab.readS 4) ∧
    (∀ j, j < lab.block.slots → j ≠ 1 → (labTags [(1, 100)]).core.tags.at? (lab.block.slot0 + j) ≠ some (lab.readS 4)) ∧
    (∀ k, k < lab.block.slots → lab.core.tags.at? (lab.block.slot0 + k) ≠ some (lab.readS 4)) ∧
    lab.block.slots = 2 ∧ ((withS [(1, 1)]).readS 1).toNat < 2 ∧ 2 ≤ ((withS [(1, 2)]).readS 1).toNat := by decide

/-- Outstanding operations that an acquire, a release and an overlapping access put first. -/
theorem test_ordering :
    let g := { labSys with ld := [regionOp 3], acqAfter := [3], relAfter := [3] }
    regionOp 3 ∈ g.ld ++ g.st ∧ (regionOp 3).finished = false ∧ (regionOp 3).tries = false ∧ 3 ∈ g.acqAfter ∧ 3 ∈ g.relAfter ∧
    (Place.mem 0x20).meets 4 (.mem 0x23) 1 = true ∧ (Place.mem 0x20).meets 4 (.mem 0x20) 4 = true ∧ (Place.mem 0x20).meets 4 (.mem 0x24) 1 = false ∧
    ([.fence .rel .sys, .fence .acq .grp, .ifence, .publish 20, .flushh 20 1, .lda 8 1 20 false .pkg, .stl 8 1 20 false .pkg] : List Instr).all
      (issuesB (labLanes 0 4)) = true ∧ AtomFn.swaps .addB32 = false := by decide

/-- PUBLISH in a coherent window, outside one, and where the check fails (R245). -/
def labPublish : State :=
  { withS [(20, 0x10000)] with
    cores := [(0, { CoreState.reset with tlb := [{ context := 1, va := 0x10000, level := 0, leaf := BitVec.ofNat 64 (0xF + 0x2C00001 * 2 ^ 20) }] })] }

theorem test_publish :
    labPublish.globalVerdict 0x10000 8 8 .atomic (fun _ _ => true) = .fails .permission 0x10000 ∧
    ({ labPublish with groups := [(0, { labGroup with s := [(20, 0x11040)] })] } : State).globalVerdict 0x11040 8 8 .atomic (fun _ _ => true) =
      .passes ∧ lab.globalVerdict 0x10000 8 8 .atomic (fun _ _ => true) = .passes ∧ lab.globalPlace .atomic 0x10000 = .mem 65536 ∧
    lab.inCoherentWindow 65536 = false ∧ lab.globalVerdict 0x20000 8 8 .atomic (fun _ _ => true) = .absent [2] ∧
    ((labSysWith { labSys with ld := [{ regionOp 3 with after := [9] }], tm := [{ regionOp 9 with act := .opfence }] }).afterRelease
      fun t => t.publishAt 0x11040).last = .held ∧ labPublish.inCoherentWindow (65536 * 0x2C00001 + 0x1040) = true ∧ lab.inCoherentWindow 0x1040 = false ∧
    GroupSys.waiting lab.gsys = [] ∧ labPublish.poisonedAt (65536 * 0x2C00001 + 0x1040) 8 = false := by decide

/-- R294, R295: each alignment, each end of a range, a queue with and without room. -/
def copyRegs (a b n : Word) : State := withS [(20, a), (22, b), (24, n)]

theorem test_copy : ([.copy 20 .gs 3 true 63, .copy 20 .sg 3 true 2, .copy 20 .gg 0 false 63, .copy 20 .cs 0 false 63, .copy 20 .sc 0 false 63,
    .copy 20 .gf 0 false 63, .copy 20 .fg 0 false 63, .persist] : List Instr).all (issuesB lab) = true ∧
    ((copyRegs 8 0 16).readPair 20).toNat % 16 ≠ 0 ∧ ((copyRegs 0 8 16).readPair 22).toNat % 16 ≠ 0 ∧ ((copyRegs 0 0 8).readS 24).toNat % 16 ≠ 0 ∧
    32768 < ((copyRegs 0 32768 16).readPair 22).toNat + 16 ∧
    (copyRegs 0 32752 16).copyCheck .gs 0 32752 16 (some 3) 63 0 = .passes ∧ (copyRegs 0 0 16).core.copies.length < 32 ∧
    CopyDir.source .gs = .g ∧ CopyDir.dest .gs = .s := by decide

def labRequest (n : Nat) : CopyRequest :=
  { id := n, block := 1, context := 1, source := .pad 0 0, dest := .pad 1 64, len := 16, tensor := none, bm := none, ch := 63, baton := 0,
    entries := [(0, 4)], after := [], ready := true, started := true, pushSince := none, left := [0],
    accepted := 0, read := [], held := [] }

/-- R296: a bitmap that the length exceeds, a page that a walk holds up, one that is absent, one that may not be written, a lattice
page, an end baton. -/
theorem test_copy_rows :
    let readOnly := { copyRegs 0 0 16 with cores := [(0, { CoreState.reset with tlb := [{ context := 1, va := 0, level := 0, leaf := 7 }] })] }
    let walked := { copyRegs 0x20000 0 16 with dies := [(0, { Die.reset with misses := [{ context := 1, vpage := 2, waiters := [0] }] })] }
    32 < 31 + (65536 + 32767) / 32768 ∧ walked.missHeld 0 1 0x20000 = true ∧ lab.missHeld 0 1 0x20000 = false ∧
    lab.checkPage 0 1 [] 0x20000 .read = .absent ∧ (readOnly.checkPage 0 1 [] 0 .write = .fails .permission) ∧
    readOnly.checkPage 0 1 [] 0 .read = .page 7 0 ∧ lab.checkPage 0 1 [] 0x10000 .read = .page leafLattice 0 ∧
    leafLattice.getLsbD 11 = true ∧ (withS [(25, 0xFFFFFFFF)]).readS 25 = 0xFFFFFFFF ∧ lab.relayOpen 0 true = true ∧
    (rel 0 { labRelay with desc := { labRelay.desc with strict := true, prod := 3 } }).relayOpen 0 true = false ∧
    lab.slotDenied .c (2 ^ 22) 16 ≠ none ∧ lab.slotDenied .c 0 16 = none ∧ lab.slotDenied .g 0 16 = none := by decide

/-- R303: a slice that joins and one that is the final one; a queue of 32 requests. -/
def labSlices (n : Word) : State :=
  let s := withS [(26, n)]
  { s with
    blocks := [(1, { labBlock with gathers := [(1, { labGather with fields := sliceFields (s.sliceBlock 16), request := 7, ch := 63 })] })]
    cores := [(0, { lab.core with copies := [labRequest 7] })] }

theorem test_later_slices :
    let s := labSlices 3
    let t := labSlices 2
    let g := { labGather with fields := sliceFields (t.sliceBlock 16), request := 7, ch := 63 }
    issuesB t (.tcopy 16 1 0 63) = true ∧ t.block.gathers.at? 1 = some g ∧ g.bm = 0 ∧ recOf (t.sliceBlock 16) % 64 = 0 ∧
    g.slices.length + 1 = slicesOf (t.sliceBlock 16) ∧ g.slices.length + 1 ≠ slicesOf (s.sliceBlock 16) ∧
    t.sliceCheck (t.sliceBlock 16) (tensorOf (t.sliceBlock 16) g.record (rowSet (g.rows ++ [(0, 0)]))) true 63 = .passes ∧
    s.sliceCheck (s.sliceBlock 16) (tensorOf (s.sliceBlock 16) g.record (rowSet (g.rows ++ [(0, 0)]))) false 63 = .passes ∧
    t.core.copies.find? (fun q => q.id == 7) = some (labRequest 7) ∧
    tileRowsOf ((withS [(25, 1)]).sliceBlock 16) < firstRowOf ((withS [(25, 1)]).sliceBlock 16) + rowCountOf ((withS [(25, 1)]).sliceBlock 16) := by
  decide

theorem test_copy_full : 32 ≤ ({ lab with cores := [(0, { lab.core with copies := (List.range 32).map labRequest })] } : State).core.copies.length := by
  decide

def labFlash : FlashRegion :=
  { name := 5, size := 8192, context := some 1, measure := none, data := [], late := [{ copy := 3, unit := 1, data := [] }], bad := [] }
def labRegion : State := { lab with hw := { lab.hw with flash := [labFlash] } }

theorem test_persist : (labRegion.flashOf 1).map FlashRegion.size = some 8192 ∧ ∀ c k q, (c, k) ∈ labRegion.cores → q ∈ k.copies → q.id ≠ 3 := by
  refine ⟨by decide, ?_⟩
  intro c k q h hq
  have : (c, k) = (0, { CoreState.reset with tlb := labTlb }) := by simpa [labRegion, lab] using h
  cases this; simp [CoreState.reset] at hq

/-- A tensor record (R299) of one dimension of 64 bytes, row stride 64: fields at 0, the tile's block at s16. -/
def labTile (first : Word) : State := withS [(16, 0), (18, 0), (22, 1), (26, first)]

theorem test_tcopy : issuesB lab (.tcopy 16 1 0 63) = true ∧ recOf ((withS [(16, 32)]).sliceBlock 16) % 64 ≠ 0 ∧
    recOf (lab.sliceBlock 16) % 64 = 0 ∧ lab.recordCheck 0 true = .passes ∧ lab.block.gathers.at? 1 = none ∧
    (labBlockWith { labBlock with gathers := [(1, labGather)] }).block.gathers.at? 1 = some labGather ∧
    labGather.fields ≠ sliceFields (lab.sliceBlock 16) := by decide

/-- R308: a bitmap that holds the bits, one that does not, before and after the bound. -/
theorem test_tryw :
    let s := labBlockWith { labBlock with bitmaps := [(3, 0xFF)] }
    ([.tryw 3 20 1 0, .bmtest 3 20 1, .bmclr 3 20, .rpush 1 (.reg 1), .rpop 3 0 true, .rpop 3 0 false, .rfree 3 0 1, .rstat 3 0] : List Instr).all
      (issuesB s) = true ∧ s.block.bitmaps.get 3 0 &&& 0x0F = (0x0F : DWord) ∧ s.block.bitmaps.get 3 0 &&& 0x100 ≠ (0x100 : DWord) ∧
    ((labAt { labSplit with hold := some heldSince }).split.hold.map Hold.since).getD 5000 + 256 * 2 ^ 0 ≤ 5000 ∧
    ¬ (lab.split.hold.map Hold.since).getD lab.now + 256 * 2 ^ 0 ≤ lab.now := by decide

theorem test_rfree : (lab.block.relays.get 0 Relay.unbound).desc.strict = false ∧ GroupSys.waiting lab.gsys = [] ∧
    ((rel 0 { labRelay with desc := { labRelay.desc with strict := true, cons := 3 } }).block.relays.get 0 Relay.unbound).desc.cons ≠
      lab.group.stage.toNat := by decide

/-- R315: RSTAT of a relay of capacity 4 with one baton in the ring and one held. -/
theorem test_rstat : (after (.rstat 3 0) lab).readS 3 = 0x04010201 := by decide

def labMma : State :=
  labWith { labGroup with
    splits := [(0, { labSplit with mask := 0x100 })], v := [(20, Vector.replicate 96 0), (21, Vector.replicate 96 64), (22, Vector.replicate 96 1024)] }

/-- R322 to R324: the words; an octet whose operands are fine; a tile past the segment, a misaligned one, entries past seg.a. -/
theorem test_matrix_words : ([.mma 20 .e4m3 .e4m3, .mmas 20 .e4m3 .e4m3, .accalloc 1 3 1, .accfree 1 2, .accz 1 2, .accwr 8 1 .b128, .accrdSat 8 1 .f32 .rne,
    .accrdInf 8 1 .bf16 .rtz, .wpin 1 2 .e4m3 false, .wunpin 2 .e4m3 false, .opfence] : List Instr).all (issuesB labMma) = true ∧
    labMma.octets = [(1, 8)] ∧ tileBytesA .e4m3 .e4m3 false = 816 ∧ tileBytesB .e4m3 false = 13056 ∧ tileBytesB .e4m3 true = 16896 ∧
    labMma.tableRoom 1 = true ∧ 64 + 13056 ≤ 32768 ∧ 1024 + 8 * 128 ≤ 2048 ∧ labMma.block.units.at? 1 ≠ none ∧ ¬ 1025 + 8 * 128 ≤ 2048 := by
  decide

/-- R331, R336: counts at their ends, a free run and none, units that are free and that are not. -/
theorem test_acc_words :
    let s := labBlockWith { labBlock with header := { labHeader with acc := 8 } }
    ((withS [(1, 32)]).readS 1).toNat ≤ 32 ∧ 32 < ((withS [(1, 33)]).readS 1).toNat ∧
    (2 + 6 ≤ s.block.header.acc ∧ ∀ j, 2 ≤ j → j < 8 → s.block.units.at? j = none) ∧ ¬ 2 + 7 ≤ s.block.header.acc ∧
    6 ≤ (s.freeUnits 0).length ∧ s.otherBlocks = [] ∧ s.blockTouches 1 [(0, 1024)] = false ∧ s.block.units.at? 0 ≠ none := by decide

/-- An accumulator entry at the end of the segment and one past it. -/
theorem test_acc_lanes : lab.block.units.at? (2047 / 1024) ≠ none ∧ ¬ 2048 < 2047 + 1 ∧ 2048 < 2048 + 1 ∧ 0 < tileBytesB .e4m3 false := by decide

theorem test_system_words : ([.segrd .a 8, .segld .p 8, .csrr 4 0x9F, .csrr 4 0x25, .csrw 4 0, .csrw 4 2, .csrw 4 0x11, .csrw 4 0x23, .csrw 4 0x24,
    .csrw 4 0x7F, .tlbinv 2 5, .tlbinvAll, .idle 3, .rft, .rftKill] : List Instr).all (issuesB labS) = true ∧
    labS.context.dbg = false ∧ (labDbg.context.dbg = true ∧ labDbg.context.dbgHeld = false) := by decide

/-- R361: a segment inside the one ATTACH gave, and one that reaches beyond it. -/
theorem test_segld : let s := withS [(8, 16384), (10, 16384)]
    (s.gsys.segAttach.s.extractLsb' 0 64).toNat ≤ (s.readPair 8).toNat ∧
    (s.readPair 8).toNat + (s.readPair 10).toNat ≤ (s.gsys.segAttach.s.extractLsb' 0 64).toNat + (s.gsys.segAttach.s.extractLsb' 64 64).toNat ∧
    (s.readPair 8).toNat % 4 = 0 ∧ ¬ (16385 + 16384 ≤ (s.gsys.segAttach.s.extractLsb' 64 64).toNat) := by decide

/-- R363: IDLE ends 256 × 2^K clocks after it began, and not one clock earlier. -/
theorem test_idle : (heldSince.since + 256 * 2 ^ 3 ≤ 2148) ∧ ¬ (heldSince.since + 256 * 2 ^ 3 ≤ 2147) ∧ heldSince.changes ≠ some lab.block.changes ∧
    lab.gsys.pendingFault = none := by decide

/-! ## Witnesses: events of a core -/

def labStop (why : Nat) (step : Option Nat) (ended : Bool) : State :=
  labSysWith { labSys with stop := some { why, split := 0, step, packet := none, ended } }

theorem test_debug_events : lab.contexts.at? 1 ≠ none ∧ lab.snap = none ∧ (lab.groupAt 0).phase ≠ .free ∧
    ((labStop 2 none false).sysAt 0).stop = some { why := 2, split := 0, step := none, packet := none, ended := false } ∧
    (labStop 3 (some 0) true).group.splits.at? 0 = some labSplit := by decide

/-- A split without a packet, at no breakpoint, whose packet can be fetched (R65). -/
theorem test_packet_fetch : lab.free = true ∧ lab.split.packet = none ∧ lab.atBreakpoint = false ∧
    ∃ p v, lab.packetAt = .packet p v :=
  ⟨by decide, by decide, by decide, _, _, rfl⟩

/-- R113, R114 at their bounds: 4,096 clocks ready, and 256 branches back. -/
theorem test_progress_events : starving { labSplit with waits := 4096 } = true ∧
    starving { labSplit with waits := 4095 } = false ∧ lab.mayAct 0 0 0 = true ∧ 256 ≤ ({ labSplit with back := 256 } : Split).back := by
  decide

def labFault : NonMonotone := { addr := 0x10004, lane := 1, stored := 30, current := 50, failed := 2 }

/-- R284's worked example: a store of 30 on a cell that holds 50 is delivered with lane 1, stored 30 and current 50. -/
theorem test_recoverable :
    let s := { labTvec with
      groups := [(0, { labGroup with splits := [(0, { labSplit with packet := some labPacket })] })]
      sys := [(0, { labSys with pendingFault := some labFault })] }
    (s.mayAct 0 0 0 = true ∧ (s.onSplit 0 0 0).clockLeft = true ∧ s.soleChoice 0 0 0 = true ∧ (s.onSplit 0 0 0).aboutToIssue = true ∧ (s.sysAt 0).before = none ∧ (s.groupAt 0).level = .u ∧ (s.sysAt 0).pendingFault = some labFault) ∧
    let t := after (.recoverableFaultDelivery 0 0 0) s
    t.gsys.csr.ecause = 0x30 ∧ t.gsys.csr.elane = 1 ∧ t.gsys.csr.earg[2] = 30 ∧ t.gsys.csr.earg[3] = 50 := by decide +kernel

def holding (w : Word) (h : Hold) (g : Group) : State :=
  labWith { g with splits := [(0, { labSplit with packet := some { w0 := w, w1 := 0, w2 := 0 }, hold := some h })] }

/-- Held words of one word's issue group: a pop with the shrink flag set, a TRYW past its bound, an IDLE past its bound. -/
theorem test_held_events :
    let p := { holding 0x6E2B0001 { heldSince with chans := [(0, false)] } { labGroup with shrink := true } with
      blocks := [(1, { labBlock with relays := [(0, { labRelay with filled := 0 })] })] }
    let t := holding 0x6C032090 heldSince labGroup
    let i := holding 0x76C60000 heldSince { labGroup with level := .s }
    (p.free = true ∧ p.clockLeft = true ∧ p.soleChoice 0 0 0 = true ∧ p.shrinkHeld = true ∧ p.heldWords = [.plain (.rpop 10 0 true)] ∧ issuesB p (.rpop 10 0 true) = true ∧
      p.relayOpen 0 false = true ∧ (p.vrelay 0).filled = 0 ∧ p.split.hold ≠ none) ∧
    (t.free = true ∧ t.clockLeft = true ∧ t.soleChoice 0 0 0 = true ∧ t.heldWords = [.plain (.tryw 3 8 1 2)] ∧ issuesB t (.tryw 3 8 1 2) = true ∧ heldSince.since + 256 * 2 ^ 2 ≤ t.now) ∧
    (i.free = true ∧ i.clockLeft = true ∧ i.soleChoice 0 0 0 = true ∧ i.heldWords = [.sys (.idle 3)] ∧ issuesB i (.idle 3) = true ∧ heldSince.since + 256 * 2 ^ 3 ≤ i.now) := by decide

theorem test_tlbinv_completion :
    let s := labAt { labSplit with drop := some (some (0, 1)) }
    s.group.splits.at? 0 = some { labSplit with drop := some (some (0, 1)) } ∧ s.usesEntries 1 (some (0, 1)) = false := by decide

def tmState (act : OpAct) : State := labSysWith { labSys with tm := [pendingOf act []] }

theorem test_tm : (tmState .opfence).gsys.tm = [pendingOf .opfence []] ∧ (pendingOf .opfence []).finished = false ∧
    (∀ q, q ∈ (tmState .opfence).gsys.all → q.id ∈ (pendingOf .opfence []).after → q.finished = true) ∧ (pendingOf .opfence []).failed = [] ∧
    (lab.blockAt 1).accKey 1024 ≠ none ∧ (lab.clusterAt 0).entries = [] ∧ (3 : PReg) ≠ 7 ∧
    arrayOf (lab.clusterAt 0) { core := 0, off := 0, fmt := .e4m3, sparse := false } = none ∧ (pinnedArrays (lab.clusterAt 0)).length < 3 ∧
    mayTake (lab.clusterAt 0) 3 = true := by decide

theorem test_no_entries : ∀ c, (lab.clusterAt c).entries = [] := fun _ => rfl

def tryAccess : Access := { memAccess 0 0x10000 4 9 with data := BitVec.ofNat 128 (9 + 0 * 2 ^ 64) }

/-- R281: an LTRY 1,024 clocks after its issue. -/
theorem test_ltry_expiry :
    let p := { pendingOf (.latTry false 8 1) [tryAccess] with issued := 3976 }
    let s := labSysWith { labSys with ld := [p] }
    s.gsys.ld = [p] ∧ p.issued + 1024 ≤ s.now ∧ s.gsys.freeLanes p (BitVec.allOnes 96) = true ∧ p.finished = false ∧ p.mask.getLsbD 0 = true ∧ (tryType tryAccess).wide = false ∧ tryType tryAccess ≠ .cnt8x32 ∧
    s.hazardOf 1 true tryAccess = none ∧ p.spoiled = [] ∧ p.spoiledPreds = [] := by decide

theorem test_hot_spare :
    let s := { lab with cores := [(0, { lab.core with corrected := List.replicate 64 5000 })] }
    (s.coreAt 0).paused = false ∧ s.pastThreshold 0 = true ∧ (s.dieAt 0).spareUsed = false ∧
    ({ lab with cores := [(0, { lab.core with paused := true })] } : State).core.paused = true := by decide

/-! ## Witnesses: launches and blocks -/

/-- A header at address 0 of context 1 whose words are zero has a status: no stage, no width. -/
theorem test_header_refused :
    let s := { lab with launches := [(1, { Launch.none with context := 1, phase := .queued })], queues := [(0, [1])] }
    s.launchCore 1 = 0 ∧ s.headIn 0 0 .queued = some 1 ∧ (s.launchAt 1).partition = 0 ∧ (s.launchAt 1).command = none ∧
    s.launchRead 0 1 0x20000 128 = .fails ∧ s.launchAsk 0 1 0 128 1 = s ∧ (∃ b, s.launchRead 0 1 0 128 = .bytes b) :=
  ⟨by decide, by decide, by decide, by decide, by decide, by decide, _, rfl⟩

/-- A header on a page of a peer that is not on the roster, and one on a poisoned line. -/
theorem test_header_stops :
    let s := { lab with cores := [(0, { CoreState.reset with tlb := [{ context := 1, va := 0, level := 0, leaf := leafPlain + 2 ^ 17 + 5 * 2 ^ 20 }] })] }
    (∃ h, s.launchRead 0 1 0 128 = .stops h) ∧
    ∃ h, ({ lab with hw := { lab.hw with poisoned := [1] } } : State).launchRead 0 1 0 128 = .stops h :=
  ⟨⟨_, rfl⟩, _, rfl⟩

def labLaunch (ph : LaunchPhase) (h : Header) : State :=
  { lab with launches := [(1, { (lab.launchAt 1) with phase := ph, header := h })], queues := [(0, [1])] }

/-- R123: the dependence address misaligned, absent, refused, present and reached or not. -/
theorem test_dependence :
    let s := labLaunch .waiting { labHeader with afterva := 8, afterv := 1 }
    s.launchCore 1 = 0 ∧ s.partitionCore 0 = 0 ∧ s.headIn 0 0 .waiting = some 1 ∧ ((s.launchAt 1).recheckAt ≤ s.now) ∧ s.checkPage 0 1 [] 8 .read = .page leafPlain 0 ∧
    leafPeer leafPlain = false ∧ leafLat leafPlain = false ∧ s.placeFor 0 leafPlain 0 8 = .mem 8 ∧ s.poisonedAt 8 8 = false ∧
    ({ s with hw := { s.hw with poisoned := [0] } } : State).poisonedAt 8 8 = true ∧ s.frameUsable 1 0 = true ∧ s.frameUsable 1 9 = false ∧
    s.mem.read 8 8 < 1 ∧ s.checkPage 0 1 [] 0x20000 .read = .absent ∧ (s.dieAt 0).faults.length < 512 ∧
    labPublish.checkPage 0 1 [] 0x10000 .fetch = .fails .permission := by decide

def oneBlock : Header := { labHeader with blocks := 1, widths := [7], blklvl := 1, place := [0] }

def labRes : State :=
  { lab with
    blocks := [], groups := [], sys := [], queues := [(0, [1])], launches := [(1, { (lab.launchAt 1) with header := oneBlock, next := 0 })],
    hw := { lab.hw with partitions := [(0, { Partition.none with valid := true, gran := 1 })] } }

theorem test_residency : labRes.headIn 0 0 .ready = some 1 ∧ labRes.hw.power.computeUp = true ∧ labRes.queueInTurn 0 0 = some 0 ∧
    nextBlock (labRes.launchAt 1) = some 0 ∧ labRes.mayPlace (labRes.launchAt 1) 0 0 = true ∧ labRes.blockFits 0 oneBlock 0 = true ∧
    labRes.privateFree 1 oneBlock 0x4000 = true ∧ oneBlock.stages.map Stage.min = [1] ∧ (labRes.groupAt 0).phase = .free := by decide

/-! ## Witnesses: the end of blocks, growth, pre-emption, checkpoints -/

def labNoGroups (ended blocks : Nat) (done : Nat) : State :=
  { lab with
    groups := [], sys := []
    launches := [(1, { (lab.launchAt 1) with ended, header := { labHeader with blocks, doneva := done } })] }

/-- R126: a block that is not its launch's last, and the last one without and with a completion word. -/
theorem test_block_end : (lab.blocks.at? 1).isSome = true ∧ (labNoGroups 0 3 0).groupsIn 1 = [] ∧ 0 + 1 ≠ ((labNoGroups 0 3 0).launchAt 1).header.blocks ∧
    2 + 1 = ((labNoGroups 2 3 0).launchAt 1).header.blocks ∧ ((labNoGroups 2 3 0).launchAt 1).header.stats = false ∧
    ((labNoGroups 2 3 0).launchAt 1).command = none ∧ (labNoGroups 2 3 8).checkPage 0 1 [] 8 .write = .page leafPlain 0 := by decide

def twoStages : Header :=
  { labHeader with stages := [{ entry := 4, min := 1, max := 2, vregs := 0, barmask := 0 }, { entry := 9, min := 1, max := 2, vregs := 0, barmask := 0 }] }

/-- R129, R130: a stage whose input has been half full for 1,024 clocks; a stage of two groups whose input has been empty for
4,096, while another stage wants room that the core does not have. -/
theorem test_growth :
    let r : Relay := { labRelay with desc := { labRelay.desc with cons := 1 }, filled := 2, fullSince := some 3976 }
    let s := labBlockWith { labBlock with header := twoStages, relays := [(0, r)] }
    s.wantsGroup 1 1 = true ∧ s.hasGroupRoom 1 1 = true ∧ (s.groupAt 1).phase = .free ∧ (s.groupAt 0).phase ≠ .free := by decide

theorem test_shrink :
    let r : Relay := { labRelay with filled := 0, emptySince := some 904 }
    let q : Relay := { labRelay with desc := { labRelay.desc with cons := 1 }, filled := 2, fullSince := some 0 }
    let g : Group := { labGroup with stage := 0 }
    let s := { lab with
      blocks := [(1, { labBlock with header := { twoStages with relays := 2 }, relays := [(0, r), (1, q)] })]
      groups := (List.range 15).map (fun k => (k, g)) ++ [(15, { g with stage := 1 })] }
    s.mayShrink 1 0 = true ∧ 0 ∈ s.stageGroups 1 0 ∧ (s.groupAt 0).phase = .attached := by decide +kernel

theorem test_slot_release : let s := labWith { labGroup with phase := .ended }
    (s.groupAt 0).phase = .ended ∧ (s.sysAt 0).st = [] ∧ (s.sysAt 0).cp = [] ∧ (s.sysAt 0).tm = [] := by decide

def labPre (restart : Bool) (latbound ended : Nat) : State :=
  { lab with
    blocks := [(1, { labBlock with header := { labHeader with restart, latbound }, since := 4000 })]
    launches := [(1, { (lab.launchAt 1) with ended, runTime := 10 * ended })] }

/-- R366 at its branches: flush, drain and save without a bound, save, drain and miss under one. -/
theorem test_methods : (labPre true 0 0).methodFor 1 0 0 = .flush ∧ (labPre false 0 1).methodFor 1 0 0 = .drain ∧
    (labPre false 0 0).methodFor 1 0 0 = .save ∧ (labPre false 100 0).methodFor 1 0 0 = .save ∧ (labPre false 0 0).methodFor 1 1 0 = .miss ∧
    lab.assisted 0 3 = false ∧ (lab.coreAt 0).paused = false ∧ (lab.sysAt 0).before = none ∧ (lab.sysAt 0).all = [] ∧
    (lab.groupAt 0).splits.all (fun e => e.2.drop == none && e.2.hold.bind Hold.publish == none) = true := by decide +kernel

/-- A block saved by an image, which may then be restored. -/
noncomputable def labSaved : State := { after (.preemptionRequest 1 0 2) (labPre false 0 0) with hw := labRes.hw }

theorem test_save_restore : labSaved.blocks.at? 1 = none ∧ ((labSaved.firmAt 1).images.map fun i => (i.seq, i.saved, i.queued, i.sealed, i.number)) =
      [(1, true, true, false, 0)] ∧ ((labSaved.firmAt 1).images.map fun i => labSaved.mayRestore 1 i 0 2) = [true] ∧
    ((after (.blockRestore 1 1 0 2 true) labSaved).blocks.map fun e => (e.2.core, e.2.slot0, e.2.number)) = [(0, 2, 0)] := by decide +kernel

theorem test_checkpoint :
    let s := { lab with blocks := [], groups := [], sys := [], firm := [(1, { ContextFirm.none with ckint := 1 })], now := 2500000 }
    s.assisted 0 4 = false ∧ s.mayCut 1 = true ∧ s.blocksOf 1 = [] ∧ s.badPage 1 = none ∧
    (((after (.checkpointTimer 1) s).hw.checkpoints.get 1 []).map fun x => (x.seq, x.complete, x.command)) = [(1, false, none)] := by decide +kernel

/-! ## Witnesses: engines -/

def labCopies (l : List CopyRequest) : State :=
  { lab with cores := [(0, { lab.core with copies := l })], sys := [(0, { labSys with cp := [{ pendingOf (.copy 7) [] with id := 4 }] })] }

theorem test_copy_start :
    let r := { labRequest 7 with started := false }
    let s := labCopies [r]
    s.core.copies.find? (fun x => x.ready && !x.started) = some r ∧ (∀ x, x ∈ s.core.copies → x.pushSince = none) ∧
    (s.core.copies.filter CopyRequest.started).length < 4 ∧ 4 ≤ ((labCopies ((List.range 4).map labRequest)).core.copies.filter CopyRequest.started).length ∧
    s.requestOf 0 7 = some r := by decide

theorem test_copy_chunk :
    let pad := labRequest 7
    let up := { labRequest 7 with dest := .global 0x40 }
    let down := { labRequest 7 with source := .global 0x40, dest := .pad 0 0 }
    (labCopies [pad]).mayMove 0 7 0 1 = true ∧ (labCopies [up]).mayMove 0 7 0 1 = true ∧ (labCopies [down]).mayMove 0 7 0 1 = true ∧
    (pad.left.filter fun x => x / 32 == 0 && (1 : BitVec 128).getLsbD (x % 32)) = [0] ∧ lab.placeAt 0 1 0x40 .write = .mem 0x40 ∧
    lab.engineHazard 0 1 0x40 16 .write = none ∧ lab.engineHazard 0 1 0x40 16 .read = none := by decide

theorem test_copy_end :
    let r := { labRequest 7 with left := [], ch := 0 }
    let s := labCopies [r]
    s.requestOf 0 7 = some r ∧ 1 ≤ (s.relayOf 1 0).allow ∧ s.splitsWaiting 1 0 true s.now (2 ^ 32) none = false ∧
    (labCopies [{ r with pushSince := some 100 }]).copyMayPush 0 { r with pushSince := some 100 } 100 = true ∧
    ({ labRelay with held := 3 } : Relay).allow = 0 ∧ (s.sysAt 0).cp.map Pending.id = [4] ∧ ∀ q, q ∈ (s.sysAt 0).cp → q.record = none := by decide

theorem test_persist_durable :
    let p := pendingOf (.persist [(3, 1)]) []
    let s := { labRegion with sys := [(0, { labSys with cp := [p] })] }
    (s.sysAt 0).cp = [p] ∧ p.finished = false ∧ s.flashOf 1 = some labFlash := by decide

def labKey : BKey := { core := 0, off := 64, fmt := .bf16, sparse := false }
def labEntry (id : Nat) (running : Option Nat) : MatrixEntry :=
  { id, core := 0, slot := 0, octet := 1, block := 1, context := 1, prio := 0, key := labKey, aCore := 0, aOff := 0, afmt := .bf16,
    acc := 1024, posted := 100, after := [], running, grant := 0, spoiled := false, finished := false, later := 0 }
def labCluster (l : List MatrixEntry) (busy : List Nat) : State :=
  { lab with
    clusters := [(0, { Cluster.reset with entries := l, arrays := [(2, { ArrayState.reset with busy, key := some labKey })] })]
    sys := [(0, { labSys with tm := [{ pendingOf (.matrix [5]) [] with id := 4 }] })] }

theorem test_matrix_events :
    let s := labCluster [labEntry 5 none] []
    let t := labCluster [labEntry 5 (some 2)] [5]
    s.nextPass 0 2 = [labEntry 5 none] ∧ mayFinish (t.clusterAt 0) (labEntry 5 (some 2)) = true ∧
    (t.clusterAt 0).entries.find? (fun x => x.id == 5) = some (labEntry 5 (some 2)) ∧ labKey.fmt.scaledB = false ∧
    (∀ i, i < 1024 → (t.blockAt 1).accKey (1024 + i) ≠ none) := by decide +kernel

theorem test_matrix_entries_apart : ∀ i j, i < 1024 → j < i → labBlock.accKey (1024 + j) ≠ labBlock.accKey (1024 + i) := by
  intro i j hi hj
  have h : ∀ k, k < 1024 → labBlock.accKey (1024 + k) = some (1024 + k) := by
    intro k hk
    have h1 : (1024 + k) / 1024 = 1 := by omega
    have h2 : (1024 + k) % 1024 = k := by omega
    simp [Block.accKey, Block.unitOf, h1, h2, labBlock, Block.none, Table.at?]
  rw [h i hi, h j (by omega)]; simp; omega

/-! ## Witnesses: lattices, service -/

/-- R270: the partners of four dies in laps 0 and 1 of the hypercube and of the ring. -/
theorem test_partners : lapPartners 0 0 4 1 = [0] ∧ lapPartners 0 1 4 1 = [2] ∧ lapPartners 1 1 4 1 = [3] ∧ lapPartners 2 0 4 1 = [0, 2, 3] := by decide

def labLap (a b : LapState) : State :=
  { lab with contexts := [(1, { lab.context with laps := [(lapKey 0 0, a), (lapKey 0 1, b)] })] }

theorem test_laps :
    let l : LapState := { LapState.none with begun := 100 }
    let m : LapState := { LapState.none with number := 3, inLap := true, pending := [1] }
    (lab.contexts.at? 1).isSome = true ∧ lab.context.vdies.Nodup ∧ (∀ d, d ∈ lab.context.vdies → d < 4) ∧
    l.inLap = false ∧ l.begun + 256 * regionLap (lab.context.regions.get 0 0) ≤ lab.now ∧
    (labLap m { m with pending := [0] }).mayExchange 1 0 0 1 = true := by decide


/-! ## Witnesses: what the reads and writes of a copy meet, sealed images, exchanges -/

/-- R255, R293: a unit of 16 bytes to read, from each kind of source, and the same unit once all of it is read. -/
theorem test_copy_reads :
    let r := labRequest 7
    let up := { r with source := .global 0x40, dest := .pad 0 0 }
    let flash := { r with source := .flash 16, dest := .pad 0 0 }
    let all : CopyRequest := { r with read := [(0, 0xFFFF)] }
    let out := { all with dest := .global 0x40 }
    let back := { all with dest := .flash 16 }
    let s := labCopies [flash]
    let f := { s with hw := { s.hw with flash := [labFlash] } }
    (labCopies [r]).core.turnAt ≠ some 5000 ∧ r.isRead 0 = false ∧ (labCopies [up]).mayMove 0 7 0 1 = true ∧ up.isRead 0 = false ∧
    (List.range 16).all (fun i => lab.placeAt 0 1 (0x40 + 16 * 0 + i) .read == .mem (0x40 + i)) = true ∧
    f.mayMove 0 7 0 1 = true ∧ f.flashBad flash 0 = false ∧ f.flashOf 1 = some labFlash ∧
    all.isRead 0 = true ∧ (List.range 16).all (fun i => inSource all i == false) = true ∧ (labCopies [all]).mayMove 0 7 0 1 = true ∧
    ((labCopies [all]).clusterAt 0).entries = [] ∧ (labCopies [out]).mayMove 0 7 0 1 = true ∧ inSource out 15 = false ∧
    (labCopies [back]).mayMove 0 7 0 1 = true ∧ inSource back 15 = false ∧
    (labCopies [{ r with left := [], ch := 0 }]).laterPushed { r with left := [], ch := 0 } = false := by decide +kernel

/-- R366: a drain whose bound has run out, on a block with nothing outstanding. -/
theorem test_drain_ends :
    let s := labBlockWith { labBlock with drain := some 5000 }
    (s.blockAt 1).drain = some 5000 ∧ 5000 ≤ s.now ∧ (s.sysAt 0).all = [] ∧ (s.coreAt 0).copies = [] ∧
    (s.clusterAt 0).entries = [] := by decide

/-- R364: an image of a sealed context that is not the block's latest. -/
theorem test_sealed_image :
    let s : State := { labSaved with firm := labSaved.firm.map fun (e : Nat × ContextFirm) => (e.1, { e.2 with
      images := e.2.images.map fun i => { i with sealed := true }, latest := [(1, 0, 2)] }) }
    ((s.firmAt 1).images.map fun i => (i.seq, i.sealed, i.launch, i.number)) = [(1, true, 1, 0)] ∧ (s.contexts.at? 1).isSome = true := by decide +kernel

def labCheckpoint (sealed : Bool) : Checkpoint :=
  { seq := 1, hostTriggered := false, sealed, context := lab.context, firm := ContextFirm.none, leaves := [], pages := [], launches := [], queues := [],
    images := [], manifest := [], coded := [], tag := [], complete := false, command := none, bad := false }

theorem test_commit : ∀ sealed, let s := { lab with hw := { lab.hw with checkpoints := [(1, [labCheckpoint sealed])] } }
    (s.hw.checkpoints.get 1 []).find? (fun y => !y.complete) = some (labCheckpoint sealed) ∧ (labCheckpoint sealed).sealed = sealed := by
  intro sealed; cases sealed <;> exact ⟨rfl, rfl⟩
/-- Translation tables of context 1 in frame 100: one table a level, the leaf of page `p` (R378, R379). -/
def tablesAt : Nat := 65536 * 100
def tableMem (p : Nat) (leaf : DWord) : Memory :=
  let next := fun k => 1 + 2 ^ 20 * ((tablesAt + k) / 256)
  (((State.reset.mem.write tablesAt 8 (next 262144)).write (tablesAt + 262144) 8 (next 524288)).write (tablesAt + 524288) 8 (next 528384)).write
    (tablesAt + 528384 + 8 * p) 8 leaf.toNat

/-- The frames of those tables. -/
def tableFrames : List Nat := [100, 104, 108]

def labTables (p : Nat) (leaf : DWord) : State :=
  { lab with
    mem := tableMem p leaf, contexts := [(1, { lab.context with tbase := tablesAt })], firm := [(1, { ContextFirm.none with allowance := 5, tables := tableFrames })],
    hw := { lab.hw with
      frames := [(0, { FrameRecord.free with owner := 1, state := .owned }), (1, { FrameRecord.free with owner := 1, state := .owned, lat := true }),
                 (2, { FrameRecord.free with owner := 1, state := .owned, lat := true }), (100, { FrameRecord.free with owner := 0xFFFF, state := .owned }),
                 (104, { FrameRecord.free with owner := 0xFFFF, state := .owned }), (108, { FrameRecord.free with owner := 0xFFFF, state := .owned })]
      frameSets := [(3, [1, 2, 1, 1])], partitions := [(0, { Partition.none with valid := true, gran := 1 })] } }

theorem test_walk : walk (labTables 1 leafLattice).mem tablesAt 0x10000 = .leaf leafLattice 0 ∧
    walk (labTables 1 leafLattice).mem tablesAt 0x20000 = .absent := by decide +kernel

/-- R268, R272: the frames of the region's one page on two dies are apart. -/
theorem test_replicas : (labTables 1 leafLattice).replicaFrame 1 0 0 0 = some 1 ∧ (labTables 1 leafLattice).replicaFrame 1 0 1 0 = some 2 ∧
    regionPages (lab.context.regions.get 0 0) = 1 := by decide +kernel

theorem test_snapshot : let q : QWord := BitVec.ofNat 128 (0x10000 + 2 ^ 64 + 2 ^ 80 + 2 ^ 83)
    q.getLsbD 83 = true ∧ q.getLsbD 80 = true ∧ 5 ∈ ({ Context.none with roster := [5] } : Context).roster ∧ 65532 % 4 = 0 := by decide

/-- R235's worked example: 1.0 and 2.0 arrive at an element that holds 0.5. -/
theorem test_reduction_example : AtomFn.addF32.apply (AtomFn.addF32.apply 0x3F000000 0x3F800000) 0x40000000 = 0x40600000 := by decide +kernel

def labReduce : State :=
  { lab with contexts := [(1, { lab.context with
      roster := [5], windows := [(2, BitVec.ofNat 256 (0x4000 + 2 ^ 60 + 2 ^ 61 + 2 ^ 64 * 0x100 + 2 ^ 104 * 20 + 2 ^ 112 * 2))] })] }

theorem test_reduction_line : let w := labReduce.context.windows.get 2 0
    w.getLsbD 60 = true ∧ w.getLsbD 61 = true ∧ windowFn (winOp w) = some .addF32 ∧ 128 * 1 < winSize w ∧ winDone w = 0 ∧
    labReduce.homePlace 1 (winBase w + 128) = some 0x4080 ∧ 5 ∈ labReduce.context.roster ∧ labReduce.frameUsable 1 0 = true ∧
    labReduce.poisonedAt 0xFFF8 8 = false ∧ 65528 + 8 ≤ 65536 := by decide +kernel

/-- A reduction line of a window with a completion word at 0x5000, which stays where it is whatever the line writes. -/
theorem test_reduction_done : ∀ u : State, { u with mem := labReduce.mem, hw := labReduce.hw, firm := labReduce.firm } = labReduce →
    { u.hw with hostOut := labReduce.hw.hostOut } = labReduce.hw → u.homePlace 1 0x5000 = some 0x5000 := by
  intro u h1 h2
  have hc : u.contexts = labReduce.contexts := by have h := congrArg State.contexts h1; exact h
  have hk : u.cores = labReduce.cores := by have h := congrArg State.cores h1; exact h
  have hd : u.dies = labReduce.dies := by have h := congrArg State.dies h1; exact h
  have hf : u.hw.frames = labReduce.hw.frames := by have h := congrArg Module.frames h2; exact h
  have hs : u.hw.frameSets = labReduce.hw.frameSets := by have h := congrArg Module.frameSets h2; exact h
  have ha : u.hw.addrMap = labReduce.hw.addrMap := by have h := congrArg Module.addrMap h2; exact h
  have hp : u.hw.partitions = labReduce.hw.partitions := by have h := congrArg Module.partitions h2; exact h
  have hq : u.hw.poisoned = labReduce.hw.poisoned := by have h := congrArg Module.poisoned h2; exact h
  have ht : u.translate (u.launchCore 1) 1 0x5000 = .leaf leafPlain 0 := by
    simp only [State.translate, State.coreAt, State.dieAt, State.launchCore, State.partitionCore, State.partitionAt, State.contextAt, hc, hk, hd, hp]
    rfl
  have hkind : ∀ f, u.frameKind f = labReduce.frameKind f := fun f => by simp only [State.frameKind, ha]
  have hframe : ∀ f, u.frameAt f = labReduce.frameAt f := fun f => by simp only [State.frameAt, hf]
  have hx : u.contextAt 1 = labReduce.contextAt 1 := by simp only [State.contextAt, hc]
  have hfo : ∀ d e l v, u.frameOf d e l v = labReduce.frameOf d e l v := fun d e l v => by
    simp only [State.frameOf, State.setFrame, hs]
  have hcore : u.launchCore 1 = 0 := by
    simp only [hx, State.launchCore, State.partitionCore, State.partitionAt, hp]; decide
  have hpage : u.checkPage 0 1 [] 0x5000 .write = .page leafPlain 0 := by
    rw [hcore] at ht
    simp only [State.checkPage, ht, hx, hfo, State.fillPasses, State.windowReadOnly, State.meetsError, hkind, hframe, hq]
    decide +kernel
  simp only [State.homePlace, hcore, hpage, State.placeFor, State.physical, hfo]
  decide +kernel


/-- R272, R287: two dies that exchange the one region in force; no line of it is poisoned. -/
theorem test_exchange :
    let l : LapState := { LapState.none with number := 3, inLap := true, pending := [1] }
    let s := { labTables 1 leafLattice with contexts := [(1, { (labTables 1 leafLattice).context with
      laps := [(lapKey 0 0, l), (lapKey 0 1, { l with pending := [0] })] })] }
    s.mayExchange 1 0 0 1 = true ∧ s.badReplica 1 0 0 = none ∧ s.badReplica 1 0 1 = none ∧ s.replicaFrame 1 0 0 0 = some 1 ∧
    s.replicaFrame 1 0 1 0 = some 2 ∧ (s.contextAt 1).regions.map Prod.fst = [0] ∧
    regionPages ((s.contextAt 1).regions.get 0 0) = 1 := by decide +kernel

/-- R268: a descriptor whose pages are mapped as its own. -/
theorem test_region_mapped : (labTables 1 leafLattice).regionMapped 1 (BitVec.ofNat 128 (0x10000 + 2 ^ 64 + 2 ^ 83)) = true ∧
    (labTables 1 leafPlain).regionMapped 1 (BitVec.ofNat 128 (0x10000 + 2 ^ 64 + 2 ^ 83)) = false := by decide +kernel
/-! ## Witnesses: the service of faults, pacers, host calls -/

/-- R382: a page that a die's TLB holds, one that a walk is in progress for, and one that neither knows. -/
theorem test_tlb_events :
    let m : MissEntry := { context := 1, vpage := 2, waiters := [0] }
    let s := { lab with dies := [(0, { Die.reset with tlb := labTlb, misses := [m] })] }
    (lab.contexts.at? 1).isSome = true ∧ (∀ e, e ∈ lab.core.tlb → e.covers 1 0x20000 = false) ∧
    (s.dieAt 0).tlb.find? (fun e => e.covers 1 0x10000) = some { context := 1, va := 0x10000, level := 0, leaf := leafLattice } ∧
    (s.dieAt 0).misses.find? (fun m => m.context == 1 && m.vpage == 2) = some m ∧ (s.dieAt 0).misses.length < 64 ∧
    walk (labTables 2 leafPlain).mem tablesAt 0x20000 = .leaf leafPlain 0 ∧
    (labTables 2 leafPlain).fillPasses ((labTables 2 leafPlain).contextAt 1) 1 leafPlain 0 = true := by decide +kernel

def labEntryOf (page : Nat) : FaultEntry := { faultEntry page 1 0 1 0 0 0 (.split 0 0) with seq := 7 }

/-- A fault of page `page` waits on die 0, its tenant's turn has come, its context has a reservation or not. -/
def labService (page : Nat) (r : List Reservation) (allowance : Nat) (mode : BitVec 6) : State :=
  let s := labTables 1 leafPlain
  { s with
    dies := [(0, { Die.reset with faults := [labEntryOf page], faultSeq := 8 })]
    groups := [(0, { labGroup with splits := [(0, { labSplit with missing := [page] })] })]
    firm := [(1, { ContextFirm.none with allowance, tables := tableFrames, reservations := r })]
    hw := { s.hw with pacers := [(0, 0x10164)], partitions := [(0, { Partition.none with valid := true, gran := 1, mode })] } }

def labReserve (attrs : BitVec 16) : Reservation := { va := 0x20000, len := 0x10000, attrs }

/-- R401: no reservation; a page that is mapped already; one filled by the host; no allowance; a page that can be mapped. -/
theorem test_fault_service :
    let s := labService 2 [labReserve 3] 1 0
    s.firstFault 0 7 = some (labEntryOf 2) ∧ servingDie 0 = farDieOf 0 ∧ s.serviceDue 0 0 5 = true ∧ s.mayService (labEntryOf 2) = true ∧
    s.assisted 0 0 = false ∧ s.latticeFault (labEntryOf 2) = false ∧ s.reservationOf 1 2 = some (labReserve 3) ∧
    walk s.mem tablesAt 0x20000 = .absent ∧ (labReserve 3).attrs.getLsbD 8 = false ∧ (labReserve 0x100).attrs.getLsbD 8 = true ∧
    (labService 3 [labReserve 3] 1 0).reservationOf 1 3 = none ∧ ({ labEntryOf 2 with assisted := true }).assisted = true ∧
    s.pickFrame 0 0 0 50 = some 50 ∧ (labEntryOf 2).assisted = false ∧ lab.badEntry 1 0x20000 = none ∧
    (s.contextAt 1).prot = false ∧ s.hw.spaces.all (fun y => y.2.extents.all fun z => z.1 == 0 || y.2.asked.contains z) = true ∧ (s.firmAt 1).allowance ≠ 0 := by decide +kernel

theorem test_service_maps :
    let t := after (.faultServiceEntry 0 0 7 ⟨50, true⟩ 5) (labService 2 [labReserve 3] 1 0)
    walk t.mem tablesAt 0x20000 = .leaf (serviceLeaf (labReserve 3) 50) 0 ∧ (t.frameAt 50).owner = 1 ∧ t.split.missing = [] ∧
    (t.firmAt 1).allowance = 0 := by decide +kernel

/-- A leaf's address does not change where only frame 50 does (the hypothesis about the tables, for entries in frame 108). -/
theorem test_held_post : let k : Die := { Die.reset with held := [labEntryOf 2], faults := [labEntryOf 3] }
    k.held = labEntryOf 2 :: [] ∧ k.faults.length < 512 ∧ ∀ y, y ∈ k.faults → ¬ (y.context = 1 ∧ y.vpage = 2) := by decide

theorem test_fetch_reply :
    let s := { labService 2 [labReserve 0x103] 1 0 with hw := { (labService 2 [labReserve 0x103] 1 0).hw with
      fetches := [{ server := 0, die := 0, seq := 7, space := 0, ring := 1 }] } }
    s.hw.fetches.any (fun y => y.die == 0 && y.seq == 7) = true ∧ s.faultAt 0 7 = some (labEntryOf 2) ∧ s.reservationOf 1 2 = some (labReserve 0x103) ∧
    s.resumeDue 0 0 5 = true := by decide +kernel

/-- R397 at its edge: shares of 100 percent and of 101. -/
theorem test_pacer : let w : DWord := 0x10164
    (w.extractLsb' 0 7).toNat = 100 ∧ w.extractLsb' 8 8 ≠ 0 ∧ w.getLsbD 16 = true ∧ lab.inService 0 = true ∧ lab.inService 16 = false ∧
    (labService 2 [] 1 0).tenantInTurn 0 = some 0 ∧
    0 < ({ labService 2 [] 1 0 with hw := { (labService 2 [] 1 0).hw with budgets := [(0, 9)] } } : State).budgetOf 0 0 := by decide +kernel

def labRing : Ring := { base := 0x20000, logSize := 4, fromHost := true, purpose := 1, head := 0, tail := 0 }
def labRings (host : Nat) : State :=
  { lab with
    mem := State.reset.mem.write (windowBase 0 + 0x2007C) 4 host
    hw := { lab.hw with
      spaces := [(0, { Space.boot 0 with rings := [(1, labRing), (2, { labRing with fromHost := false, purpose := 2 })] })]
      pacers := [(16, 0x10164)] } }

/-- R426: a host call that waits on its ring, a service core whose turn it is, an event ring with room. -/
theorem test_host_calls :
    let s := labRings 1
    (s.pendingRings 0).head? = some 1 ∧ (s.spaceAt 0).rings.at? 1 = some labRing ∧ portDie (s.spaceAt 0).port = farDieOf 0 ∧
    s.serviceDue 0 16 5 = true ∧ s.boundTo 0 1 = true ∧ s.boundTo 1 1 = false ∧
    s.ringHasRoom 0 { labRing with fromHost := false } = true ∧ s.mayCut 1 = true ∧
    (s.spaceAt 0).holds 0x10000 = true := by decide +kernel

theorem test_backlog :
    let r := eventOf 1 1 2 3 4
    let s := { labRings 0 with firm := [(1, { ContextFirm.none with backlog := [r], ring := 2 })] }
    (s.firmAt 1).backlog = r :: [] ∧ (s.spaceAt 0).rings.at? 2 = some { labRing with fromHost := false, purpose := 2 } ∧
    s.ringHasRoom 0 { labRing with fromHost := false, purpose := 2 } = true ∧ labRing.logSize ≤ 20 := by decide +kernel

/-! ## Witnesses: security cores, pages on the move -/

/-- R383, R387 in bits: a free record, an owned one that is fine and one that is not; granules that meet and that do not. -/
theorem test_frame_record :
    let s := labTables 1 leafPlain
    s.frameBusy 50 = false ∧ s.poolMapped 50 = false ∧ (BitVec.ofNat 64 (1 + 2 ^ 30) : DWord).extractLsb' 30 2 = 1 ∧
    s.recordFine 50 (recordOfBits (BitVec.ofNat 64 (1 + 2 ^ 30))) = true ∧ s.recordFine 50 (recordOfBits (BitVec.ofNat 64 (2 + 2 ^ 30))) = false ∧
    (BitVec.ofNat 64 (3 * 2 ^ 30) : DWord).extractLsb' 30 2 = 3 := by decide +kernel

theorem test_partition_write :
    let s := labTables 1 leafPlain
    ((s.partitionAt 0).valid = true ∧ (s.partitionAt 0).gran.getLsbD 0 = true ∧ (partitionOfBits 0x10002).gran.getLsbD 1 = true ∧
      (partitionOfBits 0x10002).gran.getLsbD 0 = false) ∧ (s.granuleUsed 0 0 = true) ∧
    ((List.range 16).map fun k => (s.partitionAt k).farshare.toNat).sum ≤ 2048 := by decide +kernel

theorem test_measure :
    (lab.contexts.at? 1).isSome = true ∧ 65536 ≤ 65536 * [0].length ∧ lab.usesEntries 1 none = false ∧
    ((lab.frameAt 0).owner.toNat = 1 ∧ (lab.frameAt 0).usable 1 0 = true) := by decide

/-- R261: a page that may move to frame 51, the move under way, and its switch. -/
theorem test_tier_move :
    let s := labTables 2 leafPlain
    let m : TierMove := { id := 9, context := 1, vpage := 2, source := 0, dest := 51, frames := 1, host := false }
    let u := { s with hw := { s.hw with tierMoves := [m] } }
    s.assisted 0 1 = false ∧ s.mayMovePage 1 2 51 = true ∧ (s.leafAtPage 1 2).map LeafAt.leaf = some leafPlain ∧
    u.hw.tierMoves.find? (fun x => x.id == 9) = some m ∧ u.rangeIdle 0 1 = true ∧ s.mem.wf = true ∧ u.moveUsable m = false ∧
    ({ u with hw := { u.hw with frames := u.hw.frames.set 51 { FrameRecord.free with owner := 1, state := .owned } } } : State).moveUsable m = true ∧
    ((s.switchFrame 0 51).leavesTo 0).map (fun e => (leafAddr e.2.leaf, e.2.level, e.2.pa)) = [(0, 0, tablesAt + 528384 + 16)] := by decide +kernel

theorem test_frame_errors :
    let s := { labTables 2 leafPlain with hw := { (labTables 2 leafPlain).hw with frameErrors := [(0, [5000, 5000, 5000]), (60, [5000, 5000, 5000])] } }
    let t := { s with hw := { s.hw with
      frames := [101, 102, 103].foldl (fun l f => l.set f { FrameRecord.free with owner := 0xFFFF, state := .owned }) s.hw.frames
      frameErrors := [(100, [5000, 5000, 5000])] } }
    (s.runOf 0).first = 0 ∧ (s.runOf 0).count = 1 ∧ (s.runOf 0).table = none ∧ (t.runOf 100).table = some (1, none) ∧
    t.mayLeave 100 0xC00000 = true ∧ t.isFree 100 = false ∧ s.mayLeave 0 51 = true ∧ s.isFree 0 = false ∧ s.mayLeave 60 61 = true ∧ s.isFree 60 = true := by decide +kernel

/-- R411, R418: a plain page, one on the move, a compressed one. -/
def labTenant (p : TenantPage) (moves : List TenantMove) : State :=
  { lab with hw := { lab.hw with spaces := [(0, { Space.boot 0 with pages := [(5, p)], moves })] } }
def plainPage : TenantPage := { TenantPage.absent with form := .plain, loc := 0xC00005 }

theorem test_tenant_moves :
    let s := labTenant plainPage []
    let m : TenantMove := { page := 5, compress := true, dest := 0, remark := [] }
    let c := labTenant { plainPage with form := .compressed, moving := true } [{ m with compress := false, dest := 0xC00007 }]
    (s.hintedSpace 0 = false ∧ ({ s with hw := { s.hw with partitions := [(0, { Partition.none with valid := true, mode := 4 })] } } : State).hintedSpace 0 = true) ∧
    plainPage.loc < 1024 * farFrames ∧ plainPage.shared = false ∧
    (s.spaceAt 0).holds (65536 * 5) = true ∧ (s.spaceAt 0).moveOf 5 = none ∧ s.pickFar 0xC00006 = some 0xC00006 ∧ 0xC00006 ≠ plainPage.loc ∧
    ((labTenant { plainPage with moving := true } [m]).spaceAt 0).moveOf 5 = some m ∧ s.frameBusy 0xC00005 = false ∧
    ((c.spaceAt 0).page 5).form = .compressed ∧ (c.spaceAt 0).buffer = [] ∧ s.mem.wf = true ∧ Memory.wf ([] : Memory) = true := by decide +kernel


/-- R382, R439: the walk for a page goes through a line of a table that an error hit. -/
theorem test_bad_entry :
    let s := labTables 2 leafPlain
    let u := { s with hw := { s.hw with
      poisoned := [(tablesAt + 528384) / 64], frames := s.hw.frames.set 108 { FrameRecord.free with owner := 1, state := .owned } } }
    (u.badEntry 1 0x20000).isSome = true ∧ s.badEntry 1 0x20000 = none := by decide +kernel

/-- R356: a record of a context that has ended waits for its ring. -/
theorem test_ended_record :
    let r := eventOf 1 1 2 3 4
    let s := { labRings 0 with hw := { (labRings 0).hw with ended := [(0, 2, r)] } }
    s.hw.ended.find? (fun e => e.2.2.context == 1) = some (0, 2, r) ∧ (labRings 0).hw.ended = [] ∧
    (s.spaceAt 0).rings.at? 2 = some { labRing with fromHost := false, purpose := 2 } ∧
    s.ringHasRoom 0 { labRing with fromHost := false, purpose := 2 } = true := by decide +kernel

/-- R403, R29: calls about a fault that was forwarded, about a block, a page, a hint, a checkpoint. -/
theorem test_host_requests :
    let s := labTables 2 leafPlain
    let m := { s with hw := { s.hw with partitions := [(0, { Partition.none with valid := true, gran := 1, mode := 2 })] } }
    let p := { labPre false 0 0 with hw := { labRes.hw with partitions := [(0, { Partition.none with valid := true, gran := 1, mode := 8 })] } }
    m.assisted 0 1 = true ∧ m.mayMovePage 1 2 51 = true ∧ p.boundTo 0 (p.blockAt 1).context = true ∧
    p.mayPreempt 1 (p.methodFor 1 0 2) = true ∧ ({ labEntryOf 2 with assisted := true, forwarded := true }).forwarded = true := by decide +kernel

/-! ## Witnesses: commands -/

/-- A slot of sequence 1 with a kind, a subcode, AFTER where named, and A0 to A3 (R421). -/
def slot (kind sub : Nat) (after : Option Nat) (a0 a1 a2 a3 : Nat) : List Byte :=
  let l := toBytes 1 kind ++ toBytes 1 (if after.isSome then 2 else 0) ++ toBytes 2 1 ++ toBytes 4 (after.getD 0) ++ toBytes 8 77 ++
    toBytes 1 sub ++ toBytes 7 0 ++ toBytes 8 a0 ++ toBytes 8 a1 ++ toBytes 8 a2 ++ toBytes 8 a3
  let stamp := toBytes 4 1
  l ++ toBytes 4 0 ++ stamp ++ toBytes 60 0 ++ stamp ++ toBytes 60 0 ++ stamp ++ toBytes 60 0 ++ stamp

def cmd (kind sub a0 a1 a2 a3 : Nat) : Command :=
  { seq := 1, slot := slot kind sub none a0 a1 a2 a3, phase := .accepted, status := 0xFF, result := 0, startedAt := 0, copied := [], inReset := false }

def labSlot (l : List Byte) : State := { lab with mem := State.reset.mem.setBytes (commandBase 0 + 256) l }

/-- A command accepted, on tables that map page 2. -/
def labCmd (c : Command) : State :=
  let s := labTables 2 leafPlain
  { s with hw := { s.hw with spaces := [(0, { Space.boot 0 with next := 2, commands := [c] })] } }

theorem test_slot : (slot 1 0 none 0 0 0 0).length = 256 ∧ (cmd 4 1 8 9 10 11).kind = 4 ∧ (cmd 4 1 8 9 10 11).sub = 1 ∧
    (cmd 4 1 8 9 10 11).a3 = 11 ∧ (cmd 4 1 8 9 10 11).context = 1 := by decide +kernel

/-- R421, R422, R425: slots that are accepted: of no kind, with an AFTER of its own, and one that stays to be started. -/
theorem test_accept :
    (labSlot (slot 7 0 none 0 0 0 0)).mayAccept 0 = true ∧ 6 < ((labSlot (slot 7 0 none 0 0 0 0)).offered 0).kind ∧
    (labSlot (slot 1 0 (some 1) 0 0 0 0)).mayAccept 0 = true ∧ ((labSlot (slot 1 0 (some 1) 0 0 0 0)).offered 0).av = true ∧
    (labSlot (slot 1 0 none 0 0 0 0)).mayAccept 0 = true ∧ ((labSlot (slot 1 0 none 0 0 0 0)).offered 0).kind = 1 ∧
    ((labSlot (slot 1 0 none 0 0 0 0)).spaceAt 0).commands = [] := by decide +kernel

theorem test_release :
    let d := { cmd 1 0 0 0 0 0 with phase := .done }
    let c := { cmd 1 0 0 0 0 0 with seq := 2, slot := slot 1 0 (some 1) 0 0 0 0 }
    let s := { lab with hw := { lab.hw with spaces := [(0, { Space.boot 0 with commands := [d, c] })] } }
    s.heldCommand 0 = some c ∧ c.av = true ∧ s.commandAt 0 c.after = some d := by decide +kernel

/-- What every witness of a command that starts has in common. -/
def starts (c : Command) : Bool :=
  (labCmd c).startable 0 == some c && (labCmd c).commandAt 0 c.seq == some c && (labCmd c).boundTo 0 c.context &&
    (labCmd c).hw.power.computeUp

theorem test_starts :
    starts (cmd 1 3 128 0 0 0) = true ∧ (cmd 1 3 128 0 0 0).kind = 1 ∧ ((labCmd (cmd 1 3 128 0 0 0)).queues.get 3 []).length < 64 ∧
    starts (cmd 1 16 128 0 0 0) = true ∧ starts (cmd 2 0 1 0 64 0) = true ∧ starts (cmd 3 3 0 0 0 0) = true ∧
    starts (cmd 4 0 4 0 0 0) = true ∧ starts (cmd 4 0 8 0 0 0) = true ∧
    64 ≤ ((({ labCmd (cmd 1 3 128 0 0 0) with queues := [(3, List.replicate 64 1)] } : State).queues.get 3 []).length) := by decide +kernel

theorem test_turned_away :
    let s := labCmd (cmd 1 3 128 0 0 0)
    let c := { cmd 1 3 128 0 0 0 with inReset := true }
    let d := { s with hw := { s.hw with power := { s.hw.power with computeUp := false } } }
    (labCmd c).startable 0 = some c ∧ (labCmd c).commandAt 0 1 = some c ∧ c.failsInReset = true ∧ d.hw.power.computeUp = false ∧ (cmd 1 3 128 0 0 0).needsCompute = true ∧
    s.namesResumed 0 (cmd 1 3 128 0 0 0) = false ∧ s.preempted 0 = none ∧
    (cmd 1 3 128 0 0 0).namesContext = true ∧ ({ s with contexts := [] } : State).boundTo 0 1 = false := by decide +kernel

/-- R425: a host copy of one line between page 5 of the space, in a frame of its own, and page 0 of the context. -/
def labCopy (c : Command) : State :=
  let s := labCmd c
  { s with hw := { s.hw with spaces := [(0, { Space.boot 0 with next := 2, commands := [c], pages := [(5, plainPage)] })] } }

theorem test_host_copy :
    let c := cmd 2 1 (65536 * 5) 0 64 0
    let s := labCopy c
    s.startable 0 = some c ∧ s.commandAt 0 1 = some c ∧ s.boundTo 0 1 = true ∧ s.partitionCore 0 = 0 ∧
    s.checkPage 0 1 [] 0 .read = .page leafPlain 0 ∧ s.checkPage 0 1 [] 0 .write = .page leafPlain 0 ∧ s.placeFor 0 leafPlain 0 0 = .mem 0 ∧
    s.poisonedAt 0 64 = false ∧ s.frameUsable 1 0 = true ∧ s.tenantLine 0 (65536 * 5) = .bytes (List.replicate 64 0) ∧
    (s.spaceAt 0).holds (65536 * 5) = true ∧ (s.spaceAt 0).moveOf 5 = none ∧ 65536 * 5 < tenantPages := by decide +kernel

/-- R390: a proposal that maps page 3 to frame 0, which the context owns, and one that names a frame of another context. -/
theorem test_map_proposal :
    let c := cmd 3 0 0x30000 0x1F 0 0
    let s := labCmd c
    starts c = true ∧ s.mayPropose c = true ∧ s.mayMap 1 0x30000 0 = true ∧ leafV leafPlain = true ∧
    s.mapStatus 1 0x30000 leafPlain 0 = 0 ∧ leafLat leafPlain = false ∧ entryFrom s.mem 0x30000 0 4 tablesAt = some (tablesAt + 528384 + 24) ∧
    tablesAt + 528384 + 24 + 8 ≤ windowBase 0 ∧ leafFrames leafPlain 0 = [0] ∧ s.isFree 0 = false ∧
    s.mapStatus 1 0x30000 (BitVec.ofNat 64 (0x1F + 2 ^ 20 * 100)) 0 ≠ 0 := by decide +kernel

theorem test_publish_command :
    let p : Command := { cmd 5 2 0x11040 0 0 0 with seq := 2, slot := slot 5 2 none 0x11040 0 0 0 }
    let l : Command := { cmd 1 0 0 0 0 0 with seq := 2, phase := .done, status := 0 }
    let c : Command := { p with seq := 3 }
    let s := { lab with hw := { lab.hw with spaces := [(0, { Space.boot 0 with commands := [l, c] })] } }
    s.startable 0 = some c ∧ s.commandAt 0 3 = some c ∧ s.commandAt 0 (BitVec.ofNat 32 (c.field 16 4)) = some l ∧ l.kind = 1 ∧ c.a0 = 0x11040 := by
  decide +kernel

theorem test_started_commands :
    let copy : Command := { cmd 2 0 0 0 64 0 with phase := .started, copied := [0] }
    let wait : Command := { cmd 4 0 8 0 100 0 with phase := .started }
    (labCmd copy).commandAt 0 1 = some copy ∧ 64 * copy.copied.length = copy.a2 ∧ wait.a1 ≤ (labCmd wait).mem.read (windowBase 0 + 8) 8 ∧
    wait.field 40 4 = 100 ∧ wait.startedAt + 2500 * 100 ≤ ({ labCmd wait with now := 300000 } : State).now := by decide +kernel

/-! ## Witnesses: context control -/

theorem test_create :
    let c := cmd 6 1 0 0 5 0
    let s := labCmd c
    starts c = true ∧ (s.partitionAt 0).valid = true ∧ s.mayCreate c 7 [0] = true ∧ starts (cmd 6 1 16 0 0 0) = true ∧ c.namesContext = false := by
  decide +kernel

/-- Each subcode starts; pre-emption of no block, of one by FLUSH. -/
theorem test_control :
    starts (cmd 6 2 0 0 0 0) = true ∧ (labCmd (cmd 6 3 9 0 0 0)).namedBlocks (cmd 6 3 9 0 0 0) = [] ∧
    (cmd 6 2 0 0 0 0).namesContext = true ∧
    starts (cmd 6 4 0 0 0 0) = true ∧ starts (cmd 6 5 0 0 0 0) = true ∧ starts (cmd 6 6 0 0 0 0) = true ∧
    starts (cmd 6 7 0x10000 0x10000 0 0) = true ∧ starts (cmd 6 7 1 0 0 0) = true ∧
    starts (cmd 6 12 0 0 0 0) = true := by decide +kernel

theorem test_preempt_command :
    let c := cmd 6 3 (2 ^ 64 - 1) 1 0 0
    let s := { labCmd c with blocks := (labPre true 0 0).blocks, launches := (labPre true 0 0).launches }
    starts c = true ∧ s.namedBlocks c = [1] ∧ s.methodFor 1 1 0 = .flush ∧ s.mayPreempt 1 .flush = true := by decide +kernel

theorem test_ring_command :
    starts (cmd 6 8 0x20000 4 0x10101 0) = true ∧ State.ringFine (Space.boot 0) (cmd 6 8 0x20000 4 0x10101 0) = true ∧
    State.ringFine (Space.boot 0) (cmd 6 8 0x20000 4 0x10001 0) = false ∧ starts (cmd 6 8 0x20000 4 0x10001 0) = true := by decide +kernel

/-- R377: debug access with DBG = 1 and with DBG = 0. -/
def dbgCmd (c : Command) : State := { labCmd c with contexts := [(1, { (labCmd c).context with dbg := true })] }

theorem test_debug_access :
    let c := cmd 6 9 2 0 0x20 0x11040
    let w := cmd 6 9 3 0 0x21 8
    (dbgCmd c).startable 0 = some c ∧ ((dbgCmd c).contextAt 1).dbg = true ∧ (dbgCmd c).debugCore c = some 0 ∧
    (dbgCmd c).debugCsr 1 0 0x20 = some (coreCsr ((dbgCmd c).coreAt 0) 0x20) ∧ (dbgCmd w).startable 0 = some w ∧ (dbgCmd w).debugCore w = some 0 ∧
    starts (cmd 6 9 0 0 0 0) = true ∧ starts (cmd 6 9 1 0 0 0) = true ∧ starts c = true ∧ starts w = true ∧
    ((labCmd c).contextAt 1).dbg = false ∧ (dbgCmd (cmd 6 9 0 0 0 0)).startable 0 = some (cmd 6 9 0 0 0 0) ∧
    (dbgCmd (cmd 6 9 1 0 0 0)).startable 0 = some (cmd 6 9 1 0 0 0) := by decide +kernel

theorem test_checkpoint_now :
    let c := cmd 6 10 0 0 0 0
    let s := { labCmd c with groups := [], sys := [], blocks := [] }
    s.startable 0 = some c ∧ s.mayCut 1 = true ∧ s.blocksOf 1 = [] := by decide +kernel

def flashCmd (c : Command) (l : List FlashRegion) : State := { labCmd c with hw := { (labCmd c).hw with flash := l } }
def region7 (context : Option Nat) : FlashRegion := { name := 7, size := 4096, context, measure := none, data := [], late := [], bad := [] }

/-- R429: what the operations on persistent regions meet. -/
theorem test_regions :
    let make := cmd 6 11 0 7 4096 0
    starts make = true ∧ (flashCmd make []).flashOf 1 = none ∧ (flashCmd make []).flashBusy 1 = false ∧
    (flashCmd make [region7 none]).regionNamed 7 = some (region7 none) ∧ (flashCmd make [region7 (some 1)]).flashOf 1 = some (region7 (some 1)) ∧
    starts (cmd 6 11 1 7 0 0) = true ∧ starts (cmd 6 11 2 7 0 0) = true ∧ starts (cmd 6 11 3 7 0 0) = true ∧
    ([{ region7 none with size := 2 ^ 44 }].map FlashRegion.size).sum + 4096 > 2 ^ 44 := by decide +kernel

/-! ## Witnesses: hosts, packages, power -/

/-- R409, R415: pages of each form; a write that needs a frame; the command window and the free area. -/
theorem test_host_access :
    let s := labTenant plainPage []
    lab.hostUp 0 = true ∧ lab.hostUp 8 = false ∧ ((labTenant TenantPage.absent []).spaceAt 0).page 5 = TenantPage.absent ∧
    (s.spaceAt 0).holds (65536 * 5) = true ∧ (s.spaceAt 0).holds (tenantPages - 65536) = false ∧ (s.spaceAt 0).page 5 = plainPage ∧
    s.poisonedAt (65536 * 0xC00005) 64 = false ∧ ((s.spaceAt 0).page 6).form = .zero ∧ (s.spaceAt 0).moveOf 6 = none ∧
    s.pickFar 0 = some 0xC00000 ∧ s.farUsed + 2 ^ 17 < 2 ^ 25 ∧ (s.spaceAt 0).backlog = [] ∧ s.eventRoom 0 = true ∧
    ((labTenant { plainPage with form := .compressed, bad := [3] } []).spaceAt 0).buffer.at? 0 = none := by decide +kernel

theorem test_poisoned_line :
    ({ labTenant plainPage [] with hw := { (labTenant plainPage []).hw with poisoned := [1024 * 0xC00005] } } : State).poisonedAt (65536 * 0xC00005) 64 =
      true := by decide +kernel

theorem test_extents :
    let s := { lab with hw := { lab.hw with spaces := [(0, { Space.boot 0 with offers := [(2 ^ 33, 2 ^ 28)], extents := [(0, 2 ^ 32), (2 ^ 34, 2 ^ 28)] })] } }
    lab.mayOffer 0 (2 ^ 33) = true ∧ (s.spaceAt 0).offers.any (fun e => e.1 == 2 ^ 33) = true ∧ s.hostUp 0 = true ∧
    (s.spaceAt 0).extents.any (fun e => e.1 == 2 ^ 34) = true := by decide +kernel

theorem test_packages :
    let s := { lab with hw := { lab.hw with packages := [(0, [3])] } }
    lab.hw.packages.get 0 [] = [] ∧ 4 = 18 * 0 + 9 * 0 + 4 ∧ s.hw.packages.get (4 / 9) [] = [3] ∧ s.contexts.at? (s.frameAt 0).owner.toNat ≠ none := by decide

def dimmed (p : Power) : State := { lab with hw := { lab.hw with power := p } }

/-- R431 to R442: no checkpoint; the domain down, the module down; regions and checkpoints of one; who owns what an error hits. -/
theorem test_reliability :
    (lab.contexts.all fun e => lab.lastCheckpoint e.1 == none) = true ∧ lab.hw.power.moduleUp = true ∧ lab.hw.power.computeUp = true ∧
    lab.hw.checkpoints = [] ∧ lab.frameBusy 0 = false ∧ lab.contexts.at? (lab.frameAt 0).owner.toNat ≠ none ∧
    lab.padOwner 0 8 = some 1 ∧ (lab.groupAt 0).phase ≠ .free ∧ lab.blocks = [(1, labBlock)] ∧
    labBlock.units.any (fun u => u.2 == 0 / 1024) = true ∧ labBlock.slot0 ≤ 0 ∧ 0 < labBlock.slot0 + labBlock.slots ∧
    (lab.dieAt 0).spareUsed = false ∧ (dimmed { Power.reset with gatedSince := some 0 }).hw.power.gatedSince = some 0 := by decide +kernel

theorem test_cap_edges : exec (.powerCapSet 1199) lab = .next lab ∧ exec (.powerCapSet 3601) lab = .next lab ∧
    (after (.powerCapSet 1200) lab).hw.power.cap = 1200 ∧ (after (.powerCapSet 3600) lab).hw.power.cap = 3600 := by
  refine ⟨rfl, rfl, ?_, ?_⟩ <;> decide +kernel

/-- R435, R436: the context of a command is still to be resumed. -/
theorem test_to_resume :
    let c := cmd 1 3 128 0 0 0
    let s := { labCmd c with hw := { (labCmd c).hw with toResume := [(1, labCheckpoint false, [])] } }
    s.startable 0 = some c ∧ s.namesResumed 0 c = true ∧ ({ labCheckpoint false with bad := true }).bad = true := by decide +kernel

/-- R389: frames for the root table of a context, and none where a partition that sends a protected one none has. -/
theorem test_create_root :
    let s := labCmd (cmd 6 1 0 0 5 0)
    s.freeRun 0xC00000 farFrames s.farUsed 4 = some 0xC00000 ∧
    ({ s with hw := { s.hw with partitions := [(0, Partition.none)] } } : State).pickRun 0 0 1 4 = none ∧ s.pickRun 0 0 1 4 = some 4 := by decide +kernel

/-- R377: register numbers that a debug write takes and one it does not; R366: a block asked to drain. -/
theorem test_debug_registers :
    let c := cmd 6 9 3 0 0x25 8
    let p := cmd 6 3 (2 ^ 64 - 1) 1 0 3
    let s := { labCmd p with blocks := (labPre false 0 0).blocks, launches := (labPre false 0 0).launches }
    (dbgCmd c).startable 0 = some c ∧ ¬ (c.a2 = 0 ∨ 0x20 ≤ c.a2 ∧ c.a2 ≤ 0x24 ∨ 0x40 ≤ c.a2 ∧ c.a2 ≤ 0x7F) ∧
    (dbgCmd (cmd 6 9 3 0 0 8)).debugCore (cmd 6 9 3 0 0 8) = some 0 ∧ s.namedBlocks p = [1] ∧ s.mayPreempt 1 .drain = true := by decide +kernel

theorem at?_run {α : Type} (r : α) (a k : Nat) : ∀ l : List Nat, k ∈ l → Table.at? (l.map fun i => (a + i, r)) (a + k) = some r
  | j :: l, h => by
      rw [List.map_cons, Table.at?]
      split
      · rfl
      · rename_i hn
        exact at?_run r a k l ((List.mem_cons.1 h).resolve_left fun e => hn (e ▸ rfl))

def poolRecord : FrameRecord := { FrameRecord.free with owner := 0xFFFE, state := .owned }
def labPool : State := { lab with hw := { lab.hw with
  frames := (List.range 4096).map fun i => (0xC00000 + i, poolRecord)
  spaces := [(0, { Space.boot 0 with offers := [(2 ^ 33, 2 ^ 28)], pools := [(2 ^ 33, 0xC00000)] })] } }

/-- R412, R428: frames of the pool for an extent, and the extent that offers them. -/
theorem test_pool : labPool.poolRun 0xC00000 = true ∧ (labPool.spaceAt 0).pools.at? (2 ^ 33) = some 0xC00000 ∧
    (labPool.spaceAt 0).offers.any (fun e => e.1 == 2 ^ 33) = true := by
  refine ⟨List.all_eq_true.2 fun i hi => ?_, by decide, by decide⟩
  have h : labPool.frameAt (0xC00000 + i) = poolRecord := by
    simp only [State.frameAt, Table.get, labPool, at?_run poolRecord 0xC00000 i (List.range 4096) hi, Option.getD_some]
  have hf : (List.range extentPages).all (fun i => labPool.isFar (0xC00000 + i)) = true := by decide +kernel
  rw [h, List.all_eq_true.1 hf i hi]; decide

/-- R430: a far-tier frame is in a parity group, to which nine packages belong. -/
theorem test_parity_group : ∃ package, package < 36 ∧ lab.groupOf 0xC00000 = some (package / 9) := by
  have h : lab.groupOf 0xC00000 = some (Config.parityGroup 0xC00000 % 2) := by
    have : lab.frameKind 0xC00000 = some (.far 0) := by decide
    simp [State.groupOf, this]
  refine ⟨9 * (Config.parityGroup 0xC00000 % 2), by omega, ?_⟩
  rw [h]; congr 1; omega

/-- R298, R437, R439: a unit of flash written whole, and in part; sites of errors. -/
theorem test_error_sites :
    let l : LateUnit := { copy := 7, unit := 0, data := [] }
    let r := { labRequest 7 with dest := .flash 0 }
    lab.wholeUnit l = true ∧ (labCopies [r]).wholeUnit l = false ∧
    (({ lab with cores := [(0, { lab.core with icache := [(0, 0)] })] } : State).core.icache.at? 0).isSome = true ∧
    ({ FrameRecord.free with owner := 1, state := .owned, pclass := 2 } : FrameRecord).pclass = 2 := by decide

/-- R437: a line of a compressed page that fails to decode, and one that an error hit. -/
theorem test_packed_lines :
    let p := { plainPage with form := .compressed, bad := [3], badLines := [70] }
    65536 * 5 % 65536 / 4096 ∉ p.bad ∧ 65536 * 5 % 65536 / 64 ∉ p.badLines ∧ 4480 / 4096 ∉ p.bad ∧ 4480 / 64 ∈ p.badLines ∧ 12288 / 4096 ∈ p.bad := by decide

/-! ## Witnesses: loads that read early, lattice operations performed -/

def early1 : EarlyRead := { place := .mem 0x20, va := 0x20, n := 8, value := 7, dirty := [] }

/-- R253: what an early read names, alone and beside an operation on other bytes; the load that it stands for. -/
theorem test_early :
    let e : EarlyPick := { core := 0, slot := 0, pad := none, addr := 0x40, n := 4 }
    let s := labSysWith { labSys with ld := [regionOp 3] }
    (s.groups.at? 0).isSome = true ∧ e.addr % e.n = 0 ∧ s.earlyPlace e 1 = some (.mem 0x40) ∧
    (openOps (s.sysAt 0)).all (fun q => !q.tries && !(s.sysAt 0).acqAfter.contains q.id &&
      q.accesses.all fun a => !a.place.meets a.n (.mem 0x40) 4) = true ∧
    s.frameUsable 1 0 = true ∧ s.poisonedAt 0x40 4 = false ∧ s.badEntry 1 0x40 = none ∧ Instr.ifence.quiet = false ∧
    (labSysWith { labSys with early := [early1] }).gsys.early = [early1] ∧ early1.place = (memAccess 0 0x20 8 0).place ∧ lab.gsys.early = [] := by
  decide +kernel

/-- R253's example: the load that has read 5 early delivers 5, whatever a store has written since; one whose group has executed an
acquire since does not. -/
theorem test_early_read :
    let s := { labSysWith { labSys with ld := [pendingOf (.load .b64 8) [memAccess 0 0x20 8 0]], early := [{ early1 with value := 5 }] } with
      mem := State.reset.mem.write 0x20 8 9 }
    (after (.loadCompletion 0 0 4 (BitVec.allOnes 96) []) s).readV 8 0 = 5 ∧
    (after (.loadCompletion 0 0 4 (BitVec.allOnes 96) []) { s with sys := [(0, { s.gsys with early := [] })] }).readV 8 0 = 9 := by decide +kernel

/-- R264 to R286: joins, assertions and reads of cells in a lattice frame; both ends of what they ask. -/
theorem test_lattice_completions :
    let a := memAccess 0 0x10000 4 9
    let c := memAccess 1 0x10020 32 0
    (labSysWith { labSys with st := [pendingOf (.join .maxN32) [a]] }).gsys.st = [pendingOf (.join .maxN32) [a]] ∧ a.n ≤ 16 ∧ c.n = 32 ∧
    a.place = .mem 0x10000 ∧ lab.frameUsable 1 1 = true ∧ lab.poisonedAt 0x10000 4 = false ∧ lab.heldByTlb 1 0x10000 = true ∧
    LatType.maxN32.atLeast 9 9 = true ∧ LatType.maxN32.atLeast 9 10 = false ∧ lab.group.phase ≠ .ended ∧ lab.group.phase ≠ .leaving ∧
    lab.gsys.pendingFault = none ∧ (tryType tryAccess).atLeast 0 (tryThreshold tryAccess) = false ∧
    (tryType tryAccess).atLeast 9 (tryThreshold tryAccess) = true ∧ (4 : SReg).toNat < 61 ∧
    (memAccess 0 0x24 4 0).place = .mem 0x24 ∧ lab.core.kcache.at? 0x24 = none := by decide +kernel

/-- R283, R284: of two assertions 9 and 30 on cells that hold 9 and 50 the second fails and is recorded. -/
theorem test_asserting :
    let s := { labSysWith { labSys with st := [pendingOf (.asserting .maxN32) [memAccess 0 0x10000 4 9, memAccess 1 0x10004 4 30]] } with
      mem := (State.reset.mem.write 0x10000 4 9).write 0x10004 4 50 }
    let t := after (.storeCompletion 0 0 4 (BitVec.allOnes 96) []) s
    t.mem.read 0x10004 4 = 50 ∧ t.gsys.pendingFault = some { addr := 0x10004, lane := 1, stored := 30, current := 50, failed := 2 } := by
  decide +kernel

/-- R279, R285: an increment at 2^32 - 1 stays there; a count is the sum of its eight slots. -/
theorem test_counts :
    let m := (State.reset.mem.write 0x10000 4 (2 ^ 32 - 1)).write 0x10024 8 (3 + 2 ^ 32 * 4)
    let s := { labSysWith { labSys with st := [pendingOf .increment [memAccess 0 0x10000 4 0]] } with mem := m }
    let r := { labSysWith { labSys with ld := [pendingOf (.latRead .cnt 8) [memAccess 0 0x10020 32 0]] } with mem := m }
    (after (.storeCompletion 0 0 4 (BitVec.allOnes 96) []) s).mem.read 0x10000 4 = 2 ^ 32 - 1 ∧
    (after (.loadCompletion 0 0 4 (BitVec.allOnes 96) []) r).readV 8 0 = 7 := by decide +kernel

/-- R337, R338: three arrays pinned already; an entry of the accumulators that ACCRD reads in one lane. -/
theorem test_tm_rest :
    let key : BKey := { core := 0, off := 0, fmt := .e4m3, sparse := false }
    let k : Cluster := { Cluster.reset with arrays := (List.range 3).map fun i => (i, { ArrayState.reset with pins := [1] }) }
    let act : OpAct := .accrd false 8 .f32 .rne 0 [(0, 1024, 0x3F80, 0)]
    3 ≤ (pinnedArrays k).length ∧ arrayOf k key = none ∧ (tmState (.wunpin key)).gsys.tm = [pendingOf (.wunpin key) []] ∧
    (tmState act).gsys.tm = [pendingOf act []] ∧ (pendingOf act []).mask.getLsbD 0 = true ∧ (8 : VReg).toNat + 2 ≤ 128 := by decide

/-! ## Witnesses: a launch that depends on a lattice cell -/

/-- R123: the replicas of a cell on the context's two dies: fine, in a frame that is not the context's, on a poisoned line. -/
theorem test_lattice_dependence :
    let s := labLaunch .waiting { labHeader with afterva := 0x10008, afterv := 1 }
    let other := { s with hw := { s.hw with frameSets := [(3, [9, 9, 9, 9])] } }
    s.checkPage 0 1 [] 0x10008 .read = .page leafLattice 0 ∧ leafLat leafLattice = true ∧ s.context.regionAt 0x10008 = some 0 ∧
    ((s.contextAt 1).vdies.map fun d => s.physical d leafLattice 0 0x10008) = [65544, 65544] ∧ s.frameUsable 1 1 = true ∧
    s.poisonedAt 65544 8 = false ∧ ({ s with hw := { s.hw with poisoned := [1024] } } : State).poisonedAt 65544 8 = true ∧
    (other.frameUsable 1 9 = false ∧ ((other.contextAt 1).vdies.map fun d => other.physical d leafLattice 0 0x10008) = [65536 * 9 + 8, 65536 * 9 + 8]) := by
  decide +kernel

/-! ## Witnesses: security cores that agree and that do not -/

/-- R27: one disagreement to come, and none. -/
theorem test_votes :
    let no := { lab with hw := { lab.hw with votes := [false, true] } }
    no.hw.votes.headD true = false ∧ no.agreed = false ∧ lab.hw.votes = [] ∧ lab.agreed = true := by decide

/-- A block of a sealed context, one that is not; an engine that has its clock still (R344). -/
theorem test_sealed_save :
    let s := labPre false 0 0
    let z := { s with contexts := [(1, { s.context with prot := true })],
                      hw := { s.hw with partitions := [(0, { Partition.none with valid := true, prot := true, sealed := true })] } }
    s.engineFree 0 = true ∧ s.sealedOf 1 = false ∧ z.sealedOf 1 = true ∧ z.methodFor 1 0 0 = .save ∧ z.engineFree 0 = true := by decide +kernel

/-- R383, R389: a frame that holds a table and one that does not. -/
theorem test_holds_table : (labTables 1 leafPlain).holdsTable 104 = true ∧ (labTables 1 leafPlain).holdsTable 50 = false ∧
    lab.hw.spaces.all (fun y => y.2.extents.all fun z => z.1 == 0 || y.2.asked.contains z) = true := by decide +kernel

/-- R233: the source of a move that a window in force holds where it is, and one that no window holds. -/
theorem test_move_held :
    let m : TierMove := { id := 9, context := 1, vpage := 2, source := 0, dest := 51, frames := 1, host := false }
    let s := labTables 2 leafPlain
    let w : State := { s with contexts := [(1, { s.context with windows := [(2, BitVec.ofNat 256 (0x20000 + 2 ^ 60 + 2 ^ 61 + 2 ^ 64 * 0x80 + 2 ^ 112 * 2))] })] }
    s.moveHeld m = false ∧ w.moveHeld m = true := by decide +kernel

/-- R328: a store still to write to the operand of a matrix operation, and none; R329: the pairs of a sparse column. -/
theorem test_matrix_forms :
    let s := labCluster [labEntry 5 (some 2)] [5]
    let sparse : BKey := { labKey with fmt := .e4m3, sparse := true }
    s.openStores (labEntry 5 (some 2)) = [] ∧ sparse.sparse = true ∧ sparse.fmt.scaledB = true ∧ labKey.fmt.scaledB = false ∧ (0x4 : Nat) % 4 < 0x4 / 4 := by decide +kernel

/-- R411: sectors in a free frame, in one that holds another page's, and a sector that another page has. -/
theorem test_sectors :
    let m : TenantMove := { page := 5, compress := true, dest := 0, remark := [] }
    let s := labTenant { plainPage with moving := true } [m]
    let y : TenantPage := { TenantPage.absent with form := .compressed, sectors := [16 * 0xC00008] }
    let u := { s with hw := { s.hw with
      spaces := [(0, { s.spaceAt 0 with pages := [(5, { plainPage with moving := true }), (6, y)] })]
      frames := s.hw.frames.set 0xC00008 State.hostFrame } }
    s.sectorsFine 0 5 [16 * 0xC00009] = true ∧ s.isFree 0xC00009 = true ∧ u.sectorsFine 0 5 [16 * 0xC00008 + 1] = true ∧
    u.sectorsFine 0 5 [16 * 0xC00008] = false ∧ (16 * 0xC00009) / 16 ≠ plainPage.loc ∧ s.frameBusy 0xC00005 = false ∧
    ((labTenant { plainPage with form := .compressed, sectors := [1, 2] } [{ m with compress := false, dest := 0xC00007 }]).spaceAt 0).buffer = [] := by
  decide +kernel

/-! ## Witnesses: replies, calls, snapshots, errors -/

/-- R401, R426: the reply for a fault that has gone; a call that names a fault of hardware mode. -/
theorem test_late_replies :
    let s := { lab with hw := { lab.hw with fetches := [{ server := 0, die := 0, seq := 7, space := 0, ring := 1 }] } }
    s.hw.fetches.find? (fun y => y.die == 0 && y.seq == 7) = some { server := 0, die := 0, seq := 7, space := 0, ring := 1 } ∧
    s.faultAt 0 7 = none ∧ (labEntryOf 2).assisted = false ∧ (labService 2 [] 1 0).faultAt 0 7 = some (labEntryOf 2) := by decide +kernel

/-- R272, R274, R404: a snapshot's line that is whole and one that an error hit; firmware's record of the context. -/
theorem test_snapshot_lines :
    lab.context.roster = [] ∧ lab.hw.poisoned = [] ∧ (lab.firm.at? 1).isSome = true ∧ (lab.contexts.at? 1).isSome = true ∧
    lab.poisonedAt 65536 4 = false ∧ ({ lab with hw := { lab.hw with poisoned := [1024] } } : State).poisonedAt 65536 4 = true := by decide

/-- R267, R268: a descriptor that breaks a rule of its own, over pages mapped otherwise, and one that keeps them all over its own page. -/
theorem test_region_rules :
    let q : QWord := BitVec.ofNat 128 (0x10000 + 2 ^ 64 + 2 ^ 83 + 2 ^ 84)
    regionFine lab.context 1 q = false ∧ (labTables 1 leafPlain).regionMapped 1 q = false ∧
    regionFine (labTables 1 leafLattice).context 0 q = true ∧ (labTables 1 leafLattice).regionMapped 1 q = true := by decide +kernel

/-- R391, R392, R439: a line that scrubbing meets in a context's frame; a frame of class 0b10 that no context owns. -/
theorem test_frames_hit :
    let s := { lab with hw := { lab.hw with poisoned := [3], frames := lab.hw.frames.set 60 { FrameRecord.free with owner := 0xFFFE, state := .owned, pclass := 2 } } }
    (3 ∈ s.hw.poisoned ∧ s.contexts.at? (s.frameAt (3 / 1024)).owner.toNat ≠ none) ∧ (s.frameAt 60).pclass = 2 ∧
    s.contexts.at? (s.frameAt 60).owner.toNat = none ∧ (s.frameAt 60).state ≠ .free := by decide

/-- R430: a compressed page whose list is in a parity group or one of whose sectors is; the pool's frames of an offer. -/
theorem test_lost_sectors :
    let p : TenantPage := { TenantPage.absent with form := .compressed, loc := 0, sectors := [16 * 0xC00000] }
    p.form = .compressed ∧ (∃ u, u ∈ p.sectors ∧ 0xC00000 = u / 16) ∧ 0xC00000 + p.loc / 1024 = 0xC00000 := by decide

end Sys2Proof.Tests
end

section
/-!
O42 fails: a non-monotone store whose group has ended is posted as an event of its context (R358), and the record
goes to a ring in memory (R357, R426), where the statement has memory as the assertions alone leave it.
-/

set_option Elab.async false

namespace Sys2Proof.Machine.State

/-- What a STORE_COMPLETION answers. -/
theorem exec_storeCompletion_eq_next (core slot id : Nat) (lanes : LaneMask) (replies : List (Nat × QWord)) (s : State) :
    exec (.storeCompletion core slot id lanes replies) s =
      .next { s.completeLanes (groupKey core slot) .st id lanes replies with
        cur := s.cur, tick := (s.completeLanes (groupKey core slot) .st id lanes replies).tick + 1 } := by
  rw [exec_storeCompletion]
  rfl

end Sys2Proof.Machine.State

namespace Sys2Proof.Machine.EndedAssertion

open State

/-! ## An LSTA outstanding in a group that has ended

Group slot 0 held a group of context 1, which has ended with one LSTA.MAX.N32 of 9 outstanding. The cell, in frame 1 of the
context, holds 50. The context's event queue is ring 1 of tenant space 0. -/

/-- The LSTA's one access. -/
def cell : Access := { lane := 0, place := .mem 0x10000, va := 0x10000, n := 4, data := 9, dead := false }

/-- The outstanding LSTA. -/
def operation : Pending :=
  { id := 1, act := .asserting .maxN32, accesses := [cell], after := [], behind := [], results := [], failed := [],
    spoiled := [], spoiledPreds := [], mask := 1, issued := 0, finished := false }

/-- The ring toward the host to which the context's events go (R426). -/
def eventRing : Ring := { base := 0x20000, logSize := 4, fromHost := false, purpose := 0, head := 0, tail := 0 }

/-- The module before the completion. -/
def start : State :=
  { State.reset with
    nextId := 2
    groups := [(0, { Group.free with phase := .ended, block := 1 })]
    sys := [(0, { GroupSys.free with st := [operation] })]
    blocks := [(1, { Block.none with context := 1 })]
    contexts := [(1, Context.none)]
    firm := [(1, { ContextFirm.none with ring := 1 })]
    mem := State.reset.mem.write 0x10000 4 50
    hw := { State.reset.hw with
      frames := [(1, { FrameRecord.free with owner := 1, state := .owned, lat := true })]
      spaces := [(0, { Space.boot 0 with rings := [(1, eventRing)] })] } }

/-- Where the ring's first entry stands. -/
def firstEntry : Nat := windowBase 0 + eventRing.base + 64

/-! ## The hypotheses of the statement -/

theorem operation_alone : (start.sysAt 0).st = [operation] := by decide

theorem cell_meets_no_error : start.frameUsable 1 1 = true ∧ start.poisonedAt 0x10000 4 = false ∧
    start.badEntry 1 0x10000 = none := by decide

/-! ## What the completion does -/

/-- The assertion fails: 9 is not at least the 50 that the cell holds (R283). -/
theorem assertion_fails : LatType.maxN32.atLeast cell.data.toNat (start.mem.read 0x10000 cell.n) = false := by decide

theorem firstEntry_before : start.mem.byte firstEntry = 0 := by decide

/-- The record of the group that has ended is posted: its KIND, 0x04, stands in the first entry (R356, R358). -/
theorem firstEntry_after :
    (start.completeLanes 0 .st operation.id (BitVec.allOnes 96) []).mem.byte firstEntry = 4 := by decide

end Sys2Proof.Machine.EndedAssertion

open Sys2Proof Sys2Proof.Machine Sys2Proof.Machine.State Sys2Proof.Machine.EndedAssertion

/-- Refutes O42: its clause on LSTA has memory as the assertions that hold leave it, whatever the phase of the group. Where the
group has ended, the record of a failed assertion is posted as an event (R358), and the model writes it, with the ring's HEAD,
into the coherent window. -/
theorem not_completions : ¬ Obligations.Completions := by
  unfold Obligations.Completions
  rintro ⟨-, completions⟩
  obtain ⟨-, -, -, -, -, -, -, -, -, -, -, asserting, -⟩ := completions start 0 0 operation []
  obtain ⟨husable, hpoison, hentry⟩ := cell_meets_no_error
  obtain ⟨t, hexec, -, -, hmem, -⟩ := asserting .maxN32 operation_alone rfl rfl
    (by simp [operation, cell])
    ⟨rfl, by simp [operation], by simp [operation]⟩
    (by
      intro a ha
      obtain rfl : a = cell := by simpa [operation] using ha
      exact ⟨rfl, by decide, husable, fun _ => hpoison, .inr hentry⟩)
  obtain rfl := Host.Outcome.next.inj ((exec_storeCompletion_eq_next ..).symm.trans hexec)
  have hbyte : (start.completeLanes 0 .st operation.id (BitVec.allOnes 96) []).mem.byte firstEntry = _ :=
    congrArg (fun m => m.1.byte firstEntry) hmem
  simp only [operation, List.foldl_cons, List.foldl_nil] at hbyte
  rw [if_neg (by rw [Bool.not_eq_true]; exact assertion_fails), firstEntry_before] at hbyte
  exact absurd (firstEntry_after.symm.trans hbyte) (by decide)
end

section
/-!
O55 fails: it reads SEALED and CHECKED of a report's flags off the partition's entry whatever V of the entry is. The model
reports them only where the partition exists (R387, R394).
-/

set_option Elab.async false

namespace Sys2Proof.Machine.State

/-- The flags of a report, at offset 2 (R394): SEALED and CHECKED are those of a partition that exists. -/
theorem report_flags (s : State) (c : Nat) (nonce : BitVec 256) :
    ((s.report c nonce).drop 2).take 2 = toBytes 2 ((s.contextAt c).prot.toNat + 2 * (s.sealedOf c).toNat +
      4 * (s.contextAt c).dbg.toNat + 8 * (!(s.contextAt c).prot).toNat + 16 * (s.checkedOf c).toNat) := rfl

/-- What an ATTESTATION_REQUEST on which the security cores agree answers. -/
theorem exec_attestationRequest_eq_next {s : State} {c : Nat} (nonce : BitVec 256) (h : (s.contexts.at? c).isSome = true) :
    exec (.attestationRequest c ⟨nonce, true⟩) s =
      .next { s with hw := { s.hw with reports := s.hw.reports ++ [s.report c nonce] }, tick := s.tick + 1 } := by
  rw [exec_attestationRequest, execAttestationRequest, event, if_pos h]
  rfl

end Sys2Proof.Machine.State

namespace Sys2Proof.Machine.AbsentPartition

/-! ## A report under a partition entry with V = 0

Context 1 runs in partition 0. The security core accepts a write of that partition's entry with V = 0 and CHECKED = 1 (R387). -/

/-- The module before the write. -/
def before : State := { State.reset with contexts := [(1, Context.none)] }

/-- The entry: CHECKED alone (R387). -/
def entry : QWord := 2 ^ 18

/-- The module after the write. -/
def start : State := stateOf before (execPartitionTableWrite 0 entry true before)

theorem context_stands : (start.contexts.at? 1).isSome = true := by decide

theorem entry_without_v : start.partitionAt (start.contextAt 1).partition = { Partition.none with checked := true } := by decide

/-- The report has bit 3 alone. -/
theorem flags_reported : ((start.report 1 0).drop 2).take 2 = [8, 0] := by
  rw [State.report_flags]
  decide

end Sys2Proof.Machine.AbsentPartition

open Sys2Proof Sys2Proof.Machine Sys2Proof.Machine.State Sys2Proof.Machine.AbsentPartition

/-- Refutes O55: its clause on reports has CHECKED as the entry of the context's partition has it. An entry with V = 0 may have
CHECKED = 1 (R387 refuses no such write); the partition does not exist, and the model's report does not say that its mappings are
checked. -/
theorem not_securityAndMoveEvents : ¬ Obligations.SecurityAndMoveEvents := by
  unfold Obligations.SecurityAndMoveEvents
  rintro ⟨-, -, measured, -⟩
  obtain ⟨attested, -⟩ := measured start 1 context_stands
  obtain ⟨-, t, hexec, -, r, hreports, -, -, hflags, -⟩ := attested 0
  obtain rfl := Host.Outcome.next.inj ((exec_attestationRequest_eq_next 0 context_stands).symm.trans hexec)
  obtain rfl : start.report 1 0 = r := by simpa using hreports
  rw [flags_reported, entry_without_v] at hflags
  exact absurd hflags (by decide)
end

section
/-!
O35: a packet that lies in one page and of which the instruction cache holds no word is fetched from memory (R14, R62, R65).
-/

set_option Elab.async false

namespace Sys2Proof.Machine

/-! ## Addresses of one page -/

/-- Every page is a whole number of 64 KiB (R378). -/
theorem pageBits_eq_add (level : Nat) : ∃ j, pageBits level = 16 + j := by
  match level with
  | 0 => exact ⟨0, rfl⟩
  | 1 => exact ⟨5, rfl⟩
  | _ + 2 => exact ⟨14, rfl⟩

theorem TlbEntry.covers_of_samePage (t : TlbEntry) (context : Nat) {va wa : Nat} (h : va / 65536 = wa / 65536) :
    t.covers context va = t.covers context wa := by
  obtain ⟨j, hj⟩ := pageBits_eq_add t.level
  have hdiv (a : Nat) : a / 2 ^ pageBits t.level = a / 65536 / 2 ^ j := by rw [hj, pow_add, ← Nat.div_div_eq_div_mul]; rfl
  simp only [covers, hdiv, h]

theorem leafFrame_of_samePage (e : DWord) (level : Nat) {va wa : Nat} (h : va / 65536 = wa / 65536) :
    leafFrame e level va = leafFrame e level wa := by
  obtain ⟨j, hj⟩ := pageBits_eq_add level
  have hdiv (a : Nat) : a % 2 ^ pageBits level / 65536 = a / 65536 % 2 ^ j := by
    rw [hj, pow_add]
    exact Nat.mod_mul_right_div_self ..
  simp only [leafFrame, hdiv, h]

namespace State

theorem missHeld_of_samePage (s : State) (core context : Nat) {va wa : Nat} (h : va / 65536 = wa / 65536) :
    s.missHeld core context va = s.missHeld core context wa := by
  simp only [missHeld, h, TlbEntry.covers_of_samePage _ context h]

/-- A page of plain frames maps its bytes in order. -/
theorem physical_add (s : State) (die : Nat) {e : DWord} (level : Nat) {va k : Nat} (hlat : leafLat e = false)
    (h : va / 65536 = (va + k) / 65536) : s.physical die e level (va + k) = s.physical die e level va + k := by
  have hmod : (va + k) % 65536 = va % 65536 + k := by omega
  simp only [physical, frameOf, hlat, Bool.false_eq_true, if_false, leafFrame_of_samePage e level h.symm, hmod]
  omega

theorem usableLat_of_plain (s : State) (context va : Nat) {e : DWord} (hlat : leafLat e = false) :
    s.usableLat context e va = true := by simp [usableLat, hlat]

/-! ## Words that the instruction cache does not hold -/

/-- The word of memory at a physical address. -/
def wordAt (s : State) (pa : Nat) : Word := BitVec.ofNat 32 (s.mem.read pa 4)

/-- The instruction cache of the issuing core takes in the word at a physical address (R14). -/
def takesIn (s : State) (pa : Nat) : State :=
  s.setCoreAt s.cur.core { s.core with icache := s.core.icache.set pa (s.wordAt pa) }

@[simp] theorem takesIn_mem (s : State) (pa : Nat) : (s.takesIn pa).mem = s.mem := rfl
@[simp] theorem takesIn_groups (s : State) (pa : Nat) : (s.takesIn pa).groups = s.groups := rfl
@[simp] theorem takesIn_wordAt (s : State) (pa qa : Nat) : (s.takesIn pa).wordAt qa = s.wordAt qa := rfl

@[simp] theorem takesIn_icache (s : State) (pa : Nat) : (s.takesIn pa).core.icache = s.core.icache.set pa (s.wordAt pa) := by
  have : (s.takesIn pa).core = { s.core with icache := s.core.icache.set pa (s.wordAt pa) } := coreAt_setCoreAt ..
  rw [this]

theorem fetchWord_of_uncached {s : State} {pa : Nat} (h : s.core.icache.at? pa = none) :
    s.fetchWord pa = (s.wordAt pa, s.takesIn pa) := by
  simp only [fetchWord, h, Option.getD_none, decide_true, Bool.true_or, if_true]
  rfl

/-! ## The fetch -/

/-- The packet whose words stand at a physical address and behind it. -/
def packetFrom (s : State) (pa : Nat) : Packet := { w0 := s.wordAt pa, w1 := s.wordAt (pa + 4), w2 := s.wordAt (pa + 8) }

/-- The three words that a packet's fetch takes, where no one of them is cached. -/
theorem fetchWords_of_empty {s : State} (hcache : s.core.icache = []) (pa : Nat) :
    s.fetchWord pa = (s.wordAt pa, s.takesIn pa) ∧
    (s.takesIn pa).fetchWord (pa + 4) = (s.wordAt (pa + 4), (s.takesIn pa).takesIn (pa + 4)) ∧
    ((s.takesIn pa).takesIn (pa + 4)).fetchWord (pa + 8) =
      (s.wordAt (pa + 8), ((s.takesIn pa).takesIn (pa + 4)).takesIn (pa + 8)) :=
  ⟨fetchWord_of_uncached (by simp [hcache]), fetchWord_of_uncached (by simp [hcache]),
    fetchWord_of_uncached (by simp [hcache])⟩

/-- No word of a packet in one frame stops its fetch (R385, R439). -/
theorem packetFrom_sound {s : State} {context pa : Nat} (hone : pa / 65536 = (pa + 8) / 65536)
    (huse : s.frameUsable context (pa / 65536) = true) (hpoison : ∀ k, k < 3 → s.poisonedAt (pa + 4 * k) 4 = false) :
    [pa, pa + 4, pa + 8].find? (fun a => s.poisonedAt a 4 || !s.frameUsable context (a / 65536)) = none := by
  have h0 : s.poisonedAt pa 4 = false := hpoison 0 (by decide)
  have h4 : s.poisonedAt (pa + 4) 4 = false := hpoison 1 (by decide)
  have h8 : s.poisonedAt (pa + 8) 4 = false := hpoison 2 (by decide)
  have hmid : (pa + 4) / 65536 = pa / 65536 := by omega
  simp [h0, h4, h8, hmid, hone.symm, huse]

/-- What a fetch of a packet in one page of plain frames does, where nothing stops it. -/
theorem fetchPacket_of_onePage {s : State} {e : DWord} {level va pa : Nat} (hcache : s.core.icache = [])
    (hbase : s.codeBase s.split % 64 = 0) (hva : s.packetAddress s.split = va) (hend : va + 12 ≤ 2 ^ 60)
    (hone : va / 65536 = (va + 11) / 65536)
    (hfirst : s.checkPage s.cur.core s.block.context s.split.rejected va .fetch = .page e level)
    (hlast : s.checkPage s.cur.core s.block.context s.split.rejected (va + 11) .fetch = .page e level)
    (hmiss : s.missHeld s.cur.core s.block.context va = false) (hlat : leafLat e = false)
    (hpa : s.physical (dieOf s.cur.core) e level va = pa) (huse : s.frameUsable s.block.context (pa / 65536) = true)
    (hpoison : ∀ k, k < 3 → s.poisonedAt (pa + 4 * k) 4 = false) :
    s.fetchPacket = .packet (s.packetFrom pa) (((s.takesIn pa).takesIn (pa + 4)).takesIn (pa + 8)) := by
  have hmissLast : s.missHeld s.cur.core s.block.context (va + 11) = false :=
    (missHeld_of_samePage s _ _ hone).symm.trans hmiss
  have hplace (k : Nat) (hk : k ≤ 11) : s.fetchPlace (va + k) (.page e level) = pa + k :=
    hpa ▸ physical_add s _ level hlat (by omega)
  have hplaces : [va, va + 4, va + 8].map (fun a => s.fetchPlace a (if a / 65536 = va / 65536 then .page e level else .page e level)) =
      [pa, pa + 4, pa + 8] := by
    simp [hplace, show s.fetchPlace va (.page e level) = pa from hpa]
  have hframe : pa / 65536 = (pa + 8) / 65536 := by
    simp only [← hpa, physical]
    omega
  obtain ⟨hw0, hw4, hw8⟩ := fetchWords_of_empty hcache pa
  unfold fetchPacket
  simp only [hva, hfirst, hlast, hplaces, hbase, Nat.not_lt.mpr hend, if_false]
  simp [hmiss, hmissLast, usableLat_of_plain s _ _ hlat, packetFrom_sound hframe huse hpoison, hw0, hw4, hw8, packetFrom]

end State

end Sys2Proof.Machine

open Sys2Proof Sys2Proof.Machine Sys2Proof.Machine.State

/-- Settles O35: without a cached word the fetch takes the three words of memory behind the packet's one leaf. -/
theorem fetchReadsThePacket : Obligations.FetchReadsThePacket := by
  unfold Obligations.FetchReadsThePacket
  intro s e level hnone hcache base va pa hbase hend hone hfirst hlast hmiss hlat huse hpoison word p
  have hfetch : s.fetchPacket = .packet p (((s.takesIn pa).takesIn (pa + 4)).takesIn (pa + 8)) :=
    fetchPacket_of_onePage hcache hbase rfl hend hone hfirst hlast hmiss hlat rfl huse hpoison
  refine ⟨_, hfetch, rfl, rfl, fun hc => ?_, fun c hc => ?_⟩
  · simp only [packetAt, hnone, hfetch, hc]
  · simp only [packetAt, hnone, hfetch, hc]
end

section
/-!
O51, the choice of the method: the estimates of R366 as sums, and what each bound makes of them.
-/

set_option Elab.async false

namespace Sys2Proof.Machine

/-! ## Bounds and estimates (R365, R366) -/

theorem boundOf_eq_none {latbound request : Nat} : boundOf latbound request = none ↔ latbound = 0 ∧ request = 0 := by
  by_cases hl : latbound = 0 <;> by_cases hr : request = 0 <;> simp [boundOf, hl, hr]

/-- The bound in force, where there is one. -/
theorem boundOf_eq_some {latbound request : Nat} (h : ¬ (latbound = 0 ∧ request = 0)) :
    boundOf latbound request = some (if latbound = 0 then request
      else if request = 0 then 1024 * latbound else min (1024 * latbound) request) := by
  by_cases hl : latbound = 0 <;> by_cases hr : request = 0 <;> simp_all [boundOf]

theorem chooseMethod_flush {ts tf : Nat} (td bound : Option Nat) (h : tf ≤ ts) : chooseMethod ts tf td bound true = .flush := by
  simp [chooseMethod, h]

theorem chooseMethod_unbound {ts tf : Nat} {flush : Bool} (td : Option Nat) (h : ¬ (flush = true ∧ tf ≤ ts)) :
    chooseMethod ts tf td none flush = if td.any (· ≤ ts) then .drain else .save := by
  cases td <;> simp [chooseMethod, h]

theorem chooseMethod_bound {ts tf l : Nat} {flush : Bool} (td : Option Nat) (h : ¬ (flush = true ∧ tf ≤ ts)) :
    chooseMethod ts tf td (some l) flush = if ts ≤ l then .save else if td.any (· ≤ l) then .drain else .miss := by
  cases td <;> simp [chooseMethod, h]

namespace State

theorem saveCost_eq (s : State) (id : Nat) :
    s.saveCost id = 2000 + (16384 * ((List.range (s.blockAt id).slots).filter fun j => (s.blockAt id).dirty.getLsbD j).length +
      ((s.groupsIn id).map fun j => 384 * vectorWindow (s.blockAt id) (s.groupAt j)).sum + 16384 * (s.blockAt id).units.length +
      4096) / 128 := by
  rw [saveCost, imageSize, ← List.sum_eq_foldl_nat, dirtySlots]

theorem mayFlush_eq_true {s : State} {id : Nat} :
    s.mayFlush id = true ↔ (s.blockAt id).header.restart = true ∧ (s.blockAt id).wroteOut = false := by
  simp [mayFlush]

/-- Drain is eligible and comes to an end within `n` clocks (R366). -/
theorem drainCost_any {s : State} {id n : Nat} :
    (s.drainCost id).any (· ≤ n) = true ↔ (s.launchAt (s.blockAt id).launch).ended ≠ 0 ∧
      (s.launchAt (s.blockAt id).launch).runTime / (s.launchAt (s.blockAt id).launch).ended - s.flushCost id ≤ n := by
  unfold drainCost
  dsimp only
  split <;> simp [*]

/-- The method of hardware mode (R366). -/
theorem methodFor_hardware {s : State} {id : Nat} (request named : Nat) (h : s.assisted (s.blockAt id).partition 3 = false) :
    s.methodFor id request named = chooseMethod (s.saveCost id) (s.flushCost id) (s.drainCost id)
      (boundOf (s.blockAt id).header.latbound request) (s.mayFlush id) := by
  simp [methodFor, h]

/-- The method of host-assisted mode (R366). -/
theorem methodFor_assisted {s : State} {id : Nat} (request named : Nat) (h : s.assisted (s.blockAt id).partition 3 = true) :
    s.methodFor id request named = if named = 1 ∧ s.mayFlush id = true then .flush else if named = 3 then .drain else .save := by
  simp [methodFor, h, namedMethod]

end State

end Sys2Proof.Machine
end

section
/-!
O51, a block at rest: what a block with nothing outstanding keeps when it is brought to rest, and what it leaves behind when it is taken
off its core (R367).
-/

set_option Elab.async false

namespace Sys2Proof.Machine

/-! ## Entries of tables -/

theorem Table.mem_of_at? {t : Table α} {k : Nat} {v : α} (h : t.at? k = some v) : (k, v) ∈ t := by
  induction t with
  | nil => cases h
  | cons e t ih =>
      obtain ⟨j, w⟩ := e
      simp only [Table.at?] at h
      split at h
      · simp_all
      · exact List.mem_cons_of_mem _ (ih h)

theorem Table.mem_set {t : Table α} {k : Nat} {v : α} {e : Nat × α} (h : e ∈ t.set k v) : e = (k, v) ∨ e ∈ t := by
  induction t with
  | nil => simpa [Table.set] using h
  | cons x t ih =>
      simp only [Table.set] at h
      split at h
      · simpa using h
      · split at h <;> simp only [List.mem_cons] at h ⊢ <;> tauto

theorem Table.mem_set_self (t : Table α) (k : Nat) (v : α) : (k, v) ∈ t.set k v := Table.mem_of_at? (Table.at?_set_self t k v)

/-- A write of a table takes away no entry but the one that was found under its key. -/
theorem Table.mem_set_or_at? {t : Table α} {k : Nat} (v : α) {e : Nat × α} (h : e ∈ t) :
    e ∈ t.set k v ∨ (e.1 = k ∧ t.at? k = some e.2) := by
  induction t with
  | nil => cases h
  | cons x t ih =>
      obtain ⟨j, w⟩ := x
      simp only [Table.set, Table.at?]
      by_cases hkj : k < j
      · simp only [hkj, if_true]; left; exact List.mem_cons_of_mem _ h
      · by_cases hj : j = k
        · rcases List.mem_cons.mp h with rfl | h
          · right; simp [hj]
          · left; simp [hj, h]
        · simp only [hkj, hj, if_false]
          rcases List.mem_cons.mp h with rfl | h
          · left; simp
          · exact (ih h).imp_left (List.mem_cons_of_mem _)

theorem Table.at?_filter_of_false {t : Table α} {p : Nat × α → Bool} {k : Nat} (h : ∀ v, p (k, v) = false) :
    Table.at? (t.filter p) k = none := by
  induction t with
  | nil => rfl
  | cons e t ih =>
      obtain ⟨j, w⟩ := e
      rw [List.filter_cons]
      split
      · rename_i hp
        have hj : j ≠ k := by rintro rfl; simp [h] at hp
        rwa [Table.at?, if_neg hj]
      · exact ih

/-! ## Folds that do nothing, or leave a part alone -/

theorem foldl_eq_self {f : σ → α → σ} {s : σ} {l : List α} (h : ∀ a ∈ l, f s a = s) : l.foldl f s = s := by
  induction l with
  | nil => rfl
  | cons a l ih => rw [List.foldl_cons, h a List.mem_cons_self, ih fun b hb => h b (List.mem_cons_of_mem _ hb)]

theorem foldl_proj {f : σ → α → σ} (π : σ → β) (h : ∀ s a, π (f s a) = π s) (l : List α) (s : σ) : π (l.foldl f s) = π s := by
  induction l generalizing s with
  | nil => rfl
  | cons a l ih => rw [List.foldl_cons, ih, h]

namespace State

/-! ## Groups of a block -/

theorem mem_groupsIn {s : State} {id j : Nat} : j ∈ s.groupsIn id ↔ ∃ g, (j, g) ∈ s.groups ∧ g.phase ≠ .free ∧ g.block = id := by
  simp [groupsIn]

/-- A group changed in what is neither its phase nor its block stays a group of its block. -/
theorem mem_groupsIn_setGroupAt {s : State} {k : Nat} {g : Group} (hphase : g.phase = (s.groupAt k).phase)
    (hblock : g.block = (s.groupAt k).block) (id j : Nat) : j ∈ (s.setGroupAt k g).groupsIn id ↔ j ∈ s.groupsIn id := by
  simp only [mem_groupsIn, setGroupAt_groups]
  constructor
  · rintro ⟨x, hx, hfree, hid⟩
    rcases Table.mem_set hx with h | h
    · obtain ⟨rfl, rfl⟩ := Prod.mk.inj h
      cases hat : s.groups.at? j with
      | none =>
          have : s.groupAt j = Group.free := by simp [groupAt, Table.get, hat]
          exact absurd (hphase.trans (by rw [this]; rfl)) hfree
      | some y =>
          have hy : s.groupAt j = y := Table.get_of_at? hat _
          exact ⟨y, Table.mem_of_at? hat, by rwa [← hy, ← hphase], by rwa [← hy, ← hblock]⟩
    · exact ⟨x, h, hfree, hid⟩
  · rintro ⟨x, hx, hfree, hid⟩
    rcases Table.mem_set_or_at? g hx with h | ⟨hj, hat⟩
    · exact ⟨x, h, hfree, hid⟩
    · obtain rfl : j = k := hj
      have hy : s.groupAt j = x := Table.get_of_at? hat _
      exact ⟨g, Table.mem_set_self .., by rwa [hphase, hy], by rwa [hblock, hy]⟩

/-! ## Held words discarded -/

section
variable (s : State) (id : Nat)

@[simp] theorem dropHeld_now : (s.dropHeld id).now = s.now := foldl_proj State.now (fun _ _ => by rfl) ..
@[simp] theorem dropHeld_sys : (s.dropHeld id).sys = s.sys := foldl_proj State.sys (fun _ _ => by rfl) ..
@[simp] theorem dropHeld_blocks : (s.dropHeld id).blocks = s.blocks := foldl_proj State.blocks (fun _ _ => by rfl) ..
@[simp] theorem dropHeld_cores : (s.dropHeld id).cores = s.cores := foldl_proj State.cores (fun _ _ => by rfl) ..
@[simp] theorem dropHeld_clusters : (s.dropHeld id).clusters = s.clusters := foldl_proj State.clusters (fun _ _ => by rfl) ..
@[simp] theorem dropHeld_contexts : (s.dropHeld id).contexts = s.contexts := foldl_proj State.contexts (fun _ _ => by rfl) ..
@[simp] theorem dropHeld_firm : (s.dropHeld id).firm = s.firm := foldl_proj State.firm (fun _ _ => by rfl) ..
@[simp] theorem dropHeld_mem : (s.dropHeld id).mem = s.mem := foldl_proj State.mem (fun _ _ => by rfl) ..
@[simp] theorem dropHeld_spad : (s.dropHeld id).spad = s.spad := foldl_proj State.spad (fun _ _ => by rfl) ..
@[simp] theorem dropHeld_acc : (s.dropHeld id).acc = s.acc := foldl_proj State.acc (fun _ _ => by rfl) ..
@[simp] theorem dropHeld_hw : (s.dropHeld id).hw = s.hw := foldl_proj State.hw (fun _ _ => by rfl) ..

end

theorem mem_groupsIn_dropHeld (s : State) (id i j : Nat) : j ∈ (s.dropHeld id).groupsIn i ↔ j ∈ s.groupsIn i := by
  have key (l : List Nat) (t : State) : j ∈ (l.foldl (fun s k => s.setGroupAt k { s.groupAt k with
      splits := (s.groupAt k).splits.mapVal fun _ x => atRest x }) t).groupsIn i ↔ j ∈ t.groupsIn i := by
    induction l generalizing t with
    | nil => rfl
    | cons k l ih => rw [List.foldl_cons, ih]; exact mem_groupsIn_setGroupAt (by rfl) (by rfl) ..
  exact key _ s

/-! ## Nothing outstanding -/

/-- No operation of a block is outstanding: of no group, in the copy engine, in the matrix engine. -/
structure Quiet (s : State) (id : Nat) : Prop where
  ops : ∀ j, j ∈ s.groupsIn id → (s.sysAt j).all = []
  copies : ∀ r, r ∈ (s.coreAt (s.blockAt id).core).copies → r.block ≠ id
  entries : ∀ e, e ∈ (s.clusterAt (clusterOf (s.blockAt id).core)).entries → e.block ≠ id

theorem all_eq_nil {g : GroupSys} : g.all = [] ↔ g.ld = [] ∧ g.st = [] ∧ g.cp = [] ∧ g.tm = [] := by
  simp [GroupSys.all]

theorem restLoads_of_nil {s : State} {gk : Nat} (h : (s.sysAt gk).all = []) : s.restLoads gk = s := by
  obtain ⟨hld, hst, -, -⟩ := all_eq_nil.mp h
  have hperform : s.performAll gk = s := by simp [performAll, GroupSys.waiting, hld, hst]
  simp [restLoads, hperform, hld]

theorem restPersists_of_nil {s : State} {gk : Nat} (h : (s.sysAt gk).all = []) : s.restPersists gk = s := by
  obtain ⟨-, -, hcp, -⟩ := all_eq_nil.mp h
  simp [restPersists, hcp]

theorem restCopies_of_quiet {s : State} {id : Nat} (h : s.Quiet id) : s.restCopies id = s := by
  have hnone : ((s.coreAt (s.blockAt id).core).copies.filter fun r => r.block == id && r.ready && r.pushSince.isNone) = [] :=
    List.filter_eq_nil_iff.mpr fun r hr => by simp [h.copies r hr]
  simp only [restCopies, hnone, List.foldl_nil]

/-- The matrix operations of a block that are still to be done. -/
theorem openEntries_of_quiet {s : State} {id : Nat} (h : s.Quiet id) :
    ((s.clusterAt (clusterOf (s.blockAt id).core)).entries.filter fun e => e.block == id && !e.finished) = [] :=
  List.filter_eq_nil_iff.mpr fun e he => by simp [h.entries e he]

theorem restMatrix_of_quiet {s : State} {id : Nat} (h : s.Quiet id) : s.restMatrix id = s := by
  have hnext : s.nextMatrix id = none := by
    simp only [nextMatrix, openEntries_of_quiet h]
    rfl
  simp only [restMatrix, hnext]
  refine foldl_eq_self fun k hk => ?_
  obtain ⟨-, -, -, htm⟩ := all_eq_nil.mp (h.ops k hk)
  rw [htm, List.foldl_nil]

theorem restRound_of_quiet {s : State} {id : Nat} (h : s.Quiet id) : s.restRound id = s := by
  have hloads : (s.groupsIn id).foldl restLoads s = s := foldl_eq_self fun k hk => restLoads_of_nil (h.ops k hk)
  have hpersists : (s.groupsIn id).foldl restPersists s = s := foldl_eq_self fun k hk => restPersists_of_nil (h.ops k hk)
  simp only [restRound, hloads, hpersists, restCopies_of_quiet h, restMatrix_of_quiet h]

theorem Quiet.dropHeld {s : State} {id : Nat} (h : s.Quiet id) : (s.dropHeld id).Quiet id where
  ops j hj := by simpa [sysAt] using h.ops j ((mem_groupsIn_dropHeld ..).mp hj)
  copies := by simpa [coreAt, blockAt] using h.copies
  entries := by simpa [clusterAt, blockAt] using h.entries

theorem Quiet.countedOps {s : State} {id : Nat} (h : s.Quiet id) : s.countedOps id = 0 := by
  have hzero : (s.groupsIn id).map (fun k => (s.sysAt k).all.length) = (s.groupsIn id).map fun _ => 0 :=
    List.map_congr_left fun k hk => by rw [h.ops k hk]; rfl
  rw [State.countedOps, hzero, openEntries_of_quiet h, ← List.sum_eq_foldl_nat]
  simp

theorem Quiet.restful {s : State} {id : Nat} (h : s.Quiet id) : s.restful id = true := by
  refine List.all_eq_true.mpr fun k hk => ?_
  obtain ⟨hld, hst, hcp, htm⟩ := all_eq_nil.mp (h.ops k hk)
  simp [hld, hst, hcp, htm]

/-- A block as O51 pre-empts it: nothing outstanding, no rendezvous half taken, no TLBINV under way and no PUBLISH that waits. -/
structure Idle (s : State) (id : Nat) : Prop extends Quiet s id where
  before : ∀ j, j ∈ s.groupsIn id → (s.sysAt j).before = none
  words : ∀ j, j ∈ s.groupsIn id → ∀ e, e ∈ (s.groupAt j).splits → e.2.drop = none ∧ e.2.hold.bind Hold.publish = none

/-- An idle block comes to rest by the discarding of its held words alone. -/
theorem Idle.rest {s : State} {id : Nat} (h : s.Idle id) : s.rest id = s.dropHeld id := by
  have hdrops : s.openDrops id = [] := by
    refine List.flatten_eq_nil_iff.mpr fun l hl => ?_
    obtain ⟨j, hj, rfl⟩ := List.mem_map.mp hl
    rw [List.map_eq_nil_iff, List.filter_eq_nil_iff]
    intro e he
    simp [(h.words j hj e he).1]
  have hpublishes : s.waitingPublishes id = [] := by
    refine List.flatten_eq_nil_iff.mpr fun l hl => ?_
    obtain ⟨j, hj, rfl⟩ := List.mem_map.mp hl
    rw [List.filterMap_eq_nil_iff]
    intro e he
    rw [(h.words j hj e he).2]
    cases e.2.packet <;> rfl
  simp only [State.rest, h.countedOps, hdrops, hpublishes, Nat.zero_add, List.range_one, List.foldl_cons, List.foldl_nil,
    restRound_of_quiet h.dropHeld]

theorem noRendezvous_eq_true {s : State} {id : Nat} : s.noRendezvous id = true ↔ ∀ j, j ∈ s.groupsIn id → (s.sysAt j).before = none := by
  simp [noRendezvous]

theorem Idle.maySave {s : State} {id : Nat} (h : s.Idle id) : s.maySave id = true := by
  simp [State.maySave, noRendezvous_eq_true.mpr h.before, h.rest, h.toQuiet.dropHeld.restful]

end State

end Sys2Proof.Machine
end

section
/-!
O51, the methods: what a flush, a drain, a save and a missed save make of a block (R366 to R369).
-/

set_option Elab.async false

namespace Sys2Proof.Machine.State

/-! ## A block off its core -/

section
variable (s : State) (c : Nat)

@[simp] theorem markStopped_blocks : (s.markStopped c).blocks = s.blocks := rfl
@[simp] theorem markStopped_contexts : (s.markStopped c).contexts = s.contexts := rfl
@[simp] theorem markStopped_mem : (s.markStopped c).mem = s.mem := rfl
@[simp] theorem markStopped_spad : (s.markStopped c).spad = s.spad := rfl

end

@[simp] theorem markStopped_copies (s : State) (c : Nat) : ((s.markStopped c).coreAt c).copies = (s.coreAt c).copies := by
  simp [markStopped]

section
variable (s : State) (id : Nat)

@[simp] theorem vacate_blocks : (s.vacate id).blocks = s.blocks.erase id := by unfold vacate; dsimp only; split <;> rfl
@[simp] theorem vacate_groups : (s.vacate id).groups = s.groups := by unfold vacate; dsimp only; split <;> rfl
@[simp] theorem vacate_launches : (s.vacate id).launches = s.launches := by unfold vacate; dsimp only; split <;> rfl
@[simp] theorem vacate_cores : (s.vacate id).cores = s.cores := by unfold vacate; dsimp only; split <;> rfl
@[simp] theorem vacate_contexts : (s.vacate id).contexts = s.contexts := by unfold vacate; dsimp only; split <;> rfl
@[simp] theorem vacate_firm : (s.vacate id).firm = s.firm := by unfold vacate; dsimp only; split <;> rfl
@[simp] theorem vacate_mem : (s.vacate id).mem = s.mem := by unfold vacate; dsimp only; split <;> rfl
@[simp] theorem vacate_spad : (s.vacate id).spad = s.spad := by unfold vacate; dsimp only; split <;> rfl
@[simp] theorem vacate_acc : (s.vacate id).acc = s.acc := by unfold vacate; dsimp only; split <;> rfl
@[simp] theorem vacate_hw : (s.vacate id).hw = s.hw := by unfold vacate; dsimp only; split <;> rfl

@[simp] theorem takeOff_blocks : (s.takeOff id).blocks = s.blocks.erase id := vacate_blocks ..
@[simp] theorem takeOff_groups : (s.takeOff id).groups = s.groups.filter fun e => !(s.groupsIn id).contains e.1 := vacate_groups ..
@[simp] theorem takeOff_launches : (s.takeOff id).launches = s.launches := vacate_launches ..
@[simp] theorem takeOff_contexts : (s.takeOff id).contexts = s.contexts := vacate_contexts ..
@[simp] theorem takeOff_firm : (s.takeOff id).firm = s.firm := vacate_firm ..
@[simp] theorem takeOff_mem : (s.takeOff id).mem = s.mem := vacate_mem ..
@[simp] theorem takeOff_spad : (s.takeOff id).spad = s.spad := vacate_spad ..
@[simp] theorem takeOff_acc : (s.takeOff id).acc = s.acc := vacate_acc ..
@[simp] theorem takeOff_hw : (s.takeOff id).hw = s.hw := vacate_hw ..

theorem takeOff_copies : ((s.takeOff id).coreAt (s.blockAt id).core).copies =
    (s.coreAt (s.blockAt id).core).copies.filter (·.block != id) := by
  rw [takeOff, markStopped_copies]
  simp only [coreAt, vacate_cores]
  simp

end

/-- Block `id` of `s` has left its core: its groups and copies are gone, and no memory has changed. -/
def Gone (s : State) (id : Nat) (t : State) : Prop :=
  t.blocks.at? id = none ∧ (∀ j, j ∈ s.groupsIn id → (t.groupAt j).phase = .free) ∧
    (∀ r, r ∈ (t.coreAt (s.blockAt id).core).copies → r.block ≠ id) ∧ s.SameMemory t

theorem takeOff_groupAt {s : State} {id j : Nat} (h : j ∈ s.groupsIn id) : (s.takeOff id).groupAt j = Group.free := by
  have hnone : Table.at? (s.groups.filter fun e => !(s.groupsIn id).contains e.1) j = none :=
    Table.at?_filter_of_false fun _ => by simp [h]
  simp only [groupAt, takeOff_groups, Table.get, hnone, Option.getD_none]

theorem gone_takeOff (s : State) (id : Nat) : s.Gone id (s.takeOff id) := by
  refine ⟨by simp, fun j hj => by rw [takeOff_groupAt hj]; rfl, fun r hr => ?_, ?_⟩
  · rw [takeOff_copies, List.mem_filter] at hr
    simpa using hr.2
  · simp [SameMemory]

/-- What a block of `u` leaves behind, one of `s` does, where they share blocks, groups and memory. -/
theorem Gone.of_same {s u t : State} {id : Nat} (h : u.Gone id t) (hblocks : u.blocks = s.blocks)
    (hgroups : ∀ j, j ∈ s.groupsIn id → j ∈ u.groupsIn id) (hmem : u.mem = s.mem) (hspad : u.spad = s.spad) (hacc : u.acc = s.acc) :
    s.Gone id t := by
  obtain ⟨hb, hg, hc, hm⟩ := h
  refine ⟨hb, fun j hj => hg j (hgroups j hj), ?_, ?_⟩
  · simpa only [blockAt, hblocks] using hc
  · simpa only [SameMemory, hmem, hspad, hacc] using hm

/-! ## Flush and drain -/

theorem gone_flushBlock (s : State) (id : Nat) : s.Gone id (s.flushBlock id) :=
  (gone_takeOff _ id).of_same rfl (fun _ h => h) rfl rfl rfl

/-- A flushed block is to run again (R367). -/
theorem flushBlock_requeued (s : State) (id : Nat) :
    (s.blockAt id).number ∈ ((s.flushBlock id).launchAt (s.blockAt id).launch).requeued := by
  simp [flushBlock, launchAt]

/-! ## Save -/

section
variable (s : State) (c : Nat) (i : Image)

theorem keepImage_images : ((s.keepImage c i).firmAt c).images = (s.firmAt c).images ++ [i] := by
  simp [keepImage, recordImage]

theorem keepImage_seqs : (s.keepImage c i).hw.imageSeqs.get c 0 = i.seq := by
  simp [keepImage, recordImage]

theorem keepImage_votes : (s.keepImage c i).hw.votes = s.hw.votes := rfl

end

/-- The bytes of a slice of a memory. -/
theorem byte_slice (m : Memory) {a n k : Nat} (h : k < n) : (m.slice a n 0).byte k = m.byte (a + k) := by
  induction m with
  | nil => rfl
  | cons e m ih =>
      obtain ⟨j, v⟩ := e
      have ih' : Memory.byte (List.map (fun c => (c.1 - a + 0, c.2)) (List.filter (fun c => a ≤ c.1 && c.1 < a + n) m)) k =
        Memory.byte m (a + k) := ih
      simp only [Memory.slice, List.filter_cons]
      split
      · rename_i hin
        simp only [Bool.and_eq_true, decide_eq_true_eq] at hin
        simp only [List.map_cons, Memory.byte, ih']
        by_cases hj : j = a + k
        · rw [if_pos (by omega), if_pos hj]
        · rw [if_neg (by omega), if_neg hj]
      · rename_i hout
        simp only [Bool.and_eq_true, decide_eq_true_eq] at hout
        rw [ih', Memory.byte, if_neg (by omega)]

/-- Block `id` of `s` has been saved in `t`: its image is the newest of its context's save area (R368). -/
def Saved (s : State) (id : Nat) (drained miss : Bool) (t : State) : Prop :=
  s.Gone id t ∧ ∃ i, (t.firmAt (s.blockAt id).context).images = (s.firmAt (s.blockAt id).context).images ++ [i] ∧
    i.launch = (s.blockAt id).launch ∧ i.number = (s.blockAt id).number ∧
    i.seq = s.hw.imageSeqs.get (s.blockAt id).context 0 + 1 ∧ t.hw.imageSeqs.get (s.blockAt id).context 0 = i.seq ∧
    i.saved = true ∧ i.queued = true ∧ i.drained = drained ∧ i.miss = miss ∧
    (∀ a, a < 16384 * (s.blockAt id).slots →
      i.pads.byte a = s.spad.byte (padKey (s.blockAt id).core (16384 * (s.blockAt id).slot0) + a)) ∧
    ∀ j, j ∈ i.groups.map Prod.fst ↔ j ∈ s.groupsIn id

theorem imageOf_pads (s : State) (id : Nat) (drained miss queued : Bool) {a : Nat} (h : a < 16384 * (s.blockAt id).slots) :
    (s.imageOf id drained miss queued).pads.byte a =
      s.spad.byte (padKey (s.blockAt id).core (16384 * (s.blockAt id).slot0) + a) := by
  rw [Nat.mul_comm 16384 (s.blockAt id).slot0]
  exact byte_slice _ (by rwa [Nat.mul_comm] at h)

theorem imageOf_groups (s : State) (id : Nat) (drained miss queued : Bool) :
    (s.imageOf id drained miss queued).groups.map Prod.fst = s.groupsIn id := by
  simp [imageOf, Function.comp_def]

theorem saved_storeBlock (s : State) (id : Nat) (drained miss : Bool) : s.Saved id drained miss (s.storeBlock id drained miss true) := by
  refine ⟨(gone_takeOff _ id).of_same rfl (fun _ h => h) rfl rfl rfl, s.imageOf id drained miss true, ?_, rfl, rfl, rfl, ?_, rfl, rfl,
    rfl, rfl, fun a ha => imageOf_pads _ _ _ _ _ ha, fun j => by rw [imageOf_groups]⟩
  · simp only [storeBlock, firmAt, takeOff_firm]
    exact keepImage_images ..
  · simp only [storeBlock, takeOff_hw]
    exact keepImage_seqs ..

@[simp] theorem storeBlock_contexts (s : State) (id : Nat) (drained miss queued : Bool) :
    (s.storeBlock id drained miss queued).contexts = s.contexts := by
  rw [storeBlock, takeOff_contexts]
  rfl

/-- What the save of a block of `u` leaves, that of a block of `s` does, where they share what an image is made of. -/
theorem Saved.of_same {s u t : State} {id : Nat} {drained miss : Bool} (h : u.Saved id drained miss t) (hblocks : u.blocks = s.blocks)
    (hgroups : ∀ j, j ∈ u.groupsIn id ↔ j ∈ s.groupsIn id) (hfirm : u.firm = s.firm) (hmem : u.mem = s.mem) (hspad : u.spad = s.spad)
    (hacc : u.acc = s.acc) (hseqs : u.hw.imageSeqs = s.hw.imageSeqs) : s.Saved id drained miss t := by
  obtain ⟨hgone, i, himages, hlaunch, hnumber, hseq, hkept, hsaved, hqueued, hdrained, hmiss, hpads, hkeys⟩ := h
  have hb : u.blockAt id = s.blockAt id := by simp only [blockAt, hblocks]
  rw [hb] at himages hlaunch hnumber hseq hkept hpads
  refine ⟨hgone.of_same hblocks (fun j => (hgroups j).mpr) hmem hspad hacc, i, ?_, hlaunch, hnumber, ?_, hkept, hsaved, hqueued,
    hdrained, hmiss, ?_, fun j => (hkeys j).trans (hgroups j)⟩
  · simpa only [firmAt, hfirm] using himages
  · simpa only [hseqs] using hseq
  · simpa only [hspad] using hpads

theorem sealedOf_congr {s t : State} (hcontexts : t.contexts = s.contexts) (hpartitions : t.hw.partitions = s.hw.partitions) (c : Nat) :
    t.sealedOf c = s.sealedOf c := by
  simp only [sealedOf, contextAt, partitionAt, hcontexts, hpartitions]

/-- The save of an idle block: its held words are discarded, its image is written and, where it is sealed, voted on. -/
theorem saveBlock_of_idle {s : State} {id : Nat} (hidle : s.Idle id) (hlive : (s.blocks.at? id).isSome = true) (drained miss queued : Bool) :
    s.saveBlock id drained miss queued =
      if s.sealedOf (s.blockAt id).context then (s.dropHeld id).decided fun s => s.storeBlock id drained miss queued
      else (s.dropHeld id).storeBlock id drained miss queued := by
  have hsome : s.blocks.at? id ≠ none := fun h => by simp [h] at hlive
  have hblock : (s.dropHeld id).blockAt id = s.blockAt id := by simp [blockAt]
  simp only [saveBlock, hidle.rest, dropHeld_blocks, hsome, if_false, hblock,
    sealedOf_congr (dropHeld_contexts s id) (congrArg Module.partitions (dropHeld_hw s id))]

/-- The security cores agree on the image of a block, or need not be asked (R27, R369). -/
def MaySeal (s : State) (id : Nat) : Prop := s.sealedOf (s.blockAt id).context = false ∨ s.hw.votes.headD true = true

/-- Where nothing forbids the image of an idle block, it is stored as it stands at rest. -/
theorem saveBlock_eq_store {s : State} {id : Nat} (hidle : s.Idle id) (hlive : (s.blocks.at? id).isSome = true) (hmay : s.MaySeal id)
    (drained miss queued : Bool) : ∃ u, (u = s.dropHeld id ∨ u = (s.dropHeld id).voted) ∧
      s.saveBlock id drained miss queued = u.storeBlock id drained miss queued := by
  rw [saveBlock_of_idle hidle hlive]
  split
  · rename_i hsealed
    have hagreed : (s.dropHeld id).agreed = true := by
      simpa [agreed] using hmay.resolve_left (by simp [hsealed])
    exact ⟨_, .inr rfl, by rw [decided, if_pos hagreed]⟩
  · exact ⟨_, .inl rfl, rfl⟩

theorem saved_saveBlock {s : State} {id : Nat} (hidle : s.Idle id) (hlive : (s.blocks.at? id).isSome = true) (hmay : s.MaySeal id)
    (drained miss : Bool) : s.Saved id drained miss (s.saveBlock id drained miss true) := by
  obtain ⟨u, hu, heq⟩ := saveBlock_eq_store hidle hlive hmay drained miss true
  rw [heq]
  have hkeys := mem_groupsIn_dropHeld s id id
  rcases hu with rfl | rfl
  · exact (saved_storeBlock ..).of_same (by simp) hkeys (by simp) (by simp) (by simp) (by simp) (by simp)
  · exact (saved_storeBlock ..).of_same (dropHeld_blocks ..) hkeys (dropHeld_firm ..) (dropHeld_mem ..) (dropHeld_spad ..)
      (dropHeld_acc ..) (congrArg Module.imageSeqs (dropHeld_hw s id) :)

theorem saveBlock_contexts {s : State} {id : Nat} (hidle : s.Idle id) (hlive : (s.blocks.at? id).isSome = true) (hmay : s.MaySeal id)
    (drained miss : Bool) : (s.saveBlock id drained miss true).contexts = s.contexts := by
  obtain ⟨u, hu, heq⟩ := saveBlock_eq_store hidle hlive hmay drained miss true
  rw [heq, storeBlock_contexts]
  rcases hu with rfl | rfl <;> exact dropHeld_contexts ..

/-- Where the security cores disagree on the image of a sealed context's block, the block stays (R27, R369). -/
theorem saveBlock_of_disagree {s : State} {id : Nat} (hidle : s.Idle id) (hlive : (s.blocks.at? id).isSome = true)
    (hsealed : s.sealedOf (s.blockAt id).context = true) (hvote : s.hw.votes.headD true = false) (drained miss queued : Bool) :
    s.saveBlock id drained miss queued = (s.dropHeld id).voted.disagree := by
  have hno : (s.dropHeld id).agreed = false := by simpa [agreed] using hvote
  rw [saveBlock_of_idle hidle hlive, if_pos hsealed, decided, hno]
  rfl

/-! ## A missed bound -/

/-- What posting a record can do (R357): an entry of a ring, of the backlog, or of the error log. -/
theorem postEvent_cases (s : State) (c : Nat) (r : EventRecord) :
    (∃ n k g l, s.postEvent c r = s.ringPut n k g l) ∨
    (∃ l, s.postEvent c r = s.setFirmAt c { s.firmAt c with backlog := l }) ∨ ∃ e, s.postEvent c r = s.logError e := by
  unfold postEvent
  dsimp only
  split
  · exact .inr (.inr ⟨_, rfl⟩)
  · split
    · split
      · exact .inl ⟨_, _, _, _, rfl⟩
      · split
        · exact .inr (.inl ⟨_, rfl⟩)
        · exact .inr (.inr ⟨_, rfl⟩)
    · split
      · exact .inr (.inl ⟨_, rfl⟩)
      · exact .inr (.inr ⟨_, rfl⟩)

section
variable (s : State) (c : Nat) (r : EventRecord)

/-- A part of the state that no entry of a ring, of a backlog or of the log belongs to is left alone by a record. -/
theorem postEvent_proj (π : State → β) (hring : ∀ n k g l, π (s.ringPut n k g l) = π s)
    (hfirm : ∀ f, π (s.setFirmAt c f) = π s) (hlog : ∀ e, π (s.logError e) = π s) : π (s.postEvent c r) = π s := by
  rcases postEvent_cases s c r with ⟨n, k, g, l, h⟩ | ⟨l, h⟩ | ⟨e, h⟩ <;> rw [h]
  · exact hring n k g l
  · exact hfirm _
  · exact hlog e

@[simp] theorem postEvent_groups : (s.postEvent c r).groups = s.groups :=
  postEvent_proj s c r groups (by simp) (by simp) (by simp)
@[simp] theorem postEvent_sys : (s.postEvent c r).sys = s.sys := postEvent_proj s c r State.sys (by simp) (by simp) (by simp)
@[simp] theorem postEvent_blocks : (s.postEvent c r).blocks = s.blocks := postEvent_proj s c r blocks (by simp) (by simp) (by simp)
@[simp] theorem postEvent_cores : (s.postEvent c r).cores = s.cores := postEvent_proj s c r cores (by simp) (by simp) (by simp)
@[simp] theorem postEvent_clusters : (s.postEvent c r).clusters = s.clusters :=
  postEvent_proj s c r clusters (by simp) (by simp) (by simp)
@[simp] theorem postEvent_contexts : (s.postEvent c r).contexts = s.contexts :=
  postEvent_proj s c r contexts (by simp) (by simp) (by simp)
@[simp] theorem postEvent_hw_partitions : (s.postEvent c r).hw.partitions = s.hw.partitions :=
  postEvent_proj s c r (·.hw.partitions) (by simp) (by simp) (by simp)
@[simp] theorem postEvent_hw_imageSeqs : (s.postEvent c r).hw.imageSeqs = s.hw.imageSeqs :=
  postEvent_proj s c r (·.hw.imageSeqs) (by simp) (by simp) (by simp)
@[simp] theorem postEvent_hw_votes : (s.postEvent c r).hw.votes = s.hw.votes :=
  postEvent_proj s c r (·.hw.votes) (fun _ _ _ _ => rfl) (fun _ => rfl) (fun _ => rfl)

end

/-- A count of 64 bits that stops at its top. -/
theorem toNat_countUp (n : DWord) : (if n = BitVec.allOnes 64 then n else n + 1).toNat = min (2 ^ 64 - 1) (n.toNat + 1) := by
  have hlt := n.isLt
  split
  · simp [*]
  · rename_i hne
    have : n.toNat ≠ 2 ^ 64 - 1 := fun h => hne (BitVec.eq_of_toNat_eq (by simpa using h))
    rw [BitVec.toNat_add, show (1 : DWord).toNat = 1 from rfl]
    omega

section
variable (s : State) (id : Nat)

@[simp] theorem noteMiss_groups : (s.noteMiss id).groups = s.groups := by simp [noteMiss]
@[simp] theorem noteMiss_sys : (s.noteMiss id).sys = s.sys := by simp [noteMiss]
@[simp] theorem noteMiss_blocks : (s.noteMiss id).blocks = s.blocks := by simp [noteMiss]
@[simp] theorem noteMiss_cores : (s.noteMiss id).cores = s.cores := by simp [noteMiss]
@[simp] theorem noteMiss_clusters : (s.noteMiss id).clusters = s.clusters := by simp [noteMiss]
@[simp] theorem noteMiss_hw_partitions : (s.noteMiss id).hw.partitions = s.hw.partitions := by simp [noteMiss]
@[simp] theorem noteMiss_hw_imageSeqs : (s.noteMiss id).hw.imageSeqs = s.hw.imageSeqs := by simp [noteMiss]
@[simp] theorem noteMiss_hw_votes : (s.noteMiss id).hw.votes = s.hw.votes := by simp [noteMiss]

/-- A context's count of missed bounds, which stops at its top (R348, R366). -/
theorem noteMiss_pmiss : ((s.noteMiss id).contextAt (s.blockAt id).context).pmiss.toNat =
    min (2 ^ 64 - 1) ((s.contextAt (s.blockAt id).context).pmiss.toNat + 1) := by
  simp only [noteMiss, contextAt, postEvent_contexts, setContextAt_contexts, Table.get_set_self]
  exact toNat_countUp _

theorem noteMiss_sealedOf : (s.noteMiss id).sealedOf (s.blockAt id).context = s.sealedOf (s.blockAt id).context := by
  simp [sealedOf, noteMiss, contextAt, partitionAt]

end

/-- Whether a block is idle follows from groups, blocks, cores and clusters. -/
theorem Idle.of_same {s t : State} {id : Nat} (h : s.Idle id) (hgroups : t.groups = s.groups) (hsys : t.sys = s.sys)
    (hblocks : t.blocks = s.blocks) (hcores : t.cores = s.cores) (hclusters : t.clusters = s.clusters) : t.Idle id where
  ops := by simpa only [groupsIn, sysAt, hgroups, hsys] using h.ops
  copies := by simpa only [coreAt, blockAt, hcores, hblocks] using h.copies
  entries := by simpa only [clusterAt, blockAt, hclusters, hblocks] using h.entries
  before := by simpa only [groupsIn, sysAt, hgroups, hsys] using h.before
  words := by simpa only [groupsIn, groupAt, hgroups] using h.words

/-- The save of a block that has missed its bound is a save of the state in which the miss is noted. -/
theorem saved_noteMiss {s : State} {id : Nat} (hidle : s.Idle id) (hlive : (s.blocks.at? id).isSome = true) (hmay : s.MaySeal id) :
    let t := (s.noteMiss id).saveBlock id false true true
    (s.noteMiss id).Saved id false true t ∧ (t.contextAt (s.blockAt id).context).pmiss.toNat =
      min (2 ^ 64 - 1) ((s.contextAt (s.blockAt id).context).pmiss.toNat + 1) := by
  have hb : (s.noteMiss id).blockAt id = s.blockAt id := by simp [blockAt]
  have hidle' : (s.noteMiss id).Idle id := hidle.of_same (by simp) (by simp) (by simp) (by simp) (by simp)
  have hlive' : ((s.noteMiss id).blocks.at? id).isSome = true := by simpa using hlive
  have hmay' : (s.noteMiss id).MaySeal id := by
    simpa only [MaySeal, hb, noteMiss_sealedOf, noteMiss_hw_votes] using hmay
  refine ⟨saved_saveBlock hidle' hlive' hmay' .., ?_⟩
  rw [← noteMiss_pmiss]
  simp only [contextAt, saveBlock_contexts hidle' hlive' hmay']

end Sys2Proof.Machine.State
end

section
/-!
O51, the return of a block: an image that is refused ends its context, another puts the block back on a core (R369, R370).
-/

set_option Elab.async false

namespace Sys2Proof.Machine.State

/-! ## Events -/

/-- An event that can happen has its effect; who issues stays as it was. -/
theorem happens_of_event {i : Instr} {s : State} {enabled : Bool} {effect : State → State} {P : State → Prop}
    (he : exec i s = s.event enabled effect) (henabled : enabled = true)
    (h : P { effect s with cur := s.cur, tick := (effect s).tick + 1 }) : Happens i s P :=
  ⟨{ effect s with cur := s.cur, tick := (effect s).tick + 1 }, by rw [he, event, if_pos henabled], rfl, h⟩

/-! ## The end of a context -/

@[simp] theorem markStopped_foldl_blocks (l : List Nat) (s : State) : (l.foldl markStopped s).blocks = s.blocks :=
  foldl_proj blocks (fun _ _ => by rfl) l s

@[simp] theorem markStopped_foldl_contexts (l : List Nat) (s : State) : (l.foldl markStopped s).contexts = s.contexts :=
  foldl_proj contexts (fun _ _ => by rfl) l s

theorem removeContext_contexts (s : State) (c : Nat) : (s.removeContext c).contexts = (s.wholeWork c).contexts.erase c := by
  rw [removeContext, freeFrames_contexts, markStopped_foldl_contexts]
  rfl

theorem removeContext_blocks (s : State) (c : Nat) : (s.removeContext c).blocks = (s.wholeWork c).blocks.filter fun e =>
    !(((s.wholeWork c).blocks.filter fun e => e.2.context == c).map Prod.fst).contains e.1 := by
  rw [removeContext, freeFrames_blocks, markStopped_foldl_blocks]
  rfl

theorem killWith_contexts (s : State) (c : Nat) (r : EventRecord) :
    (s.killWith c r).contexts = (((s.postEvent c r).keepRecords c).removeContext c).contexts := by rw [killWith]

theorem killWith_blocks (s : State) (c : Nat) (r : EventRecord) :
    (s.killWith c r).blocks = (((s.postEvent c r).keepRecords c).removeContext c).blocks := by rw [killWith]

/-- Nothing is left of a context that is killed, no block of it among the rest (R356). -/
theorem killWith_gone (s : State) (c : Nat) (r : EventRecord) : (s.killWith c r).contexts.at? c = none ∧
    ∀ j x, (s.killWith c r).blocks.at? j = some x → x.context ≠ c := by
  refine ⟨?_, fun j x hx hc => ?_⟩
  · rw [killWith_contexts, removeContext_contexts, Table.at?_erase_self]
  · have hmem : (j, x) ∈ (s.killWith c r).blocks := Table.mem_of_at? hx
    rw [killWith_blocks, removeContext_blocks, List.mem_filter] at hmem
    obtain ⟨hin, hkey⟩ := hmem
    have hothers : ∀ y, (j, y) ∈ (((s.postEvent c r).keepRecords c).wholeWork c).blocks → y.context ≠ c := by simpa using hkey
    exact hothers x hin hc

/-! ## Bytes laid down from a place on -/

theorem Memory.byte_laid_of_lt {p : Memory} {low a b : Nat} (hp : p.wfFrom low = true) (ha : a < low) (m : Memory) :
    Memory.byte (p.foldl (fun m c => m.setByte (b + c.1) c.2) m) (b + a) = m.byte (b + a) := by
  induction p generalizing low m with
  | nil => rfl
  | cons e p ih =>
      obtain ⟨j, v⟩ := e
      simp only [Memory.wfFrom, Bool.and_eq_true, decide_eq_true_eq] at hp
      obtain ⟨⟨hlow, -⟩, hrest⟩ := hp
      rw [List.foldl_cons, ih hrest (by omega), Memory.byte_setByte_of_ne _ _ (by omega)]

/-- A memory in canonical form laid down where all is zero reads as it did. -/
theorem Memory.byte_laid {p : Memory} {low b : Nat} (hp : p.wfFrom low = true) (a : Nat) {m : Memory} (hm : m.byte (b + a) = 0) :
    Memory.byte (p.foldl (fun m c => m.setByte (b + c.1) c.2) m) (b + a) = p.byte a := by
  induction p generalizing low m with
  | nil => exact hm
  | cons e p ih =>
      obtain ⟨j, v⟩ := e
      simp only [Memory.wfFrom, Bool.and_eq_true, decide_eq_true_eq] at hp
      obtain ⟨-, hrest⟩ := hp
      rw [List.foldl_cons, Memory.byte]
      split
      · rename_i hja
        rw [Memory.byte_laid_of_lt hrest (by omega), hja, Memory.byte_setByte_self]
      · rename_i hja
        exact ih hrest (by rw [Memory.byte_setByte_of_ne _ _ (by omega), hm])

/-! ## The restored block -/

section
variable (s : State) (core first n : Nat)

@[simp] theorem clearPads_spad : (s.clearPads core first n).spad = s.spad.clear (padKey core (slotBytes * first)) (slotBytes * n) := by
  unfold clearPads; dsimp only; split <;> rfl
@[simp] theorem clearPads_mem : (s.clearPads core first n).mem = s.mem := by unfold clearPads; dsimp only; split <;> rfl
@[simp] theorem clearPads_now : (s.clearPads core first n).now = s.now := by unfold clearPads; dsimp only; split <;> rfl

end

section
variable (s : State) (i : Image) (core slot0 : Nat) (units : List Nat)

theorem fillBlock_spad : (s.fillBlock i core slot0 units).spad = i.pads.foldl
    (fun m c => m.setByte (padKey core (slotBytes * slot0) + c.1) c.2)
    (s.spad.clear (padKey core (slotBytes * slot0)) (slotBytes * i.block.slots)) := by
  rw [fillBlock, ← clearPads_spad]
  exact foldl_proj spad (fun _ e => by dsimp only; split <;> rfl) _ _

theorem fillBlock_mem : (s.fillBlock i core slot0 units).mem = s.mem := by
  rw [fillBlock, ← clearPads_mem s core slot0 i.block.slots]
  exact foldl_proj State.mem (fun _ e => by dsimp only; split <;> rfl) _ _

theorem fillBlock_now : (s.fillBlock i core slot0 units).now = s.now := by
  rw [fillBlock, ← clearPads_now s core slot0 i.block.slots]
  exact foldl_proj now (fun _ e => by dsimp only; split <;> rfl) _ _

/-- The slots of a restored block hold what the image holds of them (R370). -/
theorem fillBlock_byte {a : Nat} (hwf : i.pads.wf = true) (ha : a < 16384 * i.block.slots) :
    (s.fillBlock i core slot0 units).spad.byte (padKey core (16384 * slot0) + a) = i.pads.byte a := by
  rw [fillBlock_spad]
  exact Memory.byte_laid hwf a (Memory.byte_clear_of_inside _ _ _ _ ⟨Nat.le_add_right .., Nat.add_lt_add_left ha _⟩)

end

section
variable (s : State) (core : Nat) (l : List (Nat × GroupSys))

theorem showStops_proj (π : State → β) (h : ∀ t c k, π (setCoreAt t c k) = π t) : π (s.showStops core l) = π s := by
  rw [showStops]
  refine (h ..).trans (foldl_proj π (fun _ _ => ?_) l s)
  dsimp only
  split
  · exact h ..
  · rfl

end

/-- Laying down the groups of an image changes only groups and what stands beside them. -/
theorem restoreGroups_proj (π : State → β) (h : ∀ t k g, π (setGroupAt t k g) = π t) (h' : ∀ t k g, π (setSysAt t k g) = π t)
    {key : α → Nat} {group : State → α → Group} {sys : α → GroupSys} (l : List α) (s : State) :
    π (l.foldl (fun s e => (s.setGroupAt (key e) (group s e)).setSysAt (key e) (sys e)) s) = π s :=
  foldl_proj π (fun _ _ => (h' ..).trans (h ..)) l s

section
variable (s : State) (c : Nat) (i : Image) (core slot0 : Nat)

/-- A part of the state that stands apart from groups, cores and firmware is what the contents and the block make of it. -/
theorem restoreBlock_proj (π : State → β) (hgroup : ∀ t k g, π (setGroupAt t k g) = π t) (hsys : ∀ t k g, π (setSysAt t k g) = π t)
    (hcore : ∀ t c k, π (setCoreAt t c k) = π t) (hfirm : ∀ t c f, π (setFirmAt t c f) = π t) : ∃ units b,
      π (s.restoreBlock c i core slot0) = π ((s.bumpId.fillBlock i core slot0 units).setBlockAt s.nextId b) ∧
      b.launch = i.block.launch ∧ b.number = i.block.number ∧ b.core = core ∧ b.slot0 = slot0 ∧ b.since = s.now ∧ b.drain = none ∧
      b.dirty = i.block.dirty ∧ b.bitmaps = i.block.bitmaps := by
  apply Exists.intro
  apply Exists.intro
  constructor
  · unfold restoreBlock
    refine (showStops_proj _ _ _ π hcore).trans ((hfirm ..).trans ((hcore ..).trans ?_))
    exact restoreGroups_proj π hgroup hsys _ _
  · exact ⟨rfl, rfl, rfl, rfl, fillBlock_now .., rfl, rfl, rfl⟩

end

end Sys2Proof.Machine.State
end

section
/-!
O51, checkpoints: the cut of a context without resident blocks, and the commit of the checkpoint under way (R404, R405).
-/

set_option Elab.async false

namespace Sys2Proof.Machine.State

/-! ## The cut (R404) -/

/-- The cut of a context with no block to bring to rest and no damaged page adds one checkpoint, not yet complete. -/
theorem cut_of_noBlocks {s : State} {c : Nat} (hlive : (s.contexts.at? c).isSome = true) (hblocks : s.blocksOf c = [])
    (hbad : s.badPage c = none) (host : Bool) (command : Option (Nat × Word)) : ∃ f x,
      s.cut c host command =
        (s.setFirmAt c f).setHw { s.hw with checkpoints := s.hw.checkpoints.set c (s.hw.checkpoints.get c [] ++ [x]) } ∧
      f.ckNumber = (s.firmAt c).ckNumber + 1 ∧ f.ckAt = s.now ∧ x.seq = (s.firmAt c).ckNumber + 1 ∧ x.firm = f ∧
      x.complete = false ∧ x.hostTriggered = host ∧ x.context = s.contextAt c := by
  have hsome : s.contexts.at? c ≠ none := fun h => by simp [h] at hlive
  have hrest : s.restAll c = s := by rw [restAll, hblocks]; rfl
  have himages : s.cutImages c = (s, []) := by rw [cutImages, hblocks]; rfl
  simp only [cut, hrest, hsome, if_false, hbad, himages]
  exact ⟨_, _, rfl, rfl, rfl, rfl, rfl, rfl, rfl, rfl⟩

/-! ## The manifest and the items (R405) -/

section
variable (c : Nat) (k : Checkpoint) (mapOff imgOff : Nat)

theorem manifestOf_length : (manifestOf c k mapOff imgOff).length = 128 := by simp [manifestOf]

theorem manifestOf_magic : (manifestOf c k mapOff imgOff).take 2 = [0x43, 0x5A] := rfl

theorem manifestOf_seq : ((manifestOf c k mapOff imgOff).drop 8).take 8 = toBytes 8 k.seq := rfl

/-- The checkpoint `k` once it is complete. -/
def committed : Checkpoint :=
  sealCheckpoint c { k with complete := true, manifest := manifestOf c k mapOff imgOff, command := none }

theorem committed_manifest : (committed c k mapOff imgOff).manifest = manifestOf c k mapOff imgOff := by
  unfold committed sealCheckpoint; split <;> rfl

theorem committed_complete : (committed c k mapOff imgOff).complete = true := by
  unfold committed sealCheckpoint; split <;> rfl

end

section
variable {c : Nat} {k : Checkpoint} (mapOff imgOff : Nat)

theorem committed_of_clear (hsealed : k.sealed = false) (hcommand : k.command = none) :
    { committed c k mapOff imgOff with complete := k.complete, manifest := k.manifest } = k := by
  have hk : committed c k mapOff imgOff =
      { k with complete := true, manifest := manifestOf c k mapOff imgOff, command := none } := by
    unfold committed sealCheckpoint
    rw [if_pos (by simp [hsealed])]
  rw [hk, ← hcommand]

/-- A page of a checkpoint of a sealed context: a new one is an item of its own (R405). -/
def sealedPage (c : Nat) (k : Checkpoint) (manifest : List Byte) (p : SavedPage) : SavedPage :=
  if p.item / 2 ^ 28 ≠ k.seq then p
  else { p with coded := (Config.sealed c 2 p.item manifest (p.data.bytes 0 65536)).1,
                tag := (Config.sealed c 2 p.item manifest (p.data.bytes 0 65536)).2 }

theorem committed_of_sealed (hsealed : k.sealed = true) : committed c k mapOff imgOff =
    { k with
      complete := true, manifest := manifestOf c k mapOff imgOff, command := none
      pages := k.pages.map (sealedPage c k (manifestOf c k mapOff imgOff))
      coded := (Config.sealed c 2 (k.seq * 2 ^ 28) (manifestOf c k mapOff imgOff) (pageMap k)).1
      tag := (Config.sealed c 2 (k.seq * 2 ^ 28) (manifestOf c k mapOff imgOff) (pageMap k)).2 } := by
  simp only [committed, sealCheckpoint, hsealed, Bool.not_true, Bool.false_eq_true, if_false]
  rfl

theorem sealedPage_rest (c : Nat) (k : Checkpoint) (manifest : List Byte) (p : SavedPage) :
    ({ sealedPage c k manifest p with coded := [], tag := [] } : SavedPage) = { p with coded := [], tag := [] } := by
  unfold sealedPage; split <;> rfl

theorem sealedPage_item (c : Nat) (k : Checkpoint) (manifest : List Byte) (p : SavedPage) :
    (sealedPage c k manifest p).item = p.item := by
  unfold sealedPage; split <;> rfl

theorem sealedPage_new {manifest : List Byte} {p : SavedPage} (h : p.item / 2 ^ 28 = k.seq) :
    ((sealedPage c k manifest p).coded, (sealedPage c k manifest p).tag) =
      Config.sealed c 2 (sealedPage c k manifest p).item manifest ((sealedPage c k manifest p).data.bytes 0 65536) := by
  have : ¬ p.item / 2 ^ 28 ≠ k.seq := not_not.mpr h
  simp only [sealedPage, if_neg this]

/-- What a commit leaves of the checkpoint of a sealed context: its map and its new pages are sealed (R405). -/
theorem committed_sealed_items (hsealed : k.sealed = true) (hcommand : k.command = none) :
    let y := committed c k mapOff imgOff
    (y.coded, y.tag) = Config.sealed c 2 (k.seq * 2 ^ 28) y.manifest (pageMap k) ∧
    { y with complete := k.complete, manifest := k.manifest, coded := k.coded, tag := k.tag, pages := k.pages } = k ∧
    y.pages.map (fun p => { p with coded := [], tag := [] }) = k.pages.map (fun p => { p with coded := [], tag := [] }) ∧
    ∀ p, p ∈ y.pages → p.item / 2 ^ 28 = k.seq →
      (p.coded, p.tag) = Config.sealed c 2 p.item y.manifest (p.data.bytes 0 65536) := by
  intro y
  have hy : y = _ := committed_of_sealed mapOff imgOff hsealed
  rw [hy]
  refine ⟨rfl, by rw [← hcommand], ?_, fun p hp hnew => ?_⟩
  · rw [List.map_map]
    exact List.map_congr_left fun p _ => sealedPage_rest c k _ p
  · obtain ⟨q, -, rfl⟩ := List.mem_map.mp hp
    rw [sealedPage_item] at hnew
    exact sealedPage_new hnew

end

/-! ## The commit (R404, R405) -/

section
variable {s : State} {c : Nat} {k : Checkpoint} (mapOff imgOff : Nat)

/-- A commit on whose items the security cores disagree does nothing but be logged (R27). -/
theorem commit_of_disagree (hfind : (s.hw.checkpoints.get c []).find? (fun y => !y.complete) = some k) (hsealed : k.sealed = true)
    (hvote : s.hw.votes.headD true = false) : s.commit c mapOff imgOff = s.voted.disagree := by
  have hno : s.agreed = false := hvote
  simp [commit, hfind, hsealed, decided, hno]

/-- A commit that nothing forbids leaves the checkpoint under way as the only one. -/
theorem commit_kept (hfind : (s.hw.checkpoints.get c []).find? (fun y => !y.complete) = some k) (hcommand : k.command = none)
    (hmay : k.sealed = false ∨ s.hw.votes.headD true = true) :
    (s.commit c mapOff imgOff).hw.checkpoints.get c [] = [committed c k mapOff imgOff] ∧ (s.commit c mapOff imgOff).mem = s.mem := by
  unfold commit
  rw [hfind]
  simp only
  split
  next hsealed =>
    have hagreed : s.agreed = true := hmay.resolve_left (by simp [hsealed])
    rw [decided, if_pos hagreed, hcommand]
    exact ⟨Table.get_set_self .., rfl⟩
  next =>
    rw [hcommand]
    exact ⟨Table.get_set_self .., rfl⟩

end

end Sys2Proof.Machine.State
end

section
/-!
O51, the events of pre-emption, restore and checkpoints, and the obligation they settle (R27, R365 to R370, R403 to R405).
-/

set_option Elab.async false

namespace Sys2Proof.Machine.State

/-! ## The method chosen (R365, R366) -/

section
variable {s : State} {k bound named : Nat}

theorem methodFor_hardware_flush (hmode : s.assisted (s.blockAt k).partition 3 = false) (hflush : s.mayFlush k = true)
    (h : s.flushCost k ≤ s.saveCost k) : s.methodFor k bound named = .flush := by
  rw [methodFor_hardware _ _ hmode, hflush, chooseMethod_flush _ _ h]

theorem methodFor_hardware_unbound (hmode : s.assisted (s.blockAt k).partition 3 = false)
    (h : ¬ (s.mayFlush k = true ∧ s.flushCost k ≤ s.saveCost k)) (hbound : (s.blockAt k).header.latbound = 0 ∧ bound = 0) :
    s.methodFor k bound named = if (s.drainCost k).any (· ≤ s.saveCost k) then .drain else .save := by
  rw [methodFor_hardware _ _ hmode, boundOf_eq_none.mpr hbound, chooseMethod_unbound _ h]

theorem methodFor_hardware_bound {limit : Nat} (hmode : s.assisted (s.blockAt k).partition 3 = false)
    (h : ¬ (s.mayFlush k = true ∧ s.flushCost k ≤ s.saveCost k)) (hbound : boundOf (s.blockAt k).header.latbound bound = some limit) :
    s.methodFor k bound named =
      if s.saveCost k ≤ limit then .save else if (s.drainCost k).any (· ≤ limit) then .drain else .miss := by
  rw [methodFor_hardware _ _ hmode, hbound, chooseMethod_bound _ h]

/-- A block that drains has a time by which it is to have ended, and nothing else of what runs changes (R366). -/
theorem drainBlock_rest (s : State) (k bound : Nat) :
    let t := s.drainBlock k (boundOf (s.blockAt k).header.latbound bound)
    (t.blockAt k).drain = some (if (s.blockAt k).header.latbound = 0 ∧ bound = 0 then 0
        else s.now + if (s.blockAt k).header.latbound = 0 then bound else if bound = 0 then 1024 * (s.blockAt k).header.latbound
          else min (1024 * (s.blockAt k).header.latbound) bound) ∧
      t.groups = s.groups ∧ s.SameMemory t := by
  refine ⟨?_, rfl, fun _ => rfl, fun _ => rfl, fun _ => rfl⟩
  refine (congrArg Block.drain (Table.get_set_self ..)).trans ?_
  by_cases h : (s.blockAt k).header.latbound = 0 ∧ bound = 0
  · rw [boundOf_eq_none.mpr h, if_pos h]
  · rw [boundOf_eq_some h, if_neg h]

/-! ## A request for pre-emption (R365 to R369) -/

section
variable (hlive : (s.blocks.at? k).isSome = true) (hpaused : (s.coreAt (s.blockAt k).core).paused = false)
include hlive hpaused

theorem mayPreempt_flush (hbefore : ∀ j, j ∈ s.groupsIn k → (s.sysAt j).before = none) : s.mayPreempt k .flush = true := by
  simp [mayPreempt, hlive, hpaused, noRendezvous_eq_true.mpr hbefore]

theorem mayPreempt_drain : s.mayPreempt k .drain = true := by simp [mayPreempt, hlive, hpaused]

theorem mayPreempt_save (hidle : s.Idle k) (hfree : s.engineFree (s.blockAt k).core = true) : s.mayPreempt k .save = true := by
  simp [mayPreempt, hlive, hpaused, hfree, hidle.maySave]

theorem mayPreempt_miss (hidle : s.Idle k) (hfree : s.engineFree (s.blockAt k).core = true) : s.mayPreempt k .miss = true := by
  simp [mayPreempt, hlive, hpaused, hfree, hidle.maySave]

end

/-- A request does what its method does. -/
theorem request_happens {m : Method} {P : State → Prop} (hmethod : s.methodFor k bound named = m) (hmay : s.mayPreempt k m = true)
    (h : let t := s.preempt k m (boundOf (s.blockAt k).header.latbound bound) true
      P { t with cur := s.cur, tick := t.tick + 1 }) : Happens (.preemptionRequest k bound named) s P := by
  refine happens_of_event (exec_preemptionRequest ..) (by rw [hmethod, hmay]) ?_
  rw [request, hmethod]
  exact h

/-- What a disagreement adds to the error log follows from the log and the time. -/
theorem disagree_errorLog_congr {t : State} (hlog : t.hw.errorLog = s.hw.errorLog) (hmicros : t.micros = s.micros) :
    t.disagree.hw.errorLog = s.disagree.hw.errorLog := by
  simp only [disagree, logError, setHw, hlog, hmicros]

/-- A disagreement of the security cores changes neither blocks nor firmware nor memory (R27). -/
theorem disagreed_same (s : State) : s.voted.disagree.blocks = s.blocks ∧ s.voted.disagree.firm = s.firm ∧ s.SameMemory s.voted.disagree :=
  ⟨rfl, rfl, fun _ => rfl, fun _ => rfl, fun _ => rfl⟩

/-- A save on whose image the security cores disagree changes the error log alone (R27, R369). -/
theorem saveBlock_disagree_rest (hidle : s.Idle k) (hlive : (s.blocks.at? k).isSome = true)
    (hsealed : s.sealedOf (s.blockAt k).context = true) (hvote : s.hw.votes.headD true = false) :
    let t := s.saveBlock k false false true
    (t.blocks.at? k).isSome = true ∧ (t.firmAt (s.blockAt k).context).images = (s.firmAt (s.blockAt k).context).images ∧
      t.hw.errorLog = s.disagree.hw.errorLog ∧ s.SameMemory t := by
  rw [saveBlock_of_disagree hidle hlive hsealed hvote]
  obtain ⟨hblocks, hfirm, hsame⟩ := disagreed_same (s.dropHeld k)
  have hlog : (s.dropHeld k).voted.disagree.hw.errorLog = s.disagree.hw.errorLog :=
    disagree_errorLog_congr (congrArg Module.errorLog (dropHeld_hw s k) :) (by simp [micros] : (s.dropHeld k).micros = s.micros)
  refine ⟨?_, ?_, hlog, ?_⟩
  · rwa [hblocks, dropHeld_blocks]
  · rw [firmAt, hfirm, dropHeld_firm, firmAt]
  · simpa only [SameMemory, dropHeld_mem, dropHeld_spad, dropHeld_acc] using hsame

/-- A block that misses its bound is saved with the miss noted in its image and in its context's count (R366). -/
theorem miss_rest (hidle : s.Idle k) (hlive : (s.blocks.at? k).isSome = true) (hmay : s.MaySeal k)
    (l : Option Nat) : let t := s.preempt k .miss l true
    t.blocks.at? k = none ∧ (∀ j, j ∈ s.groupsIn k → (t.groupAt j).phase = .free) ∧
      (t.contextAt (s.blockAt k).context).pmiss.toNat = min (2 ^ 64 - 1) ((s.contextAt (s.blockAt k).context).pmiss.toNat + 1) ∧
      ∃ i, i ∈ (t.firmAt (s.blockAt k).context).images ∧ i.number = (s.blockAt k).number ∧ i.miss = true ∧
        i.seq = s.hw.imageSeqs.get (s.blockAt k).context 0 + 1 := by
  rw [preempt]
  have hb : (s.noteMiss k).blockAt k = s.blockAt k := by simp [blockAt]
  have hgroups : (s.noteMiss k).groupsIn k = s.groupsIn k := by simp [groupsIn]
  obtain ⟨⟨⟨hblock, hfree, -, -⟩, i, himages, -, hnumber, hseq, -, -, -, -, hmiss, -, -⟩, hcount⟩ := saved_noteMiss hidle hlive hmay
  rw [hb] at himages hnumber hseq
  rw [hgroups] at hfree
  rw [noteMiss_hw_imageSeqs] at hseq
  exact ⟨hblock, hfree, hcount, i, by rw [himages]; simp, hnumber, hmiss, hseq⟩

/-! ## The end of a drain (R366) -/

theorem drainToSave_happens {d : Nat} {P : State → Prop} (hdrain : (s.blockAt k).drain = some d) (hd : d ≠ 0) (hdue : d ≤ s.now)
    (hmay : s.mayPreempt k .save = true)
    (h : let t := s.saveBlock k true false true
      P { t with cur := s.cur, tick := t.tick + 1 }) : Happens (.drainToSave k) s P := by
  refine happens_of_event (enabled := d ≠ 0 && d ≤ s.now && s.mayPreempt k .save) (effect := fun s => s.saveBlock k true false true)
    ?_ (by simp [hd, hdue, hmay]) h
  rw [exec_drainToSave, execDrainToSave, hdrain]

end

/-! ## The return of a block (R369, R370) -/

section
variable {s : State} {c seq core slot0 : Nat} {i : Image} {intact : Bool}

theorem badImage_eq_true {f : ContextFirm} :
    badImage f i intact = true ↔ intact = false ∨ (i.sealed = true ∧ i.seq ≠ latestSeq f i) := by
  simp [badImage]

/-- An image that is refused ends its context (R369). -/
theorem imageKill_gone (s : State) (c : Nat) : (s.imageKill c).contexts.at? c = none ∧
    ∀ j x, (s.imageKill c).blocks.at? j = some x → x.context ≠ c :=
  killWith_gone s c _

theorem blockRestore_bad {P : State → Prop} (hfind : (s.firmAt c).images.find? (fun i => i.seq == seq) = some i)
    (hlive : (s.contexts.at? c).isSome = true) (hbad : badImage (s.firmAt c) i intact = true)
    (h : let t := s.imageKill c
      P { t with cur := s.cur, tick := t.tick + 1 }) : Happens (.blockRestore c seq core slot0 intact) s P := by
  refine happens_of_event (enabled := (s.contexts.at? c).isSome) (effect := fun s => s.imageKill c) ?_ hlive h
  rw [exec_blockRestore, execBlockRestore, hfind]
  simp only [hbad, if_true]

theorem blockRestore_good {P : State → Prop} (hfind : (s.firmAt c).images.find? (fun i => i.seq == seq) = some i)
    (hgood : badImage (s.firmAt c) i intact = false) (hsaved : i.saved = true) (hqueued : i.queued = true)
    (hup : s.hw.power.computeUp = true) (hmay : s.mayRestore c i core slot0 = true)
    (h : let t := s.restoreBlock c i core slot0
      P { t with cur := s.cur, tick := t.tick + 1 }) : Happens (.blockRestore c seq core slot0 intact) s P := by
  refine happens_of_event (enabled := i.saved && i.queued && s.hw.power.computeUp && s.mayRestore c i core slot0)
    (effect := fun s => s.restoreBlock c i core slot0) ?_ (by simp [hsaved, hqueued, hup, hmay]) h
  rw [exec_blockRestore, execBlockRestore, hfind]
  simp only [hgood, Bool.false_eq_true, if_false]

/-- A restored block stands on its core with what its image holds, and device memory is as it was (R370). -/
theorem restoreBlock_block (s : State) (c : Nat) (core slot0 : Nat) (hwf : i.pads.wf = true) :
    let t := s.restoreBlock c i core slot0
    let x := t.blockAt s.nextId
    x.launch = i.block.launch ∧ x.number = i.block.number ∧ x.core = core ∧ x.slot0 = slot0 ∧ x.since = s.now ∧
      x.drain = none ∧ x.dirty = i.block.dirty ∧ x.bitmaps = i.block.bitmaps ∧ t.mem = s.mem ∧
      ∀ a, a < 16384 * i.block.slots → t.spad.byte (padKey core (16384 * slot0) + a) = i.pads.byte a := by
  intro t x
  obtain ⟨units, b, heq, hlaunch, hnumber, hcore, hslot, hsince, hdrain, hdirty, hbitmaps⟩ :=
    restoreBlock_proj s c i core slot0 (fun t => (t.blocks, t.mem, t.spad)) (fun _ _ _ => rfl) (fun _ _ _ => rfl) (fun _ _ _ => rfl)
      fun _ _ _ => rfl
  obtain ⟨hblocks, hrest⟩ := Prod.mk.inj heq
  obtain ⟨hmem, hspad⟩ := Prod.mk.inj hrest
  have hx : x = b := (congrArg (Table.get · s.nextId Block.none) hblocks).trans (Table.get_set_self ..)
  rw [hx]
  refine ⟨hlaunch, hnumber, hcore, hslot, hsince, hdrain, hdirty, hbitmaps, ?_, fun a ha => ?_⟩
  · exact hmem.trans (fillBlock_mem s.bumpId i core slot0 units)
  · have hbyte := fillBlock_byte s.bumpId i core slot0 units hwf ha
    rw [← hbyte]
    exact congrArg (Memory.byte · _) hspad

end

/-! ## Checkpoints (R404, R405) -/

section
variable {s : State} {c : Nat}

theorem checkpointTimer_happens {P : State → Prop} (hint : (s.firmAt c).ckint ≠ 0)
    (hdue : (s.firmAt c).ckAt + 2500000 * (s.firmAt c).ckint ≤ s.now) (hmode : s.assisted (s.contextAt c).partition 4 = false)
    (hmay : s.mayCut c = true)
    (h : let t := s.cut c false none
      P { t with cur := s.cur, tick := t.tick + 1 }) : Happens (.checkpointTimer c) s P :=
  happens_of_event (enabled := (s.firmAt c).ckint ≠ 0 && (s.firmAt c).ckAt + 2500000 * (s.firmAt c).ckint ≤ s.now &&
    !s.assisted (s.contextAt c).partition 4 && s.mayCut c) (effect := fun s => s.cut c false none) rfl
    (by simp [hint, hdue, hmode, hmay]) h

theorem mayCut_live (h : s.mayCut c = true) : (s.contexts.at? c).isSome = true := by
  simp only [mayCut, Bool.and_eq_true] at h
  tauto

/-- The cut that the timer makes of a context without resident blocks adds a checkpoint and copies nothing yet (R403, R404). -/
theorem cut_rest (hlive : (s.contexts.at? c).isSome = true) (hblocks : s.blocksOf c = []) (hbad : s.badPage c = none) :
    let t := s.cut c false none
    (t.firmAt c).ckNumber = (s.firmAt c).ckNumber + 1 ∧ (t.firmAt c).ckAt = s.now ∧ t.mem = s.mem ∧ t.groups = s.groups ∧
      ∃ x, t.hw.checkpoints.get c [] = s.hw.checkpoints.get c [] ++ [x] ∧ x.seq = (s.firmAt c).ckNumber + 1 ∧
        x.firm.ckNumber = x.seq ∧ x.complete = false ∧ x.hostTriggered = false ∧ x.context = s.contextAt c := by
  intro t
  obtain ⟨f, x, hcut, hnumber, hat, hseq, hfirm, hcomplete, htriggered, hcontext⟩ := cut_of_noBlocks hlive hblocks hbad false none
  have ht : t = _ := hcut
  have hf : t.firmAt c = f := by
    rw [ht]
    exact Table.get_set_self ..
  rw [hf]
  refine ⟨hnumber, hat, by rw [ht]; rfl, by rw [ht]; rfl, x, ?_, hseq, by rw [hfirm, hnumber, hseq], hcomplete, htriggered, hcontext⟩
  rw [ht]
  exact Table.get_set_self ..

/-- A commit on whose items the security cores disagree changes the error log alone (R27, R405). -/
theorem commit_disagree_rest {k : Checkpoint} (m i : Nat)
    (hfind : (s.hw.checkpoints.get c []).find? (fun y => !y.complete) = some k) (hsealed : k.sealed = true)
    (hvote : s.hw.votes.headD true = false) :
    let t := s.commit c m i
    t.hw.checkpoints = s.hw.checkpoints ∧ t.hw.errorLog = s.disagree.hw.errorLog ∧ s.SameMemory t := by
  rw [commit_of_disagree m i hfind hsealed hvote]
  exact ⟨rfl, disagree_errorLog_congr rfl rfl, fun _ => rfl, fun _ => rfl, fun _ => rfl⟩

theorem checkpointCommit_happens {m i : Nat} {P : State → Prop}
    (h : let t := s.commit c m i
      P { t with cur := s.cur, tick := t.tick + 1 }) : Happens (.checkpointCommit c m i) s P :=
  happens_of_event (exec_checkpointCommit ..) rfl h

end

end Sys2Proof.Machine.State

namespace Sys2Proof.Machine
open State

/-- Settles O51: an idle block comes to rest by the discarding of its held words alone, so each method is what the model makes of the
block as it stands; restore, cut and commit follow from what each of them writes. -/
theorem preemptionEvents : Obligations.PreemptionEvents := by
  unfold Obligations.PreemptionEvents
  intro s k bound named b l gs ts tf td flushes limit unbound gone idle saved asks may hlive hpaused hbefore
  have hts : s.saveCost k = ts := saveCost_eq s k
  have hflushes : s.mayFlush k = true ↔ flushes := mayFlush_eq_true
  have hdrain (n : Nat) : (s.drainCost k).any (· ≤ n) = true ↔ l.ended ≠ 0 ∧ td ≤ n := drainCost_any
  have hidle (h : idle) : s.Idle k := by
    obtain ⟨hgroups, hcopies, hentries, hwords⟩ := h
    exact ⟨⟨fun j hj => (hgroups j hj).1, hcopies, hentries⟩, hbefore, hwords⟩
  refine ⟨fun hmode => ⟨fun hf hle => ?_, fun hf hu => ?_, fun hf hu => ?_⟩, fun hmode => ?_, fun hm => ?_, fun hm => ?_,
    fun hm hi hmay => ?_, fun hm hi hfree hsealed hvote => ?_, fun hm hi hmay => ?_, fun d hd hne hdue hi hmay => ?_, ?_, ?_, ?_⟩
  · exact methodFor_hardware_flush hmode (hflushes.mpr hf) (by rwa [hts])
  · rw [methodFor_hardware_unbound hmode (by rwa [hflushes, hts]) hu, hts]
    simp only [hdrain]
  · rw [methodFor_hardware_bound hmode (by rwa [hflushes, hts]) (boundOf_eq_some hu), hts]
    simp only [hdrain]
    rfl
  · rw [methodFor_assisted _ _ hmode]
    simp only [hflushes]
  · exact request_happens hm (mayPreempt_flush hlive hpaused hbefore) ⟨gone_flushBlock s k, flushBlock_requeued s k⟩
  · exact request_happens hm (mayPreempt_drain hlive hpaused) (drainBlock_rest s k bound)
  · exact request_happens hm (mayPreempt_save hlive hpaused (hidle hi) hmay.1) (saved_saveBlock (hidle hi) hlive hmay.2 ..)
  · exact request_happens hm (mayPreempt_save hlive hpaused (hidle hi) hfree)
      (saveBlock_disagree_rest (hidle hi) hlive hsealed hvote)
  · refine request_happens hm (mayPreempt_miss hlive hpaused (hidle hi) hmay.1) ?_
    -- named, so that the comparison does not look into the save
    have hrest := miss_rest (hidle hi) hlive hmay.2 (boundOf b.header.latbound bound)
    generalize s.preempt k .miss (boundOf b.header.latbound bound) true = t at hrest ⊢
    exact hrest
  · exact drainToSave_happens hd hne hdue (mayPreempt_save hlive hpaused (hidle hi) hmay.1) (saved_saveBlock (hidle hi) hlive hmay.2 ..)
  · intro c seq core slot0 i hfind hcontext latest
    refine ⟨fun intact hbad => ?_, fun hgood hsaved hqueued hup hmay hwf => ?_⟩
    · refine blockRestore_bad hfind hcontext (badImage_eq_true.mpr hbad) ?_
      have hgone := imageKill_gone s c
      generalize s.imageKill c = t at hgone ⊢
      exact hgone
    · have hbad : badImage (s.firmAt c) i true = false := by
        rw [Bool.eq_false_iff, Ne, badImage_eq_true]
        rintro (h | ⟨hsealed, hne⟩)
        · cases h
        · exact hgood.elim (fun h => by simp [h] at hsealed) hne
      exact blockRestore_good hfind hbad hsaved hqueued hup hmay (restoreBlock_block s c core slot0 hwf)
  · intro c f hint hdue hmode hmay hblocks hbad
    exact checkpointTimer_happens hint hdue hmode hmay (cut_rest (mayCut_live hmay) hblocks hbad)
  · intro c m i x hfind hcommand
    refine ⟨fun hsealed hvote => checkpointCommit_happens (commit_disagree_rest m i hfind hsealed hvote),
      fun hmay => checkpointCommit_happens ?_⟩
    · obtain ⟨hkept, hmem⟩ := commit_kept m i hfind hcommand hmay
      refine ⟨committed c x m i, hkept, committed_complete .., fun h => committed_of_clear m i h hcommand,
        fun h => committed_sealed_items m i h hcommand, ?_, ?_, ?_, hmem⟩
      all_goals rw [committed_manifest]
      · exact manifestOf_length ..
      · exact manifestOf_magic ..
      · exact manifestOf_seq ..

end Sys2Proof.Machine
end

section
/-!
O27, first part: rounding a real number to an integer by a mode (R58, R194). A number has one rounding, and it is the one or the other
of the integers around its magnitude, as the mode takes them.
-/

set_option Elab.async false

namespace Sys2Proof.Machine

/-! ## Rounding among the integers (R58, R194) -/

/-- A number strictly between two successive integers has its magnitude strictly between theirs. -/
theorem abs_between_of_between_succ {x : ℝ} {k : ℤ} (hl : (k : ℝ) < x) (hu : x < k + 1) :
    |(k : ℝ)| < |x| ∧ |x| < |(k : ℝ) + 1| ∨ |(k : ℝ) + 1| < |x| ∧ |x| < |(k : ℝ)| := by
  rcases le_or_gt 0 k with h | h
  · have h : (0 : ℝ) ≤ k := by exact_mod_cast h
    have hx : 0 < x := h.trans_lt hl
    rw [abs_of_nonneg h, abs_of_pos hx, abs_of_pos (hx.trans hu)]
    exact .inl ⟨hl, hu⟩
  · have h : (k : ℝ) + 1 ≤ 0 := by exact_mod_cast h
    have hx : x < 0 := hu.trans_le h
    rw [abs_of_nonpos h, abs_of_neg hx, abs_of_neg (hl.trans hx)]
    exact .inr ⟨neg_lt_neg hu, neg_lt_neg hl⟩

namespace RoundsTo

section
variable {m : Rnd} {b : Word} {x : ℝ} {k j : ℤ}

/-- A number is not rounded to two successive integers. -/
theorem not_succ (h : RoundsTo m b x k) : ¬ RoundsTo m b x (k + 1) := by
  rintro ⟨-, hnear', hmode'⟩
  obtain ⟨-, hnear, hmode⟩ := h
  push_cast at hnear' hmode'
  have hu : x < k + 1 := by linarith [(abs_lt.mp hnear).1]
  have hl : (k : ℝ) < x := by linarith [(abs_lt.mp hnear').2]
  have hdist : |(k : ℝ) - x| = x - k := by rw [abs_sub_comm, abs_of_pos (by linarith)]
  have hdist' : |(k : ℝ) + 1 - x| = k + 1 - x := abs_of_pos (by linarith)
  have hmag := abs_between_of_between_succ hl hu
  cases m with
  | rtz => exact hmag.elim (fun h => h.2.not_ge hmode') fun h => h.2.not_ge hmode
  | rdn => exact hu.not_ge hmode'
  | rup => exact hl.not_ge hmode
  | rne =>
    simp only [hdist, hdist'] at hmode hmode'
    have hk := hmode.2 (by linarith)
    have hk' := hmode'.2 (by linarith)
    omega
  | rna =>
    simp only [hdist, hdist'] at hmode hmode'
    exact hmag.elim (fun h => h.1.not_ge (hmode.2 (by linarith))) fun h => h.1.not_ge (hmode'.2 (by linarith))
  | rsr =>
    have : k = k + 1 ∨ k = -(k + 1) := abs_eq_abs.mp (hmode.trans hmode'.symm)
    omega

/-- Rounding to an integer has one result. -/
theorem unique (h : RoundsTo m b x k) (h' : RoundsTo m b x j) : j = k := by
  have hclose : |((j - k : ℤ) : ℝ)| < 2 := by
    push_cast
    calc |(j : ℝ) - k| ≤ |(j : ℝ) - x| + |x - k| := abs_sub_le ..
      _ < 2 := by rw [abs_sub_comm x]; linarith [h.2.1, h'.2.1]
  have hclose : |j - k| < 2 := by exact_mod_cast hclose
  have hup : j ≠ k + 1 := fun e => h.not_succ (e ▸ h')
  have hdown : k ≠ j + 1 := fun e => h'.not_succ (e ▸ h)
  rw [abs_lt] at hclose
  omega

end
end RoundsTo

/-- Whether a mode takes the upper of the two integers around the magnitude `u` of a number: its fraction and the parity of the
lower integer decide, in a directed mode the sign, and under RSR the random word. -/
def TakesUpper (m : Rnd) (b : Word) (neg : Bool) (u : ℝ) : Prop :=
  Int.fract u ≠ 0 ∧
  match m with
  | .rne => 1 / 2 < Int.fract u ∨ Int.fract u = 1 / 2 ∧ ⌊u⌋ % 2 = 1
  | .rtz => False
  | .rdn => neg = true
  | .rup => neg = false
  | .rna => 1 / 2 ≤ Int.fract u
  | .rsr => 2 ^ 32 ≤ ⌊Int.fract u * 2 ^ 32⌋ + (b.toNat : ℤ)

/-- The integer of a magnitude and a sign. -/
def signed (neg : Bool) (n : ℤ) : ℤ := if neg then -n else n

section
variable {m : Rnd} {b : Word} {x : ℝ} {neg : Bool} {n : ℤ}

theorem abs_signed (hn : 0 ≤ n) : |signed neg n| = n := by
  cases neg
  · exact abs_of_nonneg hn
  · exact (abs_neg n).trans (abs_of_nonneg hn)

theorem signed_emod_two : signed neg n % 2 = 0 ↔ n % 2 = 0 := by
  cases neg <;> simp [signed]

theorem signed_sub (hneg : x < 0 ↔ neg = true) : (signed neg n : ℝ) - x = if neg then |x| - n else n - |x| := by
  cases neg with
  | true => rw [abs_of_neg (hneg.mpr rfl)]; simp [signed]; ring
  | false => rw [abs_of_nonneg (not_lt.mp fun h => nomatch hneg.mp h)]; rfl

theorem abs_signed_sub (hneg : x < 0 ↔ neg = true) : |(signed neg n : ℝ) - x| = |n - (|x|)| := by
  rw [signed_sub hneg]
  split
  · exact abs_sub_comm ..
  · rfl

theorem signed_le_iff (hneg : x < 0 ↔ neg = true) : (signed neg n : ℝ) ≤ x ↔ if neg then |x| ≤ n else n ≤ |x| := by
  rw [← sub_nonpos, signed_sub hneg]
  cases neg <;> exact sub_nonpos

theorem le_signed_iff (hneg : x < 0 ↔ neg = true) : x ≤ signed neg n ↔ if neg then n ≤ |x| else |x| ≤ n := by
  rw [← sub_nonneg, signed_sub hneg]
  cases neg <;> exact sub_nonneg

/-- A number is rounded to an integer of its sign when the magnitudes are as the mode says. -/
theorem roundsTo_signed (hneg : x < 0 ↔ neg = true) (hn : 0 ≤ n) (hexact : ∀ j : ℤ, |x| = j → n = j) (hnear : |n - (|x|)| < 1)
    (hmode : match m with
      | .rtz => n ≤ |x|
      | .rdn => if neg then |x| ≤ n else n ≤ |x|
      | .rup => if neg then n ≤ |x| else |x| ≤ n
      | .rne => |n - (|x|)| ≤ 1 / 2 ∧ (|n - (|x|)| = 1 / 2 → n % 2 = 0)
      | .rna => |n - (|x|)| ≤ 1 / 2 ∧ (|n - (|x|)| = 1 / 2 → |x| ≤ n)
      | .rsr => n = if 2 ^ 32 ≤ ⌊Int.fract |x| * 2 ^ 32⌋ + (b.toNat : Int) then ⌊|x|⌋ + 1 else ⌊|x|⌋) :
    RoundsTo m b x (signed neg n) := by
  have hdist : |(signed neg n : ℝ) - x| = |n - (|x|)| := abs_signed_sub hneg
  have habs : |(signed neg n : ℝ)| = n := by exact_mod_cast abs_signed hn
  refine ⟨fun j e => ?_, hdist ▸ hnear, ?_⟩
  · have hz : |(signed neg n : ℝ) - x| = 0 := by
      rw [hdist, hexact |j| (by rw [e, Int.cast_abs]), e, Int.cast_abs, sub_self, abs_zero]
    rw [abs_eq_zero, sub_eq_zero, e] at hz
    exact_mod_cast hz
  · cases m with
    | rtz => exact habs.trans_le hmode
    | rdn => exact (signed_le_iff hneg).mpr hmode
    | rup => exact (le_signed_iff hneg).mpr hmode
    | rne => simpa only [hdist, signed_emod_two] using hmode
    | rna => simpa only [hdist, habs] using hmode
    | rsr => exact (abs_signed hn).trans hmode

/-- A mode that does not take the upper integer rounds to the lower one. -/
theorem roundsTo_floor (hneg : x < 0 ↔ neg = true) (h : ¬ TakesUpper m b neg |x|) : RoundsTo m b x (signed neg ⌊|x|⌋) := by
  have hle := Int.floor_le |x|
  have hdist : |(⌊|x|⌋ : ℝ) - (|x|)| = Int.fract |x| := by rw [abs_sub_comm, Int.self_sub_floor, Int.abs_fract]
  -- an exact magnitude is met by every mode's demand, any other by the mode's not taking the upper integer
  refine roundsTo_signed hneg (Int.floor_nonneg.mpr (abs_nonneg x)) (fun j e => by rw [e, Int.floor_intCast])
    (hdist ▸ Int.fract_lt_one _) ?_
  by_cases hf : Int.fract |x| = 0
  · have hfl : (⌊|x|⌋ : ℝ) = |x| := by linarith [Int.self_sub_floor |x|]
    cases m <;> simp [hf, hfl]
    case rsr =>
      have := b.isLt
      omega
  · cases m <;> simp only [TakesUpper, ne_eq, hf, not_false_eq_true, true_and, hdist] at h ⊢
    case rtz => exact hle
    case rdn => simpa [h] using hle
    case rup => simpa [h] using hle
    case rne =>
      push Not at h
      exact ⟨h.1, fun e => by have := h.2 e; omega⟩
    case rna => exact ⟨by linarith, fun e => absurd e.ge h⟩
    case rsr => rw [if_neg h]

/-- A mode that takes the upper integer rounds to it. -/
theorem roundsTo_succ_floor (hneg : x < 0 ↔ neg = true) (h : TakesUpper m b neg |x|) :
    RoundsTo m b x (signed neg (⌊|x|⌋ + 1)) := by
  obtain ⟨hf, h⟩ := h
  have hpos : 0 < Int.fract |x| := (Int.fract_nonneg _).lt_of_ne' hf
  have hle : |x| ≤ (⌊|x|⌋ + 1 : ℤ) := by push_cast; exact (Int.lt_floor_add_one _).le
  have hdist : |((⌊|x|⌋ + 1 : ℤ) : ℝ) - (|x|)| = 1 - Int.fract |x| := by
    rw [abs_of_nonneg (sub_nonneg.mpr hle)]; push_cast; linarith [Int.self_sub_floor |x|]
  have hn : 0 ≤ ⌊|x|⌋ := Int.floor_nonneg.mpr (abs_nonneg x)
  refine roundsTo_signed hneg (by omega) (fun j e => absurd (by rw [e, Int.fract_intCast]) hf) (by rw [hdist]; linarith) ?_
  cases m <;> simp only [hdist] at h ⊢
  case rdn => simpa [h] using hle
  case rup => simpa [h] using hle
  case rne =>
    rcases h with h | ⟨h, hodd⟩
    · exact ⟨by linarith, fun e => by linarith⟩
    · exact ⟨by linarith, fun _ => by omega⟩
  case rna => exact ⟨by linarith, fun _ => hle⟩
  case rsr => rw [if_pos h]

end

end Sys2Proof.Machine
end

section
/-!
O27, second part: a bracket of the model around a magnitude. The bracket's own arithmetic on naturals takes the upper neighbour just
where the mode takes the upper integer (R58, R194).
-/

set_option Elab.async false

namespace Sys2Proof.Machine

/-! ## The neighbours among the multiples of a unit (R58, R194) -/

/-- The bracket `b` is around the magnitude `u`, counted in the bracket's unit; `r` is what `u` has beyond the bracket's own fraction,
counted in that fraction's denominator. -/
structure Bracket.Around (b : Bracket) (u r : ℝ) : Prop where
  hi : b.hi = b.lo + 1
  tieUp : b.tieUp = (b.lo % 2 == 1)
  rem_lt : b.rem < b.den
  even_den : b.sticky = true → 2 ∣ b.den
  nonneg : 0 ≤ r
  lt_one : r < 1
  eq_zero : r = 0 ↔ b.sticky = false
  eq : u = b.lo + (b.rem + r) / b.den

namespace Bracket.Around

section
variable {b : Bracket} {u r : ℝ} (h : b.Around u r)
include h

theorem den_pos : (0 : ℝ) < b.den := by
  have := h.rem_lt
  exact_mod_cast (by omega : 0 < b.den)

theorem fraction_nonneg : 0 ≤ (b.rem + r) / b.den :=
  div_nonneg (add_nonneg (Nat.cast_nonneg _) h.nonneg) h.den_pos.le

theorem fraction_lt_one : (b.rem + r) / b.den < 1 := by
  have : (b.rem : ℝ) + 1 ≤ b.den := by exact_mod_cast h.rem_lt
  rw [div_lt_one h.den_pos]
  linarith [h.lt_one]

theorem floor : ⌊u⌋ = b.lo := by
  rw [h.eq, Int.floor_natCast_add, Int.floor_eq_zero_iff.mpr ⟨h.fraction_nonneg, h.fraction_lt_one⟩, add_zero]

theorem fract : Int.fract u = (b.rem + r) / b.den := by
  rw [h.eq, Int.fract_natCast_add, Int.fract_eq_self]
  exact ⟨h.fraction_nonneg, h.fraction_lt_one⟩

theorem exact_iff : b.exact = true ↔ Int.fract u = 0 := by
  rw [h.fract, div_eq_zero_iff, or_iff_left h.den_pos.ne', add_eq_zero_iff_of_nonneg (Nat.cast_nonneg _) h.nonneg, h.eq_zero,
    Nat.cast_eq_zero]
  simp [Bracket.exact]

theorem pos (hs : b.sticky = true) : 0 < r :=
  h.nonneg.lt_of_ne' fun e => by have := h.eq_zero.mp e; rw [hs] at this; cases this

/-- The rest does not bring a fraction below one half up to it: where there is a rest the denominator is even. -/
theorem fract_lt_half (hlt : 2 * b.rem < b.den) : Int.fract u < 1 / 2 := by
  rw [h.fract, div_lt_iff₀ h.den_pos]
  cases hs : b.sticky with
  | false =>
    have : (2 * b.rem : ℝ) < b.den := by exact_mod_cast hlt
    linarith [h.eq_zero.mpr hs]
  | true =>
    have := h.even_den hs
    have : (2 * b.rem : ℝ) + 2 ≤ b.den := by exact_mod_cast (by omega : 2 * b.rem + 2 ≤ b.den)
    linarith [h.lt_one]

theorem half_le_fract : 1 / 2 ≤ Int.fract u ↔ b.den ≤ 2 * b.rem := by
  refine ⟨fun hle => not_lt.mp fun hlt => (h.fract_lt_half hlt).not_ge hle, fun hle => ?_⟩
  have : (b.den : ℝ) ≤ 2 * b.rem := by exact_mod_cast hle
  rw [h.fract, le_div_iff₀ h.den_pos]
  linarith [h.nonneg]

theorem fract_eq_half : Int.fract u = 1 / 2 ↔ 2 * b.rem = b.den ∧ b.sticky = false := by
  rw [h.fract, div_eq_iff h.den_pos.ne', ← h.eq_zero]
  constructor
  · intro e
    have hle := h.half_le_fract.mp (by rw [h.fract, le_div_iff₀ h.den_pos, e])
    have hge : (2 * b.rem : ℝ) ≤ b.den := by linarith [h.nonneg]
    have heq : 2 * b.rem = b.den := le_antisymm (by exact_mod_cast hge) hle
    refine ⟨heq, ?_⟩
    rw [← heq] at e
    push_cast at e
    linarith
  · rintro ⟨heq, hr⟩
    rw [← heq, hr]
    push_cast
    ring

theorem half_lt_fract : 1 / 2 < Int.fract u ↔ b.den < 2 * b.rem ∨ 2 * b.rem = b.den ∧ b.sticky = true := by
  rw [lt_iff_le_and_ne, h.half_le_fract, ne_comm, ne_eq, h.fract_eq_half]
  cases b.sticky with
  | false => simp; omega
  | true => simp; omega

theorem floor_fract (hs : b.sticky = false) : ⌊Int.fract u * 2 ^ 32⌋ = (b.rem * 2 ^ 32 / b.den : ℕ) := by
  have hcast : Int.fract u * 2 ^ 32 = ((b.rem * 2 ^ 32 : ℕ) : ℝ) / b.den := by
    rw [h.fract, h.eq_zero.mpr hs]
    push_cast
    ring
  rw [hcast, Int.floor_div_natCast, Int.floor_natCast, Int.natCast_ediv]

/-- A bracket takes its upper neighbour exactly where the mode takes the upper integer. -/
theorem up_iff {m : Rnd} {w : Word} {neg : Bool} (hrsr : b.sticky = true → m ≠ .rsr) :
    b.up m neg w = true ↔ TakesUpper m w neg u := by
  unfold Bracket.up TakesUpper
  rw [ne_eq, ← h.exact_iff]
  cases hex : b.exact with
  | true => simp
  | false =>
    simp only [Bool.false_eq_true, if_false, not_false_eq_true, true_and]
    cases m with
    | rtz => simp
    | rdn => rfl
    | rup => simp
    | rne =>
      rw [h.half_lt_fract, h.fract_eq_half, h.floor, h.tieUp]
      cases b.sticky with
      | false => simp; omega
      | true => simp
    | rna => rw [h.half_le_fract]; exact decide_eq_true_iff
    | rsr =>
      have hs : b.sticky = false := by simpa using mt hrsr
      rw [h.floor_fract hs, decide_eq_true_iff]
      norm_cast

end
end Bracket.Around

end Sys2Proof.Machine
end

section
/-!
O27, third part: the numbers that the model's values stand for, rounding and tininess in a format, and the obligation they settle
(R58, R164, R194).
-/

set_option Elab.async false

namespace Sys2Proof.Machine

/-! ## What a value stands for -/

namespace Dy

theorem abs_val (d : Dy) : |(d.val : ℝ)| = d.man * 2 ^ d.exp := by
  have h : |(d.man * 2 ^ d.exp : ℝ)| = d.man * 2 ^ d.exp := abs_of_nonneg (by positivity)
  cases hn : d.neg <;> simp [val, hn, h]

theorem val_eq_signed (d : Dy) : (d.val : ℝ) = signed d.neg d.man * 2 ^ d.exp := by
  cases hn : d.neg <;> simp [val, signed, hn]

theorem val_neg_iff {d : Dy} (hd : d.man ≠ 0) : (d.val : ℝ) < 0 ↔ d.neg = true := by
  have h : (0 : ℝ) < d.man * 2 ^ d.exp := by positivity
  cases hn : d.neg <;> simp [val_eq_signed, signed, hn, h, h.le]

/-- The magnitude in units of any power of two not above its exponent. -/
theorem units_mul (d : Dy) {e : ℤ} (he : e ≤ d.exp) : (d.units e : ℝ) * 2 ^ e = |(d.val : ℝ)| := by
  rw [abs_val, units]
  push_cast
  rw [mul_assoc, ← zpow_natCast, ← zpow_add₀ two_ne_zero, Int.toNat_of_nonneg (sub_nonneg.mpr he), sub_add_cancel]

/-- Where the second number has no rest, the order of the magnitudes is that of the values. -/
theorem magLt_iff {x y : Dy} (hy : y.sticky = false) : x.magLt y = true ↔ |(x.val : ℝ)| < |(y.val : ℝ)| := by
  rw [← units_mul x (min_le_left x.exp y.exp), ← units_mul y (min_le_right x.exp y.exp),
    mul_lt_mul_iff_left₀ (by positivity), Nat.cast_lt]
  simp [magLt, hy]

namespace StandsFor

section
variable {d : Dy} {q : ℝ} (h : d.StandsFor q)
include h

theorem neg_iff (hd : d.man ≠ 0) : q < 0 ↔ d.neg = true := by
  unfold StandsFor at h
  split at h
  · exact h.2.2
  · rw [h, val_neg_iff hd]

/-- The magnitude that a value stands for: its own and less than one unit more, just where it has a rest. -/
theorem abs_eq : ∃ r : ℝ, 0 ≤ r ∧ r < 1 ∧ (r = 0 ↔ d.sticky = false) ∧ |q| = (d.man + r) * 2 ^ d.exp := by
  have hp : (0 : ℝ) < 2 ^ d.exp := by positivity
  unfold StandsFor at h
  split at h
  · next hs =>
    obtain ⟨hl, hu, -⟩ := h
    rw [abs_val] at hl hu
    have hl' : 0 < |q| / 2 ^ d.exp - d.man := by rw [sub_pos, lt_div_iff₀ hp]; exact hl
    refine ⟨|q| / 2 ^ d.exp - d.man, hl'.le, ?_, by simp [hs, hl'.ne'], by field_simp; ring⟩
    rw [sub_lt_iff_lt_add, div_lt_iff₀ hp]
    linarith
  · next hs => exact ⟨0, le_rfl, one_pos, by simpa using hs, by rw [h, abs_val, add_zero]⟩

theorem ne_zero (hd : d.man ≠ 0) : q ≠ 0 := by
  obtain ⟨r, h0, -, -, he⟩ := h.abs_eq
  rw [← abs_pos, he]
  positivity

/-- A rest does not move a number over a power of two. -/
theorem log_eq (hd : d.man ≠ 0) : Int.log 2 |q| = d.top := by
  obtain ⟨r, h0, h1, -, he⟩ := h.abs_eq
  have hpos : 0 < |q| := abs_pos.mpr (h.ne_zero hd)
  have hp : (0 : ℝ) < 2 ^ d.exp := by positivity
  have hlow : (2 ^ d.man.log2 : ℝ) ≤ d.man := by exact_mod_cast Nat.log2_self_le hd
  have hhigh : (d.man + 1 : ℝ) ≤ 2 ^ (d.man.log2 + 1) := by exact_mod_cast Nat.lt_log2_self
  have hbelow : ((2 : ℕ) : ℝ) ^ d.top ≤ |q| := by
    rw [he, top, Nat.cast_ofNat, zpow_add₀ two_ne_zero, zpow_natCast, mul_comm]
    gcongr
    linarith
  have habove : |q| < ((2 : ℕ) : ℝ) ^ (d.top + 1) := by
    rw [he, top, Nat.cast_ofNat, add_assoc, zpow_add₀ two_ne_zero, mul_comm, ← Nat.cast_add_one, zpow_natCast]
    gcongr
    linarith
  rw [Int.zpow_le_iff_le_log one_lt_two hpos] at hbelow
  rw [Int.lt_zpow_iff_log_lt one_lt_two hpos] at habove
  omega

end
end StandsFor
end Dy

/-! ## Rounding of a value -/

section
variable {d : Dy} {q : ℝ} {e : ℤ} (h : d.StandsFor q) (hexp : d.sticky = true → d.exp < e)
include hexp

/-- The magnitude in units of `2 ^ e`, as the fraction that the bracket divides: above the unit it is whole. -/
theorem abs_div_two_zpow {r : ℝ} (hr : r = 0 ↔ d.sticky = false) (he : |q| = (d.man + r) * 2 ^ d.exp) :
    |q| / 2 ^ e = ((d.man * 2 ^ (d.exp - e).toNat : ℕ) + r) / (2 ^ (e - d.exp).toNat : ℕ) := by
  rcases lt_or_ge d.exp e with hlt | hge
  · have hzero : (d.exp - e).toNat = 0 := by omega
    have hsplit : (2 : ℝ) ^ e = 2 ^ d.exp * 2 ^ (e - d.exp).toNat := by
      rw [← zpow_natCast, ← zpow_add₀ two_ne_zero]; congr 1; omega
    rw [he, hzero, hsplit]
    push_cast
    field_simp
  · have hzero : (e - d.exp).toNat = 0 := by omega
    have hsplit : (2 : ℝ) ^ d.exp = 2 ^ e * 2 ^ (d.exp - e).toNat := by
      rw [← zpow_natCast, ← zpow_add₀ two_ne_zero]; congr 1; omega
    have hrest : r = 0 := hr.mpr (by simpa using mt hexp hge.not_gt)
    rw [he, hzero, hsplit, hrest]
    push_cast
    field_simp
    ring

include h

/-- The bracket of a value is around the number that it stands for. -/
theorem bracketAt_around : ∃ r, (bracketAt d e).Around (|q| / 2 ^ e) r := by
  obtain ⟨r, h0, h1, hr, he⟩ := h.abs_eq
  have hden : 0 < 2 ^ (e - d.exp).toNat := by positivity
  refine ⟨r, rfl, rfl, Nat.mod_lt _ hden, fun hs => dvd_pow_self 2 ?_, h0, h1, hr, ?_⟩
  · have := hexp hs
    omega
  · rw [abs_div_two_zpow hexp hr he]
    simp only [bracketAt]
    generalize d.man * 2 ^ (d.exp - e).toNat = n, 2 ^ (e - d.exp).toNat = den at hden ⊢
    have hn : (den * (n / den : ℕ) + (n % den : ℕ) : ℝ) = n := by exact_mod_cast Nat.div_add_mod n den
    have hden : (den : ℝ) ≠ 0 := by positivity
    rw [← hn]
    field_simp
    ring

/-- A bracket's choice is the integer, counted in the bracket's unit, that rounding makes of the number. -/
theorem bracketAt_pick_roundsTo (hd : d.man ≠ 0) {m : Rnd} {w : Word} (hrsr : d.sticky = true → m ≠ .rsr) :
    ∃ k : ℤ, RoundsTo m w (q / 2 ^ e) k ∧ (((bracketAt d e).pick m d.neg w).val : ℝ) = k * 2 ^ e := by
  obtain ⟨r, hb⟩ := bracketAt_around h hexp
  have hp : (0 : ℝ) < 2 ^ e := by positivity
  have habs : |q / 2 ^ e| = |q| / 2 ^ e := by rw [abs_div, abs_of_pos hp]
  have hneg : q / 2 ^ e < 0 ↔ d.neg = true := by rw [div_lt_iff₀ hp, zero_mul, h.neg_iff hd]
  rw [← habs] at hb
  have hup := hb.up_iff (m := m) (w := w) (neg := d.neg) hrsr
  refine ⟨_, ?_, Dy.val_eq_signed _⟩
  show RoundsTo m w (q / 2 ^ e) (signed d.neg (if (bracketAt d e).up m d.neg w then (bracketAt d e).hi else (bracketAt d e).lo : ℕ))
  split
  · next hu =>
    rw [hb.hi, Nat.cast_succ, ← hb.floor]
    exact roundsTo_succ_floor hneg (hup.mp hu)
  · next hu =>
    rw [← hb.floor]
    exact roundsTo_floor hneg (mt hup.mpr hu)

end

namespace Bin

section
variable {f : Bin} {m : Rnd} {w : Word} {d : Dy} {q : ℝ}

theorem ulp_eq_two_zpow (h : d.StandsFor q) (hd : d.man ≠ 0) : f.ulp q = 2 ^ f.quantum d := by
  rw [ulp, quantum, h.log_eq hd, max_sub_sub_right]

/-- A rest lies below the last place of a format when there are more digits than the format holds. -/
theorem exp_lt_of_digits (hdig : 2 ^ (f.frac + 1) ≤ d.man) : d.exp < d.top - f.frac := by
  have := (Nat.le_log2 (by have := Nat.two_pow_pos (f.frac + 1); omega)).mpr hdig
  unfold Dy.top
  omega

theorem round_eq (hd : d.man ≠ 0) : f.round m w d = (bracketAt d (f.quantum d)).pick m d.neg w := by
  simp [round, hd]

theorem rounded_round (h : d.StandsFor q) (hd : d.man ≠ 0) (hs : d.sticky = true → m ≠ .rsr ∧ 2 ^ (f.frac + 1) ≤ d.man) :
    f.Rounded m w q (f.round m w d).val := by
  unfold Rounded
  rw [ulp_eq_two_zpow h hd, round_eq hd]
  exact bracketAt_pick_roundsTo h (fun h => (exp_lt_of_digits (hs h).2).trans_le (le_max_left ..)) hd fun h => (hs h).1

theorem tiny_iff (h : d.StandsFor q) (hd : d.man ≠ 0) (hs : d.sticky = true → m ≠ .rsr ∧ 2 ^ (f.frac + 1) ≤ d.man) :
    f.tiny m w d = true ↔ f.Tiny m w q := by
  obtain ⟨k, hk, hval⟩ := bracketAt_pick_roundsTo (m := m) (w := w) h (fun h => exp_lt_of_digits (hs h).2) hd fun h => (hs h).1
  have hemin : |((Dy.pow2 f.emin).val : ℝ)| = 2 ^ f.emin := by simp [Dy.abs_val, Dy.pow2]
  unfold tiny Tiny
  rw [Dy.magLt_iff rfl, hval, hemin, h.log_eq hd]
  exact ⟨fun hlt => ⟨k, hk, hlt⟩, fun ⟨j, hj, hlt⟩ => hk.unique hj ▸ hlt⟩

theorem ulp_pos : 0 < f.ulp q := by
  unfold ulp
  positivity

end

namespace Rounded

section
variable {f : Bin} {m : Rnd} {w : Word} {q y z : ℝ}

/-- Rounding to a format has one result. -/
theorem unique (h : f.Rounded m w q y) (h' : f.Rounded m w q z) : z = y := by
  obtain ⟨k, hk, rfl⟩ := h
  obtain ⟨j, hj, rfl⟩ := h'
  rw [hk.unique hj]

/-- A number and what it is rounded to, both counted in the unit. -/
theorem scaled (h : f.Rounded m w q y) :
    ∃ (u x : ℝ) (k : ℤ), f.ulp q = u ∧ 0 < u ∧ RoundsTo m w x k ∧ y = k * u ∧ q = x * u := by
  obtain ⟨k, hk, hy⟩ := h
  exact ⟨_, _, k, rfl, ulp_pos, hk, hy, (div_mul_cancel₀ q ulp_pos.ne').symm⟩

/-- The result is less than one unit away. -/
theorem abs_sub_lt (h : f.Rounded m w q y) : |y - q| < f.ulp q := by
  obtain ⟨u, x, k, hu, hpos, ⟨-, hnear, -⟩, rfl, rfl⟩ := h.scaled
  rw [hu, ← sub_mul, abs_mul, abs_of_pos hpos]
  exact mul_lt_of_lt_one_left hpos hnear

/-- The modes to nearest stay within half a unit. -/
theorem two_mul_abs_sub_le (h : f.Rounded m w q y) (hm : m = .rne ∨ m = .rna) : 2 * |y - q| ≤ f.ulp q := by
  obtain ⟨u, x, k, hu, hpos, ⟨-, -, hmode⟩, rfl, rfl⟩ := h.scaled
  have hhalf : |k - x| ≤ 1 / 2 := by rcases hm with rfl | rfl <;> exact hmode.1
  rw [hu, ← sub_mul, abs_mul, abs_of_pos hpos]
  linarith [mul_le_mul_of_nonneg_right hhalf hpos.le]

theorem abs_le_abs (h : f.Rounded .rtz w q y) : |y| ≤ |q| := by
  obtain ⟨u, x, k, -, hpos, ⟨-, -, hmode⟩, rfl, rfl⟩ := h.scaled
  rw [abs_mul, abs_mul]
  exact mul_le_mul_of_nonneg_right hmode (abs_nonneg u)

theorem le (h : f.Rounded .rdn w q y) : y ≤ q := by
  obtain ⟨u, x, k, -, hpos, ⟨-, -, hmode⟩, rfl, rfl⟩ := h.scaled
  exact mul_le_mul_of_nonneg_right hmode hpos.le

theorem ge (h : f.Rounded .rup w q y) : q ≤ y := by
  obtain ⟨u, x, k, -, hpos, ⟨-, -, hmode⟩, rfl, rfl⟩ := h.scaled
  exact mul_le_mul_of_nonneg_right hmode hpos.le

end
end Rounded
end Bin

/-- Settles O27: the bracket of a value is around the number that the value stands for, so its choice is the integer number of units
that rounding makes of the number; the bounds on the result are those on the integer, and no two integers meet them. -/
theorem rounding : Obligations.Rounding := by
  unfold Obligations.Rounding
  refine ⟨fun f m b d q _ hd h hs => ⟨Bin.rounded_round h hd hs, ?_, ?_, Bin.tiny_iff h hd hs⟩, fun f m b q y _ h =>
    ⟨h.abs_sub_lt, ?_, ?_, ?_, h.two_mul_abs_sub_le, fun z => h.unique⟩⟩
  · rw [Bin.round_eq hd, Bracket.pick]
  · rw [Bin.round_eq hd, Bracket.pick]
  · rintro rfl; exact h.abs_le_abs
  · rintro rfl; exact h.le
  · rintro rfl; exact h.ge

end Sys2Proof.Machine
end

section
/-!
O32, O33: the encoder and the decoder (R61, R74 to R80).
-/

set_option Elab.async false

open Sys2Proof

/-- Settles O32: each word by the law of its own encoding; an event has no word. -/
theorem decodeEncode : Obligations.DecodeEncode := by
  unfold Obligations.DecodeEncode
  intro i
  cases i
  case add => exact Laws.DecodeEncode.add _ _ _
  case sub => exact Laws.DecodeEncode.sub _ _ _
  case and => exact Laws.DecodeEncode.and _ _ _
  case or => exact Laws.DecodeEncode.or _ _ _
  case xor => exact Laws.DecodeEncode.xor _ _ _
  case shl => exact Laws.DecodeEncode.shl _ _ _
  case shrN => exact Laws.DecodeEncode.shrN _ _ _
  case shrI => exact Laws.DecodeEncode.shrI _ _ _
  case minI => exact Laws.DecodeEncode.minI _ _ _
  case maxI => exact Laws.DecodeEncode.maxI _ _ _
  case minN => exact Laws.DecodeEncode.minN _ _ _
  case maxN => exact Laws.DecodeEncode.maxN _ _ _
  case mul => exact Laws.DecodeEncode.mul _ _ _
  case mulhI => exact Laws.DecodeEncode.mulhI _ _ _
  case mulhN => exact Laws.DecodeEncode.mulhN _ _ _
  case cmpEq => exact Laws.DecodeEncode.cmpEq _ _ _
  case cmpNe => exact Laws.DecodeEncode.cmpNe _ _ _
  case cmpLtI => exact Laws.DecodeEncode.cmpLtI _ _ _
  case cmpLtN => exact Laws.DecodeEncode.cmpLtN _ _ _
  case add64 => exact Laws.DecodeEncode.add64 _ _ _
  case sub64 => exact Laws.DecodeEncode.sub64 _ _ _
  case shl64 => exact Laws.DecodeEncode.shl64 _ _ _
  case shr64N => exact Laws.DecodeEncode.shr64N _ _ _
  case movi => exact Laws.DecodeEncode.movi _ _
  case movh => exact Laws.DecodeEncode.movh _ _
  case addi => exact Laws.DecodeEncode.addi _ _
  case andi => exact Laws.DecodeEncode.andi _ _
  case ori => exact Laws.DecodeEncode.ori _ _
  case xori => exact Laws.DecodeEncode.xori _ _
  case cmpiEq => exact Laws.DecodeEncode.cmpiEq _ _
  case cmpiLtI => exact Laws.DecodeEncode.cmpiLtI _ _
  case sld32 => exact Laws.DecodeEncode.sld32 _ _ _
  case sld64 => exact Laws.DecodeEncode.sld64 _ _ _
  case sldK => exact Laws.DecodeEncode.sldK _ _ _
  case sst => exact Laws.DecodeEncode.sst _ _ _
  case srd => exact Laws.DecodeEncode.srd _ _
  case swr => exact Laws.DecodeEncode.swr _ _
  case bra => exact Laws.DecodeEncode.bra _
  case bz => exact Laws.DecodeEncode.bz _ _
  case bnz => exact Laws.DecodeEncode.bnz _ _
  case bany => exact Laws.DecodeEncode.bany _ _
  case ball => exact Laws.DecodeEncode.ball _ _
  case bnone => exact Laws.DecodeEncode.bnone _ _
  case bdiv => exact Laws.DecodeEncode.bdiv _ _
  case call => exact Laws.DecodeEncode.call _
  case jmpr => exact Laws.DecodeEncode.jmpr _
  case mfromp => exact Laws.DecodeEncode.mfromp _
  case mtop => exact Laws.DecodeEncode.mtop _
  case wait => exact Laws.DecodeEncode.wait _ _ _ _
  case trap => exact Laws.DecodeEncode.trap _
  case detach => exact Laws.DecodeEncode.detach _
  case regroup => exact Laws.DecodeEncode.regroup _ _ _ _
  case launch => exact Laws.DecodeEncode.launch _ _ _
  case hops => exact Laws.DecodeEncode.hops _ _ _
  case barArrive => exact Laws.DecodeEncode.barArrive _ _
  case barWait => exact Laws.DecodeEncode.barWait _ _
  case barSync => exact Laws.DecodeEncode.barSync _
  case barTry => exact Laws.DecodeEncode.barTry _ _ _
  case vaddI32 => exact Laws.DecodeEncode.vaddI32 _ _ _
  case vsubI32 => exact Laws.DecodeEncode.vsubI32 _ _ _
  case vmulI32 => exact Laws.DecodeEncode.vmulI32 _ _ _
  case vmulhI32 => exact Laws.DecodeEncode.vmulhI32 _ _ _
  case vmulhN32 => exact Laws.DecodeEncode.vmulhN32 _ _ _
  case vminI32 => exact Laws.DecodeEncode.vminI32 _ _ _
  case vmaxI32 => exact Laws.DecodeEncode.vmaxI32 _ _ _
  case vminN32 => exact Laws.DecodeEncode.vminN32 _ _ _
  case vmaxN32 => exact Laws.DecodeEncode.vmaxN32 _ _ _
  case vandB32 => exact Laws.DecodeEncode.vandB32 _ _ _
  case vorB32 => exact Laws.DecodeEncode.vorB32 _ _ _
  case vxorB32 => exact Laws.DecodeEncode.vxorB32 _ _ _
  case vshlB32 => exact Laws.DecodeEncode.vshlB32 _ _ _
  case vshrN32 => exact Laws.DecodeEncode.vshrN32 _ _ _
  case vshrI32 => exact Laws.DecodeEncode.vshrI32 _ _ _
  case vabsdI32 => exact Laws.DecodeEncode.vabsdI32 _ _ _
  case vaddsI32 => exact Laws.DecodeEncode.vaddsI32 _ _ _
  case vsubsI32 => exact Laws.DecodeEncode.vsubsI32 _ _ _
  case vaddsN32 => exact Laws.DecodeEncode.vaddsN32 _ _ _
  case vsubsN32 => exact Laws.DecodeEncode.vsubsN32 _ _ _
  case vbfeN32 => exact Laws.DecodeEncode.vbfeN32 _ _ _
  case vbfeI32 => exact Laws.DecodeEncode.vbfeI32 _ _ _
  case vbfiB32 => exact Laws.DecodeEncode.vbfiB32 _ _ _
  case vpopcB32 => exact Laws.DecodeEncode.vpopcB32 _ _
  case vclzB32 => exact Laws.DecodeEncode.vclzB32 _ _
  case vbrevB32 => exact Laws.DecodeEncode.vbrevB32 _ _
  case vaddI64 => exact Laws.DecodeEncode.vaddI64 _ _ _
  case vsubI64 => exact Laws.DecodeEncode.vsubI64 _ _ _
  case vshlB64 => exact Laws.DecodeEncode.vshlB64 _ _ _
  case vshrN64 => exact Laws.DecodeEncode.vshrN64 _ _ _
  case vshrI64 => exact Laws.DecodeEncode.vshrI64 _ _ _
  case vaddI32Vi => exact Laws.DecodeEncode.vaddI32Vi _ _ _
  case vandB32Vi => exact Laws.DecodeEncode.vandB32Vi _ _ _
  case vshlB32Vi => exact Laws.DecodeEncode.vshlB32Vi _ _ _
  case vshrN32Vi => exact Laws.DecodeEncode.vshrN32Vi _ _ _
  case vaddI32Vs => exact Laws.DecodeEncode.vaddI32Vs _ _ _
  case vsubI32Vs => exact Laws.DecodeEncode.vsubI32Vs _ _ _
  case vmulI32Vs => exact Laws.DecodeEncode.vmulI32Vs _ _ _
  case vmulhI32Vs => exact Laws.DecodeEncode.vmulhI32Vs _ _ _
  case vmulhN32Vs => exact Laws.DecodeEncode.vmulhN32Vs _ _ _
  case vminI32Vs => exact Laws.DecodeEncode.vminI32Vs _ _ _
  case vmaxI32Vs => exact Laws.DecodeEncode.vmaxI32Vs _ _ _
  case vminN32Vs => exact Laws.DecodeEncode.vminN32Vs _ _ _
  case vmaxN32Vs => exact Laws.DecodeEncode.vmaxN32Vs _ _ _
  case vandB32Vs => exact Laws.DecodeEncode.vandB32Vs _ _ _
  case vorB32Vs => exact Laws.DecodeEncode.vorB32Vs _ _ _
  case vxorB32Vs => exact Laws.DecodeEncode.vxorB32Vs _ _ _
  case vshlB32Vs => exact Laws.DecodeEncode.vshlB32Vs _ _ _
  case vshrN32Vs => exact Laws.DecodeEncode.vshrN32Vs _ _ _
  case vshrI32Vs => exact Laws.DecodeEncode.vshrI32Vs _ _ _
  case vabsdI32Vs => exact Laws.DecodeEncode.vabsdI32Vs _ _ _
  case vaddsI32Vs => exact Laws.DecodeEncode.vaddsI32Vs _ _ _
  case vsubsI32Vs => exact Laws.DecodeEncode.vsubsI32Vs _ _ _
  case vaddsN32Vs => exact Laws.DecodeEncode.vaddsN32Vs _ _ _
  case vsubsN32Vs => exact Laws.DecodeEncode.vsubsN32Vs _ _ _
  case vbfeN32Vs => exact Laws.DecodeEncode.vbfeN32Vs _ _ _
  case vbfeI32Vs => exact Laws.DecodeEncode.vbfeI32Vs _ _ _
  case vbfiB32Vs => exact Laws.DecodeEncode.vbfiB32Vs _ _ _
  case vaddI64Vs => exact Laws.DecodeEncode.vaddI64Vs _ _ _
  case vsubI64Vs => exact Laws.DecodeEncode.vsubI64Vs _ _ _
  case vshlB64Vs => exact Laws.DecodeEncode.vshlB64Vs _ _ _
  case vshrN64Vs => exact Laws.DecodeEncode.vshrN64Vs _ _ _
  case vshrI64Vs => exact Laws.DecodeEncode.vshrI64Vs _ _ _
  case vbcastB32 => exact Laws.DecodeEncode.vbcastB32 _ _
  case vcmp => exact Laws.DecodeEncode.vcmp _ _ _ _ _
  case pand => exact Laws.DecodeEncode.pand _ _ _
  case por => exact Laws.DecodeEncode.por _ _ _
  case pxor => exact Laws.DecodeEncode.pxor _ _ _
  case pnot => exact Laws.DecodeEncode.pnot _ _
  case pmov => exact Laws.DecodeEncode.pmov _ _
  case vfromp => exact Laws.DecodeEncode.vfromp _ _
  case vtop => exact Laws.DecodeEncode.vtop _ _
  case shflIdx => exact Laws.DecodeEncode.shflIdx _ _ _ _
  case shflUp => exact Laws.DecodeEncode.shflUp _ _ _ _
  case shflDown => exact Laws.DecodeEncode.shflDown _ _ _ _
  case shflXor => exact Laws.DecodeEncode.shflXor _ _ _ _
  case voteAny => exact Laws.DecodeEncode.voteAny _ _
  case voteAll => exact Laws.DecodeEncode.voteAll _ _
  case ballot => exact Laws.DecodeEncode.ballot _ _
  case vscanIncl => exact Laws.DecodeEncode.vscanIncl _ _ _ _
  case vscanExcl => exact Laws.DecodeEncode.vscanExcl _ _ _ _
  case vred => exact Laws.DecodeEncode.vred _ _ _
  case vfaddF32 => exact Laws.DecodeEncode.vfaddF32 _ _ _
  case vfsubF32 => exact Laws.DecodeEncode.vfsubF32 _ _ _
  case vfmulF32 => exact Laws.DecodeEncode.vfmulF32 _ _ _
  case vffmaF32 => exact Laws.DecodeEncode.vffmaF32 _ _ _
  case vffnmaF32 => exact Laws.DecodeEncode.vffnmaF32 _ _ _
  case vfminF32 => exact Laws.DecodeEncode.vfminF32 _ _ _
  case vfmaxF32 => exact Laws.DecodeEncode.vfmaxF32 _ _ _
  case vfabsF32 => exact Laws.DecodeEncode.vfabsF32 _ _
  case vfnegF32 => exact Laws.DecodeEncode.vfnegF32 _ _
  case vfcopysignF32 => exact Laws.DecodeEncode.vfcopysignF32 _ _ _
  case vfrintF32 => exact Laws.DecodeEncode.vfrintF32 _ _
  case vfaddF64 => exact Laws.DecodeEncode.vfaddF64 _ _ _
  case vfsubF64 => exact Laws.DecodeEncode.vfsubF64 _ _ _
  case vfmulF64 => exact Laws.DecodeEncode.vfmulF64 _ _ _
  case vffmaF64 => exact Laws.DecodeEncode.vffmaF64 _ _ _
  case vffnmaF64 => exact Laws.DecodeEncode.vffnmaF64 _ _ _
  case vfminF64 => exact Laws.DecodeEncode.vfminF64 _ _ _
  case vfmaxF64 => exact Laws.DecodeEncode.vfmaxF64 _ _ _
  case vfabsF64 => exact Laws.DecodeEncode.vfabsF64 _ _
  case vfnegF64 => exact Laws.DecodeEncode.vfnegF64 _ _
  case vfcopysignF64 => exact Laws.DecodeEncode.vfcopysignF64 _ _ _
  case vfrintF64 => exact Laws.DecodeEncode.vfrintF64 _ _
  case vfdivF32 => exact Laws.DecodeEncode.vfdivF32 _ _ _
  case vfsqrtF32 => exact Laws.DecodeEncode.vfsqrtF32 _ _
  case vfrcpF32 => exact Laws.DecodeEncode.vfrcpF32 _ _
  case vfrsqF32 => exact Laws.DecodeEncode.vfrsqF32 _ _
  case vfexp2F32 => exact Laws.DecodeEncode.vfexp2F32 _ _
  case vflog2F32 => exact Laws.DecodeEncode.vflog2F32 _ _
  case vfsinF32 => exact Laws.DecodeEncode.vfsinF32 _ _
  case vfcosF32 => exact Laws.DecodeEncode.vfcosF32 _ _
  case vftanhF32 => exact Laws.DecodeEncode.vftanhF32 _ _
  case vfdivF64 => exact Laws.DecodeEncode.vfdivF64 _ _ _
  case vfsqrtF64 => exact Laws.DecodeEncode.vfsqrtF64 _ _
  case vfrcpF64 => exact Laws.DecodeEncode.vfrcpF64 _ _
  case vfrsqF64 => exact Laws.DecodeEncode.vfrsqF64 _ _
  case vfaddBf16 => exact Laws.DecodeEncode.vfaddBf16 _ _ _
  case vfsubBf16 => exact Laws.DecodeEncode.vfsubBf16 _ _ _
  case vfmulBf16 => exact Laws.DecodeEncode.vfmulBf16 _ _ _
  case vffmaBf16 => exact Laws.DecodeEncode.vffmaBf16 _ _ _
  case vffnmaBf16 => exact Laws.DecodeEncode.vffnmaBf16 _ _ _
  case vfminBf16 => exact Laws.DecodeEncode.vfminBf16 _ _ _
  case vfmaxBf16 => exact Laws.DecodeEncode.vfmaxBf16 _ _ _
  case vfabsBf16 => exact Laws.DecodeEncode.vfabsBf16 _ _
  case vfnegBf16 => exact Laws.DecodeEncode.vfnegBf16 _ _
  case vfcmp => exact Laws.DecodeEncode.vfcmp _ _ _ _ _
  case cvts => exact Laws.DecodeEncode.cvts _ _ _ _ _
  case cvti => exact Laws.DecodeEncode.cvti _ _ _ _ _
  case pack4 => exact Laws.DecodeEncode.pack4 _ _
  case unpack4 => exact Laws.DecodeEncode.unpack4 _ _ _
  case pack6 => exact Laws.DecodeEncode.pack6 _ _
  case unpack6 => exact Laws.DecodeEncode.unpack6 _ _ _
  case pack8 => exact Laws.DecodeEncode.pack8 _ _
  case unpack8 => exact Laws.DecodeEncode.unpack8 _ _ _
  case bscale => exact Laws.DecodeEncode.bscale _ _ _
  case scapplyMul => exact Laws.DecodeEncode.scapplyMul _ _ _
  case scapplyDiv => exact Laws.DecodeEncode.scapplyDiv _ _ _
  case compress => exact Laws.DecodeEncode.compress _ _ _
  case tidsetImm => exact Laws.DecodeEncode.tidsetImm _
  case tidsetReg => exact Laws.DecodeEncode.tidsetReg _
  case ldg => exact Laws.DecodeEncode.ldg _ _ _ _ _
  case stg => exact Laws.DecodeEncode.stg _ _ _ _ _
  case lds => exact Laws.DecodeEncode.lds _ _ _ _ _
  case sts => exact Laws.DecodeEncode.sts _ _ _ _ _
  case ldc => exact Laws.DecodeEncode.ldc _ _ _ _ _
  case stc => exact Laws.DecodeEncode.stc _ _ _ _ _
  case lda => exact Laws.DecodeEncode.lda _ _ _ _ _
  case stl => exact Laws.DecodeEncode.stl _ _ _ _ _
  case atom => exact Laws.DecodeEncode.atom _ _ _ _
  case atoma => exact Laws.DecodeEncode.atoma _ _ _ _
  case atoms => exact Laws.DecodeEncode.atoms _ _ _ _
  case red => exact Laws.DecodeEncode.red _ _ _ _
  case tagl => exact Laws.DecodeEncode.tagl _ _ _
  case tags => exact Laws.DecodeEncode.tags _ _
  case tagi => exact Laws.DecodeEncode.tagi _
  case fence => exact Laws.DecodeEncode.fence _ _
  case publish => exact Laws.DecodeEncode.publish _
  case flushh => exact Laws.DecodeEncode.flushh _ _
  case ljoin => exact Laws.DecodeEncode.ljoin _ _ _ _ _
  case lld => exact Laws.DecodeEncode.lld _ _ _ _
  case lldAcq => exact Laws.DecodeEncode.lldAcq _ _ _ _
  case lldge => exact Laws.DecodeEncode.lldge _ _ _ _
  case ltry => exact Laws.DecodeEncode.ltry _ _ _ _
  case lsta => exact Laws.DecodeEncode.lsta _ _ _ _
  case linc => exact Laws.DecodeEncode.linc _ _
  case lsync => exact Laws.DecodeEncode.lsync _
  case tcopy => exact Laws.DecodeEncode.tcopy _ _ _ _
  case copy => exact Laws.DecodeEncode.copy _ _ _ _ _
  case tryw => exact Laws.DecodeEncode.tryw _ _ _ _
  case bmtest => exact Laws.DecodeEncode.bmtest _ _ _
  case bmclr => exact Laws.DecodeEncode.bmclr _ _
  case rpush => exact Laws.DecodeEncode.rpush _ _
  case rpop => exact Laws.DecodeEncode.rpop _ _ _
  case rfree => exact Laws.DecodeEncode.rfree _ _ _
  case rstat => exact Laws.DecodeEncode.rstat _ _
  case mma => exact Laws.DecodeEncode.mma _ _ _
  case mmas => exact Laws.DecodeEncode.mmas _ _ _
  case accalloc => exact Laws.DecodeEncode.accalloc _ _ _
  case accfree => exact Laws.DecodeEncode.accfree _ _
  case accz => exact Laws.DecodeEncode.accz _ _
  case accrdSat => exact Laws.DecodeEncode.accrdSat _ _ _ _
  case accrdInf => exact Laws.DecodeEncode.accrdInf _ _ _ _
  case accwr => exact Laws.DecodeEncode.accwr _ _ _
  case wpin => exact Laws.DecodeEncode.wpin _ _ _ _
  case wunpin => exact Laws.DecodeEncode.wunpin _ _ _
  case segld => exact Laws.DecodeEncode.segld _ _
  case segrd => exact Laws.DecodeEncode.segrd _ _
  case csrr => exact Laws.DecodeEncode.csrr _ _
  case csrw => exact Laws.DecodeEncode.csrw _ _
  case tlbinv => exact Laws.DecodeEncode.tlbinv _ _
  case idle => exact Laws.DecodeEncode.idle _
  case nop => exact Laws.DecodeEncode.nop
  case ret => exact Laws.DecodeEncode.ret
  case yield => exact Laws.DecodeEncode.yield
  case exit => exact Laws.DecodeEncode.exit
  case brk => exact Laws.DecodeEncode.brk
  case attach => exact Laws.DecodeEncode.attach
  case ifence => exact Laws.DecodeEncode.ifence
  case persist => exact Laws.DecodeEncode.persist
  case opfence => exact Laws.DecodeEncode.opfence
  case rft => exact Laws.DecodeEncode.rft
  case rftKill => exact Laws.DecodeEncode.rftKill
  case tlbinvAll => exact Laws.DecodeEncode.tlbinvAll
  all_goals exact fun _ _ _ he => nomatch he

/-- Settles O33: the decoder, run on each word. -/
theorem decodedWords : Obligations.DecodedWords := by
  unfold Obligations.DecodedWords
  decide
end

section
/-!
O3, O10, O14, O15: what stops a word, and words that end at once (R63, R64, R66, R81, R83, R87, R107, R109, R111, R132).
-/

set_option Elab.async false

namespace Sys2Proof

/-- SYS words are of class S (R68, R81). -/
theorem Instr.pipe_of_isSys {i : Instr} (h : i.isSys = true) : i.pipe = .s := by
  cases i
  case rft | rftKill | segld | segrd | csrr | csrw | tlbinv | tlbinvAll | idle => rfl
  all_goals cases h

namespace Machine.State

/-- What stops a word is what it answers, whatever its effect. -/
theorem issue_of_stopped {s t : State} {i : Instr} (f : State → State) (h : s.stopped i.facts = some t) :
    s.issue i f = .next t := by
  simp [issue, issueWord, h]

theorem exec_of_stopped {s t : State} {i : Instr} (hi : i.pipe ≠ .none ∨ i = .nop) (h : s.stopped i.facts = some t) :
    exec i s = .next t := by
  obtain ⟨f, hf⟩ := exec_issues i hi
  rw [hf, issue_of_stopped f h]

theorem stopped_of_cause {s : State} {f : Facts} {c : Cause} (h : s.causeOf f = some c) : s.stopped f = some (s.illegal c) := by
  simp [stopped, h]

theorem stopped_of_forbidden {s : State} {f : Facts} (hc : s.causeOf f = none) (hm : s.mayIssue f = false) :
    s.stopped f = some (s.fault .permission 0 none) := by
  simp [stopped, hc, hm]

theorem stopped_of_waiting {s : State} {f : Facts} (hc : s.causeOf f = none) (hm : s.mayIssue f = true)
    (hw : s.counterFull f = true ∨ s.orderHeld f = true) : s.stopped f = some s.stalled := by
  simp [stopped, hc, hm, hw]

end Machine.State

end Sys2Proof

open Sys2Proof Sys2Proof.Machine Sys2Proof.Machine.State

/-- Settles O14: every word is issued, and `stopped` says what stops it. -/
theorem stoppedWords : Obligations.StoppedWords := by
  unfold Obligations.StoppedWords
  intro s i hi
  exact ⟨fun c hc => exec_of_stopped hi (stopped_of_cause hc),
    fun hc hm => exec_of_stopped hi (stopped_of_forbidden hc hm),
    fun hc hm hw => exec_of_stopped hi (stopped_of_waiting hc hm hw)⟩

/-- Settles O15: a SYS word is of class S, so it is issued, and at U its cause is 0x0A. -/
theorem privilege : Obligations.Privilege := by
  unfold Obligations.Privilege
  intro s i hsys hu
  have hpipe : i.pipe ≠ .none := by rw [Instr.pipe_of_isSys hsys]; decide
  exact exec_of_stopped (.inl hpipe) (stopped_of_cause (causeOf_sys hsys hu))

namespace Sys2Proof.Machine.State

/-! ## The end of a word (R63, R64) -/

section
variable {s : State} (h : s.snap = none)
include h

theorem done_of_none : s.done =
    { s with tick := s.tick + 1, last := .done }.setSplit (issued s.now (nextWord s.split s.split.word)) := by
  unfold done
  simp only [h]
  rfl

theorem done_group_of_none : s.done.group =
    { s.group with splits := s.group.splits.set s.cur.split (issued s.now (nextWord s.split s.split.word)) } := by
  rw [done_of_none h, setSplit_group]
  rfl

theorem done_split_of_none : s.done.split = issued s.now (nextWord s.split s.split.word) := by
  rw [done_of_none h, setSplit_split]

end

@[simp] theorem done_sys (s : State) : s.done.sys = s.sys := by unfold done; dsimp only; split <;> rfl
@[simp] theorem done_last (s : State) : s.done.last = .done := by unfold done; dsimp only; split <;> rfl
@[simp] theorem done_snap (s : State) : s.done.snap = s.snap := by unfold done; dsimp only; split <;> simp [*]

theorem done_groupAt_of_ne (s : State) {k : Nat} (h : k ≠ s.gkey) : s.done.groupAt k = s.groupAt k := by
  unfold done
  dsimp only
  split
  · rfl
  · rw [setSplit_groupAt_of_ne _ _ (by simpa [gkey] using h)]; rfl

/-- The end of a word changes nothing but its group and the count. -/
theorem done_onlyGroup (s : State) : s.OnlyGroup s.done := by
  refine ⟨?_, fun k hk => ⟨done_groupAt_of_ne s hk, by simp [sysAt]⟩⟩
  unfold done; dsimp only; split <;> rfl

theorem SameMemory.of_eq {s t : State} (hm : t.mem = s.mem) (hp : t.spad = s.spad) (ha : t.acc = s.acc) : s.SameMemory t :=
  ⟨fun _ => by rw [hm], fun _ => by rw [hp], fun _ => by rw [ha]⟩

theorem done_sameMemory (s : State) : s.SameMemory s.done := .of_eq (done_mem s) (done_spad s) (done_acc s)

theorem nextWord_pc (x : Split) (w : Nat) : (nextWord x w).pc = if w < 2 then x.pc else x.pc + 1 := by
  unfold nextWord; split <;> rfl

theorem nextWord_word (x : Split) (w : Nat) : (nextWord x w).word = if w < 2 then w + 1 else 0 := by
  unfold nextWord; split <;> rfl

/-- A word moves its split and changes nothing else that a split carries on. -/
theorem nextWord_rest (x : Split) (w : Nat) : (nextWord x w).mask = x.mask ∧ (nextWord x w).record = x.record ∧
    (nextWord x w).handler = x.handler := by
  unfold nextWord; split <;> exact ⟨rfl, rfl, rfl⟩
end Sys2Proof.Machine.State

/-- Settles O3: outside a chain the end of a word is one write of the issuing split. -/
theorem wordEnds : Obligations.WordEnds := by
  unfold Obligations.WordEnds
  intro s h
  have hgroup := done_group_of_none h
  obtain ⟨hmask, hrecord, hhandler⟩ := nextWord_rest s.split s.split.word
  rw [done_split_of_none h]
  refine ⟨nextWord_pc .., nextWord_word .., hmask, hrecord, hhandler, rfl, done_last s, fun n hn => ?_, ?_,
    done_onlyGroup s, done_sameMemory s⟩
  · rw [hgroup, Table.at?_set_of_ne _ _ hn]
  · rw [hgroup]

namespace Sys2Proof.Machine

/-! ## Words that only move their split (R63, R111) -/

/-- Of two writes of an entry the second stands. -/
theorem Table.set_set (t : Table α) (k : Nat) (v w : α) : (t.set k v).set k w = t.set k w := by
  induction t with
  | nil => simp [Table.set]
  | cons e t ih =>
      obtain ⟨j, x⟩ := e
      by_cases hkj : k < j
      · simp [Table.set, hkj]
      · by_cases hj : j = k
        · simp [Table.set, hj]
        · simp [Table.set, hkj, hj, ih]

namespace State

theorem split_of_none {s : State} (h : s.snap = none) : s.vsplit = s.split := by rw [vsplit, vgroup_of_none h]; rfl

theorem active_of_none {s : State} (h : s.snap = none) : s.active = s.split.mask := by rw [active, split_of_none h]

theorem waitOver_iff {s : State} {ld st cp tm : Nat} : s.waitOver ld st cp tm = true ↔
    s.vsys.ld.length ≤ ld ∧ s.vsys.st.length ≤ st ∧ s.vsys.cp.length ≤ cp ∧ s.vsys.tm.length ≤ tm := by
  simp [waitOver, and_assoc]

/-- A state that differs in its issuing split alone, the count and the end of the word, has moved that split. -/
theorem movesTo_setSplit (s : State) {x : Split} (n : Nat) (l : Last) (hmask : x.mask = s.split.mask)
    (hrecord : x.record = s.split.record) (hhandler : x.handler = s.split.handler) (hword : x.word = 0) :
    s.MovesTo ({ s with tick := n, last := l }.setSplit x) x.pc := by
  have hgroup : ({ s with tick := n, last := l }.setSplit x).group =
      { s.group with splits := s.group.splits.set s.cur.split x } := setSplit_group ..
  refine ⟨?_, ?_, ?_, ?_, ?_, fun m hm => ?_, ?_, ⟨rfl, fun k hk => ⟨?_, rfl⟩⟩, rfl, .of_eq rfl rfl rfl⟩
  · rw [setSplit_split]
  · rw [setSplit_split, hword]
  · rw [setSplit_split, hmask]
  · rw [setSplit_split, hrecord]
  · rw [setSplit_split, hhandler]
  · rw [hgroup, Table.at?_set_of_ne _ _ hm]
  · rw [hgroup]
  · exact setSplit_groupAt_of_ne _ x hk

/-- The split of a word that moves to the next packet (R63). -/
def atNextPacket (s : State) : Split := { issued s.now s.split with pc := s.split.pc + 1, word := 0, packet := none }

theorem nextPacket_of_none {s : State} (h : s.snap = none) :
    s.nextPacket = { s with tick := s.tick + 1, last := .done }.setSplit s.atNextPacket := by
  unfold nextPacket
  simp only [setSplit_snap, h]
  rfl

theorem setGroup_setGroup (s : State) (g k : Group) : (s.setGroup g).setGroup k = s.setGroup k :=
  congrArg (fun t => ({ s with groups := t } : State)) (Table.set_set s.groups s.gkey g k)

theorem setSplit_setSplit (s : State) (x y : Split) : (s.setSplit x).setSplit y = s.setSplit y := by
  rw [setSplit, setSplit_group, setSplit, setGroup_setGroup]
  simp only [setGroup_cur, Table.set_set]
  rfl

/-- What YIELD makes of its split (R111). -/
theorem yield_of_none {s : State} (h : s.snap = none) :
    s.nextPacket.setSplit { s.nextPacket.split with yielded := true, back := 0 } =
      { s with tick := s.tick + 1, last := .done }.setSplit { s.atNextPacket with yielded := true, back := 0 } := by
  rw [nextPacket_of_none h, setSplit_split, setSplit_setSplit]

end State

end Sys2Proof.Machine

/-- Settles O10: where each of the five comes to its effect, that effect is read off; YIELD writes its split once. -/
theorem maskWaitYield : Obligations.MaskWaitYield := by
  unfold Obligations.MaskWaitYield
  intro s p ld st cp tm h
  refine ⟨fun hi => ?_, fun hi => ?_, fun hi => ?_, fun hi => ⟨fun hw => ?_, fun hw => ?_⟩, fun hi => ?_⟩
  · rw [exec_nop, execNop, issue_eq hi]
  · rw [exec_mfromp, execMfromp, issue_eq hi, active_of_none h]
  · rw [exec_mtop, execMtop, issue_eq hi]
  · rw [exec_wait, execWait, issue_eq hi, if_pos (waitOver_iff.mpr (by rwa [vsys_of_none h]))]
  · rw [exec_wait, execWait, issue_eq hi, if_neg (mt waitOver_iff.mp (by rwa [vsys_of_none h]))]
    rfl
  · refine ⟨_, (exec_yield s).trans (issue_eq hi _), ?_⟩
    rw [yield_of_none h]
    refine ⟨movesTo_setSplit s _ _ rfl rfl rfl rfl, ?_, ?_⟩ <;> rw [setSplit_split]
end

section
/-!
O34: from a step to the word that it runs (R62, R66, R113, R135, R140, R253).
-/

set_option Elab.async false

namespace Sys2Proof.Machine

/-! ## The turn at hand (R253) -/

namespace State

theorem takeEarly_fold_only_sys (l : List EarlyPick) (s : State) : { l.foldl takeEarly s with sys := s.sys } = s := by
  induction l generalizing s with
  | nil => rfl
  | cons e l ih =>
      have hrest : { l.foldl takeEarly (s.takeEarly e) with sys := s.sys } = { s.takeEarly e with sys := s.sys } :=
        congrArg (fun t : State => { t with sys := s.sys }) (ih (s.takeEarly e))
      exact hrest.trans (takeEarly_only_sys s e)

theorem advanced_cores (s : State) : s.advanced.cores = s.cores := by
  have h := congrArg State.cores (takeEarly_fold_only_sys s.turn.early s)
  exact h

theorem advanced_computeUp (s : State) : s.advanced.hw.power.computeUp = s.hw.power.computeUp := by
  have h := congrArg (fun t : State => t.hw.power.computeUp) (takeEarly_fold_only_sys s.turn.early s)
  exact h

/-! ## An issue group of one word (R62, R66) -/

theorem reading_of_decode {p : Packet} {k : Nat} {i : Instr} (h : decode (p.word k) = .ok i) :
    ∃ r : Reading, p.reading k = some r ∧ r.instr = i := by
  unfold decode at h
  unfold Packet.reading
  cases hr : decodeReading (p.word k) with
  | error c => rw [hr] at h; cases h
  | ok r =>
      rw [hr] at h
      exact ⟨r, rfl, Except.ok.inj h⟩

/-- A word without a chain bit, at which an issue group begins, is the group. -/
theorem group_of_unchained {p : Packet} {k : Nat} {r : Reading} (hc : chainBit (p.word k) = false)
    (hr : p.reading k = some r) : Packet.group p k = [r] := by
  have hend : p.chainEnd k = k := by simp [Packet.chainEnd, hc]
  have hrange : (List.range (k + 1)).drop k = [k] := by
    rw [List.range_succ, List.drop_append_of_le_length (by simp)]
    simp
  simp [Packet.group, hend, hrange, hr]

theorem runGroup_of_single {u : State} {p : Packet} {r : Reading} (hk : firstWord p u.split.word ≠ 3)
    (hg : Packet.group p (firstWord p u.split.word) = [r]) :
    u.runGroup p = exec r.instr (u.setSplit { u.split with word := firstWord p u.split.word }) := by
  simp only [runGroup, if_neg hk, hg, execReading_eq]

theorem attemptWords_of_single {v u t : State} {p : Packet} {r : Reading} (hp : v.packetAt = .packet p u)
    (hk : firstWord p u.split.word ≠ 3) (hg : Packet.group p (firstWord p u.split.word) = [r])
    (ht : exec r.instr (u.setSplit { u.split with word := firstWord p u.split.word }) = .next t) :
    v.attemptWords = .next (u.afterWords [r] t) := by
  simp only [attemptWords, hp, runGroup_of_single hk hg, ht, hg]

/-- A split that meets no recoverable fault and no breakpoint does what its words do (R358, R373). -/
theorem attempt_of_clear {v t : State} {core slot n : Nat} (ht : (v.onSplit core slot n).attemptWords = .next t)
    (hr : (v.onSplit core slot n).recoverableDue = none) (hb : (v.onSplit core slot n).atBreakpoint = false) :
    v.attempt core slot n = .next t := by
  have hunheard : (v.onSplit core slot n).unheard = none := by simp [unheard, hr]
  have hbefore : (v.onSplit core slot n).beforeIssue = none := by simp [beforeIssue, hr, hb]
  simp only [attempt, ht, hunheard, hbefore, Option.getD_none, ite_self]

/-! ## After the word (R66, R113) -/

@[simp] theorem skipNops_last (s : State) : s.skipNops.last = s.last := by
  unfold skipNops
  dsimp only
  split
  · split <;> rfl
  · rfl

@[simp] theorem backYield_last (s : State) : s.backYield.last = s.last := by
  unfold backYield
  dsimp only
  split <;> rfl

@[simp] theorem stepOver_last (s : State) : s.stepOver.last = s.last := by unfold stepOver; split <;> rfl

@[simp] theorem afterIssue_last (s : State) (core slot n : Nat) : (s.afterIssue core slot n).last = s.last := by
  unfold afterIssue
  dsimp only
  rw [setCoreAt_last]
  split <;> simp

theorem settle_last (s : State) (core slot n : Nat) (also : List (Nat × Nat)) : (s.settle core slot n also).last = s.last :=
  afterIssue_last s core slot n

theorem afterWords_last (s : State) (l : List Reading) (t : State) : (s.afterWords l t).last = t.last := by
  have h := congrArg State.last (afterWords_only_sys s l t)
  exact h

theorem afterWords_groups (s : State) (l : List Reading) (t : State) : (s.afterWords l t).groups = t.groups := by
  have h := congrArg State.groups (afterWords_only_sys s l t)
  exact h

/-- A rendezvous is seen in the groups alone (R135). -/
theorem metPartner_congr {s t : State} (h : s.groups = t.groups) (core : Nat) : s.metPartner core = t.metPartner core := by
  simp only [metPartner, groupsOn, groupAt, h]

theorem metPartner_afterWords (s : State) (l : List Reading) (t : State) (core : Nat) :
    (s.afterWords l t).metPartner core = t.metPartner core :=
  metPartner_congr (afterWords_groups s l t) core

/-- The split that the arbiter prefers issues where it is not held and nothing comes before it (R113, R140). -/
theorem tryAll_of_issues {v t : State} {core slot n : Nat} {x : Split} (rest : List (Nat × Nat × Split))
    (ha : v.arrives core slot n = false) (ht : v.attempt core slot n = .next t) (hheld : t.last ≠ .held)
    (hmet : t.metPartner core = none) : tryAll core ((slot, n, x) :: rest) v = .next (t.settle core slot n) := by
  have hbelow : v.arrivedBelow core slot n = v := by simp [arrivedBelow, ha]
  change (match (v.arrivedBelow core slot n).attempt core slot n with
    | .next _ => _
    | r => r) = _
  rw [hbelow, ht]
  exact (if_neg hheld).trans (by rw [hmet])

/-- A core that may issue issues (R66, R113). -/
theorem issueOn_of_issues {s t : State} {core : Nat} (hup : s.hw.power.computeUp = true) (hp : (s.coreAt core).paused = false)
    (hturn : (s.coreAt core).turnAt ≠ some s.now)
    (ht : tryAll core ((s.readied core).arbiterOrder core) (s.readied core) = .next t) (hidle : t.last ≠ .idle) :
    s.issueOn core = .next t := by
  have hmay : (!s.hw.power.computeUp || (s.coreAt core).paused || (s.coreAt core).turnAt == some s.now) = false := by
    simp [hup, hp, hturn]
  simp only [issueOn, hmay, ht, if_neg hidle, Bool.false_eq_true, if_false]

end State

/-! ## A step (R65, R66, R113) -/

theorem step_of_event {s : State} {e : Instr} (hp : s.powered = true) (he : s.turn.event = some e) :
    step s = exec e s.advanced := by
  simp [step, hp, he]

theorem step_of_core {s : State} (hp : s.powered = true) (he : s.turn.event = none) :
    step s = s.advanced.issueOn s.turn.core := by
  simp [step, hp, he]

end Sys2Proof.Machine

open Sys2Proof Sys2Proof.Machine Sys2Proof.Machine.State

/-- Settles O34: from the word outwards: the one word of the issue group, the attempt of the split that stands at it, the arbiter's
first choice, the core's clock, the step. -/
theorem stepRunsTheDecodedInstruction : Obligations.StepRunsTheDecodedInstruction := by
  unfold Obligations.StepRunsTheDecodedInstruction
  refine ⟨fun s e => step_of_event, ?_⟩
  intro s t u p w i slot n k x rest c v hup hcompute hevent hpaused hturn horder harrives v' hdue hbreak hpacket hfirst hk hword
    hchain hdecode hexec hheld hidle hmet
  subst hfirst hword
  obtain ⟨r, hreading, rfl⟩ := reading_of_decode hdecode
  have hgroup : Packet.group p (firstWord p u.split.word) = [r] := group_of_unchained hchain hreading
  have hattempt : v.attempt c slot n = .next (u.afterWords [r] t) :=
    attempt_of_clear (attemptWords_of_single hpacket (Nat.ne_of_lt hk) hgroup hexec) hdue hbreak
  have htry : tryAll c (v.arbiterOrder c) v = .next ((u.afterWords [r] t).settle c slot n) := by
    rw [horder]
    exact tryAll_of_issues rest harrives hattempt (by rwa [afterWords_last]) (by rwa [metPartner_afterWords])
  have hcore : s.advanced.coreAt c = s.coreAt c := by simp only [coreAt, advanced_cores]
  rw [step_of_core (by simp [powered, hup]) hevent, hgroup]
  exact issueOn_of_issues (by rw [advanced_computeUp, hcompute]) (by rw [hcore, hpaused]) (by rwa [hcore]) htry
    (by rwa [settle_last, afterWords_last])
end

section
/-!
O5: words with channel operands (R72, R97, R309 to R313).
-/

set_option Elab.async false

namespace Sys2Proof.Machine

/-! ## The values of the scalar words, as numbers (R97) -/

theorem count6_eq (b : Word) : count6 b = b.toNat % 64 := by simp [count6]

theorem add_eq_ofNat (a b : Word) : a + b = BitVec.ofNat 32 (a.toNat + b.toNat) := by
  simp [BitVec.ofNat_add]

theorem sub_eq_ofInt (a b : Word) : a - b = BitVec.ofInt 32 ((a.toNat : Int) - b.toNat) := by
  apply BitVec.eq_of_toNat_eq
  rw [BitVec.toNat_sub, BitVec.toNat_ofInt]
  omega

theorem mul_eq_ofNat (a b : Word) : a * b = BitVec.ofNat 32 (a.toNat * b.toNat) := by
  simp [BitVec.ofNat_mul]

theorem shl_eq_ofNat (a b : Word) : a <<< count6 b = BitVec.ofNat 32 (a.toNat * 2 ^ (b.toNat % 64)) := by
  rw [count6_eq]
  apply BitVec.eq_of_toNat_eq
  simp [Nat.shiftLeft_eq]

theorem shrN_eq_ofNat (a b : Word) : a >>> count6 b = BitVec.ofNat 32 (a.toNat / 2 ^ (b.toNat % 64)) := by
  rw [count6_eq]
  apply BitVec.eq_of_toNat_eq
  have hlt : a.toNat / 2 ^ (b.toNat % 64) < 2 ^ 32 := lt_of_le_of_lt (Nat.div_le_self ..) a.isLt
  simp only [BitVec.toNat_ushiftRight, Nat.shiftRight_eq_div_pow, BitVec.toNat_ofNat, Nat.mod_eq_of_lt hlt]

theorem shrI_eq_ofInt (a b : Word) : a.sshiftRight (count6 b) = BitVec.ofInt 32 (a.toInt / 2 ^ (b.toNat % 64)) := by
  rw [count6_eq, ← BitVec.ofInt_toInt (x := a.sshiftRight _), BitVec.toInt_sshiftRight, Int.shiftRight_eq_div_pow]
  norm_cast

theorem minI_eq_ofInt (a b : Word) : minI a b = BitVec.ofInt 32 (min a.toInt b.toInt) := by
  unfold minI
  split <;> rename_i h <;> rw [BitVec.slt_iff_toInt_lt] at h
  · rw [min_eq_left h.le, BitVec.ofInt_toInt]
  · rw [min_eq_right (not_lt.mp h), BitVec.ofInt_toInt]

theorem maxI_eq_ofInt (a b : Word) : maxI a b = BitVec.ofInt 32 (max a.toInt b.toInt) := by
  unfold maxI
  split <;> rename_i h <;> rw [BitVec.slt_iff_toInt_lt] at h
  · rw [max_eq_right h.le, BitVec.ofInt_toInt]
  · rw [max_eq_left (not_lt.mp h), BitVec.ofInt_toInt]

theorem minN_eq_ofNat (a b : Word) : minN a b = BitVec.ofNat 32 (min a.toNat b.toNat) := by
  unfold minN
  split <;> rename_i h <;> rw [BitVec.lt_def] at h
  · rw [min_eq_left h.le, BitVec.ofNat_toNat, BitVec.setWidth_eq]
  · rw [min_eq_right (not_lt.mp h), BitVec.ofNat_toNat, BitVec.setWidth_eq]

theorem maxN_eq_ofNat (a b : Word) : maxN a b = BitVec.ofNat 32 (max a.toNat b.toNat) := by
  unfold maxN
  split <;> rename_i h <;> rw [BitVec.lt_def] at h
  · rw [max_eq_right h.le, BitVec.ofNat_toNat, BitVec.setWidth_eq]
  · rw [max_eq_left (not_lt.mp h), BitVec.ofNat_toNat, BitVec.setWidth_eq]

/-- Bits 63:32 of a number of 64 bits are those of its quotient by 2^32. -/
theorem extract_high_eq_ofInt (x : DWord) : x.extractLsb' 32 32 = BitVec.ofInt 32 (x.toInt / 2 ^ 32) := by
  apply BitVec.eq_of_toNat_eq
  rw [BitVec.extractLsb'_toNat, BitVec.toNat_ofInt, BitVec.toInt_eq_toNat_cond, Nat.shiftRight_eq_div_pow]
  split <;> omega

theorem mulhI_eq_ofInt (a b : Word) : mulhI a b = BitVec.ofInt 32 (a.toInt * b.toInt / 2 ^ 32) := by
  have hmul : (a.signExtend 64 * b.signExtend 64).toInt = a.toInt * b.toInt := by
    rw [BitVec.toInt_mul, BitVec.toInt_signExtend_of_le (by decide), BitVec.toInt_signExtend_of_le (by decide)]
    have hlow : -2 ^ 62 ≤ a.toInt * b.toInt := BitVec.le_toInt_mul_toInt
    have hhigh : a.toInt * b.toInt ≤ 2 ^ 62 := BitVec.toInt_mul_toInt_le
    exact Int.bmod_eq_of_le (by omega) (by omega)
  rw [mulhI, extract_high_eq_ofInt, hmul]

theorem mulhN_eq_ofNat (a b : Word) : mulhN a b = BitVec.ofNat 32 (a.toNat * b.toNat / 2 ^ 32) := by
  have hmul : (a.setWidth 64 * b.setWidth 64).toNat = a.toNat * b.toNat := by
    have hlt : a.toNat * b.toNat < 2 ^ 32 * 2 ^ 32 := Nat.mul_lt_mul'' a.isLt b.isLt
    rw [BitVec.toNat_mul, BitVec.toNat_setWidth_of_le (by decide), BitVec.toNat_setWidth_of_le (by decide)]
    exact Nat.mod_eq_of_lt hlt
  apply BitVec.eq_of_toNat_eq
  rw [mulhN, BitVec.extractLsb'_toNat, hmul, Nat.shiftRight_eq_div_pow, BitVec.toNat_ofNat]

theorem boolWord_eq_ite (b : Bool) (p : Prop) [Decidable p] (h : b = true ↔ p) : boolWord b = if p then 1 else 0 := by
  simp [boolWord, h]

namespace State

/-! ## A word that waits (R72) -/

section
variable (s : State) (h : Hold)

theorem held_vgroup : (s.held h).vgroup = s.vgroup ∨ (s.held h).vgroup =
    { s.vgroup with splits := s.vgroup.splits.set s.cur.split { s.vsplit with hold := some h } } := by
  cases hs : s.snap with
  | none =>
      right
      have hheld : (s.held h).snap = none := hs
      rw [split_of_none hs, vgroup_of_none hheld, vgroup_of_none hs]
      exact setSplit_group ..
  | some k => left; simp only [vgroup, held, setSplit_snap, hs]

theorem held_vsys : (s.held h).vsys = s.vsys := by
  unfold vsys
  rfl

theorem held_active : (s.held h).active = s.active := by
  have hcur : (s.held h).cur = s.cur := rfl
  unfold active vsplit
  rcases held_vgroup s h with hg | hg <;> rw [hg, hcur]
  simp only [Group.splitAt, Table.get_set_self]
  rfl

@[simp] theorem held_readS (r : SReg) : (s.held h).readS r = s.readS r := by
  have hs : (s.held h).vgroup.s = s.vgroup.s := by rcases held_vgroup s h with hg | hg <;> rw [hg]
  unfold readS
  rw [held_vsys, held_active, hs]
  rfl

theorem held_split : (s.held h).split = { s.split with hold := some h } := setSplit_split ..

/-- A word that waits has no effect. -/
theorem held_waits : (s.held h).last = .held ∧ (s.held h).blocks = s.blocks ∧ (s.held h).spad = s.spad ∧
    (∀ r, (s.held h).readS r = s.readS r) ∧ (s.held h).split.pc = s.split.pc ∧ (s.held h).split.word = s.split.word := by
  rw [held_split]
  exact ⟨rfl, rfl, rfl, held_readS s h, rfl, rfl⟩

end

/-! ## Words with channel operands (R72, R97, R309 to R313) -/

theorem channelsOpen_iff {s : State} {d : SDst} {srcs : List SSrc} :
    s.ChannelsOpen d srcs ↔ (srcs.all s.srcOpen && s.dstOpen d) = true := by
  simp [ChannelsOpen]

section
variable {s : State} {d : SDst} {srcs : List SSrc} {f : List Word → Word}

theorem scalarWord_closed (ho : ¬ s.ChannelsOpen d srcs) : s.scalarWord d srcs f = s.fault .permission 0 none := by
  rw [channelsOpen_iff, Bool.not_eq_true] at ho
  simp [scalarWord, ho]

theorem scalarWord_waits (ho : s.ChannelsOpen d srcs) (hr : ¬ ∀ a ∈ srcs, s.srcReady a = true) :
    s.scalarWord d srcs f = s.heldFor (s.emptyChans srcs) := by
  rw [channelsOpen_iff] at ho
  rw [← List.all_eq_true, Bool.not_eq_true] at hr
  simp only [scalarWord, ho, hr]
  rfl

/-- A word whose sources are ready delivers, or pushes. -/
theorem scalarWord_push {c : Chan} (ho : s.ChannelsOpen (.chan c) srcs) (hr : ∀ a ∈ srcs, s.srcReady a = true) :
    s.scalarWord (.chan c) srcs f =
      if f (srcs.map s.srcValue) = 0xFFFFFFFF then s.fault .permission 0 none
      else if !s.dstReady (.chan c) (srcs.map SSrc.popped) then s.heldFor [(c.toNat, true)]
      else s.afterRelease fun t => (srcs.foldl srcTake t).deliverTo (.chan c) (f (srcs.map s.srcValue)) := by
  rw [channelsOpen_iff] at ho
  rw [← List.all_eq_true] at hr
  simp only [scalarWord, ho, hr]
  rfl

/-- What channel operands do to a word whose effect is `scalarWord`. -/
theorem channelRules_of_scalarWord {i : Instr} {x : Word} (hexec : exec i s = s.issue i fun t => t.scalarWord d srcs f)
    (hx : f (srcs.map s.srcValue) = x) : ChannelRules i s d srcs x := by
  intro hi
  rw [hexec, issue_eq hi]
  subst hx
  refine ⟨fun ho => ?_, ?_, fun ho hw => ?_, ?_⟩
  · rw [scalarWord_closed ho]
  · rintro ho hr ⟨c, rfl⟩ hx
    rw [scalarWord_push ho hr, if_pos hx]
  · by_cases hr : ∀ a ∈ srcs, s.srcReady a = true
    · obtain ⟨⟨c, rfl⟩, hx, hroom⟩ := hw.resolve_left (not_not_intro hr)
      rw [scalarWord_push ho hr, if_neg hx, hroom]
      exact ⟨_, rfl, held_waits ..⟩
    · rw [scalarWord_waits ho hr]
      exact ⟨_, rfl, held_waits ..⟩
  · rintro ho hr ⟨c, rfl⟩ hx hroom
    rw [scalarWord_push ho hr, if_neg hx, hroom]
    rfl

theorem channelRules_of_scalar2 {i : Instr} {a b : SSrc} {x : Word} (g : Word → Word → Word)
    (hexec : exec i s = s.issue i fun t => t.scalar2 d a b g) (hx : g (s.srcValue a) (s.srcValue b) = x) :
    ChannelRules i s d [a, b] x :=
  channelRules_of_scalarWord hexec hx

end

/-- R97: each word of SALU with the value it gives. -/
theorem salu_channelRules (s : State) (d : SDst) (a b : SSrc) :
    ∀ w ∈ saluForms, ChannelRules (w.1 d a b) s d [a, b] (w.2 (s.srcValue a) (s.srcValue b)) := by
  simp only [saluForms, List.forall_mem_cons]
  refine ⟨?_, ?_, ?_, ?_, ?_, ?_, ?_, ?_, ?_, ?_, ?_, ?_, ?_, ?_, ?_, ?_, ?_, ?_, ?_, ?_⟩
  · exact channelRules_of_scalar2 _ (exec_add ..) (add_eq_ofNat ..)
  · exact channelRules_of_scalar2 _ (exec_sub ..) (sub_eq_ofInt ..)
  · exact channelRules_of_scalar2 _ (exec_and ..) rfl
  · exact channelRules_of_scalar2 _ (exec_or ..) rfl
  · exact channelRules_of_scalar2 _ (exec_xor ..) rfl
  · exact channelRules_of_scalar2 _ (exec_shl ..) (shl_eq_ofNat ..)
  · exact channelRules_of_scalar2 _ (exec_shrN ..) (shrN_eq_ofNat ..)
  · exact channelRules_of_scalar2 _ (exec_shrI ..) (shrI_eq_ofInt ..)
  · exact channelRules_of_scalar2 _ (exec_minI ..) (minI_eq_ofInt ..)
  · exact channelRules_of_scalar2 _ (exec_maxI ..) (maxI_eq_ofInt ..)
  · exact channelRules_of_scalar2 _ (exec_minN ..) (minN_eq_ofNat ..)
  · exact channelRules_of_scalar2 _ (exec_maxN ..) (maxN_eq_ofNat ..)
  · exact channelRules_of_scalar2 _ (exec_mul ..) (mul_eq_ofNat ..)
  · exact channelRules_of_scalar2 _ (exec_mulhI ..) (mulhI_eq_ofInt ..)
  · exact channelRules_of_scalar2 _ (exec_mulhN ..) (mulhN_eq_ofNat ..)
  · exact channelRules_of_scalar2 _ (exec_cmpEq ..) (boolWord_eq_ite _ _ beq_iff_eq)
  · exact channelRules_of_scalar2 _ (exec_cmpNe ..) (boolWord_eq_ite _ _ bne_iff_ne)
  · exact channelRules_of_scalar2 _ (exec_cmpLtI ..) (boolWord_eq_ite _ _ BitVec.slt_iff_toInt_lt)
  · exact channelRules_of_scalar2 _ (exec_cmpLtN ..) (boolWord_eq_ite _ _ BitVec.ult_iff_lt)
  · simp

/-! ## Relays (R310, R311) -/

@[simp] theorem setBlock_block (s : State) (b : Block) : (s.setBlock b).block = b := by
  have hgroup : (s.setBlock b).group = s.group := rfl
  rw [block, hgroup, setBlock, blockAt_setBlockAt]

@[simp] theorem setRelay_relayNow (s : State) (c : Nat) (r : Relay) : (s.setRelay c r).relayNow c = r := by
  rw [relayNow, setRelay, setBlock_block]
  exact Table.get_set_self ..

theorem relayNow_of_none {s : State} (h : s.snap = none) (c : Nat) : s.relayNow c = s.vrelay c := by
  simp only [relayNow, vrelay, vblock_of_none h, Table.get]
  cases s.block.relays.at? c <;> rfl

theorem relayOf_block {s : State} (h : s.snap = none) (c : Nat) : s.relayOf s.group.block c = s.vrelay c := by
  simp only [relayOf, vrelay, vblock_of_none h]
  rfl

section
variable {s : State} {core off n : Nat} {bytes : List Byte} {push : Bool}
  (h : (s.clusterAt (clusterOf core)).entries = [])
include h

/-- A write of a scratchpad that no matrix operation reads stores its bytes as they are (R255). -/
theorem padWrite_spad : (s.padWrite core off bytes push n).spad = s.spad.setBytes (padKey core off) bytes := by
  unfold padWrite
  simp only [h, List.filter_nil, List.isEmpty_nil, if_true, List.foldl_nil]
  split <;> split <;> rfl

theorem padWrite_group : (s.padWrite core off bytes push n).group = s.group := by
  unfold padWrite
  simp only [h, List.filter_nil, List.isEmpty_nil, if_true, List.foldl_nil]
  split <;> split <;> rfl

theorem padWrite_now : (s.padWrite core off bytes push n).now = s.now := by
  unfold padWrite
  simp only [h, List.filter_nil, List.isEmpty_nil, if_true, List.foldl_nil]
  split <;> split <;> rfl

end

section
variable {s : State} {id : Nat} (c : Nat) (x : Word) (h : (s.clusterAt (clusterOf (s.blockAt id).core)).entries = [])
include h

theorem pushBaton_group : (s.pushBaton id c x).group = s.group := padWrite_group h

/-- A baton enters its relay behind those that the relay holds (R310). -/
theorem pushBaton_relays : ((s.pushBaton id c x).blockAt id).relays =
    ((s.padWrite (s.blockAt id).core (ringOffset (s.blockAt id) (s.relayOf id c) ((s.relayOf id c).head + (s.relayOf id c).filled))
      (toBytes 4 x.toNat) true s.nextId).blockAt id).relays.set c (Relay.marked (s.relayOf id c).pushed s.now) := by
  unfold pushBaton
  rw [blockAt_setBlockAt, padWrite_now h]

/-- The baton stands in the ring at the entry behind those that the relay holds (R310). -/
theorem pushBaton_read : (s.pushBaton id c x).spad.read (padKey (s.blockAt id).core
    (ringOffset (s.blockAt id) (s.relayOf id c) ((s.relayOf id c).head + (s.relayOf id c).filled))) 4 = x.toNat := by
  unfold pushBaton
  rw [setBlockAt_spad, padWrite_spad h]
  exact (Memory.read_write_self ..).trans (Nat.mod_eq_of_lt x.isLt)

end

section
variable {s : State} (hs : s.snap = none) (c : Nat)
include hs

/-- What a pop leaves of its relay (R310). -/
theorem popRelay_relayNow : (s.popRelay c).relayNow c = Relay.marked (s.vrelay c).popped s.now := by
  rw [popRelay, setRelay_relayNow, relayNow_of_none hs]

variable {x : Word} (hc : (s.clusterAt (clusterOf s.block.core)).entries = [])
include hc

/-- What a group's push leaves of its relay (R310). -/
theorem pushRelay_relayNow : (s.pushRelay c x).relayNow c = Relay.marked (s.vrelay c).pushed s.now := by
  rw [pushRelay, relayNow, block, pushBaton_group c x hc, pushBaton_relays c x hc, Table.get_set_self, relayOf_block hs]

theorem pushRelay_read : (s.pushRelay c x).spad.read
    (padKey s.block.core (ringOffset s.block (s.vrelay c) ((s.vrelay c).head + (s.vrelay c).filled))) 4 = x.toNat := by
  rw [← relayOf_block hs]
  exact pushBaton_read c x hc

end

/-! ## The words of chapter 14 with a channel operand -/

theorem srcTake_pop_of_due {s : State} {c : Chan} (h : s.shrinkDue c.toNat = true) : s.srcTake (.pop c) = s := by
  simp [srcTake, h]

theorem srcTake_pop {s : State} {c : Chan} (h : s.shrinkDue c.toNat = false) : s.srcTake (.pop c) = s.popRelay c.toNat := by
  simp [srcTake, h]

theorem srcValue_pop_of_due {s : State} {c : Chan} (h : s.shrinkDue c.toNat = true) : s.srcValue (.pop c) = 0xFFFFFFFF := by
  simp [srcValue, h]

theorem srcValue_pop {s : State} {c : Chan} (h : s.shrinkDue c.toNat = false) : s.srcValue (.pop c) = s.headBaton c.toNat := by
  simp [srcValue, h]

end State

end Sys2Proof.Machine

open Sys2Proof Sys2Proof.Machine Sys2Proof.Machine.State

/-- Settles O5: the words are `scalarWord` at their operands (`channelRules_of_scalarWord`), a pop leaves the relay
`Relay.popped` and a push `Relay.pushed`, with the baton in the ring. -/
theorem channelOperands : Obligations.ChannelOperands := by
  refine ⟨fun s d a b imm r c => ⟨salu_channelRules s d a b, ?_, ?_, ?_, ?_⟩, fun s c hs => ⟨fun hdue => ?_, fun hdue => ?_, rfl, rfl⟩,
    fun s c x hs hc => ?_⟩
  · exact channelRules_of_scalarWord (exec_movi ..) rfl
  · exact channelRules_of_scalarWord (exec_rpush ..) rfl
  · exact channelRules_of_scalarWord (exec_rpop ..) rfl
  · exact channelRules_of_scalarWord (exec_rpop ..) rfl
  · exact ⟨srcValue_pop_of_due hdue, srcTake_pop_of_due hdue⟩
  · simp only [srcTake_pop hdue, popRelay_relayNow hs]
    exact ⟨srcValue_pop hdue, rfl, rfl, rfl⟩
  · simp only [pushRelay_relayNow hs c hc]
    exact ⟨rfl, rfl, rfl, pushRelay_read hs c hc⟩
end

section
/-!
O39: the frame of the words that only write registers (R85, R89, R91, R93, R146, R148, R167, R208).
-/

set_option Elab.async false

namespace Sys2Proof.Machine

/-! ## What register words keep -/

/-- What of a group no register word writes. -/
def Group.fixed (g : Group) : Group := { g with s := [], v := [], p := [], fpc := 0, fps := 0, tensor := 0, splits := [] }

/-- An outstanding operation without the marks of R85. -/
def Pending.unmarked (p : Pending) : Pending := { p with spoiled := [], spoiledPreds := [] }

/-- The rest of a group without the marks of R85. -/
def GroupSys.unmarked (g : GroupSys) : GroupSys := { g with ld := g.ld.map Pending.unmarked, tm := g.tm.map Pending.unmarked }

/-- A block without its counters of R208. -/
def Block.uncounted (b : Block) : Block := { b with stats := [] }

/-- What of a state no register word writes. -/
def State.fixed (s : State) : State := { s with groups := [], sys := [], blocks := [], snap := none, tick := 0, last := .idle }

theorem Group.with_fixed {g h : Group} (hf : h.fixed = g.fixed) :
    { h with s := g.s, v := g.v, p := g.p, fpc := g.fpc, fps := g.fps, tensor := g.tensor, splits := g.splits } = g :=
  congrArg (fun k : Group => { k with s := g.s, v := g.v, p := g.p, fpc := g.fpc, fps := g.fps, tensor := g.tensor, splits := g.splits }) hf

theorem GroupSys.with_unmarked {g h : GroupSys} (hf : h.unmarked = g.unmarked) : { h with ld := g.ld, tm := g.tm } = g :=
  congrArg (fun k : GroupSys => { k with ld := g.ld, tm := g.tm }) hf

theorem Block.with_uncounted {b c : Block} (hf : c.uncounted = b.uncounted) : { c with stats := b.stats } = b :=
  congrArg (fun k : Block => { k with stats := b.stats }) hf

theorem State.with_fixed {s t : State} (hf : t.fixed = s.fixed) :
    { t with groups := s.groups, sys := s.sys, blocks := s.blocks, snap := s.snap, tick := s.tick, last := s.last } = s :=
  congrArg (fun u : State => { u with groups := s.groups, sys := s.sys, blocks := s.blocks, snap := s.snap, tick := s.tick, last := s.last }) hf

@[simp] theorem Pending.unmarked_spoilV (r : Nat) (m : LaneMask) (p : Pending) : (p.spoilV r m).unmarked = p.unmarked := rfl
@[simp] theorem Pending.unmarked_spoilP (r : Nat) (m : LaneMask) (p : Pending) : (p.spoilP r m).unmarked = p.unmarked := rfl
@[simp] theorem Pending.unmarked_spoilS (r : Nat) (p : Pending) : (p.spoilS r).unmarked = p.unmarked := by
  unfold Pending.spoilS; split <;> rfl

/-- What a word may write: its destinations, the lanes of its vectors, whether it may raise flags and count. -/
structure Writes where
  dests : List Reg
  lanes : LaneMask
  raises : Prop
  counts : Prop

/-- A group whose issuing split is `n`, as a register word may leave it. -/
structure GroupFrame (x : Writes) (n : Nat) (g h : Group) : Prop where
  scalars : ∀ r, Reg.s r ∉ x.dests → h.s.get r 0 = g.s.get r 0
  vectors : ∀ r, Reg.v r ∉ x.dests → h.v.at? r = g.v.at? r
  lanes : ∀ r l, l < 96 → x.lanes.getLsbD l = false → (State.vectorOf h r).lane l = (State.vectorOf g r).lane l
  preds : ∀ r, Reg.p r ∉ x.dests ∨ r = 7 → h.p.get r 0 = g.p.get r 0
  fpc : Reg.special 8 ∉ x.dests → h.fpc = g.fpc
  tensor : Reg.special 11 ∉ x.dests → h.tensor = g.tensor
  flags : Reg.special 9 ∉ x.dests → ∃ f, h.fps = g.fps ||| f ∧ (¬ x.raises → f = 0)
  fixed : h.fixed = g.fixed
  splits : ∀ m, m ≠ n → h.splits.at? m = g.splits.at? m
  record : (h.splitAt n).record = (g.splitAt n).record
  handler : (h.splitAt n).handler = (g.splitAt n).handler
  mask : (∀ k, 61 ≤ k → Reg.s k ∉ x.dests) → (h.splitAt n).mask = (g.splitAt n).mask

theorem vectorOf_set_self (g : Group) (r : Nat) (w : LaneWords) : State.vectorOf { g with v := g.v.set r w } r = w := by
  simp [State.vectorOf]

theorem vectorOf_set_of_ne (g : Group) {q r : Nat} (w : LaneWords) (h : q ≠ r) :
    State.vectorOf { g with v := g.v.set r w } q = State.vectorOf g q := by
  simp [State.vectorOf, h]

namespace GroupFrame

variable {x : Writes} {n : Nat} {g h k : Group}

theorem refl (g : Group) : GroupFrame x n g g where
  scalars _ _ := rfl
  vectors _ _ := rfl
  lanes _ _ _ _ := rfl
  preds _ _ := rfl
  fpc _ := rfl
  tensor _ := rfl
  flags _ := ⟨0, by simp, fun _ => rfl⟩
  fixed := rfl
  splits _ _ := rfl
  record := rfl
  handler := rfl
  mask _ := rfl

theorem trans (a : GroupFrame x n g h) (b : GroupFrame x n h k) : GroupFrame x n g k where
  scalars r hr := (b.scalars r hr).trans (a.scalars r hr)
  vectors r hr := (b.vectors r hr).trans (a.vectors r hr)
  lanes r l hl hx := (b.lanes r l hl hx).trans (a.lanes r l hl hx)
  preds r hr := (b.preds r hr).trans (a.preds r hr)
  fpc hx := (b.fpc hx).trans (a.fpc hx)
  tensor hx := (b.tensor hx).trans (a.tensor hx)
  flags hx := by
    obtain ⟨e, he, he'⟩ := a.flags hx
    obtain ⟨f, hf, hf'⟩ := b.flags hx
    exact ⟨e ||| f, by rw [hf, he, BitVec.or_assoc], fun hx => by rw [he' hx, hf' hx]; rfl⟩
  fixed := b.fixed.trans a.fixed
  splits m hm := (b.splits m hm).trans (a.splits m hm)
  record := b.record.trans a.record
  handler := b.handler.trans a.handler
  mask hx := (b.mask hx).trans (a.mask hx)

theorem setS {r : Nat} (w : Word) (hr : Reg.s r ∈ x.dests) : GroupFrame x n g { g with s := g.s.set r w } :=
  { refl (n := n) g with scalars := fun _ hq => Table.get_set_of_ne _ _ _ fun e => hq (e ▸ hr) }

theorem setV {r : Nat} {m : LaneMask} (f : Nat → Word) (hr : Reg.v r ∈ x.dests)
    (hm : ∀ l, x.lanes.getLsbD l = false → m.getLsbD l = false) : GroupFrame x n g
      { g with v := g.v.set r (LaneWords.ofFn fun l => if m.getLsbD l then f l else (State.vectorOf g r).lane l) } :=
  { refl (n := n) g with
    vectors := fun _ hq => Table.at?_set_of_ne _ _ fun e => hq (e ▸ hr)
    lanes := fun q l hl hx => by
      by_cases hq : q = r
      · rw [hq, vectorOf_set_self, LaneWords.lane_ofFn _ hl, hm l hx]
        rfl
      · rw [vectorOf_set_of_ne _ _ hq] }

theorem setP {r : Nat} (m : LaneMask) (hr : Reg.p r ∈ x.dests) (h7 : r ≠ 7) : GroupFrame x n g { g with p := g.p.set r m } :=
  { refl (n := n) g with preds := fun _ hq => Table.get_set_of_ne _ _ _ fun e => hq.elim (fun hq => hq (e ▸ hr)) fun hq => h7 (e ▸ hq) }

theorem setFpc (f : BitVec 3) (hr : Reg.special 8 ∈ x.dests) : GroupFrame x n g { g with fpc := f } :=
  { refl (n := n) g with fpc := fun hx => absurd hr hx }

theorem setFps (f : BitVec 5) (hr : Reg.special 9 ∈ x.dests) : GroupFrame x n g { g with fps := f } :=
  { refl (n := n) g with flags := fun hx => absurd hr hx }

theorem setTensor (f : BitVec 8) (hr : Reg.special 11 ∈ x.dests) : GroupFrame x n g { g with tensor := f } :=
  { refl (n := n) g with tensor := fun hx => absurd hr hx }

theorem orFps (f : BitVec 5) (hr : x.raises) : GroupFrame x n g { g with fps := g.fps ||| f } :=
  { refl (n := n) g with flags := fun _ => ⟨f, rfl, fun hx => absurd hr hx⟩ }

theorem setSplit {y : Split} (hrecord : y.record = (g.splitAt n).record) (hhandler : y.handler = (g.splitAt n).handler)
    (hmask : y.mask = (g.splitAt n).mask) : GroupFrame x n g { g with splits := g.splits.set n y } := by
  have hy : ({ g with splits := g.splits.set n y } : Group).splitAt n = y := Table.get_set_self _ _ _ Split.none
  exact { refl (n := n) g with
    splits := fun m hm => Table.at?_set_of_ne _ _ hm
    record := by rw [hy, hrecord]
    handler := by rw [hy, hhandler]
    mask := fun _ => by rw [hy, hmask] }

/-- A mask written under R91, where a register of the mask is a destination. -/
theorem setMask (m : LaneMask) (hr : ∃ k, 61 ≤ k ∧ Reg.s k ∈ x.dests) : GroupFrame x n g { g with
    splits := g.splits.mapVal fun j y => if j = n then { y with mask := m &&& (g.dormant ||| y.mask) } else y } := by
  refine { refl (n := n) g with splits := fun j hj => ?_, record := ?_, handler := ?_, mask := fun hx => ?_ }
  · simp only [Table.at?_mapVal, if_neg hj, Option.map_id']
  · simp only [Group.splitAt, Table.get, Table.at?_mapVal]
    cases g.splits.at? n <;> simp
  · simp only [Group.splitAt, Table.get, Table.at?_mapVal]
    cases g.splits.at? n <;> simp
  · obtain ⟨k, hk, hmem⟩ := hr
    exact absurd hmem (hx k hk)

end GroupFrame

/-- A state as a register word may leave it. -/
structure Frame (x : Writes) (s t : State) : Prop where
  group : GroupFrame x s.cur.split s.group t.group
  gsys : t.gsys.unmarked = s.gsys.unmarked
  groupAt : ∀ k, k ≠ s.gkey → t.groupAt k = s.groupAt k
  sysAt : ∀ k, k ≠ s.gkey → t.sysAt k = s.sysAt k
  blockAt : ∀ b, (t.blockAt b).uncounted = (s.blockAt b).uncounted
  blocks : ¬ x.counts → t.blocks = s.blocks
  fixed : t.fixed = s.fixed

namespace Frame

variable {x : Writes} {s t u : State}

theorem cur (h : Frame x s t) : t.cur = s.cur := by
  have hcur := congrArg State.cur h.fixed
  exact hcur

theorem gkey (h : Frame x s t) : t.gkey = s.gkey := by rw [State.gkey, h.cur]; rfl

theorem refl (s : State) : Frame x s s where
  group := .refl _
  gsys := rfl
  groupAt _ _ := rfl
  sysAt _ _ := rfl
  blockAt _ := rfl
  blocks _ := rfl
  fixed := rfl

theorem trans (a : Frame x s t) (b : Frame x t u) : Frame x s u where
  group := a.group.trans (a.cur ▸ b.group)
  gsys := b.gsys.trans a.gsys
  groupAt k hk := (b.groupAt k (by rwa [a.gkey])).trans (a.groupAt k hk)
  sysAt k hk := (b.sysAt k (by rwa [a.gkey])).trans (a.sysAt k hk)
  blockAt k := (b.blockAt k).trans (a.blockAt k)
  blocks hx := (b.blocks hx).trans (a.blocks hx)
  fixed := b.fixed.trans a.fixed

theorem setGroup {g : Group} (h : GroupFrame x s.cur.split s.group g) : Frame x s (s.setGroup g) :=
  { refl s with
    group := by rw [State.setGroup_group]; exact h
    groupAt := fun k hk => State.groupAt_setGroupAt_of_ne _ _ hk }

theorem setSys {g : GroupSys} (h : g.unmarked = s.gsys.unmarked) : Frame x s (s.setSys g) :=
  { refl s with
    gsys := by rw [State.setSys_gsys]; exact h
    sysAt := fun k hk => State.sysAt_setSysAt_of_ne _ _ hk }

theorem spoilS (r : Nat) : Frame x s (s.spoilS r) := by
  unfold State.spoilS
  split
  · exact setSys (by simp [GroupSys.unmarked, Function.comp_def])
  · exact refl s

theorem spoilV (r : Nat) (m : LaneMask) : Frame x s (s.spoilV r m) := by
  unfold State.spoilV
  split
  · exact refl s
  · exact setSys (by simp [GroupSys.unmarked, Function.comp_def])

theorem spoilP (r : Nat) (m : LaneMask) : Frame x s (s.spoilP r m) := by
  unfold State.spoilP
  split
  · exact refl s
  · exact setSys (by simp [GroupSys.unmarked, Function.comp_def])

theorem setMask (m : LaneMask) (hr : ∃ k, 61 ≤ k ∧ Reg.s k ∈ x.dests) : Frame x s (s.setMask m) := setGroup (.setMask m hr)

theorem writeS {r : SReg} (w : Word) (hr : Reg.s r.toNat ∈ x.dests) : Frame x s (s.writeS r w) := by
  unfold State.writeS
  split
  · exact (spoilS _).trans (setGroup (by rw [State.spoilS_group]; exact .setS w hr))
  · exact setMask _ ⟨r.toNat, by omega, hr⟩

theorem writeLanes {m : LaneMask} {r : VReg} (f : Nat → Word) (hr : Reg.v r.toNat ∈ x.dests)
    (hm : ∀ l, x.lanes.getLsbD l = false → m.getLsbD l = false) : Frame x s (s.writeLanes m r f) :=
  (spoilV _ _).trans (setGroup (by rw [State.spoilV_group]; exact .setV f hr hm))

theorem writePLanes (m : LaneMask) {p : PReg} (f : Nat → Bool) (hr : Reg.p p.toNat ∈ x.dests) : Frame x s (s.writePLanes m p f) := by
  unfold State.writePLanes
  split
  · exact refl s
  · next hp =>
      have h7 : p.toNat ≠ 7 := fun h => hp (BitVec.eq_of_toNat_eq h)
      exact (spoilP _ _).trans (setGroup (by rw [State.spoilP_group]; exact .setP _ hr h7))

theorem setSnap (k : Option Snap) : Frame x s { s with snap := k } := { refl s with }

theorem raiseFlags (f : BitVec 5) (hr : x.raises) : Frame x s (s.raiseFlags f) := by
  have h : Frame x s (s.setGroup { s.group with fps := s.group.fps ||| f }) := setGroup (.orFps f hr)
  unfold State.raiseFlags
  dsimp only
  split
  · exact h.trans (setSnap _)
  · exact h

theorem addStat (tensor : BitVec 8) (c : Option Stat) (hx : x.counts) : Frame x s (s.addStat tensor c) := by
  unfold State.addStat
  split
  · exact refl s
  · exact { refl s with
      blockAt := fun b => by
        by_cases hb : b = s.group.block
        · subst hb
          rw [State.setBlock, State.blockAt_setBlockAt]
          rfl
        · rw [State.setBlock, State.blockAt_setBlockAt_of_ne _ _ hb]
      blocks := fun hn => absurd hx hn }

theorem foldl {α : Type} {f : State → α → State} {l : List α} (h : ∀ t, ∀ a ∈ l, Frame x t (f t a)) : Frame x s (l.foldl f s) := by
  induction l generalizing s with
  | nil => exact refl s
  | cons a l ih => exact (h s a List.mem_cons_self).trans (ih fun t b hb => h t b (List.mem_cons_of_mem _ hb))

theorem done (h : Frame x s t) : Frame x s t.done := by
  have hlast : Frame x t { t with tick := t.tick + 1, last := .done } := { refl t with }
  refine h.trans ?_
  unfold State.done
  dsimp only
  split
  · exact hlast
  · refine hlast.trans (setGroup (.setSplit ?_ ?_ ?_)) <;> unfold State.issued State.nextWord <;> split <;> rfl

end Frame

/-! ## Words that a fault or a wait ends are not done -/

namespace State

theorem deliver_last_ne_done (s : State) (cls : FaultClass) (sub : Nat) (addr : DWord) (lane : Option Nat) (pc w : Nat)
    (earg : Vector DWord 6) : (s.deliver cls sub addr lane pc w earg).last ≠ .done := by
  unfold deliver
  split
  · exact Last.noConfusion
  · split <;> exact Last.noConfusion

theorem fault_last_ne_done (s : State) (cls : FaultClass) (addr : DWord) (lane : Option Nat) : (s.fault cls addr lane).last ≠ .done := by
  apply deliver_last_ne_done

theorem stopped_last_ne_done {s t : State} {f : Facts} (h : s.stopped f = some t) : t.last ≠ .done := by
  unfold stopped at h
  split at h
  · cases h
    apply deliver_last_ne_done
  · split at h
    · cases h
      apply fault_last_ne_done
    · split at h
      · cases h
        exact Last.noConfusion
      · cases h

end State

theorem lowerCause_ne_none (c : Option Cause) (x : Cause) : lowerCause c (some x) ≠ none := by cases c <;> simp [lowerCause]

/-- A word that nothing stops carries no violation in itself (R87). -/
theorem State.staticCause_of_stopped {s : State} {i : Instr} (h : s.stopped i.facts = none) : staticCause i = none := by
  have hcause : s.causeOf i.facts = none := by
    unfold stopped at h
    split at h
    · cases h
    · assumption
  unfold causeOf at hcause
  split at hcause
  · cases hcause
  · by_contra hne
    obtain ⟨c, hc⟩ := Option.ne_none_iff_exists'.mp hne
    have hfacts : i.facts.cause = some c := hc
    rw [hfacts] at hcause
    simp only [List.foldl_cons, List.foldl_nil] at hcause
    repeat' split at hcause
    all_goals simp_all [lowerCause_ne_none]

/-! ## Register words, by their effects -/

/-- The majors whose words may raise flags (R167). -/
def Raises (major : Nat) : Prop := 0x19 ≤ major ∧ major ≤ 0x20 ∨ major = 0x22

/-- The majors whose words count conversions (R208). -/
def Counts (major : Nat) : Prop := major = 0x1F ∨ major = 0x20

/-- What an instruction of a major may write on a state. -/
def writesOf (i : Instr) (s : State) (major : Nat) : Writes :=
  { dests := i.dests, lanes := s.active, raises := Raises major, counts := Counts major }

/-- The frame of a word without channels, wherever it takes effect. -/
def Framed (i : Instr) : Prop := ∀ (s t : State) (w : Word), i.facts.chans = [] → encode false i = some w →
  exec i s = .next t → t.last = .done → Frame (writesOf i s (w.extractLsb' 25 6).toNat) s t

theorem framed_of_issue {i : Instr} {e : State → State} (hexec : ∀ s, exec i s = s.issue i e)
    (h : ∀ s w, i.facts.chans = [] → encode false i = some w → staticCause i = none → (e s).last = .done →
      Frame (writesOf i s (w.extractLsb' 25 6).toNat) s (e s)) : Framed i := by
  intro s t w hchans hw ht hlast
  rw [hexec] at ht
  obtain rfl := Host.Outcome.next.inj ht
  cases hs : s.stopped i.facts with
  | some u => rw [hs] at hlast; exact absurd hlast (State.stopped_last_ne_done hs)
  | none =>
      rw [hs] at hlast
      exact h s w hchans hw (State.staticCause_of_stopped hs) hlast

theorem toNat_even_of_oddReg {n : Nat} {r : BitVec n} (h : oddReg r = false) : r.toNat % 2 = 0 := by
  have hbit : r.toNat.testBit 0 = false := h
  simpa [Nat.testBit_zero] using hbit

theorem vreg_succ_of_even {r : VReg} (h : oddReg r = false) : (r + 1).toNat = r.toNat + 1 := by
  have := toNat_even_of_oddReg h
  bv_omega

theorem sreg_succ_of_even {r : SReg} (h : oddReg r = false) : (r + 1).toNat = r.toNat + 1 := by
  have := toNat_even_of_oddReg h
  bv_omega

theorem head_of_firstCause {a : Bool} {c : Cause} {l : List (Bool × Cause)} (h : firstCause ((a, c) :: l) = none) : a = false := by
  cases a
  · rfl
  · cases h

theorem mem_regsV {r : VReg} {n k : Nat} (h : k < n) : Reg.v (r.toNat + k) ∈ regsV r n := List.mem_map.mpr ⟨k, List.mem_range.mpr h, rfl⟩

theorem mem_regsS {r : SReg} {n k : Nat} (h : k < n) : Reg.s (r.toNat + k) ∈ regsS r n := List.mem_map.mpr ⟨k, List.mem_range.mpr h, rfl⟩

namespace State

theorem setGroup_active {s : State} {g : Group} (h : g.splits = s.group.splits) : (s.setGroup g).active = s.active := by
  have hsplit : ∀ k : Group, k.splits = s.group.splits → k.splitAt s.cur.split = s.group.splitAt s.cur.split := fun k hk => by
    rw [Group.splitAt, hk]; rfl
  cases hs : s.snap with
  | none =>
      rw [active, active, vsplit, vsplit, vgroup_of_none hs, vgroup_of_none (by simpa using hs), setGroup_group]
      exact congrArg Split.mask (hsplit g h)
  | some k => simp only [active, vsplit, vgroup, setGroup_snap, hs, setGroup_cur]

theorem spoilV_active (s : State) (r : Nat) (m : LaneMask) : (s.spoilV r m).active = s.active := by
  unfold active vsplit vgroup
  simp

theorem writeV_active (s : State) (r : VReg) (f : Nat → Word) : (s.writeV r f).active = s.active := by
  have h : (s.spoilV r.toNat s.active).group = s.group := spoilV_group ..
  unfold writeV writeLanes
  exact (setGroup_active (by rw [h])).trans (spoilV_active ..)

end State

theorem Frame.writeV {x : Writes} {s : State} {d : VReg} (f : Nat → Word) (hd : Reg.v d.toNat ∈ x.dests)
    (hx : x.lanes = s.active) : Frame x s (s.writeV d f) :=
  .writeLanes f hd fun _ h => hx ▸ h

theorem Frame.writeVPair {x : Writes} {s : State} {d : VReg} (f : Nat → DWord) (hd : Reg.v d.toNat ∈ x.dests)
    (hd' : Reg.v (d + 1).toNat ∈ x.dests) (hx : x.lanes = s.active) : Frame x s (s.writeVPair d f) :=
  (Frame.writeV _ hd hx).trans (.writeV _ hd' (hx.trans (State.writeV_active ..).symm))

theorem Frame.writePair {x : Writes} {s : State} {d : SReg} (w : DWord) (hd : Reg.s d.toNat ∈ x.dests)
    (hd' : Reg.s (d + 1).toNat ∈ x.dests) : Frame x s (s.writePair d w) :=
  (Frame.writeS _ hd).trans (.writeS _ hd')

theorem major_of_encode {i : Instr} {w : Word} {m : BitVec 6} {n : Nat} {b : BitVec n} (hi : encode false i = some (wordOf false m b))
    (hw : encode false i = some w) : (w.extractLsb' 25 6).toNat = m.toNat := by
  obtain rfl := Option.some.inj (hi.symm.trans hw)
  rw [wordOf_major]

section
variable {i : Instr}

theorem framed_writeV {d : VReg} {f : State → Nat → Word} (hexec : ∀ s, exec i s = s.issue i fun s => (s.writeV d (f s)).done)
    (hd : i.dests = regsV d 1) : Framed i :=
  framed_of_issue hexec fun s w _ _ _ _ => by
    have hmem : Reg.v d.toNat ∈ i.dests := hd ▸ mem_regsV Nat.one_pos
    exact .done (.writeV _ hmem rfl)

theorem framed_writeVPair {d : VReg} {f : State → Nat → DWord} (hexec : ∀ s, exec i s = s.issue i fun s => (s.writeVPair d (f s)).done)
    (hd : i.dests = regsV d 2) (heven : staticCause i = none → oddReg d = false) : Framed i :=
  framed_of_issue hexec fun s w _ _ hc _ => by
    have hlow : Reg.v d.toNat ∈ i.dests := hd ▸ mem_regsV Nat.two_pos
    have hhigh : Reg.v (d + 1).toNat ∈ i.dests := vreg_succ_of_even (heven hc) ▸ hd ▸ mem_regsV Nat.one_lt_two
    exact .done (.writeVPair _ hlow hhigh rfl)

theorem framed_writeS {d : SReg} {f : State → Word} (hexec : ∀ s, exec i s = s.issue i fun s => (s.writeS d (f s)).done)
    (hd : i.dests = regsS d 1) : Framed i :=
  framed_of_issue hexec fun s w _ _ _ _ => by
    have hmem : Reg.s d.toNat ∈ i.dests := hd ▸ mem_regsS Nat.one_pos
    exact .done (.writeS _ hmem)

theorem framed_writePair {d : SReg} {f : State → DWord} (hexec : ∀ s, exec i s = s.issue i fun s => (s.writePair d (f s)).done)
    (hd : i.dests = regsS d 2) (heven : staticCause i = none → oddReg d = false) : Framed i :=
  framed_of_issue hexec fun s w _ _ hc _ => by
    have hlow : Reg.s d.toNat ∈ i.dests := hd ▸ mem_regsS Nat.two_pos
    have hhigh : Reg.s (d + 1).toNat ∈ i.dests := sreg_succ_of_even (heven hc) ▸ hd ▸ mem_regsS Nat.one_lt_two
    exact .done (.writePair _ hlow hhigh)

theorem framed_writePLanes {d : PReg} {m : State → LaneMask} {f : State → Nat → Bool}
    (hexec : ∀ s, exec i s = s.issue i fun s => (s.writePLanes (m s) d (f s)).done) (hd : i.dests = regP d) : Framed i :=
  framed_of_issue hexec fun s w _ _ _ _ => by
    have hmem : Reg.p d.toNat ∈ i.dests := hd ▸ List.mem_singleton.mpr rfl
    exact .done (.writePLanes _ _ hmem)

theorem framed_floatWord {d : VReg} {f : State → Nat → Nat × Flags} {m : BitVec 6} {n : Nat} {b : BitVec n}
    (hexec : ∀ s, exec i s = s.issue i fun s => s.floatWord d (f s)) (hd : i.dests = regsV d 1)
    (hi : encode false i = some (wordOf false m b)) (hm : Raises m.toNat) : Framed i :=
  framed_of_issue hexec fun s w _ hw _ _ => by
    have hmem : Reg.v d.toNat ∈ i.dests := hd ▸ mem_regsV Nat.one_pos
    have hraises : Raises (w.extractLsb' 25 6).toNat := major_of_encode hi hw ▸ hm
    exact .done ((Frame.writeV _ hmem rfl).trans (.raiseFlags _ hraises))

theorem framed_floatPair {d : VReg} {f : State → Nat → Nat × Flags} {m : BitVec 6} {n : Nat} {b : BitVec n}
    (hexec : ∀ s, exec i s = s.issue i fun s => s.floatPair d (f s)) (hd : i.dests = regsV d 2)
    (heven : staticCause i = none → oddReg d = false)
    (hi : encode false i = some (wordOf false m b)) (hm : Raises m.toNat) : Framed i :=
  framed_of_issue hexec fun s w _ hw hc _ => by
    have hlow : Reg.v d.toNat ∈ i.dests := hd ▸ mem_regsV Nat.two_pos
    have hhigh : Reg.v (d + 1).toNat ∈ i.dests := vreg_succ_of_even (heven hc) ▸ hd ▸ mem_regsV Nat.one_lt_two
    have hraises : Raises (w.extractLsb' 25 6).toNat := major_of_encode hi hw ▸ hm
    exact .done ((Frame.writeVPair _ hlow hhigh rfl).trans (.raiseFlags _ hraises))

end

/-! ## The words with an effect of their own -/

theorem regAfter_toNat {r : VReg} {k : Nat} (h : r.toNat + k < 128) : (regAfter r k).toNat = r.toNat + k := by
  unfold regAfter
  rw [BitVec.toNat_add, BitVec.toNat_ofNat]
  omega

theorem State.countStats_active (s : State) (c : Nat → Converted) : (s.countStats c).active = s.active := by
  refine foldl_proj State.active (fun t l => ?_) _ s
  unfold State.addStat
  split <;> rfl

theorem Frame.countStats {x : Writes} {s : State} (c : Nat → Converted) (hx : x.counts) : Frame x s (s.countStats c) :=
  .foldl fun _ _ _ => .addStat _ _ hx

/-- A result of a format, in a register or a pair. -/
theorem Frame.writeFormat {x : Writes} {s : State} {f : Fmt} {d : VReg} (c : Nat → Nat) (hd : ∀ r ∈ regsV d f.regs, r ∈ x.dests)
    (heven : f.wide = true → oddReg d = false) (hx : x.lanes = s.active) : Frame x s (s.writeFormat f d c) := by
  unfold State.writeFormat
  split
  · next hw =>
      have hregs : f.regs = 2 := if_pos hw
      rw [hregs] at hd
      exact .writeVPair _ (hd _ (mem_regsV Nat.two_pos)) (hd _ (vreg_succ_of_even (heven hw) ▸ mem_regsV Nat.one_lt_two)) hx
  · next hw =>
      have hregs : f.regs = 1 := if_neg hw
      rw [hregs] at hd
      exact .writeV _ (hd _ (mem_regsV Nat.one_pos)) hx

/-- Words without channels whose operands have the scalar forms. -/
theorem scalarForm_of_chans {d : SDst} {srcs : List SSrc} (h : dstChan d ++ srcs.flatMap srcChan = []) :
    (∃ r, d = .reg r) ∧ ∀ a ∈ srcs, ∃ r, a = .reg r := by
  obtain ⟨hd, hs⟩ := List.append_eq_nil_iff.mp h
  constructor
  · cases d with
    | reg r => exact ⟨r, rfl⟩
    | chan c => cases hd
  · intro a ha
    have hnil := List.flatMap_eq_nil_iff.mp hs a ha
    cases a with
    | reg r => exact ⟨r, rfl⟩
    | peek c => cases hnil
    | pop c => cases hnil

section
variable {i : Instr}

theorem framed_scalarWord {d : SDst} {srcs : List SSrc} {f : List Word → Word}
    (hexec : ∀ s, exec i s = s.issue i fun s => s.scalarWord d srcs f) (hd : i.dests = regD d)
    (hchans : i.chans = dstChan d ++ srcs.flatMap srcChan) : Framed i :=
  framed_of_issue hexec fun s w hnone _ _ hlast => by
    have hempty : i.chans = [] := hnone
    obtain ⟨⟨r, rfl⟩, hsrcs⟩ := scalarForm_of_chans (hchans ▸ hempty)
    have htake : srcs.foldl State.srcTake s = s := foldl_eq_self fun a ha => by
      obtain ⟨q, rfl⟩ := hsrcs a ha
      rfl
    have hmem : Reg.s r.toNat ∈ i.dests := hd ▸ mem_regsS (r := r) Nat.one_pos
    unfold State.scalarWord at hlast ⊢
    split at hlast
    · exact absurd hlast (by apply State.fault_last_ne_done)
    · split at hlast
      · exact absurd hlast Last.noConfusion
      · next hopen hready =>
          simp only [hopen, hready, htake, Bool.false_eq_true, if_false]
          exact .done (.writeS _ hmem)

theorem framed_convertWord {inf : Bool} {d a : VReg} {dst src : Fmt} {rnd : Rnd} {m : BitVec 6} {n : Nat} {b : BitVec n}
    (hexec : ∀ s, exec i s = s.issue i fun s => s.convertWord inf d a dst src rnd) (hd : i.dests = regsV d dst.regs)
    (heven : staticCause i = none → badConvertRegs d a dst src rnd = false)
    (hi : encode false i = some (wordOf false m b)) (hm : Counts m.toNat) : Framed i :=
  framed_of_issue hexec fun s w _ hw hc _ => by
    have hmajor := major_of_encode hi hw
    have hcounts : Counts (w.extractLsb' 25 6).toNat := hmajor ▸ hm
    have hraises : Raises (w.extractLsb' 25 6).toNat := by
      unfold Raises
      unfold Counts at hcounts
      omega
    have hodd : dst.wide = true → oddReg d = false := fun hwide => by
      have hbad := heven hc
      simp only [badConvertRegs, hwide, Bool.true_and, Bool.or_eq_false_iff] at hbad
      exact hbad.1.1
    exact .done (((Frame.countStats _ hcounts).trans
      (.writeFormat _ (hd ▸ fun r hr => hr : ∀ r ∈ regsV d dst.regs, r ∈ i.dests) hodd (State.countStats_active ..).symm)).trans (.raiseFlags _ hraises))

theorem framed_unpackWord {n w : Nat} {sx : Bool} {d a : VReg} (hexec : ∀ s, exec i s = s.issue i fun s => s.unpackWord n w sx d a)
    (hd : i.dests = regsV d n) (hrange : staticCause i = none → d.toNat + n ≤ 128) : Framed i :=
  framed_of_issue hexec fun s _ _ _ hc _ =>
    .done (.foldl fun t k hk => .writeLanes _ (by
      have hk' := List.mem_range.mp hk
      have hmem : Reg.v (d.toNat + k) ∈ i.dests := hd ▸ mem_regsV hk'
      rwa [← regAfter_toNat (by have := hrange hc; omega)] at hmem) fun _ h => h)

theorem framed_shuffle {k : Shuffle} {d a : VReg} {p : PReg} {sub : SubWidth}
    (hexec : ∀ s, exec i s = s.issue i fun s => s.shuffle k d a p sub) (hd : i.dests = regsV d 1 ++ regP p) : Framed i :=
  framed_of_issue hexec fun s w _ _ _ _ => by
    have hv : Reg.v d.toNat ∈ i.dests := hd ▸ List.mem_append_left _ (mem_regsV Nat.one_pos)
    have hp : Reg.p p.toNat ∈ i.dests := hd ▸ List.mem_append_right _ (List.mem_singleton.mpr rfl)
    exact .done ((Frame.writeV _ hv rfl).trans (.writePLanes _ _ hp))

theorem framed_setTensor {f : State → BitVec 8}
    (hexec : ∀ s, exec i s = s.issue i fun s => (s.setGroup { s.group with tensor := f s }).done)
    (hd : i.dests = [.special 11]) : Framed i :=
  framed_of_issue hexec fun s w _ _ _ _ => by
    have hmem : Reg.special 11 ∈ i.dests := hd ▸ List.mem_singleton.mpr rfl
    exact .done (.setGroup (.setTensor _ hmem))

end

theorem framed_mtop (a : PReg) : Framed (.mtop a) :=
  framed_of_issue (fun s => exec_mtop a s) fun _ _ _ _ _ _ => .done (.setMask _ ⟨61, le_rfl, List.mem_cons_self⟩)

theorem framed_ballot (d : SReg) (a : PReg) : Framed (.ballot d a) :=
  framed_of_issue (fun s => exec_ballot d a s) fun s w _ _ hc _ => by
    have hrange : d.toNat ≤ 58 := by
      have := head_of_firstCause hc
      simpa using this
    have h0 : Reg.s d.toNat ∈ regsS d 3 := mem_regsS (k := 0) (by decide)
    have h1 : Reg.s (d + 1).toNat ∈ regsS d 3 := by
      have hto : (d + 1).toNat = d.toNat + 1 := by bv_omega
      exact hto ▸ mem_regsS (by decide)
    have h2 : Reg.s (d + 2).toNat ∈ regsS d 3 := by
      have hto : (d + 2).toNat = d.toNat + 2 := by bv_omega
      exact hto ▸ mem_regsS (by decide)
    exact .done (((Frame.writeS _ h0).trans (.writeS _ h1)).trans (.writeS _ h2))

theorem framed_vfcmp (d : PReg) (a b : VReg) (cc : FloatCond) (ty : FloatType) : Framed (.vfcmp d a b cc ty) :=
  framed_of_issue (fun s => exec_vfcmp d a b cc ty s) fun s w _ hw _ _ => by
    have hmem : Reg.p d.toNat ∈ (writesOf (.vfcmp d a b cc ty) s (w.extractLsb' 25 6).toNat).dests := List.mem_singleton.mpr rfl
    have hmajor : Raises (w.extractLsb' 25 6).toNat := by
      rw [major_of_encode (m := 0x1E) rfl hw]
      exact Or.inl (by decide)
    exact .done ((Frame.writePLanes _ _ hmem).trans (.raiseFlags _ hmajor))

theorem framed_srd (d : SReg) (special : BitVec 10) : Framed (.srd d special) :=
  framed_of_issue (fun s => exec_srd d special s) fun s w _ _ hc hlast => by
    have hdests : (writesOf (.srd d special) s (w.extractLsb' 25 6).toNat).dests =
      if 0x100 ≤ special.toNat then regsV (d.setWidth 7) 1 else regsS d (if special.toNat = 6 then 2 else 1) := rfl
    split at hlast
    · next h =>
        rw [if_pos h] at hdests ⊢
        exact .done (.writeV _ (hdests ▸ mem_regsV Nat.one_pos) rfl)
    · next h =>
        rw [if_neg h] at hdests ⊢
        split at hlast
        · next h6 =>
            rw [if_pos h6] at hdests ⊢
            have hodd : oddReg d = false := by
              have := head_of_firstCause hc
              simpa [h6] using this
            exact .done (.writePair _ (hdests ▸ mem_regsS Nat.two_pos) (hdests ▸ sreg_succ_of_even hodd ▸ mem_regsS Nat.one_lt_two))
        · next h6 =>
            rw [if_neg h6] at hdests ⊢
            split at hlast
            · exact absurd hlast Last.noConfusion
            · next h9 =>
                rw [if_neg h9]
                exact .done (.writeS _ (hdests ▸ mem_regsS Nat.one_pos))

theorem framed_swr (a : SReg) (special : BitVec 10) : Framed (.swr a special) :=
  framed_of_issue (fun s => exec_swr a special s) fun s w _ _ hc hlast => by
    have hmem : Reg.special special.toNat ∈ (writesOf (.swr a special) s (w.extractLsb' 25 6).toNat).dests := List.mem_singleton.mpr rfl
    have hspecial : special.toNat = 8 ∨ special.toNat = 9 := by
      have := head_of_firstCause hc
      simpa [specialWritable, or_iff_not_imp_left] using this
    dsimp only at hlast ⊢
    split at hlast
    · next h8 =>
        rw [if_pos h8]
        exact .done (.setGroup (.setFpc _ (h8 ▸ hmem)))
    · next h8 =>
        rw [if_neg h8]
        split at hlast
        · exact absurd hlast Last.noConfusion
        · next ho =>
            rw [if_neg ho]
            exact .done (.setGroup (.setFps _ (hspecial.resolve_left h8 ▸ hmem)))

theorem even_of_pair {n : Nat} {d : BitVec n} {y : Bool} {c : Cause} (h : firstCause [(oddReg d || y, c)] = none) : oddReg d = false :=
  (Bool.or_eq_false_iff.mp (head_of_firstCause h)).1

theorem even_of_triple {n : Nat} {d : BitVec n} {y z : Bool} {c : Cause} (h : firstCause [(oddReg d || y || z, c)] = none) :
    oddReg d = false :=
  (Bool.or_eq_false_iff.mp (Bool.or_eq_false_iff.mp (head_of_firstCause h)).1).1

theorem range_of_firstCause {d : VReg} {top n : Nat} {c : Cause} (hn : top + n ≤ 128)
    (h : firstCause [(decide (top < d.toNat), c)] = none) : d.toNat + n ≤ 128 := by
  have := head_of_firstCause h
  simp only [decide_eq_false_iff_not, not_lt] at this
  omega

/-- The words of the classes S, V and X that only write registers. -/
def writesRegisters (i : Instr) : Bool :=
  (i.pipe == .s || i.pipe == .v || i.pipe == .x) && !i.control && !i.isSys && match i with
    | .wait _ _ _ _ => false
    | _ => true

/-- Each word by the form of its effect. -/
theorem framed_of_writesRegisters (i : Instr) (h : writesRegisters i = true) : Framed i := by
  cases i
  case add d a b => exact framed_scalarWord (fun s => exec_add ..) rfl (by simp [Instr.chans])
  case sub d a b => exact framed_scalarWord (fun s => exec_sub ..) rfl (by simp [Instr.chans])
  case and d a b => exact framed_scalarWord (fun s => exec_and ..) rfl (by simp [Instr.chans])
  case or d a b => exact framed_scalarWord (fun s => exec_or ..) rfl (by simp [Instr.chans])
  case xor d a b => exact framed_scalarWord (fun s => exec_xor ..) rfl (by simp [Instr.chans])
  case shl d a b => exact framed_scalarWord (fun s => exec_shl ..) rfl (by simp [Instr.chans])
  case shrN d a b => exact framed_scalarWord (fun s => exec_shrN ..) rfl (by simp [Instr.chans])
  case shrI d a b => exact framed_scalarWord (fun s => exec_shrI ..) rfl (by simp [Instr.chans])
  case minI d a b => exact framed_scalarWord (fun s => exec_minI ..) rfl (by simp [Instr.chans])
  case maxI d a b => exact framed_scalarWord (fun s => exec_maxI ..) rfl (by simp [Instr.chans])
  case minN d a b => exact framed_scalarWord (fun s => exec_minN ..) rfl (by simp [Instr.chans])
  case maxN d a b => exact framed_scalarWord (fun s => exec_maxN ..) rfl (by simp [Instr.chans])
  case mul d a b => exact framed_scalarWord (fun s => exec_mul ..) rfl (by simp [Instr.chans])
  case mulhI d a b => exact framed_scalarWord (fun s => exec_mulhI ..) rfl (by simp [Instr.chans])
  case mulhN d a b => exact framed_scalarWord (fun s => exec_mulhN ..) rfl (by simp [Instr.chans])
  case cmpEq d a b => exact framed_scalarWord (fun s => exec_cmpEq ..) rfl (by simp [Instr.chans])
  case cmpNe d a b => exact framed_scalarWord (fun s => exec_cmpNe ..) rfl (by simp [Instr.chans])
  case cmpLtI d a b => exact framed_scalarWord (fun s => exec_cmpLtI ..) rfl (by simp [Instr.chans])
  case cmpLtN d a b => exact framed_scalarWord (fun s => exec_cmpLtN ..) rfl (by simp [Instr.chans])
  case add64 d a b => exact framed_writePair (fun s => exec_add64 ..) rfl even_of_triple
  case sub64 d a b => exact framed_writePair (fun s => exec_sub64 ..) rfl even_of_triple
  case shl64 d a b => exact framed_writePair (fun s => exec_shl64 ..) rfl even_of_pair
  case shr64N d a b => exact framed_writePair (fun s => exec_shr64N ..) rfl even_of_pair
  case movi d imm => exact framed_scalarWord (fun s => exec_movi ..) rfl (by simp [Instr.chans])
  case movh d imm => exact framed_writeS (fun s => exec_movh ..) rfl
  case addi d imm => exact framed_writeS (fun s => exec_addi ..) rfl
  case andi d imm => exact framed_writeS (fun s => exec_andi ..) rfl
  case ori d imm => exact framed_writeS (fun s => exec_ori ..) rfl
  case xori d imm => exact framed_writeS (fun s => exec_xori ..) rfl
  case cmpiEq d imm => exact framed_writeS (fun s => exec_cmpiEq ..) rfl
  case cmpiLtI d imm => exact framed_writeS (fun s => exec_cmpiLtI ..) rfl
  case srd d special => exact framed_srd _ _
  case swr a special => exact framed_swr _ _
  case mfromp d => exact framed_writePLanes (fun s => exec_mfromp ..) rfl
  case mtop a => exact framed_mtop _
  case vaddI32 d a b => exact framed_writeV (fun s => exec_vaddI32 ..) rfl
  case vsubI32 d a b => exact framed_writeV (fun s => exec_vsubI32 ..) rfl
  case vmulI32 d a b => exact framed_writeV (fun s => exec_vmulI32 ..) rfl
  case vmulhI32 d a b => exact framed_writeV (fun s => exec_vmulhI32 ..) rfl
  case vmulhN32 d a b => exact framed_writeV (fun s => exec_vmulhN32 ..) rfl
  case vminI32 d a b => exact framed_writeV (fun s => exec_vminI32 ..) rfl
  case vmaxI32 d a b => exact framed_writeV (fun s => exec_vmaxI32 ..) rfl
  case vminN32 d a b => exact framed_writeV (fun s => exec_vminN32 ..) rfl
  case vmaxN32 d a b => exact framed_writeV (fun s => exec_vmaxN32 ..) rfl
  case vandB32 d a b => exact framed_writeV (fun s => exec_vandB32 ..) rfl
  case vorB32 d a b => exact framed_writeV (fun s => exec_vorB32 ..) rfl
  case vxorB32 d a b => exact framed_writeV (fun s => exec_vxorB32 ..) rfl
  case vshlB32 d a b => exact framed_writeV (fun s => exec_vshlB32 ..) rfl
  case vshrN32 d a b => exact framed_writeV (fun s => exec_vshrN32 ..) rfl
  case vshrI32 d a b => exact framed_writeV (fun s => exec_vshrI32 ..) rfl
  case vabsdI32 d a b => exact framed_writeV (fun s => exec_vabsdI32 ..) rfl
  case vaddsI32 d a b => exact framed_writeV (fun s => exec_vaddsI32 ..) rfl
  case vsubsI32 d a b => exact framed_writeV (fun s => exec_vsubsI32 ..) rfl
  case vaddsN32 d a b => exact framed_writeV (fun s => exec_vaddsN32 ..) rfl
  case vsubsN32 d a b => exact framed_writeV (fun s => exec_vsubsN32 ..) rfl
  case vbfeN32 d a b => exact framed_writeV (fun s => exec_vbfeN32 ..) rfl
  case vbfeI32 d a b => exact framed_writeV (fun s => exec_vbfeI32 ..) rfl
  case vbfiB32 d a b => exact framed_writeV (fun s => exec_vbfiB32 ..) rfl
  case vpopcB32 d a => exact framed_writeV (fun s => exec_vpopcB32 ..) rfl
  case vclzB32 d a => exact framed_writeV (fun s => exec_vclzB32 ..) rfl
  case vbrevB32 d a => exact framed_writeV (fun s => exec_vbrevB32 ..) rfl
  case vaddI64 d a b => exact framed_writeVPair (fun s => exec_vaddI64 ..) rfl even_of_triple
  case vsubI64 d a b => exact framed_writeVPair (fun s => exec_vsubI64 ..) rfl even_of_triple
  case vshlB64 d a b => exact framed_writeVPair (fun s => exec_vshlB64 ..) rfl even_of_pair
  case vshrN64 d a b => exact framed_writeVPair (fun s => exec_vshrN64 ..) rfl even_of_pair
  case vshrI64 d a b => exact framed_writeVPair (fun s => exec_vshrI64 ..) rfl even_of_pair
  case vaddI32Vi d a imm => exact framed_writeV (fun s => exec_vaddI32Vi ..) rfl
  case vandB32Vi d a imm => exact framed_writeV (fun s => exec_vandB32Vi ..) rfl
  case vshlB32Vi d a imm => exact framed_writeV (fun s => exec_vshlB32Vi ..) rfl
  case vshrN32Vi d a imm => exact framed_writeV (fun s => exec_vshrN32Vi ..) rfl
  case vaddI32Vs d a sr => exact framed_writeV (fun s => exec_vaddI32Vs ..) rfl
  case vsubI32Vs d a sr => exact framed_writeV (fun s => exec_vsubI32Vs ..) rfl
  case vmulI32Vs d a sr => exact framed_writeV (fun s => exec_vmulI32Vs ..) rfl
  case vmulhI32Vs d a sr => exact framed_writeV (fun s => exec_vmulhI32Vs ..) rfl
  case vmulhN32Vs d a sr => exact framed_writeV (fun s => exec_vmulhN32Vs ..) rfl
  case vminI32Vs d a sr => exact framed_writeV (fun s => exec_vminI32Vs ..) rfl
  case vmaxI32Vs d a sr => exact framed_writeV (fun s => exec_vmaxI32Vs ..) rfl
  case vminN32Vs d a sr => exact framed_writeV (fun s => exec_vminN32Vs ..) rfl
  case vmaxN32Vs d a sr => exact framed_writeV (fun s => exec_vmaxN32Vs ..) rfl
  case vandB32Vs d a sr => exact framed_writeV (fun s => exec_vandB32Vs ..) rfl
  case vorB32Vs d a sr => exact framed_writeV (fun s => exec_vorB32Vs ..) rfl
  case vxorB32Vs d a sr => exact framed_writeV (fun s => exec_vxorB32Vs ..) rfl
  case vshlB32Vs d a sr => exact framed_writeV (fun s => exec_vshlB32Vs ..) rfl
  case vshrN32Vs d a sr => exact framed_writeV (fun s => exec_vshrN32Vs ..) rfl
  case vshrI32Vs d a sr => exact framed_writeV (fun s => exec_vshrI32Vs ..) rfl
  case vabsdI32Vs d a sr => exact framed_writeV (fun s => exec_vabsdI32Vs ..) rfl
  case vaddsI32Vs d a sr => exact framed_writeV (fun s => exec_vaddsI32Vs ..) rfl
  case vsubsI32Vs d a sr => exact framed_writeV (fun s => exec_vsubsI32Vs ..) rfl
  case vaddsN32Vs d a sr => exact framed_writeV (fun s => exec_vaddsN32Vs ..) rfl
  case vsubsN32Vs d a sr => exact framed_writeV (fun s => exec_vsubsN32Vs ..) rfl
  case vbfeN32Vs d a sr => exact framed_writeV (fun s => exec_vbfeN32Vs ..) rfl
  case vbfeI32Vs d a sr => exact framed_writeV (fun s => exec_vbfeI32Vs ..) rfl
  case vbfiB32Vs d a sr => exact framed_writeV (fun s => exec_vbfiB32Vs ..) rfl
  case vaddI64Vs d a sr => exact framed_writeVPair (fun s => exec_vaddI64Vs ..) rfl even_of_triple
  case vsubI64Vs d a sr => exact framed_writeVPair (fun s => exec_vsubI64Vs ..) rfl even_of_triple
  case vshlB64Vs d a sr => exact framed_writeVPair (fun s => exec_vshlB64Vs ..) rfl even_of_pair
  case vshrN64Vs d a sr => exact framed_writeVPair (fun s => exec_vshrN64Vs ..) rfl even_of_pair
  case vshrI64Vs d a sr => exact framed_writeVPair (fun s => exec_vshrI64Vs ..) rfl even_of_pair
  case vbcastB32 d sr => exact framed_writeV (fun s => exec_vbcastB32 ..) rfl
  case vcmp d a b cc ty => exact framed_writePLanes (fun s => exec_vcmp ..) rfl
  case pand d a b => exact framed_writePLanes (fun s => exec_pand ..) rfl
  case por d a b => exact framed_writePLanes (fun s => exec_por ..) rfl
  case pxor d a b => exact framed_writePLanes (fun s => exec_pxor ..) rfl
  case pnot d a => exact framed_writePLanes (fun s => exec_pnot ..) rfl
  case pmov d a => exact framed_writePLanes (fun s => exec_pmov ..) rfl
  case vfromp d a => exact framed_writeV (fun s => exec_vfromp ..) rfl
  case vtop d a => exact framed_writePLanes (fun s => exec_vtop ..) rfl
  case vfaddF32 d a b => exact framed_floatWord (fun s => exec_vfaddF32 ..) rfl rfl (.inl (by decide))
  case vfsubF32 d a b => exact framed_floatWord (fun s => exec_vfsubF32 ..) rfl rfl (.inl (by decide))
  case vfmulF32 d a b => exact framed_floatWord (fun s => exec_vfmulF32 ..) rfl rfl (.inl (by decide))
  case vffmaF32 d a b => exact framed_floatWord (fun s => exec_vffmaF32 ..) rfl rfl (.inl (by decide))
  case vffnmaF32 d a b => exact framed_floatWord (fun s => exec_vffnmaF32 ..) rfl rfl (.inl (by decide))
  case vfminF32 d a b => exact framed_floatWord (fun s => exec_vfminF32 ..) rfl rfl (.inl (by decide))
  case vfmaxF32 d a b => exact framed_floatWord (fun s => exec_vfmaxF32 ..) rfl rfl (.inl (by decide))
  case vfabsF32 d a => exact framed_floatWord (fun s => exec_vfabsF32 ..) rfl rfl (.inl (by decide))
  case vfnegF32 d a => exact framed_floatWord (fun s => exec_vfnegF32 ..) rfl rfl (.inl (by decide))
  case vfcopysignF32 d a b => exact framed_floatWord (fun s => exec_vfcopysignF32 ..) rfl rfl (.inl (by decide))
  case vfrintF32 d a => exact framed_floatWord (fun s => exec_vfrintF32 ..) rfl rfl (.inl (by decide))
  case vfaddF64 d a b => exact framed_floatPair (fun s => exec_vfaddF64 ..) rfl even_of_triple rfl (.inl (by decide))
  case vfsubF64 d a b => exact framed_floatPair (fun s => exec_vfsubF64 ..) rfl even_of_triple rfl (.inl (by decide))
  case vfmulF64 d a b => exact framed_floatPair (fun s => exec_vfmulF64 ..) rfl even_of_triple rfl (.inl (by decide))
  case vffmaF64 d a b => exact framed_floatPair (fun s => exec_vffmaF64 ..) rfl even_of_triple rfl (.inl (by decide))
  case vffnmaF64 d a b => exact framed_floatPair (fun s => exec_vffnmaF64 ..) rfl even_of_triple rfl (.inl (by decide))
  case vfminF64 d a b => exact framed_floatPair (fun s => exec_vfminF64 ..) rfl even_of_triple rfl (.inl (by decide))
  case vfmaxF64 d a b => exact framed_floatPair (fun s => exec_vfmaxF64 ..) rfl even_of_triple rfl (.inl (by decide))
  case vfabsF64 d a => exact framed_floatPair (fun s => exec_vfabsF64 ..) rfl even_of_pair rfl (.inl (by decide))
  case vfnegF64 d a => exact framed_floatPair (fun s => exec_vfnegF64 ..) rfl even_of_pair rfl (.inl (by decide))
  case vfcopysignF64 d a b => exact framed_floatPair (fun s => exec_vfcopysignF64 ..) rfl even_of_triple rfl (.inl (by decide))
  case vfrintF64 d a => exact framed_floatPair (fun s => exec_vfrintF64 ..) rfl even_of_pair rfl (.inl (by decide))
  case vfaddBf16 d a b => exact framed_floatWord (fun s => exec_vfaddBf16 ..) rfl rfl (.inl (by decide))
  case vfsubBf16 d a b => exact framed_floatWord (fun s => exec_vfsubBf16 ..) rfl rfl (.inl (by decide))
  case vfmulBf16 d a b => exact framed_floatWord (fun s => exec_vfmulBf16 ..) rfl rfl (.inl (by decide))
  case vffmaBf16 d a b => exact framed_floatWord (fun s => exec_vffmaBf16 ..) rfl rfl (.inl (by decide))
  case vffnmaBf16 d a b => exact framed_floatWord (fun s => exec_vffnmaBf16 ..) rfl rfl (.inl (by decide))
  case vfminBf16 d a b => exact framed_floatWord (fun s => exec_vfminBf16 ..) rfl rfl (.inl (by decide))
  case vfmaxBf16 d a b => exact framed_floatWord (fun s => exec_vfmaxBf16 ..) rfl rfl (.inl (by decide))
  case vfabsBf16 d a => exact framed_floatWord (fun s => exec_vfabsBf16 ..) rfl rfl (.inl (by decide))
  case vfnegBf16 d a => exact framed_floatWord (fun s => exec_vfnegBf16 ..) rfl rfl (.inl (by decide))
  case vfcmp d a b cc ty => exact framed_vfcmp _ _ _ _ _
  case cvts d a dst src rnd => exact framed_convertWord (fun s => exec_cvts ..) rfl head_of_firstCause rfl (.inl rfl)
  case cvti d a dst src rnd => exact framed_convertWord (fun s => exec_cvti ..) rfl head_of_firstCause rfl (.inr rfl)
  case shflIdx d a p w => exact framed_shuffle (fun s => exec_shflIdx ..) rfl
  case shflUp d a p w => exact framed_shuffle (fun s => exec_shflUp ..) rfl
  case shflDown d a p w => exact framed_shuffle (fun s => exec_shflDown ..) rfl
  case shflXor d a p w => exact framed_shuffle (fun s => exec_shflXor ..) rfl
  case voteAny d a => exact framed_writeS (fun s => exec_voteAny ..) rfl
  case voteAll d a => exact framed_writeS (fun s => exec_voteAll ..) rfl
  case ballot d a => exact framed_ballot _ _
  case vscanIncl d a op w => exact framed_writeV (fun s => exec_vscanIncl ..) rfl
  case vscanExcl d a op w => exact framed_writeV (fun s => exec_vscanExcl ..) rfl
  case vred d a op => exact framed_writeS (fun s => exec_vred ..) rfl
  case vfdivF32 d a b => exact framed_floatWord (fun s => exec_vfdivF32 ..) rfl rfl (.inl (by decide))
  case vfsqrtF32 d a => exact framed_floatWord (fun s => exec_vfsqrtF32 ..) rfl rfl (.inl (by decide))
  case vfrcpF32 d a => exact framed_floatWord (fun s => exec_vfrcpF32 ..) rfl rfl (.inl (by decide))
  case vfrsqF32 d a => exact framed_floatWord (fun s => exec_vfrsqF32 ..) rfl rfl (.inl (by decide))
  case vfexp2F32 d a => exact framed_floatWord (fun s => exec_vfexp2F32 ..) rfl rfl (.inl (by decide))
  case vflog2F32 d a => exact framed_floatWord (fun s => exec_vflog2F32 ..) rfl rfl (.inl (by decide))
  case vfsinF32 d a => exact framed_floatWord (fun s => exec_vfsinF32 ..) rfl rfl (.inl (by decide))
  case vfcosF32 d a => exact framed_floatWord (fun s => exec_vfcosF32 ..) rfl rfl (.inl (by decide))
  case vftanhF32 d a => exact framed_floatWord (fun s => exec_vftanhF32 ..) rfl rfl (.inl (by decide))
  case vfdivF64 d a b => exact framed_floatPair (fun s => exec_vfdivF64 ..) rfl even_of_triple rfl (.inl (by decide))
  case vfsqrtF64 d a => exact framed_floatPair (fun s => exec_vfsqrtF64 ..) rfl even_of_pair rfl (.inl (by decide))
  case vfrcpF64 d a => exact framed_floatPair (fun s => exec_vfrcpF64 ..) rfl even_of_pair rfl (.inl (by decide))
  case vfrsqF64 d a => exact framed_floatPair (fun s => exec_vfrsqF64 ..) rfl even_of_pair rfl (.inl (by decide))
  case pack4 d a => exact framed_writeV (fun s => exec_pack4 ..) rfl
  case unpack4 d a sx => exact framed_unpackWord (fun s => exec_unpack4 ..) rfl (range_of_firstCause (by decide))
  case pack6 d a => exact framed_writeV (fun s => exec_pack6 ..) rfl
  case unpack6 d a sx => exact framed_unpackWord (fun s => exec_unpack6 ..) rfl (range_of_firstCause (by decide))
  case pack8 d a => exact framed_writeV (fun s => exec_pack8 ..) rfl
  case unpack8 d a sx => exact framed_unpackWord (fun s => exec_unpack8 ..) rfl (range_of_firstCause (by decide))
  case bscale d a fmt => exact framed_writeV (fun s => exec_bscale ..) rfl
  case scapplyMul d a b => exact framed_floatWord (fun s => exec_scapplyMul ..) rfl rfl (.inr rfl)
  case scapplyDiv d a b => exact framed_floatWord (fun s => exec_scapplyDiv ..) rfl rfl (.inr rfl)
  case compress d a fmt => exact framed_writeV (fun s => exec_compress ..) rfl
  case tidsetImm imm => exact framed_setTensor (fun s => exec_tidsetImm ..) rfl
  case tidsetReg a => exact framed_setTensor (fun s => exec_tidsetReg ..) rfl
  all_goals exact absurd h Bool.false_ne_true

theorem writesRegisters_of {i : Instr} (hpipe : i.pipe ∈ [Pipe.s, Pipe.v, Pipe.x]) (hcontrol : i.control = false)
    (hsys : i.isSys = false) (hwait : ∀ a b c d, i ≠ .wait a b c d) : writesRegisters i = true := by
  have hclass : (i.pipe == .s || i.pipe == .v || i.pipe == .x) = true := by
    simpa [or_assoc] using hpipe
  unfold writesRegisters
  rw [hclass, hcontrol, hsys]
  split
  · next a b c d => exact absurd rfl (hwait a b c d)
  · rfl

theorem and_or_self_left {n : Nat} (a b : BitVec n) : a &&& (a ||| b) = a := by
  ext j hj
  cases h : a[j] <;> simp [h]

theorem Frame.sameMemory {x : Writes} {s t : State} (h : Frame x s t) : s.SameMemory t := by
  have hmem := congrArg State.mem h.fixed
  have hspad := congrArg State.spad h.fixed
  have hacc := congrArg State.acc h.fixed
  exact .of_eq hmem hspad hacc

end Sys2Proof.Machine

open Sys2Proof Sys2Proof.Machine Sys2Proof.Machine.State

/-- Settles O39: every such word is a composition of register writes, each of which keeps the frame of its destinations
(`framed_of_writesRegisters`). -/
theorem registerFrame : Obligations.RegisterFrame := by
  unfold Obligations.RegisterFrame
  intro i s t w hpipe hcontrol hsys hchans hwait hw ht hlast
  have hframe := framed_of_writesRegisters i (writesRegisters_of hpipe hcontrol hsys hwait) s t w hchans hw ht hlast
  have hgroup := hframe.group
  refine ⟨hgroup.scalars, hgroup.vectors, hgroup.lanes, hgroup.preds, hgroup.fpc, hgroup.tensor, fun h9 => ?_,
    Group.with_fixed hgroup.fixed, hgroup.splits, ?_, ?_, ?_, GroupSys.with_unmarked hframe.gsys, congrArg GroupSys.ld hframe.gsys,
    congrArg GroupSys.tm hframe.gsys, fun k hk => ⟨hframe.groupAt k hk, hframe.sysAt k hk⟩,
    fun b => Block.with_uncounted (hframe.blockAt b), fun h1 h2 => hframe.blocks (not_or.mpr ⟨h1, h2⟩),
    State.with_fixed hframe.fixed, hframe.sameMemory⟩
  · obtain ⟨f, hf, hnone⟩ := hgroup.flags h9
    refine ⟨by rw [hf]; exact and_or_self_left _ f, fun h1 h2 => ?_⟩
    rw [hf, hnone (not_or.mpr ⟨h1, h2⟩)]
    exact BitVec.or_zero
  · rw [split, hframe.cur]
    exact hgroup.record
  · rw [split, hframe.cur]
    exact hgroup.handler
  · rw [split, hframe.cur]
    exact hgroup.mask
end

section
/-!
O49 fails: an operation that is counted off with failed lanes of a group that has ended is posted as an event of its context (R358), and
the record goes to a ring in memory (R357, R426), where the statement's clause on LTRY_EXPIRY has memory as it was.
-/

set_option Elab.async false

namespace Sys2Proof.Machine.State

/-- What an LTRY_EXPIRY answers where the LTRY's 1,024 clocks have passed and nothing holds it up (R281). -/
theorem exec_ltryExpiry_eq_next {s : State} {core slot : Nat} {p : Pending} {wide : Bool} {x : VReg} {pd : PReg}
    (hfind : findOp (s.sysAt (groupKey core slot)).ld p.id = some p) (hact : p.act = .latTry wide x pd) (hdue : p.issued + 1024 ≤ s.now)
    (hfree : (s.sysAt (groupKey core slot)).tryFree p = true) :
    exec (.ltryExpiry core slot p.id) s = .next { s.finishTry (groupKey core slot) p with
      cur := s.cur, tick := (s.finishTry (groupKey core slot) p).tick + 1 } := by
  rw [exec_ltryExpiry, execLtryExpiry, event]
  simp [hfind, hact, hdue, hfree]

end Sys2Proof.Machine.State

namespace Sys2Proof.Machine.EndedTry

open State

/-! ## An LTRY outstanding in a group that has ended

The module of `EndedAssertion`, with an LTRY of one lane outstanding in the place of the LSTA. Only an LSTA's lanes fail (R283), but the
clause on LTRY_EXPIRY, unlike that on TM_COMPLETION, does not ask that the operation carry no failed lane; this one carries one. -/

/-- The LTRY's one access: the cell that holds 50, type maxN32, threshold 9. -/
def cell : Access := { EndedAssertion.cell with data := 9 }

/-- The outstanding LTRY. -/
def operation : Pending :=
  { EndedAssertion.operation with act := .latTry false 8 1, accesses := [cell], failed := [(cell, 50)] }

/-- The module before the event, 1,024 clocks after the issue. -/
def start : State := { EndedAssertion.start with now := 1024, sys := [(0, { GroupSys.free with ld := [operation] })] }

/-! ## The hypotheses of the statement -/

theorem operation_alone : (start.sysAt 0).ld = [operation] := by decide

theorem operation_free : (start.sysAt 0).tryFree operation = true := by decide

theorem cell_is_narrow : (tryType cell).wide = false ∧ tryType cell ≠ .cnt8x32 := by decide

theorem cell_meets_no_error : start.hazardOf (start.blockAt (start.groupAt 0).block).context true cell = none := by decide

/-! ## What the expiry does -/

theorem firstEntry_before : start.mem.byte EndedAssertion.firstEntry = 0 := by decide

/-- The record of the group that has ended is posted: its KIND, 0x04, stands in the first entry (R356, R358). -/
theorem firstEntry_after : (start.finishTry 0 operation).mem.byte EndedAssertion.firstEntry = 4 := by decide

end Sys2Proof.Machine.EndedTry

open Sys2Proof Sys2Proof.Machine Sys2Proof.Machine.State Sys2Proof.Machine.EndedTry

/-- Refutes O49: its clause on LTRY_EXPIRY has memory as it was, whatever the failed lanes of the operation and the phase of the group.
Where the group has ended and the operation carries a failed lane, the record is posted as an event (R358) when the operation is
counted off, and the model writes it into the coherent window. -/
theorem not_coreEvents : ¬ Obligations.CoreEvents := by
  unfold Obligations.CoreEvents
  intro events
  obtain ⟨-, -, -, -, -, -, -, -, -, -, -, -, -, -, -, -, expiry, -⟩ := events start 0 0 0 rfl (by decide)
  obtain ⟨hnarrow, htype⟩ := cell_is_narrow
  obtain ⟨t, hexec, -, -, hmemory, -⟩ := expiry operation false 8 1 cell 0x10000 operation_alone rfl
    ⟨rfl, by simp [operation, EndedAssertion.operation]⟩ rfl le_rfl rfl rfl rfl (by decide) rfl rfl rfl (by decide) hnarrow rfl htype rfl
    cell_meets_no_error
  obtain rfl := Host.Outcome.next.inj
    ((exec_ltryExpiry_eq_next (core := 0) (slot := 0) (by decide) rfl le_rfl operation_free).symm.trans hexec)
  have hbyte : (start.finishTry 0 operation).mem.byte EndedAssertion.firstEntry = start.mem.byte EndedAssertion.firstEntry :=
    hmemory.1 EndedAssertion.firstEntry
  rw [firstEntry_before, firstEntry_after] at hbyte
  exact absurd hbyte (by decide)
end


section
/-!
O1, O2: what the registers read after a write (R67, R85, R89, R91, R146, R148).
-/

set_option Elab.async false

namespace Sys2Proof.Machine

/-! ## Lanes that a split or a record holds (R91) -/

/-- The lanes of a split and of its deferred record. -/
def Split.lanesHeld (x : Split) : LaneMask := x.mask ||| x.record.elim 0 fun r => r.2.2

theorem Split.lanesHeld_of_mask {x : Split} {l : Nat} (h : x.mask.getLsbD l = true) : x.lanesHeld.getLsbD l = true := by
  simp [lanesHeld, h]

theorem Split.lanesHeld_of_record {x : Split} {t : BitVec 20} {h : Bool} {q : LaneMask} {l : Nat} (hr : x.record = some (t, h, q))
    (hq : q.getLsbD l = true) : x.lanesHeld.getLsbD l = true := by
  simp [lanesHeld, hr, hq]

theorem Group.taken_eq (g : Group) : g.taken = g.splits.foldl (fun m e => m ||| e.2.lanesHeld) 0 := by
  have hstep : (fun (m : LaneMask) (e : Nat × Split) => m ||| e.2.mask ||| (match e.2.record with | some r => r.2.2 | none => 0)) =
      fun m e => m ||| e.2.lanesHeld := by
    funext m e
    rw [Split.lanesHeld, BitVec.or_assoc]
    cases e.2.record <;> rfl
  exact congrArg (fun f => g.splits.foldl f 0) hstep

/-- A lane that some split of a group holds is not dormant (R91). -/
theorem Group.taken_of_mem {g : Group} {e : Nat × Split} {l : Nat} (he : e ∈ g.splits) (hl : e.2.lanesHeld.getLsbD l = true) :
    g.taken.getLsbD l = true := by
  have hfold : ∀ (t : Table Split) (m : LaneMask), m.getLsbD l = true ∨ e ∈ t →
      (t.foldl (fun m e => m ||| e.2.lanesHeld) m).getLsbD l = true := by
    intro t
    induction t with
    | nil => intro m h; simpa using h
    | cons x t ih =>
        intro m h
        apply ih
        rcases h with h | h
        · left; simp [h]
        · rcases List.mem_cons.mp h with rfl | h
          · left; simp [hl]
          · exact .inr h
  rw [taken_eq]
  exact hfold _ _ (.inr he)

namespace State

/-! ## A chain reads what stood before it (R67) -/

/-- What a word of an open chain reads is settled by what the chain began with. -/
theorem readS_of_snap {s t : State} (hsnap : s.snap ≠ none) (h : t.snap = s.snap) (hcur : t.cur = s.cur) (htick : t.tick = s.tick)
    (r : SReg) : t.readS r = s.readS r := by
  obtain ⟨k, hk⟩ := Option.ne_none_iff_exists'.mp hsnap
  have hgroup : t.vgroup = s.vgroup := by simp only [vgroup, h, hk]
  have hsys : t.vsys = s.vsys := by simp only [vsys, h, hk]
  simp only [readS, active, vsplit, hgroup, hsys, hcur, htick]

/-! ## Registers outside a chain -/

section
variable {s : State} (h : s.snap = none)
include h

theorem readS_of_none (r : SReg) : s.readS r = if r.toNat < 61 then
    if s.gsys.busyS r.toNat then Config.undefined s.tick r.toNat else s.group.s.get r.toNat 0
  else s.split.mask.extractLsb' (32 * (r.toNat - 61)) 32 := by
  rw [readS, vsys_of_none h, vgroup_of_none h, active_of_none h]

theorem readV_of_none (r : VReg) (l : Nat) : s.readV r l =
    if (s.gsys.busyV r.toNat).getLsbD l then Config.undefined s.tick (64 + 96 * r.toNat + l) else (vectorOf s.group r.toNat).lane l := by
  rw [readV, vsys_of_none h, vgroup_of_none h]

/-- A lane of a predicate other than p7 (R148). -/
theorem readP_of_none {p : PReg} (hp : p ≠ 7) {l : Nat} (hl : l < 96) : (s.readP p).getLsbD l =
    if (s.gsys.busyP p.toNat).getLsbD l then (Config.undefined s.tick (16384 + 96 * p.toNat + l)).getLsbD 0
    else (s.group.p.get p.toNat 0).getLsbD l := by
  simp only [readP, if_neg hp, vsys_of_none h, vgroup_of_none h]
  split
  · next hz => simp [hz]
  · simp [hl]

end

/-- A word that changes neither predicates nor what they wait for leaves them as they read. -/
theorem readP_congr {s t : State} (h : s.snap = none) (ht : t.snap = none) (htick : t.tick = s.tick) {p : PReg}
    (hbusy : t.gsys.busyP p.toNat = s.gsys.busyP p.toNat) (hp : t.group.p.get p.toNat 0 = s.group.p.get p.toNat 0) :
    t.readP p = s.readP p := by
  simp only [readP, vsys_of_none h, vsys_of_none ht, vgroup_of_none h, vgroup_of_none ht, hbusy, hp, htick]

/-! ### After a scalar write (R89) -/

theorem readS_writeS_of_ne {s : State} (h : s.snap = none) {r q : SReg} (w : Word) (hr : r.toNat < 61) (hq : q ≠ r) :
    (s.writeS r w).readS q = s.readS q := by
  have hne : q.toNat ≠ r.toNat := fun e => hq (BitVec.eq_of_toNat_eq e)
  have hsplit : (s.writeS r w).split = s.split := by rw [split, writeS_group _ _ hr, writeS_cur]; rfl
  rw [readS_of_none h, readS_of_none (by simpa using h), hsplit, writeS_group _ _ hr, writeS_gsys _ _ hr, spoilS_busyS, writeS_tick]
  simp only [Table.get_set_of_ne _ _ _ hne]

/-- s0 to s60 are one register for all splits (R89). -/
theorem readS_writeS_self {s : State} (h : s.snap = none) {r : SReg} (w : Word) (n : Nat) (hr : r.toNat < 61)
    (hbusy : s.gsys.busyS r.toNat = false) : { s.writeS r w with cur := { s.cur with split := n } }.readS r = w := by
  have hgkey : (s.writeS r w).gkey = s.gkey := by rw [gkey, writeS_cur]; rfl
  have hgroup : ({ s.writeS r w with cur := { s.cur with split := n } } : State).group = (s.writeS r w).group := by
    rw [group, group, hgkey]; rfl
  have hsys : ({ s.writeS r w with cur := { s.cur with split := n } } : State).gsys = (s.writeS r w).gsys := by
    rw [gsys, gsys, hgkey]; rfl
  rw [readS_of_none (by simpa using h), hgroup, hsys, writeS_group _ _ hr, writeS_gsys _ _ hr, spoilS_busyS, hbusy]
  simp [hr]

/-! ### After a vector write (R146) -/

section
variable {s : State} (h : s.snap = none) (r : VReg) (f : Nat → Word)
include h

theorem readV_writeV_self {l : Nat} (hl : l < 96) : (s.writeV r f).readV r l =
    if (s.gsys.busyV r.toNat).getLsbD l then Config.undefined s.tick (64 + 96 * r.toNat + l)
    else if s.active.getLsbD l then f l else (vectorOf s.group r.toNat).lane l := by
  rw [readV_of_none (by simpa using h), writeV, writeLanes_group, writeLanes_gsys, writeLanes_tick, spoilV_busyV, vectorOf_set_self,
    LaneWords.lane_ofFn _ hl]

theorem readV_writeV_of_ne {q : VReg} (l : Nat) (hq : q ≠ r) : (s.writeV r f).readV q l = s.readV q l := by
  have hne : q.toNat ≠ r.toNat := fun e => hq (BitVec.eq_of_toNat_eq e)
  rw [readV_of_none h, readV_of_none (by simpa using h), writeV, writeLanes_group, writeLanes_gsys, writeLanes_tick, spoilV_busyV,
    vectorOf_set_of_ne _ _ hne]

theorem readS_writeV (q : SReg) : (s.writeV r f).readS q = s.readS q := by
  have hsplit : (s.writeV r f).split = s.split := by rw [writeV, split, writeLanes_group, writeLanes_cur]; rfl
  rw [readS_of_none h, readS_of_none (by simpa using h), hsplit, writeV, writeLanes_group, writeLanes_gsys, writeLanes_tick,
    spoilV_busyS]

theorem readP_writeV (q : PReg) : (s.writeV r f).readP q = s.readP q :=
  readP_congr h (by simpa using h) (by simp) (by simp [writeV]) (by rw [writeV, writeLanes_group])

end

/-! ### After a predicate write (R148) -/

section
variable {s : State} (h : s.snap = none) (m : LaneMask) {p : PReg} (f : Nat → Bool)
include h

theorem readP_writePLanes_self (hp : p ≠ 7) {l : Nat} (hl : l < 96) (hbusy : (s.gsys.busyP p.toNat).getLsbD l = false) :
    ((s.writePLanes m p f).readP p).getLsbD l = if m.getLsbD l then f l else (s.readP p).getLsbD l := by
  rw [readP_of_none (by simpa using h) hp hl, readP_of_none h hp hl, writePLanes_group _ _ _ hp, writePLanes_gsys _ _ _ hp,
    spoilP_busyP, hbusy]
  simp [hl]

theorem readP_writePLanes_of_ne {q : PReg} (hq : q ≠ p) : (s.writePLanes m p f).readP q = s.readP q := by
  by_cases hp : p = 7
  · subst hp; rw [writePLanes_seven]
  · have hne : q.toNat ≠ p.toNat := fun e => hq (BitVec.eq_of_toNat_eq e)
    refine readP_congr h (by simpa using h) (by simp) ?_ ?_
    · rw [writePLanes_gsys _ _ _ hp, spoilP_busyP]
    · rw [writePLanes_group _ _ _ hp, Table.get_set_of_ne _ _ _ hne]

end

/-! ### After a mask write (R91) -/

theorem setMask_at?_self {s : State} (m : LaneMask) {x : Split} (hx : s.group.splits.at? s.cur.split = some x) :
    (s.setMask m).group.splits.at? s.cur.split = some { x with mask := m &&& (s.group.dormant ||| x.mask) } := by
  simp [setMask_group, Table.at?_mapVal, hx]

theorem setMask_at?_of_ne (s : State) (m : LaneMask) {n : Nat} (hn : n ≠ s.cur.split) :
    (s.setMask m).group.splits.at? n = s.group.splits.at? n := by
  simp [setMask_group, Table.at?_mapVal, hn]

theorem setMask_split {s : State} (m : LaneMask) {x : Split} (hx : s.group.splits.at? s.cur.split = some x) :
    (s.setMask m).split = { x with mask := m &&& (s.group.dormant ||| x.mask) } :=
  Table.get_of_at? (setMask_at?_self m hx) _

/-- A mask write takes no lane from another split or a record (R91). -/
theorem setMask_leaves_taken {s : State} (m : LaneMask) {x y : Split} {l n : Nat} (hx : s.group.splits.at? s.cur.split = some x)
    (hy : s.group.splits.at? n = some y) (hfree : x.mask.getLsbD l = false) (hl : y.lanesHeld.getLsbD l = true) :
    (s.setMask m).split.mask.getLsbD l = false := by
  have htaken := Group.taken_of_mem (Table.mem_of_at? hy) hl
  rw [setMask_split m hx]
  simp [Group.dormant, htaken, hfree]

end State

end Sys2Proof.Machine

open Sys2Proof Sys2Proof.Machine Sys2Proof.Machine.State

/-- Settles O1: a scalar write changes one entry of the group's table, or the issuing split's mask; a chain reads its snapshot. -/
theorem scalarRegisters : Obligations.ScalarRegisters := by
  unfold Obligations.ScalarRegisters
  refine ⟨fun s r w n h hr hbusy => readS_writeS_self h w n hr hbusy, fun s r q w h hr hq => readS_writeS_of_ne h w hr hq,
    fun s r hr => ?_, fun s r w hr => writeS_mask s w hr,
    fun s r q w h => readS_of_snap h (writeS_snap ..) (writeS_cur ..) (writeS_tick ..) q, fun s t hi => ?_⟩
  · rw [readS, if_neg (Nat.not_lt.mpr hr)]
  · rw [exec_call, execCall, issue_eq hi]

/-- Settles O2: each write is one entry of the group's tables, computed lane by lane; a lane of another split or of a record is
taken, so no mask write gives it (`setMask_leaves_taken`). -/
theorem laneRegisters : Obligations.LaneRegisters := by
  unfold Obligations.LaneRegisters
  refine ⟨fun s r f h => ⟨fun l hl ha hbusy => ?_, fun l hl ha => ?_, fun q l hq => readV_writeV_of_ne h r f l hq,
      readS_writeV h r f, readP_writeV h r f⟩,
    ⟨fun s l hl => ?_, fun s f => writePLanes_seven .., fun s p f l h hp hl hbusy => readP_writePLanes_self h _ f hp hl hbusy,
      fun s p b l h hp hl hbusy => ?_, fun s p q f h hq => readP_writePLanes_of_ne h _ f hq⟩,
    fun s m x hx => ⟨setMask_at?_self m hx, fun n hn => setMask_at?_of_ne s m hn, fun l n y hn hy hl hfree hheld => ?_⟩⟩
  · rw [readV_writeV_self h r f hl, hbusy, ha]; rfl
  · rw [readV_writeV_self h r f hl, ha, readV_of_none h]; rfl
  · rw [readP, if_pos rfl, BitVec.getLsbD_allOnes, decide_eq_true hl]
  · rw [writePAll, readP_writePLanes_self h _ _ hp hl hbusy, BitVec.getLsbD_allOnes, decide_eq_true hl, if_pos rfl]
  · refine setMask_leaves_taken m hx hy hfree ?_
    rcases hheld with hmask | ⟨t, k, q, hr, hq⟩
    · exact Split.lanesHeld_of_mask hmask
    · exact Split.lanesHeld_of_record hr hq
end

section
/-!
O4, O6, O25: scalar arithmetic, special registers, what a floating-point word leaves (R92, R93, R97 to R99, R102, R146, R166, R167).
-/

set_option Elab.async false

namespace Sys2Proof.Machine

/-! ## Halves of a doubleword, and immediates -/

theorem lo_eq_ofNat (x : DWord) : x.lo = BitVec.ofNat 32 x.toNat := by
  apply BitVec.eq_of_toNat_eq
  simp [DWord.lo]

theorem hi_eq_ofNat (x : DWord) : x.hi = BitVec.ofNat 32 (x.toNat / 2 ^ 32) := by
  apply BitVec.eq_of_toNat_eq
  rw [DWord.hi, BitVec.extractLsb'_toNat, BitVec.toNat_ofNat, Nat.shiftRight_eq_div_pow]

/-- The halves of a number modulo 2^64 are those of the number modulo 2^64. -/
theorem lo_ofNat (n : Nat) : DWord.lo (BitVec.ofNat 64 n) = BitVec.ofNat 32 n := by
  rw [lo_eq_ofNat]
  apply BitVec.eq_of_toNat_eq
  simp only [BitVec.toNat_ofNat]
  omega

theorem hi_ofNat (n : Nat) : DWord.hi (BitVec.ofNat 64 n) = BitVec.ofNat 32 (n / 2 ^ 32) := by
  rw [hi_eq_ofNat]
  apply BitVec.eq_of_toNat_eq
  simp only [BitVec.toNat_ofNat]
  omega

theorem count7_eq (b : Word) : count7 b = b.toNat % 128 := by simp [count7]

theorem add64_eq_ofNat (a b : DWord) : a + b = BitVec.ofNat 64 (a.toNat + b.toNat) := by simp [BitVec.ofNat_add]

theorem sub64_eq_ofNat (a b : DWord) : a - b = BitVec.ofNat 64 (a.toNat + (2 ^ 64 - b.toNat)) := by
  apply BitVec.eq_of_toNat_eq
  rw [BitVec.toNat_sub, BitVec.toNat_ofNat]
  omega

theorem shl64_eq_ofNat (a : DWord) (b : Word) : a <<< count7 b = BitVec.ofNat 64 (a.toNat * 2 ^ (b.toNat % 128)) := by
  rw [count7_eq]
  apply BitVec.eq_of_toNat_eq
  simp [Nat.shiftLeft_eq]

theorem shr64N_eq_ofNat (a : DWord) (b : Word) : a >>> count7 b = BitVec.ofNat 64 (a.toNat / 2 ^ (b.toNat % 128)) := by
  rw [count7_eq]
  apply BitVec.eq_of_toNat_eq
  have hlt : a.toNat / 2 ^ (b.toNat % 128) < 2 ^ 64 := lt_of_le_of_lt (Nat.div_le_self ..) a.isLt
  simp only [BitVec.toNat_ushiftRight, Nat.shiftRight_eq_div_pow, BitVec.toNat_ofNat, Nat.mod_eq_of_lt hlt]

theorem setWidth_eq_ofNat {n : Nat} (m : Nat) (x : BitVec n) : x.setWidth m = BitVec.ofNat m x.toNat := by
  apply BitVec.eq_of_toNat_eq
  simp

theorem movh_eq_ofNat (imm : BitVec 16) : imm.setWidth 32 <<< 16 = BitVec.ofNat 32 (imm.toNat * 2 ^ 16) := by
  apply BitVec.eq_of_toNat_eq
  simp [Nat.shiftLeft_eq]

theorem addImm_eq_ofInt (a : Word) (imm : BitVec 16) : a + imm.signExtend 32 = BitVec.ofInt 32 (a.toInt + imm.toInt) := by
  rw [BitVec.ofInt_add, BitVec.ofInt_toInt]
  rfl

theorem slt_signExtend_iff (a : Word) (imm : BitVec 16) : a.slt (imm.signExtend 32) = true ↔ a.toInt < imm.toInt := by
  rw [BitVec.slt_iff_toInt_lt, BitVec.toInt_signExtend_of_le (by decide)]

namespace State

/-! ## Scalar words that can proceed (R72, R97) -/

theorem afterRelease_of_none {s : State} (h : GroupSys.waiting s.gsys = []) (f : State → State) : s.afterRelease f = f s := by
  rw [afterRelease, if_pos h]

/-- A word whose operands are ready delivers its result. -/
theorem scalarWord_of_ready {s : State} {d : SDst} {srcs : List SSrc} {f : List Word → Word} {x : Word}
    (hx : f (srcs.map s.srcValue) = x) (h : s.OperandsReady d srcs x) :
    s.scalarWord d srcs f = (srcs.foldl srcTake s).deliverTo d x := by
  obtain ⟨hopen, hready, hpush⟩ := h
  subst hx
  cases d with
  | chan c =>
      obtain ⟨hx, hroom, hwaiting⟩ := hpush c rfl
      rw [scalarWord_push hopen hready, if_neg hx, hroom, afterRelease_of_none hwaiting]
      rfl
  | reg r =>
      rw [channelsOpen_iff] at hopen
      rw [← List.all_eq_true] at hready
      simp only [scalarWord, hopen, hready]
      rfl

section
variable {i : Instr} {s : State}

theorem givesScalar_of_scalarWord {d : SDst} {srcs : List SSrc} {f : List Word → Word} {x : Word}
    (hexec : exec i s = s.issue i fun t => t.scalarWord d srcs f) (hx : f (srcs.map s.srcValue) = x) : GivesScalar i s d srcs x :=
  fun hi hready => by rw [hexec, issue_eq hi, scalarWord_of_ready hx hready]

theorem givesScalar_of_scalar2 {d : SDst} {a b : SSrc} {x : Word} (g : Word → Word → Word)
    (hexec : exec i s = s.issue i fun t => t.scalar2 d a b g) (hx : g (s.srcValue a) (s.srcValue b) = x) :
    GivesScalar i s d [a, b] x :=
  givesScalar_of_scalarWord hexec hx

theorem givesS_of_giveS {d : SReg} {x : Word} (f : State → Word) (hexec : exec i s = s.issue i fun t => t.giveS d (f t))
    (hx : f s = x) : GivesS i s d x :=
  fun hi => by rw [hexec, issue_eq hi, giveS, hx]

theorem givesPair_of_givePair {d : SReg} {n : Nat} (f : State → DWord) (hexec : exec i s = s.issue i fun t => t.givePair d (f t))
    (hx : f s = BitVec.ofNat 64 n) : GivesPair i s d n :=
  fun hi => by rw [hexec, issue_eq hi, givePair, writePair, hx, lo_ofNat, hi_ofNat]

end

end State

end Sys2Proof.Machine

open Sys2Proof Sys2Proof.Machine Sys2Proof.Machine.State

/-- Settles O4: a word whose operands are ready delivers its result (`scalarWord_of_ready`); the values are the numbers of R97
to R99. -/
theorem scalarArithmetic : Obligations.ScalarArithmetic := by
  unfold Obligations.ScalarArithmetic
  refine ⟨fun s d sa sb => ?_, fun s d a b imm => ?_⟩
  · refine ⟨?_, ?_, ?_, ?_, ?_, ?_, ?_, ?_, ?_, ?_, ?_, ?_, ?_, ?_, ?_, ?_, ?_, ?_, ?_⟩
    · exact givesScalar_of_scalar2 _ (exec_add ..) (add_eq_ofNat ..)
    · exact givesScalar_of_scalar2 _ (exec_sub ..) (sub_eq_ofInt ..)
    · exact givesScalar_of_scalar2 _ (exec_and ..) rfl
    · exact givesScalar_of_scalar2 _ (exec_or ..) rfl
    · exact givesScalar_of_scalar2 _ (exec_xor ..) rfl
    · exact givesScalar_of_scalar2 _ (exec_shl ..) (shl_eq_ofNat ..)
    · exact givesScalar_of_scalar2 _ (exec_shrN ..) (shrN_eq_ofNat ..)
    · exact givesScalar_of_scalar2 _ (exec_shrI ..) (shrI_eq_ofInt ..)
    · exact givesScalar_of_scalar2 _ (exec_minI ..) (minI_eq_ofInt ..)
    · exact givesScalar_of_scalar2 _ (exec_maxI ..) (maxI_eq_ofInt ..)
    · exact givesScalar_of_scalar2 _ (exec_minN ..) (minN_eq_ofNat ..)
    · exact givesScalar_of_scalar2 _ (exec_maxN ..) (maxN_eq_ofNat ..)
    · exact givesScalar_of_scalar2 _ (exec_mul ..) (mul_eq_ofNat ..)
    · exact givesScalar_of_scalar2 _ (exec_mulhI ..) (mulhI_eq_ofInt ..)
    · exact givesScalar_of_scalar2 _ (exec_mulhN ..) (mulhN_eq_ofNat ..)
    · exact givesScalar_of_scalar2 _ (exec_cmpEq ..) (boolWord_eq_ite _ _ beq_iff_eq)
    · exact givesScalar_of_scalar2 _ (exec_cmpNe ..) (boolWord_eq_ite _ _ bne_iff_ne)
    · exact givesScalar_of_scalar2 _ (exec_cmpLtI ..) (boolWord_eq_ite _ _ BitVec.slt_iff_toInt_lt)
    · exact givesScalar_of_scalar2 _ (exec_cmpLtN ..) (boolWord_eq_ite _ _ BitVec.ult_iff_lt)
  · refine ⟨?_, ?_, ?_, ?_, fun dst => ?_, ?_, ?_, ?_, ?_, ?_, ?_, ?_⟩
    · exact givesPair_of_givePair _ (exec_add64 ..) (add64_eq_ofNat ..)
    · exact givesPair_of_givePair _ (exec_sub64 ..) (sub64_eq_ofNat ..)
    · exact givesPair_of_givePair _ (exec_shl64 ..) (shl64_eq_ofNat ..)
    · exact givesPair_of_givePair _ (exec_shr64N ..) (shr64N_eq_ofNat ..)
    · exact givesScalar_of_scalarWord (exec_movi ..) rfl
    · exact givesS_of_giveS _ (exec_movh ..) (movh_eq_ofNat imm)
    · exact givesS_of_giveS _ (exec_addi ..) (addImm_eq_ofInt _ imm)
    · exact givesS_of_giveS _ (exec_andi ..) (by rw [setWidth_eq_ofNat])
    · exact givesS_of_giveS _ (exec_ori ..) (by rw [setWidth_eq_ofNat])
    · exact givesS_of_giveS _ (exec_xori ..) (by rw [setWidth_eq_ofNat])
    · exact givesS_of_giveS _ (exec_cmpiEq ..) (boolWord_eq_ite _ _ beq_iff_eq)
    · exact givesS_of_giveS _ (exec_cmpiLtI ..) (boolWord_eq_ite _ _ (slt_signExtend_iff _ imm))
end

section
/-!
O6: SRD, SWR and TIDSET (R92, R93, R102, R167, R195, R206).
-/

set_option Elab.async false

namespace Sys2Proof.Machine

namespace State

/-- The virtual number of a die is the first place at which a context lists it (R92). -/
theorem vdieOf_eq {x : Context} {die v : Nat} (hv : x.vdies[v]? = some die) (hfirst : ∀ j, j < v → x.vdies[j]? ≠ some die) :
    vdieOf x die = v := by
  have hfind : x.vdies.findIdx? (· == die) = some v := by
    obtain ⟨hlt, hget⟩ := List.getElem?_eq_some_iff.mp hv
    rw [List.findIdx?_eq_some_iff_getElem]
    refine ⟨hlt, by simp [hget], fun j hj => ?_⟩
    have hne := hfirst j hj
    rw [List.getElem?_eq_getElem (hj.trans hlt)] at hne
    simpa using fun e => hne (congrArg some e)
  rw [vdieOf, hfind, Option.getD_some]

end State

theorem boolWord_eq_ofNat (b : Bool) : boolWord b = BitVec.ofNat 32 b.toNat := by cases b <;> rfl

theorem extract_low_eq_ofNat {n : Nat} (k : Nat) (x : BitVec n) : x.extractLsb' 0 k = BitVec.ofNat k x.toNat := by
  apply BitVec.eq_of_toNat_eq
  simp

theorem storedRM_eq (w : Word) : storedRM w = if 5 ≤ w.toNat % 8 then 0 else BitVec.ofNat 3 w.toNat := by
  simp only [storedRM, extract_low_eq_ofNat, BitVec.toNat_ofNat]

namespace State

/-- An ACCRD of the group has its flags still to write (R195). -/
theorem flagsOpen_iff {s : State} (h : s.snap = none) : s.flagsOpen = true ↔
    ∃ p ∈ s.gsys.tm, p.finished = false ∧ ∃ inf x fmt m id reads, p.act = .accrd inf x fmt m id reads := by
  rw [flagsOpen, vsys_of_none h, List.any_eq_true]
  refine exists_congr fun p => and_congr_right fun _ => ?_
  rw [Bool.and_eq_true, Bool.not_eq_true']
  refine and_congr_right fun _ => ⟨fun hact => ?_, fun ⟨inf, x, fmt, m, id, reads, hact⟩ => by rw [hact]⟩
  split at hact
  · next inf x fmt m id reads heq => exact ⟨inf, x, fmt, m, id, reads, heq⟩
  · cases hact

section
variable {s : State} {d : SReg}

/-- SRD of a scalar special register other than cycle (R102). -/
theorem srd_givesS {c : BitVec 10} {x : Word} (hscalar : c.toNat < 0x100) (hcycle : c.toNat ≠ 6)
    (hflags : c.toNat = 9 → s.flagsOpen = false) (hx : s.special c.toNat = x) : GivesS (.srd d c) s d x := by
  intro hi
  have hready : ¬ (c.toNat = 9 && s.flagsOpen) = true := by simpa using hflags
  rw [exec_srd, execSrd, issue_eq hi, if_neg (Nat.not_le.mpr hscalar), if_neg hcycle, if_neg hready, hx]
  rfl

/-- SRD of a per-lane special register (R102). -/
theorem srd_lanes {c : BitVec 10} {f : Nat → Word} (hlane : 0x100 ≤ c.toNat) (hf : s.specialLane c.toNat = f)
    (hi : s.Issues (Instr.srd d c).facts) : exec (.srd d c) s = .next (s.writeV (d.setWidth 7) f).done := by
  rw [exec_srd, execSrd, issue_eq hi, if_pos hlane, hf]

end

/-- The values of the scalar special registers that are no more than a field of the state (R92). -/
theorem special_eq {s : State} (h : s.snap = none) : ∀ n v : Nat,
    (n, v) ∈ [(0x000, s.group.member), (0x001, s.group.stage.toNat), (0x002, s.block.number),
      (0x003, s.block.number / 2 ^ 32), (0x005, s.cur.core % 64), (0x008, s.group.fpc.toNat),
      (0x00A, s.group.shrink.toNat), (0x00B, s.group.tensor.toNat), (0x00C, s.group.splits.length)] →
    n < 0x100 ∧ n ≠ 6 ∧ n ≠ 9 ∧ s.special n = BitVec.ofNat 32 v := by
  intro n v hmem
  have hgroup := vgroup_of_none h
  have hblock := vblock_of_none h
  simp only [List.mem_cons, Prod.mk.injEq, List.not_mem_nil, or_false] at hmem
  rcases hmem with ⟨rfl, rfl⟩ | ⟨rfl, rfl⟩ | ⟨rfl, rfl⟩ | ⟨rfl, rfl⟩ | ⟨rfl, rfl⟩ | ⟨rfl, rfl⟩ | ⟨rfl, rfl⟩ | ⟨rfl, rfl⟩ | ⟨rfl, rfl⟩ <;>
    refine ⟨by decide, by decide, by decide, ?_⟩ <;>
    simp only [special, hgroup, hblock, setWidth_eq_ofNat, boolWord_eq_ofNat]

end State

end Sys2Proof.Machine

open Sys2Proof Sys2Proof.Machine Sys2Proof.Machine.State

/-- Settles O6: each special register is a field of the state (`special_eq`), and fps alone waits for an ACCRD
(`flagsOpen_iff`). -/
theorem specialRegisters : Obligations.SpecialRegisters := by
  unfold Obligations.SpecialRegisters
  intro s d h flags
  have hflags : s.flagsOpen = true ↔ flags := flagsOpen_iff h
  refine ⟨fun n v hmem => ?_, fun v hv hfirst => ?_, fun hopen hi => ?_, fun hopen => ?_, fun hi => ?_, fun n f hn hi => ?_, fun hi => ?_,
    fun hopen hi => ?_, fun hopen hi => ?_, fun imm hi => ?_, fun hi => ?_⟩
  · obtain ⟨hscalar, hcycle, hfps, hx⟩ := special_eq h n v hmem
    have hn : (BitVec.ofNat 10 n).toNat = n := by rw [BitVec.toNat_ofNat]; omega
    exact srd_givesS (by rwa [hn]) (by rwa [hn]) (fun e => absurd (hn.symm.trans e) hfps) (by rwa [hn])
  · have hspecial : s.special 4 = BitVec.ofNat 32 (vdieOf s.vcontext (dieOf s.cur.core)) := rfl
    have hvdie : vdieOf s.context (dieOf s.cur.core) = v := vdieOf_eq hv hfirst
    rw [vcontext_of_none h, hvdie] at hspecial
    exact srd_givesS (by decide) (by decide) (fun e => absurd e (by decide)) hspecial
  · rw [exec_srd, execSrd, issue_eq hi]
    simp [hflags.mpr hopen]
  · have hspecial : s.special 9 = s.vgroup.fps.setWidth 32 := rfl
    rw [vgroup_of_none h, setWidth_eq_ofNat] at hspecial
    exact srd_givesS (by decide) (by decide) (fun _ => Bool.eq_false_iff.mpr (mt hflags.mp hopen)) hspecial
  · rw [exec_srd, execSrd, issue_eq hi, if_neg (by decide), if_pos (by decide), givePair, writePair, cycleOf, lo_ofNat, hi_ofNat]
  · have hlow : (s.specialLane 0x101 = fun l => BitVec.ofNat 32 (s.group.wid.toArray.getD l 0).toNat) := by
      funext l
      rw [← lo_eq_ofNat, ← vgroup_of_none h]
      rfl
    have hhigh : (s.specialLane 0x102 = fun l => BitVec.ofNat 32 ((s.group.wid.toArray.getD l 0).toNat / 2 ^ 32)) := by
      funext l
      rw [← hi_eq_ofNat, ← vgroup_of_none h]
      rfl
    rcases hn with ⟨rfl, rfl⟩ | ⟨rfl, rfl⟩ | ⟨rfl, rfl⟩
    · exact srd_lanes (by decide) rfl hi
    · exact srd_lanes (by decide) hlow hi
    · exact srd_lanes (by decide) hhigh hi
  · rw [exec_swr, execSwr, issue_eq hi, ← storedRM_eq]
    rfl
  · rw [exec_swr, execSwr, issue_eq hi]
    simp [hflags.mpr hopen]
  · have hclosed : s.flagsOpen = false := Bool.eq_false_iff.mpr (mt hflags.mp hopen)
    rw [exec_swr, execSwr, issue_eq hi, ← extract_low_eq_ofNat]
    simp [hclosed, storedFlags, h]
  · rw [exec_tidsetImm, execTidsetImm, issue_eq hi]
  · rw [exec_tidsetReg, execTidsetReg, issue_eq hi, extract_low_eq_ofNat]
end

section
/-!
O25: the modes of fpc, and what a floating-point word of 32-bit results leaves (R93, R146, R166, R167).
-/

set_option Elab.async false

namespace Sys2Proof.Machine

/-- A flag is among the flags of the active lanes where one of them raises it (R167). -/
theorem orFlags_getLsbD (m : LaneMask) (f : Nat → Flags) (k : Nat) :
    (orFlags m f).getLsbD k = true ↔ ∃ l, l < 96 ∧ m.getLsbD l = true ∧ (f l).getLsbD k = true := by
  have hfold : ∀ (L : List Nat) (a : Flags), (L.foldl (fun a l => a ||| f l) a).getLsbD k = true ↔
      a.getLsbD k = true ∨ ∃ l ∈ L, (f l).getLsbD k = true := by
    intro L
    induction L with
    | nil => simp
    | cons l L ih => intro a; simp [ih, or_assoc]
  simp [orFlags, hfold, LaneMask.mem_list, and_assoc]

/-- A register word that counts nothing and raises no flag in a chain changes nothing outside its group. -/
theorem Frame.onlyGroup {x : Writes} {s t : State} (h : Frame x s t) (hcounts : ¬ x.counts) (hsnap : t.snap = s.snap) :
    s.OnlyGroup t := by
  refine ⟨?_, fun k hk => ⟨h.groupAt k hk, h.sysAt k hk⟩⟩
  have hfixed := State.with_fixed h.fixed
  rw [← h.blocks hcounts, ← hsnap] at hfixed
  exact hfixed

namespace State

/-- What a floating-point word of 32-bit results may write. -/
def floatWrites (s : State) (d : VReg) : Writes :=
  { dests := [Reg.v d.toNat], lanes := s.active, raises := True, counts := False }

section
variable {s : State} (h : s.snap = none) (d : VReg) (f : Nat → Nat × Flags)
include h

/-- A floating-point word writes its register, fps and its split. -/
theorem floatWord_group : (s.floatWord d f).group =
    { s.group with
      v := s.group.v.set d.toNat (LaneWords.ofFn fun l =>
        if s.active.getLsbD l then BitVec.ofNat 32 (f l).1 else (vectorOf s.group d.toNat).lane l)
      fps := s.group.fps ||| orFlags s.active fun l => (f l).2
      splits := s.group.splits.set s.cur.split (issued s.now (nextWord s.split s.split.word)) } := by
  have hsplit : ((s.writeV d fun l => BitVec.ofNat 32 (f l).1).raiseFlags (orFlags s.active fun l => (f l).2)).split = s.split := by
    rw [split, raiseFlags_group, writeV, writeLanes_group, raiseFlags_cur, writeLanes_cur]
    rfl
  have hsnap : ((s.writeV d fun l => BitVec.ofNat 32 (f l).1).raiseFlags (orFlags s.active fun l => (f l).2)).snap = none := by
    unfold raiseFlags
    simp [h]
  rw [floatWord, done_group_of_none hsnap, hsplit, raiseFlags_group, writeV, writeLanes_group]
  simp

theorem floatWord_snap : (s.floatWord d f).snap = none := by
  unfold floatWord raiseFlags
  simp [h]

/-- A floating-point word of 32-bit results changes nothing outside its group. -/
theorem floatWord_onlyGroup : s.OnlyGroup (s.floatWord d f) := by
  have hframe : Frame (floatWrites s d) s (s.floatWord d f) :=
    .done ((Frame.writeV _ List.mem_cons_self rfl).trans (.raiseFlags _ trivial))
  exact hframe.onlyGroup id ((floatWord_snap h d f).trans h.symm)

end

end State

end Sys2Proof.Machine

open Sys2Proof Sys2Proof.Machine Sys2Proof.Machine.State

/-- Settles O25: the word's group is its old one with a vector register, fps and a split written (`floatWord_group`). -/
theorem floatEffects : Obligations.FloatEffects := by
  unfold Obligations.FloatEffects
  refine ⟨fun s => rfl, fun s d f h => ?_⟩
  have hgroup := floatWord_group h d f
  have hcur : (s.floatWord d f).cur = s.cur := by simp [floatWord]
  refine ⟨fun k hk => ?_, fun l hl => ?_, fun r hr => ?_, ?_, ?_, floatWord_onlyGroup h d f, ?_⟩
  · rw [hgroup, BitVec.getLsbD_or, Bool.or_eq_true, orFlags_getLsbD]
  · rw [hgroup]
    exact (congrArg (·.lane l) (vectorOf_set_self ..)).trans (LaneWords.lane_ofFn _ hl)
  · rw [hgroup, Table.at?_set_of_ne _ _ hr]
  · rw [hgroup]
  · obtain ⟨hmask, -, -⟩ := nextWord_rest s.split s.split.word
    rw [split, hgroup, hcur]
    simp only [Group.splitAt, Table.get_set_self]
    exact hmask
  · exact .of_eq (by simp [floatWord]) (by simp [floatWord]) (by simp [floatWord])
end

section
/-!
O7, O9: branches and calls move the whole split (R79, R103, R108).
-/

set_option Elab.async false

namespace Sys2Proof.Machine.State

/-! ## A transfer (R63, R103) -/

/-- The split of a word that transfers to a packet. -/
def atTarget (s : State) (target : BitVec 20) : Split :=
  { issued s.now s.split with pc := target, word := 0, packet := none, back := backCount s.now s.split target }

/-- The target of a branch as R79 counts it. -/
theorem branchTarget_of_none {s : State} (h : s.snap = none) (off : BitVec 16) : s.branchTarget off = s.packetAfter off := by
  rw [branchTarget, packetAfter, split_of_none h]
  apply BitVec.eq_of_toInt_eq
  rw [BitVec.toInt_add, BitVec.toInt_ofInt, BitVec.toInt_signExtend_of_le (by decide), BitVec.toInt_eq_toNat_bmod]
  simp

section
variable {s : State} (h : s.snap = none)
include h

theorem transfer_of_none (target : BitVec 20) :
    s.transfer target = { s with tick := s.tick + 1, last := .done }.setSplit (s.atTarget target) := by
  unfold transfer
  simp only [setSplit_snap, h]
  rfl

theorem transfer_movesTo (target : BitVec 20) : s.MovesTo (s.transfer target) target := by
  rw [transfer_of_none h]
  exact movesTo_setSplit s _ _ rfl rfl rfl rfl

theorem nextPacket_movesTo : s.MovesTo s.nextPacket (s.split.pc + 1) := by
  rw [nextPacket_of_none h]
  exact movesTo_setSplit s _ _ rfl rfl rfl rfl

/-- A word whose effect is a branch moves the split as its condition says. -/
theorem branches_of_branchIf {i : Instr} {off : BitVec 16} {taken : Prop} (c : State → Bool)
    (hexec : exec i s = s.issue i fun t => t.branchIf (c t) off) (hc : c s = true ↔ taken) : Branches i s off taken := by
  intro hi
  refine ⟨_, hexec.trans (issue_eq hi _), fun htaken => ?_, fun hstays => ?_⟩
  · rw [branchIf, if_pos (hc.mpr htaken), branchTarget_of_none h]
    exact transfer_movesTo h _
  · rw [branchIf, if_neg (mt hc.mp hstays)]
    exact nextPacket_movesTo h

/-- A jump to an index within the program counter's range (R108). -/
theorem jumpTo_movesTo {w : Word} (hw : w.toNat < 2 ^ 20) : s.MovesTo (s.jumpTo w) (BitVec.ofNat 20 w.toNat) := by
  have hwidth : w.setWidth 20 = BitVec.ofNat 20 w.toNat := setWidth_eq_ofNat 20 w
  rw [jumpTo, if_neg (Nat.not_le.mpr hw), hwidth]
  exact transfer_movesTo h _

end

theorem jumpTo_far {s : State} {w : Word} (hw : 2 ^ 20 ≤ w.toNat) : s.jumpTo w = s.illegalHere .branchTarget := by
  rw [jumpTo, if_pos hw]

/-! ## Masks as sets of lanes -/

theorem mask_eq_zero_iff {m : LaneMask} : (m == 0) = true ↔ ∀ l, l < 96 → m.getLsbD l = false := by
  rw [beq_iff_eq]
  refine ⟨?_, fun hm => BitVec.eq_of_getLsbD_eq fun l hl => ?_⟩
  · rintro rfl l -
    exact BitVec.getLsbD_zero
  · rw [hm l hl]
    exact BitVec.getLsbD_zero.symm

theorem mask_ne_zero_iff {m : LaneMask} : (m != 0) = true ↔ ∃ l, l < 96 ∧ m.getLsbD l = true := by
  rw [bne, Bool.not_eq_true', Bool.eq_false_iff, ne_eq, mask_eq_zero_iff]
  simp

/-! ## CALL (R108) -/

/-- What a write of lk touches (R69). -/
def lkWrites : Writes := { dests := [Reg.s 59], lanes := 0, raises := False, counts := False }

section
variable {s : State} (h : s.snap = none) (w : Word) (target : BitVec 20)
include h

theorem call_group : ((s.writeS 59 w).transfer target).group = { s.group with
    s := s.group.s.set 59 w, splits := s.group.splits.set s.cur.split (s.atTarget target) } := by
  have hwrite : (s.writeS 59 w).group = { s.group with s := s.group.s.set 59 w } := writeS_group _ _ (by decide)
  have hsplit : (s.writeS 59 w).split = s.split := by rw [split, hwrite, writeS_cur]; rfl
  have hat : (s.writeS 59 w).atTarget target = s.atTarget target := by rw [atTarget, hsplit, writeS_now]; rfl
  rw [transfer_of_none (by simpa using h), setSplit_group, hat]
  simp only [group, groupAt, gkey, writeS_cur] at hwrite ⊢
  rw [hwrite]

theorem call_snap : ((s.writeS 59 w).transfer target).snap = none := by
  rw [transfer_of_none (by simpa using h)]
  simpa using h

/-- A call writes lk and moves its split, and nothing outside the group changes. -/
theorem call_onlyGroup : s.OnlyGroup ((s.writeS 59 w).transfer target) := by
  have hframe : Frame lkWrites s (s.writeS 59 w) := Frame.writeS w List.mem_cons_self
  obtain ⟨hrest, hothers⟩ := hframe.onlyGroup id (writeS_snap ..)
  rw [transfer_of_none (by simpa using h)]
  refine ⟨hrest, fun k hk => ⟨?_, (hothers k hk).2⟩⟩
  rw [setSplit_groupAt_of_ne _ _ (by simpa [gkey] using hk)]
  exact (hothers k hk).1

theorem call_split : ((s.writeS 59 w).transfer target).split = s.atTarget target := by
  have hcur : ((s.writeS 59 w).transfer target).cur = s.cur := by
    rw [transfer_of_none (by simpa using h)]
    exact writeS_cur ..
  rw [split, call_group h, hcur]
  exact Table.get_set_self ..

/-- lk as the words after the call read it. -/
theorem call_readS (hbusy : s.gsys.busyS 59 = false) : ((s.writeS 59 w).transfer target).readS 59 = w := by
  have hsys : ((s.writeS 59 w).transfer target).gsys = (s.spoilS 59).gsys := by
    rw [transfer_of_none (by simpa using h)]
    exact writeS_gsys _ _ (by decide)
  rw [readS_of_none (call_snap h w target), hsys, spoilS_busyS, call_group h]
  simp [hbusy]

theorem call_sameMemory : s.SameMemory ((s.writeS 59 w).transfer target) := by
  rw [transfer_of_none (by simpa using h)]
  exact .of_eq (writeS_mem ..) (writeS_spad ..) (writeS_acc ..)

end

end Sys2Proof.Machine.State

open Sys2Proof Sys2Proof.Machine Sys2Proof.Machine.State

/-- Settles O7: every branch is `branchIf` of its condition, which is read off the register or the active lanes. -/
theorem uniformBranches : Obligations.UniformBranches := by
  unfold Obligations.UniformBranches
  intro s r p off h
  refine ⟨?_, ?_, ?_, ?_, ?_, ?_⟩
  · exact branches_of_branchIf h (fun _ => true) (exec_bra ..) (by simp)
  · exact branches_of_branchIf h _ (exec_bz ..) beq_iff_eq
  · exact branches_of_branchIf h _ (exec_bnz ..) bne_iff_ne
  · refine branches_of_branchIf h _ (exec_bany ..) (mask_ne_zero_iff.trans ?_)
    simp [active_of_none h]
  · refine branches_of_branchIf h _ (exec_ball ..) (mask_eq_zero_iff.trans ?_)
    refine forall_congr' fun l => forall_congr' fun hl => ?_
    simp [active_of_none h, hl]
  · refine branches_of_branchIf h _ (exec_bnone ..) (mask_eq_zero_iff.trans ?_)
    refine forall_congr' fun l => forall_congr' fun hl => ?_
    simp [active_of_none h]

/-- Settles O9: CALL writes one register and its split (`call_group`), RET and JMPR jump (`jumpTo_movesTo`). -/
theorem calls : Obligations.Calls := by
  unfold Obligations.Calls
  intro s a n h
  refine ⟨fun hi hbusy => ?_, fun hi => ⟨fun hw => ?_, fun hw => ?_⟩, fun hi => ⟨fun hw => ?_, fun hw => ?_⟩⟩
  · refine ⟨_, (exec_call n s).trans (issue_eq hi _), ?_⟩
    rw [split_of_none h]
    refine ⟨call_readS h _ n hbusy, ?_, ?_, ?_, ?_, fun m hm => ?_, fun r hr => ?_, call_onlyGroup h _ n, call_sameMemory h _ n⟩
    · rw [call_split h]; rfl
    · rw [call_split h]; rfl
    · rw [call_split h]; rfl
    · rw [call_split h]; rfl
    · rw [call_group h, Table.at?_set_of_ne _ _ hm]
    · rw [call_group h, Table.get_set_of_ne _ _ _ hr]
  · exact ⟨_, (exec_ret s).trans (issue_eq hi _), jumpTo_movesTo h hw⟩
  · rw [exec_ret, execRet, issue_eq hi, jumpTo_far hw]
  · exact ⟨_, (exec_jmpr a s).trans (issue_eq hi _), jumpTo_movesTo h hw⟩
  · rw [exec_jmpr, execJmpr, issue_eq hi, jumpTo_far hw]
end

section
/-!
O8 fails: it counts the splits of a group after a BDIV, for every list of splits. A table that is not in ascending order, as no step
leaves one, grows by an entry more when the issuing split is written (R104, R347).
-/

set_option Elab.async false

namespace Sys2Proof.Machine.DisorderedSplits

/-! ## A group whose splits are listed out of order

Split 0 issues a BDIV on p1, which lane 0 of its two has. The group's table lists split 1 before split 0. -/

/-- The module before the BDIV. -/
def start : State :=
  { State.reset with
    groups := [(0, { Group.free with
      phase := .attached, splits := [(1, Split.none), (0, { Split.none with mask := 3 })], p := [(1, 1)] })] }

theorem start_issues : start.Issues (Instr.bdiv 1 0).facts :=
  ⟨rfl, by decide, by decide, fun t ht => by obtain rfl := Option.some.inj ht; decide, by decide, rfl, nofun, rfl⟩

/-- One lane takes the branch, one stays. -/
theorem lanes_divide : start.split.mask &&& start.readP 1 ≠ 0 ∧ start.split.mask &&& ~~~ start.readP 1 ≠ 0 := by decide

/-- The write of split 0 puts it before split 1 and leaves its old entry; with the split that the BDIV creates there are four. -/
theorem divide_length : (start.divide (start.active &&& start.readP 1) (start.branchTarget 0)).group.splits.length = 4 := by decide

end Sys2Proof.Machine.DisorderedSplits

open Sys2Proof Sys2Proof.Machine Sys2Proof.Machine.State Sys2Proof.Machine.DisorderedSplits

/-- Refutes O8: of two splits listed out of order a BDIV leaves four entries, where the third case counts three. -/
theorem not_division : ¬ Obligations.Division := by
  unfold Obligations.Division
  intro division
  obtain ⟨-, -, divides, -⟩ := division start 1 0 rfl start_issues
  obtain ⟨htaken, hstay⟩ := lanes_divide
  obtain ⟨t, n, x, hexec, -, -, -, -, -, -, -, -, -, -, -, -, -, -, hlength, -⟩ := divides htaken hstay (by decide) (by decide)
  obtain rfl := Host.Outcome.next.inj (((exec_bdiv ..).trans (issue_eq start_issues _)).symm.trans hexec)
  exact absurd (divide_length.symm.trans hlength) (by decide)
end

section
/-!
O11: what EXIT leaves (R106, R112), and what leaving a block keeps (R134, R139).
-/

set_option Elab.async false

namespace Sys2Proof.Machine

/-! ## What joining and leaving barriers keeps (R139) -/

/-- Beside its registers a group without its flags at barriers. -/
def GroupSys.unbarred (g : GroupSys) : GroupSys := { g with bars := [] }

/-- A state as a change of membership may leave it: flags at barriers, groups and blocks apart, nothing has changed. -/
structure MemberFrame (s t : State) : Prop where
  sysAt : ∀ k, (t.sysAt k).unbarred = (s.sysAt k).unbarred
  rest : { t with groups := s.groups, sys := s.sys, blocks := s.blocks } = s

namespace MemberFrame

variable {s t u : State}

theorem refl (s : State) : MemberFrame s s := ⟨fun _ => rfl, rfl⟩

theorem trans (a : MemberFrame s t) (b : MemberFrame t u) : MemberFrame s u where
  sysAt k := (b.sysAt k).trans (a.sysAt k)
  rest := (congrArg (fun x : State => { x with groups := s.groups, sys := s.sys, blocks := s.blocks }) b.rest).trans a.rest

theorem foldl {α : Type} {f : State → α → State} (h : ∀ t a, MemberFrame t (f t a)) (l : List α) (s : State) :
    MemberFrame s (l.foldl f s) := by
  induction l generalizing s with
  | nil => exact refl s
  | cons a l ih => exact (h s a).trans (ih _)

theorem setGroupAt (k : Nat) (g : Group) : MemberFrame s (s.setGroupAt k g) := ⟨fun _ => rfl, rfl⟩

theorem setBarrier (id k : Nat) (x : Barrier) : MemberFrame s (s.setBarrier id k x) := ⟨fun _ => rfl, rfl⟩

theorem setBar (gk k : Nat) (f : BarFlags) : MemberFrame s (s.setBar gk k f) where
  sysAt j := by
    unfold State.setBar
    by_cases hj : j = gk
    · rw [hj, State.sysAt_setSysAt]; rfl
    · rw [State.sysAt_setSysAt_of_ne _ _ hj]
  rest := rfl

theorem completePhase (id k : Nat) : MemberFrame s (s.completePhase id k) := by
  unfold State.completePhase
  dsimp only
  split
  · exact (foldl (fun _ _ => setBar ..) _ s).trans (setBarrier ..)
  · exact refl s

theorem checkBarrier (id k : Nat) : MemberFrame s (s.checkBarrier id k) := (completePhase id k).trans (completePhase id k)

theorem memberJoin (gk k : Nat) : MemberFrame s (s.memberJoin gk k) :=
  ((setBar ..).trans (setBarrier ..)).trans (checkBarrier ..)

theorem memberLeave (gk k : Nat) : MemberFrame s (s.memberLeave gk k) := by
  unfold State.memberLeave
  dsimp only
  split
  · exact ((setBar ..).trans (setBarrier ..)).trans (checkBarrier ..)
  · exact refl s

theorem leaveBlock (gk : Nat) : MemberFrame s (s.leaveBlock gk) :=
  (foldl (fun _ k => memberLeave gk k) _ s).trans (foldl (fun _ _ => setGroupAt ..) _ _)

theorem sameMemory (h : MemberFrame s t) : s.SameMemory t := by
  have hmem := congrArg State.mem h.rest
  have hspad := congrArg State.spad h.rest
  have hacc := congrArg State.acc h.rest
  exact .of_eq hmem hspad hacc

theorem cur (h : MemberFrame s t) : t.cur = s.cur := by
  have hcur := congrArg State.cur h.rest
  exact hcur

theorem snap (h : MemberFrame s t) : t.snap = s.snap := by
  have hsnap := congrArg State.snap h.rest
  exact hsnap

end MemberFrame

namespace State

section
variable (s : State) (gk id k : Nat)

@[simp] theorem completePhase_groups : (s.completePhase id k).groups = s.groups := by
  unfold completePhase
  dsimp only
  split
  · exact foldl_proj groups (fun _ _ => by rfl) _ s
  · rfl

@[simp] theorem checkBarrier_groups : (s.checkBarrier id k).groups = s.groups := by simp [checkBarrier]

@[simp] theorem memberJoin_groups : (s.memberJoin gk k).groups = s.groups := by
  unfold memberJoin
  exact checkBarrier_groups ..

@[simp] theorem memberLeave_groups : (s.memberLeave gk k).groups = s.groups := by
  unfold memberLeave
  dsimp only
  split
  · exact checkBarrier_groups ..
  · rfl

end

/-- A group without splits has none after it has left its block. -/
theorem leaveBlock_splits {s : State} {gk : Nat} (h : (s.groupAt gk).splits = []) : ((s.leaveBlock gk).groupAt gk).splits = [] := by
  have hfold : ∀ (m : Nat) (l : List Nat) (t : State), (t.groupAt gk).splits = [] → ((l.foldl (fun s k =>
      s.setGroupAt k { s.groupAt k with splits := (s.groupAt k).splits.mapVal fun _ x => Split.partnerLeft x m }) t).groupAt gk).splits = [] := by
    intro m l
    induction l with
    | nil => exact fun t ht => ht
    | cons k l ih =>
        intro t ht
        refine ih _ ?_
        by_cases hk : gk = k
        · rw [← hk, groupAt_setGroupAt, ht]; rfl
        · rw [groupAt_setGroupAt_of_ne _ _ hk, ht]
  refine hfold _ _ _ ?_
  rw [groupAt, foldl_proj groups (fun _ _ => memberLeave_groups ..)]
  exact h

/-- A write of the issuing group changes nothing else. -/
theorem setGroup_onlyGroup (s : State) (g : Group) (n : Nat) (l : Last) : s.OnlyGroup { s.setGroup g with tick := n, last := l } :=
  ⟨rfl, fun _ hk => ⟨setGroup_groupAt_of_ne s g hk, rfl⟩⟩

/-! ## The end of a split (R106, R112) -/

/-- What EXIT makes of the issuing split and its group, before the count and the end of the word. -/
def exits (s : State) : State :=
  match s.split.record with
  | some (t, h, m) =>
      s.setSplit { issued s.now s.split with mask := m, record := none, pc := t, handler := h, word := 0, packet := none, back := 0 }
  | none =>
      let t := s.group.splits.erase s.cur.split
      let s := s.setGroup { s.group with splits := t }
      if t = [] then s.endGroup s.gkey else s

theorem exitSplit_of_none {s : State} (h : s.exits.snap = none) :
    s.exitSplit = { s.exits with tick := s.exits.tick + 1, last := .done } := by
  have hexit : s.exitSplit = match s.exits.snap with
      | some k => { s.exits with tick := s.exits.tick + 1, last := .done, snap := some { k with moved := true } }
      | none => { s.exits with tick := s.exits.tick + 1, last := .done } := by
    rfl
  rw [hexit, h]

theorem exits_of_record {s : State} {t : BitVec 20} {h : Bool} {m : LaneMask} (hr : s.split.record = some (t, h, m)) :
    s.exits = s.setSplit
      { issued s.now s.split with mask := m, record := none, pc := t, handler := h, word := 0, packet := none, back := 0 } := by
  rw [exits, hr]

theorem exits_of_others {s : State} (hr : s.split.record = none) (ht : s.group.splits.erase s.cur.split ≠ []) :
    s.exits = s.setGroup { s.group with splits := s.group.splits.erase s.cur.split } := by
  rw [exits, hr]
  exact if_neg ht

theorem exits_of_last {s : State} (hr : s.split.record = none) (ht : s.group.splits.erase s.cur.split = []) :
    s.exits = (s.setGroup { s.group with splits := [] }).endGroup s.gkey := by
  rw [exits, hr]
  simp only [ht, if_true]
  rfl

/-- The end of a group without a recoverable fault to post and without a slice that waits: it leaves its block, if it is attached, and
its loads are discarded (R112, R134). -/
theorem endGroup_eq {s : State} {gk : Nat} (hsplits : (s.groupAt gk).splits = []) (hfault : (s.sysAt gk).pendingFault = none)
    (hslice : (s.groupAt gk).phase = .attached → s.slicePosted gk = false) : ∃ u, MemberFrame s u ∧ (u.groupAt gk).splits = [] ∧
      s.endGroup gk = (u.setGroupAt gk { u.groupAt gk with phase := .ended }).setSysAt gk
        { u.sysAt gk with ld := [], pendingFault := none } := by
  by_cases hphase : (s.groupAt gk).phase = .attached
  · have hframe : MemberFrame s (s.leaveBlock gk) := .leaveBlock gk
    have hnone : ((s.leaveBlock gk).sysAt gk).pendingFault = none := by
      have hpending := congrArg GroupSys.pendingFault (hframe.sysAt gk)
      exact hpending.trans hfault
    refine ⟨_, hframe, leaveBlock_splits hsplits, ?_⟩
    simp [endGroup, hphase, hslice hphase, hnone]
  · refine ⟨s, .refl s, hsplits, ?_⟩
    simp [endGroup, hphase, hfault]

end State

end Sys2Proof.Machine

open Sys2Proof Sys2Proof.Machine Sys2Proof.Machine.State

/-- Settles O11: the issuing split goes on with its record, leaves the others, or ends its group (`endGroup_eq`). -/
theorem exit : Obligations.Exit := by
  unfold Obligations.Exit
  intro s h hi
  refine ⟨fun pc k m hr => ?_, fun hr ht => ?_, fun hr ht hfault hphase => ?_⟩
  · have hexits := exits_of_record hr
    have hsnap : s.exits.snap = none := by rw [hexits]; exact h
    refine ⟨_, (exec_exit s).trans (issue_eq hi _), ?_⟩
    rw [exitSplit_of_none hsnap, hexits]
    have hsplit : ∀ x n l, ({ s.setSplit x with tick := n, last := l } : State).split = x := fun x _ _ => setSplit_split s x
    have hgroup : ∀ x n l, ({ s.setSplit x with tick := n, last := l } : State).group =
        { s.group with splits := s.group.splits.set s.cur.split x } := fun x _ _ => setSplit_group s x
    refine ⟨?_, ?_, ?_, ?_, fun n hn => ?_, ?_, setGroup_onlyGroup .., .of_eq rfl rfl rfl⟩
    · rw [hsplit]
    · rw [hsplit]
    · rw [hsplit]
    · rw [hsplit]
    · rw [hgroup, Table.at?_set_of_ne _ _ hn]
    · rw [hgroup]
  · have hexits := exits_of_others hr ht
    have hsnap : s.exits.snap = none := by rw [hexits]; exact h
    refine ⟨_, (exec_exit s).trans (issue_eq hi _), ?_⟩
    rw [exitSplit_of_none hsnap, hexits]
    exact ⟨setGroup_group .., rfl, setGroup_onlyGroup .., .of_eq rfl rfl rfl⟩
  · have hsplits : ((s.setGroup { s.group with splits := [] }).groupAt s.gkey).splits = [] := by
      rw [setGroup, groupAt_setGroupAt]
    have hgroup : (s.setGroup { s.group with splits := [] }).groupAt s.gkey = { s.group with splits := [] } := groupAt_setGroupAt ..
    have hslice : ((s.setGroup { s.group with splits := [] }).groupAt s.gkey).phase = .attached →
        (s.setGroup { s.group with splits := [] }).slicePosted s.gkey = false := by
      rw [hgroup]
      intro hattached
      rw [slicePosted, hgroup]
      exact (hphase.resolve_left (not_not_intro hattached)).2
    obtain ⟨u, hframe, hnone, hend⟩ := endGroup_eq hsplits hfault hslice
    have hexits := (exits_of_last hr ht).trans hend
    have hsnap : s.exits.snap = none := by rw [hexits]; exact hframe.snap.trans h
    have hgkey : s.exits.gkey = s.gkey := by rw [hexits]; exact congrArg (fun c => groupKey c.core c.slot) hframe.cur
    have hgroup : s.exits.group = { u.groupAt s.gkey with phase := .ended } := by
      rw [group, hgkey, hexits, groupAt_setSysAt, groupAt_setGroupAt]
    have hsys : s.exits.gsys = { u.sysAt s.gkey with ld := [], pendingFault := none } := by
      rw [gsys, hgkey, hexits, sysAt_setSysAt]
    have hkept : (u.sysAt s.gkey).unbarred = s.gsys.unbarred := hframe.sysAt s.gkey
    have hmemory : s.SameMemory s.exits := by rw [hexits]; exact hframe.sameMemory
    refine ⟨_, (exec_exit s).trans (issue_eq hi _), ?_⟩
    rw [exitSplit_of_none hsnap]
    refine ⟨congrArg Group.phase hgroup, (congrArg Group.splits hgroup).trans hnone, congrArg GroupSys.ld hsys,
      (congrArg GroupSys.st hsys).trans ?_, (congrArg GroupSys.cp hsys).trans ?_, (congrArg GroupSys.tm hsys).trans ?_, hmemory⟩
    · have hst := congrArg GroupSys.st hkept
      exact hst
    · have hcp := congrArg GroupSys.cp hkept
      exact hcp
    · have htm := congrArg GroupSys.tm hkept
      exact htm
end

section
/-!
O16: what ATTACH gives a group (R90, R93, R120, R133, R139, R148, R213).
-/

set_option Elab.async false

namespace Sys2Proof.Machine

/-! ## Segments and identifiers (R120, R212, R213) -/

theorem segBase_segment {base : Nat} (limit : Nat) (h : base < 2 ^ 64) : segBase (segment base limit) = base := by
  rw [segBase, segment, BitVec.extractLsb'_toNat, BitVec.toNat_ofNat, Nat.shiftRight_zero]
  omega

theorem segLimit_segment {base limit : Nat} (hbase : base < 2 ^ 64) (h : limit < 2 ^ 64) : segLimit (segment base limit) = limit := by
  rw [segLimit, segment, BitVec.extractLsb'_toNat, BitVec.toNat_ofNat, Nat.shiftRight_eq_div_pow]
  omega

/-- The segments of a member, where its bases and limits are addresses (R213). -/
theorem segments_eq {b : Block} {m : Nat} (hscratch : b.header.scratch < 2 ^ 64) (hslot : b.slot0 * slotBytes < 2 ^ 64)
    (hstack : b.stackBase + m * 96 * (16 * b.header.priv) < 2 ^ 64) (hpriv : 16 * b.header.priv < 2 ^ 64) (hacc : 1024 * b.header.acc < 2 ^ 64) :
    (segBase (b.segments m).g, segLimit (b.segments m).g) = (0, 2 ^ 60) ∧
    (segBase (b.segments m).s, segLimit (b.segments m).s) = (b.slot0 * slotBytes, b.header.scratch) ∧
    (segBase (b.segments m).c, segLimit (b.segments m).c) = (0, 2 ^ 24) ∧ segLimit (b.segments m).a = 1024 * b.header.acc ∧
    (segBase (b.segments m).p, segLimit (b.segments m).p) = (b.stackBase + m * 96 * (16 * b.header.priv), 16 * b.header.priv) := by
  have hseg : ∀ {base limit : Nat}, base < 2 ^ 64 → limit < 2 ^ 64 →
      (segBase (segment base limit), segLimit (segment base limit)) = (base, limit) := fun hb hl => by
    rw [segBase_segment _ hb, segLimit_segment hb hl]
  have hs : (b.segments m).s = segment (b.slot0 * slotBytes) b.header.scratch := by rw [Nat.mul_comm]; rfl
  have hp : (b.segments m).p = segment (b.stackBase + m * 96 * (16 * b.header.priv)) (16 * b.header.priv) := by rw [Nat.mul_assoc]; rfl
  rw [hs, hp]
  exact ⟨hseg (by decide) (by decide), hseg hslot hscratch, hseg (by decide) (by decide), segLimit_segment (by decide) hacc,
    hseg hstack hpriv⟩

theorem wids_getD (b : Block) (m : Nat) {q : Nat} (hq : q < 96) : (b.wids m).toArray.getD q 0 =
    BitVec.ofNat 64 (b.number * 2 ^ ((b.header.widths.take b.header.blklvl).foldl (· + ·) 0) + m * 96 + q) := by
  rw [Block.wids, Array.getD_eq_getD_getElem?]
  simp [hq, Header.laneBits]

theorem mem_bars {x : Stage} {k : Nat} : k ∈ x.bars ↔ k < 16 ∧ x.barmask.getLsbD k = true := by
  simp [Stage.bars]

namespace State

/-! ## The member index (R133) -/

/-- The members' indices that a block's groups hold. -/
def heldMembers (s : State) (id : Nat) : List Nat := ((s.groupsIn id).filter fun k => holdsMember (s.groupAt k)).map fun k => (s.groupAt k).member

theorem mem_heldMembers {s : State} {id m : Nat} :
    m ∈ s.heldMembers id ↔ ∃ k, k ∈ s.groupsIn id ∧ holdsMember (s.groupAt k) = true ∧ (s.groupAt k).member = m := by
  simp [heldMembers, and_assoc]

/-- Among one number more than a list has entries, one is not in the list. -/
theorem exists_lt_not_mem (l : List Nat) : ∃ m, m < l.length + 1 ∧ m ∉ l := by
  by_contra hall
  have hsub : Finset.range (l.length + 1) ⊆ l.toFinset := fun m hm => by
    by_contra hne
    exact hall ⟨m, Finset.mem_range.mp hm, by simpa using hne⟩
  have hcard := Finset.card_le_card hsub
  have hlen := List.toFinset_card_le l
  rw [Finset.card_range] at hcard
  omega

/-- The member index of a group that attaches is the lowest that no group of its block holds (R133). -/
theorem freeMember_lowest (s : State) (id : Nat) : s.freeMember id ∉ s.heldMembers id ∧ ∀ j, j < s.freeMember id → j ∈ s.heldMembers id := by
  have hfree : s.freeMember id = ((List.range ((s.heldMembers id).length + 1)).find? fun m => !(s.heldMembers id).contains m).getD
      (s.heldMembers id).length := rfl
  obtain ⟨m, hm, hnot⟩ := exists_lt_not_mem (s.heldMembers id)
  cases hfind : (List.range ((s.heldMembers id).length + 1)).find? fun m => !(s.heldMembers id).contains m with
  | none =>
      have := List.find?_eq_none.mp hfind m (List.mem_range.mpr hm)
      simp [hnot] at this
  | some n =>
      rw [hfree, hfind, Option.getD_some]
      rw [List.find?_range_eq_some] at hfind
      obtain ⟨hn, -, hbefore⟩ := hfind
      exact ⟨by simpa using hn, fun j hj => by simpa using hbefore j hj⟩

/-! ## Members of barriers (R139) -/

/-- A change of one group's flags at a barrier that leaves it a member leaves every member one. -/
theorem bar_member_setBar {s : State} {gk k : Nat} {f : BarFlags} (hf : f.member = true) {j i : Nat}
    (h : ((s.sysAt j).bar i).member = true) : (((s.setBar gk k f).sysAt j).bar i).member = true := by
  unfold setBar
  by_cases hj : j = gk
  · subst hj
    rw [sysAt_setSysAt]
    by_cases hi : i = k
    · subst hi
      rw [GroupSys.bar, Table.get_set_self, hf]
    · rw [GroupSys.bar, Table.get_set_of_ne _ _ _ hi]
      exact h
  · rw [sysAt_setSysAt_of_ne _ _ hj, h]

theorem bar_member_completePhase {s : State} {id k j i : Nat} (h : ((s.sysAt j).bar i).member = true) :
    (((s.completePhase id k).sysAt j).bar i).member = true := by
  have hfold : ∀ (l : List Nat) (t : State), ((t.sysAt j).bar i).member = true → (((l.foldl (fun s gk => s.setBar gk k
      { member := true, counted := true, arrived := ((s.sysAt gk).bar k).pending, pending := false }) t).sysAt j).bar i).member = true := by
    intro l
    induction l with
    | nil => exact fun t ht => ht
    | cons gk l ih => exact fun t ht => ih _ (bar_member_setBar rfl ht)
  unfold completePhase
  dsimp only
  split
  · exact hfold _ s h
  · exact h

theorem bar_member_memberJoin {s : State} {gk k j i : Nat} (h : ((s.sysAt j).bar i).member = true) :
    (((s.memberJoin gk k).sysAt j).bar i).member = true :=
  bar_member_completePhase (bar_member_completePhase (bar_member_setBar (s := s) rfl h))

theorem bar_member_memberJoin_self (s : State) (gk k : Nat) : (((s.memberJoin gk k).sysAt gk).bar k).member = true := by
  have hset : ∀ f : BarFlags, f.member = true → (((s.setBar gk k f).sysAt gk).bar k).member = true := fun f hf => by
    rw [setBar, sysAt_setSysAt, GroupSys.bar, Table.get_set_self, hf]
  exact bar_member_completePhase (bar_member_completePhase (hset _ rfl))

/-- A group that joins the barriers of a list is a member of each. -/
theorem bar_member_joins {s : State} {gk k : Nat} {l : List Nat} (hk : k ∈ l) :
    (((l.foldl (fun s k => s.memberJoin gk k) s).sysAt gk).bar k).member = true := by
  have hkeep : ∀ (l : List Nat) (t : State), ((t.sysAt gk).bar k).member = true →
      (((l.foldl (fun s k => s.memberJoin gk k) t).sysAt gk).bar k).member = true := by
    intro l
    induction l with
    | nil => exact fun t ht => ht
    | cons i l ih => exact fun t ht => ih _ (bar_member_memberJoin ht)
  induction l generalizing s with
  | nil => cases hk
  | cons i l ih =>
      rcases List.mem_cons.mp hk with rfl | hk
      · exact hkeep l _ (bar_member_memberJoin_self ..)
      · exact ih hk

@[simp] theorem done_gsys (s : State) : s.done.gsys = s.gsys := by
  rw [gsys, gsys, sysAt, sysAt, done_sys, gkey, gkey, done_cur]

/-! ## ATTACH (R133) -/

/-- The group that ATTACH makes of the issuing one. -/
def attachedGroup (s : State) : Group :=
  { s.group with
    phase := .attached, member := s.freeMember s.group.block, s := [], p := [], wid := s.block.wids (s.freeMember s.group.block), fpc := 0,
    fps := 0, shrink := false, tensor := 0, splits := [(0, { s.split with mask := BitVec.allOnes 96, record := none, age := s.now })] }

/-- What ATTACH makes stand beside the group's registers, before it joins its barriers. -/
def attachedSys (s : State) : GroupSys :=
  { s.gsys with
    csr := { s.gsys.csr with ssave := Vector.replicate 4 0 }, seg := s.block.segments (s.freeMember s.group.block),
    segAttach := s.block.segments (s.freeMember s.group.block), ld := [], st := [], cp := [], tm := [], attachAge := s.now }

/-- The state in which the group that attaches joins its barriers. -/
def attachBase (s : State) : State :=
  { s.setGroup s.attachedGroup with cur := { s.cur with split := 0 } }.setSys s.attachedSys

theorem attach_eq (s : State) : s.attach =
    ((s.block.stageOf s.group).bars).foldl (fun t k => t.memberJoin t.gkey k) s.attachBase := rfl

/-- Every barrier is joined by the group that attaches. -/
theorem joins_eq {s : State} {gk : Nat} (h : s.gkey = gk) (l : List Nat) :
    l.foldl (fun t k => t.memberJoin t.gkey k) s = l.foldl (fun t k => t.memberJoin gk k) s := by
  induction l generalizing s with
  | nil => rfl
  | cons k l ih =>
      have hcur : (s.memberJoin gk k).cur = s.cur := (MemberFrame.memberJoin gk k).cur
      rw [List.foldl_cons, List.foldl_cons, h]
      exact ih (by rw [gkey, hcur, ← h]; rfl)

section
variable (s : State)

theorem attach_eq_joins : s.attach =
    (s.block.stageOf s.group).bars.foldl (fun t k => t.memberJoin s.gkey k) s.attachBase :=
  (attach_eq s).trans (joins_eq rfl _)

theorem attach_frame : MemberFrame s.attachBase s.attach := by
  rw [attach_eq_joins]
  exact .foldl (fun _ k => .memberJoin _ k) _ _

theorem attach_cur : s.attach.cur = { s.cur with split := 0 } := (attach_frame s).cur

theorem attach_gkey : s.attach.gkey = s.gkey := by rw [gkey, attach_cur]; rfl

theorem attach_group : s.attach.group = s.attachedGroup := by
  have hgroups : s.attach.groups = s.attachBase.groups := by
    rw [attach_eq_joins]
    exact foldl_proj groups (fun _ _ => memberJoin_groups ..) _ _
  rw [group, attach_gkey, groupAt, hgroups]
  exact Table.get_set_self ..

theorem attach_gsys : s.attach.gsys.unbarred = s.attachedSys.unbarred := by
  rw [gsys, attach_gkey, (attach_frame s).sysAt]
  exact congrArg GroupSys.unbarred (sysAt_setSysAt ..)

theorem attach_sameMemory : s.SameMemory s.attach := (attach_frame s).sameMemory

theorem attach_member {k : Nat} (hk : k ∈ (s.block.stageOf s.group).bars) : (s.attach.gsys.bar k).member = true := by
  rw [gsys, attach_gkey, attach_eq_joins]
  exact bar_member_joins hk

/-- The group after ATTACH: its one split is split 0, past the word. -/
theorem attach_done_group (h : s.snap = none) : ∃ x : Split, x.mask = BitVec.allOnes 96 ∧ x.record = none ∧
    s.attach.done.group = { s.attachedGroup with splits := [(0, x)] } := by
  have hsnap : s.attach.snap = none := (attach_frame s).snap.trans h
  have hsplit : s.attach.split = { s.split with mask := BitVec.allOnes 96, record := none, age := s.now } := by
    rw [split, attach_group, attach_cur]
    rfl
  obtain ⟨hmask, hrecord, -⟩ := nextWord_rest s.attach.split s.attach.split.word
  refine ⟨issued s.attach.now (nextWord s.attach.split s.attach.split.word), hmask.trans ?_, hrecord.trans ?_, ?_⟩
  · rw [hsplit]
  · rw [hsplit]
  · rw [done_group_of_none hsnap, attach_group, attach_cur]
    rfl

end

end State

end Sys2Proof.Machine

open Sys2Proof Sys2Proof.Machine Sys2Proof.Machine.State

/-- Settles O16: the group and what stands beside it are written once (`attachedGroup`, `attachedSys`); the joins that follow change
flags at barriers and barriers alone. -/
theorem attach : Obligations.Attach := by
  unfold Obligations.Attach
  intro s h hi
  refine ⟨fun halone => ?_, fun halone => ?_⟩
  · rw [exec_attach, execAttach, issue_eq hi, halone]
    rfl
  · have hexec : exec .attach s = .next s.attach.done := by
      rw [exec_attach, execAttach, issue_eq hi, halone]
      rfl
    obtain ⟨x, hmask, hrecord, hgroup⟩ := attach_done_group s h
    have hsplit : s.attach.done.split = x := by
      rw [split, hgroup, done_cur, attach_cur]
      rfl
    have hgsys : s.attach.done.gsys.unbarred = s.attachedSys.unbarred := by rw [done_gsys, attach_gsys]
    have hmember : s.attach.done.group.member = s.freeMember s.group.block := by rw [hgroup]; rfl
    obtain ⟨hfree, hlowest⟩ := freeMember_lowest s s.group.block
    have hseg : s.attach.done.gsys.seg = s.block.segments (s.freeMember s.group.block) := by
      have := congrArg GroupSys.seg hgsys
      exact this
    refine ⟨_, hexec, ?_⟩
    intro b m
    have hm : m = s.freeMember s.group.block := hmember
    clear_value m
    subst hm
    refine ⟨by rw [hgroup]; rfl, fun k hk hheld hm => hfree (mem_heldMembers.mpr ⟨k, hk, hheld, hm⟩),
      fun j hj => mem_heldMembers.mp (hlowest j hj), fun r => by rw [hgroup]; rfl, fun p => by rw [hgroup]; rfl, by rw [hgroup]; rfl,
      by rw [hgroup]; rfl, by rw [hgroup]; rfl, by rw [hsplit, hmask], by rw [hsplit, hrecord], ?_, ?_, ?_, ?_, fun q hq => ?_,
      fun hscratch hslot hstack hpriv hacc => ?_, fun k hk hbar => ?_, ?_⟩
    · have := congrArg GroupSys.ld hgsys
      exact this
    · have := congrArg GroupSys.st hgsys
      exact this
    · have := congrArg GroupSys.cp hgsys
      exact this
    · have := congrArg GroupSys.tm hgsys
      exact this
    · rw [hgroup]
      exact wids_getD s.block _ hq
    · rw [hseg]
      exact segments_eq hscratch hslot hstack hpriv hacc
    · rw [done_gsys]
      exact attach_member s (mem_bars.mpr ⟨hk, hbar⟩)
    · rw [SameMemory, done_mem, done_spad, done_acc]
      exact attach_sameMemory s
end

section
/-!
O40: loads, stores, atomics and reductions (R100, R211 to R234): what stops a lane and what enters.
-/

set_option Elab.async false

namespace Sys2Proof.Machine.State

/-! ## Words of the active lanes (R218) -/

theorem list_setList_self (g : GroupSys) (c : Counter) (l : List Pending) : (g.setList c l).list c = l := by cases c <;> rfl

theorem list_setList_of_ne (g : GroupSys) {c d : Counter} (l : List Pending) (h : d ≠ c) : (g.setList c l).list d = g.list d := by
  cases c <;> cases d <;> simp_all [GroupSys.list, GroupSys.setList]

/-- The end of a word moves its split, in a chain or outside one, and leaves the rest of its group. -/
theorem done_frame (s : State) : { s.done.group with splits := s.group.splits } = s.group ∧ s.done.split.mask = s.split.mask ∧
    s.done.split.record = s.split.record := by
  cases h : s.snap with
  | none =>
      obtain ⟨hmask, hrecord, -⟩ := nextWord_rest s.split s.split.word
      rw [done_split_of_none h, done_group_of_none h]
      exact ⟨rfl, hmask, hrecord⟩
  | some k =>
      have hdone : s.done = { s with tick := s.tick + 1, last := .done } := by
        unfold done
        simp only [h]
      rw [hdone]
      exact ⟨rfl, rfl, rfl⟩

/-- The counters' lists are apart from the rest of what stands beside a group's registers. -/
theorem setList_rest (g : GroupSys) (c : Counter) (l : List Pending) : (g.setList c l).csr = g.csr ∧ (g.setList c l).seg = g.seg := by
  cases c <;> exact ⟨rfl, rfl⟩

/-- A word that enters an operation, whatever its orders. -/
theorem enters_of_post {i : Instr} {s : State} {c : Counter} {act : OpAct} {accs : List Access} (acq rel : Bool)
    (h : exec i s = .next (s.post c act accs acq rel).done) : s.Enters i c act accs := by
  have hgroup : (s.post c act accs acq rel).group = s.group := by rw [group, group, groupAt, groupAt, post_groups, gkey, gkey, post_cur]
  have hsplit : (s.post c act accs acq rel).split = s.split := by rw [split, split, hgroup, post_cur]
  have hlist : ∀ d, (s.post c act accs acq rel).done.gsys.list d =
      (s.gsys.setList c (s.gsys.list c ++ [s.enteredOp act accs rel])).list d := fun d => by
    rw [done_gsys, post_gsys]; cases d <;> rfl
  obtain ⟨hcsr, hseg⟩ := setList_rest s.gsys c (s.gsys.list c ++ [s.enteredOp act accs rel])
  have hframe := done_frame (s.post c act accs acq rel)
  rw [hgroup, hsplit] at hframe
  obtain ⟨hrest, hmask, hrecord⟩ := hframe
  refine ⟨_, s.enteredOp act accs rel, h, (hlist c).trans (list_setList_self ..), fun d hd => (hlist d).trans (list_setList_of_ne _ _ hd),
    rfl, rfl, rfl, rfl, rfl, rfl, rfl, rfl, hrest, hmask, hrecord, .of_eq ?_ ?_ ?_, done_last _, ?_, ?_, fun hs => ?_⟩
  · rw [done_mem, post_mem]
  · rw [done_spad, post_spad]
  · rw [done_acc, post_acc]
  · rw [done_gsys, post_gsys]; exact hcsr
  · rw [done_gsys, post_gsys]; exact hseg
  · rw [done_split_of_none (by simpa using hs), hsplit]
    exact ⟨nextWord_pc .., nextWord_word ..⟩

/-- A word that passes its checks, and otherwise stops as R218 says. -/
theorem checked_of_laneWord {i : Instr} {s : State} {kind : BitVec 5} {go : Nat → LaneGo} {effect : State → State}
    {verdict : Nat → LaneCheck} {passes : Prop} (hexec : s.Issues i.facts → exec i s = .next (s.laneWord kind go effect))
    (hverdict : ∀ l, verdict l = (go l).check)
    (hpasses : (∀ l, l ∈ s.lanes → (go l).check = .passes) → exec i s = .next (effect s) → passes) :
    Checked i s kind verdict passes := by
  intro hi
  obtain rfl : verdict = fun l => (go l).check := funext hverdict
  dsimp only
  rw [hexec hi] at hpasses ⊢
  refine ⟨fun ⟨l, hl, hb⟩ => by rw [laneWord_busy hl hb], fun hfree => ⟨fun l cls a hl hf hlow => ?_, fun hnone hstop => ?_, fun hall => ?_⟩⟩
  · rw [laneWord_fails hfree hl hf hlow]
  · have hsome : ¬ ∀ l ∈ LaneMask.list s.active, (go l).check = .passes := by
      obtain ⟨l, hl, hne⟩ := hstop
      exact fun hall => hne (hall l hl)
    rw [laneWord_of_no_fault hfree hnone, if_neg hsome]
    congr 3
  · have hnone : ∀ l, l ∈ LaneMask.list s.active → ∀ c b, (go l).check ≠ .fails c b := fun l hl c b hf =>
      LaneCheck.noConfusion ((hall l hl).symm.trans hf)
    exact hpasses hall (by rw [laneWord_of_no_fault hfree hnone]; exact congrArg _ (if_pos hall))

/-- One access of `n` bytes for each active lane, in their order (R218). -/
def oneEach (s : State) (n : Nat) (data : Nat → QWord) (place : Nat → Place) (va : Nat → Nat) : List Access := s.lanes.map fun l =>
  { lane := l, place := place l, va := va l, n, data := data l, dead := false }

/-- A word of the active lanes that enters one access for each. -/
theorem checked_of_accessWord {i : Instr} {s : State} {c : Counter} {kind : BitVec 5} {act : OpAct} {n : Nat} {go : State → Nat → LaneGo}
    {data : State → Nat → QWord} {acq rel : Bool} {verdict : Nat → LaneCheck} {place : Nat → Place} {va : Nat → Nat}
    (hexec : exec i s = s.issue i fun t => t.accessWord c kind act n (go t) (data t) acq rel)
    (hverdict : ∀ l, verdict l = (go s l).check)
    (hgoes : ∀ l, (go s l).check = .passes → (go s l).place = place l ∧ (go s l).va = va l) :
    Checked i s kind verdict (s.Enters i c act (s.oneEach n (data s) place va)) := by
  refine checked_of_laneWord (fun hi => hexec.trans (issue_eq hi _)) hverdict fun hall he => enters_of_post acq rel ?_
  have haccs : s.accessesOf n (go s) (data s) = s.oneEach n (data s) place va := by
    refine List.map_congr_left fun l hl => ?_
    obtain ⟨hplace, hva⟩ := hgoes l (hall l hl)
    rw [hplace, hva]
  rw [he, haccs]

/-! ## Lane addresses (R215) -/

section
variable (s : State) (base : SReg) (o : VReg) (l : Nat)

theorem laneAddress_zx : s.laneAddress base .zx o l = (s.readPair base).toNat + (s.readV o l).toNat := rfl

theorem laneAddress_zx_nonneg : 0 ≤ s.laneAddress base .zx o l := by
  rw [laneAddress_zx]
  positivity

end

/-! ## Lanes of each space (R216 to R218, R220) -/

section
variable (s : State) (k : AccessKind) (rule : LatRule)

theorem pageLane_check (va : Nat) : (s.pageLane va k rule).check = s.pageVerdict va k rule := by
  simp only [pageLane, pageVerdict, Int.toNat_natCast]
  split
  · rfl
  · cases s.checkPage s.cur.core s.block.context s.split.rejected va k with
    | absent => rfl
    | fails cls => rfl
    | page e level => dsimp only; split <;> rfl

/-- An address that passes is accessed where its leaf maps it. -/
theorem pageLane_goes {va : Nat} (h : (s.pageLane va k rule).check = .passes) :
    (s.pageLane va k rule).place = s.globalPlace k va ∧ (s.pageLane va k rule).va = va := by
  unfold pageLane at h ⊢
  split at h
  · cases h
  · rename_i hmiss
    rw [if_neg hmiss]
    cases hpage : s.checkPage s.cur.core s.block.context s.split.rejected va k with
    | absent => rw [hpage] at h; cases h
    | fails cls => rw [hpage] at h; cases h
    | page e level =>
        rw [hpage] at h
        dsimp only at h ⊢
        split at h
        · rename_i hrule
          have hpassed : s.passedPage k va = (e, level) := by simp only [passedPage, hpage]
          rw [if_pos hrule, globalPlace, Int.toNat_natCast, hpassed]
          exact ⟨rfl, rfl⟩
        · cases h

variable (ea : Int) (n align : Nat)

theorem globalLane_check : (s.globalLane ea n align k rule).check = s.globalVerdict ea n align k rule := by
  simp only [globalLane, globalVerdict, Bool.or_eq_true, decide_eq_true_eq]
  split
  · rfl
  · rename_i hbounds
    split
    · rfl
    · rw [pageLane_check, Int.toNat_of_nonneg (by omega)]

theorem globalLane_goes {s : State} {k : AccessKind} {rule : LatRule} {ea : Int} {n align : Nat}
    (h : (s.globalLane ea n align k rule).check = .passes) :
    (s.globalLane ea n align k rule).place = s.globalPlace k ea ∧ (s.globalLane ea n align k rule).va = ea.toNat := by
  unfold globalLane at h ⊢
  split at h
  · cases h
  · rename_i hbounds
    split at h
    · cases h
    · rename_i halign
      rw [if_neg hbounds, if_neg halign]
      simp only [Bool.or_eq_true, decide_eq_true_eq, not_or] at hbounds
      have hplace := pageLane_goes s k rule h
      rwa [Int.toNat_of_nonneg (by omega)] at hplace

end

/-- The first byte of a lane's stack (R217). -/
def stackOf (s : State) (l : Nat) : Int := segBase s.vsys.seg.p + l * segLimit s.vsys.seg.p

theorem privateLane_eq (s : State) (l : Nat) (ea : Int) (n : Nat) (k : AccessKind) (rule : LatRule) :
    s.privateLane l ea n k rule =
      if ea < 0 || (segLimit s.vsys.seg.p : Int) < ea + n then .fails .segmentBounds ea
      else if (s.stackOf l + ea) % n ≠ 0 then .fails .misalignment (s.stackOf l + ea)
      else s.pageLane (s.stackOf l + ea).toNat k rule := rfl

section
variable (s : State) (l : Nat) (k : AccessKind) (rule : LatRule) {ea : Int} (h : 0 ≤ ea) (n : Nat)
include h

theorem stackOf_add_nonneg : 0 ≤ s.stackOf l + ea := by
  have hscaled : 0 ≤ (l : Int) * segLimit s.vsys.seg.p := by positivity
  unfold stackOf
  omega

theorem privateLane_check : (s.privateLane l ea n k rule).check =
    if (segLimit s.vsys.seg.p : Int) < ea + n then .fails .segmentBounds (BitVec.ofInt 64 ea)
    else if (s.stackOf l + ea) % n ≠ 0 then .fails .misalignment (BitVec.ofInt 64 (s.stackOf l + ea))
    else s.pageVerdict (s.stackOf l + ea) k rule := by
  have hnot : ¬ ea < 0 := not_lt.mpr h
  have hva := stackOf_add_nonneg s l h
  simp only [privateLane_eq, decide_eq_false hnot, Bool.false_or, decide_eq_true_eq]
  split
  · rfl
  · split
    · rfl
    · rw [pageLane_check, Int.toNat_of_nonneg hva]

theorem privateLane_goes (hpass : (s.privateLane l ea n k rule).check = .passes) :
    (s.privateLane l ea n k rule).place = s.globalPlace k (s.stackOf l + ea) ∧
    (s.privateLane l ea n k rule).va = (s.stackOf l + ea).toNat := by
  have hva := stackOf_add_nonneg s l h
  rw [privateLane_eq] at hpass ⊢
  split at hpass
  · cases hpass
  · rename_i hbounds
    split at hpass
    · cases hpass
    · rename_i halign
      rw [if_neg hbounds, if_neg halign]
      have hplace := pageLane_goes s k rule hpass
      rwa [Int.toNat_of_nonneg hva] at hplace

end

section
variable (s : State) (ea : Int) (n : Nat)

theorem scratchLane_check : (s.scratchLane ea n).check =
    if ea < 0 ∨ (segLimit s.vsys.seg.s : Int) < ea + n then .fails .segmentBounds (BitVec.ofInt 64 ea)
    else if ea % n ≠ 0 then .fails .misalignment (BitVec.ofInt 64 ea) else .passes := by
  simp only [scratchLane, Bool.or_eq_true, decide_eq_true_eq]
  split
  · rfl
  · split <;> rfl

theorem scratchLane_goes {s : State} {ea : Int} {n : Nat} (h : (s.scratchLane ea n).check = .passes) :
    (s.scratchLane ea n).place = .spad s.cur.core (segBase s.vsys.seg.s + ea.toNat) ∧ (s.scratchLane ea n).va = ea.toNat := by
  unfold scratchLane at h ⊢
  dsimp only at h ⊢
  split at h
  · cases h
  · rename_i hbounds
    split at h
    · cases h
    · rename_i halign
      rw [if_neg hbounds, if_neg halign]
      exact ⟨rfl, rfl⟩

theorem slotHeld_iff {s : State} {context core off : Nat} :
    s.slotHeld context core off = true ↔ ∃ e, e ∈ s.blocks ∧ e.2.context = context ∧ e.2.holdsPad core off = true := by
  simp [slotHeld]

/-- The peer core of an address of the cluster window, and the byte of its scratchpad (R216). -/
def windowPeer (s : State) (ea : Int) : Nat := 4 * (s.cur.core / 4) + ea.toNat / 2 ^ 22

theorem clusterLane_eq : s.clusterLane ea n =
    if ea < 0 || (2 : Int) ^ 24 < ea + n || 3 * 2 ^ 20 < ea % 2 ^ 22 + n then .fails .segmentBounds ea
    else if ea % n ≠ 0 then .fails .misalignment ea
    else if s.slotHeld s.block.context (s.windowPeer ea) (ea.toNat % 2 ^ 22) then
      .goes (.spad (s.windowPeer ea) (ea.toNat % 2 ^ 22)) ea.toNat
    else .fails .permission ea := rfl

theorem clusterLane_check [Decidable (∃ e, e ∈ s.blocks ∧ e.2.context = s.block.context ∧
      e.2.holdsPad (s.windowPeer ea) (ea.toNat % 2 ^ 22) = true)] : (s.clusterLane ea n).check =
    if ea < 0 ∨ 2 ^ 24 < ea + n ∨ 3 * 2 ^ 20 < ea % 2 ^ 22 + n then .fails .segmentBounds (BitVec.ofInt 64 ea)
    else if ea % n ≠ 0 then .fails .misalignment (BitVec.ofInt 64 ea)
    else if ∃ e, e ∈ s.blocks ∧ e.2.context = s.block.context ∧ e.2.holdsPad (s.windowPeer ea) (ea.toNat % 2 ^ 22) = true then .passes
    else .fails .permission (BitVec.ofInt 64 ea) := by
  simp only [clusterLane_eq, Bool.or_eq_true, decide_eq_true_eq, or_assoc, slotHeld_iff]
  split
  · rfl
  · split
    · rfl
    · split <;> rfl

theorem clusterLane_goes {s : State} {ea : Int} {n : Nat} (h : (s.clusterLane ea n).check = .passes) :
    (s.clusterLane ea n).place = .spad (s.windowPeer ea) (ea.toNat % 2 ^ 22) ∧ (s.clusterLane ea n).va = ea.toNat := by
  rw [clusterLane_eq] at h ⊢
  split at h
  · cases h
  · rename_i hbounds
    split at h
    · cases h
    · rename_i halign
      rw [if_neg hbounds, if_neg halign]
      split at h
      · rename_i hheld
        rw [if_pos hheld]
        exact ⟨rfl, rfl⟩
      · cases h

end

/-! ## RED (R232 to R234) -/

section
variable (s : State) (base : SReg) (o : VReg) (fn : AtomFn) (l : Nat)

theorem redLane_check : (s.redLane base o fn l).check =
    if 2 ^ 60 < s.laneAddress base .zx o l + fn.bytes then
      .fails .segmentBounds (BitVec.ofInt 64 (s.laneAddress base .zx o l))
    else if s.laneAddress base .zx o l % fn.bytes ≠ 0 then
      .fails .misalignment (BitVec.ofInt 64 (s.laneAddress base .zx o l))
    else match windowAt s.vcontext (s.laneAddress base .zx o l).toNat with
      | some (k, _) => if winOp (s.vcontext.windows.get k 0) = fn.code then .passes
          else .fails .permission (BitVec.ofInt 64 (s.laneAddress base .zx o l))
      | none => s.pageVerdict (s.laneAddress base .zx o l) .write writeRule := by
  simp only [redLane]
  split
  · rfl
  · split
    · rfl
    · cases windowAt s.vcontext (s.laneAddress base .zx o l).toNat with
      | none => exact (pageLane_check ..).trans (by rw [Int.toNat_of_nonneg (laneAddress_zx_nonneg ..)])
      | some at_ => dsimp only; split <;> rfl

theorem redLane_goes {s : State} {base : SReg} {o : VReg} {fn : AtomFn} {l : Nat} (h : (s.redLane base o fn l).check = .passes) :
    (s.redLane base o fn l).place = (match windowAt s.vcontext (s.laneAddress base .zx o l).toNat with
      | some (k, off) => .window k off (winHome (s.vcontext.windows.get k 0)) (winGroup (s.vcontext.windows.get k 0))
      | none => s.globalPlace .write (s.laneAddress base .zx o l)) ∧
    (s.redLane base o fn l).va = (s.laneAddress base .zx o l).toNat := by
  simp only [redLane] at h ⊢
  split at h
  · cases h
  · rename_i hbounds
    split at h
    · cases h
    · rename_i halign
      rw [if_neg hbounds, if_neg halign]
      cases hat : windowAt s.vcontext (s.laneAddress base .zx o l).toNat with
      | none =>
          rw [hat] at h
          have hplace := pageLane_goes s .write writeRule h
          rwa [Int.toNat_of_nonneg (laneAddress_zx_nonneg ..)] at hplace
      | some at_ =>
          rw [hat] at h
          dsimp only at h ⊢
          split at h
          · rename_i hop
            rw [if_pos hop]
            exact ⟨rfl, rfl⟩
          · cases h

end

/-! ## One operation for the active lanes, by its space -/

section
variable {i : Instr} {s : State} {c : Counter} {kind : BitVec 5} {act : OpAct} {n : Nat} {data : State → Nat → QWord} {acq rel : Bool}
  {base : SReg} {f : OffForm} {o : VReg} {ea : Nat → Int} {k : AccessKind} {rule : State → LatRule}

/-- In global memory an address is checked and accessed by its page. -/
theorem checked_global (hea : ∀ l, s.laneAddress base f o l = ea l)
    (hexec : exec i s = s.issue i fun t => t.accessWord c kind act n (t.laneGo .g base f o n k (rule t)) (data t) acq rel) :
    Checked i s kind (fun l => s.globalVerdict (ea l) n n k (rule s)) 
      (s.Enters i c act (s.oneEach n (data s) (fun l => s.globalPlace k (ea l)) fun l => (ea l).toNat)) := by
  obtain rfl := funext hea
  exact checked_of_accessWord (go := fun t => t.laneGo .g base f o n k (rule t)) hexec
    (fun l => (globalLane_check ..).symm) fun l h => globalLane_goes h

/-- In a stack the offset is checked against the limit, and then the address by its page. -/
theorem checked_private (hea : ∀ l, s.laneAddress base f o l = ea l) (hnonneg : ∀ l, 0 ≤ ea l)
    (hexec : exec i s = s.issue i fun t => t.accessWord c kind act n (t.laneGo .p base f o n k (rule t)) (data t) acq rel) :
    Checked i s kind (fun l =>
        if (segLimit s.vsys.seg.p : Int) < ea l + n then .fails .segmentBounds (BitVec.ofInt 64 (ea l))
        else if (s.stackOf l + ea l) % n ≠ 0 then .fails .misalignment (BitVec.ofInt 64 (s.stackOf l + ea l))
        else s.pageVerdict (s.stackOf l + ea l) k (rule s))
      (s.Enters i c act (s.oneEach n (data s) (fun l => s.globalPlace k (s.stackOf l + ea l)) fun l => (s.stackOf l + ea l).toNat)) := by
  obtain rfl := funext hea
  exact checked_of_accessWord (go := fun t => t.laneGo .p base f o n k (rule t)) hexec
    (fun l => (privateLane_check s l k (rule s) (hnonneg l) n).symm) fun l => privateLane_goes s l k (rule s) (hnonneg l) n

/-- In the scratchpad the segment's limit and the alignment are all that stops a lane. -/
theorem checked_scratch (hea : ∀ l, s.laneAddress base f o l = ea l)
    (hexec : exec i s = s.issue i fun t => t.accessWord c kind act n (t.laneGo .s base f o n k (rule t)) (data t) acq rel) :
    Checked i s kind (fun l =>
        if ea l < 0 ∨ (segLimit s.vsys.seg.s : Int) < ea l + n then .fails .segmentBounds (BitVec.ofInt 64 (ea l))
        else if ea l % n ≠ 0 then .fails .misalignment (BitVec.ofInt 64 (ea l)) else .passes)
      (s.Enters i c act (s.oneEach n (data s) (fun l => .spad s.cur.core (segBase s.vsys.seg.s + (ea l).toNat)) fun l => (ea l).toNat)) := by
  obtain rfl := funext hea
  exact checked_of_accessWord (go := fun t => t.laneGo .s base f o n k (rule t)) hexec
    (fun l => (scratchLane_check ..).symm) fun l h => scratchLane_goes h

/-- In the cluster window a block of the context must hold the peer's byte. -/
theorem checked_cluster [∀ l, Decidable (∃ e, e ∈ s.blocks ∧ e.2.context = s.block.context ∧
      e.2.holdsPad (s.windowPeer (ea l)) ((ea l).toNat % 2 ^ 22) = true)] (hea : ∀ l, s.laneAddress base f o l = ea l)
    (hexec : exec i s = s.issue i fun t => t.accessWord c kind act n (t.laneGo .c base f o n k (rule t)) (data t) acq rel) :
    Checked i s kind (fun l =>
        if ea l < 0 ∨ 2 ^ 24 < ea l + n ∨ 3 * 2 ^ 20 < ea l % 2 ^ 22 + n then
          .fails .segmentBounds (BitVec.ofInt 64 (ea l))
        else if ea l % n ≠ 0 then .fails .misalignment (BitVec.ofInt 64 (ea l))
        else if ∃ e, e ∈ s.blocks ∧ e.2.context = s.block.context ∧
          e.2.holdsPad (s.windowPeer (ea l)) ((ea l).toNat % 2 ^ 22) = true then .passes
        else .fails .permission (BitVec.ofInt 64 (ea l)))
      (s.Enters i c act (s.oneEach n (data s) (fun l => .spad (s.windowPeer (ea l)) ((ea l).toNat % 2 ^ 22)) fun l => (ea l).toNat)) := by
  obtain rfl := funext hea
  exact checked_of_accessWord (go := fun t => t.laneGo .c base f o n k (rule t)) hexec
    (fun l => (clusterLane_check ..).symm) fun l h => clusterLane_goes h

end

/-- An address form that is not of a stack names global memory (R215). -/
theorem formSpace_of_ne {f : OffForm} (h : f ≠ .prv) : formSpace f = .g := if_neg h

theorem exec_ldg_of_ne {f : OffForm} (h : f ≠ .prv) (x o : VReg) (base : SReg) (w : LoadWidth) (s : State) :
    exec (.ldg x o base w f) s = s.issue (.ldg x o base w f) fun t => t.loadWord .g x o base w f := by
  rw [exec_ldg, execLdg, formSpace_of_ne h]

theorem exec_stg_of_ne {f : OffForm} (h : f ≠ .prv) (x o : VReg) (base : SReg) (w : StoreWidth) (s : State) :
    exec (.stg x o base w f) s = s.issue (.stg x o base w f) fun t => t.storeWord .g x o base w f := by
  rw [exec_stg, execStg, formSpace_of_ne h]

theorem exec_ldg_prv (x o : VReg) (base : SReg) (w : LoadWidth) (s : State) :
    exec (.ldg x o base w .prv) s = s.issue (.ldg x o base w .prv) fun t => t.loadWord .p x o base w .prv := rfl

theorem exec_stg_prv (x o : VReg) (base : SReg) (w : StoreWidth) (s : State) :
    exec (.stg x o base w .prv) s = s.issue (.stg x o base w .prv) fun t => t.storeWord .p x o base w .prv := rfl

/-! ## SMEM (R100) -/

/-- An SMEM word stops at its one address, or enters one access. -/
theorem scalarAccess_cases {i : Instr} {s : State} {c : Counter} {kind : BitVec 5} {k : AccessKind} {act : OpAct} {base : SReg}
    {imm : BitVec 11} {n : Nat} {data : State → QWord} {rule : State → LatRule}
    (hexec : exec i s = s.issue i fun t => t.scalarAccess c kind k act base imm n (data t) (rule t)) (hi : s.Issues i.facts) :
    match s.globalVerdict (s.scalarAddress base imm n) n n k (rule s) with
    | .fails cls a => exec i s = .next (s.fault cls a none)
    | .absent pages => exec i s = .next (s.suspend pages kind)
    | .busy => exec i s = .next s.stalled
    | .passes => s.Enters i c act
        [{ lane := 0, place := s.globalPlace k (s.scalarAddress base imm n), va := (s.scalarAddress base imm n).toNat, n,
           data := data s, dead := false }] := by
  rw [issue_eq hi] at hexec
  simp only [scalarAccess, groupWord, globalLane_check] at hexec
  cases hv : s.globalVerdict (s.scalarAddress base imm n) n n k (rule s) with
  | fails cls a => rw [hexec, hv]
  | absent pages => rw [hexec, hv]
  | busy => rw [hexec, hv]
  | passes =>
      rw [hv] at hexec
      obtain ⟨hplace, hva⟩ := globalLane_goes ((globalLane_check ..).trans hv)
      rw [hplace, hva] at hexec
      exact enters_of_post false false hexec

end Sys2Proof.Machine.State

open Sys2Proof Sys2Proof.Machine Sys2Proof.Machine.State

/-- Settles O40: every word's lanes are checked in the order of R218 (`checked_of_accessWord`), by the check of the word's space. -/
theorem memoryWords : Obligations.MemoryWords := by
  unfold Obligations.MemoryWords
  refine ⟨fun s d base imm => ⟨fun hi => ?_, fun hi => ?_, fun hi => ?_, fun hi => ?_⟩, fun s x o base => ?_⟩
  · exact scalarAccess_cases (exec_sld32 ..) hi
  · exact scalarAccess_cases (exec_sld64 ..) hi
  · exact scalarAccess_cases (exec_sldK ..) hi
  · exact scalarAccess_cases (exec_sst ..) hi
  intro off ea read write sBase sLimit pBase pLimit one global stack pad window stored operand
  have hea : ∀ f l, s.laneAddress base f o l = ea f l := fun f l => by cases f <;> rfl
  have hzx : ∀ l, 0 ≤ ea .zx l := fun l => (hea .zx l) ▸ laneAddress_zx_nonneg ..
  have hstored : ∀ w, s.storeData w x = stored w := fun w => by cases w <;> rfl
  have hoperand : ∀ fn, s.atomData fn x = operand fn := fun fn => by cases fn <;> rfl
  refine ⟨fun w f hf => ?_, fun w f hf => ?_, fun w => ?_, fun w => ?_, fun w f => ?_, fun w f => ?_, fun w f => ?_, fun w f => ?_,
    fun sc => ?_, fun sc => ?_, fun sc => ?_, fun sc => ?_, fun fn => ?_, fun fn => ?_, fun fn => ?_, fun fn => ?_⟩
  · exact checked_global (hea f) (exec_ldg_of_ne hf ..)
  · rw [← hstored w]
    exact checked_global (hea f) (exec_stg_of_ne hf ..)
  · exact checked_private (hea .prv) hzx (exec_ldg_prv ..)
  · rw [← hstored w]
    exact checked_private (hea .prv) hzx (exec_stg_prv ..)
  · exact checked_scratch (hea f) (exec_lds ..)
  · rw [← hstored w]
    exact checked_scratch (hea f) (exec_sts ..)
  · exact checked_cluster (hea f) (exec_ldc ..)
  · rw [← hstored w]
    exact checked_cluster (hea f) (exec_stc ..)
  · exact checked_global (hea .zx) (exec_lda ..)
  · exact checked_global (hea .zx) (exec_lda ..)
  · exact checked_global (hea .zx) (exec_stl ..)
  · exact checked_global (hea .zx) (exec_stl ..)
  · rw [← hoperand fn]
    exact checked_global (hea .zx) (exec_atom ..)
  · rw [← hoperand fn]
    exact checked_global (hea .zx) (exec_atoma ..)
  · rw [← hoperand fn]
    exact checked_scratch (hea .zx) (exec_atoms ..)
  · rw [← hoperand fn]
    exact checked_of_accessWord (exec_red ..) (fun l => ((hea .zx l) ▸ redLane_check s base o fn l).symm)
      fun l h => (hea .zx l) ▸ redLane_goes h
end

section
/-!
O50, the header check: a refused launch leaves its queue, a read that stops ends its context (R119, R356).
-/

set_option Elab.async false

namespace Sys2Proof.Machine

theorem Table.exists_at?_of_mem {t : Table α} {k : Nat} {v : α} (h : (k, v) ∈ t) : ∃ w, t.at? k = some w := by
  induction t with
  | nil => cases h
  | cons e t ih =>
      obtain ⟨j, w⟩ := e
      simp only [Table.at?]
      split
      · exact ⟨w, rfl⟩
      · rename_i hj
        rcases List.mem_cons.mp h with heq | hmem
        · exact absurd (congrArg Prod.fst heq).symm hj
        · exact ih hmem

namespace State

/-! ## Events -/

/-- The state after an event that leaves `t`: who issues stays as it was (R3). -/
def after (s t : State) : State := { t with cur := s.cur, tick := t.tick + 1 }

section
variable {i : Instr} {s : State} {p q id : Nat} {phase : LaunchPhase} {due : Launch → Bool} {effect : State → Nat → State}
  {P : State → Prop}

/-- An event of the launch at the head of a queue, which stands in the phase that the event asks for. -/
theorem happens_of_head (he : exec i s = s.headEvent p q phase due effect) (hhead : s.headIn p q phase = some id)
    (hdue : due (s.launchAt id) = true) (h : P (s.after (effect s id))) : Happens i s P :=
  happens_of_event (effect := fun t => effect t id) (by rw [he, headEvent, hhead]) hdue h

theorem phase_of_headIn (h : s.headIn p q phase = some id) : (s.launchAt id).phase = phase := by
  unfold headIn at h
  split at h
  · split at h
    · rename_i hphase
      obtain rfl := Option.some.inj h
      simp only [Bool.and_eq_true, decide_eq_true_eq] at hphase
      exact hphase.1
    · cases h
  · cases h

end

/-! ## What leaves the launches alone -/

section
variable (s : State) (c : Nat)

@[simp] theorem askPeer_launches (m : FabricMessage) : (s.askPeer m).launches = s.launches := rfl

@[simp] theorem postEvent_launches (r : EventRecord) : (s.postEvent c r).launches = s.launches :=
  postEvent_proj s c r launches (by simp) (by simp) (by simp)

/-- What a write to memory notes beside its bytes stands in the firmware's records and toward the host (R404, R420). -/
theorem noted_proj (π : State → β) (hhw : ∀ t h, π (setHw t h) = π t) (hfirm : ∀ t c f, π (setFirmAt t c f) = π t) (pa f : Nat) :
    π ((s.backInvalidate pa).noteFrame c f) = π s := by
  have hback : π (s.backInvalidate pa) = π s := by
    unfold backInvalidate
    split
    · exact hhw ..
    · rfl
  rw [← hback]
  unfold noteFrame
  split
  · split
    · rfl
    · exact hfirm ..
  · rfl

/-- A write to memory changes its bytes, and else only what it notes. -/
theorem memWrite_proj (π : State → β) (hhw : ∀ t h, π (setHw t h) = π t) (hfirm : ∀ t c f, π (setFirmAt t c f) = π t)
    (hmem : ∀ t m, π (setMem t m) = π t) (pa : Nat) (l : List Byte) : π (s.memWrite c pa l) = π s :=
  (hmem ..).trans (noted_proj s c π hhw hfirm ..)

@[simp] theorem memWrite_launches (pa : Nat) (l : List Byte) : (s.memWrite c pa l).launches = s.launches :=
  memWrite_proj s c launches (fun _ _ => rfl) (fun _ _ _ => rfl) (fun _ _ => rfl) ..

theorem memWrite_mem (pa : Nat) (l : List Byte) : (s.memWrite c pa l).mem = s.mem.setBytes pa l :=
  congrArg (Memory.setBytes · pa l) (noted_proj s c mem (fun _ _ => rfl) (fun _ _ _ => rfl) ..)

@[simp] theorem spoilAcc_launches (b : Nat) (l : List Nat) : (s.spoilAcc b l).launches = s.launches := by
  unfold spoilAcc
  exact foldl_proj launches (fun t x => by split <;> rfl) l s

@[simp] theorem padWrite_launches (core off : Nat) (l : List Byte) (push : Bool) (n : Nat) :
    (s.padWrite core off l push n).launches = s.launches := by
  have hspoil : ∀ (es : List MatrixEntry) (t : State), (es.foldl (fun s e => s.spoilAcc e.block e.entries) t).launches = t.launches :=
    foldl_proj launches fun t e => spoilAcc_launches t e.block e.entries
  have hcluster : ∀ (t : State) (k : Nat) (x : Cluster),
      (if t.clusters.at? k = none then t else t.setClusterAt k x).launches = t.launches := fun t k x => by split <;> rfl
  unfold padWrite
  dsimp only
  split
  · rw [setBlockAt_launches, hspoil, hcluster, setSpad_launches]
  · rw [hspoil, hcluster, setSpad_launches]

@[simp] theorem writePlace_launches (p : Pending) (a : Access) (x : Nat) : (s.writePlace c p a x).launches = s.launches := by
  unfold writePlace
  split
  · rfl
  · split <;> simp

@[simp] theorem dropEarly_launches (gk : Nat) (a : Access) : (s.dropEarly gk a).launches = s.launches := by
  unfold dropEarly; dsimp only; split <;> rfl

@[simp] theorem constRead_launches (core n : Nat) (a : Access) (reply : QWord) : (s.constRead core n a reply).2.launches = s.launches := by
  unfold constRead
  split
  · dsimp only
    split
    · rfl
    · split <;> rfl
  · rfl
  · rfl

@[simp] theorem performAccess_launches (gk : Nat) (p : Pending) (a : Access) (reply : QWord) :
    (s.performAccess gk c p a reply).1.launches = s.launches := by
  unfold performAccess
  dsimp only
  cases p.act with
  | load w x | scalarLoad n d => dsimp only; split <;> simp
  | atom fn x =>
      dsimp only
      split
      · simp
      · split <;> simp
  | red fn => dsimp only; split <;> simp
  | asserting ty => dsimp only; split <;> simp
  | _ => simp

@[simp] theorem performWindow_launches (p : Pending) : (s.performWindow p).1.launches = s.launches := by
  unfold performWindow
  split
  · dsimp only
    exact foldl_proj launches (by simp) _ s
  · rfl

@[simp] theorem engineAsk_launches (core a n k : Nat) : (s.engineAsk core c a n k).launches = s.launches := by
  unfold engineAsk; split <;> rfl

@[simp] theorem engineWrite_launches (core a : Nat) (l : List Byte) : (s.engineWrite core c a l).launches = s.launches := by
  unfold engineWrite; split <;> simp

@[simp] theorem destWrite_launches (core : Nat) (r : CopyRequest) (off : Nat) (l : List Byte) :
    (s.destWrite core r off l).launches = s.launches := by
  unfold destWrite
  split
  · simp
  · simp
  · split <;> rfl

@[simp] theorem writeUnit_launches (core : Nat) (r : CopyRequest) (u : Nat) : (s.writeUnit core r u).launches = s.launches := by
  unfold writeUnit
  split
  · simp
  · exact foldl_proj launches (by simp) _ s

@[simp] theorem askUnit_launches (core : Nat) (r : CopyRequest) (bytes : BitVec 32) (u : Nat) :
    (s.askUnit core r bytes u).launches = s.launches := by
  unfold askUnit
  split
  · exact foldl_proj launches (by simp) _ s
  · rfl

/-! ## The end of a context (R356) -/

@[simp] theorem wholeOp_launches (gk : Nat) (p : Pending) : (s.wholeOp gk c p).launches = s.launches := by
  unfold wholeOp
  exact (foldl_proj (fun r : State × Pending => r.1.launches) (by simp) _ _).trans (performWindow_launches ..)

@[simp] theorem wholeCopy_launches (core : Nat) (r : CopyRequest) : (s.wholeCopy core r).launches = s.launches := by
  unfold wholeCopy
  exact foldl_proj launches (fun t u => by split <;> simp) _ s

@[simp] theorem wholeWork_launches : (s.wholeWork c).launches = s.launches := by
  have hgroup : ∀ (t : State) gk, (((t.sysAt gk).all.filter Pending.begun).foldl (fun t p => t.wholeOp gk c p) t).launches = t.launches :=
    fun t gk => foldl_proj launches (by simp) _ t
  unfold wholeWork
  exact (foldl_proj launches (by simp) _ _).trans (foldl_proj launches hgroup _ s)

@[simp] theorem markStopped_foldl_launches (l : List Nat) : (l.foldl markStopped s).launches = s.launches :=
  foldl_proj launches (fun _ _ => by rfl) l s

theorem removeContext_launches : (s.removeContext c).launches =
    s.launches.filter fun e => !((s.launches.filter fun e => e.2.context == c).map Prod.fst).contains e.1 := by
  rw [← wholeWork_launches s c, removeContext, freeFrames_launches, markStopped_foldl_launches]
  rfl

/-- No launch of a context that is killed is left (R356). -/
theorem killWith_launch_gone {s : State} {c id : Nat} (r : EventRecord) (h : (s.launchAt id).context = c) :
    (s.killWith c r).launches.at? id = none := by
  have hsame : (s.killWith c r).launches = (((s.postEvent c r).keepRecords c).removeContext c).launches := by rw [killWith]
  have hkeep : ((s.postEvent c r).keepRecords c).launches = s.launches := postEvent_launches ..
  rw [hsame, removeContext_launches, hkeep]
  refine Option.eq_none_iff_forall_ne_some.mpr fun l hl => ?_
  obtain ⟨hmem, hkey⟩ := List.mem_filter.mp (Table.mem_of_at? hl)
  obtain ⟨m, hm⟩ := Table.exists_at?_of_mem hmem
  have hcontext : m.context = c := by rw [← h, launchAt, Table.get_of_at? hm]
  have hothers : ∀ x, (id, x) ∈ s.launches → x.context ≠ c := by simpa using hkey
  exact hothers m (Table.mem_of_at? hm) hcontext

end

end State

end Sys2Proof.Machine
end

section
/-!
O50, the header check and the dependence: what a launch in a queue becomes (R119, R123).
-/

set_option Elab.async false

namespace Sys2Proof.Machine.State

/-! ## Refusal (R119) -/

section
variable (s : State) (id status : Nat)

/-- The launch is refused with a status: it is gone, and a record is posted. -/
def Refused (t : State) : Prop :=
  ({ t with
    cur := ((s.dropLaunch id).postEvent (s.launchAt id).context
      (eventOf (s.launchAt id).context 6 status 0 (BitVec.ofNat 64 (s.launchAt id).headerAddr))).cur
    tick := ((s.dropLaunch id).postEvent (s.launchAt id).context
      (eventOf (s.launchAt id).context 6 status 0 (BitVec.ofNat 64 (s.launchAt id).headerAddr))).tick } : State) =
    (s.dropLaunch id).postEvent (s.launchAt id).context
      (eventOf (s.launchAt id).context 6 status 0 (BitVec.ofNat 64 (s.launchAt id).headerAddr)) ∧
  t.launches.at? id = none ∧ t.blocks = s.blocks ∧ t.groups = s.groups

variable {s id}

/-- A launch that no host command waits for. -/
theorem refuseLaunch_of_no_command (h : (s.launchAt id).command = none) : s.refuseLaunch id status =
    (s.dropLaunch id).postEvent (s.launchAt id).context
      (eventOf (s.launchAt id).context 6 status 0 (BitVec.ofNat 64 (s.launchAt id).headerAddr)) := by
  unfold refuseLaunch
  dsimp only
  rw [h]

theorem refuseLaunch_gone (h : (s.launchAt id).command = none) : (s.refuseLaunch id status).launches.at? id = none ∧
    (s.refuseLaunch id status).blocks = s.blocks ∧ (s.refuseLaunch id status).groups = s.groups := by
  rw [refuseLaunch_of_no_command status h, postEvent_launches, postEvent_blocks, postEvent_groups]
  exact ⟨Table.at?_erase_self .., rfl, rfl⟩

theorem refused_of_eq {status : Nat} {t : State} (h : (s.launchAt id).command = none) (ht : t = s.refuseLaunch id status) :
    s.Refused id status (s.after t) := by
  rw [ht]
  exact ⟨by rw [← refuseLaunch_of_no_command status h]; rfl, refuseLaunch_gone status h⟩

end

/-! ## A launch in its next phase -/

/-- Nothing but a launch has changed. -/
def OnlyLaunch (s : State) (id : Nat) (t : State) (m : Launch) : Prop :=
  t.launches.at? id = some m ∧ { t with launches := s.launches, tick := s.tick } = s ∧ ∀ k, k ≠ id → t.launches.at? k = s.launches.at? k

theorem onlyLaunch_of_eq {s t : State} {id : Nat} {m : Launch} (ht : t = s.setLaunchAt id m) : s.OnlyLaunch id (s.after t) m := by
  rw [ht]
  exact ⟨Table.at?_set_self .., rfl, fun _ hk => Table.at?_set_of_ne _ _ hk⟩

/-! ## The header check (R119, R121) -/

/-- The conditions of refusal are numbered in ascending order. -/
theorem headerFaults_statuses (w r : List DWord) : (headerFaults w r).map Prod.snd = [1, 2, 3, 4, 5, 6, 7] := rfl

/-- Of conditions in ascending order the lowest that is met gives the status. -/
theorem lowestStatus_eq_some {l : List (Bool × Nat)} {status : Nat} (hsorted : (l.map Prod.snd).Pairwise (· < ·))
    (hmet : (true, status) ∈ l) (hlow : ∀ k, k < status → (true, k) ∉ l) : lowestStatus l = some status := by
  induction l with
  | nil => cases hmet
  | cons e l ih =>
      obtain ⟨met, k⟩ := e
      rw [List.map_cons, List.pairwise_cons] at hsorted
      obtain ⟨hfirst, hrest⟩ := hsorted
      cases met with
      | true =>
          rcases List.mem_cons.mp hmet with heq | hin
          · cases heq; rfl
          · exact absurd List.mem_cons_self (hlow k (hfirst status (List.mem_map_of_mem hin)))
      | false =>
          have hin : (true, status) ∈ l := (List.mem_cons.mp hmet).resolve_left (by simp)
          exact ih hrest hin fun j hj hmem => hlow j hj (List.mem_cons_of_mem _ hmem)

theorem lowestStatus_eq_none {l : List (Bool × Nat)} (h : ∀ e, e ∈ l → e.1 = false) : lowestStatus l = none := by
  rw [lowestStatus, List.find?_eq_none.mpr fun e he => by simp [h e he]]
  rfl

section
variable {s : State} {id : Nat}

theorem checkHeader_of_fails
    (h : s.launchRead (s.launchCore (s.launchAt id).context) (s.launchAt id).context (s.launchAt id).headerAddr 128 = .fails) :
    s.checkHeader id = s.refuseLaunch id 8 := by
  unfold checkHeader
  dsimp only
  rw [h]

theorem checkHeader_of_stops {z : Hazard}
    (h : s.launchRead (s.launchCore (s.launchAt id).context) (s.launchAt id).context (s.launchAt id).headerAddr 128 = .stops z) :
    s.checkHeader id = s.hazardKill (s.launchAt id).context z := by
  unfold checkHeader
  dsimp only
  rw [h]

/-- A header and a relay table that were read without a word to a peer: the lowest condition refuses, else the launch goes on. -/
theorem checkHeader_of_bytes {b : List Byte} {r : List DWord}
    (h : s.launchRead (s.launchCore (s.launchAt id).context) (s.launchAt id).context (s.launchAt id).headerAddr 128 = .bytes b)
    (hask : s.launchAsk (s.launchCore (s.launchAt id).context) (s.launchAt id).context (s.launchAt id).headerAddr 128 id = s)
    (htable : (headerOf (dwordsOf b 16)).relays ≠ 0 → s.launchAsk (s.launchCore (s.launchAt id).context) (s.launchAt id).context
      (headerOf (dwordsOf b 16)).relaytab (8 * (headerOf (dwordsOf b 16)).relays) id = s)
    (hr : ((headerOf (dwordsOf b 16)).relays = 0 ∧ r = []) ∨ ((headerOf (dwordsOf b 16)).relays ≠ 0 ∧
      ∃ c, s.launchRead (s.launchCore (s.launchAt id).context) (s.launchAt id).context (headerOf (dwordsOf b 16)).relaytab
        (8 * (headerOf (dwordsOf b 16)).relays) = .bytes c ∧ r = dwordsOf c (headerOf (dwordsOf b 16)).relays)) :
    s.checkHeader id = (lowestStatus (headerFaults (dwordsOf b 16) r)).elim (s.setLaunchAt id { s.launchAt id with
      header := headerOf (dwordsOf b 16), relays := r.map relayOfWord,
      phase := if (headerOf (dwordsOf b 16)).afterva = 0 then .ready else .waiting, recheckAt := s.now }) (s.refuseLaunch id) := by
  unfold checkHeader
  dsimp only
  rw [h]
  dsimp only
  rw [hask]
  rcases hr with ⟨hzero, rfl⟩ | ⟨hsome, c, hc, rfl⟩
  · have hnil : dwordsOf [] 0 = [] := rfl
    rw [if_pos hzero, if_pos hzero, hzero]
    dsimp only
    rw [hnil]
    cases lowestStatus (headerFaults (dwordsOf b 16) []) <;> rfl
  · rw [if_neg hsome, if_neg hsome, htable hsome, hc]
    dsimp only
    cases lowestStatus (headerFaults (dwordsOf b 16) (dwordsOf c (headerOf (dwordsOf b 16)).relays)) <;> rfl

end

/-! ## A frame that has failed (R391, R439) -/

section
variable (s : State) (f : Nat)

theorem dropOwner_rest : (s.dropOwner f).launches = s.launches ∧ (s.dropOwner f).blocks = s.blocks ∧
    (s.dropOwner f).groups = s.groups := by
  unfold dropOwner
  dsimp only
  split
  · have hparts := foldl_proj (f := fun (t : State) (e : Nat × Context) => t.dropEntries e.1 none)
      (fun t => (t.launches, t.blocks, t.groups)) (fun _ _ => rfl) s.contexts s
    simpa only [Prod.mk.injEq] using hparts
  · exact ⟨rfl, rfl, rfl⟩

theorem quarantineOf_rest (c : Nat) : (s.quarantineOf c f).launches = s.launches ∧ (s.quarantineOf c f).blocks = s.blocks ∧
    (s.quarantineOf c f).groups = s.groups := by
  unfold quarantineOf
  split
  · unfold decided
    split
    · exact dropOwner_rest s.voted f
    · exact ⟨rfl, rfl, rfl⟩
  · exact ⟨rfl, rfl, rfl⟩

theorem foundBad_rest (c pa : Nat) : (s.foundBad c pa).launches = s.launches ∧ (s.foundBad c pa).blocks = s.blocks ∧
    (s.foundBad c pa).groups = s.groups := quarantineOf_rest s (pa / 65536) c

end

/-- A context that a hazard of its launch ends is gone, its launch among the rest (R219, R356, R439). -/
theorem hazardKill_gone {s : State} {c id : Nat} (z : Hazard) (h : (s.launchAt id).context = c) :
    (s.hazardKill c z).contexts.at? c = none ∧ (s.hazardKill c z).launches.at? id = none := by
  cases z with
  | memory pa =>
      obtain ⟨hlaunches, -, -⟩ := quarantineOf_rest s (pa / 65536) c
      refine ⟨(killWith_gone ..).1, killWith_launch_gone _ ?_⟩
      rw [launchAt, logError_launches, hlaunches]
      exact h
  | containment va => exact ⟨(killWith_gone ..).1, killWith_launch_gone _ h⟩

/-! ## The dependence (R123) -/

/-- What the check of a launch's dependence word comes to. -/
def dependenceCheck (s : State) (id : Nat) : PageCheck :=
  s.checkPage (s.launchCore (s.launchAt id).context) (s.launchAt id).context [] (s.launchAt id).header.afterva .read

/-- The places of a lattice dependence are usable (R269). -/
def LatticeDependence (s : State) (id : Nat) (e : DWord) : Prop :=
  (s.contextAt (s.launchAt id).context).regionAt (s.launchAt id).header.afterva ≠ none ∧
  ∀ pa, pa ∈ s.replicaPlaces (s.launchAt id).context e (s.launchAt id).header.afterva →
    s.frameUsable (s.launchAt id).context (pa / 65536) = true

section
variable {s : State} {id : Nat} {e : DWord}

theorem latticeDependence_iff : s.LatticeDependence id e ↔
    ¬ (((s.contextAt (s.launchAt id).context).regionAt (s.launchAt id).header.afterva).isNone ||
      (s.replicaPlaces (s.launchAt id).context e (s.launchAt id).header.afterva).any fun pa =>
        !s.frameUsable (s.launchAt id).context (pa / 65536)) = true := by
  simp [LatticeDependence]

theorem weighDependence_of_le {v : Nat} (h : (s.launchAt id).header.afterv ≤ v) :
    s.weighDependence id v = s.setLaunchAt id { s.launchAt id with phase := .ready } := by
  rw [weighDependence, if_pos h]

theorem weighDependence_of_lt {v : Nat} (h : v < (s.launchAt id).header.afterv) :
    s.weighDependence id v = s.setLaunchAt id { s.launchAt id with recheckAt := s.now + 65536 } := by
  rw [weighDependence, if_neg (Nat.not_le.mpr h)]

variable (reply : DWord)

theorem readDependence_of_misaligned (h : (s.launchAt id).header.afterva % 8 ≠ 0) :
    s.readDependence id reply = s.refuseLaunch id 9 := by
  simp [readDependence, h]

section
variable (halign : (s.launchAt id).header.afterva % 8 = 0) (hbelow : (s.launchAt id).header.afterva + 8 ≤ 2 ^ 60)
include halign hbelow

/-- An aligned dependence word below 2^60 is read. -/
theorem dependence_is_read :
    ¬ (decide ((s.launchAt id).header.afterva % 8 ≠ 0) || decide (2 ^ 60 < (s.launchAt id).header.afterva + 8)) = true := by
  simp only [Bool.or_eq_true, decide_eq_true_eq]
  omega

theorem readDependence_of_absent (h : s.dependenceCheck id = .absent) : s.readDependence id reply =
    (s.setLaunchAt id { s.launchAt id with missing := [(s.launchAt id).header.afterva / 65536] }).launchFault id
      ((s.launchAt id).header.afterva / 65536) 9 := by
  rw [dependenceCheck] at h
  simp only [readDependence, if_neg (dependence_is_read halign hbelow), h]

theorem readDependence_of_fails {f : FaultClass} (h : s.dependenceCheck id = .fails f) :
    s.readDependence id reply = s.refuseLaunch id 9 := by
  rw [dependenceCheck] at h
  simp only [readDependence, if_neg (dependence_is_read halign hbelow), h]

variable {level : Nat} (hpage : s.dependenceCheck id = .page e level)
include hpage

theorem readDependence_of_unusable (hlat : leafLat e = true) (h : ¬ s.LatticeDependence id e) :
    s.readDependence id reply = s.refuseLaunch id 9 := by
  rw [dependenceCheck] at hpage
  rw [latticeDependence_iff, not_not] at h
  simp only [readDependence, if_neg (dependence_is_read halign hbelow), hpage, if_pos hlat, if_pos h]

theorem readDependence_of_poisoned_cell (hlat : leafLat e = true) (h : s.LatticeDependence id e)
    (hbad : ∃ pa, pa ∈ s.replicaPlaces (s.launchAt id).context e (s.launchAt id).header.afterva ∧ s.poisonedAt pa 8 = true) :
    ∃ pa, s.readDependence id reply = (s.foundBad (s.launchAt id).context pa).refuseLaunch id 9 := by
  rw [dependenceCheck] at hpage
  rw [latticeDependence_iff] at h
  obtain ⟨pa, hpa⟩ := Option.isSome_iff_exists.mp (List.find?_isSome.mpr hbad)
  exact ⟨pa, by simp only [readDependence, if_neg (dependence_is_read halign hbelow), hpage, if_pos hlat, if_neg h, hpa]⟩

theorem readDependence_of_cell (hlat : leafLat e = true) (h : s.LatticeDependence id e)
    (hgood : ∀ pa, pa ∈ s.replicaPlaces (s.launchAt id).context e (s.launchAt id).header.afterva → s.poisonedAt pa 8 = false) :
    s.readDependence id reply =
      s.weighDependence id (s.joinedReplicas (s.launchAt id).context e (s.launchAt id).header.afterva) := by
  rw [dependenceCheck] at hpage
  rw [latticeDependence_iff] at h
  have hnone : (s.replicaPlaces (s.launchAt id).context e (s.launchAt id).header.afterva).find? (fun pa => s.poisonedAt pa 8) = none :=
    List.find?_eq_none.mpr fun pa hpa => by simp [hgood pa hpa]
  simp only [readDependence, if_neg (dependence_is_read halign hbelow), hpage, if_pos hlat, if_neg h, hnone]

section
variable {pa : Nat} (hlat : leafLat e = false)
  (hplace : s.placeFor (s.launchCore (s.launchAt id).context) e level (s.launchAt id).header.afterva = .mem pa)
include hlat hplace

/-- A dependence word in a frame: refused where the frame is not usable, found bad where its line has failed, else weighed. -/
theorem readDependence_of_mem : s.readDependence id reply =
    if !s.frameUsable (s.launchAt id).context (pa / 65536) then s.refuseLaunch id 9
    else if s.poisonedAt pa 8 then (s.foundBad (s.launchAt id).context pa).refuseLaunch id 9
    else s.weighDependence id (s.mem.read pa 8) := by
  rw [dependenceCheck] at hpage
  have hplain : ¬ leafLat e = true := by simp [hlat]
  simp only [readDependence, if_neg (dependence_is_read halign hbelow), hpage, if_neg hplain, hplace]

theorem readDependence_of_unusable_frame (hframe : s.frameUsable (s.launchAt id).context (pa / 65536) = false) :
    s.readDependence id reply = s.refuseLaunch id 9 := by
  rw [readDependence_of_mem reply halign hbelow hpage hlat hplace, hframe]
  rfl

variable (hframe : s.frameUsable (s.launchAt id).context (pa / 65536) = true)
include hframe

theorem readDependence_of_poisoned_word (hbad : s.poisonedAt pa 8 = true) :
    s.readDependence id reply = (s.foundBad (s.launchAt id).context pa).refuseLaunch id 9 := by
  rw [readDependence_of_mem reply halign hbelow hpage hlat hplace, hframe, hbad]
  rfl

theorem readDependence_of_word (hgood : s.poisonedAt pa 8 = false) :
    s.readDependence id reply = s.weighDependence id (s.mem.read pa 8) := by
  rw [readDependence_of_mem reply halign hbelow hpage hlat hplace, hframe, hgood]
  rfl

end

end

/-- A launch whose dependence word has failed leaves its queue, and no block or group is touched (R123, R439). -/
theorem foundBad_refuseLaunch_gone {c pa : Nat} (h : (s.launchAt id).command = none) :
    ((s.foundBad c pa).refuseLaunch id 9).launches.at? id = none ∧ ((s.foundBad c pa).refuseLaunch id 9).blocks = s.blocks ∧
    ((s.foundBad c pa).refuseLaunch id 9).groups = s.groups := by
  obtain ⟨hlaunches, hblocks, hgroups⟩ := foundBad_rest s c pa
  have hsame : (s.foundBad c pa).launchAt id = s.launchAt id := by rw [launchAt, hlaunches, launchAt]
  rw [← hblocks, ← hgroups]
  exact refuseLaunch_gone 9 (hsame ▸ h)

/-- A request for a page stands at its die, merged or by itself, while the die has room (R399, R400). -/
theorem exists_fault_postFault {die : Nat} {r : FaultEntry} (hroom : (s.dieAt die).faults.length < 512) :
    ∃ f, f ∈ ((s.postFault die r).dieAt die).faults ∧ f.vpage = r.vpage ∧ f.context = r.context ∧
      (∀ k, r.kind.getLsbD k = true → f.kind.getLsbD k = true) ∧ ∀ w, w ∈ r.wake → w ∈ f.wake := by
  unfold postFault
  dsimp only
  split
  · rename_i hmerge
    obtain ⟨f, hf, hsame⟩ := List.any_eq_true.mp hmerge
    rw [dieAt_setDieAt]
    have hpage := hsame
    rw [Bool.and_eq_true, beq_iff_eq, beq_iff_eq] at hpage
    refine ⟨_, List.mem_map_of_mem hf, ?_⟩
    rw [if_pos hsame]
    exact ⟨hpage.2, hpage.1, fun k hk => by simp [mergeFault, hk], fun w hw => List.mem_append_right _ hw⟩
  · rw [dieAt_setDieAt]
    exact ⟨_, List.mem_append_right _ (List.mem_singleton_self _), rfl, rfl, fun k hk => hk, fun w hw => hw⟩

theorem postFault_launches (die : Nat) (r : FaultEntry) : (s.postFault die r).launches = s.launches := by
  unfold postFault
  dsimp only
  split
  · rfl
  · split <;> rfl

end

end Sys2Proof.Machine.State
end

section
/-!
O50, residency and growth: the groups that are spawned for a block, and what else a block finds on its core (R125, R129).
-/

set_option Elab.async false

namespace Sys2Proof.Machine.State

/-! ## A group is spawned (R125, R129) -/

/-- The group that a stage of a block gets: one split with every lane, at the entry of the stage. -/
def spawnedGroup (s : State) (id stage outside : Nat) : Group :=
  { Group.free with
    phase := .spawned, block := id, stage := BitVec.ofNat 2 stage, outside
    splits := [(0, { Split.none with
      mask := BitVec.allOnes 96, pc := ((s.blockAt id).header.stages.getD stage Stage.none).entry, age := s.now, issuedAt := s.now })] }

section
variable (s : State) (id stage outside : Nat)

/-- A group takes the lowest slot that is free. -/
theorem spawn_of_lowest {slot : Nat} (hslot : slot < 16) (hfree : s.slotFree (s.blockAt id).core id slot = true)
    (hlow : ∀ j, j < slot → s.slotFree (s.blockAt id).core id j = false) : s.spawn id stage outside =
    (s.setGroupAt (groupKey (s.blockAt id).core slot) (s.spawnedGroup id stage outside)).setSysAt
      (groupKey (s.blockAt id).core slot) GroupSys.free := by
  have hfind : (List.range 16).find? (s.slotFree (s.blockAt id).core id) = some slot :=
    List.find?_range_eq_some.mpr ⟨hfree, List.mem_range.mpr hslot, fun j hj => by simp [hlow j hj]⟩
  unfold spawn
  dsimp only
  rw [hfind]
  rfl

/-- A slot that no group stands in, and that no other block has reserved. -/
theorem slotFree_iff {core k : Nat} : s.slotFree core id k = true ↔ (s.groupAt (groupKey core k)).phase = .free ∧
    ∀ o, o ∈ s.blocksOn core → o ≠ id → k ∉ (s.blockAt o).reserved := by
  simp [slotFree, or_iff_not_imp_left]

/-- Spawning is the making of one group, or nothing where no slot is free. -/
theorem spawn_cases : s.spawn id stage outside = s ∨ ∃ k, (s.groupAt k).phase = .free ∧
    s.spawn id stage outside = (s.setGroupAt k (s.spawnedGroup id stage outside)).setSysAt k GroupSys.free := by
  unfold spawn
  dsimp only
  split
  · rename_i slot hfind
    have hfree := List.find?_some hfind
    rw [slotFree, Bool.and_eq_true, beq_iff_eq] at hfree
    exact .inr ⟨_, hfree.1, rfl⟩
  · exact .inl rfl

/-- A part of the state apart from groups and what stands beside them. -/
theorem spawn_proj (π : State → β) (hgroup : ∀ t k g, π (setGroupAt t k g) = π t) (hsys : ∀ t k g, π (setSysAt t k g) = π t) :
    π (s.spawn id stage outside) = π s := by
  rcases s.spawn_cases id stage outside with h | ⟨k, -, h⟩
  · rw [h]
  · rw [h, hsys, hgroup]

/-- A slot that is taken stays as it is. -/
theorem spawn_groupAt_of_taken {k : Nat} (h : (s.groupAt k).phase ≠ .free) : (s.spawn id stage outside).groupAt k = s.groupAt k := by
  rcases s.spawn_cases id stage outside with heq | ⟨j, hfree, heq⟩
  · rw [heq]
  · have hne : k ≠ j := by rintro rfl; exact h hfree
    rw [heq, groupAt_setSysAt, groupAt_setGroupAt_of_ne _ _ hne]

end

/-! ## The groups of a new block -/

/-- MIN groups of each stage are spawned. -/
def spawnAll (s : State) (id : Nat) (h : Header) : State :=
  h.stages.zipIdx.foldl (fun s e => (List.range e.1.min).foldl (fun s _ => s.spawn id e.2 0) s) s

section
variable (s : State) (id : Nat) (h : Header)

theorem spawnAll_proj (π : State → β) (hgroup : ∀ t k g, π (setGroupAt t k g) = π t) (hsys : ∀ t k g, π (setSysAt t k g) = π t) :
    π (s.spawnAll id h) = π s :=
  foldl_proj π (fun t _ => foldl_proj π (fun u _ => u.spawn_proj _ _ _ π hgroup hsys) _ t) _ s

theorem spawnAll_groupAt_of_taken {k : Nat} (htaken : (s.groupAt k).phase ≠ .free) : (s.spawnAll id h).groupAt k = s.groupAt k := by
  have hstage : ∀ (l : List Nat) (n : Nat) (t : State), t.groupAt k = s.groupAt k →
      (l.foldl (fun s _ => s.spawn id n 0) t).groupAt k = s.groupAt k := fun l n => by
    induction l with
    | nil => exact fun t ht => ht
    | cons a l ih => exact fun t ht => ih _ ((t.spawn_groupAt_of_taken _ _ _ (ht ▸ htaken)).trans ht)
  have hstages : ∀ (l : List (Stage × Nat)) (t : State), t.groupAt k = s.groupAt k →
      (l.foldl (fun s e => (List.range e.1.min).foldl (fun s _ => s.spawn id e.2 0) s) t).groupAt k = s.groupAt k := fun l => by
    induction l with
    | nil => exact fun t ht => ht
    | cons e l ih => exact fun t ht => ih _ (hstage _ _ t ht)
  exact hstages _ s rfl

/-- A block of one stage with MIN = 1 gets one group. -/
theorem spawnAll_of_single {x : Stage} (hstages : h.stages = [x]) (hmin : x.min = 1) : s.spawnAll id h = s.spawn id 0 0 := by
  rw [spawnAll, hstages]
  simp only [List.zipIdx_cons, List.zipIdx_nil, List.foldl_cons, List.foldl_nil, hmin]
  rfl

end

/-! ## A new block (R125) -/

/-- The state in which the groups of a new block are spawned: its slots zeroed, its core made ready, its launch dispatched. -/
def blockLaid (s : State) (launch b core slot0 stack : Nat) : State :=
  let l := s.launchAt launch
  let n := l.header.scratch / slotBytes
  let t := (((s.clearPads core slot0 n).readyCore core launch slot0 n).setBlockAt s.freshId (s.newBlock launch b core slot0 stack)).bumpId
  { t.setLaunchAt launch (t.dispatchedLaunch l b core) with
    dispatched := if l.order.isNone then t.dispatched + 1 else t.dispatched
    served := t.served.set (8 * l.partition + l.header.prio) l.queue }

section
variable (s : State) (launch b core slot0 stack : Nat)

@[simp] theorem clearPads_groups (first n : Nat) : (s.clearPads core first n).groups = s.groups := by
  unfold clearPads; dsimp only; split <;> rfl

@[simp] theorem clearPads_blocks (first n : Nat) : (s.clearPads core first n).blocks = s.blocks := by
  unfold clearPads; dsimp only; split <;> rfl

theorem blockLaid_groups : (s.blockLaid launch b core slot0 stack).groups = s.groups := by
  simp [blockLaid, readyCore]

theorem blockLaid_mem : (s.blockLaid launch b core slot0 stack).mem = s.mem := by
  simp [blockLaid, readyCore]

theorem blockLaid_spad : (s.blockLaid launch b core slot0 stack).spad =
    s.spad.clear (padKey core (slotBytes * slot0)) (slotBytes * ((s.launchAt launch).header.scratch / slotBytes)) := by
  simp [blockLaid, readyCore]

theorem blockLaid_blocks : (s.blockLaid launch b core slot0 stack).blocks =
    s.blocks.set s.nextId (s.newBlock launch b core slot0 stack) := by
  simp [blockLaid, readyCore, freshId]

theorem blockLaid_order : ((s.blockLaid launch b core slot0 stack).launchAt launch).order.isSome = true := by
  rw [launchAt, blockLaid, setLaunchAt, Table.get_set_self]
  rfl

theorem blockLaid_blockAt : (s.blockLaid launch b core slot0 stack).blockAt s.nextId = s.newBlock launch b core slot0 stack := by
  rw [blockAt, blockLaid_blocks, Table.get_set_self]

/-- A new block, once its groups are spawned: their slots are reserved for it (R129). -/
theorem makeResident_eq : ∃ r, s.makeResident launch b core slot0 stack =
    ((s.blockLaid launch b core slot0 stack).spawnAll s.nextId (s.launchAt launch).header).setBlockAt s.nextId
      { s.newBlock launch b core slot0 stack with reserved := r } := by
  have hblock : ((s.blockLaid launch b core slot0 stack).spawnAll s.nextId (s.launchAt launch).header).blockAt s.nextId =
      s.newBlock launch b core slot0 stack := by
    rw [spawnAll_proj _ _ _ (·.blockAt s.nextId) (fun _ _ _ => rfl) (fun _ _ _ => rfl), blockLaid_blockAt]
  rw [← hblock]
  exact ⟨_, rfl⟩

end

/-! ## Slots in a state in which one block has been written -/

section
variable {s t : State} {id core : Nat} {x : Block} (hgroups : t.groups = s.groups)
include hgroups

theorem slotFree_of_taken {slot : Nat} (h : (s.groupAt (groupKey core slot)).phase ≠ .free) : t.slotFree core id slot = false := by
  rw [← Bool.not_eq_true, slotFree_iff, groupAt, hgroups]
  exact fun hfree => h hfree.1

theorem slotFree_of_set {slot : Nat} (hblocks : t.blocks = s.blocks.set id x) (hfree : (s.groupAt (groupKey core slot)).phase = .free)
    (h : ∀ o, o ∈ s.blocksOn core → o ≠ id → slot ∉ (s.blockAt o).reserved) : t.slotFree core id slot = true := by
  rw [slotFree_iff, groupAt, hgroups]
  refine ⟨hfree, fun o ho hne => ?_⟩
  obtain ⟨e, he, rfl⟩ := List.mem_map.mp ho
  obtain ⟨hmem, hcore⟩ := List.mem_filter.mp he
  have hold : e ∈ s.blocks := (Table.mem_set (hblocks ▸ hmem)).resolve_left fun heq => hne (congrArg Prod.fst heq)
  rw [blockAt, hblocks, Table.get_set_of_ne _ _ _ hne]
  exact h _ (List.mem_map_of_mem (List.mem_filter.mpr ⟨hold, hcore⟩)) hne

/-- A group spawned in the lowest free slot: it alone is new. -/
theorem spawn_groupAt {slot stage outside : Nat} (hblocks : t.blocks = s.blocks.set id x) (hcore : x.core = core) (hslot : slot < 16)
    (hfree : (s.groupAt (groupKey core slot)).phase = .free)
    (hothers : ∀ o, o ∈ s.blocksOn core → o ≠ id → slot ∉ (s.blockAt o).reserved)
    (hlow : ∀ j, j < slot → (s.groupAt (groupKey core j)).phase ≠ .free) :
    (t.spawn id stage outside).groupAt (groupKey core slot) = t.spawnedGroup id stage outside ∧
    ∀ j, j ≠ groupKey core slot → (t.spawn id stage outside).groupAt j = s.groupAt j := by
  obtain rfl : (t.blockAt id).core = core := by rw [blockAt, hblocks, Table.get_set_self, hcore]
  rw [spawn_of_lowest t id stage outside hslot (slotFree_of_set hgroups hblocks hfree hothers)
    fun j hj => slotFree_of_taken hgroups (hlow j hj)]
  refine ⟨by rw [groupAt_setSysAt, groupAt_setGroupAt], fun j hj => ?_⟩
  rw [groupAt_setSysAt, groupAt_setGroupAt_of_ne _ _ hj, groupAt, hgroups, groupAt]

end

/-! ## Residency (R124, R125) -/

section
variable (s : State) (launch b core slot0 stack : Nat)

theorem makeResident_blockAt : ∃ r, (s.makeResident launch b core slot0 stack).blockAt s.nextId =
    { s.newBlock launch b core slot0 stack with reserved := r } := by
  obtain ⟨r, h⟩ := s.makeResident_eq launch b core slot0 stack
  exact ⟨r, by rw [h, blockAt_setBlockAt]⟩

theorem makeResident_proj (π : State → β) (hblock : ∀ t k x, π (setBlockAt t k x) = π t) (hgroup : ∀ t k g, π (setGroupAt t k g) = π t)
    (hsys : ∀ t k g, π (setSysAt t k g) = π t) :
    π (s.makeResident launch b core slot0 stack) = π (s.blockLaid launch b core slot0 stack) := by
  obtain ⟨r, h⟩ := s.makeResident_eq launch b core slot0 stack
  rw [h, hblock, spawnAll_proj _ _ _ π hgroup hsys]

theorem makeResident_mem : (s.makeResident launch b core slot0 stack).mem = s.mem := by
  rw [makeResident_proj _ _ _ _ _ _ mem (fun _ _ _ => rfl) (fun _ _ _ => rfl) (fun _ _ _ => rfl), blockLaid_mem]

/-- The block's slots are zeroed. -/
theorem makeResident_pad_byte {a : Nat} (h : a < (s.launchAt launch).header.scratch / 16384 * 16384) :
    (s.makeResident launch b core slot0 stack).spad.byte (padKey core (16384 * slot0) + a) = 0 := by
  rw [makeResident_proj _ _ _ _ _ _ spad (fun _ _ _ => rfl) (fun _ _ _ => rfl) (fun _ _ _ => rfl), blockLaid_spad, slotBytes]
  exact Memory.byte_clear_of_inside _ _ _ _ ⟨Nat.le_add_right .., by omega⟩

theorem makeResident_order : ((s.makeResident launch b core slot0 stack).launchAt launch).order.isSome = true := by
  rw [makeResident_proj _ _ _ _ _ _ (·.launchAt launch) (fun _ _ _ => rfl) (fun _ _ _ => rfl) (fun _ _ _ => rfl), blockLaid_order]

theorem makeResident_groupAt_of_taken {k : Nat} (h : (s.groupAt k).phase ≠ .free) :
    (s.makeResident launch b core slot0 stack).groupAt k = s.groupAt k := by
  obtain ⟨r, heq⟩ := s.makeResident_eq launch b core slot0 stack
  have hsame : (s.blockLaid launch b core slot0 stack).groupAt k = s.groupAt k := by rw [groupAt, blockLaid_groups, groupAt]
  rw [heq, groupAt_setBlockAt, spawnAll_groupAt_of_taken _ _ _ (hsame ▸ h), hsame]

/-- A launch of one stage with MIN = 1 puts one group in the lowest free slot. -/
theorem makeResident_single {x : Stage} {slot : Nat} (hstages : (s.launchAt launch).header.stages = [x]) (hmin : x.min = 1)
    (hslot : slot < 16) (hfree : (s.groupAt (groupKey core slot)).phase = .free)
    (hothers : ∀ o, o ∈ s.blocksOn core → slot ∉ (s.blockAt o).reserved)
    (hlow : ∀ j, j < slot → (s.groupAt (groupKey core j)).phase ≠ .free) :
    (s.makeResident launch b core slot0 stack).groupAt (groupKey core slot) =
      (s.blockLaid launch b core slot0 stack).spawnedGroup s.nextId 0 0 := by
  obtain ⟨r, heq⟩ := s.makeResident_eq launch b core slot0 stack
  rw [heq, groupAt_setBlockAt, spawnAll_of_single _ _ _ hstages hmin]
  exact (spawn_groupAt (blockLaid_groups ..) (blockLaid_blocks ..) rfl hslot hfree (fun o ho _ => hothers o ho) hlow).1

end

theorem residency_of_fits {s : State} {id core slot0 stack b : Nat} (hnext : nextBlock (s.launchAt id) = some b)
    (hplace : s.mayPlace (s.launchAt id) b core = true) (hfits : s.blockFits core (s.launchAt id).header slot0 = true)
    (hfree : s.privateFree (s.launchAt id).context (s.launchAt id).header stack = true) :
    s.residency id core slot0 stack = s.makeResident id b core slot0 stack := by
  simp [residency, hnext, hplace, hfits, hfree]

/-! ## Growth and shrinkage (R129, R130) -/

theorem growStage_sameMemory (s : State) (id stage : Nat) : s.SameMemory (s.growStage id stage) := by
  have hparts := spawn_proj (s.setBlockAt id { s.blockAt id with growFrom := (s.blockAt id).growFrom.set stage s.now }) id stage
    (s.outsideRegs id stage) (fun t => (t.mem, t.spad, t.acc)) (fun _ _ _ => rfl) (fun _ _ _ => rfl)
  simp only [Prod.mk.injEq] at hparts
  obtain ⟨hmem, hspad, hacc⟩ := hparts
  exact .of_eq hmem hspad hacc

theorem growStage_growFrom (s : State) (id stage : Nat) : ((s.growStage id stage).blockAt id).growFrom.get stage 0 = s.now := by
  rw [growStage, spawn_proj _ _ _ _ (·.blockAt id) (fun _ _ _ => rfl) (fun _ _ _ => rfl), blockAt_setBlockAt, Table.get_set_self]

/-- A stage grows by one group, in the lowest free slot (R129). -/
theorem growStage_groupAt {s : State} {id stage slot : Nat} (hslot : slot < 16)
    (hfree : (s.groupAt (groupKey (s.blockAt id).core slot)).phase = .free)
    (hothers : ∀ o, o ∈ s.blocksOn (s.blockAt id).core → o ≠ id → slot ∉ (s.blockAt o).reserved)
    (hlow : ∀ j, j < slot → (s.groupAt (groupKey (s.blockAt id).core j)).phase ≠ .free) :
    (s.growStage id stage).groupAt (groupKey (s.blockAt id).core slot) = (s.setBlockAt id { s.blockAt id with
      growFrom := (s.blockAt id).growFrom.set stage s.now }).spawnedGroup id stage (s.outsideRegs id stage) ∧
    ∀ j, j ≠ groupKey (s.blockAt id).core slot → (s.growStage id stage).groupAt j = s.groupAt j :=
  spawn_groupAt (s := s) (setBlockAt_groups ..) (setBlockAt_blocks ..) rfl hslot hfree hothers hlow

/-- The group of a list whose attachment is later than that of every other is its youngest. -/
theorem youngest_eq {s : State} {l : List Nat} {g : Nat} (hg : g ∈ l)
    (h : ∀ j, j ∈ l → j ≠ g → (s.sysAt j).attachAge < (s.sysAt g).attachAge) : s.youngest l = some g := by
  have hfold : ∀ (l : List Nat) (a : Nat), (∀ j, j ∈ a :: l → j ≠ g → (s.sysAt j).attachAge < (s.sysAt g).attachAge) → g ∈ a :: l →
      l.foldl (fun a b => if (s.sysAt a).attachAge ≤ (s.sysAt b).attachAge then b else a) a = g := fun l => by
    induction l with
    | nil => exact fun a _ hg => (List.mem_singleton.mp hg).symm
    | cons b l ih =>
        intro a hlater hg
        rw [List.foldl_cons]
        by_cases hab : (s.sysAt a).attachAge ≤ (s.sysAt b).attachAge
        · rw [if_pos hab]
          refine ih b (fun j hj => hlater j (List.mem_cons_of_mem _ hj)) ?_
          rcases List.mem_cons.mp hg with rfl | hin
          · by_cases hb : b = g
            · exact hb ▸ List.mem_cons_self
            · exact absurd hab (Nat.not_le.mpr (hlater b (List.mem_cons_of_mem _ List.mem_cons_self) hb))
          · exact hin
        · rw [if_neg hab]
          refine ih a (fun j hj => hlater j ?_) ?_
          · exact (List.mem_cons.mp hj).elim (· ▸ List.mem_cons_self) fun h => List.mem_cons_of_mem _ (List.mem_cons_of_mem _ h)
          · by_cases ha : a = g
            · exact ha ▸ List.mem_cons_self
            · have hlt := hlater a List.mem_cons_self ha
              have hb : b ≠ g := by rintro rfl; exact hab hlt.le
              have hin : g ∈ l := by simpa [Ne.symm ha, Ne.symm hb] using hg
              exact List.mem_cons_of_mem _ hin
  cases l with
  | nil => cases hg
  | cons a l => rw [youngest, hfold l a h hg]

theorem shrinkStage_of_youngest {s : State} {id stage g : Nat} (hg : g ∈ s.stageGroups id stage)
    (hphase : (s.groupAt g).phase = .attached)
    (h : ∀ j, j ∈ s.stageGroups id stage → (s.groupAt j).phase = .attached → j ≠ g → (s.sysAt j).attachAge < (s.sysAt g).attachAge) :
    s.shrinkStage id stage = s.setGroupAt g { s.groupAt g with shrink := true } := by
  have hyoungest : s.youngest ((s.stageGroups id stage).filter fun k => (s.groupAt k).phase == .attached) = some g := by
    refine youngest_eq (List.mem_filter.mpr ⟨hg, by simp [hphase]⟩) fun j hj => ?_
    obtain ⟨hin, hattached⟩ := List.mem_filter.mp hj
    exact h j hin (by simpa using hattached)
  rw [shrinkStage, hyoungest]

/-! ## The release of a slot (R112) -/

section
variable (s : State) (gk : Nat)

/-- The release of a slot takes its group away, and touches no block and no memory. -/
theorem releaseSlot_rest : (s.releaseSlot gk).groups = s.groups.erase gk ∧ (s.releaseSlot gk).blocks = s.blocks ∧
    s.SameMemory (s.releaseSlot gk) := by
  unfold releaseSlot
  dsimp only
  split <;> exact ⟨rfl, rfl, .of_eq rfl rfl rfl⟩

theorem releaseSlot_groupAt : (s.releaseSlot gk).groupAt gk = Group.free := by
  simp [groupAt, Table.get, (releaseSlot_rest s gk).1]

theorem releaseSlot_groupAt_of_ne {j : Nat} (h : j ≠ gk) : (s.releaseSlot gk).groupAt j = s.groupAt j := by
  simp [groupAt, Table.get, (releaseSlot_rest s gk).1, h]

end

end Sys2Proof.Machine.State
end

section
/-!
O50, the end of a block: its launch counts it, and the last one completes the launch (R126).
-/

set_option Elab.async false

namespace Sys2Proof.Machine.State

/-! ## The launch of a block that has ended -/

/-- The launch of a block once it counts the block's end (R126, R209). -/
def endedLaunch (s : State) (k : Nat) : Launch :=
  let b := s.blockAt k
  let l := unbind (s.launchAt b.launch) b.number
  { l with ended := l.ended + 1, runTime := l.runTime + (s.now - b.since), stats := addStats l.stats b.stats, lastDie := dieOf b.core }

/-- The state in which a launch whose last block has ended completes. -/
def lastEnded (s : State) (k : Nat) : State :=
  (s.vacate k).setLaunchAt (s.blockAt k).launch { s.endedLaunch k with phase := .completing }

section
variable {s : State} {k : Nat}

theorem endBlock_of_more (h : (s.launchAt (s.blockAt k).launch).ended + 1 ≠ (s.launchAt (s.blockAt k).launch).header.blocks) :
    s.endBlock k = (s.vacate k).setLaunchAt (s.blockAt k).launch (s.endedLaunch k) := if_neg h

theorem endBlock_of_last (h : (s.launchAt (s.blockAt k).launch).ended + 1 = (s.launchAt (s.blockAt k).launch).header.blocks) :
    s.endBlock k = (s.lastEnded k).complete (s.blockAt k).launch := if_pos h

end

section
variable (s : State) (k : Nat)

theorem lastEnded_launchAt : (s.lastEnded k).launchAt (s.blockAt k).launch = { s.endedLaunch k with phase := .completing } :=
  launchAt_setLaunchAt ..

theorem lastEnded_blocks : (s.lastEnded k).blocks = s.blocks.erase k := vacate_blocks ..
theorem lastEnded_mem : (s.lastEnded k).mem = s.mem := vacate_mem ..
theorem lastEnded_spad : (s.lastEnded k).spad = s.spad := vacate_spad ..
theorem lastEnded_acc : (s.lastEnded k).acc = s.acc := vacate_acc ..
theorem lastEnded_hw : (s.lastEnded k).hw = s.hw := vacate_hw ..
theorem lastEnded_contexts : (s.lastEnded k).contexts = s.contexts := vacate_contexts ..

theorem lastEnded_checkPage (core c : Nat) (r : List Nat) (a : Nat) (kind : AccessKind) :
    (s.lastEnded k).checkPage core c r a kind = s.checkPage core c r a kind := by
  unfold lastEnded vacate
  dsimp only
  split <;> rfl

theorem lastEnded_frameUsable (c f : Nat) : (s.lastEnded k).frameUsable c f = s.frameUsable c f := by
  unfold lastEnded vacate
  dsimp only
  split <;> rfl

theorem lastEnded_physical (d : Nat) (e : DWord) (lv a : Nat) : (s.lastEnded k).physical d e lv a = s.physical d e lv a := by
  unfold lastEnded vacate
  dsimp only
  split <;> rfl

theorem lastEnded_launchCore (c : Nat) : (s.lastEnded k).launchCore c = s.launchCore c := by
  unfold lastEnded vacate
  dsimp only
  split <;> rfl

end

/-! ## Completion (R126) -/

section
variable {s : State} {id : Nat}

/-- A launch that no host command waits for leaves; memories and blocks stay. -/
theorem retire_rest (h : (s.launchAt id).command = none) : (s.retire id).launches.at? id = none ∧ (s.retire id).blocks = s.blocks ∧
    (s.retire id).mem = s.mem ∧ (s.retire id).spad = s.spad ∧ (s.retire id).acc = s.acc := by
  unfold retire
  dsimp only
  rw [h]
  refine ⟨?_, rfl, rfl, rfl, rfl⟩
  simp only [Table.at?_mapVal, dropLaunch, Table.at?_erase_self, Option.map_none]

/-- A launch whose completion word is present, or that has none, and that keeps no statistics, joins its word. -/
theorem complete_eq_joinDone (hstats : (s.launchAt id).header.stats = false)
    (hpresent : (s.launchAt id).header.doneva = 0 ∨ s.checkPage (s.launchCore (s.launchAt id).context) (s.launchAt id).context []
      (s.launchAt id).header.doneva .write ≠ .absent) : s.complete id = s.joinDone id := by
  have hnone : ((completionWrites (s.launchAt id).header).filterMap fun a =>
      if a < 2 ^ 60 && s.checkPage (s.launchCore (s.launchAt id).context) (s.launchAt id).context [] a .write == .absent then
        some (a / 65536) else none) = [] := by
    rw [List.filterMap_eq_nil_iff, completionWrites, hstats]
    intro a ha
    have hnot : ¬ (decide (a < 2 ^ 60) && s.checkPage (s.launchCore (s.launchAt id).context) (s.launchAt id).context [] a .write ==
        .absent) = true := by
      rcases hpresent with hzero | hsome
      · simp [hzero] at ha
      · obtain ⟨-, rfl⟩ : (s.launchAt id).header.doneva ≠ 0 ∧ a = (s.launchAt id).header.doneva := by simpa using ha
        simp [hsome]
    exact if_neg hnot
  unfold complete
  dsimp only
  rw [hnone]
  simp [distinct, writeCompletion, hstats]

theorem joinDone_of_zero (h : (s.launchAt id).header.doneva = 0) : s.joinDone id = s.retire id := by
  unfold joinDone
  dsimp only
  rw [if_pos h]

theorem joinDone_of_page {e : DWord} {level pa : Nat} (hsome : (s.launchAt id).header.doneva ≠ 0)
    (hbelow : (s.launchAt id).header.doneva + 8 ≤ 2 ^ 60)
    (hpage : s.checkPage (s.launchCore (s.launchAt id).context) (s.launchAt id).context [] (s.launchAt id).header.doneva .write =
      .page e level) (hpeer : leafPeer e = false) (hlat : leafLat e = false)
    (hpa : s.physical (s.launchAt id).lastDie e level (s.launchAt id).header.doneva = pa)
    (husable : s.frameUsable (s.launchAt id).context (pa / 65536) = true) (hgood : s.poisonedAt pa 8 = false) :
    s.joinDone id = (s.memWrite (s.launchAt id).context pa
      (toBytes 8 (max (s.mem.read pa 8) (s.launchAt id).header.donev))).retire id := by
  have hplain : ¬ leafLat e = true := by simp [hlat]
  have hhere : ¬ leafPeer e = true := by simp [hpeer]
  have hline : ¬ s.poisonedAt pa 8 = true := by simp [hgood]
  unfold joinDone
  dsimp only
  rw [if_neg hsome, if_neg (Nat.not_lt.mpr hbelow), hpage]
  dsimp only
  rw [if_neg hhere, if_neg hplain, hpa, if_neg hline, husable]
  rfl

end

/-! ## The end of a block -/

section
variable {s : State} {k : Nat}

/-- A block ends before the last of its launch (R126). -/
theorem endBlock_more_rest (h : (s.launchAt (s.blockAt k).launch).ended + 1 ≠ (s.launchAt (s.blockAt k).launch).header.blocks) :
    (s.endBlock k).blocks.at? k = none ∧
    ((s.endBlock k).launchAt (s.blockAt k).launch).ended = (s.launchAt (s.blockAt k).launch).ended + 1 ∧
    ((s.endBlock k).launchAt (s.blockAt k).launch).phase = (s.launchAt (s.blockAt k).launch).phase ∧ s.SameMemory (s.endBlock k) := by
  rw [endBlock_of_more h, launchAt_setLaunchAt]
  exact ⟨by rw [setLaunchAt_blocks, vacate_blocks, Table.at?_erase_self], rfl, rfl,
    .of_eq (vacate_mem ..) (vacate_spad ..) (vacate_acc ..)⟩

section
variable (hlast : (s.launchAt (s.blockAt k).launch).ended + 1 = (s.launchAt (s.blockAt k).launch).header.blocks)
  (hstats : (s.launchAt (s.blockAt k).launch).header.stats = false) (hcommand : (s.launchAt (s.blockAt k).launch).command = none)
include hlast hstats hcommand

/-- The last block of a launch without a completion word. -/
theorem endBlock_last_rest (hdone : (s.launchAt (s.blockAt k).launch).header.doneva = 0) :
    (s.endBlock k).blocks.at? k = none ∧ (s.endBlock k).launches.at? (s.blockAt k).launch = none ∧ s.SameMemory (s.endBlock k) := by
  have hlaunch := s.lastEnded_launchAt k
  have hzero : ((s.lastEnded k).launchAt (s.blockAt k).launch).header.doneva = 0 := hlaunch ▸ hdone
  obtain ⟨hgone, hblocks, hmem, hspad, hacc⟩ :=
    retire_rest (s := s.lastEnded k) (id := (s.blockAt k).launch) (hlaunch ▸ hcommand)
  rw [endBlock_of_last hlast, complete_eq_joinDone (hlaunch ▸ hstats) (.inl hzero), joinDone_of_zero hzero]
  refine ⟨?_, hgone, .of_eq (hmem.trans (lastEnded_mem ..)) (hspad.trans (lastEnded_spad ..)) (hacc.trans (lastEnded_acc ..))⟩
  rw [hblocks, lastEnded_blocks, Table.at?_erase_self]

/-- The last block of a launch joins the completion word where its page passes (R126). -/
theorem endBlock_last_join {e : DWord} {level pa : Nat} (hsome : (s.launchAt (s.blockAt k).launch).header.doneva ≠ 0)
    (hbelow : (s.launchAt (s.blockAt k).launch).header.doneva + 8 ≤ 2 ^ 60)
    (hpage : s.checkPage (s.launchCore (s.launchAt (s.blockAt k).launch).context) (s.launchAt (s.blockAt k).launch).context []
      (s.launchAt (s.blockAt k).launch).header.doneva .write = .page e level) (hpeer : leafPeer e = false) (hlat : leafLat e = false)
    (hpa : s.physical (dieOf (s.blockAt k).core) e level (s.launchAt (s.blockAt k).launch).header.doneva = pa)
    (husable : s.frameUsable (s.launchAt (s.blockAt k).launch).context (pa / 65536) = true) (hgood : s.poisonedAt pa 8 = false) :
    (s.endBlock k).blocks.at? k = none ∧ (s.endBlock k).launches.at? (s.blockAt k).launch = none ∧
    (s.endBlock k).mem.read pa 8 = max (s.mem.read pa 8) (s.launchAt (s.blockAt k).launch).header.donev % 2 ^ 64 ∧
    ∀ a, a < pa ∨ pa + 8 ≤ a → (s.endBlock k).mem.byte a = s.mem.byte a := by
  have hlaunch := s.lastEnded_launchAt k
  have hplace : (s.lastEnded k).physical (dieOf (s.blockAt k).core) e level (s.launchAt (s.blockAt k).launch).header.doneva = pa :=
    (lastEnded_physical ..).trans hpa
  have hcheck : (s.lastEnded k).checkPage ((s.lastEnded k).launchCore (s.launchAt (s.blockAt k).launch).context)
      (s.launchAt (s.blockAt k).launch).context [] (s.launchAt (s.blockAt k).launch).header.doneva .write = .page e level := by
    rw [lastEnded_launchCore, lastEnded_checkPage, hpage]
  have hline : (s.lastEnded k).poisonedAt pa 8 = false := by rw [poisonedAt, lastEnded_hw]; exact hgood
  have hjoin : (s.lastEnded k).joinDone (s.blockAt k).launch = ((s.lastEnded k).memWrite (s.launchAt (s.blockAt k).launch).context pa
      (toBytes 8 (max (s.mem.read pa 8) (s.launchAt (s.blockAt k).launch).header.donev))).retire (s.blockAt k).launch := by
    have hword := joinDone_of_page (s := s.lastEnded k) (id := (s.blockAt k).launch) (e := e) (level := level) (pa := pa)
    rw [hlaunch, lastEnded_mem, lastEnded_frameUsable] at hword
    exact hword hsome hbelow hcheck hpeer hlat hplace husable hline
  have hcommand' : (((s.lastEnded k).memWrite (s.launchAt (s.blockAt k).launch).context pa
      (toBytes 8 (max (s.mem.read pa 8) (s.launchAt (s.blockAt k).launch).header.donev))).launchAt (s.blockAt k).launch).command =
      none := by
    rw [launchAt, memWrite_launches, ← launchAt, hlaunch]
    exact hcommand
  obtain ⟨hgone, hblocks, hmem, -, -⟩ := retire_rest hcommand'
  have hcomplete : (s.lastEnded k).complete (s.blockAt k).launch = (s.lastEnded k).joinDone (s.blockAt k).launch :=
    complete_eq_joinDone (hlaunch ▸ hstats) (.inr (by rw [hlaunch]; exact hcheck ▸ nofun))
  rw [endBlock_of_last hlast, hcomplete, hjoin]
  refine ⟨?_, hgone, ?_, fun a ha => ?_⟩
  · rw [hblocks, memWrite_proj _ _ blocks (fun _ _ => rfl) (fun _ _ _ => rfl) (fun _ _ => rfl), lastEnded_blocks, Table.at?_erase_self]
  · rw [hmem, memWrite_mem]
    exact Memory.read_write_self ..
  · rw [hmem, memWrite_mem, Memory.byte_setBytes_of_outside _ _ _ _ (by simpa using ha), lastEnded_mem]

end

end

end Sys2Proof.Machine.State
end

section
/-!
O50: the events of launches and blocks (R112, R117, R119, R123 to R126, R129, R130).
-/

set_option Elab.async false

namespace Sys2Proof.Machine.State

/-! ## The events of a launch's queue -/

section
variable (s : State) (id page : Nat) (kind : BitVec 5)

theorem launchFault_launches : (s.launchFault id page kind).launches = s.launches := postFault_launches ..

/-- A request of a launch stands at the die of its partition (R123, R399). -/
theorem exists_fault_launchFault {die : Nat} (hdie : dieOf (s.partitionCore (s.launchAt id).partition) = die)
    (hroom : (s.dieAt die).faults.length < 512) : ∃ e, e ∈ ((s.launchFault id page kind).dieAt die).faults ∧ e.vpage = page ∧
      e.context = (s.launchAt id).context ∧ (∀ k, kind.getLsbD k = true → e.kind.getLsbD k = true) ∧ .launch id ∈ e.wake := by
  obtain rfl := hdie
  obtain ⟨e, he, hpage, hcontext, hkind, hwake⟩ := exists_fault_postFault (r := faultEntry page kind (s.launchAt id).partition
    (s.launchAt id).context (vdieOf (s.contextAt (s.launchAt id).context) (dieOf (s.partitionCore (s.launchAt id).partition)))
    0xFF 0xFF (.launch id)) hroom
  exact ⟨e, he, hpage, hcontext, hkind, hwake _ (List.mem_singleton_self _)⟩

end

/-- A dependence whose page is missing: a request stands for the page, and the launch waits on (R123). -/
theorem dependence_absent {s : State} {id die : Nat} (hdie : dieOf (s.partitionCore (s.launchAt id).partition) = die)
    (hphase : (s.launchAt id).phase = .waiting) (hroom : (s.dieAt die).faults.length < 512) {page : Nat} {t : State}
    (ht : t = s.after ((s.setLaunchAt id { s.launchAt id with missing := [page] }).launchFault id page 9)) :
    ∃ e, e ∈ (t.dieAt die).faults ∧ e.vpage = page ∧ e.context = (s.launchAt id).context ∧ e.kind.getLsbD 3 = true ∧
      .launch id ∈ e.wake ∧ (t.launchAt id).missing = [page] ∧ (t.launchAt id).phase = .waiting := by
  have hset := launchAt_setLaunchAt s id { s.launchAt id with missing := [page] }
  obtain ⟨e, he, hpage, hcontext, hkind, hwake⟩ := exists_fault_launchFault
    (s.setLaunchAt id { s.launchAt id with missing := [page] }) id page 9 (by rw [hset]; exact hdie) hroom
  have hlaunch : t.launchAt id = { s.launchAt id with missing := [page] } := by
    rw [← hset, ht]
    exact congrArg (fun l : Table Launch => l.get id Launch.none) (launchFault_launches ..)
  rw [hset] at hcontext
  rw [hlaunch]
  exact ⟨e, ht ▸ he, hpage, hcontext, hkind 3 (by decide), hwake, rfl, hphase⟩

end Sys2Proof.Machine.State

open Sys2Proof Sys2Proof.Machine Sys2Proof.Machine.State

/-- Settles O50: each event's effect, by the equation of its case. -/
theorem launchEvents : Obligations.LaunchEvents := by
  unfold Obligations.LaunchEvents
  intro s p q id l core die va is refused onlyLaunch depends
  have hdepends : ∀ {i : Instr} {reply : DWord}, s.headIn p q .waiting = some id → l.partition = p → l.command = none →
      (∀ P : State → Prop, P (s.after (s.readDependence id reply)) → Happens i s P) → depends i := by
    intro i reply hhead hpartition hcommand hevent
    refine ⟨fun h => ?_, fun halign hbelow h hroom => ?_, fun f halign hbelow h => ?_,
      fun e lv halign hbelow h hlat => ⟨fun hbad => ?_, fun hgood hpoison => ?_, fun hgood hclean => ⟨fun hle => ?_, fun hlt => ?_⟩⟩,
      fun e lv pa halign hbelow h hpeer hlat hplace => ⟨fun hframe => ?_, fun hframe hpoison => ?_,
        fun hframe hclean => ⟨fun hle => ?_, fun hlt => ?_⟩⟩⟩
    · exact hevent _ (refused_of_eq hcommand (readDependence_of_misaligned reply h))
    · exact hevent _ (dependence_absent (by rw [hpartition]; rfl) (phase_of_headIn hhead) hroom
        (congrArg s.after (readDependence_of_absent reply halign hbelow h)))
    · exact hevent _ (refused_of_eq hcommand (readDependence_of_fails reply halign hbelow h))
    · exact hevent _ (refused_of_eq hcommand (readDependence_of_unusable reply halign hbelow h hlat hbad))
    · obtain ⟨pa, hpa⟩ := readDependence_of_poisoned_cell reply halign hbelow h hlat hgood hpoison
      exact hevent _ (hpa ▸ foundBad_refuseLaunch_gone hcommand)
    · exact hevent _ (onlyLaunch_of_eq
        ((readDependence_of_cell reply halign hbelow h hlat hgood hclean).trans (weighDependence_of_le hle)))
    · exact hevent _ (onlyLaunch_of_eq
        ((readDependence_of_cell reply halign hbelow h hlat hgood hclean).trans (weighDependence_of_lt hlt)))
    · exact hevent _ (refused_of_eq hcommand (readDependence_of_unusable_frame reply halign hbelow h hlat hplace hframe))
    · exact hevent _ (readDependence_of_poisoned_word reply halign hbelow h hlat hplace hframe hpoison ▸
        foundBad_refuseLaunch_gone hcommand)
    · exact hevent _ (onlyLaunch_of_eq
        ((readDependence_of_word reply halign hbelow h hlat hplace hframe hclean).trans (weighDependence_of_le hle)))
    · exact hevent _ (onlyLaunch_of_eq
        ((readDependence_of_word reply halign hbelow h hlat hplace hframe hclean).trans (weighDependence_of_lt hlt)))
  refine ⟨fun hhead hpartition hcommand => ⟨fun hread => ?_, fun z hread => ?_, fun b hread hask htable r hr =>
      ⟨fun status hmet hlow => ?_, fun hnone => ?_⟩⟩, fun reply hhead hpartition hcommand => ⟨?_, fun hdue => ?_⟩,
    fun c slot0 stack b hhead hpower hturn hnext hplace hfits hfree => ?_,
    fun k hlive hempty hlaunch => ⟨fun hmore => ?_, fun hlast hstats hdone hcommand => ?_,
      fun e lv hlast hstats hsome hbelow hcommand hpage hpeer hlat husable hgood => ?_⟩,
    fun k stage slot hlive hwants hroom hslot hfree hothers hlow => ?_,
    fun k stage g hlive hmay hg hphase hlater => ?_, fun c slot hslot hphase hst hcp htm => ?_⟩
  · exact happens_of_head (exec_launchHeaderCheck ..) hhead rfl (refused_of_eq hcommand (checkHeader_of_fails hread))
  · refine happens_of_head (exec_launchHeaderCheck ..) hhead rfl ?_
    rw [checkHeader_of_stops hread]
    exact hazardKill_gone z rfl
  · have hstatus := lowestStatus_eq_some (headerFaults_statuses .. ▸ by decide) hmet hlow
    exact happens_of_head (exec_launchHeaderCheck ..) hhead rfl
      (refused_of_eq hcommand ((checkHeader_of_bytes hread hask htable hr).trans (by rw [hstatus, Option.elim_some])))
  · exact happens_of_head (exec_launchHeaderCheck ..) hhead rfl
      (onlyLaunch_of_eq ((checkHeader_of_bytes hread hask htable hr).trans (by rw [lowestStatus_eq_none hnone, Option.elim_none])))
  · exact hdepends hhead hpartition hcommand fun P => happens_of_head (exec_dependenceRead ..) hhead rfl
  · exact hdepends hhead hpartition hcommand fun P =>
      happens_of_head (exec_dependenceRecheckTimer ..) hhead (decide_eq_true hdue)
  · refine happens_of_head (exec_blockResidency ..) hhead (by simp [hpower, hturn]) ?_
    rw [residency_of_fits hnext hplace hfits hfree]
    obtain ⟨r, hblock⟩ := s.makeResident_blockAt id b c slot0 stack
    refine ⟨congrArg Block.launch hblock, congrArg Block.number hblock, congrArg Block.core hblock, congrArg Block.context hblock,
      congrArg Block.slot0 hblock, congrArg Block.stackBase hblock, congrArg Block.units hblock, makeResident_order ..,
      makeResident_mem .., fun a ha => makeResident_pad_byte _ _ _ _ _ _ ha,
      fun g hg => makeResident_groupAt_of_taken _ _ _ _ _ _ hg,
      fun x slot hstages hmin hslot hslotFree hothers hlow => ?_⟩
    have hgroup := makeResident_single s id b c slot0 stack hstages hmin hslot hslotFree hothers hlow
    have hentry : ((s.blockLaid id b c slot0 stack).blockAt s.nextId).header.stages.getD 0 Stage.none = x := by
      rw [blockLaid_blockAt]
      exact congrArg (List.getD · 0 Stage.none) hstages
    refine ⟨congrArg Group.phase hgroup, congrArg Group.block hgroup, congrArg Group.stage hgroup,
      congrArg (fun g => g.splits.map Prod.fst) hgroup, ?_, congrArg (fun g => (g.splits.get 0 Split.none).mask) hgroup⟩
    exact (congrArg (fun g => (g.splits.get 0 Split.none).pc) hgroup).trans (congrArg Stage.entry hentry)
  · obtain rfl := hlaunch
    exact happens_of_event (exec_blockEnd ..) (by simp [hlive, hempty]) (endBlock_more_rest hmore)
  · obtain rfl := hlaunch
    exact happens_of_event (exec_blockEnd ..) (by simp [hlive, hempty]) (endBlock_last_rest hlast hstats hcommand hdone)
  · obtain rfl := hlaunch
    exact happens_of_event (exec_blockEnd ..) (by simp [hlive, hempty])
      (endBlock_last_join hlast hstats hcommand hsome hbelow hpage hpeer hlat rfl husable hgood)
  · refine happens_of_event (exec_stageGrowth ..) (by simp [hlive, hwants, hroom]) ?_
    have hheader : ((s.setBlockAt k { s.blockAt k with growFrom := (s.blockAt k).growFrom.set stage s.now }).blockAt k).header =
        (s.blockAt k).header := by rw [blockAt_setBlockAt]
    obtain ⟨hgroup, hrest⟩ := growStage_groupAt (stage := stage) hslot hfree hothers hlow
    refine ⟨congrArg Group.phase hgroup, congrArg Group.block hgroup, ?_, congrArg (fun g => g.splits.map Prod.fst) hgroup,
      congrArg (fun g => (g.splits.get 0 Split.none).mask) hgroup, ?_, growStage_growFrom .., hrest, growStage_sameMemory ..⟩
    · exact (congrArg (fun g => g.stage.toNat) hgroup).trans (BitVec.toNat_ofNat ..)
    · refine (congrArg (fun g => (g.splits.get 0 Split.none).pc) hgroup).trans ?_
      exact congrArg (fun x : Header => (x.stages.getD stage Stage.none).entry) hheader
  · refine happens_of_event (exec_stageShrink ..) (by simp [hlive, hmay]) ?_
    rw [shrinkStage_of_youngest hg hphase hlater]
    have hgroup := groupAt_setGroupAt s g { s.groupAt g with shrink := true }
    exact ⟨congrArg Group.shrink hgroup, congrArg (fun x : Group => { x with shrink := (s.groupAt g).shrink }) hgroup,
      fun j hj => groupAt_setGroupAt_of_ne _ _ hj⟩
  · refine happens_of_event (exec_groupSlotRelease ..) (by simp [slotDone, groupKey, hphase, hst, hcp, htm]) ?_
    obtain ⟨-, hblocks, hmemory⟩ := releaseSlot_rest s (groupKey c slot)
    exact ⟨congrArg Group.phase (releaseSlot_groupAt ..), hblocks, fun j hj => releaseSlot_groupAt_of_ne _ _ hj, hmemory⟩
end

section
/-!
O17: a barrier after a join, a leave, an arrival and the completion of a phase (R139).
-/

set_option Elab.async false

namespace Sys2Proof.Machine

/-- A barrier whose phase is complete: every expected arrival has come, and one at least (R139). -/
def Barrier.Due (x : Barrier) : Prop := x.arrived = x.expected ∧ 0 < x.arrived

/-- The flags of a member when a phase completes (R139). -/
def BarFlags.next (f : BarFlags) : BarFlags := { member := true, counted := true, arrived := f.pending, pending := false }

/-- The barrier when a phase completes in which `n` members have arrived for the next one (R139). -/
def Barrier.next (x : Barrier) (n : Nat) : Barrier := { x with expected := x.members, arrived := n, phase := x.phase + 1 }

namespace State

section
variable (s : State) (id gk k : Nat)

/-! ## Flags and barriers after a change (R139) -/

@[simp] theorem setBar_bar (f : BarFlags) : ((s.setBar gk k f).sysAt gk).bar k = f := by
  rw [setBar, sysAt_setSysAt, GroupSys.bar, Table.get_set_self]

theorem setBar_bar_of_ne_group (f : BarFlags) (i : Nat) {j : Nat} (h : j ≠ gk) :
    ((s.setBar gk k f).sysAt j).bar i = (s.sysAt j).bar i := by
  rw [setBar, sysAt_setSysAt_of_ne _ _ h]

theorem setBar_bar_of_ne (f : BarFlags) (j : Nat) {i : Nat} (h : i ≠ k) :
    ((s.setBar gk k f).sysAt j).bar i = (s.sysAt j).bar i := by
  by_cases hj : j = gk
  · rw [hj, setBar, sysAt_setSysAt, GroupSys.bar, Table.get_set_of_ne _ _ _ h]
    rfl
  · exact setBar_bar_of_ne_group s gk k f i hj

@[simp] theorem setBarrier_barrier (x : Barrier) : ((s.setBarrier id k x).blockAt id).barrier k = x := by
  rw [setBarrier, blockAt_setBlockAt, Block.barrier, Table.get_set_self]

/-- A group's flags and its block's barrier replaced, before the completion check. -/
def barChange (f : BarFlags) (x : Barrier) : State := (s.setBar gk k f).setBarrier (s.groupAt gk).block k x

theorem barChange_barrier (f : BarFlags) (x : Barrier) : ((s.barChange gk k f x).blockAt (s.groupAt gk).block).barrier k = x :=
  setBarrier_barrier ..

theorem barChange_bar (f : BarFlags) (x : Barrier) : ((s.barChange gk k f x).sysAt gk).bar k = f := setBar_bar ..

/-! ## The completion of a phase (R139) -/

/-- Members of barrier `k` that have arrived for its next phase. -/
def pendingMembers : List Nat := (s.barMembers id k).filter fun g => ((s.sysAt g).bar k).pending

/-- The flags of the groups of a list turned to the next phase. -/
def turnFlags (l : List Nat) : State := l.foldl (fun t gk => t.setBar gk k ((t.sysAt gk).bar k).next) s

theorem completePhase_of_due (h : ((s.blockAt id).barrier k).Due) : s.completePhase id k =
    (s.turnFlags k (s.barMembers id k)).setBarrier id k (((s.blockAt id).barrier k).next (s.pendingMembers id k).length) := by
  obtain ⟨hall, hsome⟩ := h
  unfold completePhase
  simp only [hall, decide_true, Bool.true_and]
  exact if_pos (decide_eq_true (hall ▸ hsome))

theorem completePhase_of_not_due (h : ¬ ((s.blockAt id).barrier k).Due) : s.completePhase id k = s := by
  unfold completePhase
  refine if_neg fun hdue => h ?_
  rw [Bool.and_eq_true, decide_eq_true_eq, decide_eq_true_eq] at hdue
  exact hdue

/-- Where no phase is complete the check changes nothing. -/
theorem checkBarrier_of_not_due (h : ¬ ((s.blockAt id).barrier k).Due) : s.checkBarrier id k = s := by
  rw [checkBarrier, completePhase_of_not_due _ _ _ h, completePhase_of_not_due _ _ _ h]

/-- The barrier when a phase completes. -/
theorem completePhase_barrier (h : ((s.blockAt id).barrier k).Due) : ((s.completePhase id k).blockAt id).barrier k =
    ((s.blockAt id).barrier k).next (s.pendingMembers id k).length := by
  rw [completePhase_of_due _ _ _ h, setBarrier_barrier]

end

section
variable {s : State} {id k g : Nat} {l : List Nat}

theorem turnFlags_bar_of_not_mem (h : g ∉ l) : ((s.turnFlags k l).sysAt g).bar k = (s.sysAt g).bar k := by
  induction l generalizing s with
  | nil => rfl
  | cons j l ih =>
      obtain ⟨hj, hl⟩ := not_or.mp (mt List.mem_cons.mpr h)
      exact (ih hl).trans (setBar_bar_of_ne_group _ _ _ _ _ hj)

theorem turnFlags_bar_of_mem (hl : l.Nodup) (h : g ∈ l) : ((s.turnFlags k l).sysAt g).bar k = ((s.sysAt g).bar k).next := by
  induction l generalizing s with
  | nil => cases h
  | cons j l ih =>
      obtain ⟨hj, hl⟩ := List.nodup_cons.mp hl
      by_cases hg : g = j
      · subst hg
        exact (turnFlags_bar_of_not_mem hj).trans (setBar_bar ..)
      · have hrest := ih (s := s.setBar j k ((s.sysAt j).bar k).next) hl ((List.mem_cons.mp h).resolve_left hg)
        rw [setBar_bar_of_ne_group _ _ _ _ _ hg] at hrest
        exact hrest

/-- No group whose flags have been turned has arrived for a phase after the next. -/
theorem turnFlags_pending (h : g ∈ l ∨ ((s.sysAt g).bar k).pending = false) : (((s.turnFlags k l).sysAt g).bar k).pending = false := by
  induction l generalizing s with
  | nil => exact h.resolve_left List.not_mem_nil
  | cons j l ih =>
      refine ih ?_
      by_cases hg : g = j
      · subst hg
        exact .inr (congrArg BarFlags.pending (setBar_bar ..))
      · rw [setBar_bar_of_ne_group _ _ _ _ _ hg]
        exact h.imp_left fun hmem => (List.mem_cons.mp hmem).resolve_left hg

/-- When a phase completes, pending arrivals become arrivals: none is pending any more. -/
theorem pendingMembers_completePhase (h : ((s.blockAt id).barrier k).Due) : (s.completePhase id k).pendingMembers id k = [] := by
  refine List.filter_eq_nil_iff.mpr fun g hg => ?_
  obtain ⟨hin, hmember⟩ := List.mem_filter.mp hg
  have hbar : ((s.completePhase id k).sysAt g).bar k = ((s.turnFlags k (s.barMembers id k)).sysAt g).bar k := by
    rw [completePhase_of_due _ _ _ h]
    rfl
  have hgroups : g ∈ s.groupsIn id := by rwa [groupsIn, completePhase_groups] at hin
  have hmem : g ∈ s.barMembers id k := by
    by_contra hnot
    rw [hbar, turnFlags_bar_of_not_mem hnot] at hmember
    exact hnot (List.mem_filter.mpr ⟨hgroups, hmember⟩)
  rw [hbar, turnFlags_pending (.inl hmem)]
  exact Bool.false_ne_true

/-- After the completion check no phase is complete: two rounds of it are enough, for the second leaves no arrival (R139). -/
theorem checkBarrier_not_due (s : State) (id k : Nat) : ¬ (((s.checkBarrier id k).blockAt id).barrier k).Due := by
  by_cases hfirst : ((s.blockAt id).barrier k).Due
  · by_cases hsecond : (((s.completePhase id k).blockAt id).barrier k).Due
    · rw [checkBarrier, completePhase_barrier _ _ _ hsecond, pendingMembers_completePhase hfirst]
      exact fun hdue => Nat.lt_irrefl 0 hdue.2
    · rwa [checkBarrier, completePhase_of_not_due _ _ _ hsecond]
  · rwa [checkBarrier_of_not_due _ _ _ hfirst]

/-- The barrier and its members' flags when a phase completes and the arrivals at hand do not fill the next one. -/
theorem checkBarrier_of_due (h : ((s.blockAt id).barrier k).Due)
    (hrest : (s.pendingMembers id k).length = 0 ∨ (s.pendingMembers id k).length ≠ ((s.blockAt id).barrier k).members) :
    s.checkBarrier id k = s.completePhase id k := by
  refine completePhase_of_not_due _ _ _ ?_
  rw [completePhase_barrier _ _ _ h]
  rintro ⟨hall, hsome⟩
  exact hrest.elim (Nat.pos_iff_ne_zero.mp hsome) (absurd hall)

/-! ## Join, leave and arrival (R139) -/

variable {gk : Nat}

/-- The barrier and the group's flags after a change that completes no phase. -/
theorem checked_barChange {f : BarFlags} {x : Barrier} (h : ¬ x.Due) :
    let t := (s.barChange gk k f x).checkBarrier (s.groupAt gk).block k
    ((t.blockAt (s.groupAt gk).block).barrier k, (t.sysAt gk).bar k) = (x, f) := by
  have hcheck : (s.barChange gk k f x).checkBarrier (s.groupAt gk).block k = s.barChange gk k f x :=
    checkBarrier_of_not_due _ _ _ (by rwa [barChange_barrier])
  dsimp only
  rw [hcheck, barChange_barrier, barChange_bar]

/-- Barrier `k` of a group's block. -/
def barrierOf (s : State) (gk k : Nat) : Barrier := (s.blockAt (s.groupAt gk).block).barrier k

theorem memberJoin_eq (s : State) (gk k : Nat) : s.memberJoin gk k =
    (s.barChange gk k
      { member := true, counted := (s.barrierOf gk k).arrived == 0, arrived := false, pending := false }
      { s.barrierOf gk k with
        members := (s.barrierOf gk k).members + 1
        expected := (s.barrierOf gk k).expected + (if (s.barrierOf gk k).arrived == 0 then 1 else 0) }).checkBarrier
      (s.groupAt gk).block k := rfl

theorem memberJoin_of_idle (h : (s.barrierOf gk k).arrived = 0) : s.memberJoin gk k =
    (s.barChange gk k { BarFlags.none with member := true, counted := true }
      { s.barrierOf gk k with
        members := (s.barrierOf gk k).members + 1
        expected := (s.barrierOf gk k).expected + 1 }).checkBarrier (s.groupAt gk).block k := by
  rw [memberJoin_eq, beq_iff_eq.mpr h]
  rfl

theorem memberJoin_of_open (h : (s.barrierOf gk k).arrived ≠ 0) : s.memberJoin gk k =
    (s.barChange gk k { BarFlags.none with member := true }
      { s.barrierOf gk k with members := (s.barrierOf gk k).members + 1 }).checkBarrier (s.groupAt gk).block k := by
  rw [memberJoin_eq, beq_eq_false_iff_ne.mpr h]
  rfl

theorem memberLeave_of_expected (hmember : ((s.sysAt gk).bar k).member = true) (hcounted : ((s.sysAt gk).bar k).counted = true)
    (harrived : ((s.sysAt gk).bar k).arrived = false) : s.memberLeave gk k =
    (s.barChange gk k BarFlags.none
      { s.barrierOf gk k with
        members := (s.barrierOf gk k).members - 1
        expected := (s.barrierOf gk k).expected - 1 }).checkBarrier (s.groupAt gk).block k := by
  unfold memberLeave
  simp only [hmember, hcounted, harrived]
  rfl

/-- A group that does not stand among those whose arrival the phase expects. -/
theorem not_expected (h : ((s.sysAt gk).bar k).counted = false ∨ ((s.sysAt gk).bar k).arrived = true) :
    (((s.sysAt gk).bar k).counted && !((s.sysAt gk).bar k).arrived) = false := by
  rcases h with h | h <;> simp [h]

theorem memberLeave_of_not_expected (hmember : ((s.sysAt gk).bar k).member = true)
    (h : ((s.sysAt gk).bar k).counted = false ∨ ((s.sysAt gk).bar k).arrived = true) : s.memberLeave gk k =
    (s.barChange gk k BarFlags.none
      { s.barrierOf gk k with members := (s.barrierOf gk k).members - 1 }).checkBarrier (s.groupAt gk).block k := by
  unfold memberLeave
  simp only [hmember, not_expected h]
  rfl

/-- A member that leaves loses its flags, and the barrier is checked. -/
theorem memberLeave_of_member (h : ((s.sysAt gk).bar k).member = true) :
    ∃ x, s.memberLeave gk k = (s.barChange gk k BarFlags.none x).checkBarrier (s.groupAt gk).block k := by
  unfold memberLeave
  simp only [h]
  exact ⟨_, rfl⟩

theorem arrive_of_expected (hcounted : ((s.sysAt gk).bar k).counted = true) (harrived : ((s.sysAt gk).bar k).arrived = false) :
    s.arrive gk k = (s.barChange gk k { (s.sysAt gk).bar k with arrived := true }
      { s.barrierOf gk k with arrived := (s.barrierOf gk k).arrived + 1 }).checkBarrier (s.groupAt gk).block k := by
  unfold arrive
  simp only [hcounted, harrived]
  rfl

theorem arrive_of_not_expected (h : ((s.sysAt gk).bar k).counted = false ∨ ((s.sysAt gk).bar k).arrived = true) :
    s.arrive gk k = s.setBar gk k { (s.sysAt gk).bar k with pending := true } := by
  unfold arrive
  simp only [not_expected h]
  rfl

end

end State

end Sys2Proof.Machine

open Sys2Proof Sys2Proof.Machine Sys2Proof.Machine.State

/-- Settles O17: each change but a pending arrival is one of the flags and the barrier and then the completion check, which leaves no
phase complete (`checkBarrier_not_due`). -/
theorem barrierRules : Obligations.BarrierRules := by
  unfold Obligations.BarrierRules
  intro s gk k
  refine ⟨fun hidle => ?_, fun hopen hmore => ?_, fun hmember hcounted harrived hmore => ?_, fun hmember hnot hmore => ?_,
    fun hcounted harrived hmore => ?_, fun hnot => ?_, fun hall hsome hrest hnodup => ?_, fun t ht => ?_⟩
  · rw [memberJoin_of_idle hidle]
    exact checked_barChange fun hdue => hdue.2.ne' hidle
  · rw [memberJoin_of_open hopen]
    exact checked_barChange fun hdue => hmore hdue.1
  · rw [memberLeave_of_expected hmember hcounted harrived]
    exact checked_barChange fun hdue => hmore.elim hdue.2.ne' (absurd hdue.1)
  · rw [memberLeave_of_not_expected hmember hnot]
    exact checked_barChange fun hdue => hmore.elim hdue.2.ne' (absurd hdue.1)
  · rw [arrive_of_expected hcounted harrived]
    exact checked_barChange fun hdue => hmore hdue.1
  · rw [arrive_of_not_expected hnot]
    exact congrArg (Prod.mk _) (setBar_bar ..)
  · have hdue : ((s.blockAt (s.groupAt gk).block).barrier k).Due := ⟨hall, hsome⟩
    rw [checkBarrier_of_due hdue hrest]
    refine ⟨completePhase_barrier _ _ _ hdue, fun g hg => ?_⟩
    rw [completePhase_of_due _ _ _ hdue]
    exact turnFlags_bar_of_mem hnodup hg
  · obtain ⟨u, rfl⟩ : ∃ u : State, t = u.checkBarrier (s.groupAt gk).block k := by
      rcases ht with ht | ⟨hmember, ht⟩ | ⟨hcounted, harrived, ht⟩
      · exact ⟨_, ht.trans (memberJoin_eq ..)⟩
      · obtain ⟨x, hleave⟩ := memberLeave_of_member hmember
        exact ⟨_, ht.trans hleave⟩
      · exact ⟨_, ht.trans (arrive_of_expected hcounted harrived)⟩
    exact checkBarrier_not_due u _ _
end

section
/-!
O18: the barrier words (R142).
-/

set_option Elab.async false

namespace Sys2Proof.Machine

/-- Done(x) of R142, as numbers. -/
theorem phaseDone_iff {phase y : Word} : phaseDone phase y = true ↔
    1 ≤ (phase.toNat + 2 ^ 32 - y.toNat) % 2 ^ 32 ∧ (phase.toNat + 2 ^ 32 - y.toNat) % 2 ^ 32 ≤ 2 ^ 31 := by
  have hsub : (phase - y).toNat = (phase.toNat + 2 ^ 32 - y.toNat) % 2 ^ 32 := by
    rw [BitVec.toNat_sub]
    congr 1
    omega
  rw [phaseDone, Bool.and_eq_true, decide_eq_true_eq, decide_eq_true_eq, hsub]

namespace State

/-- The token of an arrival: the phase at hand where it counts in that one, else the next (R142). -/
theorem arrivalToken_eq (s : State) (k : Nat) : s.arrivalToken s.gkey k = (s.block.barrier k).phase +
    (if (s.gsys.bar k).counted = true ∧ (s.gsys.bar k).arrived = false then 0 else 1) := by
  simp only [arrivalToken, Bool.and_eq_true, Bool.not_eq_true']
  rfl

section
variable {s : State} {bar : BitVec 4}

theorem mayArrive_iff (h : s.snap = none) {k : Nat} : s.mayArrive k = true ↔
    k < s.block.barrierCount ∧ (s.block.stageOf s.group).barmask.getLsbD k = true := by
  rw [mayArrive, vblock_of_none h, vgroup_of_none h, Bool.and_eq_true, decide_eq_true_eq]

theorem barDone_of_none (h : s.snap = none) (k : Nat) (y : Word) : s.barDone k y = phaseDone (s.block.barrier k).phase y := by
  rw [barDone, vblock_of_none h]

/-! ## The words (R142) -/

theorem barArrive_of_allowed {d : SReg} (hi : s.Issues (Instr.barArrive bar d).facts) (hmay : s.mayArrive bar.toNat = true)
    (hnone : GroupSys.waiting s.gsys = []) : exec (.barArrive bar d) s =
      .next ((s.arrive s.gkey bar.toNat).writeS d (s.arrivalToken s.gkey bar.toNat)).done := by
  rw [exec_barArrive, execBarArrive, issue_eq hi, if_pos hmay, afterRelease_of_none hnone]

theorem barArrive_of_forbidden {d : SReg} (hi : s.Issues (Instr.barArrive bar d).facts) (hmay : ¬ s.mayArrive bar.toNat = true) :
    exec (.barArrive bar d) s = .next (s.fault .permission 0 none) := by
  rw [exec_barArrive, execBarArrive, issue_eq hi, if_neg hmay]

theorem barWait_eq (h : s.snap = none) {a : SReg} (hi : s.Issues (Instr.barWait bar a).facts) : exec (.barWait bar a) s =
    .next (if s.block.barrierCount ≤ bar.toNat then s.fault .permission 0 none
      else if phaseDone (s.block.barrier bar.toNat).phase (s.readS a) = true then s.done else s.held s.holdOf) := by
  rw [exec_barWait, execBarWait, issue_eq hi, barDone_of_none h, vblock_of_none h]

theorem barTry_eq (h : s.snap = none) {a : SReg} {p : PReg} (hi : s.Issues (Instr.barTry bar a p).facts) : exec (.barTry bar a p) s =
    .next (if s.block.barrierCount ≤ bar.toNat then s.fault .permission 0 none
      else (s.writePAll p (phaseDone (s.block.barrier bar.toNat).phase (s.readS a))).done) := by
  rw [exec_barTry, execBarTry, issue_eq hi, barDone_of_none h, vblock_of_none h]

section
variable (hi : s.Issues (Instr.barSync bar).facts)
include hi

/-- A BAR.SYNC whose arrival has been made waits for its token (R142). -/
theorem barSync_of_arrived (h : s.snap = none) {y : Word} (hhere : s.split.arrivalHere = some y) : exec (.barSync bar) s =
    .next (if phaseDone (s.block.barrier bar.toNat).phase y = true then s.done else s.held s.holdOf) := by
  rw [exec_barSync, execBarSync, issue_eq hi]
  simp only [hhere, barDone_of_none h]

theorem barSync_of_forbidden (hhere : s.split.arrivalHere = none) (hmay : ¬ s.mayArrive bar.toNat = true) :
    exec (.barSync bar) s = .next (s.fault .permission 0 none) := by
  rw [exec_barSync, execBarSync, issue_eq hi]
  simp only [hhere, hmay]
  rfl

/-- A BAR.SYNC without an arrival makes it, and waits for its token (R142). -/
theorem barSync_of_allowed (hhere : s.split.arrivalHere = none) (hmay : s.mayArrive bar.toNat = true)
    (hnone : GroupSys.waiting s.gsys = []) :
    let t := s.syncArrive bar.toNat
    exec (.barSync bar) s =
      .next (if phaseDone (t.1.block.barrier bar.toNat).phase t.2 = true then t.1.done else t.1.held t.1.holdOf) := by
  rw [exec_barSync, execBarSync, issue_eq hi]
  simp only [hhere, hmay, afterRelease_of_none hnone]
  rfl

end

end

end State

end Sys2Proof.Machine

open Sys2Proof Sys2Proof.Machine Sys2Proof.Machine.State

/-- Settles O18: what each barrier word does where it may, with the token of `arrivalToken_eq` and Done of `phaseDone_iff`. -/
theorem barrierWords : Obligations.BarrierWords := by
  unfold Obligations.BarrierWords
  intro s bar a d p h
  refine ⟨fun hi hmay hnone => ?_, fun hi hmay => ?_, fun hi hin hdone => ?_, fun hi hin hdone => ?_, fun hi hout => ?_,
    fun hi hhere hmay hnone => ?_, fun y hi hhere => ⟨fun hdone => ?_, fun hdone => ?_⟩, fun hi hhere hmay => ?_,
    fun hi hin => ?_, fun hi hout => ?_⟩
  · rw [barArrive_of_allowed hi ((mayArrive_iff h).mpr hmay) hnone, arrivalToken_eq]
  · exact barArrive_of_forbidden hi (mt (mayArrive_iff h).mp hmay)
  · rw [barWait_eq h hi, if_neg hin.not_ge, if_pos (phaseDone_iff.mpr hdone)]
  · rw [barWait_eq h hi, if_neg hin.not_ge, if_neg (mt phaseDone_iff.mp hdone)]
  · rw [barWait_eq h hi, if_pos (Nat.not_lt.mp hout)]
  · have hsync := barSync_of_allowed hi hhere ((mayArrive_iff h).mpr hmay) hnone
    simp only [syncArrive, arrivalToken_eq] at hsync
    refine ⟨fun hdone => ?_, fun hdone => ?_⟩
    · rw [hsync, if_pos (phaseDone_iff.mpr hdone)]
    · rw [hsync, if_neg (mt phaseDone_iff.mp hdone)]
  · rw [barSync_of_arrived hi h hhere, if_pos (phaseDone_iff.mpr hdone)]
  · rw [barSync_of_arrived hi h hhere, if_neg (mt phaseDone_iff.mp hdone)]
  · exact barSync_of_forbidden hi hhere (mt (mayArrive_iff h).mp hmay)
  · have hdone : phaseDone (s.block.barrier bar.toNat).phase (s.readS a) = decide (1 ≤ _ ∧ _) :=
      Bool.eq_iff_iff.mpr (phaseDone_iff.trans decide_eq_true_iff.symm)
    rw [barTry_eq h hi, if_neg hin.not_ge, hdone]
  · rw [barTry_eq h hi, if_pos (Nat.not_lt.mp hout)]
end

section
/-!
O19: DETACH, LAUNCH and HOPS (R134, R136, R137), and what a word that writes one predicate keeps of a group.
-/

set_option Elab.async false

namespace Sys2Proof.Machine

/-! ## A group but for one predicate and what its splits remember -/

/-- `h` is `g` but for predicate `p` and for what its splits remember beside their masks. -/
structure Group.Keeps (p : Nat) (g h : Group) : Prop where
  rest : { h with p := g.p, splits := g.splits } = g
  preds : ∀ y, y ≠ p → h.p.get y 0 = g.p.get y 0
  masks : ∀ n, (h.splits.at? n).map Split.mask = (g.splits.at? n).map Split.mask

namespace Group.Keeps

variable {p : Nat} {g h k : Group}

theorem refl (p : Nat) (g : Group) : Keeps p g g := ⟨rfl, fun _ _ => rfl, fun _ => rfl⟩

theorem trans (a : Keeps p g h) (b : Keeps p h k) : Keeps p g k where
  rest := (congrArg (fun x : Group => { x with p := g.p, splits := g.splits }) b.rest).trans a.rest
  preds y hy := (b.preds y hy).trans (a.preds y hy)
  masks n := (b.masks n).trans (a.masks n)

/-- A change of splits that leaves their masks. -/
theorem mapVal {f : Nat → Split → Split} (hf : ∀ n x, (f n x).mask = x.mask) : Keeps p g { g with splits := g.splits.mapVal f } where
  rest := rfl
  preds _ _ := rfl
  masks n := by
    rw [Table.at?_mapVal, Option.map_map]
    exact congrArg (Option.map · _) (funext (hf n))

theorem splitAt_mask (a : Keeps p g h) (n : Nat) : (h.splitAt n).mask = (g.splitAt n).mask := by
  have hmask : ∀ k : Group, (k.splitAt n).mask = ((k.splits.at? n).map Split.mask).getD Split.none.mask := fun k =>
    (Option.getD_map Split.mask Split.none (k.splits.at? n)).symm
  rw [hmask, hmask, a.masks]

theorem at?_ne_none (a : Keeps p g h) {n : Nat} (hn : g.splits.at? n ≠ none) : h.splits.at? n ≠ none := fun hnone => by
  have hmasks := a.masks n
  rw [hnone] at hmasks
  exact hn (Option.map_eq_none_iff.mp hmasks.symm)

theorem v_eq (a : Keeps p g h) : h.v = g.v := by
  have hv := congrArg Group.v a.rest
  exact hv

theorem s_eq (a : Keeps p g h) : h.s = g.s := by
  have hs := congrArg Group.s a.rest
  exact hs

theorem wid_eq (a : Keeps p g h) : h.wid = g.wid := by
  have hwid := congrArg Group.wid a.rest
  exact hwid

/-- What a vector register that is not written reads as depends on the group's block and member index too. -/
theorem vectorOf_eq (a : Keeps p g h) (r : Nat) : State.vectorOf h r = State.vectorOf g r := by
  have hvector := congrArg (State.vectorOf · r) a.rest
  exact hvector

theorem phase_eq (a : Keeps p g h) : h.phase = g.phase := by
  have hphase := congrArg Group.phase a.rest
  exact hphase

end Group.Keeps

namespace State

/-! ## One truth value in all lanes of a predicate (R148) -/

section
variable (s : State) (p : PReg) (b : Bool)

theorem ofFn_true : (LaneMask.ofFn fun _ => true) = BitVec.allOnes 96 := by
  refine BitVec.eq_of_getLsbD_eq fun l _ => ?_
  rw [LaneMask.getLsbD_ofFn, Bool.and_true, BitVec.getLsbD_allOnes]

theorem writePAll_group (h : p ≠ 7) : (s.writePAll p b).group =
    { s.group with p := s.group.p.set p.toNat (LaneMask.ofFn fun _ => b) } := by
  have hall : (LaneMask.ofFn fun l => if (BitVec.allOnes 96).getLsbD l then b else (s.group.p.get p.toNat 0).getLsbD l) =
      LaneMask.ofFn fun _ => b := by
    refine BitVec.eq_of_getLsbD_eq fun l hl => ?_
    have hone : (BitVec.allOnes 96).getLsbD l = true := by rw [BitVec.getLsbD_allOnes, decide_eq_true hl]
    rw [LaneMask.getLsbD_ofFn, LaneMask.getLsbD_ofFn, hone, if_pos rfl]
  rw [writePAll, writePLanes_group _ _ _ h, hall]

theorem writePAll_keeps : Group.Keeps p.toNat s.group (s.writePAll p b).group := by
  by_cases h : p = 7
  · subst h
    rw [writePAll, writePLanes_seven]
    exact .refl ..
  · rw [writePAll_group _ _ _ h]
    exact ⟨rfl, fun y hy => Table.get_set_of_ne _ _ _ hy, fun _ => rfl⟩

@[simp] theorem writePAll_gkey : (s.writePAll p b).gkey = s.gkey := by rw [gkey, writePAll_cur]; rfl

theorem writePAll_groupAt_of_ne {k : Nat} (h : k ≠ s.gkey) : (s.writePAll p b).groupAt k = s.groupAt k := by
  have hframe : Frame ⟨[Reg.p p.toNat], 0, False, False⟩ s (s.writePAll p b) := .writePLanes _ _ List.mem_cons_self
  exact hframe.groupAt k h

/-- Beside the registers a predicate's write changes nothing but marks of loads (R85). -/
theorem writePAll_gsys : ∃ ld tm, (s.writePAll p b).gsys = { s.gsys with ld := ld, tm := tm } := by
  by_cases h : p = 7
  · exact ⟨_, _, congrArg gsys (h ▸ writePLanes_seven s _ _)⟩
  · rw [writePAll, writePLanes_gsys _ _ _ h, spoilP_gsys]
    split
    · exact ⟨_, _, rfl⟩
    · exact ⟨_, _, rfl⟩

theorem writePAll_sameMemory : s.SameMemory (s.writePAll p b) :=
  .of_eq (writePAll_mem ..) (writePAll_spad ..) (writePAll_acc ..)

end

@[simp] theorem done_gkey (s : State) : s.done.gkey = s.gkey := by rw [gkey, done_cur]; rfl

theorem done_mask {s : State} (h : s.snap = none) : s.done.split.mask = s.split.mask := by
  rw [done_split_of_none h]
  exact (nextWord_rest s.split s.split.word).1

theorem SameMemory.trans {s t u : State} (a : s.SameMemory t) (b : t.SameMemory u) : s.SameMemory u := by
  obtain ⟨amem, aspad, aacc⟩ := a
  obtain ⟨bmem, bspad, bacc⟩ := b
  exact ⟨fun x => (bmem x).trans (amem x), fun x => (bspad x).trans (aspad x), fun e => (bacc e).trans (aacc e)⟩

/-! ## Leaving barriers (R134, R139) -/

section
variable {s : State} {gk k j i : Nat}

theorem turnFlags_bar_of_ne {l : List Nat} (h : i ≠ k) : ((s.turnFlags k l).sysAt j).bar i = (s.sysAt j).bar i := by
  induction l generalizing s with
  | nil => rfl
  | cons g l ih => exact ih.trans (setBar_bar_of_ne _ _ _ _ _ h)

/-- The completion of a phase makes no group a member. -/
theorem completePhase_not_member {id : Nat} (h : ((s.sysAt j).bar i).member = false) :
    (((s.completePhase id k).sysAt j).bar i).member = false := by
  by_cases hdue : ((s.blockAt id).barrier k).Due
  · rw [completePhase_of_due _ _ _ hdue]
    have hturn : ((s.turnFlags k (s.barMembers id k)).sysAt j).bar i = (s.sysAt j).bar i := by
      by_cases hi : i = k
      · subst hi
        refine turnFlags_bar_of_not_mem fun hmem => ?_
        obtain ⟨-, hmember⟩ := List.mem_filter.mp hmem
        exact Bool.false_ne_true (h.symm.trans hmember)
      · exact turnFlags_bar_of_ne hi
    exact (congrArg BarFlags.member hturn).trans h
  · rwa [completePhase_of_not_due _ _ _ hdue]

theorem checkBarrier_not_member {id : Nat} (h : ((s.sysAt j).bar i).member = false) :
    (((s.checkBarrier id k).sysAt j).bar i).member = false :=
  completePhase_not_member (completePhase_not_member h)

/-- A group that is no member leaves the barrier as it is. -/
theorem memberLeave_of_stranger (h : ((s.sysAt gk).bar k).member = false) : s.memberLeave gk k = s := by
  unfold memberLeave
  simp only [h]
  rfl

theorem memberLeave_not_member_self (s : State) (gk k : Nat) : (((s.memberLeave gk k).sysAt gk).bar k).member = false := by
  cases h : ((s.sysAt gk).bar k).member with
  | false => rwa [memberLeave_of_stranger h]
  | true =>
      obtain ⟨x, hleave⟩ := memberLeave_of_member h
      rw [hleave]
      exact checkBarrier_not_member (congrArg BarFlags.member (barChange_bar ..))

/-- A group that leaves a barrier becomes a member of none. -/
theorem memberLeave_not_member (h : ((s.sysAt gk).bar i).member = false) : (((s.memberLeave gk k).sysAt gk).bar i).member = false := by
  by_cases hi : i = k
  · exact hi ▸ memberLeave_not_member_self s gk k
  · cases hk : ((s.sysAt gk).bar k).member with
    | false => rwa [memberLeave_of_stranger hk]
    | true =>
        obtain ⟨x, hleave⟩ := memberLeave_of_member hk
        rw [hleave]
        exact checkBarrier_not_member ((congrArg BarFlags.member (setBar_bar_of_ne _ _ _ _ _ hi)).trans h)

/-- A group that leaves the barriers of a list is a member of none of them. -/
theorem leaves_not_member {l : List Nat} (h : k ∈ l ∨ ((s.sysAt gk).bar k).member = false) :
    (((l.foldl (fun t i => t.memberLeave gk i) s).sysAt gk).bar k).member = false := by
  induction l generalizing s with
  | nil => exact h.resolve_left List.not_mem_nil
  | cons i l ih =>
      refine ih ?_
      by_cases hk : k = i
      · exact .inr (hk ▸ memberLeave_not_member_self s gk k)
      · exact h.imp (fun hmem => (List.mem_cons.mp hmem).resolve_left hk) memberLeave_not_member

/-- A group that leaves its block is a member of no barrier of its stage (R134). -/
theorem leaveBlock_not_member (h : k ∈ ((s.blockAt (s.groupAt gk).block).stageOf (s.groupAt gk)).bars) :
    (((s.leaveBlock gk).sysAt gk).bar k).member = false := by
  have hsys : (s.leaveBlock gk).sys =
      ((((s.blockAt (s.groupAt gk).block).stageOf (s.groupAt gk)).bars).foldl (fun t i => t.memberLeave gk i) s).sys :=
    foldl_proj State.sys (fun _ _ => by rfl) ..
  rw [sysAt, hsys]
  exact leaves_not_member (.inl h)

theorem partnerLeft_mask (x : Split) (m : Nat) : (Split.partnerLeft x m).mask = x.mask := by
  unfold Split.partnerLeft
  split <;> rfl

/-- What a group keeps when one leaves its block (R134). -/
theorem leaveBlock_keeps (s : State) (gk j p : Nat) : Group.Keeps p (s.groupAt j) ((s.leaveBlock gk).groupAt j) := by
  have hfold : ∀ (m : Nat) (l : List Nat) (t : State), Group.Keeps p (t.groupAt j) ((l.foldl (fun s k => s.setGroupAt k
      { s.groupAt k with splits := (s.groupAt k).splits.mapVal fun _ x => Split.partnerLeft x m }) t).groupAt j) := by
    intro m l
    induction l with
    | nil => exact fun t => .refl ..
    | cons k l ih =>
        intro t
        refine .trans ?_ (ih _)
        by_cases hj : j = k
        · rw [hj, groupAt_setGroupAt]
          exact .mapVal fun _ x => partnerLeft_mask x m
        · rw [groupAt_setGroupAt_of_ne _ _ hj]
          exact .refl ..
  have hgroup : s.groupAt j =
      ((((s.blockAt (s.groupAt gk).block).stageOf (s.groupAt gk)).bars).foldl (fun t i => t.memberLeave gk i) s).groupAt j := by
    rw [groupAt, groupAt, foldl_proj groups (fun _ _ => memberLeave_groups ..)]
  rw [hgroup]
  exact hfold _ _ _

end

/-! ## DETACH (R134) -/

/-- The state in which a group has left its block, before DETACH writes its predicate. -/
def detached (s : State) : State := (s.leaveBlock s.gkey).setGroup { (s.leaveBlock s.gkey).group with phase := .detached }

theorem detached_frame (s : State) : MemberFrame s s.detached := (MemberFrame.leaveBlock s.gkey).trans (.setGroupAt ..)

theorem detached_gkey (s : State) : s.detached.gkey = s.gkey := by rw [gkey, (detached_frame s).cur]; rfl

theorem detached_group (s : State) (p : Nat) : Group.Keeps p { s.group with phase := .detached } s.detached.group := by
  have hgkey : (s.leaveBlock s.gkey).gkey = s.gkey := by rw [gkey, (MemberFrame.leaveBlock s.gkey).cur]; rfl
  have hkeeps : Group.Keeps p s.group (s.leaveBlock s.gkey).group := by
    rw [group, group, hgkey]
    exact leaveBlock_keeps ..
  rw [detached, setGroup_group]
  exact ⟨congrArg (fun g : Group => { g with phase := .detached }) hkeeps.rest, hkeeps.preds, hkeeps.masks⟩

section
variable {s : State} {p : PReg} (hi : s.Issues (Instr.detach p).facts)
include hi

theorem detach_of_divided (halone : s.alone = false) : exec (.detach p) s = .next (s.fault .permission 0 none) := by
  rw [exec_detach, execDetach, issue_eq hi, halone]
  rfl

theorem detach_of_posted (halone : s.alone = true) (hslice : s.slicePosted s.gkey = true) :
    exec (.detach p) s = .next (s.writePAll p false).done := by
  rw [exec_detach, execDetach, issue_eq hi, halone, if_pos hslice]
  rfl

theorem detach_of_free (halone : s.alone = true) (hslice : s.slicePosted s.gkey = false) :
    exec (.detach p) s = .next (s.detached.writePAll p true).done := by
  rw [exec_detach, execDetach, issue_eq hi, halone, hslice]
  rfl

end

section
variable {s : State} (p : PReg)

theorem detached_snap (h : s.snap = none) : (s.detached.writePAll p true).snap = none := (writePAll_snap ..).trans ((detached_frame s).snap.trans h)

/-- The registers and the mask of a group that DETACH takes out of its block (R134). -/
theorem detached_done_group (h : s.snap = none) :
    let t := (s.detached.writePAll p true).done
    t.group.phase = .detached ∧ (p ≠ 7 → t.group.p.get p.toNat 0 = BitVec.allOnes 96) ∧
    t.group.s = s.group.s ∧ t.group.v = s.group.v ∧ t.split.mask = s.split.mask := by
  have hgroup := done_group_of_none (detached_snap p h)
  have hkeeps : Group.Keeps p.toNat { s.group with phase := .detached } (s.detached.writePAll p true).group :=
    (detached_group s p.toNat).trans (writePAll_keeps ..)
  have hmask : (s.detached.writePAll p true).split.mask = s.split.mask := by
    rw [split, writePAll_cur, (detached_frame s).cur]
    exact hkeeps.splitAt_mask _
  dsimp only
  rw [done_mask (detached_snap p h), hgroup]
  refine ⟨hkeeps.phase_eq, fun hp => ?_, hkeeps.s_eq, hkeeps.v_eq, hmask⟩
  rw [writePAll_group _ _ _ hp]
  exact (Table.get_set_self ..).trans ofFn_true

/-- What stands beside the registers of such a group. -/
theorem detached_done_gsys :
    let t := (s.detached.writePAll p true).done
    t.gsys.st = s.gsys.st ∧ t.gsys.cp = s.gsys.cp ∧ t.gsys.bars = ((s.leaveBlock s.gkey).sysAt s.gkey).bars := by
  obtain ⟨ld, tm, hsys⟩ := writePAll_gsys s.detached p true
  have hframe : s.detached.gsys.unbarred = s.gsys.unbarred := by
    rw [gsys, detached_gkey]
    exact (detached_frame s).sysAt _
  have hst := congrArg GroupSys.st hframe
  have hcp := congrArg GroupSys.cp hframe
  have hbars : s.detached.gsys.bars = ((s.leaveBlock s.gkey).sysAt s.gkey).bars := by
    rw [gsys, detached_gkey]
    rfl
  dsimp only
  rw [done_gsys, hsys]
  exact ⟨hst, hcp, hbars⟩

theorem detached_done_sameMemory : s.SameMemory (s.detached.writePAll p true).done :=
  ((detached_frame s).sameMemory.trans (writePAll_sameMemory ..)).trans (done_sameMemory _)

end

/-! ## LAUNCH (R136) -/

theorem launch_eq {s : State} {d a b : SReg} (h : s.snap = none) (hi : s.Issues (Instr.launch d a b).facts) :
    exec (.launch d a b) s = .next (
      if (s.readPair a).toNat % 128 ≠ 0 then s.fault .misalignment (s.readPair a) none
      else if 16 ≤ (s.readS b).toNat then (s.writeS d 2).done
      else if 64 ≤ (s.queues.get (queueKey s.context.partition (s.readS b).toNat) []).length then (s.writeS d 1).done
      else s.afterRelease fun s' =>
        (((s'.setBlock { s'.block with wroteOut := true }).postLaunch s'.block.context s.context.partition (s.readS b).toNat
          (s.readPair a).toNat none).writeS d 0).done) := by
  rw [exec_launch, execLaunch, issue_eq hi, vcontext_of_none h]
  simp only [setBlock_block]

/-- The state in which LAUNCH has posted the header, before it writes its answer. -/
def launched (s : State) (a b : SReg) : State :=
  (s.setBlock { s.block with wroteOut := true }).postLaunch s.block.context s.context.partition (s.readS b).toNat
    (s.readPair a).toNat none

section
variable (s : State) (a b : SReg)

theorem launched_queues : (s.launched a b).queues.get (queueKey s.context.partition (s.readS b).toNat) [] =
    s.queues.get (queueKey s.context.partition (s.readS b).toNat) [] ++ [s.freshId] := Table.get_set_self ..

theorem launched_launchAt : (s.launched a b).launchAt s.freshId = { Launch.none with
    headerAddr := (s.readPair a).toNat, context := s.block.context, partition := s.context.partition, queue := (s.readS b).toNat } :=
  Table.get_set_self ..

theorem launched_snap : (s.launched a b).snap = s.snap := rfl

theorem launched_sameMemory : s.SameMemory (s.launched a b) := .of_eq rfl rfl rfl

end

/-- A scalar register after a word that writes it. -/
theorem writeS_done_get {s : State} (h : s.snap = none) {d : SReg} (hd : d.toNat < 61) (w : Word) :
    (s.writeS d w).done.group.s.get d.toNat 0 = w := by
  rw [done_group_of_none ((writeS_snap ..).trans h), writeS_group _ _ hd]
  exact Table.get_set_self ..

theorem writeS_done_sameMemory (s : State) (d : SReg) (w : Word) : s.SameMemory (s.writeS d w).done :=
  (SameMemory.of_eq (writeS_mem ..) (writeS_spad ..) (writeS_acc ..)).trans (done_sameMemory _)

theorem launch_of_room {s : State} {d a b : SReg} (h : s.snap = none) (hi : s.Issues (Instr.launch d a b).facts)
    (halign : (s.readPair a).toNat % 128 = 0) (hqueue : (s.readS b).toNat < 16)
    (hroom : (s.queues.get (queueKey s.context.partition (s.readS b).toNat) []).length < 64) (hnone : GroupSys.waiting s.gsys = []) :
    exec (.launch d a b) s = .next ((s.launched a b).writeS d 0).done := by
  rw [launch_eq h hi, if_neg (not_not_intro halign), if_neg hqueue.not_ge, if_neg hroom.not_ge, afterRelease_of_none hnone]
  rfl

/-! ## HOPS (R10, R137) -/

theorem dieHops_eq : ∀ x < 4, ∀ y < 4, BitVec.ofNat 32 (dieHops x y) = if x = y then 0 else if (x + 2) % 4 = y then 2 else 1 := by
  decide

theorem hops_eq {s : State} {d a b : SReg} (h : s.snap = none) (hi : s.Issues (Instr.hops d a b).facts) :
    exec (.hops d a b) s = .next (s.writeS d (hopsOf s.context (s.readS a).toNat (s.readS b).toNat)).done := by
  rw [exec_hops, execHops, issue_eq hi, vcontext_of_none h]

theorem hopsOf_of_dies {x : Context} {a b p q : Nat} (ha : x.vdies[a]? = some p) (hb : x.vdies[b]? = some q) :
    hopsOf x a b = BitVec.ofNat 32 (dieHops p q) := by
  simp only [hopsOf, ha, hb]

theorem hopsOf_of_none {x : Context} {a b : Nat} (h : x.vdies[a]? = none ∨ x.vdies[b]? = none) : hopsOf x a b = 0xFFFFFFFF := by
  unfold hopsOf
  rcases h with h | h
  · simp only [h]
  · cases ha : x.vdies[a]? with
    | none => rfl
    | some p => simp only [h]

end State

end Sys2Proof.Machine

open Sys2Proof Sys2Proof.Machine Sys2Proof.Machine.State

/-- Settles O19: DETACH by what leaving a block keeps (`detached_done`), LAUNCH and HOPS by their cases. -/
theorem detachLaunchHops : Obligations.DetachLaunchHops := by
  unfold Obligations.DetachLaunchHops
  refine ⟨fun s p h hi => ⟨fun halone => detach_of_divided hi halone, fun halone hslice => detach_of_posted hi halone hslice,
    fun halone hslice => ?_⟩, fun s d a b h => ⟨fun hi => ⟨fun hlow => ?_, fun halign hbeyond => ?_, fun halign hqueue hfull => ?_,
      fun halign hqueue hroom hnone hd => ?_⟩, fun hi => ⟨fun x y ha hb hx hy => ?_, fun hdie => ?_⟩⟩⟩
  · refine ⟨_, detach_of_free hi halone hslice, ?_⟩
    obtain ⟨hphase, hpred, hs, hv, hmask⟩ := detached_done_group p h
    obtain ⟨hst, hcp, hbars⟩ := detached_done_gsys (s := s) p
    refine ⟨hphase, hpred, fun k hk hstage => ?_, hs, hv, hmask, hst, hcp, detached_done_sameMemory p⟩
    rw [GroupSys.bar, hbars]
    exact leaveBlock_not_member (mem_bars.mpr ⟨hk, hstage⟩)
  · rw [launch_eq h hi, if_pos hlow]
  · rw [launch_eq h hi, if_neg (not_not_intro halign), if_pos hbeyond]
  · rw [launch_eq h hi, if_neg (not_not_intro halign), if_neg hqueue.not_ge, if_pos hfull]
  · refine ⟨_, s.freshId, launch_of_room h hi halign hqueue hroom hnone, ?_⟩
    have hsnap : (s.launched a b).snap = none := (launched_snap s a b).trans h
    rw [launchAt, done_queues, writeS_queues, done_launches, writeS_launches]
    have hlaunch : (s.launched a b).launches.get s.freshId Launch.none = _ := launched_launchAt s a b
    rw [hlaunch]
    exact ⟨launched_queues s a b, rfl, rfl, rfl, rfl, writeS_done_get hsnap hd 0,
      (launched_sameMemory s a b).trans (writeS_done_sameMemory ..)⟩
  · rw [hops_eq h hi, hopsOf_of_dies ha hb, dieHops_eq x hx y hy]
  · rw [hops_eq h hi, hopsOf_of_none hdie]
end

section
/-!
O20: REGROUP without a partner, held, and the rendezvous (R135).
-/

set_option Elab.async false

namespace Sys2Proof

/-! ## Lanes of a mask, in order -/

theorem LaneMask.nodup_list (m : LaneMask) : (LaneMask.list m).Nodup := List.nodup_range.filter _

/-- The `j`-th lane of a mask is one of its lanes. -/
theorem LaneMask.list_getD_mem {m : LaneMask} {j : Nat} (h : j < (LaneMask.list m).length) :
    (LaneMask.list m).getD j 0 < 96 ∧ m.getLsbD ((LaneMask.list m).getD j 0) = true := by
  rw [← LaneMask.mem_list, List.getD_eq_getElem _ _ h]
  exact List.getElem_mem h

/-- In pairs whose first parts differ, the first part of the `j`-th pair finds its second part. -/
theorem find?_zip_getD {l l' : List Nat} (hl : l.Nodup) {j : Nat} (hj : j < l.length) (hj' : j < l'.length) :
    ((l.zip l').find? fun m => m.1 = l.getD j 0).map Prod.snd = some (l'.getD j 0) := by
  induction l generalizing l' j with
  | nil => exact absurd hj (Nat.not_lt_zero j)
  | cons a l ih =>
      obtain ⟨ha, hl⟩ := List.nodup_cons.mp hl
      cases l' with
      | nil => exact absurd hj' (Nat.not_lt_zero j)
      | cons b l' =>
          cases j with
          | zero => simp
          | succ j =>
              have hj : j < l.length := Nat.lt_of_succ_lt_succ hj
              have hne : ¬ a = l.getD j 0 := fun h => ha (by
                rw [h, List.getD_eq_getElem _ _ hj]
                exact List.getElem_mem hj)
              rw [List.zip_cons_cons, List.getD_cons_succ, List.getD_cons_succ, List.find?_cons_of_neg (by simpa using hne)]
              exact ih hl hj (Nat.lt_of_succ_lt_succ hj')

namespace Machine

/-- A table in which the numbers below `w` have been listed. -/
theorem Table.at?_foldl_set_range (t : Table α) (f : Nat → α) (w k : Nat) (hk : k < w) :
    ((List.range w).foldl (fun t r => t.set r (f r)) t).at? k = some (f k) := by
  induction w with
  | zero => exact absurd hk (Nat.not_lt_zero k)
  | succ w ih =>
      rw [List.range_succ, List.foldl_append]
      by_cases h : k = w
      · subst h
        exact Table.at?_set_self ..
      · exact (Table.at?_set_of_ne _ _ h).trans (ih (by omega))

namespace State

/-! ## The receiver of a rendezvous (R135) -/

/-- The positions that take over a lane. -/
def movedTo (moves : List (Nat × Nat)) : LaneMask := LaneMask.ofFn fun q => ((moves.find? fun m => m.1 = q).map Prod.snd).isSome

section
variable (s : State) (g e : Group) (src : Nat) (moves : List (Nat × Nat)) (first n window : Nat)

theorem received_splits : (s.received g e src moves first n window).splits =
    g.splits.mapVal fun _ x => { x with mask := x.mask ||| movedTo moves } := rfl

theorem received_p : (s.received g e src moves first n window).p = g.p.mapVal fun _ b => b &&& ~~~ movedTo moves := rfl

end

section
variable {s : State} {g e : Group} {src : Nat} {moves : List (Nat × Nat)} {first n window q d : Nat}
variable (hq : q < 96) (hmove : (moves.find? fun m => m.1 = q).map Prod.snd = some d)
include hq hmove

theorem movedTo_getLsbD : (movedTo moves).getLsbD q = true := by
  rw [movedTo, LaneMask.getLsbD_ofFn, hmove, decide_eq_true hq]
  rfl

theorem received_wid : (s.received g e src moves first n window).wid.toArray.getD q 0 = e.wid.toArray.getD d 0 := by
  unfold received
  simp [Array.getD_eq_getD_getElem?, hq, hmove]

/-- A vector register of the range keeps its value in a lane that moves (R135). -/
theorem received_vector {x : Nat} (hx : x < window) (hlow : first ≤ x) (hhigh : x < first + n)
    (hbusy : ((s.sysAt src).busyV x).getLsbD d = false) :
    (vectorOf (s.received g e src moves first n window) x).lane q = (vectorOf e x).lane d := by
  unfold received vectorOf
  dsimp only
  rw [Table.at?_foldl_set_range _ _ _ _ hx]
  dsimp only
  rw [LaneWords.lane_ofFn _ hq, hmove]
  simp only [hlow, hhigh, decide_true, Bool.and_self, if_true]
  rw [laneOf, hbusy]
  rfl

theorem received_pred (y : Nat) : ((s.received g e src moves first n window).p.get y 0).getLsbD q = false := by
  rw [received_p, Table.get, Table.at?_mapVal]
  cases g.p.at? y with
  | none => exact BitVec.getLsbD_zero
  | some b =>
      rw [Option.map_some, Option.getD_some, BitVec.getLsbD_and, BitVec.getLsbD_not, movedTo_getLsbD hq hmove, Bool.not_true,
        Bool.and_false, Bool.and_false]

theorem received_mask {m : Nat} {x : Split} (h : (s.received g e src moves first n window).splits.at? m = some x) :
    x.mask.getLsbD q = true := by
  rw [received_splits, Table.at?_mapVal] at h
  obtain ⟨y, -, rfl⟩ := Option.map_eq_some_iff.mp h
  exact (BitVec.getLsbD_or ..).trans (by rw [movedTo_getLsbD hq hmove, Bool.or_true])

end

/-! ## The rendezvous (R135) -/

section
variable (s : State) (k : Nat)

/-- The issuing group has the lower member index: it receives. -/
def receives : Bool := s.group.member < (s.groupAt k).member

def receiver : Nat := if s.receives k then s.gkey else k

def donor : Nat := if s.receives k then k else s.gkey

/-- Active lanes of the donor, and dormant positions of the receiver. -/
def givenLanes : List Nat := LaneMask.list ((s.groupAt (s.donor k)).splits.foldl (fun m x => m ||| x.2.mask) (0 : LaneMask))

def places : List Nat := LaneMask.list (s.groupAt (s.receiver k)).dormant

/-- The partner keeps the group as it stood (R67). -/
def remembered : State := s.setSysAt k { s.sysAt k with before := some (s.groupAt k) }

/-- The state in which the lanes have moved. -/
def exchanged (first n : Nat) : State :=
  let window := vectorWindow s.vblock (s.groupAt (s.receiver k))
  let moves := (s.places k).zip (s.givenLanes k)
  let new := (s.remembered k).received (s.groupAt (s.receiver k)) (s.groupAt (s.donor k)) (s.donor k) moves first n window
  let t := ((s.remembered k).setGroupAt (s.receiver k) new).spoilGroup (s.receiver k) 0 window
    (LaneMask.ofFn fun q => moves.any (·.1 == q))
  t.setGroupAt (s.donor k) { t.groupAt (s.donor k) with
    splits := (t.groupAt (s.donor k)).splits.mapVal fun _ x => { x with mask := 0 } }

/-- A REGROUP that ends: the partner is given its outcome, and the issuing group its predicate. -/
def regroupEnds (outcome : Nat) (p : PReg) (b : Bool) : State := ((s.setRegroup k outcome).writePAll p b).done

end

section
variable {s : State} {k : Nat}

/-- The issuing group receives, or its partner does. -/
theorem receives_eq (s : State) (k : Nat) : decide (s.group.member < (s.groupAt k).member) = s.receives k := rfl

theorem rendezvous_of_few (h : s.snap = none) (first n : Nat) (p : PReg) (hfew : (s.places k).length < (s.givenLanes k).length) :
    s.rendezvous k first n p = s.regroupEnds k partnerFailed p false := by
  unfold places givenLanes receiver donor at hfew
  unfold rendezvous
  rw [vgroup_of_none h]
  dsimp only
  rw [receives_eq]
  cases hr : s.receives k
  all_goals
    rw [hr] at hfew
    exact if_pos hfew

theorem rendezvous_of_room (h : s.snap = none) (first n : Nat) (p : PReg) (hroom : (s.givenLanes k).length ≤ (s.places k).length) :
    s.rendezvous k first n p = (s.exchanged k first n).regroupEnds k partnerMet p true := by
  unfold exchanged
  unfold places givenLanes receiver donor at hroom ⊢
  unfold rendezvous
  rw [vgroup_of_none h]
  dsimp only
  rw [receives_eq]
  cases hr : s.receives k
  all_goals
    rw [hr] at hroom
    exact if_neg hroom.not_gt

theorem donor_ne_receiver (h : k ≠ s.gkey) : s.donor k ≠ s.receiver k := by
  unfold donor receiver
  split
  · exact h
  · exact h.symm

/-- The issuing group and its partner are the donor and the receiver. -/
theorem gkey_of_roles (s : State) (k : Nat) : s.gkey = s.donor k ∨ s.gkey = s.receiver k := by
  unfold donor receiver
  split
  · exact .inr rfl
  · exact .inl rfl

theorem exchanged_donor (h : k ≠ s.gkey) (first n : Nat) : (s.exchanged k first n).groupAt (s.donor k) =
    { s.groupAt (s.donor k) with splits := (s.groupAt (s.donor k)).splits.mapVal fun _ x => { x with mask := 0 } } := by
  have hkeep : ∀ (new : Group) (w : Nat) (m : LaneMask), (((s.remembered k).setGroupAt (s.receiver k) new).spoilGroup
      (s.receiver k) 0 w m).groupAt (s.donor k) = s.groupAt (s.donor k) := fun new _ _ =>
    groupAt_setGroupAt_of_ne (s.remembered k) new (donor_ne_receiver h)
  unfold exchanged
  dsimp only
  rw [groupAt_setGroupAt, hkeep]

theorem exchanged_receiver (h : k ≠ s.gkey) (first n : Nat) : (s.exchanged k first n).groupAt (s.receiver k) =
    (s.remembered k).received (s.groupAt (s.receiver k)) (s.groupAt (s.donor k)) (s.donor k) ((s.places k).zip (s.givenLanes k))
      first n (vectorWindow s.vblock (s.groupAt (s.receiver k))) := by
  unfold exchanged
  dsimp only
  rw [groupAt_setGroupAt_of_ne _ _ (donor_ne_receiver h).symm]
  exact groupAt_setGroupAt ..

theorem remembered_busyV (s : State) (k j r : Nat) : ((s.remembered k).sysAt j).busyV r = (s.sysAt j).busyV r := by
  unfold remembered
  by_cases hj : j = k
  · rw [hj, sysAt_setSysAt]
    rfl
  · rw [sysAt_setSysAt_of_ne _ _ hj]

/-- The exchange leaves the issuing group its split. -/
theorem exchanged_split (h : k ≠ s.gkey) (first n m : Nat) (hm : s.group.splits.at? m ≠ none) :
    (s.exchanged k first n).group.splits.at? m ≠ none := by
  have hgroup : (s.exchanged k first n).group = (s.exchanged k first n).groupAt s.gkey := rfl
  have hsome : ∀ f : Nat → Split → Split, (s.group.splits.mapVal f).at? m ≠ none := fun f => by
    rw [Table.at?_mapVal]
    exact mt Option.map_eq_none_iff.mp hm
  rw [hgroup]
  rcases gkey_of_roles s k with hk | hk
  · have hown : s.groupAt (s.donor k) = s.group := by rw [← hk]; rfl
    rw [hk, exchanged_donor h, hown]
    exact hsome fun _ x => { x with mask := 0 }
  · have hown : s.groupAt (s.receiver k) = s.group := by rw [← hk]; rfl
    rw [hk, exchanged_receiver h, hown, received_splits]
    exact hsome _

/-! ## The end of a REGROUP -/

theorem setRegroup_keeps (s : State) (k outcome j p : Nat) : Group.Keeps p (s.groupAt j) ((s.setRegroup k outcome).groupAt j) := by
  unfold setRegroup
  by_cases hj : j = k
  · rw [hj, groupAt_setGroupAt]
    refine .mapVal fun _ x => ?_
    split <;> rfl
  · rw [groupAt_setGroupAt_of_ne _ _ hj]
    exact .refl ..

/-- The end of a word keeps the masks, where the issuing split stands in its group. -/
theorem done_keeps {s : State} (h : s.snap = none) (hsplit : s.group.splits.at? s.cur.split ≠ none) (p : Nat) :
    Group.Keeps p s.group s.done.group := by
  rw [done_group_of_none h]
  refine ⟨rfl, fun _ _ => rfl, fun n => ?_⟩
  obtain ⟨x, hx⟩ := Option.ne_none_iff_exists'.mp hsplit
  have hcur : s.split = x := Table.get_of_at? hx _
  dsimp only
  by_cases hn : n = s.cur.split
  · rw [hn, Table.at?_set_self, hx, hcur]
    exact congrArg some (nextWord_rest x x.word).1
  · rw [Table.at?_set_of_ne _ _ hn]

/-- What every group keeps when a REGROUP ends. -/
theorem regroupEnds_keeps {s : State} (h : s.snap = none) (hsplit : s.group.splits.at? s.cur.split ≠ none) (k outcome : Nat) (p : PReg)
    (b : Bool) (j : Nat) : Group.Keeps p.toNat (s.groupAt j) ((s.regroupEnds k outcome p b).groupAt j) := by
  have hset := setRegroup_keeps s k outcome j p.toNat
  by_cases hj : j = s.gkey
  · subst hj
    have hwrite : Group.Keeps p.toNat s.group ((s.setRegroup k outcome).writePAll p b).group := hset.trans (writePAll_keeps ..)
    have hcur : ((s.setRegroup k outcome).writePAll p b).cur = s.cur := writePAll_cur ..
    have hdone := done_keeps ((writePAll_snap (s.setRegroup k outcome) p b).trans h) (hcur ▸ hwrite.at?_ne_none hsplit) p.toNat
    have hgkey : (s.regroupEnds k outcome p b).gkey = s.gkey := by
      unfold regroupEnds
      rw [done_gkey, writePAll_gkey]
      rfl
    have hgroup : (s.regroupEnds k outcome p b).groupAt s.gkey = (s.regroupEnds k outcome p b).group := by rw [← hgkey]; rfl
    rw [hgroup]
    exact hwrite.trans hdone
  · have hkey : j ≠ ((s.setRegroup k outcome).writePAll p b).gkey := by rwa [writePAll_gkey]
    rw [regroupEnds, done_groupAt_of_ne _ hkey, writePAll_groupAt_of_ne (s.setRegroup k outcome) _ _ hj]
    exact hset

end

/-! ## The cases of the word (R135) -/

section
variable {s : State} {p : PReg} {partner k : Nat} {first : VReg} {n : Nat}
variable (hhold : s.split.hold = none) (hpartner : partner < 2 ^ 32)
include hhold

theorem holdOf_regroup_of_none : s.holdOf.regroup = none := by
  rw [holdOf, hhold]
  rfl

include hpartner

/-- A REGROUP that was not held has no outcome to take. -/
theorem outcome_of_unheld : (s.holdOf.regroup.map Prod.fst).getD partner = partner ∧
    partner ≠ partnerMet ∧ partner ≠ partnerGone ∧ partner ≠ partnerFailed := by
  rw [holdOf_regroup_of_none hhold]
  unfold partnerMet partnerGone partnerFailed
  exact ⟨rfl, by omega, by omega, by omega⟩

theorem regroup_of_noPartner (hslot : s.memberSlot partner = none ∨ s.memberSlot partner = some s.gkey) :
    s.regroup p partner first n = (s.writePAll p false).done := by
  obtain ⟨hout, hmet, hgone, hfailed⟩ := outcome_of_unheld hhold hpartner
  rcases hslot with hslot | hslot <;> simp [regroup, hout, hmet, hgone, hfailed, hslot]

section
variable (hslot : s.memberSlot partner = some k) (hne : k ≠ s.gkey)
include hslot hne

theorem regroup_of_absent (hheld : s.regroupHeld k = none) :
    s.regroup p partner first n = s.held { s.holdOf with regroup := some (partner, first, n) } := by
  obtain ⟨hout, hmet, hgone, hfailed⟩ := outcome_of_unheld hhold hpartner
  simp [regroup, hout, hmet, hgone, hfailed, hslot, hne, hheld]

variable (h : s.snap = none) {m : Nat} {v : VReg} {count : Nat} (hheld : s.regroupHeld k = some (m, v, count))
include h hheld

theorem regroup_of_otherPartner (hm : m ≠ s.group.member) :
    s.regroup p partner first n = s.held { s.holdOf with regroup := some (partner, first, n) } := by
  obtain ⟨hout, hmet, hgone, hfailed⟩ := outcome_of_unheld hhold hpartner
  simp [regroup, hout, hmet, hgone, hfailed, hslot, hne, hheld, vgroup_of_none h, hm]

variable (hm : m = s.group.member)
include hm

/-- The terms that both groups must meet (R135). -/
theorem regroup_of_otherTerms (hterms : v ≠ first ∨ count ≠ n ∨ vectorWindow s.block s.group < first.toNat + n ∨
    vectorWindow s.block (s.groupAt k) < first.toNat + n) :
    s.regroup p partner first n = ((s.setRegroup k partnerFailed).writePAll p false).done := by
  obtain ⟨hout, hmet, hgone, hfailed⟩ := outcome_of_unheld hhold hpartner
  simp only [← or_assoc] at hterms
  simp [regroup, hout, hmet, hgone, hfailed, hslot, hne, hheld, vgroup_of_none h, vblock_of_none h, hm, hterms]

theorem regroup_of_met (hfirst : v = first) (hcount : count = n) (hown : first.toNat + n ≤ vectorWindow s.block s.group)
    (hother : first.toNat + n ≤ vectorWindow s.block (s.groupAt k)) :
    s.regroup p partner first n = s.rendezvous k first.toNat n p := by
  obtain ⟨hout, hmet, hgone, hfailed⟩ := outcome_of_unheld hhold hpartner
  simp [regroup, hout, hmet, hgone, hfailed, hslot, hne, hheld, vgroup_of_none h, vblock_of_none h, hm, hfirst, hcount, hown.not_gt,
    hother.not_gt]

end

end

theorem regroup_of_divided {s : State} {p : PReg} {r : SReg} {first : VReg} {more : BitVec 5}
    (hi : s.Issues (Instr.regroup p r first more).facts) (halone : s.alone = false) :
    exec (.regroup p r first more) s = .next (s.fault .permission 0 none) := by
  rw [exec_regroup, execRegroup, issue_eq hi, halone]
  rfl

theorem regroup_of_alone {s : State} {p : PReg} {r : SReg} {first : VReg} {more : BitVec 5}
    (hi : s.Issues (Instr.regroup p r first more).facts) (halone : s.alone = true) :
    exec (.regroup p r first more) s = .next (s.regroup p (s.readS r).toNat first (more.toNat + 1)) := by
  rw [exec_regroup, execRegroup, issue_eq hi, halone]
  rfl

/-- A REGROUP that is held remembers its terms (R72). -/
theorem held_regroup (s : State) (r : Nat × VReg × Nat) : let t := s.held { s.holdOf with regroup := some r }
    t.last = .held ∧ t.split.hold.bind Hold.regroup = some r ∧ t.split.mask = s.split.mask := by
  intro t
  have hsplit : t.split = { s.split with hold := some { s.holdOf with regroup := some r } } := held_split ..
  rw [hsplit]
  exact ⟨rfl, rfl, rfl⟩

/-! ## What the rendezvous does to the two groups (R135) -/

/-- The `j`-th lane given moves to the `j`-th place. -/
theorem exchange_move {s : State} {k j : Nat} (hroom : (s.givenLanes k).length ≤ (s.places k).length)
    (hj : j < (s.givenLanes k).length) : (s.places k).getD j 0 < 96 ∧ ((((s.places k).zip (s.givenLanes k)).find?
    fun m => m.1 = (s.places k).getD j 0).map Prod.snd) = some ((s.givenLanes k).getD j 0) :=
  ⟨(LaneMask.list_getD_mem (hj.trans_le hroom)).1, find?_zip_getD (LaneMask.nodup_list _) (hj.trans_le hroom) hj⟩

section
variable {s : State} {k : Nat} (h : s.snap = none) (hk : k ≠ s.gkey) (hsplit : s.group.splits.at? s.cur.split ≠ none)
include h hsplit

/-- Too few dormant positions: registers and lanes stay. -/
theorem rendezvous_few (p : PReg) :
    let t := s.regroupEnds k partnerFailed p false
    (∀ j, (t.groupAt j).v = (s.groupAt j).v) ∧ t.split.mask = s.split.mask := by
  intro t
  have hkeeps := regroupEnds_keeps h hsplit k partnerFailed p false
  have hcur : t.cur = s.cur := (done_cur _).trans (writePAll_cur ..)
  refine ⟨fun j => (hkeeps j).v_eq, ?_⟩
  have hgroup : t.split = (t.groupAt s.gkey).splitAt s.cur.split := by rw [split, group, gkey, hcur]; rfl
  rw [hgroup]
  exact (hkeeps s.gkey).splitAt_mask _

include hk

theorem exchanged_keeps (first n j : Nat) (p : PReg) : Group.Keeps p.toNat ((s.exchanged k first n).groupAt j)
    (((s.exchanged k first n).regroupEnds k partnerMet p true).groupAt j) :=
  regroupEnds_keeps (s := s.exchanged k first n) h (exchanged_split hk first n _ hsplit) k partnerMet p true j

/-- The donor's lanes become dormant. -/
theorem rendezvous_donor (first n : Nat) (p : PReg) {m : Nat} {x : Split}
    (hx : (((s.exchanged k first n).regroupEnds k partnerMet p true).groupAt (s.donor k)).splits.at? m = some x) : x.mask = 0 := by
  have hmasks := (exchanged_keeps h hk hsplit first n (s.donor k) p).masks m
  rw [hx, exchanged_donor hk, Table.at?_mapVal, Option.map_map] at hmasks
  obtain ⟨y, -, hy⟩ := Option.map_eq_some_iff.mp hmasks.symm
  exact hy.symm

section
variable {j : Nat} (hroom : (s.givenLanes k).length ≤ (s.places k).length) (hj : j < (s.givenLanes k).length)
include hroom hj

/-- The receiver is active in the place of each lane that has moved. -/
theorem rendezvous_receiver_mask (first n : Nat) (p : PReg) {m : Nat} {x : Split}
    (hx : (((s.exchanged k first n).regroupEnds k partnerMet p true).groupAt (s.receiver k)).splits.at? m = some x) :
    x.mask.getLsbD ((s.places k).getD j 0) = true := by
  obtain ⟨hplace, hmove⟩ := exchange_move hroom hj
  have hmasks := (exchanged_keeps h hk hsplit first n (s.receiver k) p).masks m
  rw [hx, exchanged_receiver hk] at hmasks
  obtain ⟨y, hy, hmask⟩ := Option.map_eq_some_iff.mp hmasks.symm
  rw [← hmask]
  exact received_mask hplace hmove hy

/-- The receiver takes over the work identifier and the registers of the range, and its predicates but the word's own are false (R135). -/
theorem rendezvous_receiver (first n : Nat) (p : PReg) :
    let u := ((s.exchanged k first n).regroupEnds k partnerMet p true).groupAt (s.receiver k)
    let e := s.groupAt (s.donor k)
    let q := (s.places k).getD j 0
    let d := (s.givenLanes k).getD j 0
    u.wid.toArray.getD q 0 = e.wid.toArray.getD d 0 ∧
    (∀ x, first ≤ x → x < first + n → x < vectorWindow s.block (s.groupAt (s.receiver k)) →
      ((s.sysAt (s.donor k)).busyV x).getLsbD d = false → (vectorOf u x).lane q = (vectorOf e x).lane d) ∧
    ∀ y, y ≠ p.toNat → (u.p.get y 0).getLsbD q = false := by
  obtain ⟨hplace, hmove⟩ := exchange_move hroom hj
  have hkeeps := exchanged_keeps h hk hsplit first n (s.receiver k) p
  have hnew := exchanged_receiver hk first n
  refine ⟨?_, fun x hlow hhigh hwindow hbusy => ?_, fun y hy => ?_⟩
  · rw [hkeeps.wid_eq, hnew]
    exact received_wid hplace hmove
  · rw [hkeeps.vectorOf_eq, hnew]
    refine received_vector hplace hmove ?_ hlow hhigh ?_
    · rwa [vblock_of_none h]
    · rwa [remembered_busyV]
  · rw [hkeeps.preds y hy, hnew]
    exact received_pred hplace hmove y

end

end

end State

end Machine

end Sys2Proof

open Sys2Proof Sys2Proof.Machine Sys2Proof.Machine.State

/-- Settles O20: the cases of a REGROUP that has not been held, and the rendezvous by what it does to the receiver and the donor. -/
theorem regroup : Obligations.Regroup := by
  unfold Obligations.Regroup
  intro s p r first more h hi hhold hsplit
  have hpartner : (s.readS r).toNat < 2 ^ 32 := (s.readS r).isLt
  refine ⟨fun halone => regroup_of_divided hi halone, fun halone hslot => ?_, fun k halone hslot hne hheld => ?_,
    fun k m v count halone hslot hne hheld => ⟨fun hm => ?_, fun hm hterms => ?_⟩,
    fun k halone hslot hne hheld hown hother => ⟨fun hfew => ?_, fun hroom => ?_⟩⟩
  · rw [regroup_of_alone hi halone, regroup_of_noPartner hhold hpartner hslot]
  · refine ⟨_, regroup_of_alone hi halone, ?_⟩
    rw [regroup_of_absent hhold hpartner hslot hne hheld]
    exact held_regroup ..
  · refine ⟨_, regroup_of_alone hi halone, ?_⟩
    rw [regroup_of_otherPartner hhold hpartner hslot hne h hheld hm]
    exact held_regroup ..
  · rw [regroup_of_alone hi halone, regroup_of_otherTerms hhold hpartner hslot hne h hheld hm hterms]
  · refine ⟨_, regroup_of_alone hi halone, ?_⟩
    rw [regroup_of_met hhold hpartner hslot hne h hheld rfl rfl rfl hown hother, rendezvous_of_few h _ _ _ hfew]
    obtain ⟨hv, hmask⟩ := rendezvous_few (k := k) h hsplit p
    exact ⟨hv _, hv _, hmask⟩
  · refine ⟨_, regroup_of_alone hi halone, ?_⟩
    rw [regroup_of_met hhold hpartner hslot hne h hheld rfl rfl rfl hown hother, rendezvous_of_room h _ _ _ hroom]
    refine ⟨fun m x hx => rendezvous_donor h hne hsplit _ _ p hx,
      fun m x hx j hj => rendezvous_receiver_mask h hne hsplit hroom hj _ _ p hx, ?_⟩
    rintro j hj _ _ rfl rfl
    exact rendezvous_receiver h hne hsplit hroom hj _ _ p
end

section
/-!
O21: the 32-bit vector integer words (R152 to R154).
-/

set_option Elab.async false

namespace Sys2Proof.Machine

/-! ## Differences and clamped values (R152) -/

theorem absDiff_eq_ofNat (a b : Word) : absDiff a b = BitVec.ofNat 32 (a.toInt - b.toInt).natAbs := BitVec.ofInt_natCast ..

theorem clampN_add_eq_ofNat (a b : Word) : clampN (a.toNat + b.toNat) = BitVec.ofNat 32 (min (2 ^ 32 - 1) (a.toNat + b.toNat)) := by
  rw [clampN, ← BitVec.ofInt_natCast]
  congr 1
  omega

theorem clampN_sub_eq_ofNat (a b : Word) : clampN ((a.toNat : Int) - b.toNat) = BitVec.ofNat 32 (a.toNat - b.toNat) := by
  have hlt : a.toNat < 2 ^ 32 := a.isLt
  rw [clampN, ← BitVec.ofInt_natCast]
  congr 1
  omega

/-! ## Shifts and immediates, at every width (R152, R153) -/

section
variable {w : Nat} (a : BitVec w) (k : Nat)

theorem shiftLeft_eq_ofNat : a <<< k = BitVec.ofNat w (a.toNat * 2 ^ k) := by
  apply BitVec.eq_of_toNat_eq
  simp [Nat.shiftLeft_eq]

theorem ushiftRight_eq_ofNat : a >>> k = BitVec.ofNat w (a.toNat / 2 ^ k) := by
  have hlt : a.toNat / 2 ^ k < 2 ^ w := lt_of_le_of_lt (Nat.div_le_self ..) a.isLt
  apply BitVec.eq_of_toNat_eq
  rw [BitVec.toNat_ushiftRight, Nat.shiftRight_eq_div_pow, BitVec.toNat_ofNat, Nat.mod_eq_of_lt hlt]

end

theorem add_signExtend_eq_ofInt {n : Nat} (a : Word) (imm : BitVec n) :
    a + imm.signExtend 32 = BitVec.ofInt 32 (a.toInt + imm.toInt) := by
  rw [BitVec.ofInt_add, BitVec.ofInt_toInt]
  rfl

/-! ## Bit fields (R152) -/

theorem fieldPos_eq (b : Word) : fieldPos b = b.toNat % 32 := by simp [fieldPos]

theorem fieldLen_eq (b : Word) : fieldLen b = min (min (b.toNat / 256 % 64) 32) (32 - b.toNat % 32) := by
  simp [fieldLen, fieldPos_eq, Nat.shiftRight_eq_div_pow]

theorem fieldPos_add_fieldLen_le (b : Word) : fieldPos b + fieldLen b ≤ 32 := by
  rw [fieldLen_eq, fieldPos_eq]
  omega

theorem toNat_lowOnes {n : Nat} (h : n ≤ 32) : (lowOnes n).toNat = 2 ^ n - 1 := by
  have hle : 2 ^ n ≤ 2 ^ 32 := Nat.pow_le_pow_right (by decide) h
  rw [lowOnes, BitVec.toNat_ofNat, Nat.mod_eq_of_lt (by omega)]

theorem getLsbD_lowOnes (n : Nat) {i : Nat} (h : i < 32) : (lowOnes n).getLsbD i = decide (i < n) := by
  rw [lowOnes, BitVec.getLsbD_ofNat, Nat.testBit_two_pow_sub_one, decide_eq_true h, Bool.true_and]

/-- The mask of a field has ones at the field's bits. -/
theorem getLsbD_fieldMask (pos n : Nat) {i : Nat} (h : i < 32) :
    (lowOnes n <<< pos).getLsbD i = (decide (pos ≤ i) && decide (i < pos + n)) := by
  rw [BitVec.getLsbD_shiftLeft, getLsbD_lowOnes n (by omega), decide_eq_true h]
  grind

theorem bfeN_eq_ofNat (a b : Word) : bfeN a b = BitVec.ofNat 32 (a.toNat / 2 ^ fieldPos b % 2 ^ fieldLen b) := by
  have hlen : fieldLen b ≤ 32 := by have := fieldPos_add_fieldLen_le b; omega
  have hnum : (bfeN a b).toNat = a.toNat / 2 ^ fieldPos b % 2 ^ fieldLen b := by
    rw [bfeN, BitVec.toNat_and, toNat_lowOnes hlen, Nat.and_two_pow_sub_one_eq_mod, BitVec.toNat_ushiftRight, Nat.shiftRight_eq_div_pow]
  rw [← hnum, BitVec.ofNat_toNat, BitVec.setWidth_eq]

/-- The shift to the left and back brings the field down with copies of its highest bit above it. -/
theorem sshiftRight_shiftLeft_eq_signExtend (a : Word) {pos n : Nat} (hle : pos + n ≤ 32) (h : n ≠ 0) :
    (a <<< (32 - n - pos)).sshiftRight (32 - n) = (a.extractLsb' pos n).signExtend 32 := by
  have hmsb : (a <<< (32 - n - pos)).msb = (a.extractLsb' pos n).msb := by
    have hlast : 32 - 1 - (32 - n - pos) = pos + (n - 1) := by omega
    rw [BitVec.msb_eq_getLsbD_last, BitVec.msb_eq_getLsbD_last, BitVec.getLsbD_shiftLeft, BitVec.getLsbD_extractLsb', hlast]
    simp [show 32 - n - pos ≤ 31 by omega, Nat.pos_of_ne_zero h]
  apply BitVec.eq_of_getLsbD_eq
  intro i hi
  rw [BitVec.getLsbD_sshiftRight, BitVec.getLsbD_signExtend, hmsb]
  rcases lt_or_ge i n with hn | hn
  · have hbit : 32 - n + i - (32 - n - pos) = pos + i := by omega
    rw [if_pos (by omega), if_pos hn, BitVec.getLsbD_shiftLeft, BitVec.getLsbD_extractLsb', hbit]
    simp [hi, hi.not_ge, hn, show 32 - n + i < 32 by omega, show ¬ 32 - n + i < 32 - n - pos by omega]
  · rw [if_neg (by omega), if_neg hn.not_gt]
    simp [hi]

theorem bfeI_eq_signExtend (a b : Word) : bfeI a b = (a.extractLsb' (fieldPos b) (fieldLen b)).signExtend 32 := by
  unfold bfeI
  split
  · next h => rw [h, BitVec.eq_nil (a.extractLsb' _ 0)]; rfl
  · next h => exact sshiftRight_shiftLeft_eq_signExtend a (fieldPos_add_fieldLen_le b) h

/-- A number of `n` bits read as signed. -/
theorem signed_of_bits {n x : Nat} (h : x < 2 ^ n) : (if 2 * x < 2 ^ n then (x : Int) else (x : Int) - ((2 ^ n : Nat) : Int)) =
    if n ≠ 0 ∧ 2 ^ (n - 1) ≤ x then (x : Int) - 2 ^ n else x := by
  cases n with
  | zero => simp_all
  | succ n =>
    rw [Nat.add_sub_cancel]
    push_cast
    split <;> split <;> omega

theorem bfeI_eq_ofInt (a b : Word) : bfeI a b =
    BitVec.ofInt 32 (if fieldLen b ≠ 0 ∧ 2 ^ (fieldLen b - 1) ≤ a.toNat / 2 ^ fieldPos b % 2 ^ fieldLen b then
      ((a.toNat / 2 ^ fieldPos b % 2 ^ fieldLen b : Nat) : Int) - 2 ^ fieldLen b
    else (a.toNat / 2 ^ fieldPos b % 2 ^ fieldLen b : Nat)) := by
  have hfield : (a.extractLsb' (fieldPos b) (fieldLen b)).toNat = a.toNat / 2 ^ fieldPos b % 2 ^ fieldLen b := by
    rw [BitVec.extractLsb'_toNat, Nat.shiftRight_eq_div_pow]
  rw [bfeI_eq_signExtend, BitVec.signExtend, BitVec.toInt_eq_toNat_cond, hfield, signed_of_bits (Nat.mod_lt _ (Nat.two_pow_pos _))]

/-- Bit by bit: below the field the destination's, in the field the low bits of `a`, above the field the destination's again. -/
theorem bfi_eq_ofNat (d a b : Word) : bfi d a b = BitVec.ofNat 32 (d.toNat % 2 ^ fieldPos b +
    a.toNat % 2 ^ fieldLen b * 2 ^ fieldPos b +
    d.toNat / 2 ^ (fieldPos b + fieldLen b) * 2 ^ (fieldPos b + fieldLen b)) := by
  unfold bfi
  generalize fieldLen b = n
  generalize fieldPos b = pos
  have hnum : d.toNat % 2 ^ pos + a.toNat % 2 ^ n * 2 ^ pos + d.toNat / 2 ^ (pos + n) * 2 ^ (pos + n) =
      2 ^ pos * (2 ^ n * (d.toNat / 2 ^ (pos + n)) + a.toNat % 2 ^ n) + d.toNat % 2 ^ pos := by ring
  apply BitVec.eq_of_getLsbD_eq
  intro i hi
  rw [hnum, BitVec.getLsbD_ofNat, Nat.testBit_two_pow_mul_add _ (Nat.mod_lt _ (Nat.two_pow_pos _)),
    Nat.testBit_two_pow_mul_add _ (Nat.mod_lt _ (Nat.two_pow_pos _)), Nat.testBit_div_two_pow, Nat.testBit_mod_two_pow,
    Nat.testBit_mod_two_pow]
  simp only [BitVec.testBit_toNat, BitVec.getLsbD_or, BitVec.getLsbD_and, BitVec.getLsbD_not, getLsbD_fieldMask pos n hi,
    BitVec.getLsbD_shiftLeft, hi, decide_true, Bool.true_and]
  rcases lt_or_ge i pos with hlow | hlow
  · simp [hlow]
  rcases lt_or_ge i (pos + n) with hhigh | hhigh
  · simp [hlow.not_gt, hlow, hhigh, show i - pos < n by omega]
  · simp [hlow.not_gt, hhigh.not_gt, show ¬ i - pos < n by omega, show i - pos - n + (pos + n) = i by omega]

/-! ## Words of one source (R152) -/

theorem sum_bits_eq_length_filter (a : Word) (l : List Nat) :
    (l.map fun i => a.toNat / 2 ^ i % 2).sum = (l.filter fun i => a.getLsbD i).length := by
  induction l with
  | nil => rfl
  | cons i l ih =>
    rw [List.map_cons, List.sum_cons, ih, List.filter_cons, BitVec.getLsbD, Nat.testBit_eq_decide_div_mod_eq]
    rcases Nat.mod_two_eq_zero_or_one (a.toNat / 2 ^ i) with h | h <;> simp [h, Nat.add_comm]

theorem toNat_popCount (a : Word) : (popCount a).toNat = ((List.range 32).map fun i => a.toNat / 2 ^ i % 2).sum := by
  have hle : ((List.range 32).filter fun i => a.getLsbD i).length ≤ 32 := (List.length_filter_le ..).trans_eq List.length_range
  rw [sum_bits_eq_length_filter, popCount, BitVec.toNat_ofNat, Nat.mod_eq_of_lt (by omega)]

/-- The first bit from the top that is set is the highest: every bit above it is clear. -/
theorem leadingZeros_bounds (a : Word) : (leadingZeros a).toNat ≤ 32 ∧ a.toNat < 2 ^ (32 - (leadingZeros a).toNat) ∧
    ((leadingZeros a).toNat < 32 → 2 ^ (31 - (leadingZeros a).toNat) ≤ a.toNat) := by
  unfold leadingZeros
  cases hfind : (List.range 32).find? fun i => a.getLsbD (31 - i) with
  | none =>
    have hzero : a = 0 := BitVec.eq_of_getLsbD_eq fun i hi => by
      have hclear := List.find?_range_eq_none.mp hfind (31 - i) (by omega)
      rw [show 31 - (31 - i) = i by omega, Bool.not_eq_true'] at hclear
      exact hclear.trans BitVec.getLsbD_zero.symm
    subst hzero
    decide
  | some i =>
    obtain ⟨hbit, hi, hclear⟩ := List.find?_range_eq_some.mp hfind
    rw [List.mem_range] at hi
    rw [Option.getD_some, BitVec.toNat_ofNat, Nat.mod_eq_of_lt (by omega)]
    refine ⟨hi.le, Nat.lt_pow_two_of_testBit _ fun j hj => ?_, fun _ => Nat.ge_two_pow_of_testBit hbit⟩
    rcases lt_or_ge j 32 with h32 | h32
    · have hzero := hclear (31 - j) (by omega)
      rwa [show 31 - (31 - j) = j by omega, Bool.not_eq_true'] at hzero
    · exact BitVec.getLsbD_of_ge _ _ h32

theorem getLsbD_bitReverse (a : Word) {i : Nat} (h : i < 32) : (bitReverse a).getLsbD (31 - i) = a.getLsbD i := by
  rw [bitReverse, BitVec.getLsbD_reverse, BitVec.getMsbD_eq_getLsbD]
  rw [show 32 - 1 - (31 - i) = i by omega, decide_eq_true (by omega), Bool.true_and]

namespace State

/-! ## Words of one result register (R146) -/

theorem givesV_of_vectorWord {i : Instr} {s : State} {d : VReg} {f : Nat → Word} (g : State → Nat → Word)
    (hexec : exec i s = s.issue i fun t => t.vectorWord d (g t)) (hg : ∀ l, g s l = f l) : GivesV i s d f :=
  fun hi => by rw [hexec, issue_eq hi, vectorWord, funext hg]

/-- A word whose two forms compute `g` of the destination's, the first and the second source's value gives what `g` is. -/
theorem laneRule_of_vectorWord {v : VReg → VReg → VReg → Instr} {w : VReg → VReg → SReg → Instr} {h : Word → Word → Word → Word}
    (g : Word → Word → Word → Word)
    (hv : ∀ d a b s, exec (v d a b) s = s.issue (v d a b) fun t => t.vectorWord d fun l => g (t.readV d l) (t.readV a l) (t.readV b l))
    (hw : ∀ d a c s, exec (w d a c) s = s.issue (w d a c) fun t => t.vectorWord d fun l => g (t.readV d l) (t.readV a l) (t.readS c))
    (hg : ∀ d a b, g d a b = h d a b) : LaneRule v w h :=
  fun s d a b c => ⟨givesV_of_vectorWord _ (hv d a b s) fun _ => hg .., givesV_of_vectorWord _ (hw d a c s) fun _ => hg ..⟩

end State

end Sys2Proof.Machine

open Sys2Proof Sys2Proof.Machine Sys2Proof.Machine.State

/-- Settles O21: both forms of a word compute one function of the lane's values; each function is the number that R152 gives. -/
theorem vectorIntegers : Obligations.VectorIntegers := by
  unfold Obligations.VectorIntegers
  refine ⟨⟨?_, ?_, ?_, ?_, ?_, ?_, ?_, ?_, ?_, ?_, ?_, ?_, ?_, ?_, ?_, ?_, ?_, ?_, ?_, ?_⟩, ?_, ?_, ?_,
    fun s d a c imm k => ⟨⟨_, ?_, fun l => toNat_popCount _⟩, ⟨_, ?_, fun l => leadingZeros_bounds _⟩,
      ⟨_, ?_, fun l i hi => getLsbD_bitReverse _ hi⟩, ?_, ?_, ?_, ?_, ?_⟩⟩
  · exact laneRule_of_vectorWord (fun _ a b => a + b) exec_vaddI32 exec_vaddI32Vs fun _ => add_eq_ofNat
  · exact laneRule_of_vectorWord (fun _ a b => a - b) exec_vsubI32 exec_vsubI32Vs fun _ => sub_eq_ofInt
  · exact laneRule_of_vectorWord (fun _ a b => a * b) exec_vmulI32 exec_vmulI32Vs fun _ => mul_eq_ofNat
  · exact laneRule_of_vectorWord (fun _ => mulhI) exec_vmulhI32 exec_vmulhI32Vs fun _ => mulhI_eq_ofInt
  · exact laneRule_of_vectorWord (fun _ => mulhN) exec_vmulhN32 exec_vmulhN32Vs fun _ => mulhN_eq_ofNat
  · exact laneRule_of_vectorWord (fun _ => minI) exec_vminI32 exec_vminI32Vs fun _ => minI_eq_ofInt
  · exact laneRule_of_vectorWord (fun _ => maxI) exec_vmaxI32 exec_vmaxI32Vs fun _ => maxI_eq_ofInt
  · exact laneRule_of_vectorWord (fun _ => minN) exec_vminN32 exec_vminN32Vs fun _ => minN_eq_ofNat
  · exact laneRule_of_vectorWord (fun _ => maxN) exec_vmaxN32 exec_vmaxN32Vs fun _ => maxN_eq_ofNat
  · exact laneRule_of_vectorWord (fun _ a b => a &&& b) exec_vandB32 exec_vandB32Vs fun _ _ _ => rfl
  · exact laneRule_of_vectorWord (fun _ a b => a ||| b) exec_vorB32 exec_vorB32Vs fun _ _ _ => rfl
  · exact laneRule_of_vectorWord (fun _ a b => a ^^^ b) exec_vxorB32 exec_vxorB32Vs fun _ _ _ => rfl
  · exact laneRule_of_vectorWord (fun _ a b => a <<< count6 b) exec_vshlB32 exec_vshlB32Vs fun _ => shl_eq_ofNat
  · exact laneRule_of_vectorWord (fun _ a b => a >>> count6 b) exec_vshrN32 exec_vshrN32Vs fun _ => shrN_eq_ofNat
  · exact laneRule_of_vectorWord (fun _ a b => a.sshiftRight (count6 b)) exec_vshrI32 exec_vshrI32Vs fun _ => shrI_eq_ofInt
  · exact laneRule_of_vectorWord (fun _ => absDiff) exec_vabsdI32 exec_vabsdI32Vs fun _ => absDiff_eq_ofNat
  · exact laneRule_of_vectorWord (fun _ a b => clampI (a.toInt + b.toInt)) exec_vaddsI32 exec_vaddsI32Vs fun _ _ _ => rfl
  · exact laneRule_of_vectorWord (fun _ a b => clampI (a.toInt - b.toInt)) exec_vsubsI32 exec_vsubsI32Vs fun _ _ _ => rfl
  · exact laneRule_of_vectorWord (fun _ a b => clampN (a.toNat + b.toNat)) exec_vaddsN32 exec_vaddsN32Vs fun _ => clampN_add_eq_ofNat
  · exact laneRule_of_vectorWord (fun _ a b => clampN ((a.toNat : Int) - b.toNat)) exec_vsubsN32 exec_vsubsN32Vs
      fun _ => clampN_sub_eq_ofNat
  · refine laneRule_of_vectorWord (fun _ => bfeN) exec_vbfeN32 exec_vbfeN32Vs fun _ a b => ?_
    rw [bfeN_eq_ofNat, fieldPos_eq, fieldLen_eq]
  · refine laneRule_of_vectorWord (fun _ => bfeI) exec_vbfeI32 exec_vbfeI32Vs fun _ a b => ?_
    rw [bfeI_eq_ofInt, fieldPos_eq, fieldLen_eq]
  · refine laneRule_of_vectorWord bfi exec_vbfiB32 exec_vbfiB32Vs fun d a b => ?_
    rw [bfi_eq_ofNat, fieldPos_eq, fieldLen_eq]
  · exact givesV_of_vectorWord _ (exec_vpopcB32 ..) fun l => rfl
  · exact givesV_of_vectorWord _ (exec_vclzB32 ..) fun l => rfl
  · exact givesV_of_vectorWord _ (exec_vbrevB32 ..) fun l => rfl
  · exact givesV_of_vectorWord _ (exec_vaddI32Vi ..) fun l => add_signExtend_eq_ofInt ..
  · exact givesV_of_vectorWord _ (exec_vandB32Vi ..) fun l => rfl
  · exact givesV_of_vectorWord _ (exec_vshlB32Vi ..) fun l => shiftLeft_eq_ofNat ..
  · exact givesV_of_vectorWord _ (exec_vshrN32Vi ..) fun l => ushiftRight_eq_ofNat ..
  · exact givesV_of_vectorWord _ (exec_vbcastB32 ..) fun l => rfl
end

section
/-!
O22: the 64-bit vector integer words (R152, R154).
-/

set_option Elab.async false

namespace Sys2Proof.Machine

/-! ## Doublewords as numbers -/

theorem lo_ofInt (x : Int) : DWord.lo (BitVec.ofInt 64 x) = BitVec.ofInt 32 x := by
  rw [lo_eq_ofNat]
  apply BitVec.eq_of_toNat_eq
  simp only [BitVec.toNat_ofNat, BitVec.toNat_ofInt]
  omega

theorem hi_ofInt (x : Int) : DWord.hi (BitVec.ofInt 64 x) = BitVec.ofInt 32 (x / 2 ^ 32) := by
  rw [hi_eq_ofNat]
  apply BitVec.eq_of_toNat_eq
  simp only [BitVec.toNat_ofNat, BitVec.toNat_ofInt]
  omega

section
variable {w : Nat} (a : BitVec w) (k : Nat)

theorem shiftLeft_eq_ofInt : a <<< k = BitVec.ofInt w ((a.toNat : Int) * 2 ^ k) := by
  rw [shiftLeft_eq_ofNat, ← BitVec.ofInt_natCast]
  push_cast
  rfl

theorem ushiftRight_eq_ofInt : a >>> k = BitVec.ofInt w ((a.toNat : Int) / 2 ^ k) := by
  rw [ushiftRight_eq_ofNat, ← BitVec.ofInt_natCast]
  push_cast
  rfl

theorem sshiftRight_eq_ofInt : a.sshiftRight k = BitVec.ofInt w (a.toInt / 2 ^ k) := by
  rw [← BitVec.ofInt_toInt (x := a.sshiftRight k), BitVec.toInt_sshiftRight, Int.shiftRight_eq_div_pow]
  norm_cast

end

theorem add64_eq_ofInt (a b : DWord) : a + b = BitVec.ofInt 64 ((a.toNat : Int) + b.toNat) := by
  rw [add64_eq_ofNat, ← BitVec.ofInt_natCast, Nat.cast_add]

theorem sub64_eq_ofInt (a b : DWord) : a - b = BitVec.ofInt 64 ((a.toNat : Int) - b.toNat) := by
  apply BitVec.eq_of_toNat_eq
  rw [BitVec.toNat_sub, BitVec.toNat_ofInt]
  omega

namespace State

/-! ## Words of a result pair (R146) -/

theorem givesVPair_of_vectorPair {i : Instr} {s : State} {d : VReg} {f : Nat → Int} (g : State → Nat → DWord)
    (hexec : exec i s = s.issue i fun t => t.vectorPair d (g t)) (hg : ∀ l, g s l = BitVec.ofInt 64 (f l)) : GivesVPair i s d f :=
  fun hi => by simp only [hexec, issue_eq hi, vectorPair, writeVPair, hg, lo_ofInt, hi_ofInt]

end State

end Sys2Proof.Machine

open Sys2Proof Sys2Proof.Machine Sys2Proof.Machine.State

/-- Settles O22: a word writes the two halves of its lane's doubleword, which is the number of R152 modulo 2^64. -/
theorem vectorPairs : Obligations.VectorPairs := by
  unfold Obligations.VectorPairs
  intro s d a b c
  refine ⟨?_, ?_, ?_, ?_, ?_, ?_, ?_, ?_, ?_, ?_⟩
  · exact givesVPair_of_vectorPair _ (exec_vaddI64 ..) fun l => add64_eq_ofInt ..
  · exact givesVPair_of_vectorPair _ (exec_vaddI64Vs ..) fun l => add64_eq_ofInt ..
  · exact givesVPair_of_vectorPair _ (exec_vsubI64 ..) fun l => sub64_eq_ofInt ..
  · exact givesVPair_of_vectorPair _ (exec_vsubI64Vs ..) fun l => sub64_eq_ofInt ..
  · exact givesVPair_of_vectorPair _ (exec_vshlB64 ..) fun l => by rw [count7_eq, shiftLeft_eq_ofInt]
  · exact givesVPair_of_vectorPair _ (exec_vshlB64Vs ..) fun l => by rw [count7_eq, shiftLeft_eq_ofInt]
  · exact givesVPair_of_vectorPair _ (exec_vshrN64 ..) fun l => by rw [count7_eq, ushiftRight_eq_ofInt]
  · exact givesVPair_of_vectorPair _ (exec_vshrN64Vs ..) fun l => by rw [count7_eq, ushiftRight_eq_ofInt]
  · exact givesVPair_of_vectorPair _ (exec_vshrI64 ..) fun l => by rw [count7_eq, sshiftRight_eq_ofInt]
  · exact givesVPair_of_vectorPair _ (exec_vshrI64Vs ..) fun l => by rw [count7_eq, sshiftRight_eq_ofInt]
end

section
/-!
O23: comparisons, predicate logic, transfers and votes (R155, R156, R159).
-/

set_option Elab.async false

namespace Sys2Proof

theorem IntCond.holds_iff (c : IntCond) (a b : Int) : c.holds a b = true ↔ match c with
    | .eq => a = b | .ne => a ≠ b | .lt => a < b | .le => a ≤ b | .gt => a > b | .ge => a ≥ b := by
  cases c <;> simp [holds]

namespace Machine

theorem boolWord_zero_or_one (b : Bool) : boolWord b = 0 ∨ boolWord b = 1 := by cases b <;> simp [boolWord]

theorem boolWord_eq_one_iff {b : Bool} : boolWord b = 1 ↔ b = true := by cases b <;> simp [boolWord]

namespace State

/-! ## Words of a predicate result (R148) -/

theorem givesP_of_predWord {i : Instr} {s : State} {d : PReg} {f : Nat → Prop} [DecidablePred f] (g : State → Nat → Bool)
    (hexec : exec i s = s.issue i fun t => t.predWord d (g t)) (hg : ∀ l, g s l = true ↔ f l) : GivesP i s d f := fun hi => by
  have hbits : g s = fun l => decide (f l) := funext fun l => by rw [Bool.eq_iff_iff, decide_eq_true_iff, hg]
  rw [hexec, issue_eq hi, predWord, hbits]

/-! ## Sources of a comparison (R155) -/

theorem intValue_of_pair {s : State} {v w : VReg} {ty : IntType} {x y : Nat → Int} (h : ∀ l, (x l, y l) = match ty with
      | .i32 => ((s.readV v l).toInt, (s.readV w l).toInt)
      | .n32 => (((s.readV v l).toNat : Int), ((s.readV w l).toNat : Int))
      | .i64 => ((s.readVPair v l).toInt, (s.readVPair w l).toInt)
      | .n64 => (((s.readVPair v l).toNat : Int), ((s.readVPair w l).toNat : Int))) (l : Nat) :
    x l = s.intValue ty v l ∧ y l = s.intValue ty w l := by
  cases ty <;> exact Prod.mk.inj (h l)

/-! ## Votes (R159) -/

section
variable {s : State} {a : PReg}

theorem any_active_iff : (s.active &&& s.readP a != 0) = true ↔
    ∃ l, l < 96 ∧ s.active.getLsbD l = true ∧ (s.readP a).getLsbD l = true := by
  simp only [mask_ne_zero_iff, BitVec.getLsbD_and, Bool.and_eq_true]

theorem all_active_iff : (s.active &&& ~~~ s.readP a == 0) = true ↔
    ∀ l, l < 96 → s.active.getLsbD l = true → (s.readP a).getLsbD l = true := by
  rw [mask_eq_zero_iff]
  refine forall₂_congr fun l hl => ?_
  simp [hl]

/-- Bit `i` of word `k` of a ballot is that of lane 32 k + i. -/
theorem ballot_bit_iff {k i : Nat} (hi : i < 32) : ((s.active &&& s.readP a).extractLsb' (32 * k) 32).getLsbD i = true ↔
    s.active.getLsbD (32 * k + i) = true ∧ (s.readP a).getLsbD (32 * k + i) = true := by
  simp [hi]

end

end State

end Machine

end Sys2Proof

open Sys2Proof Sys2Proof.Machine Sys2Proof.Machine.State

/-- Settles O23: a predicate word writes the truth of its condition in each active lane; a vote is a condition on the active lanes. -/
theorem predicateWords : Obligations.PredicateWords := by
  unfold Obligations.PredicateWords
  intro s d a b v w r cc
  refine ⟨fun ty x y hxy hi => ⟨fun l => cc.holds (s.intValue ty v l) (s.intValue ty w l), fun l => ?_, ?_⟩, ?_, ?_, ?_, ?_, ?_, ?_, ?_,
    ⟨_, ?_, boolWord_zero_or_one _, boolWord_eq_one_iff.trans any_active_iff⟩,
    ⟨_, ?_, boolWord_zero_or_one _, boolWord_eq_one_iff.trans all_active_iff⟩,
    fun k => (s.active &&& s.readP a).extractLsb' (32 * k) 32, fun k i _ hi => ballot_bit_iff hi, fun hi => ?_⟩
  · obtain ⟨hx, hy⟩ := intValue_of_pair hxy l
    rw [hx, hy]
    exact cc.holds_iff ..
  · rw [exec_vcmp, execVcmp, issue_eq hi, predWord]
  · exact givesP_of_predWord _ (exec_pand ..) fun l => by rw [Bool.and_eq_true]
  · exact givesP_of_predWord _ (exec_por ..) fun l => by rw [Bool.or_eq_true]
  · exact givesP_of_predWord _ (exec_pxor ..) fun l => by rw [bne_iff_ne, ne_eq, Bool.eq_iff_iff]
  · exact givesP_of_predWord _ (exec_pnot ..) fun l => by rw [Bool.not_eq_true', Bool.eq_false_iff]
  · exact givesP_of_predWord _ (exec_pmov ..) fun l => Iff.rfl
  · exact givesV_of_vectorWord _ (exec_vfromp ..) fun l => rfl
  · exact givesP_of_predWord _ (exec_vtop ..) fun l => bne_iff_ne
  · exact givesS_of_giveS _ (exec_voteAny ..) rfl
  · exact givesS_of_giveS _ (exec_voteAll ..) rfl
  · rw [exec_ballot, execBallot, issue_eq hi]
end

section
/-!
O24: shuffles, scans and the reduction (R157, R158, R160).
-/

set_option Elab.async false

namespace Sys2Proof.Machine

/-! ## The operations, as numbers (R157) -/

theorem minI_eq_ite (x y : Word) : minI x y = if x.toInt ≤ y.toInt then x else y := by
  rw [minI_eq_ofInt, min_def, apply_ite (BitVec.ofInt 32), BitVec.ofInt_toInt, BitVec.ofInt_toInt]

theorem maxI_eq_ite (x y : Word) : maxI x y = if x.toInt ≤ y.toInt then y else x := by
  rw [maxI_eq_ofInt, max_def, apply_ite (BitVec.ofInt 32), BitVec.ofInt_toInt, BitVec.ofInt_toInt]

theorem minN_eq_ite (x y : Word) : minN x y = if x.toNat ≤ y.toNat then x else y := by
  rw [minN_eq_ofNat, min_def, apply_ite (BitVec.ofNat 32), BitVec.ofNat_toNat, BitVec.ofNat_toNat, BitVec.setWidth_eq, BitVec.setWidth_eq]

theorem maxN_eq_ite (x y : Word) : maxN x y = if x.toNat ≤ y.toNat then y else x := by
  rw [maxN_eq_ofNat, max_def, apply_ite (BitVec.ofNat 32), BitVec.ofNat_toNat, BitVec.ofNat_toNat, BitVec.setWidth_eq, BitVec.setWidth_eq]

theorem laneOp_apply_eq (o : LaneOp) (x y : Word) : o.apply x y = match o with
    | .addI32 => BitVec.ofNat 32 (x.toNat + y.toNat)
    | .minI32 => if x.toInt ≤ y.toInt then x else y
    | .maxI32 => if x.toInt ≤ y.toInt then y else x
    | .minN32 => if x.toNat ≤ y.toNat then x else y
    | .maxN32 => if x.toNat ≤ y.toNat then y else x
    | .andB32 => x &&& y | .orB32 => x ||| y | .xorB32 => x ^^^ y := by
  cases o with
  | addI32 => exact add_eq_ofNat x y
  | minI32 => exact minI_eq_ite x y
  | maxI32 => exact maxI_eq_ite x y
  | minN32 => exact minN_eq_ite x y
  | maxN32 => exact maxN_eq_ite x y
  | andB32 | orB32 | xorB32 => rfl

/-! ## Shuffles (R158) -/

theorem sub_base (w : SubWidth) (l : Nat) : l - w.base l = l % w.lanes := (Nat.mod_eq_sub_mul_div ..).symm

theorem shuffleFrom_eq (k : Shuffle) (w : SubWidth) (l x : Nat) : shuffleFrom k w l x =
    if 0 ≤ k.select (l % w.lanes) x ∧ k.select (l % w.lanes) x < w.lanes then some (w.base l + (k.select (l % w.lanes) x).toNat)
    else none := by
  simp only [shuffleFrom, sub_base, Bool.and_eq_true, decide_eq_true_eq]

namespace State

/-- A shuffle whose selected index in each lane's sub-group is `j`: the value and the predicate that R158 gives. -/
theorem shuffle_eq {s : State} (k : Shuffle) (d a : VReg) (p : PReg) (w : SubWidth) {j : Nat → Int}
    (hj : ∀ l, k.select (l % w.lanes) (s.readV (a + 1) l).toNat = j l) :
    s.shuffle k d a p w = ((s.writeV d fun l =>
      if 0 ≤ j l ∧ j l < w.lanes then s.readV a (w.base l + (j l).toNat) else s.readV a l).writeP p fun l =>
        decide (0 ≤ j l ∧ j l < w.lanes)).done := by
  have hvalue (l : Nat) : s.readV a ((shuffleFrom k w l (s.readV (a + 1) l).toNat).getD l) =
      if 0 ≤ j l ∧ j l < w.lanes then s.readV a (w.base l + (j l).toNat) else s.readV a l := by
    rw [shuffleFrom_eq, hj]
    split <;> rfl
  have hinside (l : Nat) : (shuffleFrom k w l (s.readV (a + 1) l).toNat).isSome = decide (0 ≤ j l ∧ j l < w.lanes) := by
    rw [shuffleFrom_eq, hj]
    split <;> simp_all
  simp only [shuffle, hvalue, hinside]

/-! ## Scans and the reduction (R160) -/

theorem combine_eq (s : State) (o : LaneOp) (a : VReg) (low high : Nat) : s.combine o a low high =
    ((List.range 96).filter fun l => s.active.getLsbD l && decide (low ≤ l ∧ l < high)).foldl
      (fun acc l => o.apply acc (s.readV a l)) o.identity := by
  simp only [combine, LaneMask.list, Sys2Proof.lanes, List.filter_filter, Bool.decide_and, Bool.and_comm]

end State

end Sys2Proof.Machine

open Sys2Proof Sys2Proof.Machine Sys2Proof.Machine.State

/-- Settles O24: a shuffle reads the position it selects within its sub-group (`shuffle_eq`); a scan folds the active lanes of its
range in ascending order (`combine_eq`). -/
theorem crossLane : Obligations.CrossLane := by
  unfold Obligations.CrossLane
  intro s d a p w op r
  have happly := funext₂ (laneOp_apply_eq op)
  refine ⟨fun hi => ?_, fun hi => ?_, fun hi => ?_, fun hi => ?_, ?_, ?_, ?_⟩
  · rw [exec_shflIdx, execShflIdx, issue_eq hi]
    exact congrArg _ (shuffle_eq .idx d a p w fun _ => rfl)
  · rw [exec_shflUp, execShflUp, issue_eq hi]
    exact congrArg _ (shuffle_eq .up d a p w fun _ => rfl)
  · rw [exec_shflDown, execShflDown, issue_eq hi]
    exact congrArg _ (shuffle_eq .down d a p w fun _ => rfl)
  · rw [exec_shflXor, execShflXor, issue_eq hi]
    exact congrArg _ (shuffle_eq .xor d a p w fun _ => rfl)
  · refine givesV_of_vectorWord _ (exec_vscanIncl ..) fun l => ?_
    rw [combine_eq, happly]
    rfl
  · refine givesV_of_vectorWord _ (exec_vscanExcl ..) fun l => ?_
    rw [combine_eq, happly]
    rfl
  · refine givesS_of_giveS (fun t => t.combine op a 0 96) (exec_vred ..) ?_
    rw [combine_eq, happly]
    rfl
end

section
/-!
O30, O31: the fields of an encoding and the number that it stands for (R185, R186, R188), and the order of values as
rational numbers.
-/

set_option Elab.async false

namespace Sys2Proof.Machine

/-! ## Values as rational numbers -/

namespace Dy

theorem signedUnits_mul (d : Dy) {e : ℤ} (he : e ≤ d.exp) : (d.signedUnits e : ℝ) * 2 ^ e = d.val := by
  have hscale : (d.man : ℝ) * 2 ^ (d.exp - e).toNat * 2 ^ e = d.man * 2 ^ d.exp := by
    rw [mul_assoc, ← zpow_natCast, ← zpow_add₀ two_ne_zero, Int.toNat_of_nonneg (sub_nonneg.mpr he), sub_add_cancel]
  cases hn : d.neg <;> simp [signedUnits, units, val, hn, hscale]

/-- Numbers without a rest are the same where their values are. -/
theorem same_iff {x y : Dy} (hx : x.sticky = false) (hy : y.sticky = false) : x.same y = true ↔ (x.val : ℝ) = y.val := by
  rw [← signedUnits_mul x (min_le_left x.exp y.exp), ← signedUnits_mul y (min_le_right x.exp y.exp), mul_left_inj' (by positivity),
    Int.cast_inj]
  simp [same, hx, hy]

theorem magLt_iff_abs_val {x y : Dy} (hy : y.sticky = false) : x.magLt y = true ↔ |x.val| < |y.val| := by
  rw [magLt_iff hy]
  exact_mod_cast Iff.rfl

theorem val_eq_zero_iff {d : Dy} : d.val = 0 ↔ d.man = 0 := by
  have hscale : (2 : ℚ) ^ d.exp ≠ 0 := by positivity
  cases hn : d.neg <;> simp [val, hn, hscale]

theorem val_of_nonneg {d : Dy} (h : d.neg = false) : d.val = d.man * 2 ^ d.exp := by simp [val, h]

theorem val_abs (d : Dy) : d.abs.val = |d.val| := by
  have hnonneg : (0 : ℚ) ≤ d.man * 2 ^ d.exp := by positivity
  rw [val_of_nonneg rfl]
  cases hn : d.neg <;> simp [val, hn, abs, abs_of_nonneg hnonneg]

theorem val_mul (x y : Dy) : (x.mul y).val = x.val * y.val := by
  have hexp : (2 : ℚ) ^ (x.exp + y.exp) = 2 ^ x.exp * 2 ^ y.exp := zpow_add₀ two_ne_zero ..
  cases hx : x.neg <;> cases hy : y.neg <;> simp [val, mul, hx, hy, hexp] <;> ring

theorem val_ofInt (n : ℤ) : (ofInt n).val = n := by
  rcases lt_or_ge n 0 with h | h
  · simp [val, ofInt, h, Nat.cast_natAbs, abs_of_neg h]
  · simp [val, ofInt, h.not_gt, Nat.cast_natAbs, abs_of_nonneg h]

/-- A number without a rest stands for its own value. -/
theorem standsFor_val {d : Dy} (h : d.sticky = false) : d.StandsFor d.val := by simp [StandsFor, h]

end Dy

namespace Bin

/-! ## The fields of an encoding (R185, R188) -/

/-- The exponent field E. -/
def exponent (f : Bin) (x : Nat) : Nat := x / 2 ^ f.frac % 2 ^ f.ebits

/-- The mantissa field M. -/
def fraction (f : Bin) (x : Nat) : Nat := x % 2 ^ f.frac

/-- The encodings of R185 and R188 that are no NaN and no infinity. -/
def IsNumber (f : Bin) (x : Nat) : Prop :=
  f.exponent x = f.topField → f.special = .none ∨ f.special = .e4m3 ∧ f.fraction x ≠ 7

/-- The number of such an encoding. -/
def number (f : Bin) (x : Nat) : Dy :=
  if f.exponent x = 0 then { neg := f.sign x, man := f.fraction x, exp := f.emin - f.frac, sticky := false }
  else { neg := f.sign x, man := 2 ^ f.frac + f.fraction x, exp := f.exponent x - f.bias - f.frac, sticky := false }

section
variable {f : Bin} {x : Nat}

theorem decode_of_isNumber (h : f.IsNumber x) : f.decode x = .num (f.number x) := by
  unfold IsNumber exponent fraction at h
  unfold decode number exponent fraction
  by_cases he : x / 2 ^ f.frac % 2 ^ f.ebits = f.topField
  · rcases h he with hs | ⟨hs, hm⟩
    · simp [hs, apply_ite FVal.num]
    · simp [hs, hm, apply_ite FVal.num]
  · simp [he, apply_ite FVal.num]

theorem decode_ieee_top (hs : f.special = .ieee) (he : f.exponent x = f.topField) :
    f.decode x = if f.fraction x = 0 then .inf (f.sign x) else .nan (!(f.fraction x).testBit (f.frac - 1)) := by
  unfold exponent at he
  simp [decode, fraction, he, hs]

theorem decode_scale_top (hs : f.special = .scale) (he : f.exponent x = f.topField) : f.decode x = .nan false := by
  unfold exponent at he
  simp [decode, he, hs]

theorem decode_e4m3_nan (hs : f.special = .e4m3) (he : f.exponent x = f.topField) (hm : f.fraction x = 7) :
    f.decode x = .nan false := by
  unfold exponent at he
  unfold fraction at hm
  simp [decode, he, hs, hm]

/-- The encodings that stand for numbers, and the number each stands for. -/
theorem decode_eq_num_iff {d : Dy} : f.decode x = .num d ↔ f.IsNumber x ∧ d = f.number x := by
  constructor
  · intro h
    have hnum : f.IsNumber x := fun he => by
      cases hs : f.special with
      | none => exact .inl rfl
      | e4m3 => exact .inr ⟨rfl, fun hm => by rw [decode_e4m3_nan hs he hm] at h; cases h⟩
      | scale => rw [decode_scale_top hs he] at h; cases h
      | ieee => rw [decode_ieee_top hs he] at h; split at h <;> cases h
    rw [decode_of_isNumber hnum] at h
    exact ⟨hnum, (FVal.num.inj h).symm⟩
  · rintro ⟨hnum, rfl⟩
    exact decode_of_isNumber hnum

@[simp] theorem number_sticky : (f.number x).sticky = false := by unfold number; split <;> rfl
@[simp] theorem number_neg : (f.number x).neg = f.sign x := by unfold number; split <;> rfl

theorem fraction_lt : f.fraction x < 2 ^ f.frac := Nat.mod_lt _ (Nat.two_pow_pos _)

/-- The magnitude of a number (R185). -/
theorem abs_number_val : |(f.number x).val| = if f.exponent x = 0 then 2 ^ (1 - f.bias) * ((f.fraction x : ℚ) / 2 ^ f.frac)
    else 2 ^ ((f.exponent x : ℤ) - f.bias) * (1 + (f.fraction x : ℚ) / 2 ^ f.frac) := by
  rw [← Dy.val_abs, Dy.val_of_nonneg rfl]
  unfold number
  split
  · simp only [Dy.abs, emin, zpow_sub₀ (two_ne_zero (α := ℚ)), zpow_natCast]
    ring
  · simp only [Dy.abs, zpow_sub₀ (two_ne_zero (α := ℚ)), zpow_natCast]
    push_cast
    field_simp

end
end Bin

end Sys2Proof.Machine
end

section
/-!
O31, first part: packing and unpacking (R201), and what a floating-point word of 32-bit results leaves (R167, R204).
-/

set_option Elab.async false

namespace Sys2Proof.Machine

/-! ## Fields of a word (R201) -/

theorem packed_eq_ofNat (n w : Nat) (f : Nat → Word) :
    packed n w f = BitVec.ofNat 32 ((List.range n).map fun k => (f k).toNat % 2 ^ w * 2 ^ (w * k)).sum := by
  rw [packed, List.sum_eq_foldl]

theorem unpacked_eq_ofInt {w : Nat} (hw : w ≠ 0) (sx : Bool) (x : Word) (k : Nat) : unpacked w sx x k =
    BitVec.ofInt 32 (if sx ∧ 2 ^ (w - 1) ≤ x.toNat / 2 ^ (w * k) % 2 ^ w then ((x.toNat / 2 ^ (w * k) % 2 ^ w : Nat) : Int) - 2 ^ w
      else (x.toNat / 2 ^ (w * k) % 2 ^ w : Nat)) := by
  have hlt : x.toNat / 2 ^ (w * k) % 2 ^ w < 2 ^ w := Nat.mod_lt _ (Nat.two_pow_pos w)
  unfold unpacked
  cases sx with
  | false => exact (BitVec.ofInt_natCast ..).symm
  | true =>
    rw [if_pos rfl, BitVec.signExtend, BitVec.toInt_eq_toNat_cond, BitVec.toNat_ofNat, Nat.mod_eq_of_lt hlt, signed_of_bits hlt]
    simp [hw]

namespace State

theorem givesV_of_packWord {i : Instr} {s : State} {n w : Nat} {d a : VReg}
    (hexec : exec i s = s.issue i fun t => t.packWord n w d a) : GivesV i s d fun l =>
      BitVec.ofNat 32 ((List.range n).map fun k => (s.readV (a + BitVec.ofNat 7 k) l).toNat % 2 ^ w * 2 ^ (w * k)).sum := fun hi => by
  rw [hexec, issue_eq hi, packWord]
  simp only [packed_eq_ofNat, regAfter]

/-! ## Lanes after a write (R146) -/

theorem writeLanes_lane (s : State) (m : LaneMask) (r : VReg) (f : Nat → Word) (q : Nat) {l : Nat} (hl : l < 96) :
    (vectorOf (s.writeLanes m r f).group q).lane l =
      if q = r.toNat ∧ m.getLsbD l = true then f l else (vectorOf s.group q).lane l := by
  rw [writeLanes_group]
  by_cases hq : q = r.toNat
  · subst hq
    rw [vectorOf_set_self, LaneWords.lane_ofFn _ hl]
    simp
  · rw [vectorOf_set_of_ne _ _ hq]
    simp [hq]

/-- Registers that are the same in two groups' tables hold the same lanes, in one and the same group of a block. -/
theorem vectorOf_congr {g h : Group} (hv : g.v = h.v) (hblock : g.block = h.block) (hmember : g.member = h.member) (q : Nat) :
    vectorOf g q = vectorOf h q := by
  unfold vectorOf
  rw [hv, hblock, hmember]

theorem done_lane {s : State} (h : s.snap = none) (q l : Nat) : (vectorOf s.done.group q).lane l = (vectorOf s.group q).lane l := by
  rw [done_group_of_none h]
  exact congrArg (·.lane l) (vectorOf_congr rfl rfl rfl q)

/-! ## Unpacking (R201) -/

/-- `n` registers from `d` on written one after another, register `k` after `d` with `f k`. -/
def writeFrom (s : State) (m : LaneMask) (d : VReg) (n : Nat) (f : Nat → Nat → Word) : State :=
  (List.range n).foldl (fun t k => t.writeLanes m (regAfter d k) (f k)) s

theorem unpackWord_eq (s : State) (n w : Nat) (sx : Bool) (d a : VReg) :
    s.unpackWord n w sx d a = (s.writeFrom s.active d n fun k l => unpacked w sx (s.readV a l) k).done := rfl

section
variable (s : State) (m : LaneMask) (d : VReg) (n : Nat) (f : Nat → Nat → Word)

theorem writeFrom_succ : s.writeFrom m d (n + 1) f = (s.writeFrom m d n f).writeLanes m (regAfter d n) (f n) := by
  simp [writeFrom, List.range_succ]

theorem writeFrom_snap : (s.writeFrom m d n f).snap = s.snap := foldl_proj State.snap (fun _ _ => by simp) ..

theorem writeFrom_preds : (s.writeFrom m d n f).group.p = s.group.p :=
  foldl_proj (fun t : State => t.group.p) (fun _ _ => by rw [writeLanes_group]) ..

theorem writeFrom_split : (s.writeFrom m d n f).split = s.split :=
  foldl_proj State.split (fun t k => by rw [split, writeLanes_group, writeLanes_cur]; rfl) ..

variable {d n}

/-- Each of the registers has its value in the lanes of the mask. -/
theorem writeFrom_lane (hd : d.toNat + n ≤ 128) {k l : Nat} (hk : k < n) (hl : l < 96) (hm : m.getLsbD l = true) :
    (vectorOf (s.writeFrom m d n f).group (d.toNat + k)).lane l = f k l := by
  induction n with
  | zero => exact absurd hk (Nat.not_lt_zero k)
  | succ n ih =>
    rw [writeFrom_succ, writeLanes_lane _ _ _ _ _ hl, regAfter_toNat (by omega)]
    rcases Nat.lt_succ_iff_lt_or_eq.mp hk with hlt | rfl
    · rw [if_neg (by omega), ih (by omega) hlt]
    · rw [if_pos ⟨rfl, hm⟩]

/-- A frame of the registers written. -/
theorem writeFrom_frame (hd : d.toNat + n ≤ 128) :
    Frame { dests := regsV d n, lanes := m, raises := False, counts := False } s (s.writeFrom m d n f) :=
  .foldl fun t k hk => by
    have hk' := List.mem_range.mp hk
    exact .writeLanes _ (by rw [regAfter_toNat (by omega)]; exact mem_regsV hk') fun _ h => h

end

/-- What an unpack word leaves: `n` registers from `d` on written in the active lanes, the split at the word that follows, and
everything else as it was (R201). -/
def LeavesRegisters (s t : State) (d : VReg) (n : Nat) (f : Nat → Nat → Word) : Prop :=
  (∀ k l, k < n → l < 96 → s.active.getLsbD l = true → (vectorOf t.group (d.toNat + k)).lane l = f k l) ∧
  (∀ r l, l < 96 → s.active.getLsbD l = false → (vectorOf t.group r).lane l = (vectorOf s.group r).lane l) ∧
  (∀ r, r < d.toNat ∨ d.toNat + n ≤ r → t.group.v.at? r = s.group.v.at? r) ∧ t.last = .done ∧
  t.split.pc = (if s.split.word < 2 then s.split.pc else s.split.pc + 1) ∧
  t.split.word = (if s.split.word < 2 then s.split.word + 1 else 0) ∧ t.group.p = s.group.p ∧ s.OnlyGroup t ∧ s.SameMemory t

/-- Where a word has taken effect outside a chain, the split stands at the word that follows (R63, R64). -/
theorem done_place {s : State} (h : s.snap = none) : s.done.split.pc = (if s.split.word < 2 then s.split.pc else s.split.pc + 1) ∧
    s.done.split.word = (if s.split.word < 2 then s.split.word + 1 else 0) := by
  rw [done_split_of_none h]
  exact ⟨nextWord_pc .., nextWord_word ..⟩

theorem leavesRegisters_writeFrom {s : State} (h : s.snap = none) {d : VReg} {n : Nat} (hd : d.toNat + n ≤ 128)
    (f : Nat → Nat → Word) : s.LeavesRegisters (s.writeFrom s.active d n f).done d n f := by
  have hsnap : (s.writeFrom s.active d n f).snap = none := (writeFrom_snap ..).trans h
  have hframe := (writeFrom_frame s s.active f hd).done
  obtain ⟨hpc, hword⟩ := done_place hsnap
  rw [writeFrom_split] at hpc hword
  refine ⟨fun k l hk hl ha => ?_, fun r l hl ha => hframe.group.lanes r l hl ha, fun r hr => hframe.group.vectors r ?_, done_last _,
    hpc, hword, ?_, hframe.onlyGroup id ?_, hframe.sameMemory⟩
  · rw [done_lane hsnap, writeFrom_lane s s.active f hd hk hl ha]
  · simp only [regsV, List.mem_map, List.mem_range, Reg.v.injEq, not_exists, not_and]
    omega
  · rw [done_group_of_none hsnap, writeFrom_preds]
  · rw [done_snap, writeFrom_snap]

theorem exec_unpack_leaves {i : Instr} {s : State} {n w : Nat} {sx : Bool} {d a : VReg} (h : s.snap = none) (hw : w ≠ 0)
    (hexec : exec i s = s.issue i fun t => t.unpackWord n w sx d a) (hi : s.Issues i.facts) (hd : d.toNat + n ≤ 128) :
    ∃ t, exec i s = .next t ∧ s.LeavesRegisters t d n fun k l =>
      BitVec.ofInt 32 (if sx ∧ 2 ^ (w - 1) ≤ (s.readV a l).toNat / 2 ^ (w * k) % 2 ^ w then
          (((s.readV a l).toNat / 2 ^ (w * k) % 2 ^ w : Nat) : Int) - 2 ^ w
        else ((s.readV a l).toNat / 2 ^ (w * k) % 2 ^ w : Nat)) := by
  refine ⟨_, hexec.trans (issue_eq hi _), ?_⟩
  rw [unpackWord_eq]
  simp only [unpacked_eq_ofInt hw]
  exact leavesRegisters_writeFrom h hd _

/-! ## Floating-point words of 32-bit results (R167) -/

/-- What such a word leaves outside a chain. -/
theorem leavesFloat_floatWord {s : State} (h : s.snap = none) (d : VReg) (f : Nat → Nat × Flags) :
    s.LeavesFloat (s.floatWord d f) d false f := by
  have hgroup := floatWord_group h d f
  have hcur : (s.floatWord d f).cur = s.cur := by simp [floatWord]
  have hsplit : (s.floatWord d f).split = issued s.now (nextWord s.split s.split.word) := by
    rw [split, hgroup, hcur]
    exact Table.get_set_self ..
  obtain ⟨hmask, hrecord, -⟩ := nextWord_rest s.split s.split.word
  refine ⟨fun l hl => ?_, fun hpair => absurd hpair Bool.false_ne_true, fun k hk => ?_, fun r hr _ => ?_, ?_, fun n hn => ?_, ?_, ?_,
    fun _ => ⟨?_, ?_, floatWord_onlyGroup h d f⟩, ?_⟩
  · rw [hgroup]
    exact (congrArg (·.lane l) (vectorOf_set_self ..)).trans (LaneWords.lane_ofFn _ hl)
  · rw [hgroup, BitVec.getLsbD_or, Bool.or_eq_true, orFlags_getLsbD]
  · rw [hgroup, Table.at?_set_of_ne _ _ hr]
  · rw [hgroup]
  · rw [hgroup, Table.at?_set_of_ne _ _ hn]
  · rw [hsplit]
    exact hmask
  · rw [hsplit]
    exact hrecord
  · rw [hsplit]
    exact nextWord_pc ..
  · rw [hsplit]
    exact nextWord_word ..
  · exact .of_eq (by simp [floatWord]) (by simp [floatWord]) (by simp [floatWord])

theorem givesFloat_of_floatWord {i : Instr} {s : State} (h : s.snap = none) {d : VReg} {f : State → Nat → Nat × Flags}
    (hexec : exec i s = s.issue i fun t => t.floatWord d (f t)) : GivesFloat i s d (f s) := fun hi =>
  ⟨_, hexec.trans (issue_eq hi _), done_last _, leavesFloat_floatWord h d (f s)⟩

end State
end Sys2Proof.Machine
end

section
/-!
O31, second part: the block scale of a beat (R203).
-/

set_option Elab.async false

namespace Sys2Proof.Machine

/-! ## Magnitudes, greatest and least -/

/-- The greater in magnitude of a number found so far and a value; a value that is no number is passed over. -/
def larger (m : Dy) : FVal → Dy
  | .num d => if m.magLt d then d.abs else m
  | _ => m

/-- A value that is no number. -/
def FVal.unbounded : FVal → Bool
  | .num _ => false
  | _ => true

/-- A value that is a number without a rest. -/
def FVal.Exact (v : FVal) : Prop := ∃ d, v = .num d ∧ d.sticky = false

theorem FVal.unbounded_iff {v : FVal} : v.unbounded = true ↔ ∀ d, v ≠ .num d := by
  cases v <;> simp [unbounded]

/-- Whether scale `n` times `top` is at least `amax`. -/
def reaches (top amax : Dy) (n : Nat) : Bool :=
  match Bin.sc12.decode n with
  | .num d => !(d.mul top).magLt amax
  | _ => false

theorem leastScale_eq (top amax : Dy) : leastScale top amax = ((List.range 0xFF0).find? (reaches top amax)).getD 0xFEF := rfl

/-- The values of a beat's active lanes (R145). -/
def State.beatValues (s : State) (a : VReg) (k : Nat) : List FVal :=
  (beatLanes s.active k).map fun l => Bin.f32.decode (s.readV a l).toNat

theorem State.beatScale_eq (s : State) (a : VReg) (f : Fmt) (k : Nat) : s.beatScale a f k =
    if (s.beatValues a k).any FVal.unbounded then 0xFF0
    else if ((s.beatValues a k).foldl larger (Dy.ofNat 0)).man = 0 then 0x7F0
    else leastScale (scaleTop f) ((s.beatValues a k).foldl larger (Dy.ofNat 0)) := rfl

/-- Folding `larger` finds a number of the greatest magnitude. -/
theorem foldl_larger {vals : List FVal} (h : ∀ v ∈ vals, v.Exact) (m : Dy) (hm : m.sticky = false) :
    (vals.foldl larger m).sticky = false ∧ |m.val| ≤ |(vals.foldl larger m).val| ∧
    (∀ d, .num d ∈ vals → |d.val| ≤ |(vals.foldl larger m).val|) ∧
    (vals.foldl larger m = m ∨ ∃ d, .num d ∈ vals ∧ vals.foldl larger m = d.abs) := by
  induction vals generalizing m with
  | nil => simp [hm]
  | cons v vals ih =>
    obtain ⟨d, rfl, hd⟩ := h v List.mem_cons_self
    have hrest : ∀ v ∈ vals, v.Exact := fun v hv => h v (List.mem_cons_of_mem _ hv)
    by_cases hlt : m.magLt d = true
    · have hstep : larger m (.num d) = d.abs := if_pos hlt
      obtain ⟨hsticky, hle, hmax, hfrom⟩ := ih hrest d.abs hd
      rw [List.foldl_cons, hstep]
      rw [Dy.magLt_iff_abs_val hd] at hlt
      rw [Dy.val_abs, abs_abs] at hle
      refine ⟨hsticky, hlt.le.trans hle, fun e he => ?_, .inr ?_⟩
      · rcases List.mem_cons.mp he with he | he
        · rw [FVal.num.inj he]
          exact hle
        · exact hmax e he
      · rcases hfrom with hfrom | ⟨e, he, hfrom⟩
        · exact ⟨d, List.mem_cons_self, hfrom⟩
        · exact ⟨e, List.mem_cons_of_mem _ he, hfrom⟩
    · have hstep : larger m (.num d) = m := if_neg hlt
      obtain ⟨hsticky, hle, hmax, hfrom⟩ := ih hrest m hm
      rw [List.foldl_cons, hstep]
      rw [Dy.magLt_iff_abs_val hd, not_lt] at hlt
      refine ⟨hsticky, hle, fun e he => ?_, hfrom.imp_right fun ⟨e, he, hfrom⟩ => ⟨e, List.mem_cons_of_mem _ he, hfrom⟩⟩
      rcases List.mem_cons.mp he with he | he
      · rw [FVal.num.inj he]
        exact hlt.trans hle
      · exact hmax e he

/-- The greatest magnitude is 0, or it is that of one of the values. -/
theorem foldl_larger_zero {vals : List FVal} (h : ∀ v ∈ vals, v.Exact) :
    (vals.foldl larger (Dy.ofNat 0)).sticky = false ∧
    (∀ d, .num d ∈ vals → |d.val| ≤ |(vals.foldl larger (Dy.ofNat 0)).val|) ∧
    ((vals.foldl larger (Dy.ofNat 0)).man = 0 ∨ ∃ d, .num d ∈ vals ∧ |(vals.foldl larger (Dy.ofNat 0)).val| = |d.val|) := by
  obtain ⟨hsticky, -, hmax, hfrom⟩ := foldl_larger h (Dy.ofNat 0) rfl
  refine ⟨hsticky, hmax, hfrom.imp (fun e => by rw [e]; rfl) fun ⟨d, hd, e⟩ => ⟨d, hd, ?_⟩⟩
  rw [e, Dy.val_abs, abs_abs]

/-! ## The least scale (R188, R203) -/

theorem f32_isNumber {x : Nat} (h : Bin.f32.IsNumber x) : Bin.f32.exponent x < 255 := by
  have hlt : Bin.f32.exponent x < 2 ^ 8 := Nat.mod_lt _ (Nat.two_pow_pos _)
  have hne : Bin.f32.exponent x ≠ 255 := fun he => (h he).elim (by decide) fun h => absurd h.1 (by decide)
  omega

/-- No number of f32 reaches 2^128. -/
theorem abs_val_lt_of_f32 {x : Nat} {d : Dy} (h : Bin.f32.decode x = .num d) : |d.val| < 2 ^ 128 := by
  obtain ⟨hnum, rfl⟩ := Bin.decode_eq_num_iff.mp h
  have hexp := f32_isNumber hnum
  have hfrac : ((Bin.f32.fraction x : ℕ) : ℚ) / 2 ^ 23 < 1 := by
    rw [div_lt_one (by positivity)]
    exact_mod_cast Bin.fraction_lt (f := .f32)
  rw [Bin.abs_number_val]
  split
  · calc (2 : ℚ) ^ (1 - Bin.f32.bias) * ((Bin.f32.fraction x : ℚ) / 2 ^ Bin.f32.frac) ≤ 1 * 1 := by
          gcongr
          · exact zpow_le_one_of_nonpos₀ one_le_two (by decide)
          · exact hfrac.le
      _ < 2 ^ 128 := by norm_num
  · calc (2 : ℚ) ^ ((Bin.f32.exponent x : ℤ) - Bin.f32.bias) * (1 + (Bin.f32.fraction x : ℚ) / 2 ^ Bin.f32.frac)
        < 2 ^ (127 : ℤ) * 2 := by
          refine mul_lt_mul' (zpow_le_zpow_right₀ one_le_two ?_) ?_ (by positivity) (by positivity)
          · show (Bin.f32.exponent x : ℤ) - 127 ≤ 127
            omega
          · exact (add_lt_add_right hfrac 1).trans_eq (by norm_num)
      _ = 2 ^ 128 := by norm_num

theorem two_le_scaleTop (f : Fmt) : 2 ≤ (scaleTop f).val := by
  cases f with
  | f64 =>
    have htop : scaleTop .f64 = { neg := false, man := 9007199254740991, exp := 971, sticky := false } := by decide
    have hpow : (1 : ℚ) ≤ 2 ^ (971 : ℤ) := one_le_zpow₀ one_le_two (by decide)
    rw [htop, Dy.val_of_nonneg rfl]
    calc (2 : ℚ) ≤ (9007199254740991 : ℕ) * 1 := by norm_num
      _ ≤ _ := by gcongr
  | _ => norm_num [scaleTop, Fmt.bin, Dy.val, Dy.ofNat, Bin.largest, Bin.topField, Bin.e4m3, Bin.e5m2, Bin.e3m2, Bin.e2m3, Bin.e2m1,
      Bin.bf16, Bin.f16, Bin.f32, Bin.sc12]

/-- The largest finite scale, 2^127 × 1.9375. -/
theorem decode_largestScale : Bin.sc12.decode 0xFEF = .num { neg := false, man := 31, exp := 123, sticky := false } := by decide

theorem sc12_val_nonneg {n : Nat} {e : Dy} (h : Bin.sc12.decode n = .num e) : 0 ≤ e.val := by
  obtain ⟨-, rfl⟩ := Bin.decode_eq_num_iff.mp h
  rw [Dy.val_of_nonneg (Bin.number_neg.trans rfl)]
  positivity

theorem reaches_iff {top amax : Dy} (htop : 0 ≤ top.val) (hamax : amax.sticky = false) (n : Nat) :
    reaches top amax n = true ↔ ∃ e, Bin.sc12.decode n = .num e ∧ |amax.val| ≤ e.val * top.val := by
  unfold reaches
  cases hn : Bin.sc12.decode n with
  | nan s => simp
  | inf s => simp
  | num d =>
    have habs : |(d.mul top).val| = d.val * top.val := by
      rw [Dy.val_mul, abs_of_nonneg (mul_nonneg (sc12_val_nonneg hn) htop)]
    have hlt := Dy.magLt_iff_abs_val (x := d.mul top) hamax
    rw [habs] at hlt
    simp [← not_lt, ← hlt]

/-- The first scale that reaches a magnitude of f32: there is one, and no lesser scale reaches it. -/
theorem leastScale_spec {top amax : Dy} (htop : 2 ≤ top.val) (hamax : amax.sticky = false) (hlt : |amax.val| < 2 ^ 128) :
    (∃ e, Bin.sc12.decode (leastScale top amax) = .num e ∧ |amax.val| ≤ e.val * top.val) ∧
    ∀ n e, n < leastScale top amax → Bin.sc12.decode n = .num e → e.val * top.val < |amax.val| := by
  have htop' : 0 ≤ top.val := zero_le_two.trans htop
  rw [leastScale_eq]
  cases hfind : (List.range 0xFF0).find? (reaches top amax) with
  | none =>
    have hlast : ¬ reaches top amax 0xFEF = true := by simpa using List.find?_range_eq_none.mp hfind 0xFEF (by decide)
    refine absurd ((reaches_iff htop' hamax _).mpr ⟨_, decode_largestScale, hlt.le.trans ?_⟩) hlast
    rw [Dy.val_of_nonneg rfl]
    norm_num
    linarith
  | some i =>
    obtain ⟨hreach, -, hbefore⟩ := List.find?_range_eq_some.mp hfind
    refine ⟨(reaches_iff htop' hamax i).mp hreach, fun n e hn he => not_le.mp fun hle => ?_⟩
    have hnot := hbefore n hn
    rw [(reaches_iff htop' hamax n).mpr ⟨e, he, hle⟩] at hnot
    cases hnot

namespace State

/-! ## The scale of a beat (R203) -/

section
variable {s : State} {a : VReg} {f : Fmt} {k : Nat}

theorem mem_beatLanes {m : LaneMask} {l : Nat} : l ∈ beatLanes m k ↔
    l ∈ (List.range 96).filter fun l => m.getLsbD l && decide (l / 32 = k) := by
  simp [beatLanes, LaneMask.mem_list, and_assoc]

theorem mem_beatValues {v : FVal} : v ∈ s.beatValues a k ↔
    ∃ l ∈ beatLanes s.active k, Bin.f32.decode (s.readV a l).toNat = v := List.mem_map

theorem any_unbounded_iff : (s.beatValues a k).any FVal.unbounded = true ↔
    ∃ l ∈ beatLanes s.active k, ∀ x, Bin.f32.decode (s.readV a l).toNat ≠ .num x := by
  rw [beatValues, List.any_map, List.any_eq_true]
  simp only [Function.comp_apply, FVal.unbounded_iff]

/-- The values of a beat without a NaN or an infinity. -/
theorem exact_of_bounded (h : ∀ l ∈ beatLanes s.active k, ∃ x, Bin.f32.decode (s.readV a l).toNat = .num x) :
    ∀ v ∈ s.beatValues a k, v.Exact := by
  intro v hv
  obtain ⟨l, hl, rfl⟩ := mem_beatValues.mp hv
  obtain ⟨x, hx⟩ := h l hl
  obtain ⟨-, rfl⟩ := Bin.decode_eq_num_iff.mp hx
  exact ⟨_, hx, Bin.number_sticky⟩

theorem not_any_unbounded (h : ∀ l ∈ beatLanes s.active k, ∃ x, Bin.f32.decode (s.readV a l).toNat = .num x) :
    ¬ (s.beatValues a k).any FVal.unbounded = true := by
  rw [any_unbounded_iff]
  rintro ⟨l, hl, hne⟩
  obtain ⟨x, hx⟩ := h l hl
  exact hne x hx

theorem beatScale_of_unbounded (h : ∃ l ∈ beatLanes s.active k, ∀ x, Bin.f32.decode (s.readV a l).toNat ≠ .num x) :
    s.beatScale a f k = 0xFF0 := by
  rw [beatScale_eq, if_pos (any_unbounded_iff.mpr h)]

theorem beatScale_of_zeros (h : ∀ l ∈ beatLanes s.active k, ∃ x, Bin.f32.decode (s.readV a l).toNat = .num x ∧ x.man = 0) :
    s.beatScale a f k = 0x7F0 := by
  have hbounded := fun l hl => (h l hl).imp fun _ => And.left
  obtain ⟨-, -, hfrom⟩ := foldl_larger_zero (exact_of_bounded hbounded)
  rw [beatScale_eq, if_neg (not_any_unbounded hbounded), if_pos]
  rcases hfrom with hzero | ⟨d, hd, hmag⟩
  · exact hzero
  · obtain ⟨l, hl, hval⟩ := mem_beatValues.mp hd
    obtain ⟨x, hx, hman⟩ := h l hl
    obtain rfl := FVal.num.inj (hx.symm.trans hval)
    rw [Dy.val_eq_zero_iff.mpr hman, abs_zero, abs_eq_zero, Dy.val_eq_zero_iff] at hmag
    exact hmag

/-- The scale of a beat of numbers that are not all zero: it covers every lane, and no lesser scale does. -/
theorem beatScale_least (h : ∀ l ∈ beatLanes s.active k, ∃ x, Bin.f32.decode (s.readV a l).toNat = .num x)
    (hne : ∃ l x, l ∈ beatLanes s.active k ∧ Bin.f32.decode (s.readV a l).toNat = .num x ∧ x.man ≠ 0) :
    (∃ e, Bin.sc12.decode (s.beatScale a f k) = .num e ∧ ∀ l x, l ∈ beatLanes s.active k →
      Bin.f32.decode (s.readV a l).toNat = .num x → |x.val| ≤ e.val * (scaleTop f).val) ∧
    ∀ n e, n < s.beatScale a f k → Bin.sc12.decode n = .num e → ∃ l x, l ∈ beatLanes s.active k ∧
      Bin.f32.decode (s.readV a l).toNat = .num x ∧ e.val * (scaleTop f).val < |x.val| := by
  obtain ⟨hsticky, hmax, hfrom⟩ := foldl_larger_zero (exact_of_bounded h)
  rw [beatScale_eq, if_neg (not_any_unbounded h)]
  generalize (s.beatValues a k).foldl larger (Dy.ofNat 0) = amax at hsticky hmax hfrom
  have hman : amax.man ≠ 0 := fun hzero => by
    obtain ⟨l, x, hl, hx, hman⟩ := hne
    have hle := hmax x (mem_beatValues.mpr ⟨l, hl, hx⟩)
    rw [Dy.val_eq_zero_iff.mpr hzero, abs_zero, abs_nonpos_iff, Dy.val_eq_zero_iff] at hle
    exact hman hle
  obtain ⟨d, hd, hmag⟩ := hfrom.resolve_left hman
  obtain ⟨l, hl, hval⟩ := mem_beatValues.mp hd
  rw [if_neg hman]
  obtain ⟨⟨e, he, hcovers⟩, hleast⟩ := leastScale_spec (two_le_scaleTop f) hsticky (hmag.trans_lt (abs_val_lt_of_f32 hval))
  exact ⟨⟨e, he, fun l x hl hx => (hmax x (mem_beatValues.mpr ⟨l, hl, hx⟩)).trans hcovers⟩,
    fun n e hn he => ⟨l, d, hl, hval, (hleast n e hn he).trans_eq hmag⟩⟩

end
end State
end Sys2Proof.Machine
end

section
/-!
O31, third part: compression (R205), and the obligation settled.
-/

set_option Elab.async false

namespace Sys2Proof.Machine

/-! ## The index of greatest rank (R205) -/

/-- The index of greater rank of two, the first of equals. -/
def topStep (rank : Nat → Nat) (b j : Nat) : Nat := if rank b < rank j then j else b

/-- The index of greatest rank among a first index and some that follow. -/
theorem topIndex_cons (rank : Nat → Nat) (b : Nat) (l : List Nat) : topIndex rank (b :: l) = l.foldl (topStep rank) b := by
  unfold topIndex
  show (List.foldl _ (some b) l).getD 0 = _
  induction l generalizing b with
  | nil => rfl
  | cons j l ih =>
    rw [List.foldl_cons, List.foldl_cons, ← ih, topStep, apply_ite some]

/-- Among ascending indices it is the lowest of those of greatest rank. -/
theorem topIndex_spec (rank : Nat → Nat) {l : List Nat} (hne : l ≠ []) (hl : l.Pairwise (· < ·)) : topIndex rank l ∈ l ∧
    ∀ k ∈ l, rank k ≤ rank (topIndex rank l) ∧ (rank k = rank (topIndex rank l) → topIndex rank l ≤ k) := by
  obtain ⟨b, l, rfl⟩ := List.exists_cons_of_ne_nil hne
  rw [topIndex_cons]
  clear hne
  induction l generalizing b with
  | nil => simp
  | cons j l ih =>
    obtain ⟨hb, hjl⟩ := List.pairwise_cons.mp hl
    obtain ⟨hj, hl'⟩ := List.pairwise_cons.mp hjl
    have hbj : b < j := hb j List.mem_cons_self
    rw [List.foldl_cons]
    by_cases hlt : rank b < rank j
    · rw [topStep, if_pos hlt]
      obtain ⟨hmem, hmax⟩ := ih j hjl
      obtain ⟨hmaxj, -⟩ := hmax j List.mem_cons_self
      refine ⟨List.mem_cons_of_mem _ hmem, fun k hk => ?_⟩
      rcases List.mem_cons.mp hk with rfl | hk
      · exact ⟨hlt.le.trans hmaxj, fun e => absurd e (hlt.trans_le hmaxj).ne⟩
      · exact hmax k hk
    · rw [topStep, if_neg hlt]
      have hbl : (b :: l).Pairwise (· < ·) := List.pairwise_cons.mpr ⟨fun k hk => hb k (List.mem_cons_of_mem _ hk), hl'⟩
      obtain ⟨hmem, hmax⟩ := ih b hbl
      obtain ⟨hmaxb, hfirst⟩ := hmax b List.mem_cons_self
      refine ⟨List.mem_cons.mpr ((List.mem_cons.mp hmem).imp_right (List.mem_cons_of_mem _)), fun k hk => ?_⟩
      rcases List.mem_cons.mp hk with rfl | hk
      · exact ⟨hmaxb, hfirst⟩
      · rcases List.mem_cons.mp hk with rfl | hk
        · exact ⟨by omega, fun e => by have := hfirst (by omega); omega⟩
        · exact hmax k (List.mem_cons_of_mem _ hk)

/-! ## The two elements kept (R205) -/

/-- Two indices below 4 are kept: each of greater rank than those that are not, or of equal rank and lower. -/
def KeepsTop (rank : Nat → Nat) (p q : Nat) : Prop :=
  ∀ k, k < 4 → k ≠ p → k ≠ q → rank k ≤ rank p ∧ rank k ≤ rank q ∧ (rank k = rank p → p < k) ∧ (rank k = rank q → q < k)

theorem topIndex_keeps (rank : Nat → Nat) :
    let p := topIndex rank [0, 1, 2, 3]
    let q := topIndex rank ([0, 1, 2, 3].filter (· ≠ p))
    p < 4 ∧ q < 4 ∧ p ≠ q ∧ KeepsTop rank p q := by
  intro p q
  have hasc : [0, 1, 2, 3].Pairwise (· < ·) := by decide
  have hfour : ∀ k, k ∈ [0, 1, 2, 3] ↔ k < 4 := fun k => by simp; omega
  obtain ⟨hp, hpmax⟩ := topIndex_spec rank (List.cons_ne_nil 0 [1, 2, 3]) hasc
  have hrest : ([0, 1, 2, 3].filter (· ≠ p)) ≠ [] := fun hnil => by
    have hzero := List.filter_eq_nil_iff.mp hnil 0 (by decide)
    have hone := List.filter_eq_nil_iff.mp hnil 1 (by decide)
    simp at hzero hone
    omega
  obtain ⟨hq, hqmax⟩ := topIndex_spec rank hrest (hasc.filter _)
  obtain ⟨hq, hqp⟩ := List.mem_filter.mp hq
  refine ⟨(hfour p).mp hp, (hfour q).mp hq, (of_decide_eq_true hqp).symm, fun k hk hkp hkq => ?_⟩
  obtain ⟨hle, hfirst⟩ := hpmax k ((hfour k).mpr hk)
  obtain ⟨hle', hfirst'⟩ := hqmax k (List.mem_filter.mpr ⟨(hfour k).mpr hk, by simpa using hkp⟩)
  exact ⟨hle, hle', fun e => (hfirst e).lt_of_ne' hkp, fun e => (hfirst' e).lt_of_ne' hkq⟩

/-- What COMPRESS makes of a word: two of its elements with their indices, the lower first. -/
theorem compressed_spec (f : Fmt) (x : Word) : ∃ i j, i < j ∧ j < 4 ∧ (compressed f x).toNat =
      x.toNat / 2 ^ (8 * i) % 2 ^ 8 + 2 ^ 8 * (x.toNat / 2 ^ (8 * j) % 2 ^ 8) + 2 ^ 16 * i + 2 ^ 18 * j ∧
    KeepsTop (fun k => elementRank f (x.toNat / 2 ^ (8 * k) % 2 ^ 8)) i j := by
  obtain ⟨hp, hq, hne, hkeeps⟩ := topIndex_keeps fun k => elementRank f (x.toNat / 2 ^ (8 * k) % 256)
  unfold compressed
  dsimp only
  generalize topIndex _ [0, 1, 2, 3] = p at hp hq hne hkeeps ⊢
  generalize topIndex _ (List.filter _ _) = q at hq hne hkeeps ⊢
  have hword (i j : Nat) (hi : i < 4) (hj : j < 4) : (BitVec.ofNat 32 (x.toNat / 2 ^ (8 * i) % 256 +
      2 ^ 8 * (x.toNat / 2 ^ (8 * j) % 256) + 2 ^ 16 * i + 2 ^ 18 * j)).toNat =
      x.toNat / 2 ^ (8 * i) % 2 ^ 8 + 2 ^ 8 * (x.toNat / 2 ^ (8 * j) % 2 ^ 8) + 2 ^ 16 * i + 2 ^ 18 * j := by
    rw [BitVec.toNat_ofNat]
    omega
  rcases Nat.lt_or_gt_of_ne hne with hlt | hlt
  · rw [Nat.min_eq_left hlt.le, Nat.max_eq_right hlt.le]
    exact ⟨p, q, hlt, hq, hword p q hp hq, hkeeps⟩
  · rw [Nat.min_eq_right hlt.le, Nat.max_eq_left hlt.le]
    refine ⟨q, p, hlt, hp, hword q p hq hp, fun k hk hkq hkp => ?_⟩
    obtain ⟨hle, hle', hfirst, hfirst'⟩ := hkeeps k hk hkp hkq
    exact ⟨hle', hle, hfirst', hfirst⟩

/-! ## The ranks (R205) -/

/-- An i8 element ranks by its magnitude. -/
theorem elementRank_i8 {x : Nat} (h : x < 2 ^ 8) : elementRank .i8 x = if 128 ≤ x then 256 - x else x := by
  have hrank : elementRank .i8 x = (BitVec.ofNat 8 x).toInt.natAbs := rfl
  rw [hrank, BitVec.toInt_eq_toNat_cond, BitVec.toNat_ofNat, Nat.mod_eq_of_lt h]
  split <;> split <;> omega

/-- An element of a floating format ranks by its bits without the sign, a NaN above all. -/
theorem elementRank_float {f : Fmt} (h : f ≠ .i8) (x : Nat) : elementRank f x = if (f.decode x).isNan then 128 else x % 128 := by
  cases f with
  | i8 => exact absurd rfl h
  | _ => rfl

/-- The three beats' scales, one for each lane's beat (R145, R203). -/
theorem beatScale_ite (s : State) (a : VReg) (f : Fmt) (j : Nat) : s.beatScale a f (min j 2) =
    if j = 0 then s.beatScale a f 0 else if j = 1 then s.beatScale a f 1 else s.beatScale a f 2 := by
  split
  · next h => rw [h]; rfl
  · split
    · next h => rw [h]; rfl
    · next h0 h1 => rw [Nat.min_eq_right (by omega)]

theorem element_lt (x j : Nat) : x / 2 ^ (8 * j) % 2 ^ 8 < 2 ^ 8 := Nat.mod_lt _ (Nat.two_pow_pos _)

end Sys2Proof.Machine

open Sys2Proof Sys2Proof.Machine Sys2Proof.Machine.State

/-- Settles O31: packed and unpacked fields are numbers of their width; a beat's scale is the first that reaches its greatest
magnitude (`beatScale_least`); of four elements the two lowest of greatest rank are kept (`compressed_spec`). -/
theorem packAndScale : Obligations.PackAndScale := by
  unfold Obligations.PackAndScale
  intro s d a b sx f h
  refine ⟨?_, ?_, ?_, fun hi hd => ?_, fun hi hd => ?_, fun hi hd => ?_, ?_, ?_, ⟨fun k => s.beatScale a f (min k 2), ?_, fun k hk => ?_⟩,
    fun l => compressed f (s.readV a l), ?_, fun l => ?_⟩
  · exact givesV_of_packWord (exec_pack4 ..)
  · exact givesV_of_packWord (exec_pack6 ..)
  · exact givesV_of_packWord (exec_pack8 ..)
  · exact exec_unpack_leaves h (by decide) (exec_unpack4 ..) hi hd
  · exact exec_unpack_leaves h (by decide) (exec_unpack6 ..) hi hd
  · exact exec_unpack_leaves h (by decide) (exec_unpack8 ..) hi hd
  · exact givesFloat_of_floatWord h (exec_scapplyMul ..)
  · exact givesFloat_of_floatWord h (exec_scapplyDiv ..)
  · exact givesV_of_vectorWord _ (exec_bscale ..) fun l => congrArg _ (beatScale_ite ..).symm
  · intro lanes top covers
    have hlanes (l : Nat) : l ∈ lanes ↔ l ∈ beatLanes s.active k := mem_beatLanes.symm
    simp only [hlanes, Nat.min_eq_left (Nat.le_of_lt_succ hk)]
    refine ⟨fun hx => beatScale_of_unbounded hx, beatScale_of_zeros, fun hnum hne => ?_⟩
    obtain ⟨⟨e, he, hcovers⟩, hleast⟩ := beatScale_least (f := f) hnum hne
    refine ⟨⟨e, he, fun l x hl hx => hcovers l x ((hlanes l).mp hl) hx⟩, fun n e hn he hall => ?_⟩
    obtain ⟨l, x, hl, hx, hlt⟩ := hleast n e hn he
    exact absurd (hall l x ((hlanes l).mpr hl) hx) hlt.not_ge
  · exact givesV_of_vectorWord _ (exec_compress ..) fun l => rfl
  · intro e rank
    have hrank : (fun k => elementRank f (e k)) = rank := funext fun k => by
      show _ = if f = .i8 then _ else _
      by_cases hf : f = .i8
      · rw [if_pos hf, hf]
        exact elementRank_i8 (element_lt ..)
      · rw [if_neg hf, elementRank_float hf]
        cases f.decode (e k) <;> rfl
    obtain ⟨i, j, hij, hj, hword, hkeeps⟩ := compressed_spec f (s.readV a l)
    exact ⟨i, j, hij, hj, hword, hrank ▸ hkeeps⟩
end

section
/-!
O30, first part: the encoding of a number that a binary format holds stands for that number (R185, R188).
-/

set_option Elab.async false

namespace Sys2Proof.Machine

namespace Dy

theorem abs_val_rat (d : Dy) : |d.val| = d.man * 2 ^ d.exp := by
  rw [← val_abs, val_of_nonneg rfl]
  rfl

theorem val_eq_abs (d : Dy) : d.val = (if d.neg then -1 else 1) * |d.val| := by
  rw [abs_val_rat, ← mul_assoc]
  rfl

/-- Values of one sign and one magnitude are equal. -/
theorem val_congr {x y : Dy} (hneg : x.neg = y.neg) (habs : |x.val| = |y.val|) : x.val = y.val := by
  rw [val_eq_abs x, val_eq_abs y, hneg, habs]

end Dy

namespace Bin

/-- The formats in which a sign, an exponent field and a mantissa field that is not all ones at the top give a number. -/
def Regular (f : Bin) : Prop := 0 < f.ebits ∧ (f.special = .e4m3 → f.frac = 3)

section
variable {f : Bin} {s : Bool} {e m : Nat}

/-! ## The fields of an encoding that is put together -/

theorem exponent_withSign (he : e < 2 ^ f.ebits) (hm : m < 2 ^ f.frac) : f.exponent (f.withSign s (e * 2 ^ f.frac + m)) = e := by
  have hword : (e * 2 ^ f.frac + m) / 2 ^ f.frac = e := by
    rw [mul_comm, Nat.mul_add_div (Nat.two_pow_pos _), Nat.div_eq_of_lt hm, add_zero]
  unfold exponent withSign signAt
  split
  · rw [pow_add, ← add_assoc, ← add_mul, mul_comm, Nat.mul_add_div (Nat.two_pow_pos _), Nat.div_eq_of_lt hm, add_zero,
      Nat.add_mod_left, Nat.mod_eq_of_lt he]
  · rw [hword, Nat.mod_eq_of_lt he]

theorem fraction_withSign (hm : m < 2 ^ f.frac) : f.fraction (f.withSign s (e * 2 ^ f.frac + m)) = m := by
  unfold fraction withSign signAt
  split
  · rw [pow_add, ← add_assoc, ← add_mul, mul_comm, Nat.mul_add_mod, Nat.mod_eq_of_lt hm]
  · rw [mul_comm, Nat.mul_add_mod, Nat.mod_eq_of_lt hm]

theorem sign_withSign (he : e < 2 ^ f.ebits) (hm : m < 2 ^ f.frac) (hs : s = true → f.signed = true) :
    f.sign (f.withSign s (e * 2 ^ f.frac + m)) = s := by
  have hlt : e * 2 ^ f.frac + m < 2 ^ (f.ebits + f.frac) := by
    rw [pow_add]
    calc e * 2 ^ f.frac + m < (e + 1) * 2 ^ f.frac := by rw [add_one_mul]; omega
      _ ≤ _ := Nat.mul_le_mul_right _ he
  unfold sign withSign signAt
  cases s with
  | false => simp [Nat.testBit_lt_two_pow hlt]
  | true => simp [hs rfl, Nat.testBit_two_pow_add_eq, Nat.testBit_lt_two_pow hlt]

end

/-! ## The two ranges of a format (R185) -/

section
variable {f : Bin} {d : Dy}

/-- A number below the normal range is a multiple of the least subnormal. -/
theorem encode_subnormal (hd : d.man ≠ 0) (hexp : f.emin - f.frac ≤ d.exp) (htop : d.top < f.emin) :
    ∃ m, m < 2 ^ f.frac ∧ f.encode d = f.withSign d.neg (0 * 2 ^ f.frac + m) ∧
      (m : ℚ) * 2 ^ (f.emin - f.frac) = d.man * 2 ^ d.exp := by
  obtain ⟨k, hk⟩ := Int.le.dest hexp
  have hshift : (d.exp - (f.emin - f.frac)).toNat = k := by omega
  have hback : (f.emin - f.frac - d.exp).toNat = 0 := by omega
  have hlog : d.exp + d.man.log2 < f.emin := htop
  refine ⟨d.man * 2 ^ k, ?_, ?_, ?_⟩
  · calc d.man * 2 ^ k < 2 ^ (d.man.log2 + 1) * 2 ^ k := Nat.mul_lt_mul_of_pos_right Nat.lt_log2_self (Nat.two_pow_pos k)
      _ = 2 ^ (d.man.log2 + 1 + k) := (pow_add ..).symm
      _ ≤ 2 ^ f.frac := Nat.pow_le_pow_right Nat.two_pos (by omega)
  · rw [encode, if_neg hd, if_pos htop, hshift, hback, pow_zero, Nat.div_one, zero_mul, zero_add]
  · rw [← hk, zpow_add₀ two_ne_zero, zpow_natCast]
    push_cast
    ring

/-- The mantissa of a normal number shifted to its full width. -/
theorem exists_shifted_mantissa (hd : d.man ≠ 0) (hman : d.man ≤ 2 ^ (f.frac + 1)) :
    ∃ m, m < 2 ^ f.frac ∧ d.man * 2 ^ (f.frac + 1) / 2 ^ (d.man.log2 + 1) % 2 ^ f.frac = m ∧
      (2 ^ f.frac + m) * 2 ^ d.man.log2 = d.man * 2 ^ f.frac := by
  have hlow := Nat.log2_self_le hd
  have hhigh : d.man < 2 ^ (d.man.log2 + 1) := Nat.lt_log2_self
  have hdvd : 2 ^ (d.man.log2 + 1) ∣ d.man * 2 ^ (f.frac + 1) := by
    rcases hman.lt_or_eq with hlt | heq
    · exact dvd_mul_of_dvd_right (pow_dvd_pow 2 (Nat.succ_le_succ (Nat.le_of_lt_succ ((Nat.log2_lt hd).mpr hlt)))) _
    · rw [heq, Nat.log2_two_pow, ← pow_add]
      exact pow_dvd_pow 2 (by omega)
  obtain ⟨n, hn⟩ := hdvd
  have hmul : n * 2 ^ d.man.log2 = d.man * 2 ^ f.frac := by
    rw [pow_succ, pow_succ, ← mul_assoc] at hn
    have := Nat.eq_of_mul_eq_mul_right Nat.two_pos (hn.trans (mul_right_comm ..))
    rw [this, mul_comm]
  have hle : 2 ^ f.frac ≤ n := Nat.le_of_mul_le_mul_right (c := 2 ^ d.man.log2)
    (by rw [hmul, mul_comm]; exact Nat.mul_le_mul_right _ hlow) (Nat.two_pow_pos _)
  have hlt : n < 2 ^ f.frac + 2 ^ f.frac := Nat.lt_of_mul_lt_mul_right (a := 2 ^ d.man.log2) (by
    rw [hmul, ← two_mul, mul_right_comm, ← pow_succ']
    exact Nat.mul_lt_mul_of_pos_right hhigh (Nat.two_pow_pos _))
  refine ⟨n - 2 ^ f.frac, by omega, ?_, ?_⟩
  · rw [hn, Nat.mul_div_cancel_left _ (Nat.two_pow_pos _), Nat.mod_eq_sub_mod hle, Nat.mod_eq_of_lt (by omega)]
  · rw [Nat.add_sub_cancel' hle, hmul]

/-- A number of the normal range has an exponent field of at least 1. -/
theorem encode_normal (hd : d.man ≠ 0) (hman : d.man ≤ 2 ^ (f.frac + 1)) (htop : f.emin ≤ d.top) :
    ∃ e m, 0 < e ∧ m < 2 ^ f.frac ∧ f.encode d = f.withSign d.neg (e * 2 ^ f.frac + m) ∧
      ((2 ^ f.frac + m : ℕ) : ℚ) * 2 ^ ((e : ℤ) - f.bias - f.frac) = d.man * 2 ^ d.exp := by
  obtain ⟨m, hm, hfrac, hmul⟩ := exists_shifted_mantissa (f := f) hd hman
  have he : ((d.top + f.bias).toNat : ℤ) = d.top + f.bias := Int.toNat_of_nonneg (by unfold emin at htop; omega)
  refine ⟨(d.top + f.bias).toNat, m, by unfold emin at htop; omega, hm, ?_, ?_⟩
  · rw [encode, if_neg hd, if_neg htop.not_gt]
    dsimp only
    rw [hfrac]
  · have hscale : (2 : ℚ) ^ (((d.top + f.bias).toNat : ℤ) - f.bias - f.frac) * 2 ^ f.frac = 2 ^ d.man.log2 * 2 ^ d.exp := by
      rw [he, ← zpow_natCast, ← zpow_natCast, ← zpow_add₀ two_ne_zero, ← zpow_add₀ two_ne_zero]
      congr 1
      unfold Dy.top
      omega
    have hmul : ((2 ^ f.frac + m : ℕ) : ℚ) * 2 ^ d.man.log2 = d.man * 2 ^ f.frac := by exact_mod_cast hmul
    have hpos : (2 : ℚ) ^ f.frac ≠ 0 := by positivity
    apply mul_right_cancel₀ hpos
    rw [mul_assoc, hscale, ← mul_assoc, hmul]
    ring

end

/-! ## The largest finite value (R185, R188) -/

@[simp] theorem largest_neg (f : Bin) : f.largest.neg = false := by unfold largest; dsimp only; split <;> rfl

theorem largest_val_nonneg (f : Bin) : 0 ≤ f.largest.val := by
  rw [Dy.val_of_nonneg f.largest_neg]
  positivity

/-- The largest finite value has the full mantissa, at an exponent field at which every encoding up to it is a number. -/
theorem largest_fields (f : Bin) : ∃ t : ℤ, f.largest.exp = t - f.bias - f.frac ∧ f.largest.man < 2 ^ (f.frac + 1) ∧
    t ≤ f.topField ∧
    (t = f.topField → f.special = .none ∨ f.special = .e4m3 ∧ f.largest.man = 2 ^ (f.frac + 1) - 2) := by
  have hpos := Nat.two_pow_pos (f.frac + 1)
  unfold largest
  cases hs : f.special with
  | ieee => exact ⟨f.topField - 1, rfl, Nat.sub_lt hpos one_pos, by omega, fun h => by omega⟩
  | scale => exact ⟨f.topField - 1, rfl, Nat.sub_lt hpos one_pos, by omega, fun h => by omega⟩
  | e4m3 => exact ⟨f.topField, rfl, by dsimp only; omega, le_rfl, fun _ => .inr ⟨rfl, by dsimp only; omega⟩⟩
  | none => exact ⟨f.topField, rfl, Nat.sub_lt hpos one_pos, le_rfl, fun _ => .inl rfl⟩

/-- Of two numbers with full mantissas the lesser has the lesser exponent, or the same and the lesser mantissa. -/
theorem exponent_le_of_le {k n N : Nat} {a b : ℤ} (hn : 2 ^ k ≤ n) (hN : N < 2 ^ (k + 1)) (h : (n : ℚ) * 2 ^ a ≤ N * 2 ^ b) :
    a ≤ b ∧ (a = b → n ≤ N) := by
  constructor
  · by_contra hlt
    have hn' : (2 : ℚ) ^ k ≤ n := by exact_mod_cast hn
    have hN' : (N : ℚ) < 2 ^ (k + 1) := by exact_mod_cast hN
    refine absurd h (not_le.mpr ?_)
    calc (N : ℚ) * 2 ^ b < 2 ^ (k + 1) * 2 ^ b := by gcongr
      _ = 2 ^ k * 2 ^ (b + 1) := by rw [zpow_add_one₀ two_ne_zero]; ring
      _ ≤ n * 2 ^ a := by
        gcongr
        · exact one_le_two
        · omega
  · rintro rfl
    exact_mod_cast le_of_mul_le_mul_right h (by positivity)

/-! ## The encoding of a number (R185, R188) -/

/-- A number that a format holds: its sign, a multiple of the least subnormal, of no more digits than the format's, and no larger
than its largest. -/
structure Holds (f : Bin) (d : Dy) : Prop where
  signed : d.neg = true → f.signed = true
  exp : f.emin - f.frac ≤ d.exp
  man : d.man ≤ 2 ^ (f.frac + 1)
  largest : |d.val| ≤ f.largest.val

theorem topField_lt (f : Bin) : f.topField < 2 ^ f.ebits := Nat.sub_lt (Nat.two_pow_pos _) one_pos

section
variable {f : Bin} {d : Dy} (hf : f.Regular) (h : f.Holds d)
include hf h

/-- The fields of its encoding, which give its magnitude. -/
theorem Holds.encode_fields : ∃ e m, e ≤ f.topField ∧ m < 2 ^ f.frac ∧ f.encode d = f.withSign d.neg (e * 2 ^ f.frac + m) ∧
    (e = f.topField → f.special = .none ∨ f.special = .e4m3 ∧ m ≠ 7) ∧
    |d.val| = if e = 0 then 2 ^ (1 - f.bias) * ((m : ℚ) / 2 ^ f.frac) else 2 ^ ((e : ℤ) - f.bias) * (1 + (m : ℚ) / 2 ^ f.frac) := by
  have htopField : 0 < f.topField := Nat.sub_pos_of_lt (Nat.one_lt_two_pow hf.1.ne')
  rw [Dy.abs_val_rat]
  by_cases hd : d.man = 0
  · refine ⟨0, 0, htopField.le, Nat.two_pow_pos _, ?_, fun e => absurd e htopField.ne, by simp [hd]⟩
    rw [encode, if_pos hd, zero_mul]
  rcases lt_or_ge d.top f.emin with htop | htop
  · obtain ⟨m, hm, henc, hval⟩ := encode_subnormal hd h.exp htop
    refine ⟨0, m, htopField.le, hm, henc, fun e => absurd e htopField.ne, ?_⟩
    rw [if_pos rfl, ← hval, emin, zpow_sub₀ two_ne_zero, zpow_natCast]
    ring
  · obtain ⟨e, m, he, hm, henc, hval⟩ := encode_normal hd h.man htop
    obtain ⟨t, hexp, hman, ht, hspecial⟩ := f.largest_fields
    have hle := h.largest
    rw [Dy.abs_val_rat, ← hval, Dy.val_of_nonneg f.largest_neg, hexp] at hle
    obtain ⟨het, hmt⟩ := exponent_le_of_le (Nat.le_add_right _ _) hman hle
    refine ⟨e, m, by omega, hm, henc, fun htop => ?_, ?_⟩
    · refine (hspecial (by omega)).imp_right fun ⟨hs, hlargest⟩ => ⟨hs, ?_⟩
      have hmax := hmt (by omega)
      rw [hlargest, hf.2 hs] at hmax
      omega
    · rw [if_neg he.ne', ← hval, zpow_sub₀ two_ne_zero _ (f.frac : ℤ), zpow_natCast]
      push_cast
      field_simp

/-- The encoding of a number that the format holds has its value and its sign. -/
theorem Holds.encode_spec : (∃ w, f.decode (f.encode d) = .num w ∧ w.val = d.val) ∧ f.sign (f.encode d) = d.neg := by
  obtain ⟨e, m, he, hm, henc, hspecial, hval⟩ := h.encode_fields hf
  have he' : e < 2 ^ f.ebits := he.trans_lt f.topField_lt
  have hexponent : f.exponent (f.encode d) = e := henc ▸ exponent_withSign he' hm
  have hfraction : f.fraction (f.encode d) = m := henc ▸ fraction_withSign hm
  have hsign : f.sign (f.encode d) = d.neg := henc ▸ sign_withSign he' hm h.signed
  refine ⟨⟨_, decode_of_isNumber ?_, Dy.val_congr (number_neg.trans hsign) ?_⟩, hsign⟩
  · rw [IsNumber, hexponent, hfraction]
    exact hspecial
  · rw [abs_number_val, hexponent, hfraction, hval]

end
end Bin

end Sys2Proof.Machine
end

section
/-!
O30, second part: Convert to a binary format (R193, R194).
-/

set_option Elab.async false

namespace Sys2Proof.Machine.Bin

/-! ## A rounded number is one that the format holds, or it is beyond the largest (R58, R194) -/

section
variable {f : Bin} {m : Rnd} {b : Word} {d : Dy}

/-- The lower neighbour of a number has no more digits than the format. -/
theorem bracketAt_lo_lt (hd : d.man ≠ 0) (hs : d.sticky = false) : (bracketAt d (f.quantum d)).lo < 2 ^ (f.frac + 1) := by
  have hstands := Dy.standsFor_val hs
  obtain ⟨r, hb⟩ := bracketAt_around hstands (e := f.quantum d) (by simp [hs])
  have hpos : 0 < |(d.val : ℝ)| := abs_pos.mpr (hstands.ne_zero hd)
  have hlt : |(d.val : ℝ)| / 2 ^ f.quantum d < 2 ^ (f.frac + 1) := by
    rw [div_lt_iff₀ (by positivity), ← zpow_natCast, ← zpow_add₀ two_ne_zero]
    calc |(d.val : ℝ)| < 2 ^ (d.top + 1) := by
          have := Int.lt_zpow_succ_log_self (b := 2) one_lt_two |(d.val : ℝ)|
          rwa [hstands.log_eq hd, Nat.cast_ofNat] at this
      _ ≤ _ := by
        refine zpow_le_zpow_right₀ one_le_two ?_
        have := le_max_left (d.top - f.frac) (f.emin - f.frac)
        unfold quantum
        push_cast
        omega
  have hfloor : ((bracketAt d (f.quantum d)).lo : ℝ) ≤ |(d.val : ℝ)| / 2 ^ f.quantum d := by
    rw [hb.eq]
    linarith [hb.fraction_nonneg]
  exact_mod_cast hfloor.trans_lt hlt

theorem round_neg (hd : d.man ≠ 0) : (f.round m b d).neg = d.neg := by rw [round_eq hd]; rfl

theorem round_sticky (hd : d.man ≠ 0) : (f.round m b d).sticky = false := by rw [round_eq hd]; rfl

theorem round_man_le (hd : d.man ≠ 0) (hs : d.sticky = false) : (f.round m b d).man ≤ 2 ^ (f.frac + 1) := by
  have hlo := bracketAt_lo_lt (f := f) hd hs
  have hhi : (bracketAt d (f.quantum d)).hi = (bracketAt d (f.quantum d)).lo + 1 := rfl
  rw [round_eq hd, Bracket.pick]
  dsimp only
  split <;> omega

theorem holds_round (hd : d.man ≠ 0) (hs : d.sticky = false) (hsign : d.neg = true → f.signed = true)
    (hle : |(f.round m b d).val| ≤ f.largest.val) : f.Holds (f.round m b d) where
  signed h := hsign (round_neg hd ▸ h)
  exp := by
    rw [round_eq hd]
    exact le_max_right ..
  man := round_man_le hd hs
  largest := hle

end

/-! ## Convert (R193) -/

/-- What a conversion beyond the largest finite value delivers, in the form inf or sat. -/
def beyond (f : Bin) (inf neg : Bool) (flags : Flags) : Converted :=
  if inf then { bits := if f.special = .e4m3 then f.withSign neg 0x7F else f.inf neg, flags, stat := some .inf }
  else { bits := f.withSign neg (f.encode f.largest), flags, stat := some .sat }

/-- The number that a conversion rounds: a format without a sign takes the magnitude. -/
def operand (f : Bin) (d : Dy) : Dy := if f.signed then d else d.abs

/-- What a conversion delivers that is not beyond the largest finite value. -/
def rounded (f : Bin) (m : Rnd) (b : Word) (d : Dy) : Converted :=
  { bits := f.encode (f.round m b d)
    flags := if (f.round m b d).same d then 0 else if f.tiny m b d then flagNX ||| flagUF else flagNX
    stat := if (f.round m b d).man = 0 then some .ftz else none }

section
variable {f : Bin} {inf : Bool} {m : Rnd} {b : Word} {d : Dy}

theorem convert_nan (s : Bool) : f.convert inf m b (.nan s) =
    { bits := f.nan, flags := if s || f.special = .none then flagNV else 0, stat := some .nan } := rfl

theorem convert_inf (s : Bool) : f.convert inf m b (.inf s) =
    if f.special = .ieee then { bits := f.inf s, flags := 0, stat := none } else f.beyond inf s flagNV := rfl

@[simp] theorem operand_man : (f.operand d).man = d.man := by unfold operand; split <;> rfl
@[simp] theorem operand_sticky : (f.operand d).sticky = d.sticky := by unfold operand; split <;> rfl

theorem operand_signed (h : (f.operand d).neg = true) : f.signed = true := by
  unfold operand at h
  split at h
  · assumption
  · cases h

theorem convert_zero (hd : d.man = 0) : f.convert inf m b (.num d) = { bits := f.withSign d.neg 0, flags := 0, stat := none } := by
  have hbits : f.withSign (f.operand d).neg 0 = f.withSign d.neg 0 := by
    unfold operand withSign
    cases f.signed <;> simp
  rw [← hbits]
  exact if_pos (operand_man.trans hd)

theorem convert_num (hd : d.man ≠ 0) : f.convert inf m b (.num d) =
    if f.largest.magLt (f.round m b (f.operand d)) then f.beyond inf (f.round m b (f.operand d)).neg (flagOF ||| flagNX)
    else f.rounded m b (f.operand d) := by
  have hd' : (f.operand d).man ≠ 0 := fun h => hd (operand_man.symm.trans h)
  refine (if_neg hd').trans ?_
  refine ite_congr rfl (fun _ => rfl) fun _ => ?_
  unfold rounded
  show (if (f.round m b (f.operand d)).same (f.operand d) then _ else _) = _
  split <;> rfl

/-- What Convert makes of a number `q` that is not zero: `past` where it rounds beyond the largest, else the encoding of what it
rounds to, with the flags and the counter of R193. -/
def ConvertsTo (f : Bin) (m : Rnd) (b : Word) (q : ℝ) (past c : Converted) : Prop :=
  ∃ y, f.Rounded m b q y ∧ ((f.largest.val : ℝ) < |y| → c = past) ∧
    (|y| ≤ f.largest.val → f.Encodes c.bits y ∧ (f.sign c.bits = true ↔ q < 0) ∧ (c.flags.getLsbD 0 = true ↔ y ≠ q) ∧
      (c.flags.getLsbD 1 = true ↔ y ≠ q ∧ f.Tiny m b q) ∧ c.flags.toNat < 4 ∧ (c.stat = some .ftz ↔ y = 0) ∧
      (c.stat = none ↔ y ≠ 0))

/-- The flags of a conversion (R193). -/
theorem rounded_flags (hd : d.man ≠ 0) (hs : d.sticky = false) :
    ((f.rounded m b d).flags.getLsbD 0 = true ↔ ((f.round m b d).val : ℝ) ≠ d.val) ∧
    ((f.rounded m b d).flags.getLsbD 1 = true ↔ ((f.round m b d).val : ℝ) ≠ d.val ∧ f.Tiny m b d.val) ∧
    (f.rounded m b d).flags.toNat < 4 := by
  have hsame := Dy.same_iff (round_sticky (f := f) (m := m) (b := b) hd) hs
  have htiny := tiny_iff (f := f) (m := m) (w := b) (Dy.standsFor_val hs) hd (by simp [hs])
  rw [← htiny, ne_eq, ← hsame]
  unfold rounded
  dsimp only
  cases (f.round m b d).same d <;> cases f.tiny m b d <;> decide

theorem rounded_stat : ((f.rounded m b d).stat = some .ftz ↔ ((f.round m b d).val : ℝ) = 0) ∧
    ((f.rounded m b d).stat = none ↔ ((f.round m b d).val : ℝ) ≠ 0) := by
  have hzero : ((f.round m b d).val : ℝ) = 0 ↔ (f.round m b d).man = 0 := by rw [Rat.cast_eq_zero, Dy.val_eq_zero_iff]
  rw [ne_eq, hzero]
  unfold rounded
  dsimp only
  split <;> simp [*]

theorem convert_spec (hf : f.Regular) (hd : d.man ≠ 0) (hs : d.sticky = false) :
    f.ConvertsTo m b (f.operand d).val (f.beyond inf (decide (((f.operand d).val : ℝ) < 0)) 5) (f.convert inf m b (.num d)) := by
  have hd' : (f.operand d).man ≠ 0 := fun h => hd (operand_man.symm.trans h)
  have hs' : (f.operand d).sticky = false := operand_sticky.trans hs
  have hneg : ((f.operand d).val : ℝ) < 0 ↔ (f.operand d).neg = true := Dy.val_neg_iff hd'
  have hover := Dy.magLt_iff (x := f.largest) (round_sticky (f := f) (m := m) (b := b) hd')
  rw [show |(f.largest.val : ℝ)| = f.largest.val by exact_mod_cast abs_of_nonneg f.largest_val_nonneg] at hover
  have hsign : (f.round m b (f.operand d)).neg = (f.operand d).neg := round_neg hd'
  refine ⟨(f.round m b (f.operand d)).val, rounded_round (Dy.standsFor_val hs') hd' (by simp [hs]), fun hlt => ?_, fun hle => ?_⟩
  · have hdecide : decide (((f.operand d).val : ℝ) < 0) = (f.operand d).neg := by rw [Bool.eq_iff_iff, decide_eq_true_iff, hneg]
    rw [convert_num hd, if_pos (hover.mpr hlt), hsign, hdecide]
    rfl
  · have hholds : f.Holds (f.round m b (f.operand d)) := holds_round hd' hs' operand_signed (by exact_mod_cast hle)
    obtain ⟨⟨w, hw, hval⟩, hbit⟩ := hholds.encode_spec hf
    obtain ⟨hnx, huf, hlow⟩ := rounded_flags (f := f) (m := m) (b := b) hd' hs'
    obtain ⟨hftz, hnone⟩ := rounded_stat (f := f) (m := m) (b := b) (d := f.operand d)
    rw [convert_num hd, if_neg (mt hover.mp hle.not_gt)]
    exact ⟨⟨w, hw, by rw [hval]⟩, by rw [hneg, ← hsign, ← hbit]; rfl, hnx, huf, hlow, hftz, hnone⟩

end
end Sys2Proof.Machine.Bin
end

section
/-!
O30, third part: Convert to an integer format (R187, R193, R194).
-/

set_option Elab.async false

namespace Sys2Proof.Machine

/-- An integer is rounded to itself. -/
theorem roundsTo_intCast (m : Rnd) (b : Word) (k : ℤ) : RoundsTo m b k k := by
  have hneg : (k : ℝ) < 0 ↔ decide (k < 0) = true := by rw [decide_eq_true_iff, Int.cast_lt_zero]
  have hexact : ¬ TakesUpper m b (decide (k < 0)) |(k : ℝ)| := fun h => h.1 (by rw [← Int.cast_abs, Int.fract_intCast])
  have hself : signed (decide (k < 0)) ⌊|(k : ℝ)|⌋ = k := by
    rw [← Int.cast_abs, Int.floor_intCast, signed]
    split <;> simp_all [abs_of_neg, abs_of_nonneg]
  have hround := roundsTo_floor hneg hexact
  rwa [hself] at hround

namespace Dy

/-- A number rounded to an integer, under RSR by a random word. -/
def toInteger (m : Rnd) (b : Word) (d : Dy) : Dy := if 0 ≤ d.exp then d else (bracketAt d 0).pick m d.neg b

section
variable {m : Rnd} {b : Word} {d : Dy}

theorem toInteger_sticky (hs : d.sticky = false) : (d.toInteger m b).sticky = false := by
  unfold toInteger
  split
  · exact hs
  · rfl

theorem toInteger_signedUnits : ((d.toInteger m b).signedUnits 0 : ℝ) = (d.toInteger m b).val := by
  have hexp : 0 ≤ (d.toInteger m b).exp := by
    unfold toInteger
    split
    · assumption
    · exact le_rfl
  rw [← signedUnits_mul _ hexp, zpow_zero, mul_one]

/-- The integer that rounding makes of a number. -/
theorem roundsTo_toInteger (hd : d.man ≠ 0) (hs : d.sticky = false) : RoundsTo m b d.val ((d.toInteger m b).signedUnits 0) := by
  by_cases hexp : 0 ≤ d.exp
  · have hself : d.toInteger m b = d := if_pos hexp
    have hval := toInteger_signedUnits (m := m) (b := b) (d := d)
    rw [hself] at hval ⊢
    rw [← hval]
    exact roundsTo_intCast ..
  · obtain ⟨k, hk, hval⟩ := bracketAt_pick_roundsTo (m := m) (w := b) (e := 0) (standsFor_val hs) (by simp [hs]) hd (by simp [hs])
    have hself : d.toInteger m b = (bracketAt d 0).pick m d.neg b := if_neg hexp
    rw [← hself, ← toInteger_signedUnits, zpow_zero, mul_one, Int.cast_inj] at hval
    rw [zpow_zero, div_one] at hk
    rwa [hval]

theorem neg_of_signedUnits_neg {e : ℤ} (h : d.signedUnits e < 0) : d.neg = true := by
  unfold signedUnits at h
  split at h
  · assumption
  · omega

theorem nonneg_of_signedUnits_pos {e : ℤ} (h : 0 < d.signedUnits e) : d.neg = false := by
  unfold signedUnits at h
  split at h
  · omega
  · simp_all

theorem same_toInteger_iff (hs : d.sticky = false) :
    (d.toInteger m b).same d = true ↔ (((d.toInteger m b).signedUnits 0 : ℤ) : ℚ) = d.val := by
  rw [same_iff (toInteger_sticky hs) hs, ← toInteger_signedUnits]
  exact_mod_cast Iff.rfl

end
end Dy

end Sys2Proof.Machine

namespace Sys2Proof

open Machine

/-- An end of an integer format's range, with the flag and the counter of a value beyond it. -/
def Fmt.rangeEnd (f : Fmt) (low : Bool) : Converted :=
  { bits := if low then 2 ^ (f.bits - 1) else 2 ^ (f.bits - 1) - 1, flags := 16, stat := some .sat }

/-- The ends of a range of at least one bit, in two's complement. -/
theorem Fmt.encodeInt_ends {f : Fmt} (hf : 0 < f.bits) : f.encodeInt (-2 ^ (f.bits - 1)) = 2 ^ (f.bits - 1) ∧
    f.encodeInt (2 ^ (f.bits - 1) - 1) = 2 ^ (f.bits - 1) - 1 := by
  have hpow : (2 : ℤ) ^ f.bits = 2 * 2 ^ (f.bits - 1) := by rw [← pow_succ', Nat.sub_add_cancel hf]
  have hpos : (0 : ℤ) < 2 ^ (f.bits - 1) := by positivity
  have hcast : ((2 ^ (f.bits - 1) : ℕ) : ℤ) = 2 ^ (f.bits - 1) := by push_cast; rfl
  unfold encodeInt
  simp only [BitVec.toNat_ofInt, Nat.cast_pow, Nat.cast_ofNat, hpow]
  generalize (2 : ℤ) ^ (f.bits - 1) = p at hpos hcast ⊢
  constructor
  · rw [Int.emod_eq_add_self_emod, Int.emod_eq_of_lt (by omega) (by omega)]
    omega
  · rw [Int.emod_eq_of_lt (by omega) (by omega)]
    omega

section
variable {f : Fmt} {m : Rnd} {b : Word} {d : Dy}

/-- What the model delivers beyond a range is the end of the range. -/
theorem Fmt.rangeEnd_eq (hf : 0 < f.bits) (low : Bool) : f.rangeEnd low =
    { bits := f.encodeInt (if low then -(((2 ^ (f.bits - 1) : ℕ) : ℤ) - 1) - 1 else ((2 ^ (f.bits - 1) : ℕ) : ℤ) - 1)
      flags := flagNV, stat := some .sat } := by
  obtain ⟨hlow, hhigh⟩ := encodeInt_ends hf
  have hbottom : -(((2 ^ (f.bits - 1) : ℕ) : ℤ) - 1) - 1 = -2 ^ (f.bits - 1) := by push_cast; ring
  rw [hbottom, Nat.cast_pow, Nat.cast_ofNat]
  cases low with
  | false => rw [if_neg Bool.false_ne_true, hhigh]; rfl
  | true => rw [if_pos rfl, hlow]; rfl

theorem Fmt.convertInt_inf (hf : 0 < f.bits) (s : Bool) : f.convertInt m b (.inf s) = f.rangeEnd s := (rangeEnd_eq hf s).symm

theorem Fmt.convertInt_zero (hd : d.man = 0) : f.convertInt m b (.num d) = { bits := 0, flags := 0, stat := none } := if_pos hd

theorem Fmt.convertInt_num (hf : 0 < f.bits) (hd : d.man ≠ 0) : f.convertInt m b (.num d) =
    if (d.toInteger m b).signedUnits 0 < -2 ^ (f.bits - 1) ∨ 2 ^ (f.bits - 1) ≤ (d.toInteger m b).signedUnits 0 then
      f.rangeEnd (d.toInteger m b).neg
    else { bits := f.encodeInt ((d.toInteger m b).signedUnits 0), flags := if (d.toInteger m b).same d then 0 else flagNX,
           stat := if (d.toInteger m b).signedUnits 0 = 0 then some .ftz else none } := by
  refine (if_neg hd).trans (ite_congr ?_ (fun _ => (rangeEnd_eq hf _).symm) fun _ => rfl)
  have hpow : ((2 ^ (f.bits - 1) : ℕ) : ℤ) = 2 ^ (f.bits - 1) := by push_cast; rfl
  rw [Bool.or_eq_true, decide_eq_true_iff, decide_eq_true_iff, hpow]
  refine propext (or_congr ?_ ?_)
  · show (d.toInteger m b).signedUnits 0 < _ ↔ _
    rw [neg_sub, sub_sub_cancel_left]
  · exact Int.sub_one_lt_iff

/-- Convert to an integer format: the integer that rounding makes of the number, or the end of the range on its side. -/
theorem Fmt.convertInt_spec (hf : 0 < f.bits) (hs : d.sticky = false) : ∃ k : ℤ, RoundsTo m b d.val k ∧
    (k < -2 ^ (f.bits - 1) → f.convertInt m b (.num d) = f.rangeEnd true) ∧
    (2 ^ (f.bits - 1) ≤ k → f.convertInt m b (.num d) = f.rangeEnd false) ∧
    (-2 ^ (f.bits - 1) ≤ k → k < 2 ^ (f.bits - 1) → f.convertInt m b (.num d) =
      { bits := (BitVec.ofInt f.bits k).toNat, flags := if (k : ℚ) = d.val then 0 else 1,
        stat := if k = 0 ∧ d.val ≠ 0 then some .ftz else none }) := by
  have hpos : (0 : ℤ) < 2 ^ (f.bits - 1) := by positivity
  by_cases hd : d.man = 0
  · have hval : d.val = 0 := Dy.val_eq_zero_iff.mpr hd
    refine ⟨0, ?_, fun h => by omega, fun h => by omega, fun _ _ => ?_⟩
    · rw [hval]
      exact_mod_cast roundsTo_intCast m b 0
    · rw [convertInt_zero hd, hval]
      simp
  · have hval : d.val ≠ 0 := mt Dy.val_eq_zero_iff.mp hd
    refine ⟨_, Dy.roundsTo_toInteger hd hs, fun h => ?_, fun h => ?_, fun hlow hhigh => ?_⟩
    · rw [convertInt_num hf hd, if_pos (.inl h), Dy.neg_of_signedUnits_neg (h.trans (neg_neg_of_pos hpos))]
    · rw [convertInt_num hf hd, if_pos (.inr h), Dy.nonneg_of_signedUnits_pos (hpos.trans_le h)]
    · rw [convertInt_num hf hd, if_neg (by omega)]
      simp only [Dy.same_toInteger_iff hs, ne_eq, hval, not_false_eq_true, and_true]
      rfl

end
end Sys2Proof
end

section
/-!
O30, fourth part: the bytes of D2P8, their values and the canonical one of each value (R189, R190).
-/

set_option Elab.async false

namespace Sys2Proof.Machine

/-! ## The value of a byte (R189) -/

/-- A whole number of units of a power of two. -/
theorem Dy.val_int_mul (n e : ℤ) : ({ neg := n < 0, man := n.natAbs, exp := e, sticky := false } : Dy).val = n * 2 ^ e := by
  have h := Dy.val_ofInt n
  rw [Dy.val, Dy.ofInt, zpow_zero, mul_one] at h
  exact congrArg (· * (2 : ℚ) ^ e) h

/-- The number of a D2P8 byte. -/
def d2Number (x : Nat) : Dy := { neg := d2Value (x % 256) < 0, man := (d2Value (x % 256)).natAbs, exp := -6, sticky := false }

theorem decode_d2p8 (x : Nat) : Fmt.d2p8.decode x = .num (d2Number x) := rfl

theorem d2Number_val (x : Nat) : (d2Number x).val = d2Value (x % 256) / 64 := by
  rw [d2Number, Dy.val_int_mul, div_eq_mul_inv]
  norm_num

/-- A term with shift code `c` is 2^(1 - c), with code 0 it is zero. -/
theorem d2Term_div (t : Nat) : (d2Term t : ℚ) / 64 =
    if t % 8 = 0 then 0 else (if t < 8 then 1 else -1) * 2 ^ (1 - ((t % 8 : ℕ) : ℤ)) := by
  unfold d2Term
  by_cases hc : t % 8 = 0
  · simp [hc]
  have hpow : ((2 ^ (7 - t % 8) : ℕ) : ℚ) / 64 = 2 ^ (1 - ((t % 8 : ℕ) : ℤ)) := by
    have hexp : (1 - ((t % 8 : ℕ) : ℤ)) = ((7 - t % 8 : ℕ) : ℤ) - 6 := by omega
    rw [hexp, zpow_sub₀ two_ne_zero, zpow_natCast]
    norm_num
  rw [if_neg hc, ← hpow]
  by_cases ht : t < 8
  · simp [hc, ht, ht.not_ge]
  · simp [hc, ht, not_lt.mp ht, neg_div]

/-- Some byte has the value of `v` 64ths. -/
def D2Value (v : ℤ) : Prop := ∃ x, x < 256 ∧ d2Value x = v

theorem d2Value_byte {h l : Nat} (hh : h < 16) (hl : l < 16) : d2Value (16 * h + l) = d2Term h + d2Term l := by
  rw [d2Value, Nat.mul_add_div (by decide), Nat.div_eq_of_lt hl, Nat.mul_add_mod, Nat.mod_eq_of_lt hl, add_zero, Nat.mod_eq_of_lt hh]

/-- The byte of two terms. -/
theorem exists_terms {x : Nat} (hx : x < 256) : ∃ h l, h < 16 ∧ l < 16 ∧ x = 16 * h + l :=
  ⟨x / 16, x % 16, by omega, by omega, by omega⟩

theorem D2Value.neg {v : ℤ} (hv : D2Value v) : D2Value (-v) := by
  have hterm : ∀ t < 16, d2Term ((t + 8) % 16) = -d2Term t := by decide
  obtain ⟨x, hx, rfl⟩ := hv
  obtain ⟨h, l, hh, hl, rfl⟩ := exists_terms hx
  refine ⟨16 * ((h + 8) % 16) + (l + 8) % 16, by omega, ?_⟩
  rw [d2Value_byte (by omega) (by omega), d2Value_byte hh hl, hterm h hh, hterm l hl, neg_add]

theorem d2Value_le {x : Nat} (hx : x < 256) : d2Value x ≤ 128 := by
  have hterm : ∀ t < 16, d2Term t ≤ 64 := by decide
  obtain ⟨h, l, hh, hl, rfl⟩ := exists_terms hx
  rw [d2Value_byte hh hl]
  have := hterm h hh
  have := hterm l hl
  omega

theorem mem_d2Magnitudes {n : Nat} : n ∈ d2Magnitudes ↔ D2Value n := by
  have hany : ((List.range 256).any fun x => d2Value x == (n : ℤ)) = true ↔ D2Value n := by
    simp [D2Value]
  rw [d2Magnitudes, List.mem_filter, hany, List.mem_range, and_iff_right_iff_imp]
  rintro ⟨x, hx, hn⟩
  have := d2Value_le hx
  omega

/-! ## The canonical byte of a value (R190) -/

/-- The byte of lesser rank of two, the first of equals; 256 is none. -/
def rankStep (best b : Nat) : Nat := if best = 256 || d2Rank b < d2Rank best then b else best

theorem d2Encode_eq (v : ℤ) : d2Encode v = ((List.range 256).filter fun b => d2Value b == v).foldl rankStep 256 := rfl

theorem foldl_rankStep {best : Nat} {l : List Nat} (hbest : best ≠ 256) (hl : ∀ x ∈ l, x ≠ 256) :
    l.foldl rankStep best ∈ best :: l ∧ ∀ x ∈ best :: l, d2Rank (l.foldl rankStep best) ≤ d2Rank x := by
  induction l generalizing best with
  | nil => simp
  | cons b l ih =>
    have hl' : ∀ x ∈ l, x ≠ 256 := fun x hx => hl x (List.mem_cons_of_mem _ hx)
    rw [List.foldl_cons]
    by_cases hlt : d2Rank b < d2Rank best
    · have hstep : rankStep best b = b := by simp [rankStep, hlt]
      obtain ⟨hmem, hmin⟩ := ih (hl b List.mem_cons_self) hl'
      rw [hstep]
      refine ⟨List.mem_cons_of_mem _ hmem, fun x hx => ?_⟩
      rcases List.mem_cons.mp hx with rfl | hx
      · exact (hmin b List.mem_cons_self).trans hlt.le
      · exact hmin x hx
    · have hstep : rankStep best b = best := by simp [rankStep, hlt, hbest]
      obtain ⟨hmem, hmin⟩ := ih hbest hl'
      have hfirst := hmin best List.mem_cons_self
      rw [hstep]
      refine ⟨List.mem_cons.mpr ((List.mem_cons.mp hmem).imp_right (List.mem_cons_of_mem _)), fun x hx => ?_⟩
      rcases List.mem_cons.mp hx with rfl | hx
      · exact hfirst
      · rcases List.mem_cons.mp hx with rfl | hx
        · exact hfirst.trans (not_lt.mp hlt)
        · exact hmin x (List.mem_cons_of_mem _ hx)

/-- A byte of least rank among those of its value. -/
def Canonical (best : Nat) : Prop := best < 256 ∧ ∀ x, x < 256 → d2Value x = d2Value best → d2Rank best ≤ d2Rank x

/-- The encoding of a value is the canonical byte of that value. -/
theorem d2Encode_spec {v : ℤ} (hv : D2Value v) : d2Value (d2Encode v) = v ∧ Canonical (d2Encode v) := by
  have hmem (x : Nat) : x ∈ ((List.range 256).filter fun b => d2Value b == v) ↔ x < 256 ∧ d2Value x = v := by simp
  obtain ⟨x, hx⟩ := hv
  rw [d2Encode_eq]
  generalize (List.range 256).filter _ = l at hmem
  cases l with
  | nil => exact absurd ((hmem x).mpr hx) List.not_mem_nil
  | cons b l =>
    have hne : ∀ x ∈ b :: l, x ≠ 256 := fun x hx => ((hmem x).mp hx).1.ne
    have hstep : rankStep 256 b = b := rfl
    obtain ⟨hfound, hmin⟩ := foldl_rankStep (hne b List.mem_cons_self) fun x hx => hne x (List.mem_cons_of_mem _ hx)
    rw [List.foldl_cons, hstep]
    obtain ⟨hlt, hval⟩ := (hmem _).mp hfound
    exact ⟨hval, hlt, fun x hx hxv => hmin x ((hmem x).mpr ⟨hx, hxv.trans hval⟩)⟩

/-- The number of nonzero terms of a byte. -/
def d2Terms (x : Nat) : Nat := (if x / 16 % 8 = 0 then 0 else 1) + if x % 8 = 0 then 0 else 1

theorem d2Rank_byte : ∀ h < 16, ∀ l < 16,
    64 * d2Terms (16 * h + l) ≤ d2Rank (16 * h + l) ∧ d2Rank (16 * h + l) < 64 * d2Terms (16 * h + l) + 64 := by decide

/-- Two terms in the wrong order, or the one nonzero term in the low place, rank above the same terms exchanged. -/
theorem d2Rank_swap : ∀ h < 16, ∀ l < 16, l % 8 ≠ 0 → h % 8 = 0 ∨ l % 8 < h % 8 → d2Rank (16 * l + h) < d2Rank (16 * h + l) := by
  decide

/-- A zero term with sign 1 ranks above one with sign 0. -/
theorem d2Rank_signed_zero : ∀ h < 16, h % 8 ≠ 0 → d2Rank (16 * h + 0) < d2Rank (16 * h + 8) := by decide

theorem d2Rank_eq_zero : ∀ h < 16, ∀ l < 16, d2Rank (16 * h + l) = 0 → h = 0 ∧ l = 0 := by decide

/-- Two nonzero terms in order and of one sign have the least rank of two nonzero terms. -/
theorem d2Rank_same_signs : ∀ h < 16, ∀ l < 16, h % 8 ≠ 0 ∧ l % 8 ≠ 0 ∧ h % 8 ≤ l % 8 ∧ h / 8 = l / 8 → d2Rank (16 * h + l) = 128 := by
  decide

theorem d2Rank_mixed_signs : ∀ h < 16, ∀ l < 16, h % 8 ≠ 0 ∧ l % 8 ≠ 0 ∧ h / 8 ≠ l / 8 → 144 ≤ d2Rank (16 * h + l) := by decide

/-- The fields of a byte, of its terms. -/
theorem byte_fields : ∀ h < 16, ∀ l < 16, (16 * h + l) / 16 = h ∧ (16 * h + l) % 16 = l ∧ (16 * h + l) % 8 = l % 8 ∧
    (16 * h + l) / 128 = h / 8 ∧ (16 * h + l) / 8 % 2 = l / 8 := by decide

theorem d2Terms_count : ∀ h < 16, ∀ l < 16, (d2Terms (16 * h + l) = 2 ↔ h % 8 ≠ 0 ∧ l % 8 ≠ 0) ∧
    (d2Terms (16 * h + l) = 0 ↔ h % 8 = 0 ∧ l % 8 = 0) := by decide

theorem d2Term_zero : ∀ t < 16, t % 8 = 0 → d2Term t = 0 := by decide

section
variable {best : Nat} (hbest : Canonical best)
include hbest

/-- A canonical byte has no more nonzero terms than another byte of its value. -/
theorem Canonical.terms_le {x : Nat} (hx : x < 256) (hval : d2Value x = d2Value best) : d2Terms best ≤ d2Terms x := by
  obtain ⟨hlt, hmin⟩ := hbest
  have hle := hmin x hx hval
  obtain ⟨h, l, hh, hl, rfl⟩ := exists_terms hlt
  obtain ⟨i, j, hi, hj, rfl⟩ := exists_terms hx
  have := (d2Rank_byte h hh l hl).1
  have := (d2Rank_byte i hi j hj).2
  omega

/-- In a canonical byte a nonzero low term stands under a high term of no lesser magnitude. -/
theorem Canonical.ordered {h l : Nat} (hh : h < 16) (hl : l < 16) (e : best = 16 * h + l) (hne : l % 8 ≠ 0) :
    h % 8 ≠ 0 ∧ h % 8 ≤ l % 8 := by
  obtain ⟨-, hmin⟩ := hbest
  subst e
  have hswap : d2Rank (16 * h + l) ≤ d2Rank (16 * l + h) := hmin _ (by omega) (by
    rw [d2Value_byte hl hh, d2Value_byte hh hl, add_comm])
  have := mt (d2Rank_swap h hh l hl hne) hswap.not_gt
  omega

/-- Of two nonzero terms the canonical byte has both of one sign where a byte of its value does. -/
theorem Canonical.same_signs {h l i j : Nat} (hh : h < 16) (hl : l < 16) (e : best = 16 * h + l) (hi : i < 16) (hj : j < 16)
    (hval : d2Value (16 * i + j) = d2Value best) (hne : h % 8 ≠ 0 ∧ l % 8 ≠ 0)
    (hsame : i % 8 ≠ 0 ∧ j % 8 ≠ 0 ∧ i % 8 ≤ j % 8 ∧ i / 8 = j / 8) : h / 8 = l / 8 := by
  obtain ⟨-, hmin⟩ := hbest
  subst e
  have hle := hmin _ (by omega) hval
  rw [d2Rank_same_signs i hi j hj hsame] at hle
  by_contra hmixed
  have := d2Rank_mixed_signs h hh l hl ⟨hne.1, hne.2, hmixed⟩
  omega

/-- A canonical byte with a nonzero high term writes a zero low term with sign 0. -/
theorem Canonical.low_zero {h l : Nat} (hh : h < 16) (hl : l < 16) (e : best = 16 * h + l) (hne : h % 8 ≠ 0) (hzero : l % 8 = 0) :
    l = 0 := by
  obtain ⟨-, hmin⟩ := hbest
  subst e
  have hl8 : l ≠ 8 := by
    rintro rfl
    have hsame : d2Value (16 * h + 0) = d2Value (16 * h + 8) := by
      rw [d2Value_byte hh (by decide), d2Value_byte hh (by decide)]
      rfl
    exact (hmin _ (by omega) hsame).not_gt (d2Rank_signed_zero h hh hne)
  omega

/-- The canonical byte of zero is 0. -/
theorem Canonical.of_zero (hval : d2Value best = 0) : best = 0 := by
  obtain ⟨h, l, hh, hl, rfl⟩ := exists_terms hbest.1
  have hle := hbest.2 0 (by decide) (hval ▸ rfl)
  have hrank : d2Rank 0 = 0 := rfl
  obtain ⟨rfl, rfl⟩ := d2Rank_eq_zero h hh l hl (by omega)
  rfl

/-- What the tests of R190 say of a canonical byte and a byte `x` of its value. -/
theorem Canonical.tests {x : Nat} (hx : x < 256) (hval : d2Value x = d2Value best) :
    d2Terms best ≤ d2Terms x ∧
    (d2Terms best = 2 → best % 8 ≥ best / 16 % 8 ∧
      (d2Terms x = 2 → x % 8 ≥ x / 16 % 8 → x / 128 = x / 8 % 2 → best / 128 = best / 8 % 2)) ∧
    (d2Terms best = 1 → best % 16 = 0) ∧ (d2Terms best = 0 → best = 0) := by
  obtain ⟨h, l, hh, hl, e⟩ := exists_terms hbest.1
  obtain ⟨i, j, hi, hj, e'⟩ := exists_terms hx
  have hterms := d2Terms_count h hh l hl
  have hterms' := d2Terms_count i hi j hj
  obtain ⟨hhigh, hnibble, hlow, hsign, hsign'⟩ := byte_fields h hh l hl
  obtain ⟨ihigh, -, ilow, isign, isign'⟩ := byte_fields i hi j hj
  have hle := hbest.terms_le hx hval
  rw [← e] at hterms hhigh hnibble hlow hsign hsign'
  rw [← e'] at hterms' ihigh ilow isign isign'
  rw [hhigh, hlow, hsign, hsign', hnibble, ihigh, ilow, isign, isign']
  refine ⟨hle, fun htwo => ?_, fun hone => ?_, fun hzero => hbest.of_zero ?_⟩
  · have hne := hterms.1.mp htwo
    refine ⟨(hbest.ordered hh hl e hne.2).2, fun htwo' hord hsigns => ?_⟩
    obtain ⟨hi0, hj0⟩ := hterms'.1.mp htwo'
    exact hbest.same_signs hh hl e hi hj (e' ▸ hval) hne ⟨hi0, hj0, hord, hsigns⟩
  · have hnot2 : ¬ (h % 8 ≠ 0 ∧ l % 8 ≠ 0) := mt hterms.1.mpr (by omega)
    have hnot0 : ¬ (h % 8 = 0 ∧ l % 8 = 0) := mt hterms.2.mpr (by omega)
    have hl0 : l % 8 = 0 := by
      by_contra hne
      exact hnot2 ⟨(hbest.ordered hh hl e hne).1, hne⟩
    exact hbest.low_zero hh hl e (fun hh0 => hnot0 ⟨hh0, hl0⟩) hl0
  · obtain ⟨hh0, hl0⟩ := hterms.2.mp hzero
    rw [e, d2Value_byte hh hl, d2Term_zero h hh hh0, d2Term_zero l hl hl0, add_zero]

end

end Sys2Proof.Machine
end

section
/-!
O30, fifth part: Convert to D2P8 (R193, R194).
-/

set_option Elab.async false

namespace Sys2Proof.Machine

/-! ## The neighbours of a magnitude (R194) -/

/-- The greatest of a first number and a list. -/
theorem foldl_max_spec (l : List Nat) (a : Nat) : l.foldl max a ∈ a :: l ∧ ∀ x ∈ a :: l, x ≤ l.foldl max a :=
  List.max?_eq_some_iff.mp List.max?_cons'

/-- The least of a first number and a list. -/
theorem foldl_min_spec (l : List Nat) (a : Nat) : l.foldl min a ∈ a :: l ∧ ∀ x ∈ a :: l, l.foldl min a ≤ x :=
  List.min?_eq_some_iff.mp List.min?_cons'

/-- The exponent at which a magnitude and the 64ths of D2P8 are whole. -/
def d2Exp (d : Dy) : ℤ := min d.exp (-6)

/-- A 64th counted in that unit. -/
def d2Unit (d : Dy) : Nat := 2 ^ (-6 - d2Exp d).toNat

section
variable {d : Dy}

theorem d2Unit_mul (d : Dy) : (d2Unit d : ℚ) * 2 ^ d2Exp d = 1 / 64 := by
  have hle : d2Exp d ≤ -6 := min_le_right ..
  rw [d2Unit, Nat.cast_pow, Nat.cast_ofNat, ← zpow_natCast, ← zpow_add₀ two_ne_zero, Int.toNat_of_nonneg (by omega), sub_add_cancel]
  norm_num

theorem units_d2Exp_mul (d : Dy) : (d.units (d2Exp d) : ℚ) * 2 ^ d2Exp d = |d.val| := by
  apply Rat.cast_injective (α := ℝ)
  push_cast
  exact Dy.units_mul d (min_le_left ..)

theorem zero_mem_d2Magnitudes : 0 ∈ d2Magnitudes := mem_d2Magnitudes.mpr ⟨0, by decide, by decide⟩

theorem two_mem_d2Magnitudes : 128 ∈ d2Magnitudes := mem_d2Magnitudes.mpr ⟨0x11, by decide, by decide⟩

/-- The lower neighbour is the greatest magnitude of D2P8 that is not above. -/
theorem d2Bracket_lo (d : Dy) : (d2Bracket d).lo ∈ d2Magnitudes ∧ (d2Bracket d).lo * d2Unit d ≤ d.units (d2Exp d) ∧
    ∀ v ∈ d2Magnitudes, v * d2Unit d ≤ d.units (d2Exp d) → v ≤ (d2Bracket d).lo := by
  have hmem (v : Nat) : v ∈ (d2Magnitudes.filter fun v => v * d2Unit d ≤ d.units (d2Exp d)) ↔
      v ∈ d2Magnitudes ∧ v * d2Unit d ≤ d.units (d2Exp d) := by simp
  obtain ⟨hlo, hmax⟩ := foldl_max_spec (d2Magnitudes.filter fun v => v * d2Unit d ≤ d.units (d2Exp d)) 0
  have hin : (d2Bracket d).lo ∈ d2Magnitudes ∧ (d2Bracket d).lo * d2Unit d ≤ d.units (d2Exp d) := by
    rcases List.mem_cons.mp hlo with e | hlo
    · have hzero : (d2Bracket d).lo = 0 := e
      rw [hzero, Nat.zero_mul]
      exact ⟨zero_mem_d2Magnitudes, Nat.zero_le _⟩
    · exact (hmem _).mp hlo
  exact ⟨hin.1, hin.2, fun v hv hle => hmax v (List.mem_cons_of_mem _ ((hmem v).mpr ⟨hv, hle⟩))⟩

/-- Below 2 the upper neighbour is the least magnitude of D2P8 that is above. -/
theorem d2Bracket_hi (h : d.units (d2Exp d) < 128 * d2Unit d) : (d2Bracket d).hi ∈ d2Magnitudes ∧
    d.units (d2Exp d) < (d2Bracket d).hi * d2Unit d ∧
    ∀ v ∈ d2Magnitudes, d.units (d2Exp d) < v * d2Unit d → (d2Bracket d).hi ≤ v := by
  have hmem (v : Nat) : v ∈ (d2Magnitudes.filter fun v => d.units (d2Exp d) < v * d2Unit d) ↔
      v ∈ d2Magnitudes ∧ d.units (d2Exp d) < v * d2Unit d := by simp
  obtain ⟨hhi, hmin⟩ := foldl_min_spec (d2Magnitudes.filter fun v => d.units (d2Exp d) < v * d2Unit d) 129
  have hle : ∀ v ∈ d2Magnitudes, d.units (d2Exp d) < v * d2Unit d → (d2Bracket d).hi ≤ v :=
    fun v hv hlt => hmin v (List.mem_cons_of_mem _ ((hmem v).mpr ⟨hv, hlt⟩))
  have hin : (d2Bracket d).hi ∈ d2Magnitudes ∧ d.units (d2Exp d) < (d2Bracket d).hi * d2Unit d := by
    rcases List.mem_cons.mp hhi with e | hhi
    · have htop : (d2Bracket d).hi = 129 := e
      have := hle 128 two_mem_d2Magnitudes h
      omega
    · exact (hmem _).mp hhi
  exact ⟨hin.1, hin.2, hle⟩

/-- Whether a mode takes the upper of the two neighbours `lo` and `hi` of the magnitude `u` of a number (R194). -/
def TakesNeighbour (m : Rnd) (b : Word) (neg : Bool) (lo hi u : ℚ) : Prop :=
  match m with
  | .rtz => False
  | .rdn => neg = true
  | .rup => neg = false
  | .rne => hi - u < u - lo
  | .rna => hi - u ≤ u - lo
  | .rsr => 2 ^ 32 ≤ ⌊(u - lo) / (hi - lo) * 2 ^ 32⌋ + (b.toNat : Int)

theorem d2Bracket_exact_iff : (d2Bracket d).exact = true ↔ d.units (d2Exp d) = (d2Bracket d).lo * d2Unit d := by
  have hrem : (d2Bracket d).rem = d.units (d2Exp d) - (d2Bracket d).lo * d2Unit d := rfl
  have hexact : (d2Bracket d).exact = ((d2Bracket d).rem == 0 && !false) := rfl
  have hle := (d2Bracket_lo d).2.1
  rw [hexact, hrem, Bool.not_false, Bool.and_true, beq_iff_eq]
  omega

/-- A magnitude strictly between its neighbours takes the upper one as the mode says. -/
theorem d2Bracket_up_iff {m : Rnd} {b : Word} {neg : Bool} (hne : d.units (d2Exp d) ≠ (d2Bracket d).lo * d2Unit d)
    (hlt : d.units (d2Exp d) < (d2Bracket d).hi * d2Unit d) :
    (d2Bracket d).up m neg b = true ↔ TakesNeighbour m b neg ((d2Bracket d).lo / 64) ((d2Bracket d).hi / 64) |d.val| := by
  have hrem : (d2Bracket d).rem = d.units (d2Exp d) - (d2Bracket d).lo * d2Unit d := rfl
  have hden : (d2Bracket d).den = ((d2Bracket d).hi - (d2Bracket d).lo) * d2Unit d := rfl
  have hle := (d2Bracket_lo d).2.1
  have hsum : (d2Bracket d).den = (d2Bracket d).rem + ((d2Bracket d).hi * d2Unit d - d.units (d2Exp d)) := by
    rw [hden, hrem, Nat.sub_mul]
    omega
  have hpos : (0 : ℚ) < 2 ^ d2Exp d := by positivity
  -- the distances of the magnitude from its neighbours, in the bracket's unit
  have hbelow : |d.val| - (d2Bracket d).lo / 64 = (d2Bracket d).rem * 2 ^ d2Exp d := by
    rw [hrem, Nat.cast_sub hle, ← units_d2Exp_mul, div_eq_mul_one_div, ← d2Unit_mul d]
    push_cast
    ring
  have habove : (d2Bracket d).hi / 64 - |d.val| = ((d2Bracket d).den - (d2Bracket d).rem : ℕ) * 2 ^ d2Exp d := by
    rw [hsum, Nat.add_sub_cancel_left, Nat.cast_sub hlt.le, ← units_d2Exp_mul, div_eq_mul_one_div, ← d2Unit_mul d]
    push_cast
    ring
  have hexact : ¬ (d2Bracket d).exact = true := mt d2Bracket_exact_iff.mp hne
  have hsticky : (d2Bracket d).sticky = false := rfl
  have htie : (d2Bracket d).tieUp = false := rfl
  unfold Bracket.up TakesNeighbour
  rw [if_neg hexact]
  cases m with
  | rtz => simp
  | rdn => rfl
  | rup => simp
  | rne =>
    rw [hbelow, habove, mul_lt_mul_iff_left₀ hpos, Nat.cast_lt]
    simp [hsticky, htie]
    omega
  | rna =>
    rw [hbelow, habove, mul_le_mul_iff_left₀ hpos, Nat.cast_le]
    simp
    omega
  | rsr =>
    have hwidth : ((d2Bracket d).hi : ℚ) / 64 - (d2Bracket d).lo / 64 = (d2Bracket d).den * 2 ^ d2Exp d := by
      have hsplit : ((d2Bracket d).den - (d2Bracket d).rem) + (d2Bracket d).rem = (d2Bracket d).den := by omega
      rw [← hsplit, Nat.cast_add, add_mul, ← habove, ← hbelow]
      ring
    have hfloor : ⌊(|d.val| - (d2Bracket d).lo / 64) / ((d2Bracket d).hi / 64 - (d2Bracket d).lo / 64) * 2 ^ 32⌋ =
        ((d2Bracket d).rem * 2 ^ 32 / (d2Bracket d).den : ℕ) := by
      rw [hbelow, hwidth, mul_div_mul_right _ _ hpos.ne', div_mul_eq_mul_div]
      have hcast : ((d2Bracket d).rem : ℚ) * 2 ^ 32 = ((d2Bracket d).rem * 2 ^ 32 : ℕ) := by push_cast; rfl
      rw [hcast, Int.floor_div_natCast, Int.floor_natCast, Int.natCast_ediv]
    rw [hfloor, decide_eq_true_iff]
    norm_cast

/-- A number of 64ths in the bracket's unit. -/
theorem div_64_eq (d : Dy) (v : Nat) : (v : ℚ) / 64 = (v * d2Unit d : ℕ) * 2 ^ d2Exp d := by
  rw [div_eq_mul_one_div, ← d2Unit_mul d]
  push_cast
  ring

theorem div_64_le_iff {v : Nat} : (v : ℚ) / 64 ≤ |d.val| ↔ v * d2Unit d ≤ d.units (d2Exp d) := by
  rw [div_64_eq d, ← units_d2Exp_mul, mul_le_mul_iff_left₀ (by positivity), Nat.cast_le]

theorem le_div_64_iff {v : Nat} : |d.val| ≤ v / 64 ↔ d.units (d2Exp d) ≤ v * d2Unit d := by
  rw [div_64_eq d, ← units_d2Exp_mul, mul_le_mul_iff_left₀ (by positivity), Nat.cast_le]

/-- The magnitudes `lo` and `hi` of D2P8, in 64ths, are the neighbours of that of `d`; both are it where D2P8 holds it. -/
structure Neighbours (d : Dy) (lo hi : Nat) : Prop where
  lo_mem : lo ∈ d2Magnitudes
  hi_mem : hi ∈ d2Magnitudes
  lo_le : (lo : ℚ) / 64 ≤ |d.val|
  le_hi : |d.val| ≤ hi / 64
  none_between : ∀ v ∈ d2Magnitudes, lo < v → hi ≤ v
  exact : (hi : ℚ) / 64 = |d.val| → (lo : ℚ) / 64 = |d.val|

/-- A magnitude of D2P8 is the value of a byte. -/
theorem exists_byte_of_mem {v : Nat} (h : v ∈ d2Magnitudes) : ∃ x, x < 256 ∧ (d2Value x : ℚ) / 64 = v / 64 := by
  obtain ⟨x, hx, hv⟩ := mem_d2Magnitudes.mp h
  exact ⟨x, hx, by rw [hv, Int.cast_natCast]⟩

/-- No byte has a value between the neighbours. -/
theorem Neighbours.no_byte {lo hi x : Nat} (h : Neighbours d lo hi) (hx : x < 256) (hlo : (lo : ℚ) / 64 < d2Value x / 64) :
    (hi : ℚ) / 64 ≤ d2Value x / 64 := by
  rw [div_lt_div_iff_of_pos_right (by norm_num)] at hlo
  rw [div_le_div_iff_of_pos_right (by norm_num)]
  have hlo : (lo : ℤ) < d2Value x := by exact_mod_cast hlo
  obtain ⟨n, hn⟩ := Int.eq_ofNat_of_zero_le ((Int.natCast_nonneg lo).trans hlo.le)
  rw [hn, Int.cast_natCast, Nat.cast_le]
  exact h.none_between n (mem_d2Magnitudes.mpr ⟨x, hx, hn⟩) (by omega)

/-- What rounding to D2P8 makes of a magnitude of at most 2. -/
theorem d2Bracket_pick (m : Rnd) (b : Word) (hle : |d.val| ≤ 2) : ∃ lo hi : Nat, Neighbours d lo hi ∧
    (((d2Bracket d).pick m d.neg b).man = lo ∨ ((d2Bracket d).pick m d.neg b).man = hi) ∧
    ((lo : ℚ) / 64 = |d.val| → ((d2Bracket d).pick m d.neg b).man = lo) ∧
    ((lo : ℚ) / 64 < |d.val| → lo < hi ∧
      (((d2Bracket d).pick m d.neg b).man = hi ↔ TakesNeighbour m b d.neg (lo / 64) (hi / 64) |d.val|)) := by
  obtain ⟨hmem, hlo, hmax⟩ := d2Bracket_lo d
  have hman : ((d2Bracket d).pick m d.neg b).man = if (d2Bracket d).up m d.neg b then (d2Bracket d).hi else (d2Bracket d).lo := rfl
  have hlo' := div_64_le_iff.mpr hlo
  by_cases heq : d.units (d2Exp d) = (d2Bracket d).lo * d2Unit d
  · have hself : ((d2Bracket d).lo : ℚ) / 64 = |d.val| := le_antisymm hlo' (le_div_64_iff.mpr heq.le)
    have hup : (d2Bracket d).up m d.neg b = false := if_pos (d2Bracket_exact_iff.mpr heq)
    rw [hman, hup]
    exact ⟨_, _, ⟨hmem, hmem, hlo', hself.ge, fun v _ hv => hv.le, id⟩, .inl rfl, fun _ => rfl, fun hlt => absurd hself hlt.ne⟩
  · have htwo : d.units (d2Exp d) ≤ 128 * d2Unit d := le_div_64_iff.mp (by norm_num; exact hle)
    have hlt : d.units (d2Exp d) < 128 * d2Unit d := htwo.lt_of_ne fun e => by
      have := Nat.mul_le_mul_right (d2Unit d) (hmax 128 two_mem_d2Magnitudes e.ge)
      omega
    obtain ⟨hmem', hhi, hmin⟩ := d2Bracket_hi hlt
    have hne : ((d2Bracket d).lo : ℚ) / 64 ≠ |d.val| := fun e => heq (le_antisymm (le_div_64_iff.mp e.ge) hlo)
    have hne' : ((d2Bracket d).hi : ℚ) / 64 ≠ |d.val| := fun e => hhi.not_ge (div_64_le_iff.mp e.le)
    have hless : (d2Bracket d).lo < (d2Bracket d).hi := Nat.lt_of_mul_lt_mul_right (hlo.trans_lt hhi)
    refine ⟨(d2Bracket d).lo, (d2Bracket d).hi, ⟨hmem, hmem', hlo', le_div_64_iff.mpr hhi.le, fun v hv hlv => hmin v hv ?_,
      fun e => absurd e hne'⟩, ?_, fun e => absurd e hne, fun _ => ⟨hless, ?_⟩⟩
    · exact not_le.mp fun hv' => hlv.not_ge (hmax v hv hv')
    · rw [hman]
      split
      · exact .inr rfl
      · exact .inl rfl
    · rw [hman, ← d2Bracket_up_iff heq hhi]
      split
      · simp [*]
      · simp [*, hless.ne]

/-! ## Convert (R193) -/

section
variable (m : Rnd) (b : Word)

theorem d2Convert_zero (hd : d.man = 0) : d2Convert m b (.num d) = { bits := 0, flags := 0, stat := none } := if_pos hd

theorem two_magLt_iff (hs : d.sticky = false) : (Dy.pow2 1).magLt d = true ↔ 2 < |d.val| := by
  have htwo : |(Dy.pow2 1).val| = 2 := by norm_num [Dy.abs_val_rat, Dy.pow2]
  rw [Dy.magLt_iff_abs_val hs, htwo]

theorem d2Convert_beyond (hs : d.sticky = false) (h : 2 < |d.val|) :
    d2Convert m b (.num d) = { bits := if d.neg then 0x99 else 0x11, flags := 5, stat := some .sat } := by
  have hd : d.man ≠ 0 := fun e => by
    rw [Dy.val_eq_zero_iff.mpr e, abs_zero] at h
    norm_num at h
  exact (if_neg hd).trans (if_pos ((two_magLt_iff hs).mpr h))

theorem d2Convert_num (hd : d.man ≠ 0) (hs : d.sticky = false) (h : |d.val| ≤ 2) : d2Convert m b (.num d) =
    { bits := d2Encode (((d2Bracket d).pick m d.neg b).signedUnits (-6))
      flags := if ((d2Bracket d).pick m d.neg b).same d then 0 else flagNX
      stat := if ((d2Bracket d).pick m d.neg b).man = 0 then some .ftz else none } :=
  (if_neg hd).trans (if_neg (mt (two_magLt_iff hs).mp h.not_gt))

/-- The value of a byte in 64ths is its number. -/
theorem d2_value_iff {x : Nat} {v : ℚ} : (x < 256 ∧ ∃ d, Fmt.d2p8.decode x = .num d ∧ d.val = v) ↔ x < 256 ∧ (d2Value x : ℚ) / 64 = v := by
  refine and_congr_right fun hx => ?_
  have hval := d2Number_val x
  rw [Nat.mod_eq_of_lt hx] at hval
  rw [← hval, decode_d2p8]
  exact ⟨fun ⟨d, hd, hv⟩ => FVal.num.inj hd ▸ hv, fun hv => ⟨_, rfl, hv⟩⟩

/-- The number that rounding to D2P8 gives, of the sign of the number rounded. -/
theorem d2Bracket_pick_val : (((d2Bracket d).pick m d.neg b).signedUnits (-6) : ℚ) / 64 = ((d2Bracket d).pick m d.neg b).val ∧
    |((d2Bracket d).pick m d.neg b).val| = ((d2Bracket d).pick m d.neg b).man / 64 := by
  have hexp : ((d2Bracket d).pick m d.neg b).exp = -6 := rfl
  have hunits : ((d2Bracket d).pick m d.neg b).units (-6) = ((d2Bracket d).pick m d.neg b).man := by simp [Dy.units, hexp]
  constructor
  · rw [Dy.signedUnits, hunits, Dy.val, hexp]
    split <;> norm_num <;> ring
  · rw [Dy.abs_val_rat, hexp]
    norm_num
    ring

theorem d2Value_signedUnits {y : Dy} {e : ℤ} (h : D2Value (y.units e)) : D2Value (y.signedUnits e) := by
  unfold Dy.signedUnits
  split
  · exact h.neg
  · exact h

/-- The byte, the flag and the counter of a conversion of a magnitude of at most 2, zero or not. -/
theorem d2Convert_fields (hs : d.sticky = false) (h : |d.val| ≤ 2) :
    (d2Convert m b (.num d)).bits = d2Encode (((d2Bracket d).pick m d.neg b).signedUnits (-6)) ∧
    (d2Convert m b (.num d)).flags = (if ((d2Bracket d).pick m d.neg b).val = d.val then 0 else 1) ∧
    (d2Convert m b (.num d)).stat = (if ((d2Bracket d).pick m d.neg b).val = 0 ∧ d.val ≠ 0 then some .ftz else none) := by
  have hsame : ((d2Bracket d).pick m d.neg b).same d = true ↔ ((d2Bracket d).pick m d.neg b).val = d.val := by
    rw [Dy.same_iff rfl hs, Rat.cast_inj]
  by_cases hd : d.man = 0
  · obtain ⟨lo, hi, hnear, -, hexact, -⟩ := d2Bracket_pick (d := d) m b h
    have hzero : d.val = 0 := Dy.val_eq_zero_iff.mpr hd
    have hlo : (lo : ℚ) / 64 = |d.val| := le_antisymm hnear.lo_le (by rw [hzero, abs_zero]; positivity)
    have hman : ((d2Bracket d).pick m d.neg b).man = 0 := by
      rw [hexact hlo]
      simpa [hzero] using hlo
    have hunits : ((d2Bracket d).pick m d.neg b).signedUnits (-6) = 0 := by simp [Dy.signedUnits, Dy.units, hman]
    obtain ⟨hbits, hcanonical⟩ := d2Encode_spec (v := 0) ⟨0, by decide, by decide⟩
    rw [d2Convert_zero m b hd, hunits, hcanonical.of_zero hbits, Dy.val_eq_zero_iff.mpr hman, hzero]
    simp
  · have hne : d.val ≠ 0 := mt Dy.val_eq_zero_iff.mp hd
    rw [d2Convert_num m b hd hs h]
    simp only [hsame, ← Dy.val_eq_zero_iff, hne, ne_eq, not_false_eq_true, and_true, true_and]
    rfl

variable {m b}

/-- Convert of a magnitude of at most 2: the canonical byte of one of its neighbours, with the sign of the number. -/
theorem d2Convert_spec (hs : d.sticky = false) (h : |d.val| ≤ 2) : ∃ (y : ℚ) (lo hi : Nat), Neighbours d lo hi ∧
    (d2Value (d2Convert m b (.num d)).bits : ℚ) / 64 = y ∧ Canonical (d2Convert m b (.num d)).bits ∧
    y = (if d.neg then -1 else 1) * |y| ∧ (|y| = lo / 64 ∨ |y| = hi / 64) ∧ ((lo : ℚ) / 64 = |d.val| → |y| = lo / 64) ∧
    ((lo : ℚ) / 64 < |d.val| → (lo : ℚ) / 64 < hi / 64 ∧ (|y| = hi / 64 ↔ TakesNeighbour m b d.neg (lo / 64) (hi / 64) |d.val|)) ∧
    (d2Convert m b (.num d)).flags = (if y = d.val then 0 else 1) ∧
    (d2Convert m b (.num d)).stat = (if y = 0 ∧ d.val ≠ 0 then some .ftz else none) := by
  obtain ⟨lo, hi, hnear, hone, hexact, htakes⟩ := d2Bracket_pick (d := d) m b h
  obtain ⟨hval, habs⟩ := d2Bracket_pick_val (d := d) m b
  obtain ⟨hbits, hflags, hstat⟩ := d2Convert_fields m b hs h
  generalize hy : (d2Bracket d).pick m d.neg b = y at hone hexact htakes hval habs hbits hflags hstat
  have hneg : y.neg = d.neg := hy ▸ rfl
  have hmem : D2Value (y.units (-6)) := by
    have hunits : y.units (-6) = y.man := by simp [Dy.units, ← hy, Bracket.pick, d2Bracket]
    rw [hunits]
    rcases hone with e | e
    · exact e ▸ mem_d2Magnitudes.mp hnear.lo_mem
    · exact e ▸ mem_d2Magnitudes.mp hnear.hi_mem
  obtain ⟨hbyte, hcanonical⟩ := d2Encode_spec (d2Value_signedUnits hmem)
  have hinj (k : Nat) : |y.val| = k / 64 ↔ y.man = k := by
    rw [habs, div_left_inj' (by norm_num), Nat.cast_inj]
  refine ⟨y.val, lo, hi, hnear, ?_, hbits ▸ hcanonical, hneg ▸ Dy.val_eq_abs y, ?_, fun e => (hinj lo).mpr (hexact e), fun hlt => ?_,
    hflags, hstat⟩
  · rw [hbits, hbyte, hval]
  · rw [hinj, hinj]
    exact hone
  · obtain ⟨hless, hiff⟩ := htakes hlt
    refine ⟨?_, (hinj hi).trans hiff⟩
    rw [div_lt_div_iff_of_pos_right (by norm_num)]
    exact_mod_cast hless

end

end

end Sys2Proof.Machine
end

section
/-!
O30, sixth part: what a conversion word leaves (R191, R198, R206, R208).
-/

set_option Elab.async false

namespace Sys2Proof.Machine.State

/-! ## The counters of a block (R208) -/

@[simp] theorem addStat_group (s : State) (id : BitVec 8) (c : Option Stat) : (s.addStat id c).group = s.group := by
  unfold addStat; split <;> rfl
@[simp] theorem addStat_snap (s : State) (id : BitVec 8) (c : Option Stat) : (s.addStat id c).snap = s.snap := by
  unfold addStat; split <;> rfl

section
variable (s : State) (c : Nat → Converted)

@[simp] theorem countStats_group : (s.countStats c).group = s.group := foldl_proj State.group (fun _ _ => addStat_group ..) ..
@[simp] theorem countStats_snap : (s.countStats c).snap = s.snap := foldl_proj State.snap (fun _ _ => addStat_snap ..) ..

end

/-- Counter `k` of an identifier. -/
def statOf (s : State) (id : BitVec 8) (k : Nat) : Nat := (s.block.stats.get (4 * id.toNat + k) 0).toNat

/-- A counter rises where it is named, and holds at the top. -/
theorem addStat_statOf (s : State) (id : BitVec 8) (c : Option Stat) (k : Nat) : (s.addStat id c).statOf id k =
    min (2 ^ 32 - 1) (s.statOf id k + if c.map Stat.code = some k then 1 else 0) := by
  have hlt : s.statOf id k < 2 ^ 32 := BitVec.isLt _
  cases c with
  | none =>
    have hsame : (s.addStat id none).statOf id k = s.statOf id k := rfl
    simp [hsame]
    omega
  | some c =>
    by_cases hk : c.code = k
    · subst hk
      have hset : (s.addStat id (some c)).statOf id c.code = (BitVec.ofNat 32 (min 0xFFFFFFFF (s.statOf id c.code + 1))).toNat := by
        simp [addStat, statOf]
      rw [hset, BitVec.toNat_ofNat]
      simp
    · have hset : (s.addStat id (some c)).statOf id k = s.statOf id k := by
        have hkey : 4 * id.toNat + k ≠ 4 * id.toNat + c.code := by omega
        simp only [addStat, statOf, setBlock_block]
        rw [Table.get_set_of_ne _ _ _ hkey]
      simp [hset, hk]
      omega

/-- A counter rises by the number of active lanes that name it (R208). -/
theorem countStats_statOf {s : State} (h : s.snap = none) (c : Nat → Converted) (k : Nat) :
    (s.countStats c).statOf s.group.tensor k = min (2 ^ 32 - 1) (s.statOf s.group.tensor k +
      ((List.range 96).filter fun l => s.active.getLsbD l && ((c l).stat.map Stat.code == some k)).length) := by
  have hfold : ∀ (id : BitVec 8) (L : List Nat) (t : State), (L.foldl (fun t l => t.addStat id (c l).stat) t).statOf id k =
      min (2 ^ 32 - 1) (t.statOf id k + (L.filter fun l => (c l).stat.map Stat.code == some k).length) := by
    intro id L
    induction L with
    | nil =>
      intro t
      have hlt : t.statOf id k < 2 ^ 32 := BitVec.isLt _
      simp
      omega
    | cons l L ih =>
      intro t
      rw [List.foldl_cons, ih, addStat_statOf, List.filter_cons]
      by_cases hl : (c l).stat.map Stat.code = some k
      · simp [hl]
        omega
      · simp [hl]
        omega
  unfold countStats
  rw [vgroup_of_none h, hfold, LaneMask.list, Sys2Proof.lanes, List.filter_filter]
  simp only [Bool.and_comm]

/-! ## Results of a format (R191) -/

theorem writeVPair_lane (s : State) (d : VReg) (f : Nat → DWord) {l : Nat} (hl : l < 96) (ha : s.active.getLsbD l = true) :
    (vectorOf (s.writeVPair d f).group d.toNat).lane l = (f l).lo ∧
    (d.toNat < 127 → (vectorOf (s.writeVPair d f).group (d.toNat + 1)).lane l = (f l).hi) := by
  have hne : d.toNat ≠ (d + 1).toNat := by bv_omega
  have ha' : (s.writeV d fun l => (f l).lo).active.getLsbD l = true := by rw [writeV_active, ha]
  rw [writeVPair, writeV]
  constructor
  · rw [writeLanes_lane _ _ _ _ _ hl, if_neg fun h => hne h.1, writeV, writeLanes_lane _ _ _ _ _ hl, if_pos ⟨rfl, ha⟩]
  · intro hd
    have hnext : d.toNat + 1 = (d + 1).toNat := by bv_omega
    rw [writeLanes_lane _ _ _ _ _ hl, if_pos ⟨hnext, ha'⟩]

section
variable (s : State) (f : Fmt) (d : VReg) (c : Nat → Nat)

theorem writeFormat_group : ∃ v, (s.writeFormat f d c).group = { s.group with v := v } := by
  unfold writeFormat
  split
  · rw [writeVPair, writeV, writeLanes_group, writeV, writeLanes_group]
    exact ⟨_, rfl⟩
  · rw [writeV, writeLanes_group]
    exact ⟨_, rfl⟩

theorem writeFormat_snap : (s.writeFormat f d c).snap = s.snap := by
  unfold writeFormat writeVPair; split <;> simp

theorem writeFormat_blocks : (s.writeFormat f d c).blocks = s.blocks := by
  unfold writeFormat writeVPair; split <;> simp

/-- A register receives a result, the second register of a pair its upper half. -/
theorem writeFormat_lane {l : Nat} (hl : l < 96) (ha : s.active.getLsbD l = true) :
    (vectorOf (s.writeFormat f d c).group d.toNat).lane l = BitVec.ofNat 32 (f.extend (c l)) ∧
    (f.wide = true → d.toNat < 127 →
      (vectorOf (s.writeFormat f d c).group (d.toNat + 1)).lane l = BitVec.ofNat 32 (f.extend (c l) / 2 ^ 32)) := by
  unfold writeFormat
  split
  · obtain ⟨hlow, hhigh⟩ := writeVPair_lane s d (fun l => BitVec.ofNat 64 (f.extend (c l))) hl ha
    rw [lo_ofNat] at hlow
    rw [hi_ofNat] at hhigh
    exact ⟨hlow, fun _ => hhigh⟩
  · next hwide =>
    refine ⟨?_, fun h => absurd h hwide⟩
    rw [writeV, writeLanes_lane _ _ _ _ _ hl, if_pos ⟨rfl, ha⟩]

end

/-! ## A conversion word (R198) -/

/-- What a conversion word leaves, `c l` being lane `l`'s conversion. -/
def LeavesConverted (s t : State) (dst : Fmt) (d : VReg) (c : Nat → Converted) : Prop :=
  t.last = .done ∧ t.split.pc = (if s.split.word < 2 then s.split.pc else s.split.pc + 1) ∧
  t.split.word = (if s.split.word < 2 then s.split.word + 1 else 0) ∧
  (∀ l, l < 96 → s.active.getLsbD l = true →
    (vectorOf t.group d.toNat).lane l = BitVec.ofNat 32 (dst.extend (c l).bits) ∧
    (dst.wide = true → d.toNat < 127 →
      (vectorOf t.group (d.toNat + 1)).lane l = BitVec.ofNat 32 (dst.extend (c l).bits / 2 ^ 32))) ∧
  (∀ l, l < 96 → s.active.getLsbD l = false → ∀ r, (vectorOf t.group r).lane l = (vectorOf s.group r).lane l) ∧
  (∀ k, k < 5 → (t.group.fps.getLsbD k = true ↔ s.group.fps.getLsbD k = true ∨
    ∃ l, l < 96 ∧ s.active.getLsbD l = true ∧ (c l).flags.getLsbD k = true)) ∧
  (∀ k, k < 4 → (t.block.stats.get (4 * s.group.tensor.toNat + k) 0).toNat =
    min (2 ^ 32 - 1) ((s.block.stats.get (4 * s.group.tensor.toNat + k) 0).toNat +
      ((List.range 96).filter fun l => s.active.getLsbD l && ((c l).stat.map Stat.code == some k)).length)) ∧
  s.SameMemory t

/-- What a conversion word may write. -/
def convertWrites (s : State) (d : VReg) : Writes :=
  { dests := [Reg.v d.toNat, Reg.v (d + 1).toNat], lanes := s.active, raises := True, counts := True }

section
variable (s : State) (dst : Fmt) (d : VReg) (c : Nat → Converted)

/-- The state of a conversion word before it is done. -/
def converted : State :=
  ((s.countStats c).writeFormat dst d fun l => (c l).bits).raiseFlags (orFlags s.active fun l => (c l).flags)

theorem converted_frame : Frame (convertWrites s d) s (s.converted dst d c) := by
  have hwrite : Frame (convertWrites s d) (s.countStats c) ((s.countStats c).writeFormat dst d fun l => (c l).bits) := by
    have hlanes : (convertWrites s d).lanes = (s.countStats c).active := (countStats_active s c).symm
    have hlow : Reg.v d.toNat ∈ (convertWrites s d).dests := List.mem_cons_self
    have hhigh : Reg.v (d + 1).toNat ∈ (convertWrites s d).dests := List.mem_cons_of_mem _ List.mem_cons_self
    unfold writeFormat
    split
    · exact .writeVPair _ hlow hhigh hlanes
    · exact .writeV _ hlow hlanes
  exact ((Frame.countStats c trivial).trans hwrite).trans (.raiseFlags _ trivial)

theorem converted_group : ∃ v, ((s.countStats c).writeFormat dst d fun l => (c l).bits).group = { s.group with v := v } ∧
    (s.converted dst d c).group = { s.group with v := v, fps := s.group.fps ||| orFlags s.active fun l => (c l).flags } := by
  obtain ⟨v, hv⟩ := writeFormat_group (s.countStats c) dst d fun l => (c l).bits
  rw [countStats_group] at hv
  exact ⟨v, hv, by rw [converted, raiseFlags_group, hv]⟩

theorem converted_split : (s.converted dst d c).split = s.split := by
  obtain ⟨v, -, hgroup⟩ := converted_group s dst d c
  rw [split, hgroup, (converted_frame s dst d c).cur]
  rfl

theorem converted_snap (h : s.snap = none) : (s.converted dst d c).snap = none := by
  unfold converted raiseFlags
  simp [writeFormat_snap, h]

theorem converted_block : (s.converted dst d c).block = (s.countStats c).block := by
  obtain ⟨v, -, hgroup⟩ := converted_group s dst d c
  have hblocks : (s.converted dst d c).blocks = (s.countStats c).blocks := by rw [converted, raiseFlags_blocks, writeFormat_blocks]
  rw [block, blockAt, hblocks, hgroup, block, blockAt, countStats_group]

theorem leavesConverted (h : s.snap = none) : s.LeavesConverted (s.converted dst d c).done dst d c := by
  obtain ⟨v, hwritten, hgroup⟩ := converted_group s dst d c
  have hsnap := converted_snap s dst d c h
  have hframe := (converted_frame s dst d c).done
  have hdone := done_group_of_none hsnap
  obtain ⟨hpc, hword⟩ := done_place hsnap
  rw [converted_split] at hpc hword
  have hvectors (q : Nat) : vectorOf (s.converted dst d c).done.group q =
      vectorOf ((s.countStats c).writeFormat dst d fun l => (c l).bits).group q := by
    rw [hdone, hgroup, hwritten]
    exact vectorOf_congr rfl rfl rfl q
  have hblock : (s.converted dst d c).done.block = (s.countStats c).block := by
    rw [← converted_block, block, blockAt, done_blocks, hdone]
    rfl
  refine ⟨done_last _, hpc, hword, fun l hl ha => ?_, fun l hl ha r => hframe.group.lanes r l hl ha, fun k hk => ?_, fun k _ => ?_,
    hframe.sameMemory⟩
  · rw [hvectors, hvectors]
    exact writeFormat_lane _ dst d _ hl (by rw [countStats_active, ha])
  · rw [hdone, hgroup, BitVec.getLsbD_or, Bool.or_eq_true, orFlags_getLsbD]
  · rw [hblock]
    exact countStats_statOf h c k

end

/-- A conversion word converts each active lane's value, under RSR with the lane's random word. -/
theorem exec_convert_leaves {i : Instr} {s : State} {inf : Bool} {d a : VReg} {dst src : Fmt} {m : Rnd} (h : s.snap = none)
    (hexec : exec i s = s.issue i fun t => t.convertWord inf d a dst src m) (hi : s.Issues i.facts) :
    ∃ t, exec i s = .next t ∧ s.LeavesConverted t dst d fun l =>
      dst.convert inf m (s.readV (if src.wide then a + 2 else a + 1) l)
        (src.decode (if src.wide then (s.readVPair a l).toNat else (s.readV a l).toNat)) :=
  ⟨_, hexec.trans (issue_eq hi _), leavesConverted s dst d _ h⟩

end Sys2Proof.Machine.State
end

section
/-!
O30, seventh part: the formats of the spec (R184 to R191), and the obligation settled.
-/

set_option Elab.async false

namespace Sys2Proof.Machine

namespace Bin

/-- The formats of R185 and R188. -/
def all : List Bin := [.e4m3, .e5m2, .e3m2, .e2m3, .e2m1, .bf16, .f16, .f32, .f64, .sc12]

theorem special_of_mem_ieee : ∀ f ∈ [Bin.e5m2, .bf16, .f16, .f32, .f64], f.special = .ieee ∧ 0 < f.frac := by decide
theorem special_of_mem_none : ∀ f ∈ [Bin.e3m2, .e2m3, .e2m1], f.special = .none := by decide
theorem signed_iff_of_mem : ∀ f ∈ all, f.signed = true ↔ f ≠ .sc12 := by decide

section
variable {f : Bin} {x : Nat}

/-- The sign bit, in a format that has one (R185, R188). -/
theorem sign_iff (hf : f ∈ all) : f.sign x = true ↔ f ≠ .sc12 ∧ x / 2 ^ (f.ebits + f.frac) % 2 = 1 := by
  rw [sign, Bool.and_eq_true, signed_iff_of_mem f hf, signAt, Nat.testBit_eq_decide_div_mod_eq, decide_eq_true_iff]

/-- The top bit of a mantissa is clear in the lower half of its range. -/
theorem not_testBit_top {m k : Nat} (hk : 0 < k) (hm : m < 2 ^ k) : (!m.testBit (k - 1)) = decide (m < 2 ^ (k - 1)) := by
  have hpow : 2 ^ k = 2 * 2 ^ (k - 1) := by rw [← pow_succ', Nat.sub_add_cancel hk]
  rw [Nat.testBit_eq_decide_div_mod_eq, Bool.eq_iff_iff, Bool.not_eq_true', decide_eq_false_iff_not, decide_eq_true_iff]
  rcases lt_or_ge m (2 ^ (k - 1)) with h | h
  · simp [Nat.div_eq_of_lt h, h]
  · have hone : m / 2 ^ (k - 1) = 1 := Nat.div_eq_of_lt_le (by omega) (by omega)
    simp [hone, h]

/-- The special encodings of the formats with infinities (R185, R186). -/
theorem decode_top_of_ieee (hf : f ∈ [Bin.e5m2, .bf16, .f16, .f32, .f64]) (he : f.exponent x = f.topField) :
    (f.fraction x = 0 → f.decode x = .inf (f.sign x)) ∧
    (f.fraction x ≠ 0 → f.decode x = .nan (decide (f.fraction x < 2 ^ (f.frac - 1)))) := by
  obtain ⟨hs, hfrac⟩ := special_of_mem_ieee f hf
  rw [decode_ieee_top hs he]
  refine ⟨fun hm => if_pos hm, fun hm => ?_⟩
  rw [if_neg hm, not_testBit_top hfrac fraction_lt]

end
end Bin

end Sys2Proof.Machine

namespace Sys2Proof

open Machine

/-- The floating formats, each with its layout. -/
def Fmt.floats : List (Fmt × Bin) := [(.e4m3, .e4m3), (.e5m2, .e5m2), (.e3m2, .e3m2), (.e2m3, .e2m3), (.e2m1, .e2m1),
  (.bf16, .bf16), (.f16, .f16), (.f32, .f32), (.f64, .f64), (.sc12, .sc12)]

/-- How a floating format is named in the statement, and how in the model. -/
theorem Fmt.floats_special : ∀ p ∈ floats, (p.1 = .sc12 ↔ p.2.signed = false) ∧ (p.1 = .e4m3 ↔ p.2.special = .e4m3) ∧
    (p.1 ∈ [Fmt.e3m2, .e2m3, .e2m1] ↔ p.2.special = .none) ∧ (p.1 ∈ [Fmt.e5m2, .bf16, .f16, .f32, .f64] ↔ p.2.special = .ieee) ∧
    0 < p.2.ebits ∧ (p.2.special = .e4m3 → p.2 = .e4m3) := by decide

theorem Fmt.convert_float {D : Fmt} {f : Bin} (h : (D, f) ∈ floats) (inf : Bool) (m : Rnd) (b : Word) (x : FVal) :
    D.convert inf m b x = f.convert inf m b x := by
  simp only [floats, List.mem_cons, Prod.mk.injEq, List.not_mem_nil, or_false] at h
  rcases h with ⟨rfl, rfl⟩ | ⟨rfl, rfl⟩ | ⟨rfl, rfl⟩ | ⟨rfl, rfl⟩ | ⟨rfl, rfl⟩ | ⟨rfl, rfl⟩ | ⟨rfl, rfl⟩ | ⟨rfl, rfl⟩ |
    ⟨rfl, rfl⟩ | ⟨rfl, rfl⟩ <;> rfl

/-- The integer formats, each with its width. -/
theorem Fmt.convert_int {D : Fmt} {n : Nat} (h : (D, n) ∈ [(Fmt.i8, 8), (.i16, 16), (.i32, 32), (.i64, 64)]) :
    D.bits = n ∧ ∀ inf m b x, D.convert inf m b x = D.convertInt m b x := by
  simp only [List.mem_cons, Prod.mk.injEq, List.not_mem_nil, or_false] at h
  rcases h with ⟨rfl, rfl⟩ | ⟨rfl, rfl⟩ | ⟨rfl, rfl⟩ | ⟨rfl, rfl⟩ <;> exact ⟨rfl, fun _ _ _ _ => rfl⟩

/-- The value of an integer encoding (R187). -/
theorem Fmt.decode_int {n : Nat} (h : n ∈ [8, 16, 32, 64]) (x : Nat) :
    Fmt.decode (if n = 8 then .i8 else if n = 16 then .i16 else if n = 32 then .i32 else .i64) x =
      .num (Dy.ofInt (BitVec.ofNat n x).toInt) := by
  simp only [List.mem_cons, List.not_mem_nil, or_false] at h
  rcases h with rfl | rfl | rfl | rfl <;> rfl

/-- A narrow integer as a register holds it (R191). -/
theorem signExtend_toNat_eq {w : Nat} (x : BitVec w) : BitVec.ofNat 32 (x.signExtend 32).toNat = BitVec.ofInt 32 x.toInt := by
  rw [BitVec.ofNat_toNat, BitVec.setWidth_eq, BitVec.signExtend]

end Sys2Proof

namespace Sys2Proof.Machine

/-- A conversion beyond the largest finite value, as the statement and as the model give it. -/
theorem beyond_eq {D : Fmt} {f : Bin} (h : (D, f) ∈ Fmt.floats) (inf neg : Bool) (flags : Flags) : f.beyond inf neg flags =
    if inf then { bits := if D = .e4m3 then (if neg then 0xFF else 0x7F) else f.inf neg, flags, stat := some .inf }
    else { bits := f.withSign (neg && D != .sc12) (f.encode f.largest), flags, stat := some .sat } := by
  obtain ⟨hscale, he4m3, -, -, -, hlayout⟩ := Fmt.floats_special _ h
  dsimp only at hscale he4m3 hlayout
  have hpast : (if f.special = .e4m3 then f.withSign neg 0x7F else f.inf neg) =
      if D = .e4m3 then (if neg then 0xFF else 0x7F) else f.inf neg := by
    by_cases hs : f.special = .e4m3
    · rw [if_pos hs, if_pos (he4m3.mpr hs), hlayout hs]
      cases neg <;> rfl
    · rw [if_neg hs, if_neg (mt he4m3.mp hs)]
  have hbits : f.withSign (neg && D != .sc12) (f.encode f.largest) = f.withSign neg (f.encode f.largest) := by
    by_cases hD : D = .sc12
    · simp [Bin.withSign, hscale.mp hD]
    · rw [bne_iff_ne.mpr hD, Bool.and_true]
  rw [Bin.beyond, hpast, hbits]

/-- The number that a conversion to a floating format rounds: to SC12 the magnitude. -/
theorem operand_val_eq {D : Fmt} {f : Bin} (h : (D, f) ∈ Fmt.floats) (d : Dy) :
    ((f.operand d).val : ℝ) = if D = .sc12 then |(d.val : ℝ)| else d.val := by
  obtain ⟨hscale, -⟩ := Fmt.floats_special _ h
  unfold Bin.operand
  by_cases hD : D = .sc12
  · rw [if_pos hD, if_neg (by rw [hscale.mp hD]; exact Bool.false_ne_true), Dy.val_abs, Rat.cast_abs]
  · have hsigned : f.signed = true := by simpa using mt hscale.mpr hD
    rw [if_neg hD, if_pos hsigned]

/-- Numbers of one sign are ordered as their magnitudes, or the other way round. -/
theorem le_iff_of_sign {x y : ℚ} {neg : Bool} (hx : x = (if neg then -1 else 1) * |x|) (hy : y = (if neg then -1 else 1) * |y|) :
    x ≤ y ↔ if neg then |y| ≤ |x| else |x| ≤ |y| := by
  rw [hx, hy]
  cases neg <;> simp

/-- Toward negative infinity a negative number takes its upper neighbour. -/
theorem Neighbours.le_of_rdn {d : Dy} {lo hi : Nat} {y : ℚ} (h : Neighbours d lo hi) (hy : y = (if d.neg then -1 else 1) * |y|)
    (hone : |y| = lo / 64 ∨ |y| = hi / 64) (hup : |y| = hi / 64 ↔ d.neg = true) : y ≤ d.val := by
  rw [le_iff_of_sign hy d.val_eq_abs]
  split
  · next hneg => rw [hup.mpr hneg]; exact h.le_hi
  · next hneg => rw [hone.resolve_right (mt hup.mp hneg)]; exact h.lo_le

/-- Toward positive infinity a positive number takes its upper neighbour. -/
theorem Neighbours.ge_of_rup {d : Dy} {lo hi : Nat} {y : ℚ} (h : Neighbours d lo hi) (hy : y = (if d.neg then -1 else 1) * |y|)
    (hone : |y| = lo / 64 ∨ |y| = hi / 64) (hup : |y| = hi / 64 ↔ d.neg = false) : d.val ≤ y := by
  rw [le_iff_of_sign d.val_eq_abs hy]
  split
  · next hneg => rw [hone.resolve_right (mt hup.mp (by simp [hneg]))]; exact h.lo_le
  · next hneg => rw [hup.mpr (Bool.eq_false_iff.mpr hneg)]; exact h.le_hi

end Sys2Proof.Machine

open Sys2Proof Sys2Proof.Machine Sys2Proof.Machine.State

/-- Settles O30: a conversion word converts lane by lane (`exec_convert_leaves`); a rounded number that is not beyond the largest is one
that the format holds, so its encoding has its value (`Bin.convert_spec`, by `Bin.Holds.encode_spec`); an integer is the one that
rounding makes (`Fmt.convertInt_spec`), a D2P8 byte the canonical one of a neighbour (`d2Convert_spec`). -/
theorem conversions : Obligations.Conversions := by
  unfold Obligations.Conversions
  refine ⟨fun s d a dst src m h => ⟨exec_convert_leaves h (exec_cvts ..), exec_convert_leaves h (exec_cvti ..)⟩,
    ⟨fun f x hf => ?_, by decide, by decide, fun n x hn => ?_, fun x => ?_, fun x => ?_, fun x => ?_, fun f x => ?_⟩,
    fun inf m b => ⟨fun D n hD => ?_, fun D f hD hinf => ?_, ?_⟩⟩
  · intro e m top sign
    have hsign : f.sign x = decide sign := by rw [Bool.eq_iff_iff, decide_eq_true_iff]; exact Bin.sign_iff hf
    refine ⟨fun hieee htop => ?_, fun he htop hm => ?_, fun he htop => ?_, fun hnum => ?_⟩
    · rw [← hsign]
      exact Bin.decode_top_of_ieee hieee htop
    · subst he
      exact Bin.decode_e4m3_nan rfl htop hm
    · subst he
      exact Bin.decode_scale_top rfl htop
    · refine ⟨f.number x, Bin.decode_of_isNumber fun htop => ?_, Bin.number_sticky, ?_, Bin.abs_number_val⟩
      · rcases hnum with hnot | hnone | ⟨he, hm⟩
        · exact absurd htop hnot
        · exact .inl (Bin.special_of_mem_none f hnone)
        · subst he
          exact .inr ⟨rfl, hm⟩
      · rw [Bin.number_neg, hsign, decide_eq_true_iff]
  · refine ⟨_, Fmt.decode_int hn x, rfl, Dy.val_ofInt _⟩
  · refine ⟨_, decode_d2p8 x, rfl, ?_⟩
    intro term
    have hhigh : x % 256 / 16 % 16 = x / 16 % 16 := by omega
    have hlow : x % 256 % 16 = x % 16 := by omega
    rw [d2Number_val, d2Value, hhigh, hlow, Int.cast_add, add_div, d2Term_div, d2Term_div]
    rfl
  · exact ⟨fun hne => if_pos (bne_iff_ne.mpr hne), fun he => if_neg (by rw [he]; exact Bool.false_ne_true)⟩
  · exact ⟨rfl, rfl, rfl, rfl, rfl, rfl, rfl, rfl, rfl⟩
  · cases f with
    | i8 | i16 => exact signExtend_toNat_eq _
    | _ => rfl
  · obtain ⟨rfl, hconvert⟩ := Fmt.convert_int hD
    have hpos : 0 < D.bits := by
      have hwidths : ∀ p ∈ [(Fmt.i8, 8), (.i16, 16), (.i32, 32), (.i64, 64)], 0 < p.2 := by decide
      exact hwidths _ hD
    rw [show D.convert inf m b = D.convertInt m b from funext (hconvert inf m b)]
    exact ⟨fun s => rfl, fun s => Fmt.convertInt_inf hpos s, fun d hs => Fmt.convertInt_spec hpos hs⟩
  · obtain ⟨hscale, he4m3, hnone, hieee, hebits, hlayout⟩ := Fmt.floats_special _ hD
    dsimp only at hscale he4m3 hnone hieee hebits hlayout
    rw [show D.convert inf m b = f.convert inf m b from funext (Fmt.convert_float hD inf m b)]
    intro c infinite beyond
    have hbeyond (neg : Bool) (flags : Flags) : f.beyond inf neg flags = beyond neg flags := beyond_eq hD inf neg flags
    refine ⟨fun s => ?_, fun s => ?_, fun d hs => ?_⟩
    · refine (Bin.convert_nan s).trans ?_
      simp only [hnone, Bool.or_eq_true, decide_eq_true_iff]
      rfl
    · rw [← hbeyond]
      by_cases h : infinite
      · rw [if_pos h]
        exact (Bin.convert_inf s).trans (if_pos (hieee.mp h))
      · rw [if_neg h]
        exact (Bin.convert_inf s).trans (if_neg (mt hieee.mpr h))
    · intro q
      have hq : q = (f.operand d).val := (operand_val_eq hD d).symm
      clear_value q
      subst hq
      rw [← hbeyond]
      refine ⟨fun hzero => ?_, fun hne => ?_⟩
      · rw [Rat.cast_eq_zero, Dy.val_eq_zero_iff, Bin.operand_man] at hzero
        exact Bin.convert_zero hzero
      · rw [ne_eq, Rat.cast_eq_zero, Dy.val_eq_zero_iff, Bin.operand_man] at hne
        exact Bin.convert_spec ⟨hebits, fun he => by rw [hlayout he]; rfl⟩ hne hs
  · intro c beyond value terms
    refine ⟨fun s => rfl, fun s => rfl, fun d hs => ⟨fun h => d2Convert_beyond m b hs h, fun h => ?_⟩⟩
    obtain ⟨y, lo, hi, hnear, hval, hcanonical, hsign, hone, hexact, htakes, hflags, hstat⟩ := d2Convert_spec (m := m) (b := b) hs h
    refine ⟨y, lo / 64, hi / 64, d2_value_iff.mpr ⟨hcanonical.1, hval⟩, hsign, ?_, ?_, by positivity, hnear.lo_le, hnear.le_hi, hone,
      ?_, hnear.exact, hexact, fun hlt => ?_, hflags, hstat, fun x hx => ?_⟩
    · obtain ⟨x, hx⟩ := exists_byte_of_mem hnear.lo_mem
      exact ⟨x, d2_value_iff.mpr hx⟩
    · obtain ⟨x, hx⟩ := exists_byte_of_mem hnear.hi_mem
      exact ⟨x, d2_value_iff.mpr hx⟩
    · intro x v hx hlo hhi
      obtain ⟨hbyte, hv⟩ := d2_value_iff.mp hx
      rw [← hv] at hlo hhi
      exact (hnear.no_byte hbyte hlo).not_gt hhi
    · obtain ⟨hless, hiff⟩ := htakes hlt
      cases m with
      | rtz => exact hone.resolve_right fun e => hiff.mp e
      | rdn => exact hnear.le_of_rdn hsign hone hiff
      | rup => exact hnear.ge_of_rup hsign hone hiff
      | rne => exact hiff
      | rna => exact hiff
      | rsr => exact hiff
    · obtain ⟨hx, hxval⟩ := d2_value_iff.mp hx
      exact hcanonical.tests hx (by
        rw [← hval, div_left_inj' (by norm_num)] at hxval
        exact_mod_cast hxval)
end

section
/-!
O43: an atomic operation reads its operand's two halves as numbers of its width; a join is the least upper bound of its type's order,
which is a linear order of the values, NaNs apart, or the order of sets of bits.
-/

set_option Elab.async false

namespace Sys2Proof

/-- What chooses between two values by a key chooses a least one. -/
theorem least_by_key (key : Nat → Int) (a b : Nat) :
    let r := if key b < key a then b else a
    (r = a ∨ r = b) ∧ key r ≤ key a ∧ key r ≤ key b := by
  dsimp only
  split
  · exact ⟨.inr rfl, by omega, by omega⟩
  · exact ⟨.inl rfl, by omega, by omega⟩

/-- The same for a greatest one. -/
theorem greatest_by_key (key : Nat → Int) (a b : Nat) :
    let r := if key a < key b then b else a
    (r = a ∨ r = b) ∧ key a ≤ key r ∧ key b ≤ key r := by
  dsimp only
  split
  · exact ⟨.inr rfl, by omega, by omega⟩
  · exact ⟨.inl rfl, by omega, by omega⟩

theorem max_of_greatest {key : Nat → Int} {a b r : Nat} (h : (r = a ∨ r = b) ∧ key a ≤ key r ∧ key b ≤ key r) :
    (r = a ∨ r = b) ∧ key r = max (key a) (key b) := by
  obtain ⟨hone, hleft, hright⟩ := h
  refine ⟨hone, (max_le hleft hright).antisymm' ?_⟩
  rcases hone with rfl | rfl
  · exact le_max_left ..
  · exact le_max_right ..

/-! ## Atomic operations (R229, R230) -/

namespace AtomFn

/-- The bits of an operation's width. -/
def bits (f : AtomFn) : Nat := if f.wide then 64 else 32

theorem bits_eq (f : AtomFn) : 8 * f.bytes = f.bits := by
  unfold bytes bits
  split <;> rfl

theorem bits_le (f : AtomFn) : f.bits ≤ 64 := by
  unfold bits
  split <;> decide

/-- The operand of an operation, from its value and the value above it. -/
def operand (v w : Nat) : BitVec 128 := BitVec.ofNat 128 (w * 2 ^ 64 + v)

variable {f : AtomFn} {v w : Nat}

theorem operand_toNat (hv : v < 2 ^ f.bits) (hw : w < 2 ^ f.bits) : (operand v w).toNat = w * 2 ^ 64 + v := by
  have hpow : 2 ^ f.bits ≤ 2 ^ 64 := Nat.pow_le_pow_right (by decide) f.bits_le
  rw [operand, BitVec.toNat_ofNat, Nat.mod_eq_of_lt]
  omega

theorem operand_low (hv : v < 2 ^ f.bits) (hw : w < 2 ^ f.bits) : (operand v w).toNat % 2 ^ (8 * f.bytes) = v := by
  obtain ⟨k, hk⟩ : 2 ^ f.bits ∣ 2 ^ 64 := Nat.pow_dvd_pow 2 f.bits_le
  rw [operand_toNat hv hw, bits_eq, hk, Nat.mul_left_comm, Nat.mul_add_mod, Nat.mod_eq_of_lt hv]

theorem operand_high (hv : v < 2 ^ f.bits) (hw : w < 2 ^ f.bits) :
    (operand v w).toNat / 2 ^ 64 % 2 ^ (8 * f.bytes) = w := by
  have hpow : 2 ^ f.bits ≤ 2 ^ 64 := Nat.pow_le_pow_right (by decide) f.bits_le
  rw [operand_toNat hv hw, bits_eq, show (w * 2 ^ 64 + v) / 2 ^ 64 = w by omega, Nat.mod_eq_of_lt hw]

/-- A value of `b` bits as a signed number. -/
def signedAt (b y : Nat) : Int := if y < 2 ^ (b - 1) then (y : Int) else y - 2 ^ b

/-- The model's signed value, of 32 and of 64 bits. -/
theorem signed_eq (f : AtomFn) (y : Nat) :
    (y : Int) - (if 2 ^ (8 * f.bytes) / 2 ≤ y then (2 ^ (8 * f.bytes) : Nat) else 0 : Nat) = signedAt f.bits y := by
  have hhalf : 2 ^ f.bits / 2 = 2 ^ (f.bits - 1) := by
    unfold bits
    split <;> rfl
  rw [bits_eq, hhalf, signedAt]
  split
  · rw [if_neg (by omega)]
    push_cast
    rfl
  · rw [if_pos (by omega)]
    omega

/-- What an operation makes of the old value, by its operand's two halves. -/
theorem apply_operand (old : Nat) (hv : v < 2 ^ f.bits) (hw : w < 2 ^ f.bits) :
    f.apply old (operand v w) = match f with
      | .addB32 | .addB64 => (old + v) % 2 ^ f.bits
      | .minI32 | .minI64 => if signedAt f.bits v < signedAt f.bits old then v else old
      | .maxI32 | .maxI64 => if signedAt f.bits old < signedAt f.bits v then v else old
      | .minN32 | .minN64 => min old v
      | .maxN32 | .maxN64 => max old v
      | .andB32 | .andB64 => old &&& v
      | .orB32 | .orB64 => old ||| v
      | .xorB32 | .xorB64 => old ^^^ v
      | .exchB32 | .exchB64 => v
      | .casB32 | .casB64 => if old = v then w else old
      | .addF32 => (Machine.Bin.f32.addOp .rne old v).1 := by
  unfold apply
  simp only [operand_low hv hw, operand_high hv hw]
  cases f with
  | minI32 | minI64 | maxI32 | maxI64 =>
    simp only [← signed_eq]
  | _ => rfl

end AtomFn

/-! ## Joins (R264 to R266) -/

theorem signed32_inj {a b : Nat} (ha : a < 2 ^ 32) (hb : b < 2 ^ 32) (h : signed32 a = signed32 b) : a = b := by
  have hbits := congrArg BitVec.toNat (BitVec.eq_of_toInt_eq h)
  rwa [BitVec.toNat_ofNat, BitVec.toNat_ofNat, Nat.mod_eq_of_lt ha, Nat.mod_eq_of_lt hb] at hbits

theorem rank32_inj {a b : Nat} (ha : a < 2 ^ 32) (hb : b < 2 ^ 32) (h : rank32 a = rank32 b) : a = b := by
  unfold rank32 at h
  split at h <;> split at h <;> omega

/-- A greatest value by a key that tells the two values apart does not depend on their order. -/
theorem greatest_comm {key : Nat → Int} {a b : Nat} (h : key a = key b → a = b) :
    (if key b < key a then a else b) = if key a < key b then b else a := by
  split <;> split
  · omega
  · rfl
  · rfl
  · exact (h (by omega)).symm

namespace LatType

variable {ty : LatType} {a b c : Nat}

theorem join_comm (ha : a < 2 ^ (8 * ty.bytes)) (hb : b < 2 ^ (8 * ty.bytes)) : ty.join b a = ty.join a b := by
  cases ty with
  | maxN32 | maxN64 | cnt8x32 => exact Nat.max_comm b a
  | minN32 => exact Nat.min_comm b a
  | orB32 | orB64 => exact Nat.lor_comm b a
  | andB32 => exact Nat.land_comm b a
  | maxI32 => exact greatest_comm (signed32_inj ha hb)
  | maxF32 => simp only [join, Bool.or_comm, greatest_comm (rank32_inj ha hb)]

theorem join_self : ty.join a a = if ty = .maxF32 ∧ isNan32 a = true then 0x7FC00000 else a := by
  cases ty with
  | maxN32 | maxN64 | cnt8x32 => exact Nat.max_self a
  | minN32 => exact Nat.min_self a
  | orB32 | orB64 => exact Nat.or_self a
  | andB32 => exact Nat.and_self a
  | maxI32 => simp [join]
  | maxF32 => simp [join]

theorem atLeast_join_left : ty.atLeast (ty.join a b) a = true := by
  cases ty with
  | maxN32 | maxN64 | cnt8x32 => simp [join, atLeast]
  | minN32 => simp [join, atLeast]
  | orB32 | orB64 => simp [join, atLeast, Nat.or_right_comm]
  | andB32 => simp [join, atLeast, Nat.and_right_comm]
  | maxI32 => exact decide_eq_true (greatest_by_key signed32 a b).2.1
  | maxF32 =>
    by_cases hnan : (isNan32 a || isNan32 b) = true
    · simp only [join, hnan, if_true]
      rfl
    · have hgreatest := (greatest_by_key rank32 a b).2.1
      simp_all [join, atLeast]

/-- A join is the least of what is at least both. -/
theorem atLeast_join (ha : ty.atLeast c a = true) (hb : ty.atLeast c b = true) : ty.atLeast c (ty.join a b) = true := by
  cases ty with
  | maxN32 | maxN64 | cnt8x32 => simp_all [join, atLeast]
  | minN32 => simp_all [join, atLeast]
  | orB32 | orB64 => simp_all [join, atLeast, ← Nat.or_assoc]
  | andB32 => simp_all [join, atLeast, ← Nat.and_assoc]
  | maxI32 =>
    simp only [join]
    split
    · exact hb
    · exact ha
  | maxF32 =>
    by_cases hnan : (isNan32 a || isNan32 b) = true
    · have hc : isNan32 c = true := by
        by_contra hc
        simp_all [atLeast]
      simp [atLeast, hc]
    · simp only [join, hnan, Bool.false_eq_true, if_false]
      split
      · exact hb
      · exact ha

end LatType

end Sys2Proof

open Sys2Proof

/-- Settles O43: an operation by its operand's two halves (`AtomFn.apply_operand`), a join by the laws of least upper bounds. -/
theorem operations : Obligations.Operations := by
  unfold Obligations.Operations
  refine ⟨fun fn old v w => ?_, fun ty a b hcnt ha hb => ?_⟩
  · intro b _ hv hw sgn
    have happly := AtomFn.apply_operand (f := fn) old hv hw
    intro r
    rw [show r = _ from happly]
    cases fn with
    | minI32 | minI64 => exact least_by_key (AtomFn.signedAt _) old v
    | maxI32 | maxI64 => exact greatest_by_key (AtomFn.signedAt _) old v
    | _ => rfl
  · intro j
    refine ⟨LatType.join_comm ha hb, LatType.join_self, LatType.atLeast_join_left, ?_, fun c _ => LatType.atLeast_join, ?_⟩
    · rw [show j = _ from (LatType.join_comm ha hb).symm]
      exact LatType.atLeast_join_left
    · cases ty with
      | maxI32 => exact max_of_greatest (greatest_by_key signed32 a b)
      | maxF32 =>
        dsimp only
        split <;> rename_i hnan <;> rw [← Bool.or_eq_true] at hnan
        · exact if_pos hnan
        · rw [show j = _ from if_neg hnan]
          exact max_of_greatest (greatest_by_key rank32 a b)
      | _ => rfl
end

section
/-!
O48 fails: its clause on cflags reads SEALED off the partition's entry whatever V of the entry is. The model has a context sealed only
where its partition exists (R387, R389).
-/

set_option Elab.async false

namespace Sys2Proof.Machine.SealedWithoutPartition

open State

/-! ## A protected context under a partition entry with V = 0

A group of protected context 1, which runs in partition 0, stands at level S at a CSRR of cflags. The security core has accepted a
write of that partition's entry with V = 0 and SEALED = 1 (R387). -/

/-- The module before the write. -/
def before : State :=
  { State.reset with
    groups := [(0, { Group.free with phase := .attached, block := 1, level := .s, splits := [(0, Split.none)] })]
    blocks := [(1, { Block.none with context := 1 })]
    contexts := [(1, { Context.none with prot := true })] }

/-- The entry: SEALED alone (R387). -/
def entry : QWord := 2 ^ 19

/-- The module after the write. -/
def start : State := stateOf before (execPartitionTableWrite 0 entry true before)

/-- A CSRR of cflags into s4 and s5. -/
theorem start_issues : start.Issues (Instr.csrr 4 0x14).facts :=
  ⟨rfl, by decide, nofun, nofun, fun _ => rfl, by decide, nofun, rfl⟩

theorem entry_without_v : start.partitionAt start.context.partition = { Partition.none with sealed := true } := by decide

theorem exec_csrr_start : exec (.csrr 4 0x14) start = .next (start.writePair 4 (start.csrValue 0x14)).done :=
  (exec_csrr 4 0x14 start).trans (issueSys_eq (w := .csrr 4 0x14) start_issues _)

/-- The model reads no SEALED bit. -/
theorem cflags_read : (start.writePair 4 (start.csrValue 0x14)).done.group.s.get 4 0 = 0 := by decide

/-- A write of the value that the entry's SEALED bit gives. -/
theorem sealed_written : (start.writePair 4 2).done.group.s.get 4 0 = 2 := by decide

end Sys2Proof.Machine.SealedWithoutPartition

open Sys2Proof Sys2Proof.Machine Sys2Proof.Machine.State Sys2Proof.Machine.SealedWithoutPartition

/-- Refutes O48: its clause on cflags has bit 1 as SEALED of the partition's entry for every protected context. An entry with V = 0 may
have SEALED = 1 (R387 refuses no such write); the partition does not exist, and the model's cflags has bit 1 zero. -/
theorem not_systemWords : ¬ Obligations.SystemWords := by
  unfold Obligations.SystemWords
  intro words
  obtain ⟨-, -, reads, -⟩ := words start rfl
  obtain ⟨v, hexec, -, -, -, -, -, -, -, -, -, -, hcflags, -⟩ := reads 4 0x14 start_issues
  obtain rfl : v = 2 := by
    rw [hcflags rfl, entry_without_v]
    decide
  have hstate := Host.Outcome.next.inj (exec_csrr_start.symm.trans hexec)
  exact absurd (cflags_read.symm.trans ((congrArg (fun t => t.group.s.get 4 0) hstate).trans sealed_written)) (by decide)
end

section
/-!
O44: the tags of a block's slots (R237 to R239).
-/

set_option Elab.async false

namespace Sys2Proof.Machine

/-! ## Entries of a table whose keys differ -/

section
variable {t : Table α} (ht : (t.map Prod.fst).Nodup)
include ht

theorem Table.at?_of_mem {k : Nat} {v : α} (h : (k, v) ∈ t) : t.at? k = some v := by
  induction t with
  | nil => cases h
  | cons e t ih =>
      obtain ⟨j, w⟩ := e
      obtain ⟨hj, hrest⟩ := List.nodup_cons.mp ht
      rcases List.mem_cons.mp h with h | h
      · obtain ⟨rfl, rfl⟩ := Prod.mk.inj h
        exact if_pos rfl
      · have hne : j ≠ k := by
          rintro rfl
          exact hj (List.mem_map_of_mem (f := Prod.fst) (a := (j, v)) h)
        exact (if_neg hne).trans (ih hrest h)

theorem Table.at?_eq_some_iff {k : Nat} {v : α} : t.at? k = some v ↔ (k, v) ∈ t := ⟨Table.mem_of_at?, Table.at?_of_mem ht⟩

/-- The entries that a condition keeps. -/
theorem Table.at?_filter (p : Nat × α → Bool) (k : Nat) :
    Table.at? (t.filter p) k = (t.at? k).filter fun v => p (k, v) := by
  have hkeys : ((t.filter p).map Prod.fst).Nodup := ht.sublist (List.filter_sublist.map _)
  ext v
  rw [Table.at?_eq_some_iff hkeys, List.mem_filter, ← Table.at?_eq_some_iff ht, Option.filter_eq_some_iff]

end

namespace State

/-! ## The tags of the issuing block -/

/-- Slot `j` of a core is one of the issuing block's. -/
def OwnSlot (s : State) (j : Nat) : Prop := s.block.slot0 ≤ j ∧ j < s.block.slot0 + s.block.slots

variable {s : State}

theorem mem_ownTags (h : s.snap = none) {k : Nat} {w : Word} :
    (k, w) ∈ s.ownTags ↔ k < s.block.slots ∧ (s.block.slot0 + k, w) ∈ s.core.tags := by
  simp only [ownTags, vblock_of_none h, List.mem_map, List.mem_filter, Bool.and_eq_true, decide_eq_true_eq, Prod.mk.injEq]
  constructor
  · rintro ⟨⟨j, x⟩, ⟨hmem, hlow, hhigh⟩, rfl, rfl⟩
    exact ⟨by omega, by rwa [Nat.add_sub_cancel' hlow]⟩
  · rintro ⟨hk, hmem⟩
    exact ⟨(s.block.slot0 + k, w), ⟨hmem, by omega, by omega⟩, by omega, rfl⟩

section
variable (h : s.snap = none) (htags : (s.core.tags.map Prod.fst).Nodup)
include h htags

theorem mem_ownTags_iff_at? {k : Nat} {w : Word} :
    (k, w) ∈ s.ownTags ↔ k < s.block.slots ∧ s.core.tags.at? (s.block.slot0 + k) = some w := by
  rw [mem_ownTags h, Table.at?_eq_some_iff htags]

/-- The one slot that holds a key is the slot found. -/
theorem tagged_eq_some {key : Word} {k : Nat} (hk : k < s.block.slots) (hkey : s.core.tags.at? (s.block.slot0 + k) = some key)
    (hone : ∀ j, j < s.block.slots → j ≠ k → s.core.tags.at? (s.block.slot0 + j) ≠ some key) : s.tagged key = some k := by
  obtain ⟨⟨j, w⟩, hfind⟩ : ∃ e, s.ownTags.find? (fun e => e.2 == key) = some e :=
    Option.isSome_iff_exists.mp (List.find?_isSome.mpr ⟨(k, key), (mem_ownTags_iff_at? h htags).mpr ⟨hk, hkey⟩, by simp⟩)
  obtain rfl : w = key := by simpa using List.find?_some hfind
  obtain ⟨hj, hat⟩ := (mem_ownTags_iff_at? h htags).mp (List.mem_of_find?_eq_some hfind)
  obtain rfl : j = k := by
    by_contra hne
    exact hone j hj hne hat
  rw [tagged, hfind]
  rfl

theorem tagged_eq_none {key : Word} (hnone : ∀ k, k < s.block.slots → s.core.tags.at? (s.block.slot0 + k) ≠ some key) :
    s.tagged key = none := by
  rw [tagged, Option.map_eq_none_iff, List.find?_eq_none]
  rintro ⟨k, w⟩ hmem hkey
  obtain rfl : w = key := by simpa using hkey
  obtain ⟨hk, hat⟩ := (mem_ownTags_iff_at? h htags).mp hmem
  exact hnone k hk hat

end

/-- TAGL (R239). -/
theorem exec_tagl_cases {d a : SReg} {p : PReg} (hi : s.Issues (Instr.tagl d a p).facts) :
    exec (.tagl d a p) s = .next (match s.tagged (s.readS a) with
      | some k => ((s.writeS d (BitVec.ofNat 32 k)).writePAll p true).done
      | none => ((s.writeS d 0xFFFFFFFF).writePAll p false).done) := (exec_tagl ..).trans (issue_eq hi _)

/-- The core's tags after a TAGS that writes `key` in slot `k` of the block (R239). -/
def tagsSet (s : State) (k : Nat) (key : Word) : Table Word :=
  Table.set (s.core.tags.filter fun e =>
    !((s.block.slot0 ≤ e.1 && e.1 < s.block.slot0 + s.block.slots) && e.2 == key)) (s.block.slot0 + k) key

theorem tagsSet_self (k : Nat) (key : Word) : (s.tagsSet k key).at? (s.block.slot0 + k) = some key := Table.at?_set_self ..

section
variable (htags : (s.core.tags.map Prod.fst).Nodup) {k : Nat} {key : Word}
include htags

theorem tagsSet_of_ne {i : Nat} (hi : i ≠ s.block.slot0 + k) : (s.tagsSet k key).at? i =
    (s.core.tags.at? i).filter fun w => !((s.block.slot0 ≤ i && i < s.block.slot0 + s.block.slots) && w == key) := by
  rw [tagsSet, Table.at?_set_of_ne _ _ hi, Table.at?_filter htags]

/-- Every other slot of the block loses the key, and keeps any other. -/
theorem tagsSet_own {j : Nat} (hj : j < s.block.slots) (hne : j ≠ k) : (s.tagsSet k key).at? (s.block.slot0 + j) =
    if s.core.tags.at? (s.block.slot0 + j) = some key then none else s.core.tags.at? (s.block.slot0 + j) := by
  rw [tagsSet_of_ne htags (by omega)]
  have hlow : s.block.slot0 ≤ s.block.slot0 + j := by omega
  have hhigh : s.block.slot0 + j < s.block.slot0 + s.block.slots := by omega
  cases s.core.tags.at? (s.block.slot0 + j) with
  | none => simp
  | some w => by_cases hw : w = key <;> simp [Option.filter, hw, hj]

theorem tagsSet_other {j : Nat} (hk : k < s.block.slots) (hj : ¬ s.OwnSlot j) :
    (s.tagsSet k key).at? j = s.core.tags.at? j := by
  have hout : (s.block.slot0 ≤ j && j < s.block.slot0 + s.block.slots : Bool) = false := by
    rw [Bool.eq_false_iff, ne_eq, Bool.and_eq_true, decide_eq_true_eq, decide_eq_true_eq]
    exact hj
  rw [tagsSet_of_ne htags (by unfold OwnSlot at hj; omega)]
  cases s.core.tags.at? j <;> simp [Option.filter, hout]

end

/-- What a word that writes the core's tags leaves. -/
theorem setTags_done (t : Table Word) : (s.setTags t).done.core.tags = t ∧ (s.setTags t).done.group.s = s.group.s ∧
    (s.setTags t).done.blocks = s.blocks ∧ s.SameMemory (s.setTags t).done ∧ (s.setTags t).done.last = .done := by
  obtain ⟨hrest, -, -⟩ := done_frame (s.setTags t)
  have hscalars := congrArg Group.s hrest
  refine ⟨?_, hscalars, done_blocks _, .of_eq (done_mem _) (done_spad _) (done_acc _), done_last _⟩
  rw [core, coreAt, done_cores, done_cur]
  exact congrArg CoreState.tags (coreAt_setCoreAt s s.cur.core _)

/-- TAGS (R239). -/
theorem exec_tags_cases (h : s.snap = none) {a key : SReg} (hi : s.Issues (Instr.tags a key).facts) :
    exec (.tags a key) s = .next (if s.block.slots ≤ (s.readS a).toNat then s.fault .segmentBounds 0 none
      else (s.setTags (s.tagsSet (s.readS a).toNat (s.readS key))).done) := by
  rw [exec_tags, execTags, issue_eq hi]
  simp only [vblock_of_none h]
  rfl

/-- TAGI (R239). -/
theorem exec_tagi_cases (h : s.snap = none) {a : SReg} (hi : s.Issues (Instr.tagi a).facts) :
    exec (.tagi a) s = .next (if s.block.slots ≤ (s.readS a).toNat then s.fault .segmentBounds 0 none
      else (s.setTags (s.core.tags.erase (s.block.slot0 + (s.readS a).toNat))).done) := by
  rw [exec_tagi, execTagi, issue_eq hi]
  simp only [vblock_of_none h]

end State

end Sys2Proof.Machine
end

section
/-!
O44: what orders one access before another (R241 to R243, R246, R252, R253).
-/

set_option Elab.async false

namespace Sys2Proof.Machine

/-! ## Numbers in memory (R4) -/

theorem ofBytes_lt (l : List Byte) : ofBytes l < 256 ^ l.length := by
  induction l with
  | nil => decide
  | cons b l ih =>
      have hb : b.toNat < 256 := b.isLt
      rw [ofBytes, List.length_cons, Nat.pow_succ]
      omega

theorem Memory.read_lt (m : Memory) (a n : Nat) : m.read a n < 256 ^ n := by
  have h := ofBytes_lt (m.bytes a n)
  rwa [Memory.length_bytes] at h

namespace State

theorem mem_distinct {l : List Nat} {x : Nat} : x ∈ distinct l ↔ x ∈ l := by
  induction l with
  | nil => rfl
  | cons a l ih =>
      rw [distinct, List.mem_cons, List.mem_cons, List.mem_filter, ih]
      by_cases hx : x = a <;> simp [hx]

/-! ## What an operation waits for (R253) -/

theorem mem_openOps {g : GroupSys} {q : Pending} : q ∈ openOps g ↔ q ∈ g.ld ++ g.st ∧ q.finished = false := by
  rw [openOps, List.mem_filter, Bool.not_eq_true']

theorem mem_earlierOps {g : GroupSys} {q : Pending} :
    q ∈ earlierOps g ↔ (q ∈ g.ld ++ g.st ∧ q.finished = false) ∧ q.tries = false := by
  rw [earlierOps, List.mem_filter, mem_openOps, Bool.not_eq_true']

theorem mem_mustPrecede {g : GroupSys} {writes release : Bool} {q : Pending} (hq : q ∈ earlierOps g)
    (h : release = true ∨ q.id ∈ g.acqAfter ∨ (writes = true ∧ q.id ∈ g.relAfter)) : q.id ∈ mustPrecede g writes release := by
  have hid : q.id ∈ (earlierOps g).map Pending.id := List.mem_map_of_mem hq
  unfold mustPrecede
  dsimp only
  split
  · exact hid
  · rename_i hrelease
    exact List.mem_filter.mpr ⟨hid, by simpa using h.resolve_left hrelease⟩

theorem mem_touching {g : GroupSys} {accs : List Access} {q : Pending} {a b : Access} (hq : q ∈ earlierOps g) (ha : a ∈ q.accesses)
    (hb : b ∈ accs) (h : a.place.meets a.n b.place b.n = true) : (b.lane, q.id, a.lane) ∈ touching g accs := by
  unfold touching
  refine List.mem_flatten.mpr ⟨_, List.mem_map_of_mem hb, List.mem_flatten.mpr ⟨_, List.mem_map_of_mem hq, ?_⟩⟩
  exact List.mem_map.mpr ⟨a, List.mem_filter.mpr ⟨ha, h⟩, rfl⟩

/-! ## The entry of an operation (R83, R252) -/

theorem post_list (s : State) (c : Counter) (act : OpAct) (accs : List Access) (acq rel : Bool) :
    (s.post c act accs acq rel).gsys.list c = s.gsys.list c ++ [s.enteredOp act accs rel] := by
  rw [post_gsys]
  cases c <;> rfl

/-- An acquire is among what later accesses follow. -/
theorem nextId_mem_post_acqAfter (s : State) (c : Counter) (act : OpAct) (accs : List Access) (rel : Bool) :
    s.nextId ∈ (s.post c act accs true rel).gsys.acqAfter := by
  have key : ∀ (b : Bool) (x : State) (blk : Block), (if b = true then x.setBlock blk else x).gsys = x.gsys := by
    intro b x blk
    cases b <;> rfl
  unfold post
  simp only [key]
  rw [show ∀ t : State, t.bumpId.gsys = t.gsys from fun _ => rfl, setSys_gsys]
  exact List.mem_append_right _ List.mem_cons_self

section
variable {s : State} {c : Counter} {act : OpAct} {n : Nat} {base : SReg} {o : VReg} {k : AccessKind} {rule : LatRule}

/-- A word of global memory all of whose lanes pass enters its operation. -/
theorem accessWord_of_passes (kind : BitVec 5) (data : Nat → QWord) (acq rel : Bool)
    (h : ∀ l, l ∈ s.lanes → s.globalVerdict (s.laneAddress base .zx o l) n n k rule = .passes) :
    ∃ accs, s.accessWord c kind act n (s.laneGo .g base .zx o n k rule) data acq rel = (s.post c act accs acq rel).done := by
  have hpass : ∀ l ∈ LaneMask.list s.active, (s.laneGo .g base .zx o n k rule l).check = .passes :=
    fun l hl => (globalLane_check ..).trans (h l hl)
  refine ⟨s.accessesOf n (s.laneGo .g base .zx o n k rule) data, ?_⟩
  have hbusy : ∀ l, l ∈ LaneMask.list s.active → (s.laneGo .g base .zx o n k rule l).check ≠ .busy := fun l hl => by
    rw [hpass l hl]
    exact LaneCheck.noConfusion
  have hfails : ∀ l, l ∈ LaneMask.list s.active → ∀ c b, (s.laneGo .g base .zx o n k rule l).check ≠ .fails c b := fun l hl c b => by
    rw [hpass l hl]
    exact LaneCheck.noConfusion
  exact (laneWord_of_no_fault hbusy hfails).trans (if_pos hpass)

end

/-- LDA: an acquire (R227, R252). -/
theorem exec_lda_acquires {s : State} {x o : VReg} {base : SReg} {sc : Scope} (hi : s.Issues (Instr.lda x o base false sc).facts)
    (h : ∀ l, l ∈ s.lanes → s.globalVerdict (s.laneAddress base .zx o l) 4 4 .read s.readRule = .passes) :
    ∃ t, exec (.lda x o base false sc) s = .next t ∧ s.nextId ∈ t.gsys.acqAfter := by
  obtain ⟨accs, hword⟩ := accessWord_of_passes (c := .ld) (act := .load .b32 x) 1 (fun _ => 0) true false h
  refine ⟨_, (exec_lda ..).trans ((issue_eq hi _).trans (congrArg _ hword)), ?_⟩
  rw [done_gsys]
  exact nextId_mem_post_acqAfter ..

/-- STL: a release (R227, R252). -/
theorem exec_stl_releases {s : State} {x o : VReg} {base : SReg} {sc : Scope} (hi : s.Issues (Instr.stl x o base false sc).facts)
    (h : ∀ l, l ∈ s.lanes → s.globalVerdict (s.laneAddress base .zx o l) 4 4 .write writeRule = .passes) :
    ∃ t p, exec (.stl x o base false sc) s = .next t ∧ t.gsys.st = s.gsys.st ++ [p] ∧
      ∀ q, q ∈ earlierOps s.gsys → q.id ∈ p.after := by
  obtain ⟨accs, hword⟩ := accessWord_of_passes (c := .st) (act := .store) 2 (s.storeData .b32 x) false true h
  refine ⟨_, s.enteredOp .store accs true, (exec_stl ..).trans ((issue_eq hi _).trans (congrArg _ hword)), ?_,
    fun q hq => mem_mustPrecede (writes := true) hq (.inl rfl)⟩
  rw [done_gsys]
  exact post_list s .st .store accs false true

/-! ## Words that only order (R243, R246) -/

/-- `t` has the operations of `s`, its registers and its memory, at the end of a word. -/
def OrdersOnly (s t : State) : Prop :=
  t.gsys.ld = s.gsys.ld ∧ t.gsys.st = s.gsys.st ∧ t.gsys.cp = s.gsys.cp ∧ t.gsys.tm = s.gsys.tm ∧
  { t.group with splits := s.group.splits } = s.group ∧ s.SameMemory t ∧ t.last = .done

/-- A word that writes the two lists of what stands before later accesses, and nothing else. -/
theorem ordersOnly_done (s : State) (acq rel : List Nat) :
    s.OrdersOnly (s.setSys { s.gsys with acqAfter := acq, relAfter := rel }).done ∧
    (s.setSys { s.gsys with acqAfter := acq, relAfter := rel }).done.gsys = { s.gsys with acqAfter := acq, relAfter := rel } := by
  obtain ⟨hrest, -, -⟩ := done_frame (s.setSys { s.gsys with acqAfter := acq, relAfter := rel })
  have hsys : (s.setSys { s.gsys with acqAfter := acq, relAfter := rel }).done.gsys =
      { s.gsys with acqAfter := acq, relAfter := rel } := by rw [done_gsys, setSys_gsys]
  refine ⟨⟨?_, ?_, ?_, ?_, hrest, .of_eq (done_mem _) (done_spad _) (done_acc _), done_last _⟩, hsys⟩ <;> rw [hsys]

/-- Names of the unfinished reads of a group. -/
def openReads (g : GroupSys) : List Nat := (g.ld.filter fun p => !p.finished).map Pending.id

theorem mem_openReads {g : GroupSys} {q : Pending} (hq : q ∈ g.ld) (hopen : q.finished = false) : q.id ∈ openReads g :=
  List.mem_map_of_mem (List.mem_filter.mpr ⟨hq, by rw [hopen]; rfl⟩)

/-- What a FENCE puts before the group's later accesses, and before its later writes (R243). -/
def fenceOrders (g : GroupSys) : Sem → List Nat × List Nat
  | .acq => (distinct (g.acqAfter ++ openReads g), g.relAfter)
  | .rel => (g.acqAfter, distinct (g.relAfter ++ (openOps g).map Pending.id))
  | .ar => (distinct (g.acqAfter ++ openReads g), distinct (g.relAfter ++ (openOps g).map Pending.id))

theorem fenceOrders_acq {g : GroupSys} {sem : Sem} (h : sem ≠ .rel) {q : Pending} (hq : q ∈ g.ld) (hopen : q.finished = false) :
    q.id ∈ (fenceOrders g sem).1 := by
  have hid : q.id ∈ distinct (g.acqAfter ++ openReads g) := mem_distinct.mpr (List.mem_append_right _ (mem_openReads hq hopen))
  cases sem with
  | rel => exact absurd rfl h
  | acq => exact hid
  | ar => exact hid

theorem fenceOrders_rel {g : GroupSys} {sem : Sem} (h : sem ≠ .acq) {q : Pending} (hq : q ∈ openOps g) :
    q.id ∈ (fenceOrders g sem).2 := by
  have hid : q.id ∈ distinct (g.relAfter ++ (openOps g).map Pending.id) :=
    mem_distinct.mpr (List.mem_append_right _ (List.mem_map_of_mem hq))
  cases sem with
  | acq => exact absurd rfl h
  | rel => exact hid
  | ar => exact hid

theorem setSys_setSys (s : State) (g k : GroupSys) : (s.setSys g).setSys k = s.setSys k :=
  congrArg (fun t => ({ s with sys := t } : State)) (Table.set_set s.sys s.gkey g k)

/-- FENCE (R243). -/
theorem exec_fence_eq {s : State} {sem : Sem} {sc : Scope} (hi : s.Issues (Instr.fence sem sc).facts) : exec (.fence sem sc) s =
    .next (s.setSys { s.gsys with acqAfter := (fenceOrders s.gsys sem).1, relAfter := (fenceOrders s.gsys sem).2 }).done := by
  rw [exec_fence, execFence, issue_eq hi]
  cases sem with
  | acq => rfl
  | rel => rfl
  | ar =>
      refine congrArg (fun t : State => Host.Outcome.next t.done) ?_
      rw [fenceRelease, writesAfter, fenceAcquire, setSys_setSys, setSys_gsys]
      rfl

/-- What a FLUSHH puts before the group's later writes (R246). -/
def flushOrders (s : State) (b n : Nat) : List Nat := distinct (s.gsys.relAfter ++ s.writesTouching b n)

/-- FLUSHH (R246). -/
theorem exec_flushh_eq {s : State} {base len : SReg} (hi : s.Issues (Instr.flushh base len).facts) : exec (.flushh base len) s =
    .next (if 2 ^ 60 < (s.readPair base).toNat + (s.readS len).toNat then s.fault .segmentBounds (s.readPair base) none
      else (s.setSys { s.gsys with
        acqAfter := s.gsys.acqAfter, relAfter := s.flushOrders (s.readPair base).toNat (s.readS len).toNat }).done) := by
  rw [exec_flushh, execFlushh, issue_eq hi]
  rfl

theorem writesTouching_zero (s : State) (b : Nat) : s.writesTouching b 0 = [] := by simp [writesTouching]

/-- A write of the group outside the scratchpads, one of whose lines of 128 bytes meets the range (entry 48). -/
theorem mem_writesTouching {s : State} {b n : Nat} {q : Pending} {a : Access} (hq : q ∈ openOps s.gsys) (hwrites : q.act.writes = true)
    (hn : 0 < n) (ha : a ∈ q.accesses) (hplace : ∀ c off, a.place ≠ .spad c off) (hlow : b < a.va / 128 * 128 + 128)
    (hhigh : a.va / 128 * 128 < b + n) : q.id ∈ s.writesTouching b n := by
  refine List.mem_map_of_mem (List.mem_filter.mpr ⟨hq, ?_⟩)
  simp only [hwrites, hn, decide_true, Bool.true_and, List.any_eq_true]
  refine ⟨a, ha, ?_⟩
  have hmeets : overlaps (a.va / 128 * 128) 128 b n = true := by
    simp only [overlaps, Bool.and_eq_true, decide_eq_true_eq]
    exact ⟨hhigh, hlow⟩
  cases hcase : a.place with
  | spad c off => exact absurd hcase (hplace c off)
  | _ => exact hmeets

/-! ## Loads that read early (R253) -/

/-- The group and the context of a turn's early read. -/
def earlyGroup (e : EarlyPick) : Nat := groupKey e.core e.slot

def earlyContext (s : State) (e : EarlyPick) : Nat := (s.blockAt (s.groupAt (earlyGroup e)).block).context

/-- An early read may come before what its group has outstanding. -/
theorem precedes_of_free {g : GroupSys} {place : Place} {n : Nat} (h : ∀ q a, q ∈ openOps g → q.tries = false ∧ q.id ∉ g.acqAfter ∧
    (a ∈ q.accesses → a.place.meets a.n place n = false)) : precedes g place n = true := by
  refine List.all_eq_true.mpr fun q hq => ?_
  obtain ⟨htries, hacq, -⟩ := h q ⟨0, .mem 0, 0, 0, 0, false⟩ hq
  simp only [htries, Bool.not_false, Bool.true_and, Bool.and_eq_true, Bool.not_eq_true', List.all_eq_true]
  exact ⟨by simpa using hacq, fun a ha => (h q a hq).2.2 ha⟩

/-- What a turn's early read adds where it may be made and meets no error. -/
theorem takeEarly_eq {s : State} {e : EarlyPick} {pa : Nat} (hgroup : (s.groups.at? (earlyGroup e)).isSome = true)
    (hn : e.n ∈ [1, 2, 4, 8, 16]) (halign : e.addr % e.n = 0) (hplace : s.earlyPlace e (s.earlyContext e) = some (.mem pa))
    (hfree : precedes (s.sysAt (earlyGroup e)) (.mem pa) e.n = true) (husable : s.frameUsable (s.earlyContext e) (pa / 65536) = true)
    (hpoison : s.poisonedAt pa e.n = false) (hentry : s.badEntry (s.earlyContext e) e.addr = none) :
    ∃ l x, s.takeEarly e = s.setSysAt (earlyGroup e) { s.sysAt (earlyGroup e) with early := l } ∧
      x ∈ l ∧ x.place = .mem pa ∧ x.n = e.n ∧ x.value.toNat = s.mem.read pa e.n := by
  have hwidth : [1, 2, 4, 8, 16, 32].contains e.n = true := List.contains_iff_mem.mpr (List.mem_append_left [32] hn)
  have hhazard : s.hazardOf (s.earlyContext e) true
      { lane := 0, place := .mem pa, va := e.addr, n := e.n, data := 0, dead := false } = none := by
    simp [hazardOf, hpoison, husable, hentry]
  have hne : e.n ≠ 32 := by
    rintro h
    rw [h] at hn
    exact absurd hn (by decide)
  have hvalue : s.cellValue (e.n = 32) { lane := 0, place := .mem pa, va := e.addr, n := e.n, data := 0, dead := false } =
      BitVec.ofNat 128 (s.mem.read pa e.n) := by
    simp [cellValue, hne, readPlace]
  have hlt : s.mem.read pa e.n < 2 ^ 128 := by
    have hle : e.n ≤ 16 := by
      simp only [List.mem_cons, List.not_mem_nil, or_false] at hn
      omega
    exact (Memory.read_lt ..).trans_le (Nat.pow_le_pow_right (n := 256) (by decide) hle)
  have heq : s.takeEarly e = s.setSysAt (earlyGroup e) { s.sysAt (earlyGroup e) with
      early := ((s.sysAt (earlyGroup e)).early.filter fun x => !x.place.meets x.n (.mem pa) e.n) ++
        [{ place := .mem pa, va := e.addr, n := e.n, value := BitVec.ofNat 128 (s.mem.read pa e.n),
           dirty := awaited (s.sysAt (earlyGroup e)) }] } := by
    unfold takeEarly
    dsimp only
    rw [if_pos (by simp only [earlyGroup] at hgroup; simp only [hgroup, hwidth, halign, decide_true, Bool.and_self])]
    simp only [earlyGroup, earlyContext] at hplace hfree hhazard ⊢
    rw [hplace]
    dsimp only
    rw [hvalue, hfree, hhazard]
    rfl
  exact ⟨_, _, heq, List.mem_append_right _ List.mem_cons_self, rfl, rfl, by rw [BitVec.toNat_ofNat, Nat.mod_eq_of_lt hlt]⟩

/-- A word that is not quiet ends every early read of its group. -/
theorem afterWords_early {s t : State} {l : List Reading} {i : Instr} (hlast : t.last ≠ .held) (hi : .plain i ∈ l)
    (hquiet : i.quiet = false) (hwait : ∀ a b c d, i ≠ .wait a b c d) : ((s.afterWords l t).sysAt s.gkey).early = [] := by
  unfold afterWords
  dsimp only
  split
  · rename_i hnone
    simpa [hlast] using hnone
  · rw [sysAt_setSysAt]
    refine List.filterMap_eq_nil_iff.mpr fun e _ => ?_
    rw [EarlyRead.after]
    dsimp only
    refine if_pos (Bool.or_eq_true_iff.mpr (.inl ?_))
    rw [Bool.not_eq_true', List.all_eq_false]
    refine ⟨i, List.mem_map.mpr ⟨.plain i, hi, ?_⟩, by rw [hquiet]; exact Bool.false_ne_true⟩
    split
    · rename_i heq
      exact absurd (Reading.plain.inj heq) (hwait _ _ _ _)
    · rename_i heq
      exact (Reading.plain.inj heq).symm
    · rename_i heq
      cases heq

end State

end Sys2Proof.Machine
end

section
/-!
O44: IFENCE and PUBLISH (R244, R245, R247).
-/

set_option Elab.async false

namespace Sys2Proof.Machine.State

/-! ## IFENCE (R244) -/

/-- A group whose splits, but for the issuing one, have no packet that was fetched in advance. -/
def dropPackets (s : State) (k : Nat) (g : Group) : Group :=
  { g with splits := g.splits.mapVal fun n x => if k = s.gkey && n = s.cur.split then x else refetched x }

/-- The fold of `dropFetches` over groups, which leaves who issues as it was. -/
def dropFetchesOf (s : State) (l : List (Nat × Group)) : State :=
  l.foldl (fun t e => t.setGroupAt e.1 (dropPackets t e.1 (t.groupAt e.1))) s

theorem dropFetches_eq (s : State) : s.dropFetches =
    (s.setCoreAt s.cur.core { s.core with icache := [], kcache := [] }).dropFetchesOf
      (s.groups.filter fun e => e.1 / 16 == s.cur.core) := rfl

section
variable (l : List (Nat × Group)) (s : State)

theorem dropFetchesOf_proj (π : State → β) (h : ∀ t k g, π (setGroupAt t k g) = π t) : π (s.dropFetchesOf l) = π s :=
  foldl_proj π (fun _ _ => h ..) l s

end

/-- A packet fetched in advance is gone, or was not there. -/
theorem refetched_packet (x : Split) : (refetched x).word = x.word ∧ (x.word = 0 → (refetched x).packet = none) := by
  unfold refetched
  split
  · exact ⟨rfl, fun _ => rfl⟩
  · rename_i h
    exact ⟨rfl, fun hw => absurd hw h⟩

theorem dropPackets_at? (s : State) (k : Nat) (g : Group) {n : Nat} (hne : (k, n) ≠ (s.gkey, s.cur.split)) :
    (dropPackets s k g).splits.at? n = (g.splits.at? n).map refetched := by
  have hnot : ¬ (k = s.gkey ∧ n = s.cur.split) := fun h => hne (Prod.ext h.1 h.2)
  have hcond : (decide (k = s.gkey) && decide (n = s.cur.split)) = false := by
    rw [Bool.eq_false_iff, ne_eq, Bool.and_eq_true, decide_eq_true_eq, decide_eq_true_eq]
    exact hnot
  unfold dropPackets
  rw [Table.at?_mapVal]
  simp only [hcond]
  rfl

/-- A split of a group of the list, or that has no such packet, has none afterwards. -/
theorem dropFetchesOf_packet {l : List (Nat × Group)} {s : State} {k n : Nat} {y : Split} (hne : (k, n) ≠ (s.gkey, s.cur.split))
    (hy : (s.groupAt k).splits.at? n = some y) (hword : y.word = 0) (h : (∃ e ∈ l, e.1 = k) ∨ y.packet = none) :
    ∃ z, ((s.dropFetchesOf l).groupAt k).splits.at? n = some z ∧ z.packet = none := by
  induction l generalizing s y with
  | nil => exact ⟨y, hy, h.resolve_left (by simp)⟩
  | cons e l ih =>
      obtain ⟨hkept, hdropped⟩ := refetched_packet y
      by_cases hk : e.1 = k
      · refine ih (s := s.setGroupAt e.1 (dropPackets s e.1 (s.groupAt e.1))) hne ?_ (hkept.trans hword) (.inr (hdropped hword))
        rw [hk, groupAt_setGroupAt, dropPackets_at? s k _ hne, hy]
        rfl
      · refine ih (s := s.setGroupAt e.1 (dropPackets s e.1 (s.groupAt e.1))) hne ?_ hword ?_
        · rwa [groupAt_setGroupAt_of_ne _ _ (Ne.symm hk)]
        · refine h.imp_left fun ⟨x, hx, hxk⟩ => ⟨x, (List.mem_cons.mp hx).resolve_left ?_, hxk⟩
          rintro rfl
          exact hk hxk

/-- The end of a word keeps every split but the issuing one. -/
theorem done_splits_at? {s : State} (h : s.snap = none) {k n : Nat} (hne : (k, n) ≠ (s.gkey, s.cur.split)) :
    (s.done.groupAt k).splits.at? n = (s.groupAt k).splits.at? n := by
  by_cases hk : k = s.gkey
  · subst hk
    have hn : n ≠ s.cur.split := fun hn => hne (by rw [hn])
    have hgroup : s.done.groupAt s.gkey = s.done.group := by rw [group, gkey, gkey, done_cur]
    rw [hgroup, done_group_of_none h, Table.at?_set_of_ne _ _ hn]
    rfl
  · rw [done_groupAt_of_ne s hk]

/-- IFENCE (R244). -/
theorem exec_ifence_eq {s : State} (hi : s.Issues Instr.ifence.facts) : exec .ifence s = .next s.dropFetches.done := by
  rw [exec_ifence, execIfence, issue_eq hi]

/-- What IFENCE leaves as it was. -/
theorem dropFetches_rest (s : State) : s.dropFetches.cur = s.cur ∧ s.dropFetches.snap = s.snap ∧ s.dropFetches.sys = s.sys ∧
    s.dropFetches.mem = s.mem ∧ s.dropFetches.spad = s.spad ∧ s.dropFetches.acc = s.acc := by
  rw [dropFetches_eq]
  exact ⟨dropFetchesOf_proj _ _ cur fun _ _ _ => rfl, dropFetchesOf_proj _ _ snap fun _ _ _ => rfl,
    dropFetchesOf_proj _ _ State.sys fun _ _ _ => rfl, dropFetchesOf_proj _ _ mem fun _ _ _ => rfl,
    dropFetchesOf_proj _ _ spad fun _ _ _ => rfl, dropFetchesOf_proj _ _ acc fun _ _ _ => rfl⟩

theorem dropFetches_core (s : State) : s.dropFetches.coreAt s.cur.core = { s.core with icache := [], kcache := [] } := by
  rw [dropFetches_eq, dropFetchesOf_proj _ _ (fun t => t.coreAt s.cur.core) fun _ _ _ => rfl, coreAt_setCoreAt]

theorem dropFetches_packet {s : State} {k n : Nat} {y : Split} (hcore : k / 16 = s.cur.core) (hne : (k, n) ≠ (s.gkey, s.cur.split))
    (hgroup : s.groups.at? k ≠ none) (hy : (s.groupAt k).splits.at? n = some y) (hword : y.word = 0) :
    ∃ z, (s.dropFetches.groupAt k).splits.at? n = some z ∧ z.packet = none := by
  obtain ⟨g, hg⟩ := Option.ne_none_iff_exists'.mp hgroup
  rw [dropFetches_eq]
  refine dropFetchesOf_packet hne hy hword (.inl ⟨(k, g), List.mem_filter.mpr ⟨Table.mem_of_at? hg, ?_⟩, rfl⟩)
  exact beq_iff_eq.mpr hcore

/-! ## PUBLISH (R245, R247) -/

section
variable {s : State} {kind : BitVec 5} {go : LaneGo} {effect : State → State}

theorem groupWord_of_fails {cls : FaultClass} {a : DWord} (h : go.check = .fails cls a) :
    s.groupWord kind go effect = s.fault cls a none := by simp only [groupWord, h]

theorem groupWord_of_absent {pages : List Nat} (h : go.check = .absent pages) :
    s.groupWord kind go effect = s.suspend pages kind := by simp only [groupWord, h]

theorem groupWord_of_passes (h : go.check = .passes) : s.groupWord kind go effect = effect s := by simp only [groupWord, h]

end

/-- What becomes of PUBLISH's address (R218, R245). -/
def publishVerdict (s : State) (base : SReg) : LaneCheck :=
  s.globalVerdict (s.readPair base).toNat 8 8 .atomic fun _ _ => true

section
variable {s : State} {base : SReg} (hi : s.Issues (Instr.publish base).facts)
include hi

theorem exec_publish_of_fails {cls : FaultClass} {a : DWord} (h : s.publishVerdict base = .fails cls a) :
    exec (.publish base) s = .next (s.fault cls a none) := by
  rw [exec_publish, execPublish, issue_eq hi]
  exact congrArg _ (groupWord_of_fails ((globalLane_check ..).trans h))

theorem exec_publish_of_absent {pages : List Nat} (h : s.publishVerdict base = .absent pages) :
    exec (.publish base) s = .next (s.suspend pages 3) := by
  rw [exec_publish, execPublish, issue_eq hi]
  exact congrArg _ (groupWord_of_absent ((globalLane_check ..).trans h))

section
variable (h : s.publishVerdict base = .passes)
include h

/-- At a peer's page there is no coherent window. -/
theorem exec_publish_of_not_mem (hplace : ∀ pa, s.globalPlace .atomic (s.readPair base).toNat ≠ .mem pa) :
    exec (.publish base) s = .next (s.fault .permission (s.readPair base) none) := by
  have hcheck := (globalLane_check ..).trans h
  rw [exec_publish, execPublish, issue_eq hi]
  dsimp only
  rw [groupWord_of_passes hcheck, (globalLane_goes hcheck).1]
  cases hcase : s.globalPlace .atomic (s.readPair base).toNat with
  | mem pa => exact absurd hcase (hplace pa)
  | _ => rfl

theorem exec_publish_of_mem {pa : Nat} (hplace : s.globalPlace .atomic (s.readPair base).toNat = .mem pa) :
    exec (.publish base) s = .next (if s.inCoherentWindow pa then s.publishOrWait pa
      else s.fault .permission (s.readPair base) none) := by
  have hcheck := (globalLane_check ..).trans h
  rw [exec_publish, execPublish, issue_eq hi]
  dsimp only
  rw [groupWord_of_passes hcheck, (globalLane_goes hcheck).1, hplace]

end

end

section
variable {s : State}

/-- A version word rises by one. -/
theorem publishAt_effect {pa : Nat} (h : s.poisonedAt pa 8 = false) :
    (s.publishAt pa).mem = s.mem.setBytes pa (toBytes 8 (s.mem.read pa 8 + 1)) ∧ (s.publishAt pa).spad = s.spad ∧
    (s.publishAt pa).last = .done := by
  obtain ⟨c, heq⟩ : ∃ c, s.publishAt pa = ((s.setBlock { s.block with wroteOut := true }).memWrite c pa
      (toBytes 8 (s.mem.read pa 8 + 1))).done := ⟨_, by
    unfold publishAt
    rw [h]
    rfl⟩
  rw [heq, done_mem, done_spad, memWrite_mem]
  exact ⟨rfl, memWrite_proj _ _ spad (fun _ _ => rfl) (fun _ _ _ => rfl) (fun _ _ => rfl) .., done_last _⟩

theorem publishOrWait_of_held {pa : Nat} (h : (s.afterRelease fun t => t.publishAt pa).last = .held) :
    (s.publishOrWait pa).last = .held ∧ ∃ x, (s.publishOrWait pa).split.hold = some x ∧ x.publish = some pa := by
  unfold publishOrWait
  dsimp only
  rw [if_pos h]
  exact ⟨rfl, _, congrArg Split.hold (setSplit_split ..), rfl⟩

theorem publishOrWait_of_free {pa : Nat} (hfree : GroupSys.waiting s.gsys = []) (h : s.poisonedAt pa 8 = false) :
    s.publishOrWait pa = s.publishAt pa := by
  obtain ⟨-, -, hlast⟩ := publishAt_effect h
  unfold publishOrWait
  dsimp only
  rw [afterRelease, if_pos hfree, hlast]
  exact if_neg Last.noConfusion

end

end Sys2Proof.Machine.State
end

section
/-!
O44: tags, what an operation waits for, early reads, and the ordering words (R237 to R247, R252, R253, R260).
-/

set_option Elab.async false

open Sys2Proof Sys2Proof.Machine Sys2Proof.Machine.State

/-- Settles O44: tags by the table of the core's tags, orders by the lists `acqAfter` and `relAfter` that a word leaves and the lists
that an entered operation takes from them; IFENCE by the fold over the core's groups, PUBLISH by its one address. -/
theorem tagsAndOrdering : Obligations.TagsAndOrdering := by
  unfold Obligations.TagsAndOrdering
  refine ⟨fun s d a key p h htags => ?_, fun g accs q writes release hq hopen htries => ?_, fun s c act accs acq rel => ?_,
    fun s e pa => ?_, fun s t l i => afterWords_early, fun s x o base len sc h => ?_⟩
  · intro tag own
    refine ⟨fun hi => ⟨fun k hk hkey hone => ?_, fun hnone => ?_⟩, fun hi => ?_, fun hi => ?_⟩
    · rw [exec_tagl_cases hi, tagged_eq_some h htags hk hkey hone]
    · rw [exec_tagl_cases hi, tagged_eq_none h htags hnone]
    · intro k
      rw [exec_tags_cases h hi]
      refine ⟨fun hk => by rw [if_pos hk], fun hk => ⟨_, by rw [if_neg (Nat.not_le.mpr hk)], ?_⟩⟩
      obtain ⟨htable, hscalars, hblocks, hmemory, hlast⟩ := setTags_done (s := s) (s.tagsSet k (s.readS key))
      dsimp only [tag]
      rw [htable]
      exact ⟨tagsSet_self .., fun j hj hne => tagsSet_own htags hj hne, fun j hj => tagsSet_other htags hk hj, hscalars, hblocks,
        hmemory, hlast⟩
    · intro k
      rw [exec_tagi_cases h hi]
      refine ⟨fun hk => by rw [if_pos hk], fun hk => ⟨_, by rw [if_neg (Nat.not_le.mpr hk)], ?_⟩⟩
      obtain ⟨htable, hscalars, hblocks, hmemory, hlast⟩ := setTags_done (s := s) (s.core.tags.erase (s.block.slot0 + k))
      dsimp only [tag]
      rw [htable]
      exact ⟨Table.at?_erase_self .., fun j hne => Table.at?_erase_of_ne _ hne, hscalars, hblocks, hmemory, hlast⟩
  · have hearlier : q ∈ earlierOps g := mem_earlierOps.mpr ⟨⟨hq, hopen⟩, htries⟩
    exact ⟨mem_mustPrecede hearlier, fun a b ha hb hmeets => mem_touching hearlier ha hb hmeets⟩
  · exact ⟨s.enteredOp act accs rel, post_list .., rfl, rfl, rfl⟩
  · intro gk context hgroup hn halign hplace hfree husable hpoison hentry t
    obtain ⟨l, x, heq, hx, hxplace, hxn, hxvalue⟩ :=
      takeEarly_eq hgroup hn halign hplace (precedes_of_free hfree) husable hpoison hentry
    have hsys : t.sysAt gk = { s.sysAt gk with early := l } := by
      rw [show t = _ from heq]
      exact sysAt_setSysAt ..
    rw [hsys]
    exact ⟨takeEarly_only_sys s e, rfl, x, hx, hxplace, hxn, hxvalue⟩
  · intro ea here read write opened same
    refine ⟨exec_lda_acquires, fun hi hpass => ?_, fun sem hi => ?_, fun hi => ?_, fun hi => ?_, fun hi => ?_⟩
    · obtain ⟨t, p, hexec, hst, hafter⟩ := exec_stl_releases hi hpass
      exact ⟨t, p, hexec, hst, fun q hopen htries => hafter q (mem_earlierOps.mpr ⟨hopen, htries⟩)⟩
    · obtain ⟨hsame, hsys⟩ := ordersOnly_done s (fenceOrders s.gsys sem).1 (fenceOrders s.gsys sem).2
      refine ⟨_, exec_fence_eq hi, hsame, ?_⟩
      rw [hsys]
      exact ⟨fun hsem q hq hopen => fenceOrders_acq hsem hq hopen, fun hsem q hq => fenceOrders_rel hsem (mem_openOps.mpr hq)⟩
    · obtain ⟨hcur, hsnap, hsys, hmem, hspad, hacc⟩ := dropFetches_rest s
      have hcore : s.dropFetches.done.core = { s.core with icache := [], kcache := [] } := by
        rw [State.core, done_cur, hcur, coreAt, done_cores]
        exact dropFetches_core s
      have hgkey : s.dropFetches.gkey = s.gkey := by rw [gkey, gkey, hcur]
      refine ⟨_, exec_ifence_eq hi, by rw [hcore], by rw [hcore], ?_, fun k n y hk hne hgroup hy hword => ?_, .of_eq ?_ ?_ ?_⟩
      · rw [done_gsys, gsys, gsys, sysAt, sysAt, hsys, hgkey]
      · obtain ⟨z, hz, hpacket⟩ := dropFetches_packet hk hne hgroup hy hword
        rw [Group.splitAt, Table.get, done_splits_at? (by rw [hsnap, h]) (by rwa [hgkey, hcur]), hz]
        exact hpacket
      · rw [done_mem, hmem]
      · rw [done_spad, hspad]
      · rw [done_acc, hacc]
    · intro a verdict
      refine ⟨fun cls b => exec_publish_of_fails hi, fun pages => exec_publish_of_absent hi, exec_publish_of_not_mem hi,
        fun hpass pa hplace => ?_⟩
      rw [exec_publish_of_mem hi hpass hplace]
      refine ⟨fun hwindow => by rw [if_neg (by rw [hwindow]; exact Bool.false_ne_true)], fun hwindow hheld => ?_,
        fun hwindow hfree hpoison => ?_⟩
      · obtain ⟨hlast, x, hx, hpublish⟩ := publishOrWait_of_held hheld
        exact ⟨_, x, by rw [if_pos hwindow], hlast, hx, hpublish⟩
      · obtain ⟨hmem, hspad, hlast⟩ := publishAt_effect hpoison
        refine ⟨_, by rw [if_pos hwindow, publishOrWait_of_free hfree hpoison], ?_, fun b hb => ?_, fun b => by rw [hspad], hlast⟩
        · rw [hmem]
          exact Memory.read_write_self s.mem pa 8 _
        · rw [hmem]
          exact Memory.byte_write_of_outside s.mem pa 8 _ b hb
    · intro b n
      rw [exec_flushh_eq hi]
      refine ⟨fun hb => by rw [if_pos hb], fun hb => ?_⟩
      obtain ⟨hsame, hsys⟩ := ordersOnly_done s s.gsys.acqAfter (s.flushOrders b n)
      refine ⟨_, by rw [if_neg (Nat.not_lt.mpr hb)], hsame, ?_⟩
      rw [hsys]
      refine ⟨fun hn i => ?_, fun q y hn hopen hwrites hy hplace hlow hhigh => ?_⟩
      · rw [flushOrders, hn, writesTouching_zero, List.append_nil, mem_distinct]
      · exact mem_distinct.mpr (List.mem_append_right _
          (mem_writesTouching (mem_openOps.mpr hopen) hwrites hn hy hplace hlow hhigh))
end

section
/-!
O53 fails: its clause on exchanges tells by the values of the cells whether a die's replica rises, and asks nothing of the form of the
memory. The model compares memories: in one that lists a zero, the join of two cells of zero takes that entry away, and the die receives
every region in force though no cell of its replica has risen.
-/

set_option Elab.async false

namespace Sys2Proof.Machine

theorem Memory.byte_eq_zero {m : Memory} {a : Nat} (h : ∀ c ∈ m, c.1 = a → c.2 = 0) : m.byte a = 0 := by
  induction m with
  | nil => rfl
  | cons c m ih =>
      obtain ⟨j, b⟩ := c
      rw [Memory.byte]
      split
      · rename_i hj
        exact h _ List.mem_cons_self hj
      · exact ih fun d hd => h d (List.mem_cons_of_mem _ hd)

theorem Memory.read_eq_zero {m : Memory} {a n : Nat} (h : ∀ c, a ≤ c → c < a + n → m.byte c = 0) : m.read a n = 0 := by
  induction n generalizing a with
  | zero => rfl
  | succ n ih =>
      have hrest : m.read (a + 1) n = 0 := ih fun c hlow hhigh => h c (by omega) (by omega)
      rw [show m.read a (n + 1) = (m.byte a).toNat + 256 * m.read (a + 1) n from rfl, h a le_rfl (by omega), hrest]
      rfl

/-- What a LATTICE_EXCHANGE answers where the two dies may exchange (R270). -/
theorem State.exec_latticeExchange_eq_next {s : State} {c region a b : Nat} (h : s.mayExchange c region a b = true) :
    exec (.latticeExchange c region a b) s = .next { s.exchangeLap c region a b with
      cur := s.cur, tick := (s.exchangeLap c region a b).tick + 1 } := by
  rw [exec_latticeExchange, execLatticeExchange, event, if_pos h]

namespace ListedZero

open State

/-! ## Two dies, two regions of one page

Context 1 on dies 0 and 1, with regions 0 and 1 of type max.n32, one page each: region 0 in frame 8 on die 0 and frame 9 on die 1,
region 1 in frames 10 and 11. Every cell is zero but the first of region 1 on die 1, which holds 5. The memory lists a zero in
frame 8. Both dies are in lap 1 of region 0, an exchange with each other before them. -/

/-- The four tables of the walks, from 0x1000 on: each but the last has one entry, the last two lattice leaves (R378, R379). -/
def tables : Memory :=
  ((((Memory.write [] 0x1000 8 0x2000001).write 0x2000 8 0x3000001).write 0x3000 8 0x4000001).write 0x4000 8 0x30080F).write 0x4008 8
    0x40080F

/-- A lap of region 0 with one exchange left. -/
def lap (partner : Nat) : LapState := { LapState.none with number := 1, inLap := true, pending := [partner] }

/-- A descriptor in force of one page (R267). -/
def descriptor (base : Nat) : QWord := BitVec.ofNat 128 (base + 2 ^ 64 + 2 ^ 83 + 2 ^ 84)

def start : State :=
  { State.reset with
    mem := tables ++ [(0x80000, 0), (0xB0000, 5)]
    contexts := [(1, { Context.none with
      vdies := [0, 1], tbase := 0x1000, regions := [(0, descriptor 0), (1, descriptor 0x10000)]
      laps := [(lapKey 0 0, lap 1), (lapKey 0 1, lap 0)] })]
    hw := { State.reset.hw with frameSets := [(3, [8, 9]), (4, [10, 11])] } }

/-- The frame of a region's page on die 0, and on die 1. -/
def frame0 (region _page : Nat) : Nat := 8 + 2 * region
def frame1 (region _page : Nat) : Nat := 9 + 2 * region

/-! ## The hypotheses of the statement -/

theorem may_exchange : start.mayExchange 1 0 0 1 = true := by decide

theorem no_line_fails : start.badReplica 1 0 0 = none ∧ start.badReplica 1 0 1 = none := by decide

/-- The pages in force: page 0 of regions 0 and 1. -/
theorem page_cases {r p : Nat} (h : (∃ e, (start.contextAt 1).regions.at? r = some e ∧ e.getLsbD 83 = true) ∧
    p < regionPages ((start.contextAt 1).regions.get r 0)) : (r = 0 ∨ r = 1) ∧ p = 0 := by
  obtain ⟨⟨e, he, -⟩, hp⟩ := h
  have hregions : (start.contextAt 1).regions = [(0, descriptor 0), (1, descriptor 0x10000)] := rfl
  rw [hregions] at he hp
  have hr : r = 0 ∨ r = 1 := by
    have hmem := Table.mem_of_at? he
    simp only [List.mem_cons, Prod.mk.injEq, List.not_mem_nil, or_false] at hmem
    exact hmem.imp And.left And.left
  have hpages : ∀ r ∈ [0, 1], regionPages (Table.get [(0, descriptor 0), (1, descriptor 0x10000)] r 0) = 1 := by decide
  rw [hpages r (by simpa using hr)] at hp
  exact ⟨hr, by omega⟩

theorem frames_mapped : ∀ r ∈ [0, 1], start.replicaFrame 1 r 0 0 = some (frame0 r 0) ∧ start.replicaFrame 1 r 1 0 = some (frame1 r 0) := by
  decide

theorem region1_in_force : ∃ e, (start.contextAt 1).regions.at? 1 = some e ∧ e.getLsbD 83 = true :=
  ⟨descriptor 0x10000, rfl, by decide⟩

/-! ## No cell of region 0 rises -/

theorem listed_zero : ∀ c ∈ start.mem, c.1 / 65536 = 8 ∨ c.1 / 65536 = 9 → c.2 = 0 := by decide

theorem cells_zero {f k : Nat} (hf : f = 8 ∨ f = 9) (hk : k < 16384) : start.mem.read (65536 * f + 4 * k) 4 = 0 :=
  Memory.read_eq_zero fun a hlow hhigh => Memory.byte_eq_zero fun c hc hca => listed_zero c hc (by omega)

/-- The join of a cell of region 0 is what die 0 holds. -/
theorem joined_cell {k : Nat} (hk : k < 16384) :
    LatType.maxN32.join (start.mem.read (65536 * 8 + 4 * k) 4) (start.mem.read (65536 * 9 + 4 * k) 4) % 2 ^ (8 * 4) =
      start.mem.read (65536 * 8 + 4 * k) 4 := by
  rw [cells_zero (.inl rfl) hk, cells_zero (.inr rfl) hk]
  rfl

/-! ## What the exchange does -/

/-- Die 0 has taken die 1's value of region 1. -/
theorem region1_received : (start.exchangeLap 1 0 0 1).mem.read (65536 * 10) 4 = 5 := by decide

theorem region1_before : start.mem.read (65536 * 10) 4 = 0 := by decide

end ListedZero

end Sys2Proof.Machine

open Sys2Proof Sys2Proof.Machine Sys2Proof.Machine.State Sys2Proof.Machine.ListedZero

/-- Refutes O53: its clause on exchanges has the cells of another region as they were on a die none of whose cells of the exchanged region
rises. In a memory that lists a zero byte in the replica (no `memoryWf`, which the statement does not ask for) the model's join takes
that entry away, counts this as a rise, and joins the other region too. -/
theorem not_latticeEvents : ¬ Obligations.LatticeEvents := by
  unfold Obligations.LatticeEvents
  rintro ⟨-, events⟩
  obtain ⟨-, -, exchange, -⟩ := events start 1 0 0 1
  obtain ⟨hbad0, hbad1⟩ := no_line_fails
  obtain ⟨t, hexec, -, hcells, -⟩ := exchange frame0 frame1 may_exchange (by decide) (by decide) (by decide) hbad0 hbad1 (.inl rfl) rfl
    (by decide)
    (fun r p h => by
      obtain ⟨hr, rfl⟩ := page_cases h
      exact frames_mapped r (by simpa using hr))
    (fun r p i j h h' => by
      obtain ⟨-, rfl⟩ := page_cases h
      obtain ⟨-, rfl⟩ := page_cases h'
      refine ⟨by unfold frame0 frame1; omega, fun hne => ?_⟩
      have hri : r ≠ i := fun heq => hne (by rw [heq])
      unfold frame0 frame1
      omega)
  obtain rfl := Host.Outcome.next.inj ((exec_latticeExchange_eq_next may_exchange).symm.trans hexec)
  have hkept := (hcells frame0 (.inl rfl) 1 0 0 ⟨region1_in_force, by decide⟩ (by decide)).2 (by decide) (by
    rintro ⟨p, k, hpage, hk, hne⟩
    obtain ⟨-, rfl⟩ := page_cases hpage
    refine hne ?_
    exact joined_cell hk)
  exact absurd (region1_received.symm.trans (hkept.trans region1_before)) (by decide)
end
